-- ==== Sys2Proof/Word.lean ====
section
/-! DEFINITION. The word types of the model: what spec/00_scope.md R7 and R11 call a byte, a
64-bit data word, a 32-bit register, and what spec/05 R138 calls a code word. -/

namespace Sys2Proof

/-- One byte. -/
abbrev Byte := BitVec 8
/-- The contents of one 32-bit CSR (R11). -/
abbrev Reg32 := BitVec 32
/-- A 64-bit data word (R7). -/
abbrev Word64 := BitVec 64
/-- A 64-byte line (R7): word n in bits [64n + 63 : 64n]. -/
abbrev Line := BitVec 512
/-- An 80-bit code word (R138). -/
abbrev CodeWord := BitVec 80
/-- One flit (R284). -/
abbrev Flit := BitVec 512
/-- One key set as it travels on one lane (R281). -/
abbrev KeySetBits := BitVec 256

/-- A tumbler number (R18). -/
abbrev Tum := Fin 64
/-- A Fellor port number (R18). -/
abbrev PortN := Fin 16
/-- A management core number (R18). -/
abbrev CoreN := Fin 8
/-- A command ring number (R355). -/
abbrev RingN := Fin 4
/-- A lane of a Fellor port (R18). -/
abbrev LaneN := Fin 16
/-- A physical leaf number; how many are fitted depends on the part (R1). -/
abbrev LeafN := Fin 34

end Sys2Proof
end

