-- ==== Sys2Proof/Config.lean ====
section
/-! DEFINITION. What a part fixes (spec/00_scope.md R1 to R3), and the free values: constants with no
body, of which no proof can see the value. -/

namespace Sys2Proof

/-- The three parts of R1. -/
inductive Part where
  | dq1024
  | dq0512
  | dq0256
  deriving DecidableEq, Repr

/-- Leaves fitted (R1). -/
def Part.leaves : Part → Nat
  | .dq1024 => 34
  | .dq0512 => 17
  | .dq0256 => 9

/-- Active leaves (R1). -/
def Part.activeLeaves : Part → Nat
  | .dq1024 => 32
  | .dq0512 => 16
  | .dq0256 => 8

/-- Spare leaves (R1). -/
def Part.spares : Part → Nat
  | .dq1024 => 2
  | .dq0512 => 1
  | .dq0256 => 1

/-- Physical address width W (R1). -/
def Part.addrWidth : Part → Nat
  | .dq1024 => 40
  | .dq0512 => 39
  | .dq0256 => 38

/-- Regions of 16 MiB (R1). -/
def Part.regions : Part → Nat
  | .dq1024 => 65536
  | .dq0512 => 32768
  | .dq0256 => 16384

/-- The PART code of R3. -/
def Part.code : Part → Nat
  | .dq0256 => 0
  | .dq0512 => 1
  | .dq1024 => 2

namespace Config

/-- FREE VALUE (log 15): the zone power p of the model step of R456, in W, of zone 16 × leaf + zone, from the ACT,
REF and NRR counts since the last evaluation and the currents of the rails; the spec gives no coefficients. -/
opaque zonePower : Nat → Nat → Nat → Nat → List (BitVec 16) → Rat

/-- FREE VALUE (log 58): the model estimate that R456 starts from, by 16 × leaf + zone; the spec gives none. -/
opaque modelStart : Nat → Rat

/-- FREE VALUE (log 59): what R460 puts in place of a Hasp (0) or Strike (1) sensor where every sensor of the die has
failed; the spec gives nothing. -/
opaque dieTemp : Nat → Rat

/-- FREE VALUE (log 16): whether a temperature that is no multiple of 0.25 °C is rounded up into the
10-bit code of R477 to R479; the spec states the code only for the multiples. -/
opaque tempRoundsUp : Rat → Bool

/-- FREE VALUE (log 17): the model coefficient RTH of R456 where no calibration set is in force. -/
opaque defaultRth : Nat → Rat

/-- FREE VALUE (log 12): RTH in °C/W of the 16 bits stored in a calibration set; R469 gives no unit. -/
opaque rthOf : BitVec 16 → Rat

/-- FREE VALUE (log 12): TAU in µs of the 16 bits stored in a calibration set; R469 gives no unit. -/
opaque tauOf : BitVec 16 → Rat

/-- FREE VALUE (log 12): the deskew in UI that the 16 Gb/s starting values of a calibration set hold for receive lane l
of port p, by 16 × p + l (R245, R468); R469 gives them no layout. -/
opaque startDeskew : List Byte → Nat → Int

/-- FREE VALUE (log 12): the sampling phase of the 16 Gb/s starting values, by 16 × p + l (R245); R469 gives no layout. -/
opaque startPhase : List Byte → Nat → BitVec 6

/-- FREE VALUE (log 137): the entry key set of R255 on a lane; the spec gives it no content. -/
opaque entryKeySet : Nat → BitVec 256

/-- FREE VALUE (log 17): the model coefficient TAU of R456 where no calibration set is in force. -/
opaque defaultTau : Nat → Rat

/-- FREE VALUE (log 18): Luantovia's MIPI manufacturer ID of R486. -/
opaque mipiManufacturer : BitVec 15

/-- FREE VALUE (log 18): the low 12 bits of the module's serial number of R486. -/
opaque serialLow : BitVec 12

/-- FREE VALUE (log 18): the instance number in the provisional ID; the spec gives none. -/
opaque pidInstance : BitVec 4

/-- FREE VALUE (log 18): Luantovia's JEDEC manufacturer code of R490. -/
opaque jedecManufacturer : BitVec 11

/-- FREE VALUE (log 18): the Device Characteristics Register that GETDCR of R486 returns; the spec
gives none. -/
opaque i3cDcr : BitVec 8

/-- FREE VALUE (log 132): lines of output that the result buffer of a scan holds (R183, R200); the spec gives no size. -/
opaque scanBuffer : Nat

/-- FREE VALUE (log 19): a value the spec leaves undefined, one per number of the counter `free`. -/
opaque freeValue : Nat → BitVec 64

end Config
end Sys2Proof
end

