-- ==== Sys2Proof/Syntax.lean ====
section
/-! DEFINITION. The commands of the block: one constructor of Instr per row of spec/opcode_table.json,
in the table's order. Operands are the fields of the packet, register write or event that the row
names; what only physics decides (bits a cell has lost, eye areas, sensor readings) is an operand. -/

namespace Sys2Proof

/-- A REQ packet of R299 as taken from port `port`; its Type is the row's. -/
structure Req where
  port : PortN
  flow : BitVec 18
  initiator : BitVec 12
  tag : BitVec 16
  size : BitVec 2
  urgency : BitVec 2
  hint : BitVec 2
  addr : BitVec 40
  /-- LEN in chunks. -/
  len : BitVec 10
  /-- Byte enables (R64), writes only. -/
  be : BitVec 64
  data : Line
  op1 : Word64
  op2 : Word64
  deriving DecidableEq, Repr

/-- A command source of R355. -/
inductive CmdSrc where
  | ring (n : RingN)
  | port (p : PortN)
  deriving DecidableEq, Repr

/-- A command of R359. `initiator` is that of the link header (R301), used on control flows only;
`chunks` is the LEN of the CMD packet that carried it, none on a ring. -/
structure Cmd where
  src : CmdSrc
  initiator : BitVec 12
  chunks : Option (BitVec 10)
  opcode : BitVec 16
  tag : BitVec 16
  len : BitVec 16
  reserved : BitVec 16
  p0 : Word64
  p1 : Word64
  p2 : Word64
  ext : List Byte
  deriving DecidableEq, Repr

/-- The fields of a control flit (R285, R293); `crcOk` says whether its CRC-32 passed. -/
structure CtlFlit where
  ack : BitVec 10
  cred0 : BitVec 12
  cred1 : BitVec 12
  cred2 : BitVec 12
  urg : BitVec 2
  crcOk : Bool
  deriving DecidableEq, Repr

/-- A pair packet of R323: PTYPE is the row's; `body` holds the chunks after the header. -/
structure PairPkt where
  len : BitVec 10
  sub : BitVec 4
  pgen : BitVec 8
  pseq : BitVec 32
  addr : BitVec 40
  wmask : BitVec 8
  ftag : BitVec 16
  body : List (BitVec 16)
  deriving DecidableEq, Repr

/-- A unit that UNIT_DISABLE and UNIT_ENABLE name (R380). -/
inductive UnitId where
  | tum (t : Tum)
  | port (p : PortN)
  | scan (t : Tum)
  | core (c : CoreN)
  deriving DecidableEq, Repr

/-- A block instance that holds a fault set (R397). -/
inductive FltSet where
  | tum (t : Tum)
  | scan (t : Tum)
  | port (p : PortN)
  | leaf (l : LeafN)
  | core (c : CoreN)
  | ivr (n : Fin 8)
  | xbar
  | sen
  | thm
  | evc
  | wrd
  | rmp
  | cnt
  | pair
  | mram
  | usb
  deriving DecidableEq, Repr

/-- An access path of R35: 0 to 7 the cores, 8 BAR0, 9 to 12 the rings, 13 to 28 the control flows. -/
abbrev Path := Fin 29

/-- What the sensors and inputs show at a thermal evaluation (R455): readings in units of 0.25 °C before
trim, none where the conversion has not completed; leaf sensors by leaf and then zone. -/
structure ThermIn where
  leaf : List (Option Int)
  hasp : List (Option Int)
  strike : List (Option Int)
  vinMv : BitVec 16
  holdMv : BitVec 16
  /-- Current of each rail, units of 10 mA, and voltage at its load sense point, mV (R476). -/
  ivr : List (BitVec 16 × BitVec 12)
  deriving DecidableEq, Repr

/-- The commands. -/
inductive Instr where
  -- Requests
  | read (r : Req)
  | write (r : Req)
  | atomicAdd (r : Req)
  | atomicSwap (r : Req)
  | atomicCompareAndSwap (r : Req)
  | atomicAndOr (r : Req)
  /-- The best waiting access of tumbler `t` (R207) enters its queue. -/
  | waitRelease (t : Tum)
  -- Tumbler slots, refresh, power modes
  | commandSlot (t : Tum)
  | throttleEnd (t : Tum)
  /-- Set (leaf `l`, bank number `k`) of tumbler `t` falls due. -/
  | refreshDue (t : Tum) (l : LeafN) (k : Fin 4)
  | refreshWake (t : Tum)
  | trasmaxExpiry (t : Tum) (l : LeafN) (g : Fin 8) (b : Fin 4)
  | idleClose (t : Tum) (l : LeafN) (g : Fin 8) (b : Fin 4)
  /-- The oldest line read of `t` returns; `flips` holds, per word, the bits that the cells have lost. -/
  | codeWordDecode (t : Tum) (flips : List CodeWord)
  | cwcWindowExpiry (t : Tum)
  | lightEntry (t : Tum)
  | wakeComplete (t : Tum)
  | quietEntry (t : Tum)
  | selfRefreshEntry (t : Tum)
  | selfRefreshExit (t : Tum)
  | pwrCfgWrite (t : Tum) (v : Reg32)
  | refCfgWrite (t : Tum) (v : Reg32)
  -- Bus rate and training
  | rateReqWrite (t : Tum) (v : Reg32)
  | rateQuiesced (t : Tum)
  | rateRelockDone (t : Tum)
  | trnStart (t : Tum) (v : Reg32)
  | trnAbort (t : Tum) (v : Reg32)
  /-- The step ends; bit w of `pass` is set where wire w (R105) showed no error. -/
  | trnStepBoundary (t : Tum) (pass : BitVec 336)
  -- Clears and sweeps
  | regionClear (c : Cmd)
  | regionClearDone (r : BitVec 16)
  | sweepStart (t : Tum) (r : BitVec 16)
  | sweepLine (t : Tum) (r : BitVec 16) (flips : List CodeWord)
  | sweepFinish (r : BitVec 16)
  | initialSweepLine (t : Tum)
  | initialSweepFinish (t : Tum)
  /-- Group `g` of 64 regions. -/
  | groupReinitDone (g : BitVec 10)
  -- Scrub, remap, leaf swap
  | patrolScrubRow (t : Tum) (flips : List CodeWord)
  | remapRow (c : Cmd)
  /-- The copy for remap entry `i` finishes; `mramOk` is false where the record failed its verify twice. -/
  | remapCopyDone (i : BitVec 15) (flips : List CodeWord) (mramOk : Bool)
  | leafSwap (c : Cmd)
  | swapCopyLine (t : Tum) (flips : List CodeWord)
  | swapSwitchPoint (t : Tum)
  | swapRetire (t : Tum)
  | leafSwapAbort (c : Cmd)
  | swapAbandonDone (t : Tum)
  -- Scans
  | scanStart (c : Cmd)
  /-- Engine `e` reads its next column line of the scan in slot `s`. -/
  | scanLineRead (s : BitVec 8) (e : Tum) (flips : List CodeWord)
  /-- The next output line: of the bitmap, or of the index output. -/
  | scanOutputWrite (s : BitVec 8) (bitmap : Bool)
  | scanEnd (s : BitVec 8)
  | scanCompletionEvent (s : BitVec 8)
  | scanAbort (c : Cmd)
  -- Ward windows
  | wardWindowStart
  | windowEvaluation
  -- Links and lanes
  | linkEnWrite (p : PortN) (v : Reg32)
  | retrain (p : PortN) (v : Reg32)
  /-- `clk` and `lanes`: terminations sensed on the clock lane and the data lanes. -/
  | detectPoll (p : PortN) (clk : Bool) (lanes : BitVec 16)
  | clockLock (p : PortN)
  | clocklockTimeout (p : PortN)
  | keySetReceived (p : PortN) (lane : LaneN) (bits : KeySetBits)
  | keySetExchangeComplete (p : PortN)
  | trainRateRelock (p : PortN)
  /-- Per lane: the coarse area at the code just measured; in the final step, the phase found. -/
  | trainSweepStep (p : PortN) (meas : List (BitVec 9))
  | ks1Timeout (p : PortN)
  | ks2Timeout (p : PortN)
  | phyRateReqWrite (p : PortN) (v : Reg32)
  | laneLoss (p : PortN) (lane : LaneN)
  | clockLaneLoss (p : PortN)
  /-- `rx`: lanes this receiver found healthy; `tx`: lanes the partner reports healthy. -/
  | retrainLaneTestEnd (p : PortN) (rx tx : BitVec 16)
  | retrainTimeout (p : PortN)
  | upwidth (p : PortN) (v : Reg32)
  /-- Per lane: areas at codes c − 1, c, c + 1, the midpoint of the error-free run, and the least number of
  transitions in any 4,096-UI window. -/
  | adaptationStep (p : PortN) (meas : List (BitVec 9 × BitVec 9 × BitVec 9 × BitVec 6 × BitVec 12))
  | adaptNow (p : PortN) (v : Reg32)
  | eqCodeMove (p : PortN) (lane : LaneN)
  | eqOvrWrite (p : PortN) (lane : LaneN) (v : Reg32)
  | eyeScanStart (p : PortN) (v : Reg32)
  | eyeScanAbort (p : PortN) (v : Reg32)
  /-- `counts`: mismatches, one point or 4,096; `lowDens`: a window below the density of R243 was seen. -/
  | eyeScanDone (p : PortN) (counts : List Nat) (lowDens : Bool)
  | lowpowerEntry (p : PortN)
  | wakeRequest (p : PortN)
  /-- `failed`: lanes in use that fail the check at 1.2 µs. -/
  | lowpowerExitDone (p : PortN) (failed : BitVec 16)
  | testModeWrite (p : PortN) (v : Reg32)
  | pgClear (p : PortN) (v : Reg32)
  | injectionGo (p : PortN) (v : Reg32)
  | injectionMade (p : PortN)
  -- Flits and packets
  /-- `raw`: the 512 bits in flit order as sampled on the lanes, before descrambling. -/
  | dataFlitReceived (p : PortN) (raw : Flit)
  /-- `lanes`: lanes in use on which the KS1 identifier stands at the flit boundary. -/
  | ks1InActive (p : PortN) (lanes : BitVec 16)
  | nakTimeout (p : PortN)
  | ackTimeout (p : PortN)
  /-- A control flit of CTYPE `ctype`: FC, or a reserved CTYPE. -/
  | fc (p : PortN) (ctype : BitVec 5) (c : CtlFlit)
  | nak (p : PortN) (c : CtlFlit)
  | lpReq (p : PortN) (c : CtlFlit)
  | lpAck (p : PortN) (c : CtlFlit)
  | lpDeny (p : PortN) (c : CtlFlit)
  | lpIdleTimeout (p : PortN)
  | lpReqNoAnswer (p : PortN)
  | credit (p : PortN) (c0 c1 c2 : BitVec 12)
  | creditPacketInsert (p : PortN)
  | urgencyUpdate (p : PortN)
  -- Commands
  | cmd (p : PortN) (c : Cmd)
  | commandTake (src : CmdSrc)
  | nop (c : Cmd)
  | csrRead (c : Cmd)
  | csrWrite (c : Cmd)
  | memRead (c : Cmd)
  /-- `data`: the lines fetched from host memory. -/
  | memWrite (c : Cmd) (data : List Line)
  | initDefine (c : Cmd)
  | flowOpen (c : Cmd)
  | flowClose (c : Cmd)
  | flowCloseDone (f : BitVec 18)
  | keyDefine (c : Cmd)
  | keyRevoke (c : Cmd)
  | keyChangeDone (k : BitVec 12)
  | adminSet (c : Cmd)
  | classSet (c : Cmd)
  | guaranteeSet (c : Cmd)
  | planSet (c : Cmd)
  -- Pair
  | pairForm (c : Cmd)
  | pairFormTimeout
  | pairLeave (c : Cmd)
  | pairResync (c : Cmd)
  | pairHomeSet (c : Cmd)
  | hello (p : PortN) (k : PairPkt)
  | helloHeartbeat
  | fwd (p : PortN) (k : PairPkt)
  | replica (p : PortN) (k : PairPkt)
  | pairAck (p : PortN) (k : PairPkt)
  | clear (p : PortN) (k : PairPkt)
  | clearAck (p : PortN) (k : PairPkt)
  | home (p : PortN) (k : PairPkt)
  | homeAck (p : PortN) (k : PairPkt)
  | portmap (p : PortN) (k : PairPkt)
  | portmapAck (p : PortN) (k : PairPkt)
  | fence (p : PortN) (k : PairPkt)
  | unfence (p : PortN) (k : PairPkt)
  | map (p : PortN) (k : PairPkt)
  | resyncDone (p : PortN) (k : PairPkt)
  | resyncLine (p : PortN) (k : PairPkt)
  | resultReadData (p : PortN) (k : PairPkt)
  | resultReject (p : PortN) (k : PairPkt)
  | resyncCopyLine (t : Tum) (flips : List CodeWord)
  | mirrorPortLoss (p : PortN)
  | partnerLossTimeout
  | divergedCommit (mramOk : Bool)
  -- Units and power modes
  | unitDisable (c : Cmd)
  | unitEnable (c : Cmd)
  | shutdownComplete (u : UnitId)
  | unitStartDone (u : UnitId)
  | powerState (c : Cmd)
  | holdStopPoint
  -- Calibration, counters, log, subscriptions
  /-- `res`: what the run measured; its layout by kind is that of the meaning's docstring. -/
  | calRun (c : Cmd) (res : List Int)
  | calStore (c : Cmd) (mramOk : Bool)
  | calRestore (c : Cmd)
  | cntConfig (c : Cmd)
  | logRead (c : Cmd)
  | eventSubscribe (c : Cmd)
  -- Firmware, cores, rings
  | fwLoad (c : Cmd) (mramOk : Bool)
  | fwCommit (c : Cmd) (mramOk : Bool)
  | fwActivate (c : Cmd)
  | fwCoreRestart (n : CoreN) (pass : Bool)
  | coreRestart (n : CoreN) (v : Reg32)
  | ringEnWrite (n : RingN) (v : Reg32)
  /-- `bytes`: host memory of the command ring from the slot at CHEAD on. -/
  | ringCommandFetch (n : RingN) (bytes : List Byte)
  | replyWrite (n : RingN)
  | dmaError (n : RingN)
  | usb4LinkLoss
  /-- A BAR0 request of `size` bytes; `data` none for a read. -/
  | bar0Access (off : BitVec 26) (size : Nat) (data : Option (List Reg32))
  -- Events
  | sourceAccept (src : BitVec 12)
  | eventClaim (c : CoreN) (src : BitVec 12)
  | wfi (c : CoreN)
  | evcSrcCfgWrite (src : BitVec 12) (v : Reg32)
  | evcEoi (v : Reg32)
  | evcSwRaise (v : Reg32)
  | cntClr (src : BitVec 12) (v : Reg32)
  -- Faults
  | faultDetected (b : FltSet) (cls : Fin 24) (detail : BitVec 96) (merged : BitVec 32)
  | fltStatAck (b : FltSet) (v : Reg32)
  | shadowEnd (b : FltSet)
  | logFlush (mramOk : Bool)
  | latchTick
  | dumpComplete
  -- Power failure and rails
  /-- `slope`: the slope test saw it; otherwise the level test. -/
  | brownOut (slope : Bool)
  | drainComplete (t : Tum)
  | mramCommitDone
  | vinRecovery
  | holdExitVin
  | holdVinLow
  | vinHigh
  | railSequenceStep
  | ivrRampStep (r : Fin 8)
  | senIvrTargetWrite (r : Fin 8) (v : Reg32)
  /-- `w`: 0 SEN_QUIET_TUM_LO, 1 SEN_QUIET_TUM_HI, 2 SEN_QUIET_PORTS. -/
  | quietBitWrite (w : Fin 3) (v : Reg32)
  | thermalEvaluation (i : ThermIn)
  /-- Monitor `m` of R475 reads the corrected frequency `freq`. -/
  | speedMonitorRead (m : Fin 2256) (freq : Nat)
  | busDelayStep (t : Tum)
  | refclkLoss
  | refclkReturn
  | timeLoRead (path : Path)
  | gblLockSet (v : Reg32)
  | registerWrite (path : Path) (off : BitVec 26) (v : Reg32)
  | readClear (path : Path) (off : BitVec 26)
  -- Resets and boot
  | porstN
  | wrstN
  | wrstNRise
  | portLogicReset (p : PortN)
  | bootStage
  | tumblerGroupStart (g : Fin 4)
  -- I3C
  | i3cPrivateWrite (bytes : List Byte)
  | i3cPrivateRead (n : Nat)
  | enec (events : BitVec 8)
  | disec (events : BitVec 8)
  | rstdaa
  | entdaa (addr : BitVec 7)
  | setdasa (static addr : BitVec 7)
  | setnewda (addr : BitVec 7)
  | setmwl (n : BitVec 16)
  | setmrl (n : BitVec 16)
  | getpid
  | getbcr
  | getdcr
  | getstatus
  | getmwl
  | getmrl
  | unsupportedCcc (direct : Bool)
  -- Test access
  | bypass
  | idcode
  /-- `shift`: the value shifted in, preloaded into the boundary register. -/
  | samplePreload (shift : BitVec 13)
  | extest (shift : BitVec 13)
  -- Added rows
  | flitSlot (p : PortN)
  | frontStageStart
  | frontStageStop
  /-- `ok`: HOLD_VIN is now at or above 9 V. -/
  | holdOkChange (ok : Bool)
  /-- Zone `z` of leaf `l` reads `temp` (units of 0.25 °C) and refreshes for one base interval. -/
  | leafSelfRefresh (l : LeafN) (z : Fin 16) (temp : Int)
  | usb4Reset
  deriving DecidableEq, Repr

end Sys2Proof
end

