-- ==== Sys2Proof/Decode.lean ====
section
/-! DEFINITION. Words of the opcode table. The table gives no bits for any of its rows: its rows are packets, register
writes and events, whose operands are fields of Instr. So no word spells a command. -/

namespace Sys2Proof

/-- The command that `w` spells by the table's bits: none. -/
def decodeTableWord (_nbits _w : Nat) : Option Instr := none

end Sys2Proof
end

