-- ==== Sys2Proof/Machine/State.lean ====
section
/-! DEFINITION. The state of the block, as plain data, and its value after power-on reset. Registers that
hold stored bits lie in ONE file, `csr`, keyed by CSR offset (R43), with the reset values of the register
tables (Machine/Regs.lean); everything else the spec gives the block has a field below. -/

namespace Sys2Proof.Machine

open Sys2Proof

/-! ## Reasons a step can stop -/

/-- Faults of the model. -/
inductive Fault where
  /-- Raised by an event command that names a leaf the fitted part does not have (R1, R43): the spec has
  no such unit. Safe. -/
  | leafNotFitted
  deriving DecidableEq, Repr

/-- Refusals of the model. -/
inductive Refusal where
  /-- Raised by an arm of exec for a command without a meaning yet. Safe. -/
  | notModelled (mnemonic : String)
  deriving DecidableEq, Repr

/-! ## Accesses -/

/-- The internal masters of R32 in the order of the codes of R136. -/
inductive Master where
  | scan | scrub | sweep | pair | swap | dma | dump | remap
  deriving DecidableEq, Repr

/-- The source of an access as R128 names it. -/
inductive Src where
  | flow (f : BitVec 18)
  | master (m : Master)
  deriving DecidableEq, Repr

/-- What an access does (R62). -/
inductive AccKind where
  | read64 | read256 | write | add | swap | cas | andOr
  deriving DecidableEq, Repr

/-- How far an access has come in its queue (R78 to R80). -/
inductive Stage where
  /-- Its data is not yet in a line slot, or it has not yet been looked at. -/
  | fresh
  /-- It needs RD commands, this many more. -/
  | needRd (n : Nat)
  /-- Its last RD has issued; the data is on its way. -/
  | rdIssued
  /-- It is the write of its line's slot, whose WR has not issued. -/
  | needWr
  deriving DecidableEq, Repr

/-- A physical row: leaf, bank group, bank, row (R71, R72). -/
structure Loc where
  leaf : Nat
  group : Nat
  bank : Nat
  row : Nat
  deriving DecidableEq, Repr

/-- How an access is ordered in a pair. -/
inductive Order where
  /-- Here, without replica. -/
  | local
  /-- Here, without replica, DIVERGED set (R335, R340). -/
  | alone
  /-- Here, with a replica to the partner (R328). -/
  | home
  /-- By the partner (R329, R336, R344). -/
  | remote
  /-- Nowhere: FENCED. -/
  | fenced
  /-- Nowhere: ABORTED (R342). -/
  | abort
  deriving DecidableEq, Repr

/-- An access from its acceptance on. -/
structure Access where
  id : Nat
  kind : AccKind
  src : Src
  port : Option PortN
  /-- Pin generation of the port at acceptance (R499). -/
  gen : BitVec 2
  flow : BitVec 18
  initiator : BitVec 12
  tag : BitVec 16
  cls : BitVec 8
  /-- Effective urgency of R208. -/
  urg : BitVec 2
  hint : BitVec 2
  addr : BitVec 40
  be : BitVec 64
  data : Line
  op1 : Word64
  op2 : Word64
  tum : Tum
  /-- Tumbler-local line index (R46). -/
  line : Nat
  /-- The region's EPOCH at queue entry (R144). -/
  epoch : BitVec 2
  loc : Loc
  stage : Stage
  /-- Tumbler time and slot at queue entry, and the Ward window of the entry (R36, R214). -/
  enterTime : Nat
  enterSlot : Nat
  window : Nat
  /-- Units charged to it so far (R203). -/
  units : Nat
  /-- Left out of R211 and R212 under R213. -/
  excluded : Bool
  /-- Its completion has been produced. -/
  answered : Bool
  /-- It has left the request store before (R304, R340). -/
  left : Bool
  /-- Forward tag of the partner's FWD that it performs (R329). -/
  ftag : Option (BitVec 16)
  /-- Who orders it, settled as it leaves the request store (R328). -/
  ord : Order
  /-- It was sent to the partner, from which no answer can come: it is performed here (R69). -/
  redo : Bool
  deriving DecidableEq, Repr

/-- A line slot of R78: bytes held, and per word the EPOCH under which it is held and its poison (R144).
`whole` marks a slot that holds all eight words because its line was read (R86). -/
structure Slot where
  line : Nat
  be : BitVec 64
  data : Line
  /-- EPOCH of word w in bits [2w + 1 : 2w]. -/
  epochs : BitVec 16
  /-- Word w held poisoned. -/
  poison : BitVec 8
  /-- The WR to the source slice has issued and the one to the swap target is owed (R162). -/
  half : Bool
  loc : Loc
  /-- Class or master that holds the slot, for the shares of R205. -/
  src : Src
  cls : BitVec 8
  deriving DecidableEq, Repr

/-- A line read on its way from the leaf: which access, which of its lines, the place it was read from and the eight
code words that the RD found there. -/
structure Flight where
  acc : Access
  sub : Nat
  loc : Loc
  words : List CodeWord
  deriving DecidableEq, Repr

/-- A read being assembled (R69, R70). -/
structure Assembly where
  id : Nat
  data : BitVec 2048
  poison : BitVec 32
  corrected : Bool
  /-- Some word matched its region's EPOCH. -/
  live : Bool
  left : Nat
  deriving DecidableEq, Repr

/-- A completion of R69 and R70. -/
structure Cmp where
  flow : BitVec 18
  initiator : BitVec 12
  tag : BitVec 16
  status : BitVec 4
  unwritten : Bool
  corrected : Bool
  partner : Bool
  poison : BitVec 32
  /-- Bytes of data: 0, 8, 64 or 256. -/
  bytes : Nat
  data : BitVec 2048
  deriving DecidableEq, Repr

/-! ## Tumblers -/

/-- Tumbler states of R98. -/
inductive TState where
  | offline | initSweep | online | light | quiet | busy | shutting | latchOut
  deriving DecidableEq, Repr

/-- A bank of a leaf-slice. Slots are those of the tumbler's command bus. -/
structure Bank where
  openRow : Option Nat
  actAt : Nat
  okAct : Nat
  okCol : Nat
  okPre : Nat
  lastCol : Nat
  /-- To be precharged in the next free row-command slot (R81, R82). -/
  closing : Bool
  /-- The last access to the open row leaves it open until R81 closes it (R82). -/
  keep : Bool
  /-- Access whose ACT opened the row. -/
  opener : Option Nat
  /-- Hot row reported by an alert that awaits its NRR, and when (R126). -/
  alert : Option (Nat × Nat)
  /-- The last 8 ACTs, newest first (R128): source, row and tumbler time. -/
  last8 : List (Src × Nat × Nat)
  deriving DecidableEq, Repr

/-- A refresh set (R112, R114, R137). -/
structure RefSet where
  debt : Nat
  ptr : Nat
  /-- Earliest slot of the next REF. -/
  okRef : Nat
  /-- Next due instant, in units of 1/480 ns of tumbler time. -/
  due : Nat
  /-- Refreshes that the leaf has performed since self-refresh entry (R137). -/
  away : Nat
  deriving DecidableEq, Repr

/-- Timing of one leaf-slice, in slots. -/
structure SliceTim where
  okActS : Nat
  okRdW : Nat
  /-- Last ACT and last column command per bank group. -/
  actL : Tab Nat
  colL : Tab Nat
  /-- ACT slots of the last tTAW window (R113), newest first; an NRR stands twice. -/
  acts : List Nat
  deriving DecidableEq, Repr

/-- The command path of a tumbler. -/
structure TDram where
  slot : Nat
  /-- Tumbler time in units of 1/480 ns. -/
  time : Nat
  /-- Slot of the last row command. -/
  rowCmd : Option Nat
  banks : Tab Bank
  slices : Tab SliceTim
  acts : List Nat
  /-- Last column command on the bus: slot, leaf, write. -/
  lastCol : Option (Nat × Nat × Bool)
  /-- First slot boundary at which the last write beat has ended, and its leaf. -/
  wrBeat : Option (Nat × Nat)
  okWr : Nat
  /-- TADJ in force (R77). -/
  tadj : Reg32
  deriving DecidableEq, Repr

/-- The queue and line store of a tumbler. -/
structure TQueue where
  queue : List Access
  slots : List Slot
  flight : List Flight
  asm : List Assembly
  /-- In the write phase of R80. -/
  writePhase : Bool
  deriving DecidableEq, Repr

/-- A throttle entry of R129. -/
structure Throttle where
  src : Src
  bank : Nat
  /-- Gap exponent. -/
  gap : Nat
  /-- Tumbler time of the source's last ACT in the bank. -/
  lastAct : Nat
  /-- Hammer window of the last alert that named the source there. -/
  alertWin : Nat
  deriving DecidableEq, Repr

/-- A corrected-word cache entry of R155. -/
structure CwcEntry where
  word : Nat
  count : Nat
  first : Nat
  watch : Option Nat
  deriving DecidableEq, Repr

/-- Steps of a bus rate change (R88). -/
inductive RateStep where
  | idle | quiescing | relocking
  deriving DecidableEq, Repr

/-- What a waking tumbler is to do. -/
inductive Wake where
  | no | light | quiet
  deriving DecidableEq, Repr

/-- Modes of a tumbler. -/
structure TMode where
  state : TState
  reenPend : Bool
  wake : Wake
  /-- The slices are in self-refresh (R133). -/
  self : Bool
  /-- Woken from Light for refresh (R87). -/
  refreshWake : Bool
  /-- Excess being paid (R116). -/
  paying : Bool
  /-- Stopped by a thermal emergency (R123). -/
  emergency : Bool
  rate : RateStep
  /-- The self-refresh was entered for the relock of a rate change (R119). -/
  relockSelf : Bool
  /-- Lines written so far by the initial sweep or re-initialisation (R151). -/
  sweepPtr : Nat
  /-- The initial sweep is a PRESERVE = 0 re-initialisation outside a pair, which writes live regions poisoned, and the
  regions whose clear point has fallen since its start (R381). -/
  reinitPoison : Bool
  cleared : List Nat
  /-- The tumbler has left the initial sweep at least once (R226). -/
  everOnline : Bool
  /-- The shutdown in progress is a fault shutdown (R410). -/
  faultShut : Bool
  /-- A refresh integrity fault has been recorded since the entry into latch-out (R381). -/
  refreshLost : Bool
  deriving DecidableEq, Repr

/-- A training sweep (R90 to R92). -/
structure Training where
  wasOnline : Bool
  /-- Current value of the swept delay. -/
  d : Nat
  abort : Bool
  /-- Per value tried, newest first: the value and the wires that passed. -/
  log : List (Nat × BitVec 336)
  deriving DecidableEq, Repr

/-- Leaf-swap progress of a tumbler beyond SWAP_STAT and SWAP_CFG (R162). -/
structure Swap where
  logical : Nat
  src : Nat
  dst : Nat
  /-- Lines copied. -/
  ptr : Nat
  /-- LEAF_SWAP_ABORT commands that wait for the target to be spare again (R164). -/
  aborts : List Cmd
  /-- Accesses that entered before the switch point or the abandonment. -/
  before : List Nat
  cmd : Option Cmd
  /-- The status owed to the command once its last tumbler is done, where some tumbler abandoned its swap. -/
  failed : Option (BitVec 16)
  deriving DecidableEq, Repr

/-- A tumbler. -/
structure Tumbler where
  dram : TDram
  q : TQueue
  mode : TMode
  sets : Tab RefSet
  /-- Hammer counts, bits [13:0], and tags, bits [15:14], by physical row (R124). -/
  hammer : Tab (BitVec 16)
  throttle : List Throttle
  cwc : List CwcEntry
  training : Option Training
  swap : Option Swap
  /-- Delay in force of each wire (R106, R468), by wire. -/
  wires : Tab (BitVec 6)
  /-- WR_DELAY and RD_PHASE in force, by leaf. -/
  levels : Tab (BitVec 12)
  /-- Leaves whose SRE carried the sensor-suspect flag (R120). -/
  sreSuspect : List Nat
  /-- Leaves whose slices took the last SRE. -/
  sre : List Nat
  /-- Timebase tick since which the tumbler is in a pause of R211, none outside one. -/
  pauseSince : Option Nat
  /-- The pause is the self-refresh of a thermal emergency, which R213 does not name. -/
  pauseHot : Bool
  /-- Ticks of pause in the current window. -/
  pause : Nat
  deriving DecidableEq, Repr

def Bank.init : Bank :=
  { openRow := none, actAt := 0, okAct := 0, okCol := 0, okPre := 0, lastCol := 0, closing := false, keep := false,
    opener := none, alert := none, last8 := [] }

def SliceTim.init : SliceTim := { okActS := 0, okRdW := 0, actL := [], colL := [], acts := [] }

def RefSet.init : RefSet := { debt := 0, ptr := 0, okRef := 0, due := 0, away := 0 }

def TDram.init : TDram :=
  { slot := 0, time := 0, rowCmd := none, banks := [], slices := [], acts := [], lastCol := none,
    wrBeat := none, okWr := 0, tadj := 0 }

def TQueue.init : TQueue := { queue := [], slots := [], flight := [], asm := [], writePhase := false }

def TMode.init : TMode :=
  { state := .offline, reenPend := false, wake := .no, self := false, refreshWake := false, paying := false, emergency := false,
    rate := .idle, relockSelf := false, sweepPtr := 0, reinitPoison := false, cleared := [], everOnline := false,
    faultShut := false, refreshLost := false }

/-- A tumbler after reset: offline (R98). -/
def Tumbler.init : Tumbler :=
  { dram := TDram.init, q := TQueue.init, mode := TMode.init, sets := [], hammer := [], throttle := [],
    cwc := [], training := none, swap := none, wires := [], levels := [], sreSuspect := [], sre := [],
    pauseSince := none, pauseHot := false, pause := 0 }

/-! ## Clears and sweeps -/

/-- A sweep of one region in one tumbler (R148, R149): next line, and how it goes on. -/
structure SweepT where
  region : Nat
  tum : Nat
  started : Bool
  ptr : Nat
  finished : Bool
  /-- Its clear point fell during a re-initialisation of the tumbler, which therefore does not finish it (R149). -/
  late : Bool
  /-- Tumbler time at its start, moved on by the periods that R149 leaves out of its pace. -/
  startTime : Nat
  /-- Accesses that entered before the clear point and hold the start back (R146). -/
  before : List Nat
  deriving DecidableEq, Repr

/-- A region clear on its way: its command, none where the partner asked for it (R333), and the MODE it names. -/
structure ClearCmd where
  cmd : Option Cmd
  /-- Regions held under R147, awaiting the partner under R333, or under re-initialisation (R152). -/
  held : List Nat
  /-- Regions whose clear point has passed and whose tumblers are still to be told (R146 step 3). -/
  passed : List Nat
  mode : Option (BitVec 2)
  /-- The partner refused one of them. -/
  refused : Bool
  deriving DecidableEq, Repr

/-- A re-initialisation of a group under R152. -/
structure Reinit where
  group : Nat
  /-- Its regions that are rewritten: all 64, or those that a boot restored as (0b00, 0b11). -/
  regions : List Nat
  before : List Nat
  /-- Begun by a boot: tumblers in latch-out count as having finished (R503). -/
  boot : Bool
  deriving DecidableEq, Repr

/-! ## Scans -/

/-- Where a scan stands (R194). -/
inductive ScanPhase where
  | running | ending | recorded
  deriving DecidableEq, Repr

/-- Progress of one engine: index of the next column line to look at, and whether it has finished. -/
structure EngProg where
  next : Nat
  done : Bool
  begun : Bool
  deriving DecidableEq, Repr

/-- A scan slot in use (R179). -/
structure Scan where
  phase : ScanPhase
  flow : BitVec 18
  tag : BitVec 16
  format : BitVec 8
  outputs : BitVec 8
  base : BitVec 40
  count : BitVec 32
  bitmapBase : BitVec 40
  indexBase : BitVec 40
  indexCap : BitVec 32
  record : BitVec 40
  tree : Word64
  terms : List Reg32
  consts : List Word64
  engines : Tab EngProg
  /-- Per 64-element word: elements evaluated, and elements selected. -/
  known : Tab Word64
  selected : Tab Word64
  /-- Selected indices in the order of R189, not yet written. -/
  idxQueue : List Nat
  idxWritten : Nat
  /-- Bitmap lines written, by line number. -/
  bitmapDone : List Nat
  total : Nat
  sum : Int
  min : Option (Int × Nat)
  max : Option (Int × Nat)
  status : BitVec 8
  corrected : Bool
  stale : Bool
  overflow : Bool
  poisonLines : Nat
  firstPoison : Option Nat
  noRecord : Bool
  aborts : List Cmd
  /-- Place in the order of acceptance (R183). -/
  order : Nat
  /-- Output writes, or the record write, that have not completed. -/
  outBusy : Nat
  deriving DecidableEq, Repr

/-- Scan engine states that the spec lets be set; Running and Waiting follow from the slots, Disabled from EN (R199, R200). -/
inductive EState where
  | up | shutting | latchOut
  deriving DecidableEq, Repr

/-- A scan engine. -/
structure Engine where
  state : EState
  reenPend : Bool
  deriving DecidableEq, Repr

def Engine.init : Engine := { state := .up, reenPend := false }
/-- What an engine that a scan does not need reads as. -/
def EngProg.init : EngProg := { next := 0, done := true, begun := false }

/-! ## Ward -/

/-- An access as the Ward measures it (R211, R212). -/
structure WardRec where
  id : Nat
  tum : Nat
  cls : Nat
  window : Nat
  units : Nat
  latency : Option Nat
  excluded : Bool
  deriving DecidableEq, Repr

/-- Admitted values of a class as the current window uses them (R221). -/
structure Admitted where
  guar : BitVec 2
  prio : BitVec 2
  floor : BitVec 12
  lat : Reg32
  deriving DecidableEq, Repr

def Admitted.init : Admitted := { guar := 0, prio := 0, floor := 0, lat := 0 }

/-- Effective values of one class in one tumbler in one window (R218, R219). -/
structure Eff where
  cut : Bool
  susp : Bool
  /-- Kept from before the tumbler went offline or into its initial sweep (R218): it counts for restoration alone. -/
  held : Bool
  /-- Units effective where cut or suspended. -/
  val : Nat
  deriving DecidableEq, Repr

/-- A regulation window that has ended, as it is evaluated at the end of the next one (R211, R212, R214). -/
structure WardWin where
  start : Nat
  /-- Its real length in ticks. -/
  len : Nat
  /-- The admitted and the effective values it had (R218, R221). -/
  admitted : Tab Admitted
  eff : Tab Eff
  /-- Ticks that each tumbler paused in it. -/
  pauses : Tab Nat
  /-- Accesses waiting before the queue when it ended: (tumbler, class, lines). -/
  waits : List (Nat × Nat × Nat)
  /-- The accesses that entered the queue in it, as they stood one window later. -/
  recs : List WardRec
  deriving DecidableEq, Repr

/-- The Ward beyond its registers. -/
structure Ward where
  /-- Start tick and length of the current window. -/
  winStart : Nat
  winLen : Nat
  /-- The computation of R218 at the start of the current window has been made. -/
  begun : Bool
  /-- The window before the current one, and those that wait for their evaluation, oldest first. -/
  prev : Option WardWin
  dues : List WardWin
  admitted : Tab Admitted
  /-- Effective values, key 256 t + c, only where below admitted. -/
  eff : Tab Eff
  log : List WardRec
  /-- Units charged in the current window, key 256 t + c (R210). -/
  served : Tab Nat
  /-- Pair-engine units charged in the current and the previous window, by tumbler (R215). -/
  mirror : Tab Nat
  mirrorPrev : Tab Nat
  /-- Units charged to the other internal masters in the current window, key 16 × t + code of R136, and the lines that
  the leaf-swap copier moved, code 8 (R163, R203, R206). -/
  masters : Tab Nat
  deriving DecidableEq, Repr

/-- The Ward in reset; the window that holds tick `now` is under way. -/
def Ward.initAt (now : Nat) : Ward :=
  { winStart := now, winLen := 625 - now % 625, begun := false, prev := none, dues := [], admitted := [], eff := [],
    log := [], served := [], mirror := [], mirrorPrev := [], masters := [] }

def Ward.init : Ward := Ward.initAt 0

/-! ## Fellor ports -/

/-- Link states of R276. -/
inductive LinkState where
  | off | detect | clockLock | trainKs1 | trainSweep | trainKs2 | active | degraded | lowPower | retrain
  | test | latchOut
  deriving DecidableEq, Repr

/-- A reply of R360. -/
structure Reply where
  src : CmdSrc
  initiator : BitVec 12
  opcode : BitVec 16
  tag : BitVec 16
  status : BitVec 16
  result : Word64
  data : List Byte
  deriving DecidableEq, Repr

/-- An event packet of R301. -/
structure EvtPkt where
  initiator : BitVec 12
  source : BitVec 12
  severity : BitVec 8
  count : BitVec 8
  time : Word64
  data : Word64
  seq : BitVec 32
  deriving DecidableEq, Repr

/-- Key sets received on one lane (R279): kind, how many identical valid ones in a row, and the fields. -/
structure LaneKs where
  kind : Nat
  run : Nat
  fields : KeySetBits
  deriving DecidableEq, Repr

/-- A flit in the replay buffer (R289), with how often it has been sent. -/
structure Held where
  seq : BitVec 10
  flit : Flit
  sends : Nat
  deriving DecidableEq, Repr

/-- LowPower handshake (R295). -/
inductive LpState where
  | none | asked | acking | entering | waking
  deriving DecidableEq, Repr

/-- One of the two searches of a pattern checker (R258), for the pattern or for its inverse: bits taken since the load
began, the bits taken or predicted, and how many in a row have matched. -/
structure Search where
  seen : Nat
  reg : Nat
  run : Nat
  /-- The last 64 results, 1 for a mismatch. -/
  hist : BitVec 64
  deriving DecidableEq, Repr

/-- The checker of a lane (R258): in sync on the pattern or its inverse, and both searches. -/
structure Checker where
  sync : Option Bool
  direct : Search
  inverse : Search
  deriving DecidableEq, Repr

def Search.init : Search := { seen := 0, reg := 0, run := 0, hist := 0 }
def Checker.init : Checker := { sync := none, direct := Search.init, inverse := Search.init }

/-- The electrical side of a port beyond its registers. -/
structure PhyS where
  /-- Data lanes whose termination was sensed (R244). -/
  sensed : BitVec 16
  /-- Equaliser code that each lane moves to (R237). -/
  eqTarget : Tab (Option (BitVec 5))
  /-- Training sweep: next code offset step, and per lane the best area and its code. -/
  sweepStep : Nat
  sweepBest : Tab (BitVec 9 × BitVec 5)
  relocked : Bool
  /-- Target rate of the Train (R248) and failures in a row at it. -/
  rate : BitVec 2
  fails : Nat
  /-- Retrain: lanes tested, whether the test has ended, second Retrain, a further one owed, sweep included. -/
  tested : BitVec 16
  rxHealthy : BitVec 16
  txHealthy : BitVec 16
  testEnded : Bool
  second : Bool
  again : Bool
  withSweep : Bool
  /-- The rate has been chosen since the exchange began. -/
  rated : Bool
  /-- Adaptation step running (R240), lanes it has left. -/
  adapting : Bool
  adaptSkip : BitVec 16
  /-- Eye scan: link state in which it started, and FPpp_ES_CTRL then. -/
  es : Option (LinkState × Reg32)
  /-- Bits of an injection still to be inverted, and their lane (R259). -/
  injLeft : Nat
  injLane : BitVec 4
  /-- Lowest rate code that R248 still allows after training failures. -/
  floor : BitVec 2
  /-- MIN_WIDTH and MAX_RATE as they took effect last (R260). -/
  minW : BitVec 2
  maxR : BitVec 2
  /-- Deskew of each receive lane in UI (R232). -/
  deskew : Tab Int
  /-- EQ_DEF of each lane and TRN_SPAN at the start of the sweep (R249, R268). -/
  eqDef : Tab (BitVec 5)
  span : BitVec 5
  /-- Register or pattern place of each lane's generator, and the checkers (R258). -/
  gens : Tab Nat
  chks : Tab Checker
  deriving DecidableEq, Repr

/-- A Fellor port. -/
structure Port where
  link : LinkState
  reenPend : Bool
  shutting : Bool
  phy : PhyS
  ks : Tab LaneKs
  /-- A valid key set of the expected kind has been received, and key sets sent since (R279). -/
  ksHeard : Bool
  ksSent : Nat
  polInv : BitVec 16
  scrTx : List (BitVec 23)
  scrRx : List (BitVec 23)
  rxLast : BitVec 10
  txAcked : BitVec 10
  txNext : BitVec 10
  replay : List Held
  /-- Numbers of flits to be sent again, in order. -/
  resend : List (BitVec 10)
  /-- A failed data flit awaits its replay; a NAK is to be sent. -/
  discarding : Bool
  nakDue : Bool
  /-- Chunks of the packet being received; framing error in force (R297). -/
  rxPart : List (BitVec 16)
  framing : Bool
  /-- Whole packets received and not yet taken, each with its receive stamp (R36, R288), in the order of R67. -/
  rxPkts : List (BitVec 64 × List (BitVec 16))
  /-- Chunks of the packet being sent. -/
  txPart : List (BitVec 16)
  cmpBuf : List Cmp
  rplQ : List Reply
  evtQ : List EvtPkt
  pairQ : List (List (BitVec 16))
  /-- Last limits received, packets sent, limits granted, packets received, by class. -/
  limit : Tab (BitVec 12)
  sent : Tab (BitVec 12)
  granted : Tab (BitVec 12)
  got : Tab (BitVec 12)
  /-- New limits or a new urgency level are to be sent; a CREDIT packet is to be placed. -/
  creditDue : Bool
  creditPkt : Bool
  urgRx : BitVec 2
  urgTx : BitVec 2
  lp : LpState
  /-- Control flit to be sent in the next slot, by CTYPE. -/
  ctlDue : Option (BitVec 5)
  lastTx : Flit
  lastKs : List KeySetBits
  gen : BitVec 2
  stopped : Bool
  cmdQ : List Cmd
  deriving DecidableEq, Repr

def LaneKs.init : LaneKs := { kind := 0, run := 0, fields := 0 }

def PhyS.init : PhyS :=
  { sensed := 0, eqTarget := [], sweepStep := 0, sweepBest := [], relocked := false, rate := 0, fails := 0,
    tested := 0, rxHealthy := 0, txHealthy := 0, testEnded := false, second := false, again := false,
    withSweep := false, rated := false, adapting := false, adaptSkip := 0, es := none,
    injLeft := 0, injLane := 0, floor := 0, minW := 2, maxR := 0, deskew := [], eqDef := [], span := 4,
    gens := [], chks := [] }

/-- A port after reset: Off (R276), numbers of R313. -/
def Port.init : Port :=
  { link := .off, reenPend := false, shutting := false, phy := PhyS.init, ks := [], ksHeard := false, ksSent := 0, polInv := 0,
    scrTx := [], scrRx := [], rxLast := 1023, txAcked := 1023, txNext := 0, replay := [], resend := [],
    discarding := false, nakDue := false, rxPart := [], framing := false, rxPkts := [], txPart := [],
    cmpBuf := [], rplQ := [], evtQ := [], pairQ := [], limit := [], sent := [], granted := [], got := [],
    creditDue := false, creditPkt := false, urgRx := 0, urgTx := 0, lp := .none, ctlDue := none, lastTx := 0,
    lastKs := [], gen := 0, stopped := false, cmdQ := [] }

/-! ## Pair engine -/

/-- Pair engine states of R322. -/
inductive PairState where
  | unpaired | forming | paired | solo | resyncSource | resyncTarget | latchOut
  deriving DecidableEq, Repr

/-- A sequenced packet received and not yet acknowledged (R324); `done` once its effect is safe. -/
structure Hand where
  port : Nat
  ty : Nat
  pkt : PairPkt
  done : Bool
  deriving DecidableEq, Repr

/-- A sequenced packet held until its ACK (R324), with the completion that waits for it (R328). -/
structure HeldPkt where
  port : Nat
  ty : Nat
  pkt : PairPkt
  region : Nat
  done : Option (Access × Cmp)
  deriving DecidableEq, Repr

/-- The pair engine beyond its registers. -/
structure Pair where
  state : PairState
  pgen : BitVec 8
  /-- Next PSEQ to send and last PSEQ received in order, by port. -/
  txSeq : Tab (BitVec 32)
  rxSeq : Tab (BitVec 32)
  held : List HeldPkt
  /-- Forwards outstanding (R329), with their tags. -/
  fwds : List (BitVec 16 × Access)
  nextTag : Nat
  /-- Tumblers that the partner reported fenced (R335). -/
  partnerFenced : BitVec 64
  /-- Regions pending (R343), ascending, and regions added while the map is exchanged. -/
  pending : List Nat
  /-- Region and next line of each tumbler's copy (R344). -/
  copy : Tab Nat
  copyRegion : Option Nat
  /-- Regions whose writes are held: for a clear (R333) or a change of home (R334). -/
  holdClear : List (Nat × Option (BitVec 2) × Option Cmd)
  holdHome : List (Nat × BitVec 2 × Cmd)
  /-- Regions of `holdHome` whose HOME has been sent. -/
  homeSent : List Nat
  /-- Clears that the partner orders and this member holds under R147, with the port and the MODE named. -/
  peerClear : List (Nat × Nat × BitVec 2)
  form : Option Cmd
  leave : Option Cmd
  resync : Option Cmd
  enBefore : BitVec 16
  /-- Blocks of 2,048 regions whose MAP has been received in Solo (R343). -/
  maps : List Nat
  /-- Port lost under R338 and awaiting PORTMAP_ACK. -/
  mapWait : Option Nat
  /-- Ports on which a pair packet was sent since the last heartbeat. -/
  sentOn : BitVec 16
  /-- Divergence-bitmap words not yet written (R340). -/
  dirty : List Nat
  /-- Regions whose source was lost while pending (R346): requests complete with ABORTED. -/
  orphan : List Nat
  /-- Sequenced packets received and not yet acknowledged, in the order of each port (R324). -/
  hands : List Hand
  deriving DecidableEq, Repr

def Pair.init : Pair :=
  { state := .unpaired, pgen := 0, txSeq := [], rxSeq := [], held := [], fwds := [], nextTag := 0,
    partnerFenced := 0, pending := [], copy := [], copyRegion := none, holdClear := [], holdHome := [], homeSent := [], maps := [],
    peerClear := [], form := none, leave := none, resync := none, enBefore := 0, mapWait := none,
    sentOn := 0, dirty := [], orphan := [], hands := [] }

/-! ## Commands, units, rings, cores -/

/-- A subscription of R368. -/
structure Sub where
  source : BitVec 12
  initiator : BitVec 12
  port : BitVec 4
  seq : BitVec 32
  deriving DecidableEq, Repr

/-- Command processing. -/
structure Cmds where
  /-- Commands taken and not yet answered, oldest first (R357). -/
  taken : List Cmd
  /-- FLOW_CLOSE commands that wait for OUTSTANDING to reach 0 (R56). -/
  closing : List (BitVec 18 × Cmd)
  /-- KEY_DEFINE and KEY_REVOKE that wait for the accesses checked against the old contents (R60). -/
  keyWait : List (BitVec 12 × Cmd × List Nat)
  /-- UNIT_DISABLE and UNIT_ENABLE not yet answered; the Bool is PRESERVE. -/
  disabling : List (UnitId × Cmd)
  enabling : List (UnitId × Bool × Cmd)
  /-- Units being started, with PRESERVE. -/
  starting : List (UnitId × Bool)
  /-- Commands taken from a port whose logic has been reset since: they get no reply (R499). -/
  dropped : List Cmd
  /-- Taken commands whose execution has begun and whose reply is owed. -/
  begun : List Cmd
  subs : Tab (Option Sub)
  deriving DecidableEq, Repr

/-- A transfer of the USB4 DMA (R366): lines done, lines found poisoned, and whether a line is on its way. -/
structure Dma where
  id : Nat
  cmd : Cmd
  lines : Nat
  done : Nat
  poisoned : Nat
  busy : Bool
  deriving DecidableEq, Repr

def Cmds.init : Cmds :=
  { taken := [], closing := [], keyWait := [], disabling := [], enabling := [], starting := [], dropped := [], begun := [], subs := [] }

/-- A ring pair beyond its registers: commands read and waiting to be taken, replies waiting. -/
structure RingS where
  cmdQ : List Cmd
  replies : List Reply
  /-- Times that the ring's vector was signalled. -/
  msix : Nat
  /-- The loss of the USB4 link stopped the ring (R373). -/
  stopped : Bool
  deriving DecidableEq, Repr

def RingS.init : RingS := { cmdQ := [], replies := [], msix := 0, stopped := false }

/-- The USB4 port. `out` holds the writes sent to host memory, oldest first; `bar0` what the last BAR0 completion
carried. -/
structure Usb where
  link : Bool
  fenced : Bool
  out : List (Word64 × List Byte)
  bar0 : List Reg32
  deriving DecidableEq, Repr

/-- Core states of R379. -/
inductive CState where
  | off | booting | running | asleep | shutting | latchOut
  deriving DecidableEq, Repr

/-- A management core's architectural registers that the spec names (R377). -/
structure Core where
  state : CState
  reenPend : Bool
  mepc : Word64
  mcause : Word64
  mtval : Word64
  mie : Bool
  mpie : Bool
  mpp : BitVec 2
  evsrc : BitVec 12
  evthr : BitVec 4
  pc : Word64
  /-- Private SRAM of 256 KiB (R24, R376): the bytes written since the core's reset. -/
  sram : List Host.Cell
  deriving DecidableEq, Repr

def Core.init : Core :=
  { state := .off, reenPend := false, mepc := 0, mcause := 0, mtval := 0, mie := false, mpie := false,
    mpp := 0, evsrc := 0, evthr := 0, pc := 0, sram := [] }

/-- A firmware update in progress (R384). -/
structure Update where
  cmd : Cmd
  next : Nat
  failed : BitVec 8
  slot : Bool
  deriving DecidableEq, Repr

/-! ## Faults, events, counters -/

/-- A fault entry of R407. -/
structure Entry where
  time : Word64
  bseq : BitVec 32
  source : BitVec 12
  cls : BitVec 8
  severity : BitVec 3
  conseq : Bool
  escalated : Bool
  merged : Bool
  detail : BitVec 96
  count : BitVec 32
  deriving DecidableEq, Repr

/-- A fault set beyond its registers (R403 to R409). -/
structure FltS where
  /-- History ring, oldest first, at most 8 entries; `next` is its position (R419). -/
  hist : List (Nat × Entry)
  next : BitVec 3
  bseq : BitVec 32
  /-- Condition classes whose condition holds now. -/
  cond : BitVec 24
  deriving DecidableEq, Repr

def FltS.init : FltS := { hist := [], next := 0, bseq := 0, cond := 0 }

/-- A reaction shadow (R405): opened by a fault set's block, with the classes already entered in it. -/
structure Shadow where
  owner : FltSet
  seen : List (FltSet × Nat)
  /-- The shadow of a Fatal stop: every block is a dependant. -/
  fatal : Bool
  deriving DecidableEq, Repr

/-- A counter dump (R426 to R428). -/
structure Dump where
  running : Bool
  /-- Number and latch tick of the last dump begun. -/
  n : Nat
  tick : Nat
  snapshot : Tab (BitVec 48)
  skipped : Nat
  failed : Nat
  /-- CNT_CONFIG commands that wait for the running dump (R430). -/
  config : List Cmd
  /-- The counters block is in latch-out (R400). -/
  fenced : Bool
  /-- Latch ticks that the timebase has reached and the counts at each, oldest first (R37, R426). -/
  edges : List (Nat × Tab (BitVec 48))
  deriving DecidableEq, Repr

def Dump.init : Dump :=
  { running := false, n := 0, tick := 0, snapshot := [], skipped := 0, failed := 0, config := [],
    fenced := false, edges := [] }

/-! ## Power, heat, clocks, boot -/

/-- Cause of a drain as the power record names it (R466). -/
inductive DrainCause where
  | brownOut | powerState | vinHigh | thermalTrip
  /-- A class of the Sentinel set that escalation alone brought to severity 3; the spec gives it no code. -/
  | other
  deriving DecidableEq, Repr

/-- What the module is doing as a whole. -/
inductive PowerMode where
  /-- Supplied, Hasp rails up or coming up. -/
  | on
  /-- Draining under R447. -/
  | draining (c : DrainCause)
  /-- Hold (R451) after a drain; VIN seen below 7 V since. -/
  | hold (c : DrainCause) (vinLow : Bool)
  /-- Retention from VIN after a drain without Hold (R447). -/
  | retained (c : DrainCause)
  /-- No supply: the next start is a cold start (R440, R452). -/
  | off
  deriving DecidableEq, Repr

/-- Power and resets beyond the registers. -/
structure Power where
  mode : PowerMode
  retain : Bool
  /-- Front stage running on VIN (R436). -/
  front : Bool
  /-- Rail rows of R440 that are up, from VSEN on. -/
  railRow : Nat
  railsOn : BitVec 8
  /-- IVR controllers frozen under R459. -/
  frozen : BitVec 8
  /-- Tumblers that have finished the drain (R447). -/
  drained : BitVec 64
  /-- Timebase at the stop point of the last drain (R466). -/
  stopAt : BitVec 64
  /-- A POWER_STATE with code 0b011 has been answered: the stop point is to come (R445). -/
  holdAsked : Bool
  /-- PORST_N holds the module (R495); WRST_N holds Hasp and Strike in reset (R496); WRST_N is low; a warm reset held back by
  a drain (R498). -/
  porst : Bool
  wrst : Bool
  wrstLow : Bool
  wrstHeld : Bool
  /-- A Fatal stop is in force (R401). -/
  fatal : Bool
  /-- Hasp core domain out of reset; Strike logic and pin transport out of reset (R501). -/
  haspUp : Bool
  strikeUp : Bool
  /-- Counter store out of reset; a warm reset leaves it so (R493). -/
  storeUp : Bool
  /-- The boot in progress preserves the contents (R453). -/
  preserve : Bool
  /-- BITS of the tumbler groups started (R502). -/
  groups : BitVec 4
  /-- ALERT_N is asserted (R402). -/
  alert : Bool
  /-- Firmware takes commands (stage 0x4 of R501). -/
  taking : Bool
  deriving DecidableEq, Repr

def Power.init : Power :=
  { mode := .on, retain := false, front := true, railRow := 0, railsOn := 0, frozen := 0,
    drained := 0, stopAt := 0, holdAsked := false, porst := false, wrst := false, wrstLow := false, wrstHeld := false, fatal := false,
    haspUp := false, strikeUp := false, storeUp := false, preserve := false, groups := 0, alert := false,
    taking := false }

/-- A leaf zone (R455 to R460). Temperatures in °C, exact. -/
structure Zone where
  sensor : Rat
  model : Rat
  used : Rat
  band : BitVec 2
  /-- Consecutive evaluations below m − 6 °C are counted per leaf; above m + 6 °C per zone. -/
  above : Nat
  modelLow : Bool
  /-- Tick since which every evaluation found the zone 3 °C below its band (R109). -/
  lowSince : Option Nat
  failed : Bool
  /-- Evaluations without a conversion; tick since which the tests of R460 pass; last reading. -/
  missed : Nat
  okSince : Option Nat
  prev : Option Rat
  deriving DecidableEq, Repr

/-- A Hasp or Strike sensor. -/
structure Sens where
  reading : Rat
  failed : Bool
  missed : Nat
  okSince : Option Nat
  prev : Option Rat
  deriving DecidableEq, Repr

def Zone.init : Zone :=
  { sensor := 0, model := 0, used := 0, band := 0, above := 0, modelLow := false, lowSince := none,
    failed := false, missed := 0, okSince := none, prev := none }

def Sens.init : Sens := { reading := 0, failed := false, missed := 0, okSince := none, prev := none }

/-- The thermal block beyond its registers. -/
structure Thermal where
  zones : Tab Zone
  hasp : Tab Sens
  strike : Tab Sens
  /-- Per leaf: consecutive evaluations with a zone more than 6 °C below the model (R457). -/
  below : Tab Nat
  /-- Leaves flagged sensor suspect; the Sentinel keeps them (R457). -/
  suspect : List Nat
  /-- The model has stopped under R459. -/
  stopped : Bool
  /-- First evaluation taken. -/
  started : Bool
  /-- ACT, REF and NRR per zone since the last evaluation. -/
  acts : Tab Nat
  refs : Tab Nat
  nrrs : Tab Nat
  /-- Ticks since which the Hasp and Strike sensors have all stayed below their lower thresholds (R458). -/
  haspCool : Option Nat
  strikeCool : Option Nat
  deriving DecidableEq, Repr

def Thermal.init : Thermal :=
  { zones := [], hasp := [], strike := [], below := [], suspect := [], stopped := false, started := false,
    acts := [], refs := [], nrrs := [], haspCool := none, strikeCool := none }

/-- Calibration values in force that have no register (R468). -/
structure Calib where
  /-- Hasp trims 0 to 63, Strike trims 64 to 79: layout of LFnn_SENS_TRIM. -/
  trims : Tab (BitVec 16)
  /-- RTH and TAU by 16 × leaf + zone, the 16 bits of R469; none where no calibration set has given them. -/
  rth : Tab (Option (BitVec 16))
  tau : Tab (Option (BitVec 16))
  /-- 16 Gb/s phase and deskew starting values, bytes. -/
  start16 : List Byte
  /-- Speed-monitor references, 16 bits. -/
  speed : Tab (BitVec 16)
  /-- Tumblers whose bus delays of the rate in force still move toward their registers. -/
  busMoving : List Nat
  deriving DecidableEq, Repr

def Calib.init : Calib :=
  { trims := [], rth := [], tau := [], start16 := [], speed := [], busMoving := [] }

/-- The I3C target (R486 to R488). -/
structure I3c where
  dynAddr : Option (BitVec 7)
  enabled : Bool
  pointer : BitVec 32
  mwl : BitVec 16
  mrl : BitVec 16
  /-- Mandatory data bytes of the IBIs pending. -/
  ibis : List Byte
  /-- Bytes of the last answer. -/
  out : List Byte
  /-- The last CCC was acknowledged. -/
  acked : Bool
  deriving DecidableEq, Repr

def I3c.init : I3c :=
  { dynAddr := none, enabled := false, pointer := 0, mwl := 8, mrl := 256, ibis := [], out := [],
    acked := false }

/-- Test instructions of R490. -/
inductive TestInstr where
  | bypass | idcode | samplePreload | extest
  deriving DecidableEq, Repr

/-- A die of the stack, each with its IEEE 1838 wrapper (R23, R491). -/
inductive Die where
  | strike | leaf (l : Fin 34) | hasp
  deriving DecidableEq, Repr

/-- The test port: instruction in force, boundary cells, what the data register captured, whether the lands
are driven from the boundary register. -/
structure Jtag where
  instr : TestInstr
  boundary : BitVec 13
  capture : BitVec 32
  driving : Bool
  /-- Dies that are bypassed in the serial path of IEEE 1838 (R491). -/
  dieBypass : List Die
  deriving DecidableEq, Repr

def Jtag.init : Jtag := { instr := .bypass, boundary := 0, capture := 0, driving := false, dieBypass := [] }

/-- A leaf's own state, by tumbler: the band last sent to the slice, the SR_GUARD sent with it, and the band that the
slice has chosen in self-refresh (R121). -/
structure LeafS where
  sent : Tab (BitVec 2)
  guard : Tab Nat
  selfBand : Tab (BitVec 2)
  deriving DecidableEq, Repr

def LeafS.init : LeafS := { sent := [], guard := [], selfBand := [] }

/-! ## The state -/

/-- The state of the module. -/
structure State where
  part : Part
  pending : List Instr
  now : BitVec 64
  free : Nat
  /-- The register file: 32-bit registers by CSR offset. -/
  csr : Tab Reg32
  /-- HI shadows of R35, key 2^26 × path + offset of the HI register. -/
  shadow : Tab (Option Reg32)
  /-- The value that the last read of one register on each path returned. -/
  readOut : Tab Reg32
  /-- The leaf arrays: 10 bytes per code word (log 4). -/
  dram : List Host.Cell
  /-- Shared SRAM of 4 MiB of the cores (R24, R376): the bytes written since the Hasp core domain's reset. -/
  sram : List Host.Cell
  /-- The MRAM array (R464). -/
  mram : List Host.Cell
  /-- The MRAM has taken its reaction of severity 3: writes are refused (R400). -/
  mramFenced : Bool
  tums : Tab Tumbler
  leaves : Tab LeafS
  /-- Accesses waiting before the queue, in order of arrival (R207). -/
  waiting : List Access
  /-- Requests accepted and not yet completed: access, flow, key (R54, R60). -/
  live : List (Nat × BitVec 18 × BitVec 12)
  nextId : Nat
  sweeps : List SweepT
  clears : List ClearCmd
  reinits : List Reinit
  engines : Tab Engine
  scans : Tab (Option Scan)
  ward : Ward
  ports : Tab Port
  pair : Pair
  cmds : Cmds
  rings : Tab RingS
  dmas : List Dma
  usb : Usb
  cores : Tab Core
  update : Option Update
  /-- Pulses raised and not yet accepted, with severity and DATA (R388, R396). -/
  pulses : List (BitVec 12 × Word64)
  flts : Tab FltS
  shadows : List Shadow
  /-- Entries not yet in MRAM, oldest first; the next log sequence number (R409). -/
  logTail : List Entry
  logSeq : BitVec 32
  counts : Tab (BitVec 48)
  dump : Dump
  power : Power
  thermal : Thermal
  calib : Calib
  i3c : I3c
  jtag : Jtag
  deriving DecidableEq, Repr

/-- The module right after power-on reset (R440, R493 to R495): VSEN in its window, the Sentinel leaving
reset, every other rail off; every register at its reset value (log 1 names the part). -/
def State.reset : State :=
  { part := .dq1024, pending := [], now := 0, free := 0, csr := [], shadow := [], readOut := [], dram := [], sram := [], mram := [], mramFenced := false,
    tums := [], leaves := [], waiting := [], live := [], nextId := 0, sweeps := [], clears := [],
    reinits := [], engines := [], scans := [], ward := Ward.init, ports := [], pair := Pair.init,
    cmds := Cmds.init, rings := [], dmas := [], usb := { link := false, fenced := false, out := [], bar0 := [] }, cores := [],
    update := none, pulses := [], flts := [], shadows := [], logTail := [], logSeq := 0, counts := [],
    dump := Dump.init, power := Power.init, thermal := Thermal.init, calib := Calib.init, i3c := I3c.init,
    jtag := Jtag.init }

end Sys2Proof.Machine
end

