-- ==== Sys2Proof/Machine/Regs.lean ====
section
/-! DEFINITION. The CSR space: block windows (R43), the registers of every chapter with their types and reset
values (R12), fault-set bases (R397), and reads and writes of stored register bits. -/

namespace Sys2Proof.Machine

open Sys2Proof

/-! ## Bits -/

/-- Bits [hi:lo] of `x`. -/
def bits (x hi lo : Nat) : Nat := (x / 2 ^ lo) % 2 ^ (hi - lo + 1)

/-- Bit `i` of `x`. -/
def bit (x i : Nat) : Bool := Nat.testBit x i

/-- `x` with bits [hi:lo] set to `v`. -/
def setBits (x hi lo v : Nat) : Nat :=
  x - bits x hi lo * 2 ^ lo + (v % 2 ^ (hi - lo + 1)) * 2 ^ lo

/-- 0 or 1. -/
def b2n (b : Bool) : Nat := if b then 1 else 0

/-- `o` is one of the `n` offsets `base`, `base + stride`, … -/
def inArr (base stride n o : Nat) : Bool :=
  decide (base ≤ o) && (o - base) % stride == 0 && decide ((o - base) / stride < n)

/-! ## Addresses (R43) -/

def tumReg (t o : Nat) : Nat := 0x02000000 + t * 0x10000 + o
def scnReg (n o : Nat) : Nat := 0x02400000 + n * 0x4000 + o
def fpReg (p o : Nat) : Nat := 0x02600000 + p * 0x10000 + o
def lfReg (l o : Nat) : Nat := 0x02700000 + l * 0x4000 + o
def coreReg (n o : Nat) : Nat := 0x02B00000 + n * 0x10000 + o
def ringReg (n o : Nat) : Nat := 0x02B81000 + 0x40 * n + o
def rgnReg (r : Nat) : Nat := 0x00C00000 + 4 * r
def flwReg (f j : Nat) : Nat := 0x01000000 + 32 * f + 4 * j
def keyHdr (k : Nat) : Nat := 0x01800000 + 128 * k
def keyLo (k n : Nat) : Nat := 0x01800008 + 128 * k + 8 * n
def keyHi (k n : Nat) : Nat := 0x0180000C + 128 * k + 8 * n
def keyInit (i : Nat) : Nat := 0x01900000 + 4 * i
def rmpLo (i : Nat) : Nat := 0x02800000 + 8 * i
def rmpHi (i : Nat) : Nat := 0x02800004 + 8 * i
def wrdReg (o : Nat) : Nat := 0x00800000 + o
def evcReg (o : Nat) : Nat := 0x00400000 + o
def evcSrc (src o : Nat) : Nat := 0x00410000 + 0x20 * src + o
def evcSub (i : Nat) : Nat := 0x00430000 + 4 * i
def senReg (o : Nat) : Nat := 0x00100000 + o
def thmReg (o : Nat) : Nat := 0x00200000 + o
def cntReg (o : Nat) : Nat := 0x02900000 + o
def pairReg (o : Nat) : Nat := 0x02A00000 + o
def adminReg (k : Nat) : Nat := 0x02B80000 + 4 * k
def accStat (p : Nat) : Nat := 0x02B80200 + 4 * p
def fwStat : Nat := 0x02B80300
def mramPage : Nat := 0x02B80304

/-! ## Fault sets (R397) -/

/-- Base of a fault set (R397). -/
def fltBase : FltSet → Nat
  | .tum t => tumReg t 0xFE00
  | .scan t => scnReg t 0x3E00
  | .port p => fpReg p 0xFE00
  | .leaf l => lfReg l 0x3E00
  | .core c => coreReg c 0xFE00
  | .ivr n => 0x001FE000 + n * 0x200
  | .xbar => 0x000FFE00
  | .sen => 0x001FFE00
  | .thm => 0x003FFE00
  | .evc => 0x007FFE00
  | .wrd => 0x00BFFE00
  | .rmp => 0x028FFE00
  | .cnt => 0x029FFE00
  | .pair => 0x02AFFE00
  | .mram => 0x02B90000
  | .usb => 0x02B90200

/-- Fault source of a set (R387). -/
def fltSource : FltSet → Nat
  | .tum t => t
  | .scan t => 0x0C0 + t
  | .port p => 0x200 + p
  | .leaf l => 0x230 + l
  | .core c => 0x260 + c
  | .ivr n => 0x268 + n
  | .xbar => 0x270
  | .evc => 0x271
  | .wrd => 0x272
  | .rmp => 0x273
  | .cnt => 0x274
  | .pair => 0x275
  | .sen => 0x276
  | .thm => 0x277
  | .mram => 0x278
  | .usb => 0x279

/-- Number of a set among the consequential counters (R423). -/
def fltNum : FltSet → Nat
  | .tum t => t
  | .scan t => 64 + t
  | .port p => 128 + p
  | .leaf l => 144 + l
  | .core c => 178 + c
  | .ivr n => 186 + n
  | .xbar => 194
  | .sen => 195
  | .thm => 196
  | .evc => 197
  | .wrd => 198
  | .rmp => 199
  | .cnt => 200
  | .pair => 201
  | .mram => 202
  | .usb => 203

def allFins (n : Nat) : List (Fin n) := List.finRange n

/-- Every fault set of the part. -/
def fltSets (p : Part) : List FltSet :=
  (allFins 64).map .tum ++ (allFins 64).map .scan ++ (allFins 16).map .port
    ++ ((allFins 34).filter (fun l => l.val < p.leaves)).map .leaf ++ (allFins 8).map .core
    ++ (allFins 8).map .ivr ++ [.xbar, .sen, .thm, .evc, .wrd, .rmp, .cnt, .pair, .mram, .usb]

/-- The set with the given number, where the part has it. -/
def fltOfNum (p : Part) (k : Nat) : Option FltSet := (fltSets p).find? (fun b => fltNum b == k)

/-- The fault set whose 512 bytes hold an offset, with the offset inside it. -/
def fltAt (p : Part) (off : Nat) : Option (FltSet × Nat) :=
  let unit (base stride n lo : Nat) (k : Fin n → FltSet) : Option (FltSet × Nat) :=
    let i := (off - base) / stride
    let o := (off - base) % stride
    if h : i < n then
      if base ≤ off ∧ lo ≤ o ∧ o < lo + 512 then some (k ⟨i, h⟩, o - lo) else none
    else none
  let one (b : FltSet) : Option (FltSet × Nat) :=
    if fltBase b ≤ off ∧ off < fltBase b + 512 then some (b, off - fltBase b) else none
  if 0x02000000 ≤ off ∧ off < 0x02400000 then unit 0x02000000 0x10000 64 0xFE00 .tum
  else if 0x02400000 ≤ off ∧ off < 0x02500000 then unit 0x02400000 0x4000 64 0x3E00 .scan
  else if 0x02600000 ≤ off ∧ off < 0x02700000 then unit 0x02600000 0x10000 16 0xFE00 .port
  else if 0x02700000 ≤ off ∧ off < 0x02800000 then
    if (off - 0x02700000) / 0x4000 < p.leaves then unit 0x02700000 0x4000 34 0x3E00 .leaf else none
  else if 0x02B00000 ≤ off ∧ off < 0x02B80000 then unit 0x02B00000 0x10000 8 0xFE00 .core
  else if 0x001FE000 ≤ off ∧ off < 0x001FF000 then unit 0x001FE000 0x200 8 0 .ivr
  else ([FltSet.xbar, .sen, .thm, .evc, .wrd, .rmp, .cnt, .pair, .mram, .usb].filterMap one).head?

/-! ## Register types (R12) -/

/-- A defined register: reset value, and the bits of each type; every other bit is RO or reserved. -/
structure RegDef where
  reset : Nat := 0
  rw : Nat := 0
  w1c : Nat := 0
  w1s : Nat := 0
  rc : Nat := 0
  wo : Nat := 0
  rwl : Nat := 0
  deriving DecidableEq, Repr

/-- A register without writable bits. -/
def roReg : Option RegDef := some {}

def gblReg (p : Part) (o : Nat) : Option RegDef :=
  if o = 0x00 then some { reset := 0x6C010000 + p.code * 4096 + p.leaves * 64 + p.spares * 16 }
  else if o = 0x10 then some { w1s := 1 }
  else if o = 0x20 ∨ o = 0x24 then roReg
  else if o = 0x28 then some { reset := 1, w1c := 2 }
  else if o = 0x30 ∨ o = 0x40 ∨ o = 0x44 ∨ o = 0x48 then roReg
  else if o = 0x4C then some { reset := 3, rw := 7 }
  else none

/-- Nominal set-points in mV, and windows, of the rails (R438). -/
def railNominal (r : Nat) : Nat := [750, 1050, 2500, 800, 500, 750, 900, 900].getD r 0
def railLow (r : Nat) : Nat := [700, 1000, 2400, 750, 450, 700, 850, 850].getD r 0
def railHigh (r : Nat) : Nat := [850, 1100, 2600, 850, 550, 850, 950, 950].getD r 0

def senRegDef (o : Nat) : Option RegDef :=
  if o = 0x00 ∨ o = 0x04 then roReg
  else if o = 0x08 then some { reset := 0x108, rw := 0x10F }
  else if o = 0x0C then some { w1c := 7 }
  else if o = 0x10 ∨ o = 0x14 then roReg
  else if o = 0x20 ∨ o = 0x24 then some { rw := 0xFFFFFFFF }
  else if o = 0x28 then some { rw := 0xFFFF }
  else if o = 0x2C then roReg
  else if inArr 0x100 4 8 o then
    let n := railNominal ((o - 0x100) / 4)
    some { reset := n * 0x10000 + n, rw := 0xFFF }
  else if inArr 0x180 4 8 o then roReg
  else none

def thmRegDef (p : Part) (o : Nat) : Option RegDef :=
  if o = 0 ∨ inArr 0x400 4 p.leaves o ∨ inArr 0x1000 4 (32 * p.leaves) o ∨ inArr 0x3000 4 64 o
    ∨ inArr 0x3100 4 16 o then roReg
  else none

/-- Kinds of event sources (R387). -/
inductive SrcKind where
  | level | pulse | reserved
  deriving DecidableEq, Repr

/-- Kind of an event source, and whether it is asynchronous (R387). -/
def srcKind (p : Part) (n : Nat) : SrcKind × Bool :=
  if n ≤ 0x03F then (.level, false) else if n ≤ 0x0BF then (.pulse, false)
  else if n ≤ 0x0FF then (.level, false) else if n ≤ 0x1FF then (.pulse, false)
  else if n ≤ 0x223 then (.level, true) else if n < 0x230 then (.reserved, false)
  else if n < 0x230 + p.leaves then (.level, true) else if n < 0x260 then (.reserved, false)
  else if n ≤ 0x267 then (.level, false) else if n ≤ 0x26F then (.level, true)
  else if n ≤ 0x275 then (.level, false) else if n = 0x276 then (.level, true)
  else if n = 0x277 then (.level, false) else if n ≤ 0x279 then (.level, true)
  else if n < 0x280 then (.reserved, false) else if n ≤ 0x288 then (.pulse, false)
  else if n = 0x289 then (.pulse, true) else if n = 0x28A then (.pulse, false)
  else if n < 0x800 then (.reserved, false) else if n < 0x1000 then (.pulse, false)
  else (.reserved, false)

def evcRegDef (p : Part) (o : Nat) : Option RegDef :=
  if o = 0 ∨ o = 4 then some { wo := 0xFFF }
  else if o = 8 then some { rw := 7 }
  else if o = 0xC then roReg
  else if 0x10000 ≤ o ∧ o < 0x30000 then
    let n := (o - 0x10000) / 0x20
    let j := (o - 0x10000) % 0x20
    let k := srcKind p n
    if k.1 = .reserved then none
    else if j = 0 then
      some { reset := (if k.2 then 0x10C00 else 0) + (if k.1 = .level then 0x200 else 0) + 0x100, rw := 0xFD7F }
    else if j = 4 then some { wo := 0x80000000 }
    else if j = 8 ∨ j = 0xC then some { rw := 0xFFFFFFFF }
    else if j = 0x10 ∨ j = 0x14 then roReg
    else none
  else if inArr 0x30000 4 1024 o then roReg
  else none

def wrdRegDef (o : Nat) : Option RegDef :=
  if o = 0 then some { reset := 625, rw := 0xFFFF }
  else if o = 4 then some { rw := 0x0FFF03FF }
  else if o = 0x10 then some { w1c := 0xF }
  else if inArr 0x100 4 16 o ∨ inArr 0x400 4 64 o then roReg
  else if 0x1000 ≤ o ∧ o < 0x2000 then
    if o % 16 = 0 then some { reset := 0x20, rw := 0x3F }
    else if o % 16 = 4 then some { rw := 0xFFF }
    else if o % 16 = 8 then some { rw := 0x3FFFFFFF }
    else if o % 16 = 12 then some { rc := 0xFF000000 }
    else none
  else if inArr 0x2000 4 512 o then some { reset := 0x02000000, rw := 0x03FF01FF }
  else if inArr 0x3000 4 8 o then some { w1c := 0xFFFFFFFF }
  else if inArr 0x3020 4 8 o then roReg
  else none

def tumRegDef (p : Part) (o : Nat) : Option RegDef :=
  if o = 0x00 then some { reset := 0x12010180, rw := 0x1FFFFFFF }
  else if o = 0x04 then some { reset := 0x1000, rw := 0xFF03 }
  else if o = 0x08 then some { reset := 0xA, rw := 0x703, w1c := 0x10000 }
  else if o = 0x0C then roReg
  else if o = 0x10 then some { reset := 0x100, rw := 0x1FFFF }
  else if o = 0x14 then some { rw := 0xFFFFF }
  else if o = 0x20 then some { reset := 0x880, rw := 0xFF3 }
  else if o = 0x24 then roReg
  else if o = 0x28 then some { reset := 0x120800, rw := 0x173FFF }
  else if o = 0x2C ∨ o = 0x30 then roReg
  else if o = 0x40 then some { reset := 0x118, rw := 0x1FF }
  else if o = 0x44 then roReg
  else if o = 0x48 then some { reset := 3, rw := 7 }
  else if o = 0x4C ∨ o = 0x50 then roReg
  else if o = 0x54 then some { reset := 10, rw := 0x3F }
  else if o = 0x58 ∨ o = 0x5C then roReg
  else if o = 0x100 then some { reset := 0x14000, rw := 0x3FFFC, wo := 3 }
  else if o = 0x104 then some { reset := 0x13F00, rw := 0xF3F3F }
  else if o = 0x108 then some { reset := 0x20000, w1c := 0xE }
  else if inArr 0x140 4 20 o then some { rw := 0xFFFFFFFF }
  else if inArr 0x200 4 p.activeLeaves o then some { reset := (o - 0x200) / 4 }
  else if inArr 0x400 4 336 o then roReg
  else if 0x2000 ≤ o ∧ o < 0x3800 then
    if inArr 0 4 336 ((o - 0x2000) % 0x800) then some { reset := 32, rw := 0x3F } else none
  else if 0x3800 ≤ o ∧ o < 0x3B00 then
    if inArr 0 4 p.leaves ((o - 0x3800) % 0x100) then some { reset := 0x2020, rw := 0x3F3F } else none
  else if inArr 0x4000 4 (4 * p.leaves) o then roReg
  else none

def scnRegDef (o : Nat) : Option RegDef :=
  if o = 0 then some { reset := 0x104, rw := 0x107 }
  else if o = 4 ∨ o = 8 ∨ o = 0xC ∨ inArr 0x400 4 256 o then roReg
  else none

def fpRegDef (o : Nat) : Option RegDef :=
  if o = 0x00 then some { reset := 0x248, rw := 0x3FF }
  else if o = 0x04 then some { rw := 0x100, wo := 3 }
  else if o = 0x08 then some { reset := 8, rw := 3, w1c := 0x20 }
  else if o = 0x0C then some { reset := 0x40064, rw := 0xFFFFF }
  else if o = 0x10 then some { reset := 0xF }
  else if inArr 0x100 4 16 o then some { reset := (o - 0x100) / 4 * 256, w1c := 0x18 }
  else if o = 0x140 then some { w1c := 0x10 }
  else if inArr 0x200 4 16 o then roReg
  else if inArr 0x280 4 16 o then some { rw := 0x11F }
  else if inArr 0x300 4 48 o then some { reset := 16, rw := 0x1F }
  else if o = 0x400 then some { reset := 0x06202000, rw := 0x0F3F3F1F, wo := 0xC0000000 }
  else if o = 0x404 then some { w1c := 0xE }
  else if o = 0x408 then roReg
  else if inArr 0x1000 4 4096 o then roReg
  else if o = 0x500 then some { reset := 3, rw := 0x107, wo := 8 }
  else if o = 0x504 then some { rw := 0xFFFFFFFF }
  else if inArr 0x510 4 4 o then some { rw := 0xFFFFFFFF }
  else if o = 0x540 ∨ o = 0x580 ∨ o = 0x584 then roReg
  else if inArr 0x600 4 16 o then some { rc := 0xFFFFFFFF }
  else if o = 0x700 then some { reset := 0x100, rw := 0xFF0F, w1c := 0x20000, wo := 0x80000000 }
  else if o = 0x8000 then some { rw := 1, wo := 2 }
  else if o = 0x8004 then some { reset := 0x101000, rw := 0xFFFFFF03 }
  else if o = 0x8008 then roReg
  else if o = 0x800C then some { w1c := 0x7F }
  else if o = 0x8010 then some { w1c := 1 }
  else if o = 0x8014 ∨ o = 0x8018 ∨ o = 0x801C ∨ o = 0x8020 ∨ o = 0x8024 ∨ o = 0x8028 ∨ o = 0x802C then roReg
  else none

/-- Role word of R174 at shipment (R27). -/
def roleReset (p : Part) (l : Nat) : Nat := if l < p.activeLeaves then l * 8 else 1

def lfRegDef (p : Part) (l o : Nat) : Option RegDef :=
  if p.leaves ≤ l then none
  else if inArr 0x40 4 16 o then some { rw := 0xFFFF }
  else if inArr 0x100 4 64 o then some { reset := roleReset p l }
  else none

def coresRegDef (o : Nat) : Option RegDef :=
  if o < 0x80000 then
    if o % 0x10000 = 0 then some { rwl := 0xFFFFFFFE }
    else if o % 0x10000 = 4 then some { wo := 1 }
    else if o % 0x10000 = 8 then roReg
    else none
  else if inArr 0x80000 4 128 o then roReg
  else if inArr 0x80200 4 9 o then some { w1c := 0x80000000 }
  else if o = 0x80300 then roReg
  else if o = 0x80304 then some { rw := 3 }
  else if 0x81000 ≤ o ∧ o < 0x81100 then
    let j := (o - 0x81000) % 0x40
    if j = 0 then some { reset := 0x600, rw := 0x1F03, w1c := 0xC }
    else if j = 4 ∨ j = 0xC then some { rw := 0xFFFFF000 }
    else if j = 8 ∨ j = 0x10 then some { rw := 0xFFFFFFFF }
    else if j = 0x14 ∨ j = 0x20 then some { rw := 0x1FFFF }
    else if j = 0x18 ∨ j = 0x1C then roReg
    else none
  else none

def fltRegDef (o : Nat) : Option RegDef :=
  if o = 0 then some { w1c := 0xFFFFFF }
  else if o = 4 then some { rw := 0xFFFFFF }
  else if o = 8 ∨ o = 0xC ∨ o = 0x10 ∨ o = 0x14 then roReg
  else if inArr 0x100 4 64 o then roReg
  else none

/-- The register at a CSR offset, none where R16 makes the offset reserved. -/
def regDef (p : Part) (off : Nat) : Option RegDef :=
  match fltAt p off with
  | some (_, o) => fltRegDef o
  | none =>
    if off < 0x100000 then gblReg p off
    else if off < 0x200000 then senRegDef (off - 0x100000)
    else if off < 0x400000 then thmRegDef p (off - 0x200000)
    else if off < 0x800000 then evcRegDef p (off - 0x400000)
    else if off < 0xC00000 then wrdRegDef (off - 0x800000)
    else if off < 0x1000000 then
      if inArr 0xC00000 4 p.regions off then
        some { reset := (off - 0xC00000) / 4 % 2 * 1024 + 12 } else none
    else if off < 0x1800000 then if off % 4 = 0 ∧ 0x1000020 ≤ off then roReg else none
    else if off < 0x1900000 then
      if off < 0x1880000 ∧ (off % 128 = 0 ∨ inArr 8 4 16 (off % 128)) then roReg else none
    else if off < 0x2000000 then if inArr 0x1900000 4 4096 off then roReg else none
    else if off < 0x2400000 then tumRegDef p ((off - 0x2000000) % 0x10000)
    else if off < 0x2500000 then scnRegDef ((off - 0x2400000) % 0x4000)
    else if off < 0x2600000 then none
    else if off < 0x2700000 then fpRegDef ((off - 0x2600000) % 0x10000)
    else if off < 0x2800000 then lfRegDef p ((off - 0x2700000) / 0x4000) ((off - 0x2700000) % 0x4000)
    else if off < 0x2900000 then
      if inArr 0x2800000 4 65536 off ∨ off = 0x2840000 then roReg else none
    else if off < 0x2A00000 then
      if off = 0x2900000 then roReg
      else if off = 0x2900004 then some { reset := 6250 }
      else if off = 0x2900008 ∨ off = 0x290000C ∨ off = 0x2900010 then roReg
      else if inArr 0x2910000 4 36864 off then roReg else none
    else if off < 0x2B00000 then
      if off = 0x2A00000 then roReg
      else if off = 0x2A00004 then some { reset := 200, rw := 0xFFFF }
      else if inArr 0x2A00008 4 4 off then roReg
      else if off = 0x2A00018 then some { w1c := 0x1F } else none
    else if off < 0x3000000 then coresRegDef (off - 0x2B00000)
    else none

/-- Reset value of the register at an offset. -/
def regReset (p : Part) (off : Nat) : Reg32 :=
  match regDef p off with
  | some d => BitVec.ofNat 32 d.reset
  | none => 0

/-! ## Stored bits -/

/-- The stored bits of a register. -/
def rd (s : State) (off : Nat) : Reg32 := tget (regReset s.part) s.csr off

/-- Stores all bits of a register. -/
def wr (s : State) (off : Nat) (v : Reg32) : State :=
  { s with csr := tput (regReset s.part) s.csr off v }

/-- A field of a register. -/
def fld (s : State) (off hi lo : Nat) : Nat := bits (rd s off).toNat hi lo

/-- One bit of a register. -/
def flag (s : State) (off i : Nat) : Bool := bit (rd s off).toNat i

/-- Sets a field of a register. -/
def setF (s : State) (off hi lo v : Nat) : State :=
  wr s off (BitVec.ofNat 32 (setBits (rd s off).toNat hi lo v))

/-- Puts registers back to their reset values. -/
def resetRegs (s : State) (p : Nat → Bool) : State := { s with csr := tfilter (fun o => !p o) s.csr }

/-- Value that a write of `v` gives a register by the types of its bits (R12, R13, R17): bits of `rej` belong to
fields whose written value is rejected. -/
def written (d : RegDef) (lock : Bool) (old v rej : Nat) : Nat :=
  let rw := (d.rw ||| (if lock then 0 else d.rwl)) &&& (0xFFFFFFFF ^^^ rej)
  let a := (old &&& (0xFFFFFFFF ^^^ rw)) ||| (v &&& rw)
  let b := a &&& (0xFFFFFFFF ^^^ (v &&& d.w1c))
  b ||| (v &&& d.w1s)

/-- GBL_LOCK.LOCK (R14). -/
def locked (s : State) : Bool := flag s 0x10 0

/-- Writes the stored bits of a defined register, keeping the fields of `rej`. -/
def wrReg (s : State) (off : Nat) (v : Reg32) (rej : Nat) : State :=
  match regDef s.part off with
  | some d => wr s off (BitVec.ofNat 32 (written d (locked s) (rd s off).toNat v.toNat rej))
  | none => s

/-- The fault set that records PARAM for a register (R17). -/
def ownerSet (off : Nat) : FltSet :=
  if off < 0x100000 then .xbar
  else if off < 0x200000 then
    if 0x100100 ≤ off ∧ off < 0x100120 then
      -- rails 0 and 1 to 7 by their controllers (R438)
      match (off - 0x100100) / 4 with
      | 0 => .ivr 0 | 1 => .ivr 2 | 2 => .ivr 3 | 3 => .ivr 3 | 4 => .ivr 4 | 5 => .ivr 5 | 6 => .ivr 6
      | _ => .ivr 7
    else .sen
  else if off < 0x400000 then .thm
  else if off < 0x800000 then .evc
  else if off < 0xC00000 then .wrd
  else if off < 0x2000000 then .xbar
  else if off < 0x2400000 then .tum (Fin.ofNat 64 ((off - 0x2000000) / 0x10000))
  else if off < 0x2500000 then .scan (Fin.ofNat 64 ((off - 0x2400000) / 0x4000))
  else if off < 0x2700000 then .port (Fin.ofNat 16 ((off - 0x2600000) / 0x10000))
  else if off < 0x2800000 then .leaf (Fin.ofNat 34 ((off - 0x2700000) / 0x4000))
  else if off < 0x2900000 then .rmp
  else if off < 0x2A00000 then .cnt
  else if off < 0x2B00000 then .pair
  else if off < 0x2B80000 then .core (Fin.ofNat 8 ((off - 0x2B00000) / 0x10000))
  else if 0x2B81000 ≤ off ∧ off < 0x2B82000 then .usb
  else .xbar

end Sys2Proof.Machine
end

