-- ==== Sys2Proof/Machine/Operands.lean ====
section
/-! DEFINITION. How operands are laid out in bits: packets (R296 to R301, R323), flits and their CRC and
scrambling (R284 to R287), key sets (R281, R282), MRAM words (R466, R467). -/

namespace Sys2Proof.Machine

open Sys2Proof

/-! ## Bytes and chunks, little-endian (R10, R296) -/

/-- The `n` low bytes of `v`, lowest first. -/
def leBytes : Nat → Nat → List Byte
  | 0, _ => []
  | n + 1, v => BitVec.ofNat 8 v :: leBytes n (v / 256)

/-- The number that bytes spell, lowest first. -/
def leNat : List Byte → Nat
  | [] => 0
  | b :: r => b.toNat + 256 * leNat r

/-- The `n` low chunks of `v`. -/
def toChunks : Nat → Nat → List (BitVec 16)
  | 0, _ => []
  | n + 1, v => BitVec.ofNat 16 v :: toChunks n (v / 65536)

/-- The number that chunks spell. -/
def chunkNat : List (BitVec 16) → Nat
  | [] => 0
  | b :: r => b.toNat + 65536 * chunkNat r

/-! ## CRCs -/

/-- Shifts the `n` low bits of `msg`, highest first, into a CRC register of `w` bits. -/
def crcGo (w poly msg : Nat) : Nat → Nat → Nat
  | 0, r => r
  | n + 1, r =>
    let r2 := (2 * r) % 2 ^ w
    crcGo w poly msg n (if bit r (w - 1) != bit msg n then r2 ^^^ poly else r2)

/-- The CRC-32 of R287 of a flit under sequence value `v`. -/
def flitCrc (v flit : Nat) : Nat :=
  crcGo 32 0x04C11DB7 (v % 1024 * 2 ^ 480 + flit % 2 ^ 480) 490 0xFFFFFFFF

/-- The CRC-16 of R282. -/
def keyCrc (k : Nat) : Nat := crcGo 16 0x1021 (bits k 239 32) 208 0xFFFF

/-- The CRC-32 of R383 over bytes, bit 7 of each byte first. -/
def byteCrc (l : List Byte) : Nat :=
  l.foldl (fun r b => crcGo 32 0x04C11DB7 b.toNat 8 r) 0xFFFFFFFF

/-- The CRC-8 of R466 over bits [55:0] (log 20: register 0 at first, bit 55 first). -/
def recCrc (v : Nat) : Nat := crcGo 8 0x07 (v % 2 ^ 56) 56 0

/-! ## Flits (R284 to R287) -/

/-- The flit with header `h`, payload `pay` and the CRC under `v`. -/
def mkFlit (h pay v : Nat) : Flit :=
  let lo := h % 65536 + pay % 2 ^ 464 * 65536
  BitVec.ofNat 512 (lo + flitCrc v lo * 2 ^ 480)

/-- One UI of a lane scrambler (R286): output bit and next register. -/
def scrStep (s : Nat) : Nat × Nat :=
  let o := b2n (bit s 22 != bit s 17)
  (o, (2 * s) % 2 ^ 23 + o)

/-- `n` UI of a scrambler: its output bits, the first at bit `sh` and each next `stride` higher. -/
def scrRun (stride : Nat) : Nat → Nat → Nat → Nat → Nat × Nat
  | 0, _, s, acc => (acc, s)
  | n + 1, sh, s, acc =>
    let (o, s2) := scrStep s
    scrRun stride n (sh + stride) s2 (acc + o * 2 ^ sh)

/-- Seed of the lane at position `j` (R286). -/
def laneSeed (j : Nat) : Nat := 0x3FFFFF ^^^ ((j + 1) * 0x12345)

/-- Scrambling mask of one flit over `n` lanes, and the scramblers after it (R284, R286). -/
def flitMask (n : Nat) (regs : List (BitVec 23)) : Nat × List (BitVec 23) :=
  if n = 0 then (0, regs) else
  let r := (List.range n).map (fun j => scrRun n (512 / n) j (regs.getD j 0).toNat 0)
  (r.foldl (fun m x => m + x.1) 0, r.map (fun x => BitVec.ofNat 23 x.2))

/-- Scramblers freshly seeded for `n` lanes. -/
def seeds (n : Nat) : List (BitVec 23) := (List.range n).map (fun j => BitVec.ofNat 23 (laneSeed j))

/-! ## Key sets (R281, R282) -/

def ks1Id : Nat := 0x9A5C36E1
def ks2Id : Nat := 0x6CA31D97

/-- Scrambling and descrambling of bits [255:32] on logical lane `l`. -/
def keyScramble (l k : Nat) : Nat := k ^^^ (scrRun 1 224 32 (laneSeed l) 0).1

/-- A key set with its check, scrambled for lane `l`. -/
def mkKeySet (ident body l : Nat) : KeySetBits :=
  let k := ident + bits body 239 32 * 2 ^ 32
  BitVec.ofNat 256 (keyScramble l (k + keyCrc k * 2 ^ 240))

/-! ## Packets -/

/-- REQ packet (R299) of type code `ty`. -/
def encodeReq (ty : Nat) (r : Req) : List (BitVec 16) :=
  toChunks r.len.toNat
    (0x04 + r.len.toNat * 2 ^ 6 + r.flow.toNat * 2 ^ 16 + r.initiator.toNat * 2 ^ 34 + r.tag.toNat * 2 ^ 46
      + ty * 2 ^ 62 + r.size.toNat * 2 ^ 66 + r.urgency.toNat * 2 ^ 68 + r.hint.toNat * 2 ^ 70
      + r.addr.toNat * 2 ^ 72
      + (if ty = 1 then r.be.toNat * 2 ^ 128 + r.data.toNat * 2 ^ 192
         else r.op1.toNat * 2 ^ 128 + r.op2.toNat * 2 ^ 192))

/-- CMP packet (R300). -/
def encodeCmp (c : Cmp) : List (BitVec 16) :=
  let n := 8 + c.bytes / 2
  toChunks n
    (0x08 + n * 2 ^ 6 + c.flow.toNat * 2 ^ 16 + c.initiator.toNat * 2 ^ 34 + c.tag.toNat * 2 ^ 46
      + c.status.toNat * 2 ^ 62 + b2n c.unwritten * 2 ^ 66 + b2n c.corrected * 2 ^ 67 + b2n c.partner * 2 ^ 68
      + c.poison.toNat * 2 ^ 80 + c.data.toNat * 2 ^ 128)

/-- Command header and EXT (R359). -/
def cmdBytes (c : Cmd) : List Byte :=
  leBytes 2 c.opcode.toNat ++ leBytes 2 c.tag.toNat ++ leBytes 2 c.len.toNat ++ leBytes 2 c.reserved.toNat
    ++ leBytes 8 c.p0.toNat ++ leBytes 8 c.p1.toNat ++ leBytes 8 c.p2.toNat ++ c.ext

/-- CMD packet (R301). -/
def encodeCmd (c : Cmd) : List (BitVec 16) :=
  let n := (c.chunks.getD 0).toNat
  toChunks n (0x0C + n * 2 ^ 6 + c.initiator.toNat * 2 ^ 16 + leNat (cmdBytes c) * 2 ^ 32)

/-- The command that the bytes of a header and EXT spell; bytes that are not held read as 0 (R359). -/
def cmdOfBytes (src : CmdSrc) (init : BitVec 12) (chunks : Option (BitVec 10)) (l : List Byte) : Cmd :=
  let v := leNat (l.take 32)
  { src := src, initiator := init, chunks := chunks, opcode := BitVec.ofNat 16 (bits v 15 0),
    tag := BitVec.ofNat 16 (bits v 31 16), len := BitVec.ofNat 16 (bits v 47 32),
    reserved := BitVec.ofNat 16 (bits v 63 48), p0 := BitVec.ofNat 64 (bits v 127 64),
    p1 := BitVec.ofNat 64 (bits v 191 128), p2 := BitVec.ofNat 64 (bits v 255 192), ext := l.drop 32 }

/-- Reply header and DATA (R360). -/
def replyBytes (r : Reply) : List Byte :=
  leBytes 2 r.opcode.toNat ++ leBytes 2 r.tag.toNat ++ leBytes 2 r.status.toNat ++ leBytes 2 r.data.length
    ++ leBytes 8 r.result.toNat ++ r.data

/-- RPL packet (R360). -/
def encodeRpl (r : Reply) : List (BitVec 16) :=
  let n := (20 + r.data.length) / 2
  toChunks n (0x0D + n * 2 ^ 6 + r.initiator.toNat * 2 ^ 16 + leNat (replyBytes r) * 2 ^ 32)

/-- EVT packet (R301). -/
def encodeEvt (e : EvtPkt) : List (BitVec 16) :=
  toChunks 14 (0x0E + 14 * 2 ^ 6 + e.initiator.toNat * 2 ^ 16 + e.source.toNat * 2 ^ 32
    + e.severity.toNat * 2 ^ 48 + e.count.toNat * 2 ^ 56 + e.time.toNat * 2 ^ 64 + e.data.toNat * 2 ^ 128
    + e.seq.toNat * 2 ^ 192)

/-- A received packet without the bits that R297 to R301 reserve or its type does not use, which are ignored on receipt. -/
def usedBits (pkt : List (BitVec 16)) : List (BitVec 16) :=
  let n := chunkNat pkt
  let ty := bits n 5 0
  if ty = 4 then
    let top := if bits n 65 62 = 0 then 128 else if bits n 65 62 = 1 then 704 else 256
    toChunks pkt.length (setBits (n % 2 ^ top) 127 112 0)
  else if ty = 12 then toChunks pkt.length (setBits n 31 28 0)
  else if ty = 1 then toChunks pkt.length (setBits n 63 52 0)
  else pkt

/-- CREDIT packet (R298). -/
def encodeCredit (c0 c1 c2 : Nat) : List (BitVec 16) :=
  toChunks 4 (0x01 + 4 * 2 ^ 6 + c0 * 2 ^ 16 + c1 * 2 ^ 28 + c2 * 2 ^ 40)

/-- Pair packet (R323) of PTYPE `ty`. -/
def encodePair (ty : Nat) (k : PairPkt) : List (BitVec 16) :=
  toChunks k.len.toNat (ty + k.len.toNat * 2 ^ 6 + k.sub.toNat * 2 ^ 16 + k.pgen.toNat * 2 ^ 20
    + k.pseq.toNat * 2 ^ 32 + k.addr.toNat * 2 ^ 64 + k.wmask.toNat * 2 ^ 104 + k.ftag.toNat * 2 ^ 112
    + chunkNat k.body * 2 ^ 128)

/-! ## MRAM words (R466, R467) -/

/-- Region record of region `r`. -/
def regionRecord (r epoch sweep mode home : Nat) : Nat :=
  let v := r % 65536 + epoch * 2 ^ 16 + sweep * 2 ^ 18 + mode * 2 ^ 20 + home * 2 ^ 22
  v + recCrc v * 2 ^ 56

/-- The trailer of a slot: SEQ and the CRC-32 over body and SEQ. -/
def trailer (body : List Byte) (seq : Nat) : List Byte :=
  leBytes 4 seq ++ leBytes 4 (byteCrc (body ++ leBytes 4 seq))

end Sys2Proof.Machine
end

