-- ==== Sys2Proof/Machine/Ecc.lean ====
section
/-! DEFINITION. The code word of R138 and its code (R139 to R141). -/

namespace Sys2Proof.Machine

open Sys2Proof

/-- Remainder of m(x) × x^14 by g(x) = 0x4377, for the 66 protected bits `b` (R139). -/
def bchRem (b : Nat) : Nat := crcGo 14 0x0377 b 66 0

/-- The poison syndrome (R141). -/
def poisonSyn : Nat := 0x1D2B

/-- A code word from its parts. -/
def mkWord (data epoch check : Nat) : CodeWord :=
  BitVec.ofNat 80 (data % 2 ^ 64 + epoch % 4 * 2 ^ 64 + check % 2 ^ 14 * 2 ^ 66)

/-- The encoder (R139). -/
def encodeWord (data epoch : Nat) : CodeWord :=
  mkWord data epoch (bchRem (data % 2 ^ 64 + epoch % 4 * 2 ^ 64))

/-- A poisoned word (R141). -/
def poisonWord (epoch : Nat) : CodeWord :=
  mkWord 0 epoch (bchRem (epoch % 4 * 2 ^ 64) ^^^ poisonSyn)

/-- Syndrome of a stored word (R139). -/
def syndrome (w : CodeWord) : Nat := bchRem (bits w.toNat 65 0) ^^^ bits w.toNat 79 66

/-- Syndrome of a single error at word bit `i`. -/
def synAt (i : Nat) : Nat := if i < 66 then bchRem (2 ^ i) else 2 ^ (i - 66)

/-- Classes of R140. -/
inductive WordClass where
  | clean | poisoned | single | double | uncorrectable
  deriving DecidableEq, Repr

/-- What the decoder concludes: class, DATA, EPOCH, and the corrected word. -/
structure Decoded where
  cls : WordClass
  data : Nat
  epoch : Nat
  word : CodeWord
  deriving DecidableEq, Repr

def dataOf (w : CodeWord) : Nat := bits w.toNat 63 0
def epochOf (w : CodeWord) : Nat := bits w.toNat 65 64

/-- The pair of positions whose errors give syndrome `s`, if any. -/
def twoBit (l : List (Nat × Nat)) (s : Nat) : Option (Nat × Nat) :=
  match l with
  | [] => none
  | (i, a) :: r =>
    match r.find? (fun e => a ^^^ e.2 == s) with
    | some e => some (i, e.1)
    | none => twoBit r s

/-- The decoder (R140). -/
def decodeWord (w : CodeWord) : Decoded :=
  let s := syndrome w
  if s = 0 then { cls := .clean, data := dataOf w, epoch := epochOf w, word := w }
  else if s = poisonSyn then { cls := .poisoned, data := 0, epoch := epochOf w, word := w }
  else
    let l := (List.range 80).map (fun i => (i, synAt i))
    match l.find? (fun e => e.2 == s) with
    | some e =>
      let c := w ^^^ BitVec.ofNat 80 (2 ^ e.1)
      { cls := .single, data := dataOf c, epoch := epochOf c, word := c }
    | none =>
      match twoBit l s with
      | some (i, j) =>
        let c := w ^^^ BitVec.ofNat 80 (2 ^ i) ^^^ BitVec.ofNat 80 (2 ^ j)
        { cls := .double, data := dataOf c, epoch := epochOf c, word := c }
      | none => { cls := .uncorrectable, data := 0, epoch := 0, word := w }

end Sys2Proof.Machine
end

