-- ==== Sys2Proof/Machine/Flags.lean ====
section
/-! DEFINITION. Status values and status-field codes: completion statuses (R69), reply statuses (R362), scan
statuses (R193), and the STATE codes of the units (R98, R200, R276, R322, R379). -/

namespace Sys2Proof.Machine

open Sys2Proof

/-! ## Completion statuses (R69) -/

def stSuccess : BitVec 4 := 0
def stPoisoned : BitVec 4 := 1
def stPermission : BitVec 4 := 2
def stRange : BitVec 4 := 3
def stParameter : BitVec 4 := 4
def stFlow : BitVec 4 := 5
def stFenced : BitVec 4 := 6
def stAborted : BitVec 4 := 7

/-! ## Reply statuses (R362) -/

def rcSuccess : BitVec 16 := 0
def rcUnknownOpcode : BitVec 16 := 0x0100
def rcBadLength : BitVec 16 := 0x0101
def rcReservedSet : BitVec 16 := 0x0102
def rcBadValue : BitVec 16 := 0x0103
def rcBadAlign : BitVec 16 := 0x0104
def rcBadRange : BitVec 16 := 0x0105
def rcBadUnit : BitVec 16 := 0x0106
def rcBadRef : BitVec 16 := 0x0107
def rcPartialGroup : BitVec 16 := 0x0108
def rcBadPredicate : BitVec 16 := 0x0109
def rcOverlap : BitVec 16 := 0x010A
def rcPairMismatch : BitVec 16 := 0x010B
def rcBadImage : BitVec 16 := 0x010C
def rcSourceInvalid : BitVec 16 := 0x0200
def rcNotPermitted : BitVec 16 := 0x0201
def rcNoPermission : BitVec 16 := 0x0202
def rcFlowInvalid : BitVec 16 := 0x0203
def rcReadOnly : BitVec 16 := 0x0204
def rcState : BitVec 16 := 0x0300
def rcRegionBusy : BitVec 16 := 0x0301
def rcInUse : BitVec 16 := 0x0302
def rcInProgress : BitVec 16 := 0x0303
def rcTooLate : BitVec 16 := 0x0304
def rcPairState : BitVec 16 := 0x0305
def rcSuperseded : BitVec 16 := 0x0306
def rcEnablePending : BitVec 16 := 0x0307
def rcNoImage : BitVec 16 := 0x0308
def rcTableFull : BitVec 16 := 0x0400
def rcNoSpare : BitVec 16 := 0x0401
def rcNoSlot : BitVec 16 := 0x0402
def rcNotAdmissible : BitVec 16 := 0x0403
def rcNoSubscription : BitVec 16 := 0x0404
def rcUnitFenced : BitVec 16 := 0x0500
def rcUnitInReset : BitVec 16 := 0x0501
def rcMramFault : BitVec 16 := 0x0502
def rcUpdateFailed : BitVec 16 := 0x0503
def rcInternal : BitVec 16 := 0x0504

/-! ## State codes -/

def TState_code : TState → Nat
  | .offline => 0 | .initSweep => 1 | .online => 2 | .light => 3 | .quiet => 4 | .busy => 5 | .shutting => 6
  | .latchOut => 7

def LinkState_code : LinkState → Nat
  | .off => 0 | .detect => 1 | .clockLock => 2 | .trainKs1 => 3 | .trainSweep => 4 | .trainKs2 => 5
  | .active => 6 | .degraded => 7 | .lowPower => 8 | .retrain => 9 | .test => 10 | .latchOut => 11

def PairState_code : PairState → Nat
  | .unpaired => 0 | .forming => 1 | .paired => 2 | .solo => 3 | .resyncSource => 4 | .resyncTarget => 5
  | .latchOut => 6

def CState_code : CState → Nat
  | .off => 0 | .booting => 1 | .running => 2 | .asleep => 3 | .shutting => 4 | .latchOut => 5

/-- Cause code of the power record (R466); `f` stands in where the spec gives no code (log 21). -/
def DrainCause_code (c : DrainCause) (f : Nat) : Nat :=
  match c with
  | .brownOut => 1 | .powerState => 2 | .vinHigh => 3 | .thermalTrip => 4 | .other => f

/-- Lanes of a width code of R264. -/
def widthLanes (c : Nat) : Nat := if c = 0 then 16 else if c = 1 then 8 else if c = 2 then 4 else 0

/-- Width code of a number of healthy lanes, given the narrowest width accepted (R252). -/
def widthOf (n minW : Nat) : Nat :=
  let c := if 16 ≤ n then 0 else if 8 ≤ n then 1 else if 4 ≤ n then 2 else 3
  if minW < c then 3 else c

/-- Urgency coding of a fill level in quarters (R209, R305). -/
def urgOf (n : Nat) : BitVec 2 := if n < 128 then 0 else if n < 256 then 1 else if n < 384 then 2 else 3

/-- Number of ones of `x` below bit `n`. -/
def popNat (n x : Nat) : Nat := foldUpTo n (fun a i => a + b2n (bit x i)) 0

/-- The `k` lowest set bits of `x` below bit `n`. -/
def lowestBits (n k x : Nat) : Nat :=
  (foldUpTo n (fun (a : Nat × Nat) i => if bit x i && decide (a.2 < k) then (a.1 + 2 ^ i, a.2 + 1) else a) (0, 0)).1

/-- Bin of a latency in ns (R425). -/
def histBin (l : Nat) : Nat :=
  if l < 64 then 0 else if 2097152 ≤ l then 31
  else 2 * (Nat.log2 l - 6) + 1 + b2n (bit l (Nat.log2 l - 1))

end Sys2Proof.Machine
end

