-- ==== Sys2Proof/Machine/Ops.lean ====
section
/-! DEFINITION. Named operations over the state that every family shares: units, counters (R420), event pulses
(R388), MRAM words (R465), in-band interrupts (R488), and the recording of a fault (R403 to R409). -/

namespace Sys2Proof.Machine

open Sys2Proof

/-- The outcome of a command that the block performs. -/
abbrev Out := Host.Outcome State Fault Refusal

/-! ## Units -/

def noTum : Nat → Tumbler := fun _ => Tumbler.init
def noPort : Nat → Port := fun _ => Port.init
def noCore : Nat → Core := fun _ => Core.init
def noEng : Nat → Engine := fun _ => Engine.init
def noRing : Nat → RingS := fun _ => RingS.init
def noFlt : Nat → FltS := fun _ => FltS.init
def noScan : Nat → Option Scan := fun _ => none
def noLeaf : Nat → LeafS := fun _ => LeafS.init
def noZone : Nat → Zone := fun _ => Zone.init
def noSens : Nat → Sens := fun _ => Sens.init
def noSub : Nat → Option Sub := fun _ => none
def noSet : Nat → RefSet := fun _ => RefSet.init
def zero {α : Type} [OfNat α 0] : Nat → α := fun _ => 0

def State.tum (s : State) (t : Nat) : Tumbler := tget noTum s.tums t
def State.setTum (s : State) (t : Nat) (x : Tumbler) : State := { s with tums := tput noTum s.tums t x }
def State.modTum (s : State) (t : Nat) (f : Tumbler → Tumbler) : State := s.setTum t (f (s.tum t))
def State.port (s : State) (p : Nat) : Port := tget noPort s.ports p
def State.setPort (s : State) (p : Nat) (x : Port) : State := { s with ports := tput noPort s.ports p x }
def State.modPort (s : State) (p : Nat) (f : Port → Port) : State := s.setPort p (f (s.port p))
def State.core (s : State) (c : Nat) : Core := tget noCore s.cores c
def State.setCore (s : State) (c : Nat) (x : Core) : State := { s with cores := tput noCore s.cores c x }
def State.eng (s : State) (n : Nat) : Engine := tget noEng s.engines n
def State.setEng (s : State) (n : Nat) (x : Engine) : State := { s with engines := tput noEng s.engines n x }
def State.ring (s : State) (n : Nat) : RingS := tget noRing s.rings n
def State.setRing (s : State) (n : Nat) (x : RingS) : State := { s with rings := tput noRing s.rings n x }
def State.flt (s : State) (b : FltSet) : FltS := tget noFlt s.flts (fltNum b)
def State.setFlt (s : State) (b : FltSet) (x : FltS) : State := { s with flts := tput noFlt s.flts (fltNum b) x }
def State.scan (s : State) (n : Nat) : Option Scan := tget noScan s.scans n
def State.setScan (s : State) (n : Nat) (x : Option Scan) : State := { s with scans := tput noScan s.scans n x }
def State.zone (s : State) (l z : Nat) : Zone := tget noZone s.thermal.zones (16 * l + z)

/-- Mode of a tumbler. -/
def tstate (s : State) (t : Nat) : TState := (s.tum t).mode.state
def setMode (s : State) (t : Nat) (f : TMode → TMode) : State :=
  s.modTum t (fun x => { x with mode := f x.mode })
def setQ (s : State) (t : Nat) (f : TQueue → TQueue) : State := s.modTum t (fun x => { x with q := f x.q })
def setDram (s : State) (t : Nat) (f : TDram → TDram) : State := s.modTum t (fun x => { x with dram := f x.dram })
def setPhy (s : State) (p : Nat) (f : PhyS → PhyS) : State := s.modPort p (fun x => { x with phy := f x.phy })

/-- The port sends and receives flits (R276, R277). -/
def carries (s : State) (p : Nat) : Bool := (s.port p).link = .active || (s.port p).link = .degraded

/-- The Hasp core domain is out of reset (R493). -/
def haspLive (s : State) : Bool := s.power.haspUp && !s.power.wrst && !s.power.porst

/-- Units issue and commands run: not in reset, a drain, Hold or a Fatal stop (R401, R447, R496). -/
def running (s : State) : Bool := haspLive s && !s.power.fatal && s.power.mode = .on

/-- Every step of a state, or none where its condition fails: an event that the state does not allow has no effect
(log 22). -/
def when (c : Bool) (s : State) (t : State) : State := if c then t else s

/-- A free value, and the state after it was taken (log 19). -/
def fresh (s : State) : BitVec 64 × State := (Config.freeValue s.free, { s with free := s.free + 1 })

/-! ## Counters (R420 to R424) -/

/-- Adds `n` occurrences to a slot. -/
def count (s : State) (slot n : Nat) : State :=
  if s.dump.fenced then s else
  { s with counts := tput zero s.counts slot (tget zero s.counts slot + BitVec.ofNat 48 n) }

def cXbar (i : Nat) : Nat := 16 + i
def cCmd (i : Nat) : Nat := 48 + i
def cPair (i : Nat) : Nat := 112 + i
def cUsb (i : Nat) : Nat := 176 + i
def cSen (i : Nat) : Nat := 208 + i
def cLeaf (l i : Nat) : Nat := 480 + 16 * l + i
def cPort (p i : Nat) : Nat := 1024 + 64 * p + i
def cTum (t i : Nat) : Nat := 2048 + 64 * t + i
def cScan (n i : Nat) : Nat := 6144 + 16 * n + i
def cWard (c i : Nat) : Nat := 7168 + 4 * c + i
def cHistT (t b : Nat) : Nat := 8192 + 32 * t + b
def cHistC (c b : Nat) : Nat := 10240 + 32 * c + b

/-! ## Events -/

/-- Raises one pulse of a source (R388). -/
def raise (s : State) (src : Nat) (data : Nat) : State :=
  { s with pulses := s.pulses ++ [(BitVec.ofNat 12 src, BitVec.ofNat 64 data)] }

/-- Requests an IBI whose enable is bit `i` of GBL_I3C_CFG (R488). -/
def ibi (s : State) (b : Byte) (i : Nat) : State :=
  if s.i3c.enabled && flag s 0x4C i && !s.i3c.ibis.contains b then
    { s with i3c := { s.i3c with ibis := s.i3c.ibis ++ [b] } }
  else s

/-! ## Byte memories -/

/-- `n` bytes of a byte memory whose unlisted bytes read 0 (log 4, log 5). -/
def cellGet (m : List Host.Cell) (a : Nat) : Nat → List Byte
  | 0 => []
  | n + 1 => tget zero m a :: cellGet m (a + 1) n

/-- Writes bytes from `a` on. -/
def cellPut (m : List Host.Cell) (a : Nat) : List Byte → List Host.Cell
  | [] => m
  | b :: r => cellPut (tput zero m a b) (a + 1) r

/-- The 8-byte MRAM word at byte offset `a`. -/
def mramWord (s : State) (a : Nat) : Nat := leNat (cellGet s.mram a 8)

/-- Writes whole MRAM words (R465); each counts. A fenced MRAM takes none (R400). -/
def mramPut (s : State) (a : Nat) (l : List Byte) : State :=
  if s.mramFenced then s else count { s with mram := cellPut s.mram a l } (cSen 5) ((l.length + 7) / 8)

/-! ## Fault recording -/

/-- Native severity of a class, and whether it is a condition class (R398, R459). -/
def faultClass (b : FltSet) (c : Nat) : Bool × Nat :=
  if c = 0 then (false, 0) else
  match b with
  | .tum _ => (c = 4, [0, 0, 1, 2, 2, 3, 3, 2].getD c 0)
  | .scan _ => (false, [0, 0, 3].getD c 0)
  | .port _ => (false, [0, 0, 2, 2, 2, 3, 1, 1, 1, 3].getD c 0)
  | .leaf _ => (c = 1 || c = 2, 2)
  | .core _ => (false, [0, 0, 1, 3, 3, 0].getD c 0)
  | .xbar => (false, [0, 1, 4, 1].getD c 0)
  | .evc => (false, [0, 1, 4].getD c 0)
  | .wrd => (false, 4)
  | .rmp => (false, [0, 1, 4].getD c 0)
  | .cnt => (false, 2)
  | .pair => (false, [0, 2, 2, 3].getD c 0)
  | .mram => (false, [0, 2, 3].getD c 0)
  | .usb => (false, [0, 2, 1].getD c 0)
  | .ivr _ => (false, [0, 2, 4, 1].getD c 0)
  | .sen => (c = 3 || c = 4, [0, 2, 3, 1, 2, 2, 1, 1].getD c 0)
  | .thm => (c = 1 || c = 3, [0, 2, 4, 2, 4, 1, 3].getD c 0)

/-- Number of classes that a set has (R398, R459); others are reserved bits. -/
def classCount : FltSet → Nat
  | .tum _ => 8 | .scan _ => 3 | .port _ => 10 | .leaf _ => 4 | .core _ => 6 | .xbar => 4 | .evc => 3
  | .wrd => 2 | .rmp => 3 | .cnt => 2 | .pair => 4 | .mram => 3 | .usb => 3 | .ivr _ => 4 | .sen => 8 | .thm => 7

def sevReg (b : FltSet) (c : Nat) : Nat := fltBase b + 8 + 4 * (c / 8)
/-- FLT_SEV(c).SEV and .CONS (R419). -/
def sevOf (s : State) (b : FltSet) (c : Nat) : Nat := fld s (sevReg b c) (4 * (c % 8) + 2) (4 * (c % 8))
def consOf (s : State) (b : FltSet) (c : Nat) : Bool := flag s (sevReg b c) (4 * (c % 8) + 3)
def statBit (s : State) (b : FltSet) (c : Nat) : Bool := flag s (fltBase b) c

/-- Sets SEV and CONS of a class. -/
def setSev (s : State) (b : FltSet) (c sev : Nat) (cons : Bool) : State :=
  setF s (sevReg b c) (4 * (c % 8) + 3) (4 * (c % 8)) (sev + 8 * b2n cons)

/-- Highest FLT_SEV among the set class bits (R419). -/
def maxSev (s : State) (b : FltSet) : Nat :=
  foldUpTo (classCount b) (fun m c => if statBit s b c then max m (sevOf s b c) else m) 0

/-- The condition of ALERT_N (R402). -/
def alertCond (s : State) : Bool := s.power.fatal || (fltSets s.part).any (fun b => decide (3 ≤ maxSev s b))

/-- Drives ALERT_N to `a`; its assertion raises an IBI (R488). -/
def setAlert (s : State) (a : Bool) : State :=
  let t := { s with power := { s.power with alert := a } }
  if a && !s.power.alert then ibi t 0xA1 0 else t

/-- Mirror-role ports (R351). -/
def mirrorMask (s : State) : Nat := fld s (pairReg 8) 15 0

/-- `b` is a dependant of a reaction of `o` (R405). -/
def dependant (s : State) (o b : FltSet) : Bool :=
  match o, b with
  | .tum t, .scan n => t = n
  | .tum _, .pair | .tum _, .wrd | .tum _, .xbar | .tum _, .cnt => true
  | .port _, .xbar | .port _, .evc => true
  | .port p, .pair => bit (mirrorMask s) p
  | .scan _, .xbar | .scan _, .cnt => true
  | .core _, .evc => true
  | .leaf _, .tum _ | .leaf _, .thm => true
  | .pair, .xbar => true
  | .pair, .port p => bit (mirrorMask s) p
  | _, _ => false

/-- The shadow that makes a fault of `b` consequential, by its position, and whether class `c` of `b` already has its
entry in it. -/
def shadowOf (s : State) (b : FltSet) (c : Nat) : Option (Nat × Bool) :=
  (s.shadows.zipIdx.find? (fun e => e.1.fatal || dependant s e.1.owner b)).map
    (fun e => (e.2, e.1.seen.any (fun x => x.1 = b && x.2 = c)))

/-- Opens a reaction shadow (R405). -/
def openShadow (s : State) (b : FltSet) (fatal : Bool) : State :=
  { s with shadows := s.shadows ++ [{ owner := b, seen := [], fatal := fatal }] }

/-- Appends an entry to the history ring and to the log tail (R407 to R409). -/
def pushEntry (s : State) (b : FltSet) (c sev : Nat) (conseq esc : Bool) (detail : BitVec 96) (n : Nat) : State :=
  let f := s.flt b
  let e : Entry :=
    { time := s.now, bseq := f.bseq + 1, source := BitVec.ofNat 12 (fltSource b), cls := BitVec.ofNat 8 c,
      severity := BitVec.ofNat 3 sev, conseq := conseq, escalated := esc, merged := decide (1 < n),
      detail := detail, count := BitVec.ofNat 32 n }
  let t := s.setFlt b { f with
    hist := (f.hist.filter (fun x => x.1 != f.next.toNat)) ++ [(f.next.toNat, e)],
    next := f.next + 1, bseq := f.bseq + 1 }
  { t with logTail := t.logTail ++ [e] }

/-- Records a fault of class `c` (R403 to R405, R407) and answers the severity that asks for a reaction, 0 where
none is asked. -/
def record (s : State) (b : FltSet) (c : Nat) (detail : BitVec 96) (n : Nat) : State × Nat :=
  let (cond, nat) := faultClass b c
  let s := if cond then
      s.setFlt b { s.flt b with cond := (s.flt b).cond ||| BitVec.ofNat 24 (2 ^ c) } else s
  match shadowOf s b c with
  | some (_, true) => (count s (272 + fltNum b) n, 0)
  | some (i, false) =>
    let was := statBit s b c
    let s := pushEntry s b c nat true false detail n
    let s := setF s (fltBase b) c c 1
    let s := setSev s b c (max nat (sevOf s b c)) (consOf s b c || !was)
    let s := { s with shadows := s.shadows.modify i (fun x => { x with seen := x.seen ++ [(b, c)] }) }
    let s := if 3 ≤ nat then setAlert s true else s
    (if b = .pair then setF s (pairReg 0x18) 4 4 1 else s, 0)
  | none =>
    let esc := statBit s b c && !consOf s b c
    let sev := if esc then min 4 (sevOf s b c + 1) else nat
    let s := pushEntry s b c sev false esc detail n
    let s := setF s (fltBase b) c c 1
    let s := setSev s b c (max sev (sevOf s b c)) false
    let s := if b = .pair then setF s (pairReg 0x18) 4 4 1 else s
    (if 3 ≤ sev then setAlert s true else s, sev)

/-- Records a fault whose reaction is already being taken, or that can take none. -/
def recordQuiet (s : State) (b : FltSet) (c : Nat) (detail : BitVec 96) (n : Nat) : State :=
  (record s b c detail n).1

/-- The condition of a condition class has ended (R404). -/
def condEnd (s : State) (b : FltSet) (c : Nat) : State :=
  s.setFlt b { s.flt b with cond := (s.flt b).cond &&& ~~~ (BitVec.ofNat 24 (2 ^ c)) }

/-- The condition of a condition class holds now. -/
def condHolds (s : State) (b : FltSet) (c : Nat) : Bool := bit (s.flt b).cond.toNat c

/-! ## Replies (R357, R360, R373) -/

/-- The commands of a source that are taken and unanswered run on, and their replies will be discarded (R307, R373). -/
def dropTaken (s : State) (src : CmdSrc) : State :=
  { s with cmds := { s.cmds with
      dropped := s.cmds.dropped.filter (fun c => c.src ≠ src) ++ s.cmds.taken.filter (fun c => c.src = src) } }

/-- A reply of ring `n` is discarded (R373). -/
def discardReply (s : State) (n : Nat) : State := count (setF s (ringReg n 0) 3 3 1) (cCmd 8) 1

/-- Clock-free part of a reply's way out: to the reply ring or the port's reply queue. -/
def sendReply (s : State) (r : Reply) : State :=
  let s := count s (cCmd (2 + r.status.toNat / 256)) 1
  match r.src with
  | .ring n =>
    if flag s (ringReg n 0) 0 && s.usb.link && !s.usb.fenced && !(s.ring n).stopped then
      s.setRing n { s.ring n with replies := (s.ring n).replies ++ [r] }
    else discardReply s n
  | .port p =>
    if (s.port p).link = .off || (s.port p).link = .latchOut then count s (cPort p 22) 1 else
    s.modPort p (fun x => { x with
      rplQ := x.rplQ ++ [r],
      granted := if x.stopped then x.granted else tput zero x.granted 1 (tget zero x.granted 1 + 1),
      creditDue := true })

/-- A command that is answered leaves the taken commands. -/
def answered (x : Cmds) (c : Cmd) : Cmds := { x with taken := x.taken.erase c, begun := x.begun.erase c }

/-- The command is answered: it leaves the taken commands and its reply is produced (R357), or discarded and counted where its port
was reset or its ring stopped meanwhile (R307, R373, R499, log 135). -/
def reply (s : State) (c : Cmd) (status : BitVec 16) (result : Nat) (data : List Byte) : State :=
  if s.cmds.dropped.contains c then
    let x := answered s.cmds c
    let s := { s with cmds := { x with dropped := x.dropped.erase c } }
    match c.src with
    | .port p => count s (cPort p 22) 1
    | .ring n => discardReply s n
  else
    sendReply { s with cmds := answered s.cmds c }
      { src := c.src, initiator := c.initiator, opcode := c.opcode, tag := c.tag, status := status,
        result := BitVec.ofNat 64 result, data := data }

/-- A reply with neither RESULT nor DATA. -/
def answer (s : State) (c : Cmd) (status : BitVec 16) : State := reply s c status 0 []

/-- A reply owed to a command that may be absent (a sweep or swap resumed at boot has none). -/
def answerOpt (s : State) (c : Option Cmd) (status : BitVec 16) : State :=
  match c with
  | some c => answer s c status
  | none => s

end Sys2Proof.Machine
end

