-- ==== Sys2Proof/Machine/Faults.lean ====
section
/-! DEFINITION. Completions on their way out (R69, R70, R304, R424), reactions to faults (R399 to R401, R459, R500)
with the resets and shutdowns they begin (R307, R410, R447), and the shared operation `fault`. -/

namespace Sys2Proof.Machine

open Sys2Proof

/-! ## Completions -/

/-- Raises the REQ limit as a request leaves the port's store (R304). -/
def leaveStore (s : State) (p : Nat) : State :=
  s.modPort p (fun x => if x.stopped then x else
    { x with granted := tput zero x.granted 0 (tget zero x.granted 0 + 1), creditDue := true })

/-- A request is done: it is no longer outstanding in its flow (R54). -/
def doneLive (s : State) (id : Nat) (f : BitVec 18) : State :=
  let n := fld s (flwReg f.toNat 2) 15 0
  setF { s with live := s.live.filter (fun e => e.1 != id) } (flwReg f.toNat 2) 15 0 (n - 1)

/-- Latency of an access in whole ns (R424); tumbler time runs in units of 1/480 ns. -/
def latencyNs (s : State) (a : Access) : Nat := ((s.tum a.tum).dram.time - a.enterTime) / 480

/-- Counts a latency in the two histograms (R424). -/
def histogram (s : State) (t c l : Nat) : State := count (count s (cHistT t (histBin l)) 1) (cHistC c (histBin l)) 1

/-- The Ward's record of an access takes its latency (R212). -/
def wardDone (s : State) (id lat : Nat) (fenced : Bool) : State :=
  { s with ward := { s.ward with log := s.ward.log.map (fun r =>
      if r.id = id then { r with latency := some lat, excluded := r.excluded || fenced } else r) } }

/-- Hands a completion to its port; false where the port has been reset since (R499) and it is dropped. -/
def pushCmp (s : State) (port : Option PortN) (gen : BitVec 2) (c : Cmp) : State × Bool :=
  match port with
  | none => (s, true)
  | some p =>
    let x := s.port p
    if x.gen = gen && x.link != .off && x.link != .latchOut then
      (s.setPort p { x with cmpBuf := x.cmpBuf ++ [c] }, true)
    else (count s (cPort p 22) 1, false)

/-- The counters of a completion (R423). -/
def countCmp (s : State) (c : Cmp) : State :=
  let s := if c.unwritten then count s (cXbar 1) 1 else s
  let s := if c.status = stPoisoned then count s (cXbar 2) 1 else s
  let s := if c.status = stAborted then count s (cXbar 3) 1 else s
  if c.partner then count s (cXbar 4) 1 else s

/-- A completion of access `a` (R69, R70). -/
def mkCmp (a : Access) (status : BitVec 4) (unw corr partner : Bool) (poison : BitVec 32) (bytes : Nat)
    (data : BitVec 2048) : Cmp :=
  { flow := a.flow, initiator := a.initiator, tag := a.tag, status := status, unwritten := unw,
    corrected := corr, partner := partner, poison := poison, bytes := bytes, data := data }

/-- An output or record write of the scan in slot `k` has completed (R184, R193). A status for which R193 has no entry
ends the scan with one that the spec does not state (log 34). -/
def scanWriteDone (s : State) (k : Nat) (st : BitVec 4) : State :=
  match s.scan k with
  | none => s
  | some x =>
    let x := { x with outBusy := x.outBusy - 1 }
    if st = stSuccess then s.setScan k (some x)
    else if x.phase = .recorded then s.setScan k (some { x with noRecord := true })
    else if x.phase = .ending then s.setScan k (some x)
    else if st = stFenced then s.setScan k (some { x with phase := .ending, status := 4 })
    else
      let (f, s) := fresh s
      s.setScan k (some { x with phase := .ending, status := BitVec.ofNat 8 (2 + f.toNat % 5) })

/-- Reply status of MEM_READ and MEM_WRITE for the completion status of a line (R366); R366 names none for ABORTED
(log 35). -/
def dmaStatus (s : State) (st : BitVec 4) : BitVec 16 × State :=
  if st = stPermission then (rcNoPermission, s) else if st = stFlow then (rcFlowInvalid, s)
  else if st = stRange then (rcBadRange, s) else if st = stFenced then (rcUnitFenced, s)
  else
    let (f, s) := fresh s
    (BitVec.ofNat 16 f.toNat, s)

/-- Zero in place of each poisoned word of a line (R366). -/
def cleanLine (poison : BitVec 32) (d : BitVec 2048) : List Byte :=
  (List.range 8).flatMap (fun w => leBytes 8 (if bit poison.toNat w then 0 else bits d.toNat (64 * w + 63) (64 * w)))

/-- A DMA transfer ends: its lines not yet moved are dropped, and it is answered (R366). -/
def dmaEnd (s : State) (d : Dma) (st : BitVec 16) : State :=
  let s := { s with
    dmas := s.dmas.filter (fun e => e.id != d.id)
    waiting := s.waiting.filter (fun a => !(a.src = .master .dma && a.op1.toNat == d.id)) }
  reply s d.cmd st (d.done + d.poisoned * 2 ^ 32) []

/-- A line of a DMA transfer has completed. -/
def dmaLine (s : State) (a : Access) (c : Cmp) : State :=
  match s.dmas.find? (fun e => e.id == a.op1.toNat) with
  | none => s
  | some d =>
    if c.status = stSuccess || c.status = stPoisoned then
      let read := a.kind = .read64
      let d := { d with done := d.done + 1, busy := false,
                        poisoned := d.poisoned + b2n (read && c.status = stPoisoned) }
      let s := { s with dmas := s.dmas.map (fun e => if e.id = d.id then d else e) }
      let s := if read then
          count { s with usb := { s.usb with
            out := s.usb.out ++ [(d.cmd.p2 + BitVec.ofNat 64 (a.addr.toNat - bits d.cmd.p1.toNat 39 0),
                                  cleanLine c.poison c.data)] } } (cUsb 1) 1
        else count s (cUsb 2) 1
      if d.done = d.lines then dmaEnd s d rcSuccess else s
    else
      let (st, s) := dmaStatus s c.status
      dmaEnd s d st

/-- The counters block stops counting and dumping (R400); lines of a dump that have not entered a queue are not written. -/
def cntFence (s : State) : State :=
  setF { s with
    waiting := s.waiting.filter (fun a => a.src ≠ .master .dump)
    dump := { s.dump with fenced := true, running := false } } (cntReg 0x10) 6 6 0

/-- A line of the counter dump has completed (R428). -/
def dumpLine (s : State) (st : BitVec 4) : State :=
  if st = stSuccess then s
  else
    let s := count { s with dump := { s.dump with failed := s.dump.failed + 1 } } (cUsb 6) 1
    let (s, sev) := record s .cnt 1 0 1
    if 3 ≤ sev then cntFence s else s

/-- A completion of an internal master's access (R184, R366, R428). -/
def masterDone (s : State) (m : Master) (a : Access) (c : Cmp) (queued : Bool) : State :=
  match m with
  | .scan =>
    let s := doneLive s a.id a.flow
    let s := if queued then
        wardDone (histogram s a.tum a.cls.toNat (latencyNs s a)) a.id (latencyNs s a) (c.status = stFenced)
      else s
    scanWriteDone s a.tag.toNat c.status
  | .dma =>
    let s := doneLive s a.id a.flow
    dmaLine (if queued then histogram s a.tum a.cls.toNat (latencyNs s a) else s) a c
  | .dump => dumpLine s c.status
  | _ => s

/-- Completes an accepted request; `queued` where it had entered a tumbler queue. Answers false where the completion is
dropped. -/
def completeCore (s : State) (a : Access) (c : Cmp) (queued : Bool) : State × Bool :=
  match a.src with
  | .master m => (masterDone s m a c queued, true)
  | .flow _ =>
  let s := doneLive s a.id a.flow
  let s := countCmp s c
  let s := if queued then
      wardDone (histogram s a.tum a.cls.toNat (latencyNs s a)) a.id (latencyNs s a) (c.status = stFenced)
    else s
  let s := if c.status = stFenced then count s (cTum a.tum 30) 1 else s
  pushCmp s a.port a.gen c

/-- Completes an accepted request inside a reaction, whose drops are consequential. -/
def completeQuiet (s : State) (a : Access) (c : Cmp) (queued : Bool) : State :=
  match completeCore s a c queued with
  | (s, true) => s
  | (s, false) => recordQuiet s .xbar 3 0 1

/-! ## Pair packets sent -/

/-- Puts a pair packet on port `p`. -/
def sendPair (s : State) (p ty : Nat) (k : PairPkt) : State :=
  if 16 ≤ p ∨ (s.port p).link = .off ∨ (s.port p).link = .latchOut then s else
  let s := s.modPort p (fun x => { x with pairQ := x.pairQ ++ [encodePair ty k] })
  { s with pair := { s.pair with sentOn := s.pair.sentOn ||| BitVec.ofNat 16 (2 ^ p) } }

/-- Mirror ports in Active or Degraded, ascending (R321). -/
def mirrorPorts (s : State) : List Nat := (List.range 16).filter (fun p => bit (mirrorMask s) p && carries s p)

/-- A pair header without body. -/
def pairHdr (s : State) (len sub : Nat) (addr : Nat) : PairPkt :=
  { len := BitVec.ofNat 10 len, sub := BitVec.ofNat 4 sub, pgen := s.pair.pgen, pseq := 0,
    addr := BitVec.ofNat 40 addr, wmask := 0, ftag := 0, body := [] }

/-- HELLO (R325, R326). -/
def helloPkt (s : State) (sub reason : Nat) : PairPkt :=
  { pairHdr s 13 sub 0 with
    body := toChunks 2 (rd s 0).toNat ++
      [BitVec.ofNat 16 (fld s (pairReg 0) 31 16), BitVec.ofNat 16 (fld s (pairReg 0) 1 0), BitVec.ofNat 16 reason] }

/-- One HELLO on each mirror port that carries flits. -/
def helloAll (s : State) (sub reason : Nat) : State :=
  (mirrorPorts s).foldl (fun s p => sendPair s p 0x10 (helloPkt s sub reason)) s

/-! ## Port logic reset (R278, R307, R499) -/

/-- A running or waiting eye scan ends early (R239, R269, R270). Whether the part that ran saw a low density is not told,
so LOWDENS of a scan that ran is set or not freely (log 138). -/
def endEye (s : State) (p : Nat) : State :=
  let o := fpReg p 0x404
  if !flag s o 0 then s
  else
    let u := if flag s o 4 then ((0 : BitVec 64), s) else fresh s
    let s := setF (setF (setF u.2 o 0 0 0) o 4 4 0) o 2 2 1
    let s := if bit u.1.toNat 0 then setF s o 3 3 1 else s
    setPhy s p (fun x => { x with es := none })

/-- An armed injection is dropped (R259, R275). -/
def dropInjection (s : State) (p : Nat) : State :=
  if flag s (fpReg p 0x700) 16 then setF s (fpReg p 0x700) 17 16 2 else s

/-- Registers of the electrical layer that follow the link into Off: no lane in use, no lock, no checker in sync, no
injection and no scan. A written rate stays pending (R262). -/
def portRegsOff (s : State) (p : Nat) : State :=
  let s := wr s (fpReg p 0x10) 0xF
  let s := foldUpTo 17 (fun s l => setF s (fpReg p (0x100 + 4 * l)) 1 1 0) s
  let s := wr s (fpReg p 0x540) 0
  dropInjection (endEye s p) p

/-- Port logic reset of port `p`, which ends in link state `dest` (log 23). -/
def portReset (s : State) (p : PortN) (dest : LinkState) : State :=
  let x := s.port p
  let s := openShadow s (.port p) false
  let left := x.rxPkts.filter (fun k => bits (chunkNat k.2) 5 0 = 4 || bits (chunkNat k.2) 5 0 = 12)
  let s := count s (cPort p 23) (left.length + x.cmdQ.length)
  let s := count s (cPort p 22) (x.rplQ.length + x.evtQ.length)
  let s := dropTaken s (.port p)
  let s := if x.cmpBuf.isEmpty then s
    else recordQuiet (count s (cPort p 22) x.cmpBuf.length) .xbar 3 0 x.cmpBuf.length
  let s := portRegsOff s p
  s.setPort p { Port.init with
    link := dest, reenPend := x.reenPend, shutting := x.shutting, gen := x.gen + 1, stopped := x.stopped }

/-- State of a port after a reset while EN may be 1 (R307): Detect, or Off where EN is 0 or a Fatal stop is in force. -/
def afterReset (s : State) (p : Nat) : LinkState :=
  if flag s (fpReg p 0x8000) 0 && !s.power.fatal then .detect else .off

/-- The port enters Latch-out (R253, R410). -/
def portLatch (s : State) (p : PortN) : State :=
  let s := setF s (fpReg p 0x800C) 5 5 1
  portReset (s.modPort p (fun x => { x with shutting := true })) p .latchOut

/-! ## Shutdowns (R410) -/

/-- Target core of a source (R414). -/
def targetOf (s : State) (src : Nat) : Nat := fld s (evcSrc src 0) 6 4

/-- The core takes sources under R394. -/
def takesSources (s : State) (c : Nat) : Bool :=
  (s.core c).state = .running || (s.core c).state = .asleep

/-- Re-targeting as core `c` enters its shutting-down state (R394). -/
def retarget (s : State) (c : Nat) : State :=
  let fb := fld s (evcReg 8) 2 0
  let st := (s.core fb).state
  let dest := if st != .off && st != .shutting && st != .latchOut then some fb
    else (List.range 8).find? (fun n => takesSources s n)
  let srcs := (List.range 4096).filter (fun n => (srcKind s.part n).1 != .reserved && targetOf s n == c)
  match dest with
  | some k => srcs.foldl (fun s n => setF s (evcSrc n 0) 6 4 k) s
  | none =>
    if srcs.isEmpty then s
    else count (recordQuiet s .evc 1 0 srcs.length) (cCmd 19) srcs.length

/-- A core begins its shutdown. -/
def coreShutdown (s : State) (c : CoreN) : State :=
  let s := openShadow s (.core c) false
  retarget (s.setCore c { s.core c with state := .shutting }) c

/-- The scan needs engine `n` (R183). -/
def scanNeeds (x : Scan) (n : Nat) : Bool := x.engines.any (fun e => e.1 = n)

/-- The running scans that satisfy `f` end with `status` (R193). -/
def endScans (s : State) (f : Scan → Bool) (status : BitVec 8) : State :=
  foldUpTo 256 (fun s k =>
    match s.scan k with
    | some x => if x.phase = .running && f x then s.setScan k (some { x with phase := .ending, status := status })
        else s
    | none => s) s

/-- A scan engine begins its shutdown. -/
def engShutdown (s : State) (n : Tum) : State :=
  let s := openShadow s (.scan n) false
  endScans (s.setEng n { s.eng n with state := .shutting }) (fun x => scanNeeds x n) 6

/-- A tumbler begins its shutdown; a swap that runs is abandoned and a training sweep ends (log 24). -/
def tumShutdown (s : State) (t : Tum) (fault : Bool) : State :=
  let s := openShadow s (.tum t) false
  let x := s.tum t
  let s := match x.training with
    | some _ => setF (setF s (tumReg t 0x108) 3 3 1) (tumReg t 0x108) 0 0 0
    | none => s
  let s := setF s (tumReg t 8) 4 4 0
  let m := { x.mode with state := .shutting, faultShut := fault, rate := .idle }
  let m := { m with wake := .no, refreshWake := false }
  s.setTum t { x with training := none, mode := m }

/-- Open banks of leaf `l` in a tumbler. -/
def leafOpen (x : Tumbler) (l : Nat) : Nat := (x.dram.banks.filter (fun e => e.1 / 32 = l && e.2.openRow.isSome)).length

/-- Local reset of leaf `l` (R500): banks of the leaf are precharged, a training sweep naming it ends. -/
def leafReset (s : State) (l : LeafN) : State :=
  let s := openShadow s (.leaf l) false
  let s := count s (cLeaf l 6) 1
  (allFins 64).foldl (fun (s : State) (t : Tum) =>
    let x := s.tum t
    let s := count s (cTum t 3) (leafOpen x l)
    let banks := x.dram.banks.map (fun e =>
      if e.1 / 32 = l.val then (e.1, { e.2 with openRow := none, closing := false }) else e)
    let hit := x.training.isSome && fld s (tumReg t 0x100) 9 4 == l.val
    let s := if hit then setF (setF s (tumReg t 0x108) 3 3 1) (tumReg t 0x108) 0 0 0 else s
    s.setTum t { x with
      dram := { x.dram with banks := banks }
      training := if hit then none else x.training
      mode := if hit then { x.mode with state := if x.training.any (·.wasOnline) then .online else .offline }
        else x.mode }) s

/-- The counter dump destination (R59). -/
def dumpRegion (s : State) : Option Nat :=
  if flag s (cntReg 0) 16 then some (fld s (cntReg 0) 15 0) else none

/-- Sets DIVERGED on region `r` (R340); never on the counter dump destination (R327). -/
def setDiverged (s : State) (r : Nat) : State :=
  if flag s (rgnReg r) 7 || dumpRegion s == some r then s
  else
    let s := count (setF s (rgnReg r) 7 7 1) (cPair 9) 1
    { s with pair := { s.pair with dirty := s.pair.dirty ++ [r] } }

/-- Accesses of a tumbler and of the wait store that R342 aborts: replicated requests not yet sent. -/
def unsent (a : Access) : Bool :=
  (a.port.isSome || a.src = .master .scan || a.src = .master .dma) && (a.kind != .read64 && a.kind != .read256) && !a.answered
    && a.ftag.isNone && a.stage != .needWr

/-- An accepted request that R342 aborts. -/
def abortUnsent (s : State) (queued : Bool) (a : Access) : State :=
  let s := match a.port with
    | some p => if queued || a.left then s else leaveStore s p
    | none => s
  completeQuiet s a (mkCmp a stAborted false false false 0 0 0) queued

/-- A sequenced packet whose ACK can no longer come: a write that waited for it is safe here and completes, and its region is
diverged (R69, log 133). -/
def freeDead (s : State) (h : HeldPkt) : State :=
  let s := if h.ty = 0x12 then setDiverged s h.region else s
  match h.done with
  | some (a, c) => completeQuiet s a c true
  | none => s

/-- The pair engine enters latch-out (R342, R400): what was sent to the partner is performed here (R69, log 133). -/
def pairLatch (s : State) : State :=
  let x := s.pair
  let c := x.holdClear.filterMap (·.2.2) ++ x.holdHome.map (·.2.2) ++ x.form.toList ++ x.leave.toList ++ x.resync.toList
  let s := c.eraseDups.foldl (fun s c => answer s c rcInternal) s
  let s := { s with clears := s.clears.filter (fun x => !(x.cmd.any c.contains)) }
  let s := { s with pair := { s.pair with
    state := .latchOut
    holdClear := []
    holdHome := []
    homeSent := []
    form := none
    leave := none
    resync := none
    held := []
    fwds := []
    hands := [] } }
  let s := openShadow s .pair false
  if mirrorMask s = 0 then s else
  let s := x.held.foldl freeDead s
  let hit := s.waiting.filter unsent
  let s := { s with waiting := x.fwds.map (fun e => { e.2 with redo := true }) ++ s.waiting.filter (fun a => !unsent a) }
  let s := hit.foldl (fun s a => abortUnsent s false a) s
  (allFins 64).foldl (fun (s : State) (t : Tum) =>
    let q := (s.tum t).q.queue
    let s := setQ s t (fun x => { x with
      queue := x.queue.filter (fun a => !unsent a)
      flight := x.flight.filter (fun f => !unsent f.acc) })
    (q.filter unsent).foldl (fun s a => abortUnsent s true a) s) s

/-! ## Drain and Fatal stop -/

/-- The drain of R447 from its detection through its stop point. -/
def beginDrain (s : State) (c : DrainCause) : State :=
  let s := setF (setF s (senReg 0) 6 6 1) (senReg 0) 7 7 0
  let s := helloAll s 0 1
  let s := (allFins 16).foldl (fun (s : State) (p : PortN) => s.modPort p (fun x => { x with stopped := true })) s
  { s with scans := [], power := { s.power with mode := .draining c, drained := 0, stopAt := s.now } }

/-- Ring `n` stops: commands not taken are left, and the replies of those taken are discarded (R373). -/
def stopRing (s : State) (n : RingN) : State :=
  let x := s.ring n
  let k := x.replies.length
  let s := dropTaken (s.setRing n { x with cmdQ := [], replies := [] }) (.ring n)
  if k = 0 then s else count (setF s (ringReg n 0) 3 3 1) (cCmd 8) k

/-- Every ring stops, until it is enabled anew (R373). -/
def stopRings (s : State) : State :=
  (allFins 4).foldl (fun (s : State) (n : RingN) =>
    let s := stopRing s n
    s.setRing n { s.ring n with stopped := true }) s

/-- A Fatal stop caused by set `b` (R401). -/
def fatalStop (s : State) (b : FltSet) : State :=
  let s := openShadow s b true
  let s := { s with power := { s.power with fatal := true, drained := 0, stopAt := s.now } }
  let s := wr s 0x30 (BitVec.ofNat 32 (0x80000000 + fltSource b))
  let s := (allFins 16).foldl (fun (s : State) (p : PortN) => portReset s p .off) s
  let s := stopRings s
  let s := (allFins 8).foldl (fun (s : State) (c : CoreN) => s.setCore c { s.core c with state := .off }) s
  setAlert s true

/-- Rails of an IVR controller (R438). -/
def railsOf (n : Nat) : List Nat :=
  if n ≤ 1 then [0] else if n = 2 then [1] else if n = 3 then [2, 3] else [n]

/-- The reaction of block `b` to a fault of class `c` recorded at severity `sev` (R399, R400, R459). -/
def react (s : State) (b : FltSet) (c sev : Nat) : State :=
  if sev < 3 then s else
  match b with
  | .tum t => if tstate s t = .shutting ∨ tstate s t = .latchOut then s else tumShutdown s t true
  | .scan n => if (s.eng n).state = .shutting ∨ (s.eng n).state = .latchOut then s else engShutdown s n
  | .port p => if (s.port p).link = .latchOut then s else portLatch s p
  | .core k => if (s.core k).state = .shutting ∨ (s.core k).state = .latchOut then s else coreShutdown s k
  | .leaf l => leafReset s l
  | .pair => if s.pair.state = .latchOut then s else pairLatch s
  | .cnt => cntFence s
  | .usb => stopRings { s with usb := { s.usb with fenced := true } }
  | .mram => if sev = 3 then { s with mramFenced := true } else if s.power.fatal then s else fatalStop s b
  | .ivr n =>
    if sev = 3 then
      let s := (railsOf n).foldl (fun s r => setF s (senReg (0x100 + 4 * r)) 11 0 (railNominal r)) s
      { s with power := { s.power with frozen := s.power.frozen ||| BitVec.ofNat 8 (2 ^ n.val) } }
    else
      if s.power.fatal then s else fatalStop s b
  | .sen =>
    if sev = 3 then
      if s.power.mode = .on then beginDrain s (if c = 1 then .brownOut else if c = 2 then .vinHigh else .other) else s
    else if s.power.fatal then s else fatalStop s b
  | .thm =>
    if sev = 3 then { s with thermal := { s.thermal with stopped := true } }
    else if s.power.fatal then s
    else
      let s := fatalStop s b
      if c = 2 ∨ c = 4 then
        setF { s with power := { s.power with mode := .draining .thermalTrip } } (senReg 0) 6 6 1
      else s
  | _ => if s.power.fatal then s else fatalStop s b

/-- A block detects `n` faults of class `c` in one cycle: recording, then reaction (R399, R403). -/
def fault (s : State) (b : FltSet) (c : Nat) (detail : BitVec 96) (n : Nat) : State :=
  let (s, sev) := record s b c detail n
  react s b c sev

/-- PARAM of a block (R17, R398). -/
def paramFault (s : State) (b : FltSet) : State := fault s b 0 0 1

/-- Completes an accepted request (R69); a dropped completion is recorded (R307). -/
def complete (s : State) (a : Access) (c : Cmp) (queued : Bool) : State :=
  match completeCore s a c queued with
  | (s, true) => s
  | (s, false) => fault s .xbar 3 0 1

/-! ## MRAM writes that may fail their verify (R465) -/

/-- Writes MRAM words of which the last one's verify gives `ok`; a second failed verify leaves the old words and
records VERIFY. Answers whether the words were written. -/
def mramStore (s : State) (a : Nat) (l : List Byte) (ok : Bool) : State × Bool :=
  if s.mramFenced then (s, false)
  else if ok then (mramPut s a l, true)
  else (fault (count (count s (cSen 5) 1) (cSen 6) 2) .mram 1 0 1, false)

/-- Region record of region `r` from RGN_ENTRY (R466). -/
def storeRegion (s : State) (r : Nat) : State :=
  mramPut s (0xA80000 + 8 * r)
    (leBytes 8 (regionRecord r (fld s (rgnReg r) 1 0) (fld s (rgnReg r) 3 2) (fld s (rgnReg r) 9 8)
      (fld s (rgnReg r) 6 5)))

/-- Remap record of entry `i` (R466). -/
def storeRemap (s : State) (i : Nat) : State :=
  mramPut s (0xB00000 + 8 * i) (leBytes 4 (rd s (rmpLo i)).toNat ++ leBytes 4 (rd s (rmpHi i)).toNat)

/-- Body of the leaf record of tumbler `t` (R466). -/
def leafBody (s : State) (t : Nat) : List Byte :=
  let maps := (List.range 32).map (fun n =>
    if n < s.part.activeLeaves then BitVec.ofNat 8 (rd s (tumReg t (0x200 + 4 * n))).toNat else 0)
  let roles := foldUpTo 34 (fun a l =>
    a + (if l < s.part.leaves then fld s (lfReg l (0x100 + 4 * t)) 1 0 else 0) * 4 ^ l) 0
  maps ++ leBytes 24 roles

/-- SEQ of the slot of `n` bytes at `a`, none where its CHECK is wrong (R467). -/
def slotSeq (s : State) (a n : Nat) : Option Nat :=
  let b := cellGet s.mram a (n - 8)
  let t := cellGet s.mram (a + n - 8) 8
  let seq := leNat (t.take 4)
  if leNat (t.drop 4) = byteCrc (b ++ leBytes 4 seq) then some seq else none

/-- Which of two slots the next store writes, and its SEQ (R467). -/
def nextSlot (v0 v1 : Option Nat) : Nat × Nat :=
  match v0, v1 with
  | none, none => (0, 1)
  | some a, none => (1, a + 1)
  | none, some b => (0, b + 1)
  | some a, some b => if b ≤ a then (1, a + 1) else (0, b + 1)

/-- Stores the leaf record of tumbler `t`. -/
def storeLeaf (s : State) (t : Nat) : State :=
  let a := 0xB40000 + 128 * t
  let (k, seq) := nextSlot (slotSeq s a 64) (slotSeq s (a + 64) 64)
  let body := leafBody s t
  mramPut s (a + 64 * k) (body ++ trailer body seq)

end Sys2Proof.Machine
end

