-- ==== Sys2Proof/Machine/Addr.lean ====
section
/-! DEFINITION. From byte address to word: interleave (R46), rows and leaves (R71, R72), remap (R157), the stored
words of a line, and the permission tables (R52, R57, R59). -/

namespace Sys2Proof.Machine

open Sys2Proof

/-! ## Interleave (R46) -/

/-- Exclusive-or of the 6-bit fields of `a` from bit `i` upward, `n` fields at most. -/
def foldFields (a : Nat) : Nat → Nat → Nat
  | 0, _ => 0
  | n + 1, i => bits a (i + 5) i ^^^ foldFields a n (i + 6)

/-- Tumbler and tumbler-local byte offset of address `a` in a region of interleave mode `m` (R46). -/
def mapAddr (m a : Nat) : Nat × Nat :=
  if m = 2 then (bits a 29 24, a / 2 ^ 30 * 2 ^ 24 + a % 2 ^ 24)
  else
    let k := if m = 0 then 8 else 12
    (bits a (k + 5) k ^^^ foldFields a 6 (k + 6), a / 2 ^ (k + 6) * 2 ^ k + a % 2 ^ k)

def regionOf (a : Nat) : Nat := a / 2 ^ 24
def rgnEpoch (s : State) (r : Nat) : Nat := fld s (rgnReg r) 1 0
def rgnSweep (s : State) (r : Nat) : Nat := fld s (rgnReg r) 3 2
def rgnHome (s : State) (r : Nat) : Nat := fld s (rgnReg r) 6 5
def rgnDiverged (s : State) (r : Nat) : Bool := flag s (rgnReg r) 7
def rgnMode (s : State) (r : Nat) : Nat := fld s (rgnReg r) 9 8
def rgnHomeEff (s : State) (r : Nat) : Nat := fld s (rgnReg r) 10 10

/-- Tumbler and tumbler-local line index of address `a`. -/
def lineOf (s : State) (a : Nat) : Nat × Nat :=
  let x := mapAddr (rgnMode s (regionOf a)) a
  (x.1, x.2 / 64)

/-- First line and number of lines of region `r` in tumbler `t`; none where the region is elsewhere (R48). -/
def rgnLines (s : State) (r t : Nat) : Option (Nat × Nat) :=
  if rgnMode s r = 2 then
    if r % 64 = t then some (r / 64 * 262144, 262144) else none
  else some (r * 4096, 4096)

/-- The region whose line `x` is in tumbler `t`. -/
def regionAt (s : State) (t x : Nat) : Nat :=
  let g := x / 262144
  if rgnMode s (64 * g + t) = 2 then 64 * g + t else x / 4096

/-- Address of line `x` of tumbler `t`: the inverse of R46. -/
def addrOf (s : State) (t x : Nat) : Nat :=
  let r := regionAt s t x
  if rgnMode s r = 2 then r * 2 ^ 24 + x % 262144 * 64
  else
    let k := if rgnMode s r = 0 then 8 else 12
    let hi := x * 64 / 2 ^ k * 2 ^ (k + 6)
    hi + (t ^^^ foldFields hi 6 (k + 6)) * 2 ^ k + x * 64 % 2 ^ k

/-! ## Leaf, bank and row (R71, R72) -/

def lineGroup (x : Nat) : Nat := x % 8
def lineCol (x : Nat) : Nat := x / 8 % 16
def lineBank (x : Nat) : Nat := x / 128 % 4
def lineRow (x : Nat) : Nat := x / 512 % 16384
def lineLeaf (x : Nat) : Nat := x / 8388608

/-- The line of a logical leaf at a place. -/
def lineAt (leaf group bank row col : Nat) : Nat :=
  group + 8 * col + 128 * bank + 512 * row + 8388608 * leaf

/-- Physical leaf of logical leaf `n` in tumbler `t` (R173). -/
def leafMap (s : State) (t n : Nat) : Nat := fld s (tumReg t (0x200 + 4 * n)) 5 0

/-- Role of a leaf-slice (R160, R174). -/
def roleOf (s : State) (t l : Nat) : Nat := fld s (lfReg l (0x100 + 4 * t)) 1 0
def logicalOf (s : State) (t l : Nat) : Nat := fld s (lfReg l (0x100 + 4 * t)) 7 3
def setRole (s : State) (t l role logical : Nat) : State :=
  setF (setF s (lfReg l (0x100 + 4 * t)) 1 0 role) (lfReg l (0x100 + 4 * t)) 7 3 logical

/-- The slice is refreshed (R112). -/
def refreshed (s : State) (t l : Nat) : Bool :=
  decide (l < s.part.leaves) && (roleOf s t l == 0 || roleOf s t l == 2)

/-! ## Remap (R157) -/

/-- Indices of the valid remap entries, ascending. -/
def remapValid (s : State) : List Nat :=
  s.csr.filterMap (fun e =>
    if decide (0x2800000 ≤ e.1) && decide (e.1 < 0x2840000) && e.1 % 8 == 4 && bit e.2.toNat 31 then
      some ((e.1 - 0x2800000) / 8) else none)

def rmpState (s : State) (i : Nat) : Nat := fld s (rmpHi i) 13 12
def rmpSpare (s : State) (i : Nat) : Nat := fld s (rmpHi i) 9 6
def rmpTum (s : State) (i : Nat) : Nat := fld s (rmpHi i) 5 0
def rmpLeaf (s : State) (i : Nat) : Nat := fld s (rmpLo i) 24 19
def rmpRow (s : State) (i : Nat) : Nat := fld s (rmpLo i) 13 0

/-- Entry `i` lies in bank (group, bank) of the slice. -/
def rmpIn (s : State) (t l g b i : Nat) : Bool :=
  rmpTum s i == t && rmpLeaf s i == l && fld s (rmpLo i) 18 16 == g && fld s (rmpLo i) 15 14 == b

/-- Entry in the given state for a logical row. -/
def remapFind (s : State) (t l g b row st : Nat) : Option Nat :=
  (remapValid s).find? (fun i => rmpIn s t l g b i && rmpRow s i == row && rmpState s i == st)

/-- Physical row of a logical row (R72). -/
def physRow (s : State) (t l g b row : Nat) : Nat :=
  match remapFind s t l g b row 0 with
  | some i => 16384 + rmpSpare s i
  | none => row

/-- Place of line `x` of tumbler `t` on physical leaf `l`, remap entries applied. -/
def placeOn (s : State) (t l x : Nat) : Loc :=
  { leaf := l, group := lineGroup x, bank := lineBank x,
    row := physRow s t l (lineGroup x) (lineBank x) (lineRow x) }

/-- Place of line `x` without remap (the target of a leaf swap, R162). -/
def placeRaw (l x : Nat) : Loc := { leaf := l, group := lineGroup x, bank := lineBank x, row := lineRow x }

/-- Place of line `x` under the leaf map. -/
def placeOf (s : State) (t x : Nat) : Loc := placeOn s t (leafMap s t (lineLeaf x)) x

/-! ## Stored words -/

/-- Number of a bank among all banks of a tumbler. -/
def bankNo (l : Loc) : Nat := 32 * l.leaf + 4 * l.group + l.bank

/-- Number of a code word in the module (log 4). -/
def wordKey (t : Nat) (l : Loc) (col w : Nat) : Nat :=
  (((((t * 34 + l.leaf) * 8 + l.group) * 4 + l.bank) * 16400 + l.row) * 16 + col) * 8 + w

/-- The stored code word. -/
def getWord (s : State) (t : Nat) (l : Loc) (col w : Nat) : CodeWord :=
  BitVec.ofNat 80 (leNat (cellGet s.dram (10 * wordKey t l col w) 10))

/-- Stores a code word without touching the corrected-word cache. -/
def putWordRaw (s : State) (t : Nat) (l : Loc) (col w : Nat) (v : CodeWord) : State :=
  { s with dram := cellPut s.dram (10 * wordKey t l col w) (leBytes 10 v.toNat) }

/-- Stores a code word; its corrected-word cache entry is freed (R155). -/
def putWord (s : State) (t : Nat) (l : Loc) (col w : Nat) (v : CodeWord) : State :=
  (putWordRaw s t l col w v).modTum t (fun x =>
    { x with cwc := x.cwc.filter (fun e => e.word != wordKey t l col w) })

/-- While a leaf swap runs, the target's place of a line of its logical leaf whose source place is `l`: every write to the
logical leaf is performed there too (R162). -/
def twinOf (s : State) (t x : Nat) (l : Loc) : Option Loc :=
  match (s.tum t).swap with
  | some w => if lineLeaf x = w.logical ∧ l.leaf = w.src then some (placeRaw w.dst x) else none
  | none => none

/-- Stores word `w` of line `x` at place `l`, and at the target of a leaf swap (R162). -/
def putBoth (s : State) (t : Nat) (l : Loc) (x w : Nat) (v : CodeWord) : State :=
  let s' := putWord s t l (lineCol x) w v
  match twinOf s t x l with
  | some m => putWord s' t m (lineCol x) w v
  | none => s'

/-- The corrected-word cache's or the scrubber's write-back of a word, performed on both slices as any write (R155, R162). -/
def writeBack (s : State) (t : Nat) (l : Loc) (x w : Nat) (v : CodeWord) : State :=
  let s' := putWordRaw s t l (lineCol x) w v
  match twinOf s t x l with
  | some m => putWordRaw s' t m (lineCol x) w v
  | none => s'

/-- Bits that the cells of a word have lost. -/
def loseBits (s : State) (t : Nat) (l : Loc) (col w : Nat) (f : CodeWord) : State :=
  if f = 0 then s else putWordRaw s t l col w (getWord s t l col w ^^^ f)

/-! ## Corrections (R142, R143, R155, R156) -/

/-- Writes the physical address of a word to HARD_LAST (`hard`) or ECC_LAST, and its row bit 13 (R169, R170). -/
def wordRecord (s : State) (t : Nat) (l : Loc) (x w : Nat) (hard : Bool) : State :=
  let r := lineRow x
  let v := 2 ^ 31 + l.leaf * 2 ^ 25 + l.group * 2 ^ 22 + l.bank * 2 ^ 20 + r % 8192 * 2 ^ 7 + lineCol x * 8 + w
  let s := wr s (tumReg t (if hard then 0x4C else 0x58)) (BitVec.ofNat 32 v)
  setF s (tumReg t 0x5C) (if hard then 0 else 1) (if hard then 0 else 1) (r / 8192)

/-- DETAIL of HARD_WORD and UNCORRECTABLE (R407). -/
def wordDetail (s : State) (t : Nat) (hard : Bool) : BitVec 96 :=
  BitVec.ofNat 96 ((rd s (tumReg t (if hard then 0x4C else 0x58))).toNat + (rd s (tumReg t 0x5C)).toNat * 2 ^ 32)

/-- A word is classed hard (R156). -/
def classHard (s : State) (t : Nat) (l : Loc) (x w : Nat) : State :=
  let s := count (wordRecord s t l x w true) (cTum t 19) 1
  let s := fault s (.tum (Fin.ofNat 64 t)) 2 (wordDetail s t true) 1
  raise s (0x40 + t) 0

/-- Window of the corrected-word cache in ticks (R155). -/
def cwcWindow : Nat := 3750000000

/-- The cache without the entry of a word. -/
def cwcDrop (s : State) (t k : Nat) : State :=
  s.modTum t (fun x => { x with cwc := x.cwc.filter (fun e => e.word != k) })

/-- The oldest counting entry. -/
def cwcOldest (l : List CwcEntry) : Option CwcEntry :=
  l.foldl (fun m e =>
    if e.watch.isSome then m else
    match m with
    | none => some e
    | some b => if e.first < b.first then some e else some b) none

/-- Puts an entry into the cache; false where every entry is in watch and the correction is lost. -/
def cwcPut (s : State) (t : Nat) (e : CwcEntry) : State × Bool :=
  let c := (s.tum t).cwc
  if c.any (fun f => f.word == e.word) then
    (s.modTum t (fun x => { x with cwc := c.map (fun f => if f.word = e.word then e else f) }), true)
  else if c.length < 64 then (s.modTum t (fun x => { x with cwc := c ++ [e] }), true)
  else
    match cwcOldest c with
    | some o => (s.modTum t (fun x => { x with cwc := c.filter (fun f => f.word != o.word) ++ [e] }), true)
    | none => (count s (cTum t 21) 1, false)

/-- A correction of a word (R155): the state, and whether the word is to be written back now. -/
def corrected (s : State) (t : Nat) (l : Loc) (x w : Nat) (double : Bool) : State × Bool :=
  let k := wordKey t l (lineCol x) w
  let now := s.now.toNat
  let s := count s (cTum t (if double then 17 else 16)) 1
  let e := (s.tum t).cwc.find? (fun f => f.word == k)
  if e.any (fun f => f.watch.any (fun m => decide (now < m + cwcWindow))) then
    (classHard (cwcDrop s t k) t l x w, false)
  else if double then ((cwcPut s t { word := k, count := 0, first := now, watch := some now }).1, true)
  else
    let e := e.bind (fun f => if f.watch.isSome then none else some f)
    let old := e.getD { word := k, count := 0, first := now, watch := none }
    let old := if old.first + cwcWindow ≤ now then { old with count := 0, first := now } else old
    let n := old.count + 1
    if fld s (tumReg t 0x48) 2 0 ≤ n then cwcPut s t { old with count := n, watch := some now }
    else ((cwcPut s t { old with count := n }).1, false)

/-- What an access makes of one stored word (R140 to R144). -/
structure Got where
  /-- The word as the access uses it: 0 where it does not match or is poisoned. -/
  data : Nat
  /-- Its EPOCH equals the one compared against. -/
  live : Bool
  poison : Bool
  corrected : Bool
  wroteBack : Bool
  /-- The stored word after correction. -/
  word : CodeWord
  /-- Class of the decode. -/
  cls : WordClass
  deriving DecidableEq, Repr

/-- Decodes the word `v` that was read as word `w` of line `x` at place `l`, against EPOCH `e` (R140 to R143, R155). What the
decode stores is stored where the cells still hold the word that was read. -/
def decodeAt (s : State) (t : Nat) (l : Loc) (x w e : Nat) (v : CodeWord) : State × Got :=
  let d := decodeWord v
  let still := getWord s t l (lineCol x) w == v
  match d.cls with
  | .clean =>
    (s, { data := if d.epoch = e then d.data else 0, live := d.epoch == e, poison := false, corrected := false,
          wroteBack := false, word := d.word, cls := .clean })
  | .poisoned =>
    (s, { data := 0, live := d.epoch == e, poison := d.epoch == e, corrected := false, wroteBack := false,
          word := d.word, cls := .poisoned })
  | .uncorrectable =>
    let s := if still then putBoth s t l x w (poisonWord e) else s
    let s := count (wordRecord s t l x w false) (cTum t 20) 1
    let s := fault s (.tum (Fin.ofNat 64 t)) 3 (wordDetail s t false) 1
    (s, { data := 0, live := true, poison := true, corrected := false, wroteBack := false, word := poisonWord e,
          cls := .uncorrectable })
  | k =>
    let (s, back) := corrected s t l x w (k == .double)
    let back := back && still
    let s := if back then count (writeBack s t l x w d.word) (cTum t 18) 1 else s
    (s, { data := if d.epoch = e then d.data else 0, live := d.epoch == e, poison := false, corrected := true,
          wroteBack := back, word := d.word, cls := k })

/-- The eight code words of line `x` at place `l`: what an RD finds. -/
def lineWords (s : State) (t : Nat) (l : Loc) (x : Nat) : List CodeWord :=
  (List.range 8).map (getWord s t l (lineCol x))

/-- Cells lose bits, and then the eight words `ws` that an RD found in line `x` are decoded against EPOCH `e`; `pick` says
which. -/
def decodeRead (s : State) (t : Nat) (l : Loc) (x e : Nat) (ws flips : List CodeWord) (pick : Nat → Bool) :
    State × List Got :=
  let c := lineCol x
  let s := foldUpTo 8 (fun s w => if getWord s t l c w = ws.getD w 0 then loseBits s t l c w (flips.getD w 0) else s) s
  foldUpTo 8 (fun (a : State × List Got) w =>
    let v := ws.getD w 0 ^^^ flips.getD w 0
    if pick w then
      let (s, g) := decodeAt a.1 t l x w e v
      (s, a.2 ++ [g])
    else
      (a.1, a.2 ++ [{ data := 0, live := false, poison := false, corrected := false, wroteBack := false, word := v,
                      cls := .clean }])) (s, [])

/-- `decodeRead` of what the line holds now. -/
def decodeLine (s : State) (t : Nat) (l : Loc) (x e : Nat) (flips : List CodeWord) (pick : Nat → Bool) :
    State × List Got :=
  decodeRead s t l x e (lineWords s t l x) flips pick

/-! ## Tables of the crossbar -/

/-- Extents of a key: permission bits [4:0] = R, W, A, S, C of its union for region `r` (R57, R58). -/
def keyPerm (s : State) (k r : Nat) : Nat :=
  if !flag s (keyHdr k) 31 then 0 else
  foldUpTo 8 (fun p n =>
    let f := fld s (keyLo k n) 15 0
    let c := fld s (keyHi k n) 16 0
    if f ≤ r ∧ r < f + c then p ||| fld s (keyHi k n) 28 24 else p) 0

/-- The key grants a read, write or atomic of region `r` (R59). -/
def permitted (s : State) (k r ty : Nat) : Bool :=
  let p := keyPerm s k r
  let d := dumpRegion s == some r
  if ty = 0 then bit p 0 || (d && bit p 4)
  else if d then false
  else if ty = 1 then bit p 1 else bit p 2

/-- The key grants a scan of region `r`, for its column (`col`) or an output (R59). -/
def scanPermitted (s : State) (k r : Nat) (col : Bool) : Bool :=
  if col then bit (keyPerm s k r) 3 else bit (keyPerm s k r) 1 && !(dumpRegion s == some r)

def flwState (s : State) (f : Nat) : Nat := fld s (flwReg f 0) 31 30
def flwPort (s : State) (f : Nat) : Nat := fld s (flwReg f 0) 27 24
def flwInit (s : State) (f : Nat) : Nat := fld s (flwReg f 0) 23 12
def flwKey (s : State) (f : Nat) : Nat := fld s (flwReg f 0) 11 0
def flwClass (s : State) (f : Nat) : Nat := fld s (flwReg f 1) 7 0

/-- Initiator `i` is valid on port `p` (R52). -/
def initOn (s : State) (i p : Nat) : Bool := flag s (keyInit i) 31 && flag s (keyInit i) p

/-- The flow is open and its initiator valid; the port is not checked (R184, R366). -/
def flowValid (s : State) (f : Nat) : Bool := flwState s f == 1 && flag s (keyInit (flwInit s f)) 31

/-- One more request of a flow is in flight (R54, R184). -/
def flowStart (s : State) (id : Nat) (f : BitVec 18) : State :=
  let n := fld s (flwReg f.toNat 2) 15 0
  setF { s with live := s.live ++ [(id, f, BitVec.ofNat 12 (flwKey s f.toNat))] } (flwReg f.toNat 2) 15 0 (n + 1)

/-- Type and size are performed together (R62). -/
def performed (ty size : Nat) : Bool :=
  if ty = 0 then size = 1 || size = 2 else if ty = 1 then size = 1 else decide (ty ≤ 5) && size = 0

/-- LEN that R299 gives a type. -/
def reqLen (ty : Nat) : Nat := if ty = 0 then 8 else if ty = 1 then 44 else if ty ≤ 3 then 12 else 16

/-- The checks of R63, with that of R299 first; none where the request is accepted. -/
def checkReq (s : State) (ty : Nat) (r : Req) : Option (BitVec 4) :=
  let a := r.addr.toNat
  let f := r.flow.toNat
  if r.len.toNat ≠ reqLen ty || !performed ty r.size.toNat || r.hint = 3 then some stParameter
  else if a % [8, 64, 256, 1].getD r.size.toNat 1 ≠ 0 ∨ f = 0 then some stParameter
  else if flwState s f ≠ 1 ∨ flwPort s f ≠ r.port.val then some stFlow
  else if r.initiator.toNat ≠ flwInit s f ∨ initOn s r.initiator.toNat r.port = false then some stFlow
  else if 2 ^ s.part.addrWidth ≤ a then some stRange
  else if !permitted s (flwKey s f) (regionOf a) ty then some stPermission
  else none

end Sys2Proof.Machine
end

