-- ==== Sys2Proof/Machine/PairOps.lean ====
section
/-! DEFINITION. Shared operations of the pair engine: which member orders a write (R320, R335, R340, R342, R344),
DIVERGED bits (R340), sequenced packets (R321, R324), and how a write that is safe here completes (R328, R329). -/

namespace Sys2Proof.Machine

open Sys2Proof

/-- The two members act together: Paired, Resync source or Resync target. -/
def pairUp (s : State) : Bool :=
  s.pair.state = .paired || s.pair.state = .resyncSource || s.pair.state = .resyncTarget

/-- The pair engine is in latch-out on a module that was in a pair (R342, log 26). -/
def pairDead (s : State) : Bool := s.pair.state = .latchOut && mirrorMask s != 0

/-- Tumbler `t` of this member is in latch-out. -/
def fencedHere (s : State) (t : Nat) : Bool := tstate s t = .latchOut

/-- Tumbler `t` of the partner is fenced (R335). -/
def fencedThere (s : State) (t : Nat) : Bool := bit s.pair.partnerFenced.toNat t

/-- Order of writes (R320, R335, R336, R340, R342, R344, R346). -/
def orderOf (s : State) (r t : Nat) : Order :=
  if s.pair.orphan.contains r then .abort
  else if pairDead s then .abort
  else if !pairUp s then
    if fencedHere s t then .fenced else if s.pair.state = .solo then .alone else .local
  else if fencedHere s t then if fencedThere s t then .fenced else .remote
  else if fencedThere s t then .alone
  else if s.pair.pending.contains r then
    if s.pair.state = .resyncTarget then .remote else .home
  else if rgnHomeEff s r = fld s (pairReg 0) 0 0 then .home else .remote

/-- Where a read is served (R331, R336, R344, R346). -/
def readOrder (s : State) (r t : Nat) : Order :=
  if s.pair.orphan.contains r then .abort
  else if fencedHere s t then if pairUp s && !fencedThere s t then .remote else .fenced
  else if s.pair.state = .resyncTarget && s.pair.pending.contains r then .remote
  else .local

/-- Clears DIVERGED on region `r`. -/
def clearDiverged (s : State) (r : Nat) : State :=
  if rgnDiverged s r then
    let s := setF s (rgnReg r) 7 7 0
    { s with pair := { s.pair with dirty := s.pair.dirty ++ [r] } }
  else s

/-- Ports of the port map, ascending (R321). -/
def mapPorts (s : State) : List Nat := (List.range 16).filter (fun p => flag s (pairReg 8) (16 + p))

/-- Port that carries the sequenced packets of region `r` (R321). -/
def seqPort (s : State) (r : Nat) : Nat :=
  let l := mapPorts s
  l.getD (r % max 1 l.length) 16

/-- Sequenced packets held on a port. -/
def heldOn (s : State) (p : Nat) : Nat := (s.pair.held.filter (fun h => h.port = p)).length

def isRead (a : Access) : Bool := a.kind = .read64 || a.kind = .read256

/-- Queued writes and atomics that have still to send their REPLICA. -/
def owedPkts (s : State) : List Access :=
  (List.range 64).flatMap (fun t =>
    (s.tum t).q.queue.filter (fun a => !isRead a && !a.answered && (a.ord = .home || a.ftag.isSome)))

/-- The buffer of R324 has room for a packet of region `r` beside those that queued writes are going to send. -/
def pairRoom (s : State) (r : Nat) : Bool :=
  let owed := owedPkts s
  let p := seqPort s r
  decide (s.pair.held.length + owed.length < 4096)
    && decide (heldOn s p + (owed.filter (fun a => seqPort s (regionOf a.addr.toNat) = p)).length < 1024)
    && decide (s.pair.fwds.length < 4096)

/-- Gives a held packet its port, generation and sequence number, and sends it. -/
def sendHeld (s : State) (h : HeldPkt) : State × HeldPkt :=
  let p := seqPort s h.region
  let n := tget zero s.pair.txSeq p
  let k := { h.pkt with pgen := s.pair.pgen, pseq := n }
  let s := sendPair { s with pair := { s.pair with txSeq := tput zero s.pair.txSeq p (n + 1) } } p h.ty k
  (s, { h with port := p, pkt := k })

/-- A packet of region `r` can be sent now behind the packets `l`: no map change runs, the buffer has room and none
waits before it on its port (R324, R338). -/
def seqNow (s : State) (l : List HeldPkt) (r : Nat) : Bool :=
  s.pair.mapWait.isNone && decide ((s.pair.held.filter (fun h => h.port < 16)).length < 4096)
    && decide (heldOn s (seqPort s r) < 1024) && decide (seqPort s r < 16)
    && !l.any (fun h => h.port = 16 && seqPort s h.region = seqPort s r)

/-- Sends a sequenced packet and holds it until its ACK (R324); otherwise it is only held. -/
def sendSeq (s : State) (ty r : Nat) (k : PairPkt) (done : Option (Access × Cmp)) : State :=
  let h : HeldPkt := { port := 16, ty := ty, pkt := k, region := r, done := done }
  let (s, h) := if seqNow s s.pair.held r then sendHeld s h else (s, h)
  { s with pair := { s.pair with held := s.pair.held ++ [h] } }

/-- Sends the packets that only wait, in order, while there is room. -/
def pump (s : State) : State :=
  foldUpTo s.pair.held.length (fun s i =>
    match s.pair.held[i]? with
    | some h =>
      if h.port = 16 && seqNow s (s.pair.held.take i) h.region then
        let (s, h) := sendHeld s h
        { s with pair := { s.pair with held := s.pair.held.set i h } }
      else s
    | none => s) s

/-- Line address of a packet. -/
def lineAddr (s : State) (t x : Nat) : Nat := addrOf s t x

/-- Words of `d` in mask `m`, as chunks. -/
def wordChunks (m d : Nat) : List (BitVec 16) :=
  (List.range 8).flatMap (fun w => if bit m w then toChunks 4 (bits d (64 * w + 63) (64 * w)) else [])

/-- Status chunk of REPLICA with SUB 1 and of RESULT (R325). Its poison mask has 8 bits, so a forwarded 256-byte read loses bits
31:8 of R70's mask (log 129). -/
def statusChunk (c : Cmp) : BitVec 16 :=
  BitVec.ofNat 16 (c.status.toNat + 16 * b2n c.unwritten + 32 * b2n c.corrected + 256 * (c.poison.toNat % 256))

/-- REPLICA (R325) of the words `m` of a line `d`. -/
def replicaPkt (s : State) (addr m d : Nat) (ftag : Option (BitVec 16)) (c : Cmp) (atomic : Bool) : PairPkt :=
  let tail := match ftag with
    | some _ => [statusChunk c] ++ (if atomic then toChunks 4 c.data.toNat else [])
    | none => []
  let body := wordChunks m d ++ tail
  { pairHdr s (8 + body.length) (if ftag.isSome then 1 else 0) addr with
    wmask := BitVec.ofNat 8 m, ftag := ftag.getD 0, body := body }

/-- FWD (R325) of a request. -/
def fwdPkt (s : State) (a : Access) (tag : BitVec 16) : PairPkt :=
  let ty := match a.kind with
    | .read64 | .read256 => 0 | .write => 1 | .add => 2 | .swap => 3 | .cas => 4 | .andOr => 5
  let size := match a.kind with
    | .read64 | .write => 1 | .read256 => 2 | _ => 0
  let sub := match a.kind with
    | .write => 0 | .read64 | .read256 => 2 | _ => 1
  let desc := toChunks 2 (ty + size * 16 + a.urg.toNat * 64 + a.hint.toNat * 256 + a.cls.toNat * 1024)
  let rest := match a.kind with
    | .read64 | .read256 => []
    | .write => toChunks 4 a.be.toNat ++ toChunks 32 a.data.toNat
    | .add | .swap => toChunks 4 a.op1.toNat
    | _ => toChunks 4 a.op1.toNat ++ toChunks 4 a.op2.toNat
  { pairHdr s (8 + (desc ++ rest).length) sub a.addr.toNat with ftag := tag, body := desc ++ rest }

/-- LEN, SUB and, for HELLO, REASON agree with R325 and R326. -/
def pairShape (ty : Nat) (k : PairPkt) : Bool :=
  let n := k.len.toNat
  let sub := k.sub.toNat
  let w := 8 + 4 * popNat 8 k.wmask.toNat
  let ok :=
    if ty = 0x10 then
      sub ≤ 1 && n == 13 && decide ((k.body.getD 4 0).toNat ≤ 1 - sub)
    else if ty = 0x11 then
      (sub == 0 && n == 46) || (sub == 1 && (n == 14 || n == 18)) || (sub == 2 && n == 10)
    else if ty = 0x12 then (sub == 0 && n == w) || (sub == 1 && (n == w + 1 || n == w + 5))
    else if ty = 0x13 then sub == 0 && n == 8
    else if ty = 0x14 then sub < 10 && n == [9, 8, 9, 8, 8, 24, 12, 13, 136, 8].getD sub 0
    else if ty = 0x15 then sub == 0 && n == 41
    else if ty = 0x16 then (sub == 0 && (n == 41 || n == 137)) || (sub == 1 && n == 9)
    else false
  ok && k.body.length == n - 8

/-- The pair packet that chunks spell (R323). -/
def decodePair (l : List (BitVec 16)) : PairPkt :=
  let v := chunkNat (l.take 8)
  { len := BitVec.ofNat 10 (bits v 15 6), sub := BitVec.ofNat 4 (bits v 19 16), pgen := BitVec.ofNat 8 (bits v 27 20),
    pseq := BitVec.ofNat 32 (bits v 63 32), addr := BitVec.ofNat 40 (bits v 103 64),
    wmask := BitVec.ofNat 8 (bits v 111 104), ftag := BitVec.ofNat 16 (bits v 127 112), body := l.drop 8 }

/-- A pair packet that R325 calls for skipping: the pair engine records a fault. -/
def badPair (s : State) (p : Nat) : State :=
  let s := count (setF s (fpReg p 0x800C) 6 6 1) (cPort p 17) 1
  fault s .pair 1 0 1

/-- A forward tag not in use. -/
def freeTag (s : State) : BitVec 16 :=
  let n := s.pair.nextTag
  match (List.range 4096).find? (fun i => !s.pair.fwds.any (fun f => f.1.toNat == (n + i) % 4096)) with
  | some i => BitVec.ofNat 16 ((n + i) % 4096)
  | none => 0

/-- Sends a request to the partner (R329, R336). -/
def sendFwd (s : State) (a : Access) : State :=
  let tag := freeTag s
  let s := { s with pair := { s.pair with
    fwds := s.pair.fwds ++ [(tag, a)], nextTag := (tag.toNat + 1) % 4096 } }
  sendSeq (count s (cPair 0) 1) 0x11 (regionOf a.addr.toNat) (fwdPkt s a tag) none

/-- An access of a host request, a forwarded one or a scan is measured for its service class (R187, R211, R332). -/
def classed (a : Access) : Bool := match a.src with
  | .flow _ | .master .scan => true
  | .master _ => false

def isAtomic (a : Access) : Bool := match a.kind with
  | .add | .swap | .cas | .andOr => true
  | _ => false

/-- A forwarded request has been performed here: measured, and its access leaves the Ward. -/
def fwdMeasured (s : State) (a : Access) (fenced : Bool) : State :=
  wardDone (histogram s a.tum a.cls.toNat (latencyNs s a)) a.id (latencyNs s a) fenced

/-- Before the first sequenced packet (R324). -/
def noSeq : Nat → BitVec 32 := fun _ => BitVec.allOnes 32

/-- Last PSEQ of port `p` up to which every packet's effect is safe (R324). -/
def ackedSeq (s : State) (p : Nat) : BitVec 32 :=
  match s.pair.hands.find? (fun h => h.port = p && !h.done) with
  | some h => h.pkt.pseq - 1
  | none => tget noSeq s.pair.rxSeq p

/-- ACK of the packets of port `p` up to `n` (R324). -/
def sendAck (s : State) (p n : Nat) : State :=
  sendPair s p 0x13 { pairHdr s 8 0 0 with pseq := BitVec.ofNat 32 n }

/-- The safe packets at the front of port `p` are acknowledged together (R324). -/
def ackHands (s : State) (p : Nat) : State :=
  let l := s.pair.hands.filter (fun h => h.port = p)
  let rest := l.dropWhile (·.done)
  if rest.length = l.length then s
  else
    let s := { s with pair := { s.pair with hands := s.pair.hands.filter (fun h => h.port != p) ++ rest } }
    sendAck s p (ackedSeq s p).toNat

/-- A sequenced packet is taken in its turn. -/
def takeHand (s : State) (p ty : Nat) (k : PairPkt) (done : Bool) : State :=
  let x := s.pair
  { s with pair := { x with
    rxSeq := tput noSeq x.rxSeq p k.pseq, hands := x.hands ++ [{ port := p, ty := ty, pkt := k, done := done }] } }

/-- The effect of packet `seq` of port `p` is safe (R324). -/
def handDone (s : State) (p : Nat) (seq : BitVec 32) : State :=
  ackHands { s with pair := { s.pair with hands := s.pair.hands.map (fun h =>
    if h.port = p && h.pkt.pseq = seq then { h with done := true } else h) } } p

/-- Completion that a status chunk describes (R325). -/
def statusCmp (a : Access) (v : Nat) (partner : Bool) (bytes data : Nat) : Cmp :=
  mkCmp a (BitVec.ofNat 4 (bits v 3 0)) (bit v 4) (bit v 5) partner (BitVec.ofNat 32 (bits v 15 8)) bytes
    (BitVec.ofNat 2048 data)

/-- A request sent to the partner is done: it completes with status chunk `v` (R329, R336). PARTNER is set where this
member did not perform it (R336). -/
def fwdDone (s : State) (tag : BitVec 16) (v : Nat) (partner : Bool) (bytes data : Nat) : State :=
  match s.pair.fwds.find? (fun f => f.1 = tag) with
  | some (_, a) =>
    complete { s with pair := { s.pair with fwds := s.pair.fwds.filter (fun f => f.1 != tag) } } a
      (statusCmp a v partner bytes data) false
  | none => s

/-- Answer to a forwarded write or atomic: the status chunk follows the words (R325). -/
def answerFwd (s : State) (k : PairPkt) (partner : Bool) : State :=
  let n := 4 * popNat 8 k.wmask.toNat
  let v := (k.body.getD n 0).toNat
  let st := BitVec.ofNat 4 (bits v 3 0)
  let old := k.body.drop (n + 1)
  fwdDone s k.ftag v partner (if old.isEmpty || (st != stSuccess && st != stPoisoned) then 0 else 8) (chunkNat old)

/-- The packet of port `p` with number `seq` that is not yet safe. -/
def handOf (s : State) (p : Nat) (seq : BitVec 32) : Option Hand :=
  s.pair.hands.find? (fun h => h.port = p && h.pkt.pseq = seq && !h.done)

/-- The replica `k` of port `p` needs nothing more here (R328 step 4, R329). -/
def replicaDone (s : State) (p : Nat) (k : PairPkt) : State :=
  handDone (if k.sub = 1 then answerFwd s k false else s) p k.pseq

/-- The words of the replica that access `a` performs lie in a slot. -/
def replicaStored (s : State) (a : Access) : State :=
  match handOf s a.tag.toNat (a.op1.setWidth 32) with
  | some h => replicaDone s h.port h.pkt
  | none => s

/-- RESULT with SUB 1, whose reason chunk the spec leaves without a code: 0 (log 27). -/
def rejectPkt (s : State) (addr : Nat) (tag : BitVec 16) : PairPkt :=
  { pairHdr s 9 1 addr with ftag := tag, body := [0] }

/-- A replica for a line of a fenced tumbler (R335): SUB 0 is answered with a RESULT reject, SUB 1 completes its request,
which the partner alone has performed. -/
def replicaRejected (s : State) (a : Access) : State :=
  match handOf s a.tag.toNat (a.op1.setWidth 32) with
  | some h =>
    let s := if h.pkt.sub = 1 then answerFwd s h.pkt true
      else sendPair s h.port 0x16 (rejectPkt s h.pkt.addr.toNat 0)
    handDone s h.port h.pkt.pseq
  | none => s

/-- The forwarded request with `tag` has its answer, and its effect is safe (R324, log 36). -/
def fwdServed (s : State) (tag : BitVec 16) : State :=
  match s.pair.hands.find? (fun h => h.ty = 0x11 && h.pkt.ftag = tag && !h.done) with
  | some h => handDone s h.port h.pkt.pseq
  | none => s

/-- A write or atomic lies in its slot: words `m` of the line `d` changed. It completes under R328 or R329, or at
once; what ordered it at its entry still does, so long as the partner is there. A write that this member alone performs makes its
region diverge (R335, R340). -/
def writeSafe (s : State) (a : Access) (c : Cmp) (m d : Nat) : State :=
  let r := regionOf a.addr.toNat
  let addr := a.addr.toNat / 64 * 64
  match a.src, a.ftag with
  | .master .pair, _ => replicaStored s a
  | .master .dump, _ => masterDone s .dump a c true
  | _, some tag =>
    let s := fwdMeasured s a false
    let s := if m != 0 && (!pairUp s || fencedThere s a.tum) then setDiverged s r else s
    if !pairUp s then s
    else fwdServed (sendSeq (count s (cPair 2) 1) 0x12 r (replicaPkt s addr m d (some tag) c (isAtomic a)) none) tag
  | _, none =>
    let o := if a.ord = .home && pairUp s && !fencedThere s a.tum then Order.home
      else if a.ord = .alone then .alone else orderOf s r a.tum
    match o with
    | .home =>
      if m = 0 then complete s a c true
      else sendSeq (count s (cPair 2) 1) 0x12 r (replicaPkt s addr m d none c false) (some (a, c))
    | .alone => complete (if m = 0 then s else setDiverged s r) a c true
    | _ => complete s a c true

/-- RESULT with SUB 0 (R325). -/
def resultPkt (s : State) (addr : Nat) (tag : BitVec 16) (c : Cmp) : PairPkt :=
  let body := [statusChunk c] ++ toChunks (c.bytes / 2) c.data.toNat
  { pairHdr s (8 + body.length) 0 addr with ftag := tag, body := body }

/-- A read is served: its completion, or RESULT to the partner that forwarded it. -/
def readServed (s : State) (a : Access) (c : Cmp) : State :=
  match a.ftag with
  | some tag =>
    let p := seqPort s (regionOf a.addr.toNat)
    let s := fwdMeasured s a false
    if pairUp s then fwdServed (sendPair s p 0x16 (resultPkt s a.addr.toNat tag c)) tag else s
  | none => complete s a c true

end Sys2Proof.Machine
end

