-- ==== Sys2Proof/Machine/Queue.lean ====
section
/-! DEFINITION. Before and in the tumbler queue: shares (R205 to R207), urgency (R208), entry (R78, R144, R331),
line slots and the order within a line (R78, R79, R83, R86). -/

namespace Sys2Proof.Machine

open Sys2Proof

/-! ## Lines of an access -/

def lineCount (a : Access) : Nat := if a.kind = .read256 then 4 else 1

/-- Lines that an access has not yet read or merged. -/
def openLines (a : Access) : List Nat :=
  match a.stage with
  | .fresh | .rdIssued => (List.range (lineCount a)).map (a.line + ·)
  | .needRd n => (List.range n).map (fun i => a.line + (lineCount a - n) + i)
  | .needWr => []

/-- The access still holds back later accesses to line `x` (R79). -/
def pendsOn (a : Access) (x : Nat) : Bool := (openLines a).contains x

/-- Place of the `i`-th line of an access; its leaf is the one that the leaf map gave at entry (R72). -/
def accPlace (s : State) (a : Access) (i : Nat) : Loc := placeOn s a.tum a.loc.leaf (a.line + i)

def slotOf (q : TQueue) (x : Nat) : Option Slot := q.slots.find? (fun k => k.line = x)

/-- The slot holds all eight words. -/
def slotWhole (k : Slot) : Bool := k.be = BitVec.allOnes 64

/-- Word `w` of a slot is held. -/
def slotHas (k : Slot) (w : Nat) : Bool := bits k.be.toNat (8 * w + 7) (8 * w) == 255

def setSlot (q : TQueue) (k : Slot) : TQueue :=
  if q.slots.any (fun j => j.line = k.line) then
    { q with slots := q.slots.map (fun j => if j.line = k.line then k else j) }
  else { q with slots := q.slots ++ [k] }

def dropSlot (q : TQueue) (x : Nat) : TQueue := { q with slots := q.slots.filter (fun j => j.line != x) }

/-! ## Shares (R205, R206) -/

/-- The holder of an entry or slot: a class, which scans share, or a master's reservation (R206). -/
def holder (src : Src) (c : BitVec 8) : Nat := match src with
  | .flow _ | .master .scan => c.toNat
  | .master .dma => 257
  | .master .dump => 258
  | .master .sweep => 259
  | .master .swap => 260
  | .master .scrub => 261
  | .master _ => 256

/-- Entries and slots that R206 reserves for a master's holder number. -/
def reserved (c : Nat) : Nat := [32, 4, 2, 8, 8, 2].getD (c - 256) 2

/-- Sum of the reservations of all classes; share registers that are not listed reserve nothing. -/
def resTotal (s : State) (o : Nat) : Nat :=
  (s.csr.filter (fun e => decide (0x802000 ≤ e.1) && decide (e.1 < 0x802800) && e.1 % 8 == o)).foldl
    (fun n e => n + bits e.2.toNat 8 0) 0

def shareReg (c o : Nat) : Nat := wrdReg (0x2000 + 8 * c + o)

/-- Holders `h` leave room for one more of holder `c`: its reservation, or the pool within its maximum. -/
def hasShare (s : State) (h : List Nat) (c o : Nat) : Bool :=
  let n := (h.filter (· = c)).length
  if 256 ≤ c then decide (n < reserved c)
  else
    let pool := 456 - resTotal s o
    let used := ((h.filter (· < 256)).eraseDups.map (fun k =>
      (h.filter (· = k)).length - fld s (shareReg k o) 8 0)).foldl (· + ·) 0
    decide (n < fld s (shareReg c o) 25 16) &&
      (decide (n < fld s (shareReg c o) 8 0) || decide (used < pool))

def entryHolders (s : State) (t : Nat) : List Nat := (s.tum t).q.queue.map (fun a => holder a.src a.cls)
def slotHolders (s : State) (t : Nat) : List Nat := (s.tum t).q.slots.map (fun k => holder k.src k.cls)

/-- The shares of an access are free (R205, R207). -/
def sharesFree (s : State) (a : Access) : Bool :=
  hasShare s (entryHolders s a.tum) (holder a.src a.cls) 0 &&
    (isRead a || (slotOf (s.tum a.tum).q a.line).isSome ||
      hasShare s (slotHolders s a.tum) (holder a.src a.cls) 4)

/-! ## Urgency (R208) -/

def portUrgency (s : State) (p : Nat) : BitVec 2 := if carries s p then (s.port p).urgRx else 0

/-- Effective urgency of a request on port `p`. -/
def effUrgency (s : State) (p : Nat) (u : BitVec 2) (c : Nat) : BitVec 2 :=
  let m := max u.toNat (portUrgency s p).toNat
  BitVec.ofNat 2 (min m (fld s (wrdReg (0x1000 + 16 * c)) 5 4))

/-- Urgency of a buffer that holds `n` of `cap` (R209). -/
def bufLevel (n cap : Nat) : BitVec 2 :=
  if 3 * cap ≤ 4 * n then 3 else if cap ≤ 2 * n then 2 else if cap ≤ 4 * n then 1 else 0

/-- Accesses of a master that wait for tumbler `t` or lie in its queue. -/
def mastersIn (s : State) (t : Nat) (m : Src) : Nat :=
  ((s.tum t).q.queue.filter (fun a => a.src = m)).length
    + (s.waiting.filter (fun a => a.src = m && a.tum.val == t)).length

/-- Units of tumbler time in the 6.4 ns of R149. -/
def paceUnits : Nat := 3072

/-- Sweeps that run in tumbler `t`. -/
def sweepsIn (s : State) (t : Nat) : List SweepT := s.sweeps.filter (fun x => x.tum = t && x.started && !x.finished)

/-- The sweeper of the tumbler is behind pace (R149). -/
def sweepBehind (s : State) (t : Nat) : Bool :=
  (sweepsIn s t).any (fun x => decide (x.ptr * paceUnits < (s.tum t).dram.time - x.startTime))

/-- The sweeper's backlog in line operations (R149), the greatest of its sweeps. -/
def sweepBacklog (s : State) (t : Nat) : Nat :=
  (sweepsIn s t).foldl (fun n x => max n (((s.tum t).dram.time - x.startTime) / paceUnits - x.ptr)) 0

/-- Urgency in force of an access: its own, or its master's by the fill of the master's buffer (R208, R209). The buffer of the
DMA, of the dump and of the pair engine is taken as the accesses it has in the tumbler, against its reservation (log 130). -/
def urgency (s : State) (a : Access) : BitVec 2 :=
  match a.src with
  | .master .dma | .master .dump | .master .pair =>
    bufLevel (mastersIn s a.tum a.src) (reserved (holder a.src a.cls))
  | .master .sweep => bufLevel (sweepBacklog s a.tum) 8
  | _ => a.urg

/-! ## Ward records and pauses (R203, R211, R213) -/

/-- Units of master `m` of tumbler `t` in the current window. -/
def masterKey (t m : Nat) : Nat := 16 * t + m

def masterCode : Master → Nat
  | .scan => 0 | .scrub => 1 | .sweep => 2 | .pair => 3 | .swap => 4 | .dma => 5 | .dump => 6 | .remap => 7

/-- Adds to a count of a master in the current window. -/
def chargeMaster (s : State) (t m n : Nat) : State :=
  { s with ward := { s.ward with
      masters := tput zero s.ward.masters (masterKey t m) (tget zero s.ward.masters (masterKey t m) + n) } }

/-- Charges `n` units of an access to its class or master; the row-remap copy is charged to none (R203, R206). -/
def charge (s : State) (a : Access) (n : Nat) : State :=
  let w := s.ward
  match a.src with
  | .flow _ | .master .scan =>
    let k := 256 * a.tum.val + a.cls.toNat
    count { s with ward := { w with
      served := tput zero w.served k (tget zero w.served k + n),
      log := w.log.map (fun r => if r.id = a.id then { r with units := r.units + n } else r) } }
      (cWard a.cls.toNat 0) n
  | .master .pair =>
    { s with ward := { w with mirror := tput zero w.mirror a.tum.val (tget zero w.mirror a.tum.val + n) } }
  | .master .remap => s
  | .master m => chargeMaster s a.tum.val (masterCode m) n

/-- Leaves every queued access of a tumbler out of R211 and R212 (R213). -/
def excludeQueued (s : State) (t : Nat) : State :=
  let ids := (s.tum t).q.queue.map (·.id)
  let s := setQ s t (fun q => { q with queue := q.queue.map (fun a => { a with excluded := true }) })
  { s with ward := { s.ward with log := s.ward.log.map (fun r =>
      if ids.contains r.id then { r with excluded := true } else r) } }

/-- A pause of R88, R91 or R116 begins: what is queued is left out of R211 and R212 (R213). -/
def pauseOn (s : State) (t : Nat) : State :=
  match (s.tum t).pauseSince with
  | some _ => if (s.tum t).pauseHot then (excludeQueued s t).modTum t (fun x => { x with pauseHot := false }) else s
  | none => (excludeQueued s t).modTum t (fun x => { x with pauseSince := some s.now.toNat })

/-- The self-refresh of R123 begins: a pause of R211 that leaves no access out. -/
def pauseHotOn (s : State) (t : Nat) : State :=
  if (s.tum t).pauseSince.isSome then s
  else s.modTum t (fun x => { x with pauseSince := some s.now.toNat, pauseHot := true })

/-- A pause of R211 ends; in the self-refresh of R123 that goes on as a pause. -/
def pauseOff (s : State) (t : Nat) : State :=
  match (s.tum t).pauseSince with
  | none => s
  | some b =>
    let s := if (s.tum t).pauseHot then s else excludeQueued s t
    s.modTum t (fun x =>
      if x.mode.emergency && x.mode.self then { x with pauseHot := true }
      else { x with
        pauseSince := none, pauseHot := false, pause := x.pause + (s.now.toNat - max b s.ward.winStart) })

/-! ## Packets taken from a port's store (R38, R67, R288) -/

/-- The oldest packet of type `ty` that waits at port `p`, with its receive stamp. -/
def nextPkt (s : State) (p ty : Nat) : Option (BitVec 64 × List (BitVec 16)) :=
  (s.port p).rxPkts.find? (fun e => bits (chunkNat e.2) 5 0 = ty)

/-- The packet is kept in the port's store with the stamp of now. -/
def storePkt (s : State) (p : Nat) (pkt : List (BitVec 16)) : State :=
  s.modPort p (fun x => { x with rxPkts := x.rxPkts ++ [(s.now, usedBits pkt)] })

/-- The packet is in the port's store: one that is not arrives now. -/
def received (s : State) (p : Nat) (pkt : List (BitVec 16)) : State :=
  if (s.port p).rxPkts.any (fun e => e.2 == usedBits pkt) then s else storePkt s p pkt

/-- The packet leaves the port's store. -/
def dropPkt (s : State) (p : Nat) (pkt : List (BitVec 16)) : State :=
  s.modPort p (fun x => { x with rxPkts := x.rxPkts.eraseP (fun e => e.2 == usedBits pkt) })

/-! ## Reading from a slot -/

/-- Word `w` of a slot as an access of EPOCH `e` uses it: data, matching, poisoned (R144). -/
def slotWord (k : Slot) (w e : Nat) : Nat × Bool × Bool :=
  let m := bits k.epochs.toNat (2 * w + 1) (2 * w) == e
  let p := bit k.poison.toNat w
  (if m && !p then bits k.data.toNat (64 * w + 63) (64 * w) else 0, m, m && p)

/-- The assembly of a read, begun where it is new. -/
def asmOf (q : TQueue) (a : Access) : Assembly :=
  (q.asm.find? (fun x => x.id = a.id)).getD
    { id := a.id, data := 0, poison := 0, corrected := false, live := false, left := lineCount a }

/-- Adds line `i` to a read's assembly: per word data, matching, poisoned and corrected. -/
def asmAdd (x : Assembly) (i : Nat) (l : List (Nat × Bool × Bool × Bool)) : Assembly :=
  let z := l.zipIdx
  { x with
    data := x.data ||| BitVec.ofNat 2048 (z.foldl (fun n e => n + e.1.1 * 2 ^ (512 * i + 64 * e.2)) 0),
    poison := x.poison ||| BitVec.ofNat 32 (z.foldl (fun n e => n + b2n e.1.2.2.1 * 2 ^ (8 * i + e.2)) 0),
    corrected := x.corrected || l.any (fun e => e.2.2.2),
    live := x.live || l.any (fun e => e.2.1),
    left := x.left - 1 }

/-- Completion of a read whose lines are all assembled (R69, R70). -/
def asmCmp (a : Access) (x : Assembly) : Cmp :=
  mkCmp a (if x.poison = 0 then stSuccess else stPoisoned) (!x.live) x.corrected false x.poison (64 * lineCount a)
    x.data

/-- Puts an assembly back, or completes the read. -/
def asmPut (s : State) (a : Access) (x : Assembly) : State :=
  let s := setQ s a.tum (fun q => { q with asm := q.asm.filter (fun y => y.id != a.id) })
  if x.left = 0 then
    readServed (count s (cTum a.tum 22) (popNat 32 x.poison.toNat)) a (asmCmp a x)
  else setQ s a.tum (fun q => { q with asm := q.asm ++ [x] })

/-! ## Writing into a slot -/

/-- Stores word `w` into a slot under EPOCH `e`. -/
def slotPut (k : Slot) (w e data : Nat) (poison : Bool) : Slot :=
  { k with
    be := BitVec.ofNat 64 (setBits k.be.toNat (8 * w + 7) (8 * w) 255),
    data := BitVec.ofNat 512 (setBits k.data.toNat (64 * w + 63) (64 * w) data),
    epochs := BitVec.ofNat 16 (setBits k.epochs.toNat (2 * w + 1) (2 * w) e),
    poison := BitVec.ofNat 8 (setBits k.poison.toNat w w (b2n poison)), half := false }

/-- Enables of word `w`: 8 bits. -/
def wordBe (be : BitVec 64) (w : Nat) : Nat := bits be.toNat (8 * w + 7) (8 * w)

/-- `new` where the enables are set, `old` elsewhere, byte by byte. -/
def mergeBytes (be old new : Nat) : Nat :=
  foldUpTo 8 (fun n i => n + (if bit be i then bits new (8 * i + 7) (8 * i) else bits old (8 * i + 7) (8 * i)) *
    2 ^ (8 * i)) 0

/-- Some word is enabled in part. -/
def hasPartial (be : BitVec 64) : Bool := (List.range 8).any (fun w => wordBe be w != 0 && wordBe be w != 255)

/-- Words of a write that are enabled as a whole go into the slot. -/
def slotFull (k : Slot) (a : Access) : Slot :=
  foldUpTo 8 (fun k w => if wordBe a.be w = 255 then
    slotPut k w a.epoch.toNat (bits a.data.toNat (64 * w + 63) (64 * w)) false else k) k

/-- Merges the partly enabled words of a write (R66, R83); `base` gives each word's old data, whether it is poisoned
and whether it was corrected. Answers the slot, words changed, words left poisoned, and CORRECTED. -/
def slotMerge (k : Slot) (a : Access) (base : Nat → Nat × Bool × Bool) : Slot × Nat × Nat × Bool :=
  foldUpTo 8 (fun (x : Slot × Nat × Nat × Bool) w =>
    let b := wordBe a.be w
    if b = 0 then x
    else if b = 255 then (x.1, x.2.1 + 2 ^ w, x.2.2.1, x.2.2.2)
    else
      let (old, p, c) := base w
      if p then (x.1, x.2.1, x.2.2.1 + 2 ^ w, x.2.2.2 || c)
      else
        let v := mergeBytes b old (bits a.data.toNat (64 * w + 63) (64 * w))
        (slotPut x.1 w a.epoch.toNat v false, x.2.1 + 2 ^ w, x.2.2.1, x.2.2.2 || c)) (k, 0, 0, false)

/-- Result of an atomic (R65). -/
def atomicResult (a : Access) (old : Nat) : Nat :=
  match a.kind with
  | .add => (old + a.op1.toNat) % 2 ^ 64
  | .swap => a.op1.toNat
  | .cas => if old = a.op1.toNat then a.op2.toNat else old
  | .andOr => (old &&& a.op1.toNat) ||| a.op2.toNat
  | _ => old

/-- Word that an atomic addresses. -/
def atomicWord (a : Access) : Nat := a.addr.toNat / 8 % 8

/-- Executes an atomic on a whole slot (R66, R86): the slot, words changed, completion. -/
def slotAtomic (k : Slot) (a : Access) (corr : Bool) : Slot × Nat × Cmp :=
  let w := atomicWord a
  let (old, _, p) := slotWord k w a.epoch.toNat
  if p then (k, 0, mkCmp a stPoisoned false corr false 1 8 0)
  else (slotPut k w a.epoch.toNat (atomicResult a old) false, 2 ^ w,
        mkCmp a stSuccess false corr false 0 8 (BitVec.ofNat 2048 old))

/-- Completion of a write. -/
def writeCmp (a : Access) (poison : Nat) (corr : Bool) : Cmp :=
  mkCmp a (if poison = 0 then stSuccess else stPoisoned) false corr false (BitVec.ofNat 32 poison) 0 0

def dropAcc (q : TQueue) (id : Nat) : TQueue := { q with queue := q.queue.filter (fun a => a.id != id) }

def setAcc (q : TQueue) (a : Access) : TQueue :=
  { q with queue := q.queue.map (fun b => if b.id = a.id then a else b) }

/-- The data of a write or atomic lies in slot `k`: its entry becomes the slot's write or ends (R78), and it completes
as `writeSafe` says. -/
def slotDone (s : State) (a : Access) (k : Slot) (c : Cmp) (m : Nat) : State :=
  let q := (s.tum a.tum).q
  let q := if k.be = 0 then q else setSlot q k
  let has := q.queue.any (fun b => b.line = a.line && b.stage = .needWr && b.id != a.id)
  let other := q.queue.any (fun b => b.line = a.line && b.id != a.id && !isRead b)
  let q := if k.be = 0 then dropAcc (if other then q else dropSlot q a.line) a.id
    else if has then dropAcc q a.id
    else setAcc q { a with stage := .needWr, answered := true }
  let s := setQ s a.tum (fun _ => q)
  let s := if isAtomic a then count (count s (cTum a.tum 11) 1) (cTum a.tum 22) (b2n (c.status = stPoisoned)) else s
  writeSafe s a c m k.data.toNat

/-- One access of a line looks at the slot (R78, R79, R83, R86). -/
def settleOne (s : State) (t id x : Nat) : State :=
  let q := (s.tum t).q
  match q.queue.find? (fun a => a.id = id) with
  | none => s
  | some a =>
    let older := q.queue.takeWhile (fun b => b.id != id)
    if older.any (fun b => pendsOn b x) then s else
    match a.stage with
    | .fresh =>
      match slotOf q x with
      | none => s
      | some k =>
        let k := { k with loc := if k.be = 0 then accPlace s a 0 else k.loc }
        match a.kind with
        | .write =>
          if !hasPartial a.be then
            slotDone s a (slotFull { k with loc := accPlace s a 0 } a) (writeCmp a 0 false)
              (foldUpTo 8 (fun n w => n + b2n (wordBe a.be w != 0) * 2 ^ w) 0)
          else if slotWhole k then
            let (k, m, p, _) := slotMerge (slotFull { k with loc := accPlace s a 0 } a) a (fun w =>
              let (d, _, p) := slotWord k w a.epoch.toNat
              (d, p, false))
            slotDone (count s (cTum t 10) 1) a k (writeCmp a p false) m
          else if k.be = 0 then setQ s t (fun q => setAcc q { a with stage := .needRd 1 })
          else s
        | .read64 | .read256 => s
        | _ =>
          if slotWhole k then
            let (k, m, c) := slotAtomic { k with loc := accPlace s a 0 } a false
            slotDone s a k c m
          else if k.be = 0 then setQ s t (fun q => setAcc q { a with stage := .needRd 1 })
          else s
    | .needRd n =>
      if isRead a && a.line + (lineCount a - n) == x then
        match slotOf q x with
        | some k =>
          if slotWhole k then
            let y := asmAdd (asmOf q a) (lineCount a - n) ((List.range 8).map (fun w =>
              let (d, m, p) := slotWord k w a.epoch.toNat
              (d, m, p, false)))
            let s := setQ s t (fun q => if n ≤ 1 then dropAcc q id else setAcc q { a with stage := .needRd (n - 1) })
            asmPut s a y
          else s
        | none => s
      else s
    | _ => s

/-- The accesses of line `x` look at the slot, in queue order; a 256-byte read may so pass on to its next lines. -/
def settle (s : State) (t x : Nat) : State :=
  let go (s : State) (y : Nat) : State :=
    (((s.tum t).q.queue.filter (fun a => pendsOn a y)).map (·.id)).foldl (fun s id => settleOne s t id y) s
  foldUpTo 4 (fun s i => go s (x + i)) s

/-! ## Entry into the queue -/

/-- A wake begins with the first access to a gated tumbler (R87, R122); one in a thermal emergency stays (R123). A request
that comes in a wake for refresh ends it (R115). -/
def wakeFor (s : State) (t : Nat) : State :=
  let m := (s.tum t).mode
  if m.refreshWake then setMode s t (fun m => { m with refreshWake := false })
  else if m.wake != .no || m.emergency then s
  else if m.state = .light then setMode s t (fun m => { m with wake := .light })
  else if m.state = .quiet then setMode s t (fun m => { m with wake := .quiet })
  else s

/-- An access enters its tumbler queue (R72, R78, R144). -/
def enterQueue (s : State) (a : Access) : State :=
  let t := a.tum.val
  let x := s.tum t
  let e := BitVec.ofNat 2 (rgnEpoch s (regionOf a.addr.toNat))
  let paused := (x.pauseSince.isSome && !x.pauseHot) || x.mode.state = .quiet
  let a := { a with
    epoch := e, loc := placeOf s t a.line, enterTime := x.dram.time, enterSlot := x.dram.slot,
    window := s.ward.winStart, excluded := paused,
    stage := match a.kind with | .read64 => .needRd 1 | .read256 => .needRd 4 | _ => .fresh }
  let s := wakeFor s t
  let s := if urgency s a = 3 then count s (cTum t 33) 1 else s
  let s := if classed a then
      let r : WardRec :=
        { id := a.id, tum := t, cls := a.cls.toNat, window := a.window, units := 0, latency := none, excluded := paused }
      { s with ward := { s.ward with log := s.ward.log ++ [r] } }
    else s
  let s := setQ s t (fun q =>
    let q := { q with queue := q.queue ++ [a] }
    if isRead a || (slotOf q a.line).isSome then q
    else
      let k : Slot :=
        { line := a.line, be := 0, data := 0, epochs := 0, poison := 0, half := false, loc := a.loc, src := a.src,
          cls := a.cls }
      { q with slots := q.slots ++ [k] })
  settle s t a.line

/-- Some request to one of the access's lines was forwarded and is not yet stored here (R331). -/
def fwdOn (s : State) (a : Access) : Bool :=
  !(a.src = .master .pair) && s.pair.fwds.any (fun f => f.2.tum = a.tum && !isRead f.2 &&
    decide (a.line ≤ f.2.line) && decide (f.2.line < a.line + lineCount a))

/-- New writes to the region are held before the queue (R333, R334, R152), or the copier holds it. -/
def regionHeld (s : State) (r : Nat) (read : Bool) : Bool :=
  rgnSweep s r == 3 ||
    (!read && (s.pair.holdClear.any (fun h => h.1 = r) || s.pair.holdHome.any (fun h => h.1 = r)))

/-- An earlier waiting access of the flow shares a line (R67). -/
def flowBehind (s : State) (a : Access) : Bool :=
  (s.waiting.takeWhile (fun b => b.id != a.id)).any (fun b =>
    b.flow = a.flow && b.port == a.port && b.tum = a.tum && decide (a.line < b.line + lineCount b)
      && decide (b.line < a.line + lineCount a))

/-- The tumbler takes accesses into its queue (R98, R410). -/
def takesAccess (s : State) (t : Nat) : Bool :=
  let m := tstate s t
  m = .online || m = .light || m = .quiet || m = .busy

/-- The access stays on this member whatever orders its region: forwarded to it, a replica, or a dump line (R327). -/
def staysHere (a : Access) : Bool := a.ftag.isSome || a.src = .master .pair || a.src = .master .dump

def accOrder (s : State) (a : Access) : Order :=
  if a.redo then if fencedHere s a.tum then .fenced else if isRead a then .local else .alone
  else if staysHere a then if fencedHere s a.tum then .fenced else .local
  else if isRead a then readOrder s (regionOf a.addr.toNat) a.tum
  else orderOf s (regionOf a.addr.toNat) a.tum

/-- The completion buffer of the access's port has room (R304). -/
def cmpRoom (s : State) (a : Access) : Bool :=
  match a.port with
  | some p => decide ((s.port p).cmpBuf.length < 512)
  | none => true

/-- USB4 DMA and counter dump together stay within 2 units per µs of the window: an access goes while what they have been
charged and what they have queued is less (R206, log 131). -/
def dmaCap (s : State) (a : Access) : Bool :=
  if a.src = .master .dma ∨ a.src = .master .dump then
    let t := a.tum.val
    let n := tget zero s.ward.masters (masterKey t 5) + tget zero s.ward.masters (masterKey t 6)
    let q := ((s.tum t).q.queue.filter (fun b => b.src = .master .dma || b.src = .master .dump)).length
    decide ((n + q) * 25 < 8 * s.ward.winLen)
  else true

/-- A DMA line is the next of its transfer, which moves one line at a time (R366). -/
def dmaTurn (s : State) (a : Access) : Bool :=
  !(a.src = .master .dma) ||
    (s.dmas.any (fun d => d.id == a.op1.toNat && !d.busy) &&
      !(s.waiting.takeWhile (fun b => b.id != a.id)).any (fun b => b.src = .master .dma && b.op1 = a.op1))

/-- The access can leave the store before the queue now. -/
def canGo (s : State) (a : Access) : Bool :=
  let r := regionOf a.addr.toNat
  !s.power.fatal && cmpRoom s a && !flowBehind s a && dmaTurn s a && dmaCap s a &&
    match accOrder s a with
    | .fenced | .abort => true
    | _ =>
    !(s.pair.leave.isSome && !isRead a && !staysHere a) &&
    match accOrder s a with
    | .remote => !fwdOn s a && !(s.pair.holdClear.any (fun h => h.1 = r) && !isRead a) && pairRoom s r
    | .home => !fwdOn s a && !regionHeld s r false && takesAccess s a.tum && pairRoom s r && sharesFree s a
    | _ => !fwdOn s a && !regionHeld s r (isRead a) && takesAccess s a.tum && sharesFree s a
      && (a.ftag.isNone || isRead a || pairRoom s r)

/-- The best waiting access of tumbler `t` that can go: highest effective urgency, then arrival (R207). -/
def bestWaiting (s : State) (t : Nat) : Option Access :=
  (s.waiting.filter (fun a => a.tum.val == t && canGo s a)).foldl (fun m a =>
    match m with
    | none => some a
    | some b => if (urgency s b).toNat < (urgency s a).toNat then some a else some b) none

/-- RESULT or completion of a request that fails for a fenced tumbler or a dead pair engine. -/
def failAccess (s : State) (a : Access) (st : BitVec 4) : State :=
  let c := mkCmp a st false false false 0 (if isRead a && a.ftag.isSome then 64 * lineCount a else 0) 0
  match a.src, a.ftag with
  | .master .pair, _ => replicaRejected s a
  | _, some tag =>
    if !pairUp s then s
    else fwdServed (if isRead a then sendPair s (seqPort s (regionOf a.addr.toNat)) 0x16 (resultPkt s a.addr.toNat tag c)
    else sendSeq (count s (cPair 2) 1) 0x12 (regionOf a.addr.toNat)
      (replicaPkt s (a.addr.toNat / 64 * 64) 0 0 (some tag) c (isAtomic a)) none) tag
  | _, none => complete s a c false

/-- The check of a DMA line at its turn (R366). -/
def dmaCheck (s : State) (a : Access) : Option (BitVec 16) :=
  if a.src ≠ .master .dma then none
  else if !flowValid s a.flow.toNat then some rcFlowInvalid
  else if a.op2 ≠ 0 ∨ 2 ^ s.part.addrWidth ≤ a.addr.toNat then some rcBadRange
  else if !permitted s (flwKey s a.flow.toNat) (regionOf a.addr.toNat) (if isRead a then 0 else 1) then
    some rcNoPermission
  else none

/-- A DMA line takes its turn: it counts in its flow, under the flow's class, while it is on its way. -/
def dmaBegin (s : State) (a : Access) : State × Access :=
  if a.src = .master .dma then
    let s := flowStart s a.id a.flow
    ({ s with dmas := s.dmas.map (fun d => if d.id = a.op1.toNat then { d with busy := true } else d) },
     { a with cls := BitVec.ofNat 8 (flwClass s a.flow.toNat) })
  else (s, a)

/-- Waiting accesses to region `r` take their place under its present interleave mode (R46, R145). -/
def replaceWaiting (s : State) (r : Nat) : State :=
  { s with waiting := s.waiting.map (fun a =>
      if regionOf a.addr.toNat = r then
        { a with tum := Fin.ofNat 64 (lineOf s a.addr.toNat).1, line := (lineOf s a.addr.toNat).2 }
      else a) }

/-- A waiting access leaves the store: into the queue, to the partner, or with a status. -/
def release (s : State) (a : Access) : State :=
  match dmaCheck s a with
  | some st => (s.dmas.find? (fun d => d.id == a.op1.toNat)).elim s (fun d => dmaEnd s d st)
  | none =>
  let o := accOrder s a
  let (s, a) := dmaBegin s a
  let s := { s with waiting := s.waiting.filter (fun b => b.id != a.id) }
  let s := match a.port with
    | some p => if a.left then s else leaveStore s p
    | none => s
  let a := { a with left := true, ord := o }
  match o with
    | .fenced => failAccess s a stFenced
    | .abort => failAccess s a stAborted
    | .remote => sendFwd s a
    | _ =>
      if !isRead a && a.be = 0 && !isAtomic a then
        writeSafe s { a with enterTime := (s.tum a.tum).dram.time } (writeCmp a 0 false) 0 0
      else enterQueue s a

/-- An access arrives before the queue; it goes on at once where it is the best of its tumbler. -/
def arrive (s : State) (a : Access) : State :=
  let s := { s with waiting := s.waiting ++ [a], nextId := s.nextId + 1 }
  match bestWaiting s a.tum with
  | some b => if b.id = a.id then release s a else count s (cTum a.tum 32) 1
  | none => count s (cTum a.tum 32) 1

/-- An access with every field that its entry fills left at 0. -/
def newAccess (s : State) (k : AccKind) (src : Src) (addr : BitVec 40) : Access :=
  let (t, x) := lineOf s addr.toNat
  { id := s.nextId, kind := k, src := src, port := none, gen := 0, flow := 0, initiator := 0, tag := 0, cls := 0,
    urg := 0, hint := 0, addr := addr, be := 0, data := 0, op1 := 0, op2 := 0, tum := Fin.ofNat 64 t, line := x,
    epoch := 0, loc := { leaf := 0, group := 0, bank := 0, row := 0 }, stage := .fresh, enterTime := 0,
    enterSlot := 0, window := 0, units := 0, excluded := false, answered := false, left := false, ftag := none,
    ord := .local, redo := false }

end Sys2Proof.Machine
end

