-- ==== Sys2Proof/Machine/Timing.lean ====
section
/-! DEFINITION. DRAM timing (R73 to R77), refresh limits (R108 to R118), and the commands on the tumbler bus: ACT, PRE,
RD, WR, REF and NRR, with hammer counting and throttling (R124 to R130). Slots are half cycles. -/

namespace Sys2Proof.Machine

open Sys2Proof

/-! ## Tables -/

def rateOf (s : State) (t : Nat) : Nat := fld s (tumReg t 8) 3 2
def pick3 (r a b c : Nat) : Nat := if r = 0 then a else if r = 1 then b else c

/-- Length of a slot in units of 1/480 ns. -/
def slotUnits (r : Nat) : Nat := pick3 r 150 200 300

/-- Band of a leaf for a tumbler (R108). -/
def bandOf (s : State) (t l : Nat) : Nat := (s.zone l (t / 4)).band.toNat
def hotSlice (s : State) (t l : Nat) : Bool := decide (2 ≤ bandOf s t l)

/-- TADJ field of a group (R100). -/
def adj (d : TDram) (lo : Nat) : Nat := bits d.tadj.toNat (lo + 3) lo

/-- Timing in cycles: rate, hot leaf, TADJ in force (R75 to R77). -/
def tRCD (r : Nat) (h : Bool) (d : TDram) : Nat := (if h then pick3 r 28 21 14 else pick3 r 25 19 13) + adj d 0
def tRP (r : Nat) (h : Bool) (d : TDram) : Nat := (if h then pick3 r 28 21 14 else pick3 r 25 19 13) + adj d 4
def tRAS (r : Nat) (d : TDram) : Nat := pick3 r 52 39 26 + adj d 16
def tRC (r : Nat) (h : Bool) (d : TDram) : Nat :=
  (if h then pick3 r 80 60 40 else pick3 r 77 58 39) + adj d 4 + adj d 16
def tCL (r : Nat) (d : TDram) : Nat := pick3 r 25 19 13 + adj d 8
def tCWL (r : Nat) (d : TDram) : Nat := pick3 r 20 15 10 + adj d 8
def tRTP (r : Nat) : Nat := pick3 r 8 6 4
def tWR (r : Nat) (h : Bool) (d : TDram) : Nat := (if h then pick3 r 32 24 16 else pick3 r 24 18 12) + adj d 12
def tWTR (r : Nat) (d : TDram) : Nat := pick3 r 8 6 4 + adj d 12
def tRRDS (r : Nat) : Nat := pick3 r 3 3 2
def tRRDL (r : Nat) : Nat := pick3 r 6 5 3
def tTAW (r : Nat) : Nat := pick3 r 16 12 8
def tRFC (r : Nat) (h : Bool) : Nat := if h then pick3 r 176 132 88 else pick3 r 144 108 72
def tNRR (r : Nat) (h : Bool) : Nat := if h then pick3 r 352 264 176 else pick3 r 288 216 144
def tRTW (r : Nat) : Nat := pick3 r 7 6 5
def tRASmax (r : Nat) : Nat := pick3 r 3200 2400 1600

/-- A of R203. -/
def actUnits (r : Nat) : Nat := pick3 r 8 6 4

/-! ## Refresh (R110, R112) -/

/-- Multiplier in force for a leaf-slice (R110). R108 gives none for the emergency band: taken as ×4, and so its debt limit as
2 (log 121). -/
def multOf (s : State) (t l : Nat) : Nat :=
  max ([1, 2, 4, 4].getD (bandOf s t l) 4) (2 ^ fld s (tumReg t 0x20) 1 0)

/-- Debt limit in force (R110). -/
def limitOf (s : State) (t l : Nat) : Nat := max 1 (min (8 / multOf s t l) (fld s (tumReg t 0x20) 7 4))

/-- Refresh interval in units of 1/480 ns. -/
def interval (s : State) (t l : Nat) : Nat := 1872000 / multOf s t l

/-- Refresh sets in order: leaf and bank number (R112). -/
def setsOf (s : State) (t : Nat) : List (Nat × Nat) :=
  ((List.range s.part.leaves).filter (refreshed s t)).flatMap (fun l => (List.range 4).map (fun k => (l, k)))

def setOf (s : State) (t l k : Nat) : RefSet := tget noSet (s.tum t).sets (4 * l + k)
def putSet (s : State) (t l k : Nat) (x : RefSet) : State :=
  s.modTum t (fun y => { y with sets := tput noSet y.sets (4 * l + k) x })

/-- Debts and due instants start again (R112, R122). -/
def restartRefresh (s : State) (t : Nat) : State :=
  let l := setsOf s t
  l.zipIdx.foldl (fun s e =>
    let x := setOf s t e.1.1 e.1.2
    putSet s t e.1.1 e.1.2 { x with
      debt := 0, ptr := (x.ptr + x.away) % 8200, away := 0,
      due := (s.tum t).dram.time + e.2 * interval s t e.1.1 / max 1 l.length }) s

/-- A slice is refreshed no longer (R162, R164): its sets owe nothing, and their pointers stay. -/
def stopSlice (s : State) (t l : Nat) : State :=
  foldUpTo 4 (fun s k =>
    let x := setOf s t l k
    putSet s t l k { x with debt := 0, ptr := (x.ptr + x.away) % 8200, away := 0 }) s

/-- A slice begins to be refreshed at debt 0 (R162). -/
def startSlice (s : State) (t l : Nat) : State :=
  foldUpTo 4 (fun s k =>
    putSet s t l k { setOf s t l k with debt := 0, due := (s.tum t).dram.time + interval s t l }) s

/-- Number of a row among the rows of its tumbler, by bank. -/
def hammerKey (l : Loc) : Nat := bankNo l * 16400 + l.row
def hammerTag (s : State) : Nat := s.now.toNat / 200000 % 4

/-- A regular refresh of a row whose tag is not the current one clears its count (R124). -/
def hammerRef (s : State) (t : Nat) (l : Loc) : State :=
  let v := tget zero (s.tum t).hammer (hammerKey l)
  let g := hammerTag s
  if bits v.toNat 15 14 = g then s
  else s.modTum t (fun x => { x with hammer := tput zero x.hammer (hammerKey l) (BitVec.ofNat 16 (g * 16384)) })

/-- The rows that `n` refreshes of a set from row pair `p` on reach (R111): their counts are cleared under R124. -/
def refreshRows (s : State) (t l k p n : Nat) : State :=
  foldUpTo n (fun s i =>
    let q := (p + i) % 8200
    foldUpTo 8 (fun s g =>
      let at' := fun r => ({ leaf := l, group := g, bank := k, row := r } : Loc)
      hammerRef (hammerRef s t (at' (2 * q))) t (at' (2 * q + 1))) s) s

/-! ## Time -/

/-- The sweeps of the tumbler are not held to their pace now (R149). -/
def paceHeld (s : State) (t : Nat) : Bool :=
  let x := s.tum t
  x.mode.emergency || x.mode.rate != .idle || x.training.isSome || x.mode.state = .latchOut

/-- `n` command slots pass. -/
def advance (s : State) (t n : Nat) : State :=
  let u := n * slotUnits (rateOf s t)
  let s := if paceHeld s t then
      { s with sweeps := s.sweeps.map (fun x => if x.tum = t then { x with startTime := x.startTime + u } else x) }
    else s
  setDram s t (fun d => { d with slot := d.slot + n, time := d.time + u })

/-- The time comes to slot `m`, where that is still to come. -/
def goTo (s : State) (t m : Nat) : State := advance s t (m - (s.tum t).dram.slot)

/-- Self-refresh entry: each leaf pays the debt it receives (R120); a flagged leaf is noted. -/
def enterSelf (s : State) (t : Nat) : State :=
  let s := (setsOf s t).foldl (fun s e =>
    let x := setOf s t e.1 e.2
    putSet (refreshRows s t e.1 e.2 x.ptr x.debt) t e.1 e.2 { x with debt := 0, away := x.debt }) s
  let leaves := (List.range s.part.leaves).filter (refreshed s t)
  let s := leaves.foldl (fun s l => count s (cLeaf l 3) 1) s
  let s := s.modTum t (fun x => { x with
    sre := leaves,
    sreSuspect := leaves.filter (fun l => s.thermal.suspect.contains l || s.thermal.stopped || (s.zone l (t / 4)).failed),
    dram := { x.dram with banks := x.dram.banks.map (fun e =>
      (e.1, { e.2 with openRow := none, closing := false, alert := none })) } })
  let s := leaves.foldl (fun s l =>
    let x := tget noLeaf s.leaves l
    let b := (s.zone l (t / 4)).band
    { s with leaves := tput noLeaf s.leaves l { x with
        sent := tput zero x.sent t b
        guard := tput zero x.guard t (fld s (tumReg t 0x20) 11 8)
        selfBand := tput zero x.selfBand t b } }) s
  setMode (count s (cTum t 13) 1) t (fun m => { m with self := true, paying := false })

/-- Self-refresh exit: debt restarts at 0 and due instants restart (R122). -/
def leaveSelf (s : State) (t : Nat) : State :=
  if (s.tum t).mode.self then restartRefresh (setMode s t (fun m => { m with self := false })) t else s

/-! ## Banks -/

def noBank : Nat → Bank := fun _ => Bank.init
def noSlice : Nat → SliceTim := fun _ => SliceTim.init
def bankAt (s : State) (t n : Nat) : Bank := tget noBank (s.tum t).dram.banks n
def putBank (s : State) (t n : Nat) (b : Bank) : State :=
  setDram s t (fun d => { d with banks := tput noBank d.banks n b })
def sliceAt (s : State) (t l : Nat) : SliceTim := tget noSlice (s.tum t).dram.slices l
def putSlice (s : State) (t l : Nat) (x : SliceTim) : State :=
  setDram s t (fun d => { d with slices := tput noSlice d.slices l x })

/-- A row command fits the slot: at most one per cycle (R73). -/
def rowFree (d : TDram) : Bool := !(d.slot % 2 == 1 && d.rowCmd == some (d.slot - 1))

/-- `n` more activations fit the window of `cap` (R75, R113). -/
def windowFree (acts : List Nat) (slot w n cap : Nat) : Bool :=
  decide ((acts.filter (fun a => slot < a + w)).length + n ≤ cap)

def actWindows (s : State) (t l n : Nat) : Bool :=
  let d := (s.tum t).dram
  let w := 2 * tTAW (rateOf s t)
  windowFree d.acts d.slot w n 4 && (!hotSlice s t l || windowFree (sliceAt s t l).acts d.slot w n 2)

/-- ACT allowed to the bank at place `l` (R75, R113, R126). -/
def canAct (s : State) (t : Nat) (l : Loc) : Bool :=
  let d := (s.tum t).dram
  let b := bankAt s t (bankNo l)
  let x := sliceAt s t l.leaf
  b.openRow.isNone && b.alert.isNone && decide (b.okAct ≤ d.slot) && rowFree d && decide (x.okActS ≤ d.slot)
    && decide (tget zero x.actL l.group ≤ d.slot) && actWindows s t l.leaf 1

/-- PRE allowed (R75). -/
def canPre (s : State) (t n : Nat) : Bool :=
  let d := (s.tum t).dram
  let b := bankAt s t n
  b.openRow.isSome && decide (b.okPre ≤ d.slot) && rowFree d

/-- Column command allowed (R75): `w` for WR. A row that is to close takes none (R81). -/
def canCol (s : State) (t : Nat) (l : Loc) (w : Bool) : Bool :=
  let d := (s.tum t).dram
  let b := bankAt s t (bankNo l)
  let x := sliceAt s t l.leaf
  b.openRow == some l.row && !b.closing && decide (b.okCol ≤ d.slot) && decide (tget zero x.colL l.group ≤ d.slot) &&
    (if w then decide (d.okWr ≤ d.slot)
     else
       decide (x.okRdW ≤ d.slot) &&
       (match d.lastCol with
        | some (c, f, false) => f == l.leaf || decide (c + 2 ≤ d.slot)
        | _ => true) &&
       (match d.wrBeat with
        | some (e, f) => f == l.leaf || decide (e + 4 ≤ d.slot)
        | none => true))

def issuePre (s : State) (t n : Nat) : State :=
  let d := (s.tum t).dram
  let b := bankAt s t n
  let h := hotSlice s t (n / 32)
  let s := putBank s t n { b with
    openRow := none, closing := false, opener := none,
    okAct := max b.okAct (d.slot + 2 * tRP (rateOf s t) h d) }
  count (setDram s t (fun d => { d with rowCmd := some d.slot })) (cTum t 3) 1

/-! ## Hammer counting (R124 to R130) -/

/-- The source of an access for the hammer tracker (R128); a forwarded request is the pair engine's. -/
def hamSrc (a : Access) : Src := if a.ftag.isSome then .master .pair else a.src

/-- Tumbler time of the last ACT of `src` in a bank (R128, R129). -/
def lastActOf (s : State) (t n : Nat) (src : Src) : Nat :=
  (((bankAt s t n).last8.find? (fun e => e.1 = src)).map (·.2.2)).getD (s.tum t).dram.time

/-- Places an offender in the throttle, or doubles its gap (R129). Of several entries that would end soonest together the one
placed first is replaced (log 125). -/
def throttle (s : State) (t n : Nat) (src : Src) : State :=
  let x := s.tum t
  let w := s.now.toNat / 200000
  if src = .master .remap then s
  else if x.throttle.any (fun e => e.src = src && e.bank = n) then
    s.setTum t { x with throttle := x.throttle.map (fun e =>
      if e.src = src ∧ e.bank = n then { e with gap := min 5 (e.gap + 1), alertWin := w } else e) }
  else
    let e : Throttle := { src := src, bank := n, gap := fld s (tumReg t 0x28) 18 16, lastAct := lastActOf s t n src, alertWin := w }
    if x.throttle.length < 64 then s.setTum t { x with throttle := x.throttle ++ [e] }
    else
      let soon := x.throttle.foldl (fun m f => min m f.alertWin) w
      count (s.setTum t { x with throttle := (x.throttle.eraseP (fun f => f.alertWin = soon)) ++ [e] }) (cTum t 8) 1

/-- A hot-row alert (R126, R128, R129, R135, R136). -/
def alertRow (s : State) (t : Nat) (l : Loc) (src : Src) : State :=
  let n := bankNo l
  let b := bankAt s t n
  let s := putBank s t n { b with alert := some (l.row, (s.tum t).dram.slot) }
  let s := wr s (tumReg t 0x2C)
    (BitVec.ofNat 32 (2 ^ 31 + l.leaf * 2 ^ 24 + l.group * 2 ^ 20 + l.bank * 2 ^ 16 + l.row))
  let s := wr s (tumReg t 0x30) (BitVec.ofNat 32 (match src with
    | .flow f => 2 ^ 30 + f.toNat
    | .master m => 2 ^ 31 + masterCode m))
  let s := count s (cTum t 7) 1
  if flag s (tumReg t 0x28) 20 then
    (src :: ((b.last8.filter (fun e => e.2.1 = l.row)).map (·.1))).eraseDups.foldl (fun s o => throttle s t n o) s
  else s

/-- Counts an ACT of a row (R124), its source (R128) and an alert where the threshold is met. -/
def hammerAct (s : State) (t : Nat) (l : Loc) (src : Src) : State :=
  let v := tget zero (s.tum t).hammer (hammerKey l)
  let g := hammerTag s
  let c := if bits v.toNat 15 14 = g then min 16383 (bits v.toNat 13 0 + 1) else 1
  let n := bankNo l
  let b := bankAt s t n
  let s := putBank s t n { b with last8 := ((src, l.row, (s.tum t).dram.time) :: b.last8).take 8 }
  let s := s.modTum t (fun x => { x with
    hammer := tput zero x.hammer (hammerKey l) (BitVec.ofNat 16 (g * 16384 + c)),
    throttle := x.throttle.map (fun e => if e.src = src ∧ e.bank = n then { e with lastAct := x.dram.time } else e) })
  if fld s (tumReg t 0x28) 13 0 ≤ c then alertRow s t l src else s

/-- A throttled source may not yet activate in the bank (R129); the power-fail drain is never throttled. Entries placed
before THR_EN was cleared stay in force until they end (log 124). -/
def throttled (s : State) (t n : Nat) (src : Src) : Bool :=
  let x := s.tum t
  s.power.mode = .on && x.throttle.any (fun e => e.src = src && e.bank = n && decide (x.dram.time < e.lastAct + 2 ^ e.gap * 480000))

/-! ## Issuing -/

/-- ACT of the row at `l` for `src`. -/
def issueAct (s : State) (t : Nat) (l : Loc) (src : Src) (id : Option Nat) : State :=
  let s := setDram s t (fun d => { d with tadj := rd s (tumReg t 0x14) })
  let d := (s.tum t).dram
  let r := rateOf s t
  let h := hotSlice s t l.leaf
  let n := bankNo l
  let b := bankAt s t n
  let x := sliceAt s t l.leaf
  let s := putBank s t n { b with
    openRow := some l.row, actAt := d.slot, okCol := d.slot + 2 * tRCD r h d, okPre := d.slot + 2 * tRAS r d,
    okAct := d.slot + 2 * tRC r h d, closing := false, keep := false, opener := id }
  let s := putSlice s t l.leaf { x with
    okActS := d.slot + 2 * tRRDS r, actL := tput zero x.actL l.group (d.slot + 2 * tRRDL r),
    acts := (d.slot :: x.acts).take 4 }
  let s := setDram s t (fun d => { d with rowCmd := some d.slot, acts := (d.slot :: d.acts).take 4 })
  let z := 16 * l.leaf + t / 4
  let s := { s with thermal := { s.thermal with acts := tput zero s.thermal.acts z (tget zero s.thermal.acts z + 1) } }
  hammerAct (count (count s (cTum t 2) 1) (cLeaf l.leaf 0) 1) t l src

/-- Closes the bank after a column command with auto-precharge (R82). -/
def autoPre (s : State) (t : Nat) (l : Loc) : State :=
  let n := bankNo l
  let b := bankAt s t n
  let d := (s.tum t).dram
  let ok := max b.okAct (b.okPre + 2 * tRP (rateOf s t) (hotSlice s t l.leaf) d)
  putBank s t n { b with openRow := none, closing := false, opener := none, okAct := ok }

/-- Column command to the row at `l`: bank, slice and bus history. -/
def issueCol (s : State) (t : Nat) (l : Loc) (w : Bool) (id : Nat) : State :=
  let d := (s.tum t).dram
  let r := rateOf s t
  let n := bankNo l
  let b := bankAt s t n
  let x := sliceAt s t l.leaf
  let e0 := d.slot + 2 * tCWL r d + 1
  let e := e0 + e0 % 2
  let s := if b.opener == some id then s else count s (cTum t 9) 1
  let s := putBank s t n { b with
    lastCol := d.slot,
    okPre := max b.okPre (if w then e + 2 * tWR r (hotSlice s t l.leaf) d else d.slot + 2 * tRTP r) }
  let s := putSlice s t l.leaf { x with
    colL := tput zero x.colL l.group (d.slot + 4),
    okRdW := if w then max x.okRdW (e + 2 * tWTR r d) else x.okRdW }
  let s := setDram s t (fun d => { d with
    lastCol := some (d.slot, l.leaf, w), wrBeat := if w then some (e, l.leaf) else d.wrBeat,
    okWr := if w then d.okWr else d.slot + 2 * tRTW r })
  count s (cTum t (if w then 1 else 0)) 1

/-- The eight banks of a refresh set. -/
def setBanks (l k : Nat) : List Nat := (List.range 8).map (fun g => 32 * l + 4 * g + k)

/-- REF allowed to a set (R111). -/
def canRef (s : State) (t l k : Nat) : Bool :=
  let d := (s.tum t).dram
  rowFree d && decide ((setOf s t l k).okRef ≤ d.slot) && decide (1 ≤ (setOf s t l k).debt) &&
    (setBanks l k).all (fun n => (bankAt s t n).openRow.isNone && decide ((bankAt s t n).okAct ≤ d.slot))

/-- REF to a set (R111). -/
def issueRef (s : State) (t l k : Nat) : State :=
  let d := (s.tum t).dram
  let x := setOf s t l k
  let o := d.slot + 2 * tRFC (rateOf s t) (hotSlice s t l)
  let s := refreshRows s t l k x.ptr 1
  let s := (setBanks l k).foldl (fun s n => putBank s t n { bankAt s t n with okAct := o }) s
  let s := putSet s t l k { x with debt := x.debt - 1, ptr := (x.ptr + 1) % 8200, okRef := o }
  let z := 16 * l + t / 4
  let s := { s with thermal := { s.thermal with refs := tput zero s.thermal.refs z (tget zero s.thermal.refs z + 1) } }
  count (count (setDram s t (fun d => { d with rowCmd := some d.slot })) (cTum t 4) 1) (cLeaf l 1) 1

/-- NRR allowed to a bank with an alert (R114, R126). -/
def canNrr (s : State) (t n : Nat) : Bool :=
  let d := (s.tum t).dram
  let b := bankAt s t n
  b.alert.isSome && b.openRow.isNone && decide (b.okAct ≤ d.slot) && rowFree d && actWindows s t (n / 32) 2

/-- NRR to a bank (R126). -/
def issueNrr (s : State) (t n : Nat) : State :=
  let b := bankAt s t n
  match b.alert with
  | none => s
  | some (row, _) =>
    let d := (s.tum t).dram
    let l : Loc := { leaf := n / 32, group := n / 4 % 8, bank := n % 4, row := row }
    let x := sliceAt s t l.leaf
    let s := putBank s t n { b with
      alert := none, okAct := d.slot + 2 * tNRR (rateOf s t) (hotSlice s t l.leaf) }
    let s := putSlice s t l.leaf { x with acts := (d.slot :: d.slot :: x.acts).take 4 }
    let s := setDram s t (fun d => { d with rowCmd := some d.slot, acts := (d.slot :: d.slot :: d.acts).take 4 })
    let s := s.modTum t (fun x => { x with
      hammer := tput zero x.hammer (hammerKey l) (BitVec.ofNat 16 (hammerTag s * 16384)) })
    let z := 16 * l.leaf + t / 4
    let s := { s with thermal := { s.thermal with nrrs := tput zero s.thermal.nrrs z (tget zero s.thermal.nrrs z + 1) } }
    count (count s (cTum t 5) 1) (cLeaf l.leaf 2) 1

/-- Puts a pair before the first with a greater first part. -/
def insertBy (e : Nat × Nat) : List (Nat × Nat) → List (Nat × Nat)
  | [] => [e]
  | f :: r => if e.1 < f.1 then e :: f :: r else f :: insertBy e r

/-- Banks with an alert, oldest first. -/
def alertBanks (s : State) (t : Nat) : List Nat :=
  (((s.tum t).dram.banks.filterMap (fun e => e.2.alert.map (fun a => (a.2, e.1)))).foldl
    (fun l e => insertBy e l) []).map (·.2)

/-! ## Commands at their earliest slots -/

/-- First slot from `m` on that takes a row command (R73). -/
def rowSlot (d : TDram) (m : Nat) : Nat := if m % 2 = 1 ∧ d.rowCmd = some (m - 1) then m + 1 else m

/-- First slot at which `n` more activations fit a window of `cap`; `acts` stands newest first. -/
def windowSlot (acts : List Nat) (w n cap : Nat) : Nat :=
  match acts[cap - n]? with
  | some a => a + w
  | none => 0

/-- First slot at which the windows of R75 and R113 take `n` more activations of a leaf. -/
def actsSlot (s : State) (t l n : Nat) : Nat :=
  let w := 2 * tTAW (rateOf s t)
  max (windowSlot (s.tum t).dram.acts w n 4) (if hotSlice s t l then windowSlot (sliceAt s t l).acts w n 2 else 0)

/-- Earliest slot of a PRE (R75). -/
def preSlot (s : State) (t n : Nat) : Nat :=
  let d := (s.tum t).dram
  rowSlot d (max d.slot (bankAt s t n).okPre)

/-- Earliest slot of an ACT to a precharged bank (R75, R113). -/
def actSlot (s : State) (t : Nat) (l : Loc) : Nat :=
  let d := (s.tum t).dram
  let x := sliceAt s t l.leaf
  rowSlot d (max (max (max d.slot (bankAt s t (bankNo l)).okAct) (max x.okActS (tget zero x.actL l.group)))
    (actsSlot s t l.leaf 1))

/-- Earliest slot of an RD or WR to an open row (R75). -/
def colSlot (s : State) (t : Nat) (l : Loc) (w : Bool) : Nat :=
  let d := (s.tum t).dram
  let x := sliceAt s t l.leaf
  let m := max (max d.slot (bankAt s t (bankNo l)).okCol) (tget zero x.colL l.group)
  if w then max m d.okWr
  else
    let other := match d.lastCol with
      | some (c, f, false) => if f = l.leaf then 0 else c + 2
      | _ => 0
    let beat := match d.wrBeat with
      | some (e, f) => if f = l.leaf then 0 else e + 4
      | none => 0
    max (max m x.okRdW) (max other beat)

/-- Earliest slot of an NRR to a precharged bank (R126). -/
def nrrSlot (s : State) (t n : Nat) : Nat :=
  let d := (s.tum t).dram
  rowSlot d (max (max d.slot (bankAt s t n).okAct) (actsSlot s t (n / 32) 2))

/-- Earliest slot of a REF to a set whose banks are precharged (R111). -/
def refSlot (s : State) (t l k : Nat) : Nat :=
  let d := (s.tum t).dram
  rowSlot d ((setBanks l k).foldl (fun m n => max m (bankAt s t n).okAct) (max d.slot (setOf s t l k).okRef))

/-- PRE at its earliest slot, which it uses up. -/
def preNext (s : State) (t n : Nat) : State := advance (issuePre (goTo s t (preSlot s t n)) t n) t 1

/-- NRR at its earliest slot; an open row of the bank is precharged before. -/
def nrrNext (s : State) (t n : Nat) : State :=
  let s := if (bankAt s t n).openRow.isSome then preNext s t n else s
  advance (issueNrr (goTo s t (nrrSlot s t n)) t n) t 1

/-- REF at its earliest slot; open banks of the set are precharged before. -/
def refNext (s : State) (t l k : Nat) : State :=
  let s := (setBanks l k).foldl (fun s n => if (bankAt s t n).openRow.isSome then preNext s t n else s) s
  advance (issueRef (goTo s t (refSlot s t l k)) t l k) t 1

/-- Every pending NRR is issued and every open bank precharged (R120 steps 2 and 3), each as soon as timing allows. -/
def settleBanks (s : State) (t : Nat) : State :=
  let s := (alertBanks s t).foldl (fun s n => nrrNext s t n) s
  (((s.tum t).dram.banks.filter (fun e => e.2.openRow.isSome)).map (·.1)).foldl (fun s n => preNext s t n) s

end Sys2Proof.Machine
end

