-- ==== Sys2Proof/Machine/Slots.lean ====
section
/-! DEFINITION. The command slot: the refresh test (R114), selection (R80 to R82), opportunistic refresh (R115), and
what reaches the leaf (R83, R162) and returns from it (R140 to R144). -/

namespace Sys2Proof.Machine

open Sys2Proof

/-! ## Refresh test (R114, R116) -/

/-- Excess of a set over its limit. -/
def excess (s : State) (t : Nat) (e : Nat × Nat) : Nat := (setOf s t e.1 e.2).debt - limitOf s t e.1

/-- Some set exceeds its limit: the payment of R116 begins, and R211 pauses. -/
def checkExcess (s : State) (t : Nat) : State :=
  if (s.tum t).mode.self || (s.tum t).mode.paying then s
  else if (setsOf s t).any (fun e => decide (0 < excess s t e)) then
    pauseOn (count (setMode s t (fun m => { m with paying := true })) (cTum t 6) 1) t
  else s

/-- The payment of R116 ends once no set exceeds its limit. -/
def endExcess (s : State) (t : Nat) : State :=
  if (s.tum t).mode.paying && !(setsOf s t).any (fun e => decide (0 < excess s t e)) then
    pauseOff (setMode s t (fun m => { m with paying := false })) t
  else s

/-- First open bank of a set that may be precharged now. -/
def setPre (s : State) (t : Nat) (e : Nat × Nat) : Option Nat := (setBanks e.1 e.2).find? (canPre s t)

/-- PRE toward a set, or REF to it; none where timing allows neither. -/
def stepSet (s : State) (t : Nat) (e : Nat × Nat) : Option State :=
  if canRef s t e.1 e.2 then some (issueRef s t e.1 e.2)
  else (setPre s t e).map (issuePre s t)

/-- Sets with excess, highest excess first, ties by index. -/
def excessSets (s : State) (t : Nat) : List (Nat × Nat) :=
  let l := (setsOf s t).filter (fun e => decide (0 < excess s t e))
  (List.range 16).reverse.flatMap (fun n => l.filter (fun e => excess s t e == n))

/-- The set at its limit with the earliest next due instant. -/
def limitSet (s : State) (t : Nat) : Option (Nat × Nat) :=
  ((setsOf s t).filter (fun e => (setOf s t e.1 e.2).debt == limitOf s t e.1)).foldl (fun m e =>
    match m with
    | none => some e
    | some b => if (setOf s t e.1 e.2).due < (setOf s t b.1 b.2).due then some e else some b) none

/-- The refresh test: the state, and whether the slot is used or blocked. -/
def refreshStep (s : State) (t : Nat) : State × Bool :=
  let ex := excessSets s t
  if !ex.isEmpty then
    match ex.findSome? (stepSet s t) with
    | some u => (u, true)
    | none => (((limitSet s t).bind (stepSet s t)).getD s, true)
  else
    match (limitSet s t).bind (stepSet s t) with
    | some u => (u, true)
    | none =>
      match (alertBanks s t).find? (canNrr s t) with
      | some n => (issueNrr s t n, true)
      | none => (s, false)

/-- A queued access targets a bank of the set, the target of a leaf swap included (R162). -/
def setWanted (s : State) (t : Nat) (e : Nat × Nat) : Bool :=
  (s.tum t).q.queue.any (fun a => lineBank a.line == e.2 && (a.loc.leaf == e.1 ||
    (!isRead a && (twinOf s t a.line a.loc).any (fun m => m.leaf == e.1))))

/-- Opportunistic REF (R115); of sets with the same highest debt the lowest takes it (log 122). -/
def idleRef (s : State) (t : Nat) : State :=
  let l := (setsOf s t).filter (fun e => canRef s t e.1 e.2 && !setWanted s t e)
  match l.foldl (fun m e =>
    match m with
    | none => some e
    | some (b : Nat × Nat) => if (setOf s t b.1 b.2).debt < (setOf s t e.1 e.2).debt then some e else some b) none with
  | some e => issueRef s t e.1 e.2
  | none => s

/-! ## Selection (R80) -/

/-- What an access needs next. -/
inductive Need where
  | act | pre | rd | wr
  deriving DecidableEq, Repr

/-- The leaf swap of the tumbler has its write to this slot performed on both slices (R162). -/
def dual (x : Tumbler) (k : Slot) : Bool :=
  match x.swap with
  | some w => lineLeaf k.line = w.logical && k.loc.leaf = w.src
  | none => false

/-- Where a slot's next WR goes. -/
def wrPlace (s : State) (t : Nat) (k : Slot) : Loc :=
  if k.half then
    match (s.tum t).swap with
    | some w => placeRaw w.dst k.line
    | none => placeOn s t k.loc.leaf k.line
  else placeOn s t k.loc.leaf k.line

/-- Line, place and direction of an access's next column command, where it is the oldest to its line (R79, R80). -/
def nextCol (s : State) (a : Access) : Option (Nat × Loc × Bool) :=
  let t := a.tum.val
  let q := (s.tum t).q
  match a.stage with
  | .needRd n =>
    let x := a.line + (lineCount a - n)
    let older := q.queue.takeWhile (fun b => b.id != a.id)
    if older.any (fun b => pendsOn b x) then none
    else if isRead a && (slotOf q x).any (fun k => k.be != 0) then none
    else some (x, accPlace s a (lineCount a - n), false)
  | .needWr =>
    (slotOf q a.line).map (fun k => (a.line, wrPlace s t k, true))
  | _ => none

/-- The row of an access is held by a row-remap copy (R158). -/
def rowHeld (s : State) (t x : Nat) (l : Loc) : Bool :=
  (remapFind s t l.leaf l.group l.bank (lineRow x) 1).isSome

/-- Aged under R80 or critical under R208. -/
def aged (s : State) (a : Access) : Bool :=
  urgency s a = 3 || decide (a.enterSlot + fld s (tumReg a.tum 0) 27 18 * 32 < (s.tum a.tum).dram.slot)

/-- Places that a queued access still needs: of its lines, or of its slot's next WR. -/
def needPlaces (s : State) (a : Access) : List Loc :=
  let t := a.tum.val
  (openLines a).map (fun x => placeOn s t a.loc.leaf x) ++
    (if a.stage = .needWr then ((slotOf (s.tum t).q a.line).map (wrPlace s t)).toList else [])

/-- Some access of `l` that is not aged is pending to row `r` of bank `n`, which may not be precharged before it (R80). -/
def rowPending (s : State) (l : List Access) (n r : Nat) : Bool :=
  l.any (fun b => !aged s b && (needPlaces s b).any (fun c => bankNo c == n && c.row == r))

/-- The next command of an access, where timing allows it in this slot. -/
def nextNeed (s : State) (a : Access) : Option (Need × Nat × Loc) :=
  let t := a.tum.val
  match nextCol s a with
  | none => none
  | some (x, l, w) =>
    if rowHeld s t x l then none else
    let n := bankNo l
    match (bankAt s t n).openRow with
    | none => if canAct s t l && !throttled s t n (hamSrc a) then some (.act, x, l) else none
    | some r =>
      if r = l.row then
        if canCol s t l w then some (if w then .wr else .rd, x, l) else none
      else
        if canPre s t n && !rowPending s ((s.tum t).q.queue.takeWhile (fun b => b.id != a.id)) n r then some (.pre, x, l) else none

/-- Effective units of a class in a tumbler (R218). -/
def effOf (s : State) (t c : Nat) : Nat :=
  let a := tget (fun _ => Admitted.init) s.ward.admitted c
  let full := if a.guar = 1 then a.floor.toNat else if a.guar = 2 then bits a.lat.toNat 27 16 else 0
  match (s.ward.eff.find? (fun e => e.1 = 256 * t + c)) with
  | some e => if e.2.cut || e.2.susp then e.2.val else full
  | none => full

/-- Ticks of the current window that tumbler `t` has been available (R211). -/
def availTicks (s : State) (t : Nat) : Nat :=
  let x := s.tum t
  let p := match x.pauseSince with
    | some b => s.now.toNat - max b s.ward.winStart
    | none => 0
  s.now.toNat - s.ward.winStart - (x.pause + p)

/-- A pair-engine access is one of a resynchronisation (R206). -/
def resyncing (a : Access) : Bool := a.op2 != 0

/-- Ward priority (R206, R210). -/
def wardPrio (s : State) (a : Access) : Nat :=
  let t := a.tum.val
  let hi := b2n (decide (2 ≤ (urgency s a).toNat))
  match a.src with
  | .flow _ | .master .scan =>
    let c := a.cls.toNat
    let ad := tget (fun _ => Admitted.init) s.ward.admitted c
    let owed :=
      if ad.guar = 1 then
        decide (tget zero s.ward.served (256 * t + c) * 25 < effOf s t c * availTicks s t * 4)
      else if ad.guar = 2 then
        decide (bits ad.lat.toNat 15 0 < 2 * (((s.tum t).dram.time - a.enterTime) / 480))
      else false
    8 * b2n owed + 2 * ad.prio.toNat + hi
  | .master .pair => (if resyncing a then 0 else 6) + hi
  | .master .sweep => 8 * b2n (sweepBehind s t) + 6 + hi
  | .master .dma => 4 + hi
  | .master .dump | .master .swap => 2 + hi
  | .master _ => hi

/-- `a` goes before `b` (R80); both are candidates, and `b` entered the queue first. A narrow write or atomic that still needs
its RD counts as a read (log 127). -/
def goesBefore (s : State) (a b : Access × Need × Nat × Loc) : Bool :=
  let q := (s.tum a.1.tum).q
  let key (x : Access × Need × Nat × Loc) : Nat × Bool × Bool :=
    let w := x.1.stage = .needWr
    (wardPrio s x.1, w == q.writePhase,
     (x.2.1 == .rd || x.2.1 == .wr) && flag s (tumReg a.1.tum 0) 28)
  let (pa, da, ha) := key a
  let (pb, db, hb) := key b
  if pa ≠ pb then decide (pb < pa)
  else if da ≠ db then da
  else if ha ≠ hb then ha
  else false

/-- Some write still needs what this access does first: it or a later write to one of its lines (R123, R401, R410). -/
def writeNeeds (q : TQueue) (a : Access) : Bool :=
  a.stage = .needWr ||
    (q.queue.dropWhile (fun b => b.id != a.id)).any (fun b => b.kind = .write &&
      decide (a.line ≤ b.line) && decide (b.line < a.line + lineCount a))

/-- Accesses that the controller serves in its present mode; in a drain it serves reads once its slots are empty (R447). -/
def served (s : State) (t : Nat) (a : Access) : Bool :=
  let m := (s.tum t).mode
  let q := (s.tum t).q
  if m.emergency || s.power.fatal then writeNeeds q a
  else if s.power.mode != .on then writeNeeds q a || (isRead a && q.queue.all (fun b => !writeNeeds q b))
  else m.state = .online || (m.state = .shutting)

/-- Candidates of the slot, in queue order. -/
def candidates (s : State) (t : Nat) : List (Access × Need × Nat × Loc) :=
  let l := (s.tum t).q.queue.filterMap (fun a =>
    if served s t a then (nextNeed s a).map (fun n => (a, n)) else none)
  let old := l.filter (fun e => aged s e.1)
  if old.isEmpty then l else old

/-- Hint and policy of an access: auto-precharge, keep open (R82). -/
def rowAfter (s : State) (a : Access) : Bool × Bool :=
  let p := fld s (tumReg a.tum 4) 1 0
  (a.hint = 2 || (a.hint = 0 && p == 1), a.hint = 1 || (a.hint = 0 && p == 2))

/-- Another queued access hits the row at `l`. -/
def hitQueued (s : State) (t id : Nat) (l : Loc) : Bool :=
  (s.tum t).q.queue.any (fun b => b.id != id && (needPlaces s b).any (fun c => bankNo c == bankNo l && c.row == l.row))

/-- Row policy after a column command of access `a` (R82). -/
def afterCol (s : State) (t : Nat) (a : Access) (l : Loc) : State :=
  let (ap, keep) := rowAfter s a
  if ap && !hitQueued s t a.id l then autoPre s t l
  else putBank s t (bankNo l) { bankAt s t (bankNo l) with keep := keep }

/-- RD for line `x` of access `a`: the words that it finds are on their way. The row stays open for the WR of a merge or
atomic (R80). -/
def doRd (s : State) (a : Access) (x : Nat) (l : Loc) : State :=
  let t := a.tum.val
  let s := charge (issueCol s t l false a.id) a 1
  let n := match a.stage with | .needRd n => n | _ => 1
  let s := setQ s t (fun q =>
    let a := { (q.queue.find? (fun b => b.id = a.id)).getD a with units := a.units + 1 }
    let q := { q with flight := q.flight ++ [{ acc := a, sub := x - a.line, loc := l, words := lineWords s t l x }] }
    if !isRead a then setAcc q { a with stage := .rdIssued }
    else if n ≤ 1 then dropAcc { q with asm := if q.asm.any (fun y => y.id = a.id) then q.asm else q.asm ++ [asmOf q a] } a.id
    else
      setAcc { q with asm := if q.asm.any (fun y => y.id = a.id) then q.asm else q.asm ++ [asmOf q a] }
        { a with stage := .needRd (n - 1) })
  settle (if isRead a then afterCol s t a l else s) t x

/-- Stores the words that a slot holds at place `l` (R83, R141). -/
def storeSlot (s : State) (t : Nat) (k : Slot) (l : Loc) : State :=
  foldUpTo 8 (fun s w =>
    if slotHas k w then
      let e := bits k.epochs.toNat (2 * w + 1) (2 * w)
      putWord s t l (lineCol k.line) w
        (if bit k.poison.toNat w then poisonWord e else encodeWord (bits k.data.toNat (64 * w + 63) (64 * w)) e)
    else s) s

/-- A slot's line is written (R78): it is freed where no later write waits for it. -/
def slotWritten (s : State) (t : Nat) (k : Slot) : State :=
  setQ s t (fun q =>
    let q := { q with queue := q.queue.filter (fun b => !(b.line = k.line && b.stage = .needWr)) }
    if q.queue.any (fun b => b.line = k.line && !isRead b) then
      setSlot q { k with be := 0, poison := 0, half := false }
    else dropSlot q k.line)

/-- WR of slot `k` at place `l`. -/
def doWr (s : State) (a : Access) (k : Slot) (l : Loc) : State :=
  let t := a.tum.val
  let s := storeSlot (charge (issueCol s t l true a.id) a 1) t k l
  let s := afterCol s t a l
  if dual (s.tum t) k && !k.half then setQ s t (fun q => setSlot q { k with half := true })
  else settle (slotWritten s t k) t k.line

/-- ACT for access `a`, charged under R203. -/
def doAct (s : State) (a : Access) (l : Loc) : State :=
  let t := a.tum.val
  let n := actUnits (rateOf s t) * (if hotSlice s t l.leaf then 2 else 1)
  let s := issueAct s t l (hamSrc a) (some a.id)
  let s := setQ s t (fun q => { q with queue := q.queue.map (fun b =>
    if b.id = a.id then { b with units := b.units + n } else b) })
  charge s a n

/-- Issues the next command of the chosen access. -/
def issueNeed (s : State) (e : Access × Need × Nat × Loc) : State :=
  let (a, n, x, l) := e
  match n with
  | .act => doAct s a l
  | .pre => issuePre s a.tum (bankNo l)
  | .rd => doRd s a x l
  | .wr =>
    match slotOf (s.tum a.tum).q a.line with
    | some k => doWr s a k l
    | none => s

/-- Phase of R80; atomics count as writes (log 127). -/
def setPhase (s : State) (t : Nat) : State :=
  let q := (s.tum t).q
  let w := (q.queue.filter (fun a => !isRead a)).length
  let p := if !q.writePhase && decide (fld s (tumReg t 0) 8 0 ≤ w) then true else q.writePhase
  let p := if p && decide (w ≤ fld s (tumReg t 0) 17 9) then false else p
  setQ s t (fun q => { q with writePhase := p })

/-- Accesses whose ACT waits for the throttle are left out of guarantees (R130, R213). -/
def markThrottled (s : State) (t : Nat) : State :=
  let ids := ((s.tum t).q.queue.filter (fun a => (nextCol s a).any (fun c =>
    (bankAt s t (bankNo c.2.1)).openRow.isNone && throttled s t (bankNo c.2.1) (hamSrc a)))).map (·.id)
  if ids.isEmpty then s else
  { setQ s t (fun q => { q with queue := q.queue.map (fun a =>
      if ids.contains a.id then { a with excluded := true } else a) }) with
    ward := { s.ward with log := s.ward.log.map (fun r => if ids.contains r.id then { r with excluded := true } else r) } }

/-- In a fault shutdown a queued read or atomic without an issued command completes with FENCED, or goes to the partner
(R410). -/
def fenceUnstarted (s : State) (t : Nat) : State :=
  let hit := (s.tum t).q.queue.filter (fun a => (isRead a || isAtomic a) && a.units = 0 && !a.answered &&
    (match a.stage with | .fresh => true | .needRd n => n = lineCount a | _ => false))
  let s := setQ s t (fun q =>
    let q := { q with queue := q.queue.filter (fun a => !hit.any (fun b => b.id = a.id)) }
    { q with slots := q.slots.filter (fun k => k.be != 0 || q.queue.any (fun a => a.line = k.line && !isRead a)) })
  hit.foldl (fun s a =>
    let s := if pairUp s && !fencedThere s t && a.ftag.isNone then sendFwd s a
      else match a.ftag with
        | some _ => failAccess s a stFenced
        | none => complete s a (mkCmp a stFenced false false false 0 0 0) true
    settle s t a.line) s

/-- The tumbler's command path runs. -/
def clocked (s : State) (t : Nat) : Bool :=
  let m := (s.tum t).mode
  haspLive s && !m.self && m.wake = .no &&
    (m.state = .initSweep || m.state = .online || m.state = .busy || m.state = .shutting)

/-- Selection stopped: every open bank is precharged as timing allows (R88, R91). -/
def quiesceStep (s : State) (t : Nat) : State :=
  match ((s.tum t).dram.banks.map (·.1)).find? (canPre s t) with
  | some n => issuePre s t n
  | none => s

/-- PRE of a bank whose row is to close (R81, R82). -/
def closeStep (s : State) (t : Nat) : Option State :=
  (((s.tum t).dram.banks.filter (fun e => e.2.closing)).map (·.1)).find? (canPre s t) |>.map (issuePre s t)

/-- One access command is chosen and issued; none where no access is eligible (R80). -/
def accessStep (s : State) (t : Nat) : Option State :=
  match candidates s t with
  | [] => none
  | c :: r => some (issueNeed s (r.foldl (fun b a => if goesBefore s a b then a else b) c))

/-- Accesses that become aged in this slot are counted (R422). -/
def countAged (s : State) (t : Nat) : State :=
  let d := (s.tum t).dram
  let n := ((s.tum t).q.queue.filter (fun a => urgency s a != 3 &&
    a.enterSlot + fld s (tumReg t 0) 27 18 * 32 + 1 == d.slot)).length
  if n = 0 then s else count s (cTum t 33) n

/-- The command of one slot. -/
def slotCommand (s : State) (t : Nat) : State :=
  let m := (s.tum t).mode
  if m.rate != .idle || (s.tum t).training.isSome then
    if m.rate = .relocking then s else quiesceStep s t
  else
    let (s, used) := refreshStep s t
    if used then endExcess s t
    else
      let s := setPhase s t
      match closeStep s t with
      | some u => u
      | none =>
        match accessStep s t with
        | some u => u
        | none => if rowFree (s.tum t).dram then idleRef s t else s

/-- COMMAND_SLOT (R80). -/
def commandSlot (s : State) (t : Nat) : State :=
  let s := if (s.tum t).mode.faultShut && tstate s t = .shutting then fenceUnstarted s t else s
  let s := slotCommand (countAged (markThrottled s t) t) t
  advance s t 1

/-! ## Read data (R140 to R144) -/

/-- Got of a word as an assembly takes it. -/
def gotPart (g : Got) : Nat × Bool × Bool × Bool := (g.data, g.live, g.poison, g.corrected)

/-- A slot that holds the whole line: words not yet held come from the leaf as decoded (R86). -/
def slotFill (k : Slot) (l : List Got) (e : Nat) : Slot :=
  l.zipIdx.foldl (fun k g =>
    if slotHas k g.2 then k
    else match g.1.cls with
      | .poisoned => slotPut k g.2 (epochOf g.1.word) 0 true
      | .uncorrectable => slotPut k g.2 e 0 true
      | _ => slotPut k g.2 (epochOf g.1.word) (dataOf g.1.word) false) k

/-- The oldest line on its way returns and is decoded. -/
def lineReturns (s : State) (t : Nat) (f : Flight) (flips : List CodeWord) : State :=
  let a := f.acc
  let x := a.line + f.sub
  let e := a.epoch.toNat
  let s := setQ s t (fun q => { q with flight := q.flight.drop 1 })
  let pick := fun w => if a.kind = .write then wordBe a.be w != 0 && wordBe a.be w != 255 else true
  let (s, l) := decodeRead s t f.loc x e f.words flips pick
  if isRead a then
    asmPut s a (asmAdd (asmOf (s.tum t).q a) f.sub (l.map gotPart))
  else
    let none' : Slot :=
      { line := a.line, be := 0, data := 0, epochs := 0, poison := 0, half := false, loc := a.loc, src := a.src,
        cls := a.cls }
    let k := (slotOf (s.tum t).q x).getD none'
    if a.kind = .write then
      let (k, m, p, c) := slotMerge (slotFull k a) a (fun w =>
        let g := l.getD w { data := 0, live := false, poison := false, corrected := false, wroteBack := false,
                            word := 0, cls := .clean }
        (g.data, g.poison, g.corrected))
      settle (slotDone (count s (cTum t 10) 1) a k (writeCmp a p c) m) t x
    else
      let c := (l.getD (atomicWord a) { data := 0, live := false, poison := false, corrected := false,
                                        wroteBack := false, word := 0, cls := .clean }).corrected || l.any (·.wroteBack)
      let (k, m, c) := slotAtomic (slotFill k l e) a c
      settle (slotDone s a k c m) t x

end Sys2Proof.Machine
end

