-- ==== Sys2Proof/Machine/Access.lean ====
section
/-! DEFINITION. Whether a defined register can be reached (R44, R493, R508), and writes of plain registers with their
rejected values (R12, R13, R17). -/

namespace Sys2Proof.Machine

open Sys2Proof

/-- The Strike logic, ports and USB4 port are out of reset (R493). -/
def strikeLive (s : State) : Bool := s.power.strikeUp && !s.power.wrst && !s.power.porst

/-- The block of a set is in latch-out (R400, R410). -/
def latched (s : State) : FltSet → Bool
  | .tum t => tstate s t = .latchOut
  | .scan n => (s.eng n).state = .latchOut
  | .port p => (s.port p).link = .latchOut
  | .core c => (s.core c).state = .latchOut
  | .pair => s.pair.state = .latchOut
  | .cnt => s.dump.fenced
  | .usb => s.usb.fenced
  | _ => false

/-- State registers, which latch-out leaves reachable (R44). -/
def stateReg (off : Nat) : Bool :=
  inArr (tumReg 0 0xC) 0x10000 64 off || inArr (scnReg 0 4) 0x4000 64 off || inArr (fpReg 0 0x8008) 0x10000 16 off
    || inArr (coreReg 0 8) 0x10000 8 off || off == pairReg 0xC

/-- The domain that holds a register is out of reset (R493, R508). -/
def domainUp (s : State) (off : Nat) : Bool :=
  match fltAt s.part off with
  | some (b, _) => (match b with
    | .sen | .ivr _ | .mram => true
    | _ => haspLive s)
  | none =>
    if off < 0x200000 then true
    else if 0x2600000 ≤ off ∧ off < 0x2700000 then strikeLive s
    else if 0x2900000 ≤ off ∧ off < 0x2A00000 then s.power.storeUp && !s.power.porst
    else if (0x2B81000 ≤ off ∧ off < 0x2B82000) ∨ off = accStat 8 then strikeLive s
    else haspLive s

/-- Status of an access to a register: 0 where it is reached, or reserved (R16, R44). -/
def regStatus (s : State) (off : Nat) : BitVec 16 :=
  if (regDef s.part off).isNone then rcSuccess
  else if !domainUp s off then rcUnitInReset
  else if (fltAt s.part off).isSome || stateReg off then rcSuccess
  else if latched s (ownerSet off) then rcUnitFenced
  else rcSuccess

/-- A write reaches the register. -/
def reaches (s : State) (off : Nat) : Bool := (regDef s.part off).isSome && regStatus s off = 0

/-- A write takes effect where the register is reached. -/
def atReg (s : State) (off : Nat) (t : State) : State := when (reaches s off) s t

/-- Writes a register whose rule rejects nothing but the fields of `rej`; a rejection records PARAM (R17). -/
def putReg (s : State) (off : Nat) (v : Reg32) (rej : Nat) : State :=
  let s := wrReg s off v rej
  if rej = 0 then s else paramFault s (ownerSet off)

/-- Mask of bits [hi:lo]. -/
def mask (hi lo : Nat) : Nat := (2 ^ (hi - lo + 1) - 1) * 2 ^ lo

/-- All bits of a register. -/
def allBits : Nat := 0xFFFFFFFF

end Sys2Proof.Machine
end

