-- ==== Sys2Proof/Machine/TumRows.lean ====
section
/-! DEFINITION. Tumbler events: slots, throttle, refresh, row closing, decode, power modes (R80 to R87, R110 to R123,
R129, R155, R443). -/

namespace Sys2Proof.Machine

open Sys2Proof

/-- COMMAND_SLOT (R80). -/
def execCommandSlot (t : Tum) (s : State) : Out := .next (when (clocked s t) s (commandSlot s t))

/-- THROTTLE_END (R129): entries whose first window without an alert has ended. -/
def execThrottleEnd (t : Tum) (s : State) : Out :=
  .next (s.modTum t (fun x => { x with
    throttle := x.throttle.filter (fun e => decide (s.now.toNat / 200000 < e.alertWin + 2)) }))

/-- The controller refreshes by the schedule (R112). -/
def scheduled (s : State) (t : Nat) : Bool :=
  let m := (s.tum t).mode
  haspLive s && !m.self && (m.state = .initSweep || m.state = .online || m.state = .light || m.state = .busy
    || m.state = .shutting)

/-- A due instant of a set (R114); a debt above the limit outside a payment is REFRESH_INTEGRITY (R118). The next instant lies one
interval of the band in force after this one (R112); after a rise of the band, the instant that was already set stands (log 123). -/
def setDue (s : State) (t : Tum) (l k : Nat) : State :=
  let x := setOf s t l k
  let s := putSet s t l k { x with debt := min 15 (x.debt + 1), due := x.due + interval s t l }
  if decide (limitOf s t l < x.debt + 1) && !(s.tum t).mode.paying then fault s (.tum t) 5 0 1 else s

/-- REFRESH_DUE (R114). -/
def execRefreshDue (t : Tum) (l : LeafN) (k : Fin 4) (s : State) : Out :=
  if s.part.leaves ≤ l.val then .fault .leafNotFitted
  else .next (when (scheduled s t && refreshed s t l) s (setDue s t l k))

/-- Some set comes within one unit of its limit. -/
def nearLimit (s : State) (t : Nat) : Bool :=
  (setsOf s t).any (fun e => decide (limitOf s t e.1 ≤ (setOf s t e.1 e.2).debt + 1))

/-- REFRESH_WAKE (R87, R115). -/
def execRefreshWake (t : Tum) (s : State) : Out :=
  .next (when (tstate s t = .light && (s.tum t).mode.wake = .no && nearLimit s t) s
    (setMode s t (fun m => { m with state := .online, refreshWake := true })))

/-- Marks the bank's open row to be precharged in the next free row-command slot. -/
def closeBank (s : State) (t n : Nat) : State := putBank s t n { bankAt s t n with closing := true }

def bankOf (l : LeafN) (g : Fin 8) (b : Fin 4) : Nat := 32 * l + 4 * g + b

/-- TRASMAX_EXPIRY (R81). -/
def execTrasmaxExpiry (t : Tum) (l : LeafN) (g : Fin 8) (b : Fin 4) (s : State) : Out :=
  if s.part.leaves ≤ l.val then .fault .leafNotFitted
  else .next (when ((bankAt s t (bankOf l g b)).openRow.isSome) s (closeBank s t (bankOf l g b)))

/-- A row under the adaptive policy that no queued access hits (R82). -/
def idleRow (s : State) (t : Nat) (l : LeafN) (g : Fin 8) (b : Fin 4) : Bool :=
  let k := bankAt s t (bankOf l g b)
  match k.openRow with
  | some r => !k.keep && fld s (tumReg t 4) 1 0 == 0 &&
      !hitQueued s t s.nextId { leaf := l, group := g, bank := b, row := r }
  | none => false

/-- IDLE_CLOSE (R82). -/
def execIdleClose (t : Tum) (l : LeafN) (g : Fin 8) (b : Fin 4) (s : State) : Out :=
  if s.part.leaves ≤ l.val then .fault .leafNotFitted
  else .next (when (idleRow s t l g b) s (closeBank s t (bankOf l g b)))

/-- CODE_WORD_DECODE (R140). -/
def execCodeWordDecode (t : Tum) (flips : List CodeWord) (s : State) : Out :=
  match (s.tum t).q.flight with
  | [] => .next s
  | f :: _ => .next (lineReturns s t f flips)

/-- An entry whose window has run out is freed (R155). -/
def cwcLive (now : Nat) (e : CwcEntry) : Bool :=
  match e.watch with
  | some w => decide (now < w + cwcWindow)
  | none => decide (now < e.first + cwcWindow)

/-- CWC_WINDOW_EXPIRY (R155). -/
def execCwcWindowExpiry (t : Tum) (s : State) : Out :=
  .next (s.modTum t (fun x => { x with cwc := x.cwc.filter (cwcLive s.now.toNat) }))

/-- SEN_QUIET bit of a tumbler (R475). -/
def quietBit (s : State) (t : Nat) : Bool := flag s (senReg (0x20 + 4 * (t / 32))) (t % 32)

/-- The sweeper or the copier has work in the tumbler (R149, R162). -/
def mastersBusy (s : State) (t : Nat) : Bool :=
  s.sweeps.any (fun x => x.tum = t && !x.finished) || !s.reinits.isEmpty || (s.tum t).swap.isSome

/-- The entry conditions of R87 hold: nothing queued or held, no refresh near its limit, no NRR pending. -/
def idleNow (s : State) (t : Nat) : Bool :=
  let x := s.tum t
  x.q.queue.isEmpty && x.q.slots.isEmpty && x.q.flight.isEmpty && !mastersBusy s t && (alertBanks s t).isEmpty && !x.mode.self
    && x.mode.rate = .idle && x.training.isNone && !x.mode.paying
    && !(setsOf s t).any (fun e =>
      let y := setOf s t e.1 e.2
      decide (limitOf s t e.1 ≤ y.debt) ||
        decide (limitOf s t e.1 ≤ y.debt + ((x.dram.time + 128 * slotUnits (rateOf s t) - y.due) / interval s t e.1 +
          b2n (decide (y.due ≤ x.dram.time + 128 * slotUnits (rateOf s t))))))

/-- Every debt is paid, where the tumbler woke for refresh and no request has come since (R115). -/
def debtPaid (s : State) (t : Nat) : Bool :=
  !(s.tum t).mode.refreshWake || (setsOf s t).all (fun e => (setOf s t e.1 e.2).debt == 0)

/-- LIGHT_ENTRY (R87); Quiet takes precedence (R443). -/
def execLightEntry (t : Tum) (s : State) : Out :=
  .next (when (running s && tstate s t = .online && flag s (tumReg t 0x10) 16 && !quietBit s t && idleNow s t
      && debtPaid s t) s
    (count (setMode s t (fun m => { m with state := .light, refreshWake := false })) (cTum t 12) 1))

/-- The wake ends: the tumbler is online; from Quiet its slices leave self-refresh (R87, R122). -/
def wakeDone (s : State) (t : Nat) : State :=
  let s := if (s.tum t).mode.state = .quiet then excludeQueued (leaveSelf s t) t else s
  setMode s t (fun m => { m with state := .online, wake := .no })

/-- WAKE_COMPLETE (R87, R122); a thermal emergency keeps the slices in self-refresh (R123). -/
def execWakeComplete (t : Tum) (s : State) : Out :=
  .next (when ((s.tum t).mode.wake != .no && (s.tum t).mode.rate = .idle
      && !((s.tum t).mode.state = .quiet && (s.tum t).mode.emergency)) s (wakeDone s t))

/-- The tumbler precharges and its slices enter self-refresh (R120). -/
def selfEntry (s : State) (t : Nat) : State := enterSelf (settleBanks s t) t

/-- QUIET_ENTRY (R443): the entry as a whole, to its last SRE. A request that comes before the row is in the queue, so that the
entry does not begin (R122); one that comes after it wakes the tumbler. -/
def execQuietEntry (t : Tum) (s : State) : Out :=
  .next (when (running s && (tstate s t = .online || tstate s t = .light) && (s.tum t).mode.wake = .no && quietBit s t
      && idleNow s t) s
    (setMode (selfEntry s t) t (fun m => { m with state := .quiet, refreshWake := false })))

/-- No write still holds a line slot (R123). -/
def noWrites (s : State) (t : Nat) : Bool :=
  let q := (s.tum t).q
  q.queue.all (fun a => !writeNeeds q a) && q.flight.all (fun f => isRead f.acc)

/-- SELF_REFRESH_ENTRY (R120) in a thermal emergency (R123). -/
def execSelfRefreshEntry (t : Tum) (s : State) : Out :=
  .next (when ((s.tum t).mode.emergency && !(s.tum t).mode.self && tstate s t != .latchOut && tstate s t != .offline
      && noWrites s t) s
    (pauseHotOn (selfEntry s t) t))

/-- The tumbler may leave self-refresh (R122, R123, R443), or must for the accesses that its shutdown performs (R410). -/
def mayExit (s : State) (t : Nat) : Bool :=
  let m := (s.tum t).mode
  m.self && m.rate = .idle && ((m.state = .shutting && !(s.tum t).q.queue.isEmpty) || !m.emergency &&
    (m.state = .online || m.state = .light || m.state = .initSweep
      || (m.state = .quiet && (m.wake = .quiet || !quietBit s t))))

/-- Self-refresh ends: from Quiet the accesses that waited for it are left out of guarantees (R213). -/
def selfExit (s : State) (t : Nat) : State :=
  let q := (s.tum t).mode.state = .quiet
  let s := leaveSelf s t
  let s := pauseOff (if q then excludeQueued s t else s) t
  setMode s t (fun m =>
    { m with state := if m.state = .shutting ∨ m.state = .initSweep then m.state else .online, wake := .no })

/-- SELF_REFRESH_EXIT (R122). -/
def execSelfRefreshExit (t : Tum) (s : State) : Out := .next (when (mayExit s t) s (selfExit s t))

/-- GATE_EN has been cleared: a tumbler in Light begins its wake (R87). -/
def gateOff (s : State) (t : Nat) : State := if flag s (tumReg t 0x10) 16 then s else
  if tstate s t = .light && (s.tum t).mode.wake = .no then setMode s t (fun m => { m with wake := .light }) else s

/-- A write of TUMnn_PWR_CFG (R87, R99). -/
def wrPwrCfg (s : State) (t : Tum) (v : Reg32) : State :=
  gateOff (putReg s (tumReg t 0x10) v (if bits v.toNat 15 0 = 0 then mask 15 0 else 0)) t

/-- PWR_CFG_WRITE (R87). -/
def execPwrCfgWrite (t : Tum) (v : Reg32) (s : State) : Out := .next (atReg s (tumReg t 0x10) (wrPwrCfg s t v))

/-- The leaves of a tumbler take the guard that TUMnn_REF_CFG holds now (R121). -/
def sendGuard (s : State) (t : Nat) : State :=
  foldUpTo s.part.leaves (fun s l =>
    let x := tget noLeaf s.leaves l
    { s with leaves := tput noLeaf s.leaves l { x with guard := tput zero x.guard t (fld s (tumReg t 0x20) 11 8) } }) s

/-- A write of TUMnn_REF_CFG (R110, R132): MULT 0b11 and POSTPONE above 8 are rejected. A payment begins or ends with the limits
that are in force then (R116). -/
def wrRefCfg (s : State) (t : Tum) (v : Reg32) : State :=
  let rej := (if bits v.toNat 1 0 = 3 then mask 1 0 else 0) + (if 8 < bits v.toNat 7 4 then mask 7 4 else 0)
  let s := putReg s (tumReg t 0x20) v rej
  let s := if (s.tum t).mode.self then sendGuard s t else s
  endExcess (checkExcess s t) t

/-- REF_CFG_WRITE (R110). -/
def execRefCfgWrite (t : Tum) (v : Reg32) (s : State) : Out := .next (atReg s (tumReg t 0x20) (wrRefCfg s t v))

end Sys2Proof.Machine
end

