-- ==== Sys2Proof/Machine/BusRate.lean ====
section
/-! DEFINITION. Bus rate changes (R88, R89, R119) and vertical-bus training (R90 to R92, R101 to R106). -/

namespace Sys2Proof.Machine

open Sys2Proof

/-- Delay in force that an unlisted wire has: the reset value of R106. -/
def noWire : Nat → BitVec 6 := fun _ => 32
/-- WR_DELAY and RD_PHASE in force of an unlisted leaf: the reset values of R107. -/
def noLevel : Nat → BitVec 12 := fun _ => 0x820

def dskReg (t r w : Nat) : Nat := tumReg t (0x2000 + 0x800 * r + 4 * w)
def lvlReg (t r l : Nat) : Nat := tumReg t (0x3800 + 0x100 * r + 4 * l)

/-- WR_DELAY and RD_PHASE of a register of R107. -/
def lvlValue (s : State) (t r l : Nat) : BitVec 12 :=
  BitVec.ofNat 12 (fld s (lvlReg t r l) 13 8 * 64 + fld s (lvlReg t r l) 5 0)

/-- Loads the delay set of rate `r` (R88 step 4). -/
def loadSet (s : State) (t r : Nat) : State :=
  let w := foldUpTo 336 (fun m i => tput noWire m i (BitVec.ofNat 6 (fld s (dskReg t r i) 5 0))) []
  let l := foldUpTo s.part.leaves (fun m i => tput noLevel m i (lvlValue s t r i)) []
  s.modTum t (fun x => { x with wires := w, levels := l })

/-- A change begins: selection stops (R88 step 1). A wake from Quiet that has begun goes on after it. -/
def beginRate (s : State) (t : Nat) : State :=
  let m := tstate s t
  let s := setMode s t (fun m => { m with
    rate := .quiescing, state := if m.state = .online || m.state = .light then .busy else m.state,
    wake := if m.wake = .quiet then .quiet else .no })
  if m = .online || m = .light then pauseOn s t else s

/-- A change ends without effect: selection resumes. -/
def cancelRate (s : State) (t : Nat) : State :=
  if (s.tum t).mode.rate = .quiescing then
    pauseOff (setMode s t (fun m => { m with
      rate := .idle, state := if m.state = .busy then .online else m.state })) t
  else s

/-- A write of TUMnn_RATE (R88, R89, R92, R97). -/
def wrRate (s : State) (t : Tum) (v : Reg32) : State :=
  let o := tumReg t 8
  let q := bits v.toNat 1 0
  let cur := rateOf s t
  let swept := (s.tum t).training.isSome
  let s := wrReg s o v (mask 1 0)
  if q = 3 then paramFault s (.tum t)
  else if q = cur then cancelRate (setF (setF s o 1 0 q) o 4 4 0) t
  else if !swept && !flag s o (8 + q) then paramFault (setF s o 16 16 1) (.tum t)
  else
    let s := setF (setF s o 1 0 q) o 4 4 1
    if swept || (s.tum t).mode.rate != .idle then s else beginRate s t

/-- RATE_REQ_WRITE (R88). -/
def execRateReqWrite (t : Tum) (v : Reg32) (s : State) : Out := .next (atReg s (tumReg t 8) (wrRate s t v))

/-- Issued commands have moved their data and every row is precharged (R88 step 2). -/
def quiet (s : State) (t : Nat) : Bool :=
  (s.tum t).q.flight.isEmpty && (s.tum t).dram.banks.all (fun e => e.2.openRow.isNone)

/-- The relock begins: refreshed slices enter self-refresh (R119). -/
def beginRelock (s : State) (t : Nat) : State :=
  let own := !(s.tum t).mode.self && tstate s t != .offline
  let s := if own then selfEntry s t else s
  setMode s t (fun m => { m with rate := .relocking, relockSelf := own })

/-- RATE_QUIESCED (R88). -/
def execRateQuiesced (t : Tum) (s : State) : Out :=
  .next (when ((s.tum t).mode.rate = .quiescing && quiet s t) s (beginRelock s t))

/-- The self-refresh entered for the relock ends (R119); one that was there before stays, and a thermal emergency or a latch-out
keeps it. -/
def relockExit (s : State) (t : Nat) : State :=
  let m := (s.tum t).mode
  if !m.relockSelf || m.emergency || m.state = .latchOut then s else leaveSelf s t

/-- The relock ends: the pending rate and its delay set are in force (R88 step 4), or the rate is unchanged where the
change was cancelled (R89); a sweep restarts (R92). -/
def relockDone (s : State) (t : Nat) : State :=
  let o := tumReg t 8
  let go := flag s o 4
  let r := if go then fld s o 1 0 else rateOf s t
  let s := setF (setF s o 3 2 r) o 4 4 0
  let s := if go then count (loadSet s t r) (cTum t 14) 1 else s
  let s := relockExit (setMode s t (fun m => { m with rate := .idle })) t
  match (s.tum t).training with
  | some x =>
    let c := tumReg t 0x108
    let s := setF (setF (setF s c 2 2 1) c 15 8 0) c 17 16 r
    s.modTum t (fun y => { y with training := some { x with d := fld s (tumReg t 0x104) 5 0, log := [] } })
  | none =>
    pauseOff (setMode s t (fun m => { m with state := if m.state = .busy then .online else m.state })) t

/-- RATE_RELOCK_DONE (R88). -/
def execRateRelockDone (t : Tum) (s : State) : Out :=
  .next (when ((s.tum t).mode.rate = .relocking) s (relockDone s t))

/-! ## Training -/

/-- A start of a sweep under R91; in a rate change it is rejected in every state (log 126). -/
def mayTrain (s : State) (t : Nat) : Bool :=
  let c := tumReg t 0x100
  (s.tum t).training.isNone && (s.tum t).mode.rate = .idle && decide (fld s c 9 4 < s.part.leaves) &&
    (tstate s t = .offline || (tstate s t = .online && decide (fld s c 17 13 ≤ 10)))

/-- A sweep starts (R90, R91). -/
def startSweep (s : State) (t : Nat) : State :=
  let on := tstate s t = .online
  let c := tumReg t 0x108
  let s := setF (setF (setF s c 0 0 1) c 15 8 0) c 17 16 (rateOf s t)
  let s := count s (cTum t 15) 1
  let s := s.modTum t (fun x => { x with
    training := some { wasOnline := on, d := fld s (tumReg t 0x104) 5 0, abort := false, log := [] } })
  if on then pauseOn (setMode s t (fun m => { m with state := .busy })) t else s

/-- A write of TUMnn_TRN_CTRL (R91, R92, R101). -/
def wrTrnCtrl (s : State) (t : Tum) (v : Reg32) : State :=
  let b := bits v.toNat 17 13
  let rej := (if b < 8 ∨ 16 < b then mask 17 13 else 0) + (if 4 < bits v.toNat 12 10 then mask 12 10 else 0)
  let s := putReg s (tumReg t 0x100) v rej
  let s := if bit v.toNat 0 then if mayTrain s t then startSweep s t else paramFault s (.tum t) else s
  if bit v.toNat 1 then
    s.modTum t (fun x => { x with training := x.training.map (fun y => { y with abort := true }) })
  else s

/-- TRN_START (R91): the written value carries START. -/
def execTrnStart (t : Tum) (v : Reg32) (s : State) : Out := .next (atReg s (tumReg t 0x100) (wrTrnCtrl s t (v ||| 1)))

/-- TRN_ABORT (R92): the written value carries ABORT. -/
def execTrnAbort (t : Tum) (v : Reg32) (s : State) : Out := .next (atReg s (tumReg t 0x100) (wrTrnCtrl s t (v ||| 2)))

/-- TRN_RES of wire `w` from the values tried, newest first (R105). -/
def wireResult (log : List (Nat × BitVec 336)) (w : Nat) : Nat :=
  let ok := log.filter (fun e => bit e.2.toNat w)
  if ok.isEmpty then 2 ^ 16
  else
    let lo := ok.foldl (fun m e => min m e.1) 63
    let hi := ok.foldl (fun m e => max m e.1) 0
    let split := log.any (fun e => decide (lo < e.1) && decide (e.1 < hi) && !bit e.2.toNat w)
    lo + hi * 256 + b2n split * 2 ^ 17

/-- Wires of an operation (R90, R105). -/
def opWires (op : Nat) : List Nat := if op = 3 then (List.range 16).map (320 + ·) else List.range 320

/-- The sweep is over: the tumbler returns to online, and a pending rate change is applied (R92), whatever SET_VALID says of the
rate now (log 126). -/
def endSweep (s : State) (t : Nat) (x : Training) : State :=
  let s := setF s (tumReg t 0x108) 0 0 0
  let s := s.modTum t (fun y => { y with training := none })
  let s := if x.wasOnline then pauseOff (setMode s t (fun m => { m with state := .online })) t else s
  if flag s (tumReg t 8) 4 && (s.tum t).mode.rate = .idle then beginRate s t else s

/-- The set that a tier-1 or tier-2 command of R114 is for. -/
def dueSet (s : State) (t : Nat) : Option (Nat × Nat) :=
  match excessSets s t with
  | e :: _ => some e
  | [] => limitSet s t

/-- Refreshes that must issue are issued in their order, each as soon as timing allows; at most `n`. -/
def payDue (t : Nat) : Nat → State → State
  | 0, s => s
  | n + 1, s =>
    match dueSet s t with
    | some e => payDue t n (refNext s t e.1 e.2)
    | none => s

/-- Refreshes that must issue now issue at the step boundary (R119). -/
def boundaryRefresh (s : State) (t : Nat) : State :=
  if (s.tum t).mode.self || tstate s t != .busy then s else endExcess (payDue t 2048 s) t

/-- A step ends with the wires of `pass` free of errors. TRN_CTRL and TRN_SWEEP act as they stand at the step boundary
(log 126). -/
def stepEnd (s : State) (t : Nat) (x : Training) (pass : BitVec 336) : State :=
  let c := tumReg t 0x108
  let cfg := tumReg t 0x104
  let s := count s (cLeaf (fld s (tumReg t 0x100) 9 4) 7) 1
  let x := { x with log := (x.d, pass) :: x.log }
  let s := setF s c 15 8 (min 255 x.log.length)
  if x.abort then endSweep (setF s c 3 3 1) t x
  else if flag s (tumReg t 8) 4 then
    beginRelock (s.modTum t (fun y => { y with training := some { x with log := [] } })) t
  else
    let d := x.d + fld s cfg 19 16
    if fld s cfg 13 8 < d then
      let s := (opWires (fld s (tumReg t 0x100) 3 2)).foldl (fun s w =>
        wr s (tumReg t (0x400 + 4 * w)) (BitVec.ofNat 32 (wireResult x.log w))) s
      endSweep (setF s c 1 1 1) t x
    else boundaryRefresh (s.modTum t (fun y => { y with training := some { x with d := d } })) t

/-- TRN_STEP_BOUNDARY (R90). -/
def execTrnStepBoundary (t : Tum) (pass : BitVec 336) (s : State) : Out :=
  match (s.tum t).training with
  | some x => .next (when (quiet s t && (s.tum t).mode.rate = .idle) s (stepEnd s t x pass))
  | none => .next s

end Sys2Proof.Machine
end

