-- ==== Sys2Proof/Machine/LinkCore.lean ====
section
/-! DEFINITION. Shared operations of the Fellor link: widths and lanes (R247, R252, R264), entering and leaving link
states (R253, R278), training failures (R248, R278), credits and acknowledgement (R290, R292, R303), and the key sets
that the device sends (R281, R282). -/

namespace Sys2Proof.Machine

open Sys2Proof

/-! ## Lanes and widths -/

/-- LANE_STAT offset of the lane whose logical number is `l`: the register is indexed by the lane's position (R247,
R265). -/
def laneStat (s : State) (p l : Nat) : Nat :=
  fpReg p (0x100 + 4 * (if l < 16 && flag s (fpReg p 0x10) 4 then 15 - l else l))

def rxLanes (s : State) (p : Nat) : Nat := fld s (fpReg p 0x10) 31 16
def rxCount (s : State) (p : Nat) : Nat := widthLanes (fld s (fpReg p 0x10) 1 0)
def txCount (s : State) (p : Nat) : Nat := widthLanes (fld s (fpReg p 0x10) 3 2)

/-- Lanes that a direction uses: the lowest-numbered healthy ones (R252). -/
def lanesUsed (healthy minW : Nat) : Nat := lowestBits 16 (widthLanes (widthOf (popNat 16 healthy) minW)) healthy

/-- MIN_WIDTH in force (R260). -/
def minWidth (s : State) (p : Nat) : Nat := (s.port p).phy.minW.toNat

/-- Width code of a direction from its healthy lanes (R252). -/
def widthFrom (s : State) (p healthy : Nat) : Nat := widthOf (popNat 16 healthy) (minWidth s p)

/-- Transmit lanes in use. -/
def txLanes (s : State) (p : Nat) : Nat := lowestBits 16 (txCount s p) (s.port p).phy.txHealthy.toNat

/-- Position of logical lane `l` among the lanes of a mask (R284). -/
def lanePlace (m l : Nat) : Nat := popNat l m

/-- Lanes marked lost and not restored (R252, R254). -/
def excludedLanes (s : State) (p : Nat) : Nat :=
  foldUpTo 16 (fun n l => n + b2n (flag s (laneStat s p l) 5) * 2 ^ l) 0

def clearExclusions (s : State) (p : Nat) : State :=
  foldUpTo 16 (fun s l => setF s (laneStat s p l) 5 5 0) s

/-- MIN_WIDTH takes effect (R260). -/
def takeMinWidth (s : State) (p : Nat) : State :=
  setPhy s p (fun x => { x with minW := BitVec.ofNat 2 (fld s (fpReg p 0) 3 2) })

/-- Writes LOCK of the data lanes from a mask of logical numbers (R265). -/
def setLocks (s : State) (p m : Nat) : State :=
  foldUpTo 16 (fun s l => setF s (laneStat s p l) 1 1 (b2n (bit m l))) s

/-- Writes HEALTHY of the data lanes (R265). -/
def setHealthy (s : State) (p m : Nat) : State :=
  foldUpTo 16 (fun s l => setF s (laneStat s p l) 0 0 (b2n (bit m l))) s

/-! ## Leaving a state -/

/-- What ends when a port leaves its link state: a step of adaptation (R242), an eye scan (R239), an armed injection
(R259). -/
def leaveLink (s : State) (p : Nat) : State :=
  setPhy (dropInjection (endEye s p) p) p (fun x => { x with adapting := false, adaptSkip := 0, injLeft := 0 })

/-- Key sets are counted from the start of an exchange (R279). -/
def startKeys (s : State) (p : Nat) : State := s.modPort p (fun x => { x with ks := [], ksHeard := false, ksSent := 0 })

/-- The port enters Detect: lanes, polarity and reversal are found again (R244, R246, R247). -/
def toDetect (s : State) (p : Nat) : State :=
  let s := leaveLink s p
  let s := wr s (fpReg p 0x10) 0xF
  let s := foldUpTo 16 (fun s l => setF (setF s (fpReg p (0x100 + 4 * l)) 2 1 0) (fpReg p (0x100 + 4 * l)) 11 8 l) s
  let s := setF s (fpReg p 0x140) 1 1 0
  let s := startKeys s p
  s.modPort p (fun x => { x with
    link := .detect, polInv := 0, phy := { PhyS.init with eqTarget := x.phy.eqTarget } })

/-- The port enters Off, and goes on to Detect where EN is 1 and TEST is 0 (R278). -/
def fromOff (s : State) (p : Nat) : State :=
  if (s.port p).link = .off && flag s (fpReg p 0x8000) 0 && !flag s (fpReg p 4) 8 && !s.power.fatal && strikeLive s
    && s.power.mode = .on then
    toDetect s p
  else s

/-- ClockLock and the KS1 exchange of a Train run at 16 Gb/s (R245). -/
def at16 (s : State) (p : Nat) : State := setF s (fpReg p 8) 3 2 2

/-- The port enters Train.KS1. -/
def toKs1 (s : State) (p : Nat) : State :=
  let s := at16 (startKeys (leaveLink s p) p) p
  s.modPort p (fun x => { x with link := .trainKs1, phy := { x.phy with rated := false, relocked := false, sweepStep := 0, sweepBest := [] } })

/-- TRAIN_FAIL: the port goes back to Detect (R278). -/
def trainGivesUp (s : State) (p : PortN) : State :=
  let s := toDetect (setF s (fpReg p 0x800C) 1 1 1) p
  fault s (.port p) 6 0 1

/-- A training failure at the rate in force (R248, R278). -/
def trainFails (s : State) (p : PortN) : State :=
  let x := (s.port p).phy
  if x.fails + 1 < 3 then toKs1 (setPhy s p (fun x => { x with fails := x.fails + 1 })) p
  else if x.rate = 2 then trainGivesUp s p
  else toKs1 (setPhy s p (fun x => { x with fails := 0, floor := x.rate + 1 })) p

/-- The port goes down (R253): the fault is recorded at severity 3, and the port is in latch-out whatever the record. -/
def portDown (s : State) (p : PortN) : State :=
  let s := fault (leaveLink s p) (.port p) 5 0 1
  if (s.port p).link = .latchOut then s else portLatch s p

/-- A written REQ or MAX_RATE has not taken effect, so that the next Retrain applies a rate (R250, R260). -/
def rateDue (s : State) (p : Nat) : Bool :=
  flag s (fpReg p 8) 4 || fld s (fpReg p 0) 1 0 != (s.port p).phy.maxR.toNat

/-- The port enters Retrain (R252, R278), with the sweep of R249 where a rate is to be applied (R250). -/
def toRetrain (s : State) (p : Nat) : State :=
  let s := takeMinWidth (startKeys (leaveLink s p) p) p
  let sweep := rateDue s p
  let ok := 0xFFFF - excludedLanes s p
  count (s.modPort p (fun x => { x with
    link := .retrain, lp := .none, ctlDue := none, discarding := false, nakDue := false,
    phy := { x.phy with
      tested := BitVec.ofNat 16 ok
      testEnded := false
      second := false
      withSweep := sweep
      rated := false
      relocked := false
      sweepStep := 0
      sweepBest := [] } })) (cPort p 8) 1

/-- LOSS, EXCLUDED and LOCK of a lane that has lost lock (R251, R252). -/
def markLost (s : State) (p l : Nat) : State :=
  let o := laneStat s p l
  setF (setF (setF s o 4 4 1) o 5 5 1) o 1 1 0

/-- Data lanes that lose lock in one cycle are marked lost (R251, R403); the detail is the first one's FPpp_LANE_STAT
(R407). -/
def loseLanes (s : State) (p : PortN) (l : List Nat) : State :=
  let s := l.foldl (fun s i => markLost s p i) s
  let d := rd s (laneStat s p (l.headD 0))
  fault (count s (cPort p 10) l.length) (.port p) 2 (d.setWidth 96) l.length

/-! ## Credits (R302 to R304) -/

/-- Packets of a class that may still be sent (R303). -/
def creditLeft (s : State) (p k : Nat) : Nat :=
  let x := s.port p
  let d := (tget zero x.limit k - tget zero x.sent k).toNat
  if d ≤ 2047 then d else 0

/-- Protocol error of a port (R311). -/
def protocolError (s : State) (p : Nat) : State := count (setF s (fpReg p 0x800C) 6 6 1) (cPort p 17) 1

/-- A limit of class `k` is received (R303). -/
def applyLimit (s : State) (p k : Nat) (v : BitVec 12) : State :=
  let x := s.port p
  if 2047 < (v - tget zero x.sent k).toNat then protocolError s p
  else s.setPort p { x with limit := tput zero x.limit k v }

def mirrorRole (s : State) (p : Nat) : Bool := fld s (fpReg p 0x8004) 1 0 == 1

/-- The limits of the classes that the port's role uses (R302). -/
def applyLimits (s : State) (p : Nat) (c0 c1 c2 : BitVec 12) : State :=
  if mirrorRole s p then applyLimit s p 2 c2 else applyLimit (applyLimit s p 0 c0) p 1 c1

/-- Limits that the device sends (R302). -/
def limitSent (s : State) (p k : Nat) : Nat :=
  if mirrorRole s p = (k == 2) then (tget zero (s.port p).granted k).toNat else 0

/-! ## Acknowledgement and replay (R289 to R292) -/

/-- An ACK of value `a` frees every flit up to it (R290). -/
def applyAck (s : State) (p : Nat) (a : BitVec 10) : State :=
  let x := s.port p
  if x.replay.any (fun h => h.seq = a) then
    let gone := (x.replay.takeWhile (fun h => h.seq ≠ a)).map (·.seq) ++ [a]
    s.setPort p { x with
      txAcked := a
      replay := x.replay.filter (fun h => !gone.contains h.seq)
      resend := x.resend.filter (fun n => !gone.contains n) }
  else s

/-- Every flit held is to be sent again, in order (R292). -/
def resendAll (s : State) (p : Nat) : State := s.modPort p (fun x => { x with resend := x.replay.map (·.seq) })

/-- A replay is called for; a flit that has been sent four times brings the port into Retrain (R292). -/
def replayHeld (s : State) (p : PortN) : State :=
  if (s.port p).replay.any (fun h => decide (4 ≤ h.sends)) then
    let s := fault (setF s (fpReg p 0x800C) 4 4 1) (.port p) 7 0 1
    if carries s p then toRetrain s p else s
  else resendAll s p

/-! ## Urgency and store (R305, R316) -/

/-- Requests held in the port's request store, those that wait for their command among them (R207, R316). -/
def reqWait (s : State) (p : Nat) : Nat :=
  ((s.port p).rxPkts.filter (fun k => bits (chunkNat k.2) 5 0 = 4)).length
    + (s.waiting.filter (fun a => !a.left && a.port.any (fun q => q.val == p))).length

/-! ## Key sets sent (R281, R282) -/

/-- RATES that the device advertises: those that REQ, MAX_RATE and training failures leave (R248, R250, log 136). -/
def rateLow (s : State) (p : Nat) : Nat :=
  max (max (fld s (fpReg p 8) 1 0) (fld s (fpReg p 0) 1 0)) (s.port p).phy.floor.toNat

def ratesSent (s : State) (p : Nat) : Nat :=
  foldUpTo 3 (fun n k => n + b2n (decide (rateLow s p ≤ k)) * 2 ^ k) 0

/-- Fields of KS1 for lane `l`. -/
def ks1Fields (s : State) (p l : Nat) : Nat :=
  let x := s.port p
  let usable := if x.link = .retrain then (if x.phy.testEnded then x.phy.rxHealthy else x.phy.tested) else x.phy.sensed
  l * 2 ^ 32 + fld s (fpReg p 0x8004) 1 0 * 2 ^ 36 + ratesSent s p * 2 ^ 38 + 2 ^ 44 + p * 2 ^ 48
    + usable.toNat * 2 ^ 52 + (rd s 0).toNat * 2 ^ 117

/-- First limits granted after a Train (R302). -/
def firstLimit (s : State) (p k : Nat) : BitVec 12 :=
  if mirrorRole s p then (if k = 2 then 256 else 0) else if k = 0 then 512 else if k = 1 then 16 else 0

/-- Fields of KS2 for lane `l`. -/
def ks2Fields (s : State) (p l : Nat) : Nat :=
  let x := s.port p
  let again := x.link = .retrain
  let lim (k : Nat) : Nat := if again then limitSent s p k else (firstLimit s p k).toNat
  l * 2 ^ 32 + fld s (fpReg p 0x8004) 1 0 * 2 ^ 36 + fld s (fpReg p 8) 3 2 * 2 ^ 38 + 2 ^ 44 + p * 2 ^ 48
    + x.phy.rxHealthy.toNat * 2 ^ 52 + widthFrom s p x.phy.rxHealthy.toNat * 2 ^ 68 + b2n again * 2 ^ 70
    + (if again then x.rxLast.toNat else 1023) * 2 ^ 71 + lim 0 * 2 ^ 81 + lim 1 * 2 ^ 93 + lim 2 * 2 ^ 105

/-- The device exchanges KS2: in Train.KS2, and in Retrain after the lane test and any sweep. -/
def inKs2 (s : State) (p : Nat) : Bool :=
  let x := s.port p
  x.link = .trainKs2 || (x.link = .retrain && x.phy.testEnded && !x.phy.withSweep)

/-- Kind of the key sets that are exchanged (R279). -/
def keyKind (s : State) (p : Nat) : Nat := if inKs2 s p then 2 else 1

/-- The port exchanges key sets. -/
def inKeys (s : State) (p : Nat) : Bool :=
  let x := s.port p
  x.link = .trainKs1 || x.link = .trainSweep || x.link = .trainKs2 || x.link = .retrain

/-- Transmit lanes that send key sets (R252, R278, R282): for KS2 the lanes in use at the new width, else in a Train
those whose termination was sensed, and in a Retrain all of them, since LANE_STAT excludes receive lanes alone. -/
def keyLanes (s : State) (p : Nat) : Nat :=
  let x := s.port p
  if inKs2 s p then lanesUsed x.phy.txHealthy.toNat (minWidth s p)
  else if x.link = .retrain then 0xFFFF
  else x.phy.sensed.toNat

/-- Key sets that the transmitter sends at once, one for each lane that sends (R278, R282). -/
def keySetsOut (s : State) (p : Nat) : List KeySetBits :=
  let lanes := keyLanes s p
  ((List.range 16).filter (fun l => bit lanes l)).map (fun l =>
    if inKs2 s p then mkKeySet ks2Id (ks2Fields s p l) (lanePlace lanes l) else mkKeySet ks1Id (ks1Fields s p l) l)

/-- Transmit lanes that are not in electrical idle (R252, R257, R259). -/
def liveLanes (s : State) (p : Nat) : Nat :=
  if carries s p then txLanes s p
  else if inKeys s p then keyLanes s p
  else if (s.port p).link = .test && flag s (fpReg p 0x500) 8 then fld s (fpReg p 0x504) 15 0
  else 0

/-- Transmit lane `l` is not in electrical idle. -/
def txLive (s : State) (p l : Nat) : Bool := bit (liveLanes s p) l

/-- An armed injection whose lane is in electrical idle is dropped (R259). -/
def dropIdle (s : State) (p : Nat) : State :=
  if txLive s p (fld s (fpReg p 0x700) 3 0) then s else dropInjection s p

end Sys2Proof.Machine
end

