-- ==== Sys2Proof/Machine/Requests.lean ====
section
/-! DEFINITION. Requests taken from REQ packets (R61 to R70, R299) and the release of waiting accesses (R207). -/

namespace Sys2Proof.Machine

open Sys2Proof

/-- Packet `pkt` can be taken from port `p`: flits run, the role is host, and it came before any stop point (R306, R307). -/
def takesReq (s : State) (p : PortN) (pkt : List (BitVec 16)) : Bool :=
  running s && carries s p && fld s (fpReg p 0x8004) 1 0 == 0 &&
    (!(s.port p).stopped || (s.port p).rxPkts.any (fun e => e.2 == usedBits pkt))

/-- A skipped packet is a protocol error (R297, R311). -/
def skipPacket (s : State) (p : Nat) : State := count (setF s (fpReg p 0x800C) 6 6 1) (cPort p 17) 1

/-- Index of a failing status among port counters 24 to 27 (R422). -/
def failIndex (st : BitVec 4) : Nat :=
  if st = stPermission then 24 else if st = stRange then 25 else if st = stParameter then 26 else 27

/-- A request that fails a check of R63 completes (R69, R70). -/
def rejectReq (s : State) (r : Req) (st : BitVec 4) : State :=
  let f := r.flow.toNat
  let n := fld s (flwReg f 3) 31 0
  let s := if f = 0 then s else setF s (flwReg f 3) 31 0 (min (n + 1) 0xFFFFFFFF)
  let s := leaveStore (count s (cPort r.port (failIndex st)) 1) r.port
  let c : Cmp :=
    { flow := r.flow, initiator := r.initiator, tag := r.tag, status := st, unwritten := false, corrected := false,
      partner := false, poison := 0, bytes := 0, data := 0 }
  (pushCmp s (some r.port) (s.port r.port).gen c).1

/-- Kind of an access from the request's type and size. -/
def kindOf (ty : Nat) (size : BitVec 2) : AccKind :=
  if ty = 0 then if size = 2 then .read256 else .read64
  else if ty = 1 then .write else if ty = 2 then .add else if ty = 3 then .swap else if ty = 4 then .cas else .andOr

/-- An accepted request with receive stamp `stamp` (R54, R61, R208). -/
def acceptReq (s : State) (ty : Nat) (r : Req) (stamp : BitVec 64) : State :=
  let f := r.flow.toNat
  let n := fld s (flwReg f 2) 15 0
  let s := setF s (flwReg f 2) 15 0 (n + 1)
  let s := wr (wr s (flwReg f 6) (BitVec.ofNat 32 stamp.toNat)) (flwReg f 7) (BitVec.ofNat 32 (stamp.toNat / 2 ^ 32))
  let s := count s (cXbar 0) 1
  let c := flwClass s f
  let a := { newAccess s (kindOf ty r.size) (.flow r.flow) r.addr with
    port := some r.port, gen := (s.port r.port).gen, flow := r.flow, initiator := r.initiator, tag := r.tag,
    cls := BitVec.ofNat 8 c, urg := effUrgency s r.port r.urgency c, hint := r.hint, be := r.be, data := r.data,
    op1 := r.op1, op2 := r.op2 }
  arrive { s with live := s.live ++ [(a.id, r.flow, BitVec.ofNat 12 (flwKey s f))] } a

/-- A REQ packet of type `ty` with receive stamp `stamp` is checked; one that fails waits while the completion buffer is full
(R304). -/
def checkedReq (s : State) (ty : Nat) (r : Req) (stamp : BitVec 64) : State :=
  let t := count (dropPkt s r.port (encodeReq ty r)) (cPort r.port 19) 1
  if r.len.toNat < 8 then leaveStore (skipPacket t r.port) r.port
  else
    match checkReq t ty r with
    | some st => if (s.port r.port).cmpBuf.length < 512 then rejectReq t r st else s
    | none => acceptReq t ty r stamp

/-- A REQ packet of type `ty` is taken: it is in the port's store, into which a new one comes now, and it is taken when it is the
oldest request there (R38, R67). -/
def takeReq (s : State) (ty : Nat) (r : Req) : State :=
  let s := received s r.port (encodeReq ty r)
  match nextPkt s r.port 4 with
  | some e => if e.2 = usedBits (encodeReq ty r) then checkedReq s ty r e.1 else s
  | none => s

/-- The frame of the request rows. -/
def takeRow (s : State) (ty : Nat) (r : Req) : Out :=
  .next (when (takesReq s r.port (encodeReq ty r)) s (takeReq s ty r))

/-- READ (R65). -/
def execRead (r : Req) (s : State) : Out := takeRow s 0 r
/-- WRITE (R64). -/
def execWrite (r : Req) (s : State) : Out := takeRow s 1 r
/-- ATOMIC_ADD (R65). -/
def execAtomicAdd (r : Req) (s : State) : Out := takeRow s 2 r
/-- ATOMIC_SWAP (R65). -/
def execAtomicSwap (r : Req) (s : State) : Out := takeRow s 3 r
/-- ATOMIC_COMPARE_AND_SWAP (R65). -/
def execAtomicCompareAndSwap (r : Req) (s : State) : Out := takeRow s 4 r
/-- ATOMIC_AND_OR (R65). -/
def execAtomicAndOr (r : Req) (s : State) : Out := takeRow s 5 r

/-- WAIT_RELEASE (R207). -/
def execWaitRelease (t : Tum) (s : State) : Out :=
  match bestWaiting s t with
  | some a => .next (release s a)
  | none => .next s

end Sys2Proof.Machine
end

