-- ==== Sys2Proof/Machine/CmdCore.lean ====
section
/-! DEFINITION. Command processing: arrival (R301, R359), checks (R356, R361), taking and order (R357, R358, R372,
R373), and the frame in which every opcode runs. -/

namespace Sys2Proof.Machine

open Sys2Proof

/-! ## The opcode table (R363) -/

/-- Rights of an opcode. -/
inductive Rights where
  | user | admin | ring
  deriving DecidableEq, Repr

/-- A row of R363: rights, used bits of P0 to P2, and least and greatest EXT length. -/
structure OpRow where
  rights : Rights
  p0 : Nat := 0
  p1 : Nat := 0
  p2 : Nat := 0
  extMin : Nat := 0
  extMax : Nat := 0
  deriving DecidableEq, Repr

def opRow (op : Nat) : Option OpRow :=
  if op = 0x0000 then some { rights := .user }
  else if op = 0x0001 then some { rights := .admin, p0 := mask 25 0, p1 := mask 6 0 }
  else if op = 0x0002 then some { rights := .admin, p0 := mask 25 0, p1 := mask 6 0, extMin := 8, extMax := 256 }
  else if op = 0x0003 ∨ op = 0x0004 then
    some { rights := .ring, p0 := mask 17 0 + mask 56 32, p1 := mask 39 0, p2 := mask 63 0 }
  else if op = 0x0100 then some { rights := .admin, p0 := mask 11 0 + mask 16 16 + mask 47 32 }
  else if op = 0x0101 then
    some { rights := .admin, p0 := mask 17 0 + mask 27 24 + mask 43 32 + mask 59 48, p1 := mask 7 0 }
  else if op = 0x0102 then some { rights := .admin, p0 := mask 17 0 }
  else if op = 0x0103 then some { rights := .admin, p0 := mask 11 0, extMin := 64, extMax := 64 }
  else if op = 0x0104 then some { rights := .admin, p0 := mask 11 0 }
  else if op = 0x0105 then some { rights := .admin, p0 := mask 11 0 + mask 16 16 }
  else if op = 0x0200 then some { rights := .admin, p0 := mask 32 0, p1 := mask 2 0 }
  else if op = 0x0201 then some { rights := .admin, p0 := mask 17 0 }
  else if op = 0x0202 then
    some { rights := .admin, p0 := mask 5 0 + mask 13 8 + mask 18 16 + mask 21 20 + mask 45 32 }
  else if op = 0x0203 then some { rights := .admin, p0 := mask 5 0 + mask 13 8, p1 := mask 63 0 }
  else if op = 0x0204 then some { rights := .admin, p0 := mask 5 0 }
  else if op = 0x0205 then some { rights := .user, extMin := 128, extMax := 384 }
  else if op = 0x0206 then some { rights := .user, p0 := mask 7 0 }
  else if op = 0x0300 then
    some { rights := .admin, p0 := mask 9 0 + mask 13 12, p1 := mask 8 0 + mask 25 16 + mask 40 32 + mask 57 48 }
  else if op = 0x0301 then
    some { rights := .admin, p0 := mask 9 0, p1 := mask 11 0 + mask 31 16 + mask 33 32 }
  else if op = 0x0302 then some { rights := .admin, p0 := mask 27 0 }
  else if op = 0x0400 then some { rights := .admin, p0 := mask 1 0 + mask 31 16, p1 := mask 15 0 }
  else if op = 0x0401 then some { rights := .admin }
  else if op = 0x0402 then some { rights := .admin, p0 := mask 0 0 + mask 16 16 + mask 47 32 }
  else if op = 0x0500 then some { rights := .admin, p0 := mask 1 0 + mask 13 8 }
  else if op = 0x0501 then some { rights := .admin, p0 := mask 1 0 + mask 13 8 + mask 16 16 }
  else if op = 0x0502 then some { rights := .admin, p0 := mask 2 0, p1 := mask 63 0, p2 := mask 15 0 }
  else if op = 0x0503 then some { rights := .admin, p0 := mask 3 0 + mask 13 8 + mask 17 16 }
  else if op = 0x0504 ∨ op = 0x0505 then some { rights := .admin }
  else if op = 0x0600 then some { rights := .admin, p0 := mask 16 0, p1 := mask 31 0 }
  else if op = 0x0601 then some { rights := .admin, p0 := mask 31 0, p1 := mask 5 0 }
  else if op = 0x0602 then some { rights := .user, p0 := mask 11 0 + mask 27 16 + mask 35 32 + mask 40 40 }
  else if op = 0x0700 then some { rights := .admin, p0 := mask 21 0, extMin := 8, extMax := 2008 }
  else if op = 0x0701 then some { rights := .admin, p0 := mask 22 0, p1 := mask 31 0 }
  else if op = 0x0702 then some { rights := .admin }
  else none

/-! ## Checks (R356, R361) -/

/-- `x` has no bit outside `m`. -/
def within (x : Word64) (m : Nat) : Bool := x.toNat &&& (2 ^ 64 - 1 - m) == 0

/-- A 64-bit word of EXT. -/
def extWord (c : Cmd) (n : Nat) : Nat := leNat ((c.ext.drop (8 * n)).take 8)

/-- EXT bits that the opcode leaves unused are 0: those of KEY_DEFINE above an extent, and the last half-word of
CSR_WRITE where N is odd (R363, R365). -/
def extClean (c : Cmd) : Bool :=
  if c.opcode = 0x0103 then (List.range 8).all (fun n => decide (extWord c n < 2 ^ 38))
  else if c.opcode = 0x0002 then
    let n := bits c.p1.toNat 6 0
    !(n % 2 == 1 && c.ext.length == 4 * n + 4) || leNat ((c.ext.drop (4 * n)).take 4) == 0
  else true

/-- Administrative rights (R356). -/
def isAdmin (s : State) (c : Cmd) : Bool :=
  match c.src with
  | .ring _ => true
  | .port _ => flag s (adminReg (c.initiator.toNat / 32)) (c.initiator.toNat % 32)

def onRing (c : Cmd) : Bool := match c.src with
  | .ring _ => true
  | .port _ => false

/-- The initiator of a control flow passes R356. -/
def sourceOk (s : State) (c : Cmd) : Bool :=
  match c.src with
  | .ring _ => true
  | .port p => initOn s c.initiator.toNat p

/-- LEN, the packet's length and the EXT length agree with R359 and with the opcode. -/
def lengthOk (c : Cmd) (o : OpRow) : Bool :=
  let n := c.len.toNat
  let chunks := match c.chunks with
    | some k => k.toNat == (36 + n) / 2
    | none => true
  n % 8 == 0 && decide (n ≤ 2008) && chunks && c.ext.length == n && decide (o.extMin ≤ n) && decide (n ≤ o.extMax)

/-- The checks of R361; none where the command goes on to its own checks. -/
def checkCommand (s : State) (c : Cmd) : Option (BitVec 16) :=
  if !sourceOk s c then some rcSourceInvalid
  else
    match opRow c.opcode.toNat with
    | none => some rcUnknownOpcode
    | some o =>
      if !lengthOk c o then some rcBadLength
      else if c.reserved ≠ 0 ∨ (within c.p0 o.p0 && within c.p1 o.p1 && within c.p2 o.p2 && extClean c) = false then
        some rcReservedSet
      else if (o.rights = .admin && !isAdmin s c) || (o.rights = .ring && !onRing c) then some rcNotPermitted
      else none

/-! ## Objects (R357) -/

/-- Objects that a command names, as ranges (kind, first, count): 0 regions, 1 flow, 2 key, 3 initiator, 4 class, 5 scan
slot, 6 unit, 7 the pair, 8 the firmware image (log 28). -/
def objects (c : Cmd) : List (Nat × Nat × Nat) :=
  let p0 := c.p0.toNat
  let op := c.opcode.toNat
  if op = 0x0003 ∨ op = 0x0004 then [(1, bits p0 17 0, 1)]
  else if op = 0x0100 ∨ op = 0x0105 then [(3, bits p0 11 0, 1)]
  else if op = 0x0101 then
    [(1, bits p0 17 0, 1), (3, bits p0 43 32, 1), (2, bits p0 59 48, 1), (4, bits c.p1.toNat 7 0, 1)]
  else if op = 0x0102 then [(1, bits p0 17 0, 1)]
  else if op = 0x0103 ∨ op = 0x0104 then [(2, bits p0 11 0, 1)]
  else if op = 0x0200 then [(0, bits p0 15 0, bits p0 32 16)]
  else if op = 0x0201 then [(0, bits p0 15 0, 1)]
  else if op = 0x0205 then [(1, leNat ((c.ext.drop 0x10).take 4) % 2 ^ 18, 1)]
  else if op = 0x0206 then [(5, bits p0 7 0, 1)]
  else if op = 0x0300 ∨ op = 0x0301 then [(4, bits p0 7 0, 1)]
  else if op = 0x0400 ∨ op = 0x0401 ∨ op = 0x0402 then [(7, 0, 1)]
  else if op = 0x0500 ∨ op = 0x0501 then [(6, bits p0 1 0 * 64 + bits p0 13 8, 1)]
  else if op = 0x0602 then [(3, bits p0 27 16, 1)]
  else if op = 0x0700 ∨ op = 0x0701 ∨ op = 0x0702 then [(8, 0, 1)]
  else []

/-- A command that accesses the CSR space; those of one source use one access path (R35, R365). -/
def csrCmd (c : Cmd) : Bool := c.opcode = 0x0001 || c.opcode = 0x0002

/-- The two commands are executed in the order in which they were taken: they name a common object (R357), or are CSR accesses of
one path (R44). -/
def sameObject (c d : Cmd) : Bool :=
  (csrCmd c && csrCmd d && c.src == d.src) || (objects c).any (fun x => (objects d).any (fun y =>
    x.1 == y.1 && decide (x.2.1 < y.2.1 + y.2.2) && decide (y.2.1 < x.2.1 + x.2.2)))

/-- The unit that a UNIT_DISABLE or UNIT_ENABLE names (R380). -/
def unitOf (c : Cmd) : Option UnitId :=
  let n := bits c.p0.toNat 13 8
  match bits c.p0.toNat 1 0 with
  | 0 => some (.tum (Fin.ofNat 64 n))
  | 1 => if n < 16 then some (.port (Fin.ofNat 16 n)) else none
  | 2 => some (.scan (Fin.ofNat 64 n))
  | _ => if n < 8 then some (.core (Fin.ofNat 8 n)) else none

/-- The unit is being started: by UNIT_ENABLE, at boot, or by a restart (R381, R501). -/
def inStart (s : State) (u : UnitId) : Bool :=
  s.cmds.starting.any (fun x => x.1 = u) ||
    (match u with
     | .tum t => tstate s t = .offline || tstate s t = .initSweep
     | .core c => (s.core c).state = .off || (s.core c).state = .booting
     | _ => false)

/-- The command has been executed for R357 although its reply is owed: unit commands only, and a UNIT_DISABLE once its
shutdown has begun. -/
def executed (s : State) (c : Cmd) : Bool :=
  s.cmds.begun.contains c && (c.opcode = 0x0501 || (c.opcode = 0x0500 && !(unitOf c).any (inStart s)))

/-- A taken command whose execution may begin: no earlier command on one of its objects is still executing. -/
def ready (s : State) (c : Cmd) (op : BitVec 16) : Bool :=
  running s && c.opcode = op && decide (s.cmds.begun.count c < s.cmds.taken.count c) &&
    !(s.cmds.taken.takeWhile (· ≠ c)).any (fun d => sameObject c d && !executed s d)

/-- Marks a command whose reply is owed. -/
def begin (s : State) (c : Cmd) : State := { s with cmds := { s.cmds with begun := s.cmds.begun ++ [c] } }

/-- The frame of every opcode: a taken and ready command runs. -/
def runCmd (s : State) (c : Cmd) (op : BitVec 16) (f : State → State) : Out := .next (when (ready s c op) s (f s))

/-- Answers the first check that fails, or goes on. -/
def orFail (s : State) (c : Cmd) (l : List (Bool × BitVec 16)) (t : State) : State :=
  match l.find? (·.1) with
  | some e => answer s c e.2
  | none => t

/-! ## Arrival and taking -/

/-- Slots of 64 bytes that a command occupies on a ring (R359). -/
def ringSlots (len : Nat) : Nat := (32 + len + 63) / 64

/-- Commands of a source taken and not yet answered. -/
def takenOf (s : State) (src : CmdSrc) : Nat :=
  (s.cmds.taken.filter (fun c => c.src = src && !s.cmds.dropped.contains c)).length

/-- The reply ring of `n` has room for a reply of `len` bytes of DATA (R373). -/
def replyRoom (s : State) (n len : Nat) : Bool :=
  let used := (fld s (ringReg n 0x1C) 16 0 + 2 ^ 17 - fld s (ringReg n 0x20) 16 0) % 2 ^ 17
  decide (used + (16 + len + 63) / 64 ≤ 2 ^ fld s (ringReg n 0) 12 8)

/-- A reply of the source waits (R304, R373). -/
def replyWaits (s : State) (src : CmdSrc) : Bool :=
  match src with
  | .ring n => (s.ring n).replies.any (fun r => !replyRoom s n r.data.length)
  | .port p => !(s.port p).rplQ.isEmpty

/-- Command waiting first at a source. -/
def headOf (s : State) (src : CmdSrc) : Option Cmd :=
  match src with
  | .ring n => (s.ring n).cmdQ.head?
  | .port p => (s.port p).cmdQ.head?

/-- The source may have a command taken now (R357, R358, R373). -/
def mayTake (s : State) (src : CmdSrc) : Bool :=
  running s && s.power.taking && s.update.isNone && decide (takenOf s src < 16) && !replyWaits s src

/-- Takes the head of a source off its queue; CHEAD advances (R373). -/
def popHead (s : State) (src : CmdSrc) (c : Cmd) : State :=
  match src with
  | .ring n =>
    let x := s.ring n
    let o := ringReg n 0x18
    let s := s.setRing n { x with cmdQ := x.cmdQ.drop 1 }
    count (setF s o 16 0 (fld s o 16 0 + ringSlots c.len.toNat)) (cCmd 1) 1
  | .port p =>
    count (s.modPort p (fun x => { x with cmdQ := x.cmdQ.drop 1 })) (cCmd 0) 1

/-- A command is taken: its checks begin (R357, R361). -/
def takeCommand (s : State) (src : CmdSrc) (c : Cmd) : State :=
  let s := popHead s src c
  let s := { s with cmds := { s.cmds with taken := s.cmds.taken ++ [c] } }
  match checkCommand s c with
  | some st => answer s c st
  | none => s

/-- COMMAND_TAKE (R357). -/
def execCommandTake (src : CmdSrc) (s : State) : Out :=
  match headOf s src with
  | some c => .next (when (mayTake s src) s (takeCommand s src c))
  | none => .next s

/-- A CMD packet reaches command processing (R301, R359): below 4 chunks it is skipped, and the CMD limit rises. -/
def cmdEnters (s : State) (p : PortN) (c : Cmd) : State :=
  let s := dropPkt s p (encodeCmd c)
  let s := count s (cPort p 21) 1
  if (c.chunks.getD 0).toNat < 4 then
    (skipPacket s p).modPort p (fun x => if x.stopped then x else
      { x with granted := tput zero x.granted 1 (tget zero x.granted 1 + 1), creditDue := true })
  else s.modPort p (fun x => { x with cmdQ := x.cmdQ ++ [{ c with src := .port p }] })

/-- A CMD packet is in the port's store, into which a new one comes now; the oldest goes on (R38). -/
def cmdArrives (s : State) (p : PortN) (c : Cmd) : State :=
  let s := received s p (encodeCmd c)
  match nextPkt s p 12 with
  | some e => if e.2 = usedBits (encodeCmd c) then cmdEnters s p c else s
  | none => s

/-- CMD (R301). -/
def execCmd (p : PortN) (c : Cmd) (s : State) : Out :=
  .next (when (takesReq s p (encodeCmd c)) s (cmdArrives s p c))

end Sys2Proof.Machine
end

