-- ==== Sys2Proof/Machine/WardRows.lean ====
section
/-! DEFINITION. Regulation windows of the Ward: live budget (R204, R215), cuts (R218), suspensions (R219), their
events (R220), the admitted values in force (R221), and the evaluation of a window (R211, R212, R214). -/

namespace Sys2Proof.Machine

open Sys2Proof

/-! ## Budget (R204, R215) -/

def ceilDiv (a b : Nat) : Nat := (a + b - 1) / b

/-- Highest band among the tumbler's refreshed slices (R204). -/
def topBand (s : State) (t : Nat) : Nat :=
  foldUpTo s.part.leaves (fun m l => if refreshed s t l then max m (bandOf s t l) else m) 0

/-- K(t) for a band and a rate, units per µs (R204, R131). -/
def capacityAt (band r : Nat) : Nat :=
  if 3 ≤ band then 0 else 295473 * pick3 r 4 3 2 * [975, 950, 880].getD band 0 / 400000

/-- The tumbler is in the emergency band or in latch-out: its capacity is 0 (R204). -/
def noCapacity (s : State) (t : Nat) : Bool :=
  (s.tum t).mode.emergency || tstate s t = .latchOut || decide (3 ≤ topBand s t)

/-- K(t) at the band and the rate in force. -/
def capacity (s : State) (t : Nat) : Nat := if noCapacity s t then 0 else capacityAt (topBand s t) (rateOf s t)

/-- Lines that one scrub pass reads (R153). -/
def scrubLines (s : State) (t : Nat) : Nat :=
  let active := (List.range s.part.leaves).filter (fun l => roleOf s t l == 0)
  let swap := match (s.tum t).swap with
    | some x => x.ptr
    | none => 0
  active.length * 8388608 + swap

def dHam (s : State) (t r : Nat) : Nat := ceilDiv (1600 * actUnits r) (max 1 (fld s (tumReg t 0x28) 13 0))
def dScrub (s : State) (t r : Nat) : Nat :=
  ceilDiv (scrubLines s t * (16 + actUnits r)) (16 * max 1 (fld s (tumReg t 0x40) 7 0) * 3600000000)
def dSweep (r : Nat) : Nat := ceilDiv (15625 * (32 + actUnits r)) 1600
/-- D_copy at a BUDGET and a rate. -/
def dCopyAt (budget r : Nat) : Nat := ceilDiv (64 * budget * pick3 r 4 3 2) 4
def planMirror (s : State) : Nat := fld s (wrdReg 4) 27 16
def dMgmt : Nat := 2

/-- Live D_copy: BUDGET in force while a swap runs in the tumbler, and at least the planned value. -/
def dCopyLive (s : State) (t r : Nat) : Nat :=
  max (dCopyAt (fld s (wrdReg 4) 7 2) r) (if (s.tum t).swap.isSome then dCopyAt (fld s (tumReg t 0x54) 5 0) r else 0)

/-- Live D_mirror: `units` pair-engine units in a window of `ticks` ticks, and at least the planned value. -/
def dMirrorLive (s : State) (units ticks : Nat) : Nat := max (planMirror s) (ceilDiv (units * 25) (4 * max 1 ticks))

/-- B_live(t), 0 where negative (R215, R218); `mir` is D_mirror. -/
def liveBudget (s : State) (t mir : Nat) : Nat :=
  let r := rateOf s t
  capacity s t - (dHam s t r + dScrub s t r + dSweep r + dCopyLive s t r + mir + dMgmt)

/-! ## Planned budget and admission (R215 to R217) -/

/-- Higher band and lower rate of the tumbler's own and the planned ones. -/
def planBand (s : State) (t : Nat) : Nat := max (topBand s t) (fld s (wrdReg 4) 1 0)
def planRate (s : State) (t : Nat) : Nat := max (rateOf s t) (fld s (wrdReg 4) 9 8)
def planCapacity (s : State) (t : Nat) : Nat :=
  if noCapacity s t then 0 else capacityAt (planBand s t) (planRate s t)
/-- The planned deductions of R215. -/
def planDeductions (s : State) (t : Nat) : Nat :=
  let r := planRate s t
  dHam s t r + dScrub s t r + dSweep r + dCopyAt (fld s (wrdReg 4) 7 2) r + planMirror s + dMgmt

/-- B_plan(t), which may be negative (R215). -/
def planBudget (s : State) (t : Nat) : Int := Int.ofNat (planCapacity s t) - Int.ofNat (planDeductions s t)

/-- L0 in ns (R217). -/
def l0Of (band r : Nat) : Nat := pick3 r 440 460 500 + if 2 ≤ band then 60 else 0

/-- Condition of R217 for a sum `n` of units, a capacity, an L0 and a BOUND: U ≤ 0.8 and BOUND ≥ L0 / (1 − U). -/
def latencyFits (n k l0 bound : Nat) : Bool := decide (0 < k) && decide (5 * n ≤ 4 * k) && decide (l0 * k ≤ bound * (k - n))

/-- Admitted units of a class: FLOOR or RATE (R216). -/
def admittedUnits (a : Admitted) : Nat :=
  if a.guar = 1 then a.floor.toNat else if a.guar = 2 then bits a.lat.toNat 27 16 else 0
def boundOf (a : Admitted) : Nat := bits a.lat.toNat 15 0

/-- Values that the registers of class `c` hold now. -/
def classRegs (s : State) (c : Nat) : Admitted :=
  let o := wrdReg (0x1000 + 16 * c)
  { guar := BitVec.ofNat 2 (fld s o 3 2), prio := BitVec.ofNat 2 (fld s o 1 0),
    floor := BitVec.ofNat 12 (fld s (o + 4) 11 0), lat := rd s (o + 8) }

/-- Classes of which a configuration register differs from its reset value. -/
def configured (s : State) : List Nat :=
  ((s.csr.filter (fun e => decide (wrdReg 0x1000 ≤ e.1) && decide (e.1 < wrdReg 0x2000))).map
    (fun e => (e.1 - wrdReg 0x1000) / 16)).eraseDups

/-- The guaranteed classes of a list of classes with their values. -/
def guaranteedOf (l : List (Nat × Admitted)) : List (Nat × Admitted) := l.filter (fun e => e.2.guar != 0)

/-- A set of guarantees is admissible (R216, R217). -/
def admissible (s : State) (l : List (Nat × Admitted)) : Bool :=
  let g := guaranteedOf l
  let total : Nat := (g.map (fun e => admittedUnits e.2)).foldl (· + ·) 0
  (List.range 64).all (fun t =>
    !(tstate s t = .online || tstate s t = .light || tstate s t = .quiet) ||
      (decide (Int.ofNat total ≤ planBudget s t) && g.all (fun e =>
        e.2.guar != 2 ||
          let n := ((g.filter (fun d => decide (e.2.prio.toNat ≤ d.2.prio.toNat))).map
            (fun d => admittedUnits d.2)).foldl (· + ·) 0
          let n := n + dSweep (planRate s t) + planMirror s + (if e.2.prio.toNat < 2 then dMgmt else 0)
          latencyFits n (planCapacity s t) (l0Of (planBand s t) (planRate s t)) (boundOf e.2))))

/-! ## Cuts and suspensions (R218, R219) -/

/-- The cut of R218: what is to be cut still, and the effective values so far, priority by priority. -/
def cutClasses (g : List (Nat × Admitted)) (b : Nat) : List (Nat × Nat) :=
  let full := g.map (fun e => (e.1, admittedUnits e.2))
  let total := (full.map (·.2)).foldl (· + ·) 0
  (foldUpTo 4 (fun (x : Nat × List (Nat × Nat)) p =>
    let mine := g.filter (fun e => e.2.prio.toNat == p)
    let n := (mine.map (fun e => admittedUnits e.2)).foldl (· + ·) 0
    if x.1 = 0 ∨ n = 0 then x
    else
      let cut := min x.1 n
      (x.1 - cut, x.2.map (fun e => if mine.any (fun d => d.1 == e.1) then (e.1, e.2 * (n - cut) / n) else e)))
    (total - b, full)).2

/-- A latency class with the effective values `eff` is suspended in tumbler `t` (R219); with K = 0 it is cut and not suspended
(log 39). -/
def suspended (s : State) (t mir : Nat) (g : List (Nat × Admitted)) (eff : List (Nat × Nat)) (c : Nat × Admitted) :
    Bool :=
  let val (k : Nat) : Nat := ((eff.find? (fun e => e.1 == k)).map (·.2)).getD 0
  let n := ((g.filter (fun d => decide (c.2.prio.toNat ≤ d.2.prio.toNat))).map (fun d => val d.1)).foldl (· + ·) 0
  let n := n + dSweep (rateOf s t) + mir + (if c.2.prio.toNat < 2 then dMgmt else 0)
  c.2.guar == 2 && capacity s t != 0 &&
    !latencyFits n (capacity s t) (l0Of (topBand s t) (rateOf s t)) (boundOf c.2)

/-- R218 to R220 are applied to the tumbler. -/
def guarded (s : State) (t : Nat) : Bool := tstate s t != .offline && tstate s t != .initSweep

/-- Effective values of the classes in tumbler `t`, those below admitted only. -/
def effTum (s : State) (t mir : Nat) (g : List (Nat × Admitted)) : List (Nat × Eff) :=
  let e := cutClasses g (liveBudget s t mir)
  g.filterMap (fun c =>
    let v := ((e.find? (fun x => x.1 == c.1)).map (·.2)).getD 0
    let cut := decide (v < admittedUnits c.2)
    let su := suspended s t mir g e c
    if cut || su then some (c.1, { cut := cut, susp := su, held := false, val := if su then 0 else v }) else none)

def noEff : Nat → Eff := fun _ => { cut := false, susp := false, held := false, val := 0 }

/-- Classes with an entry in a table of effective values. -/
def effClasses (e : Tab Eff) (f : Eff → Bool) : List Nat :=
  ((e.filter (fun x => f x.2)).map (fun x => x.1 % 256)).eraseDups

/-! ## Window start -/

/-- Accesses that wait before the queue when a window ends, by tumbler and class, one unit a line; those that wait at QMAX or
SMAX are left out (R211). -/
def waitEstimate (s : State) : List (Nat × Nat × Nat) :=
  s.waiting.filterMap (fun a =>
    if !classed a then none else
    let c := a.cls.toNat
    let full := decide (fld s (shareReg c 0) 25 16 ≤ ((entryHolders s a.tum).filter (· = c)).length)
      || (!isRead a && decide (fld s (shareReg c 4) 25 16 ≤ ((slotHolders s a.tum).filter (· = c)).length))
    if full then none else some (a.tum.val, c, lineCount a))

/-- Part of the window that ends at tick `e` in which tumbler `t` paused. -/
def pauseOf (s : State) (t e : Nat) : Nat :=
  let x := s.tum t
  x.pause + match x.pauseSince with
    | some b => e - max b s.ward.winStart
    | none => 0

/-- The current window as it ends at tick `e`. -/
def windowEnded (s : State) (e : Nat) : WardWin :=
  { start := s.ward.winStart, len := s.ward.winLen, admitted := s.ward.admitted, eff := s.ward.eff,
    pauses := foldUpTo 64 (fun m t => tput zero m t (pauseOf s t e)) [], waits := waitEstimate s, recs := [] }

/-- The windows move on by one at a boundary of the timebase (R37, R214, R221): the window that ends becomes the previous one,
and the one before it waits for its evaluation with what its accesses have reached. -/
def rotateWindow (s : State) : State :=
  let w := s.ward
  let start := w.winStart + w.winLen
  let n := max 1 (fld s (wrdReg 0) 15 0)
  let ended := windowEnded s start
  let s := foldUpTo 64 (fun s t => s.modTum t (fun x => { x with pause := 0 })) s
  { s with ward := { w with
      winStart := start
      winLen := n - start % n
      begun := false
      prev := some ended
      dues := w.dues ++ (w.prev.map (fun p => { p with recs := w.log.filter (fun r => r.window == p.start) })).toList
      admitted := (configured s).foldl (fun m c => tput (fun _ => Admitted.init) m c (classRegs s c)) []
      log := w.log.filter (fun r => decide (w.winStart ≤ r.window))
      served := []
      mirror := []
      mirrorPrev := w.mirror
      masters := [] } }

/-- The timebase has reached the end of the current window: the next one is under way. -/
def wardTick (s : State) : State :=
  if s.ward.winStart + s.ward.winLen ≤ s.now.toNat then rotateWindow s else s

/-- WRD_TUM(t) (R226). -/
def wardTum (s : State) (t mir : Nat) (cut : Bool) : State :=
  if !(s.tum t).mode.everOnline then wr s (wrdReg (0x400 + 4 * t)) 0
  else wr s (wrdReg (0x400 + 4 * t)) (BitVec.ofNat 32 (b2n cut * 2 ^ 31 + capacity s t * 2 ^ 16 + liveBudget s t mir))

/-- Computes the effective values of every tumbler (R218, R219); those of a tumbler to which they are not applied stay. -/
def applyCuts (s : State) : State :=
  let g := guaranteedOf s.ward.admitted
  let ticks := (s.ward.prev.map (·.len)).getD 0
  foldUpTo 64 (fun s t =>
    let mir := dMirrorLive s (tget zero s.ward.mirrorPrev t) ticks
    if !guarded s t then
      wardTum { s with ward := { s.ward with
        eff := s.ward.eff.map (fun x => if x.1 / 256 = t then (x.1, { x.2 with held := true }) else x) } } t mir false
    else
      let e := effTum s t mir g
      let cut := e.any (fun x => x.2.cut)
      let kept := s.ward.eff.filter (fun x => x.1 / 256 != t)
      let eff := e.foldl (fun m x => tput noEff m (256 * t + x.1) x.2) kept
      let s := count { s with ward := { s.ward with eff := eff } } (cTum t 31) (b2n cut)
      wardTum s t mir cut) s

/-- Guaranteed classes of `l` that a table of effective values shows below their admitted value where `f` holds. -/
def shortIn (l : Tab Admitted) (e : Tab Eff) (f : Eff → Bool) : List Nat :=
  (effClasses e f).filter (fun c => (guaranteedOf l).any (fun x => x.1 == c))

/-- Bit of WRD_SHORT_MAP or WRD_MISS_MAP of a class, set or cleared. -/
def classBit (s : State) (base c : Nat) (b : Bool) : State :=
  setF s (wrdReg (base + 4 * (c / 32))) (c % 32) (c % 32) (b2n b)

/-- Raises an event source of R220 where `l` is not empty, with its WRD_EVT_STAT bit. -/
def wardEvent (s : State) (l : List Nat) (src i : Nat) : State :=
  if l.isEmpty then s else setF (raise s src 0) (wrdReg 0x10) i i 1

/-- EFF_MIN of a class: the least over the tumblers that are online, Light or Quiet; a free value with none (log 40). -/
def effMin (s : State) (c : Nat) : Nat × State :=
  let on := (List.range 64).filter (fun t =>
    tstate s t = .online || tstate s t = .light || tstate s t = .quiet || tstate s t = .busy)
  match on.map (fun t => effOf s t c) with
  | [] => let (f, s) := fresh s; (bits f.toNat 11 0, s)
  | a :: r => (r.foldl min a, s)

/-- EFF_MIN and SUSP of WRD_CLASS_STAT (R227). -/
def classStat (s : State) (c : Nat) : State :=
  let o := wrdReg (0x100C + 16 * c)
  let su := s.ward.eff.any (fun x => x.1 % 256 == c && x.2.susp && !x.2.held)
  let (m, s) := effMin s c
  setF (setF s o 11 0 m) o 12 12 (b2n su)

/-- Events, maps, counters and class status at a window start (R220, R422), against the previous window `p`. A value kept from
before a tumbler went offline counts for restoration alone. -/
def wardReports (s : State) (p : WardWin) : State :=
  let now (f : Eff → Bool) : List Nat := shortIn s.ward.admitted s.ward.eff f
  let was (f : Eff → Bool) : List Nat := shortIn p.admitted p.eff f
  let live (x : Eff) : Bool := !x.held
  let down (x : Eff) : Bool := x.susp && !x.held
  let below (l : Tab Admitted) (c : Nat) : Bool := (guaranteedOf l).any (fun x => x.1 == c && admittedUnits x.2 != 0)
  let short := (now live).filter (fun c =>
    below s.ward.admitted c && !((was live).contains c && below p.admitted c))
  let back := (was (fun _ => true)).filter (fun c => !(now (fun _ => true)).contains c)
  let s := wardEvent s short 0x280 0
  let s := wardEvent s ((now down).filter (fun c => !(was down).contains c)) 0x281 2
  let s := wardEvent s back 0x282 3
  let s := (now (fun _ => true)).foldl (fun s c => classBit s 0x3020 c true) s
  let s := back.foldl (fun s c => classBit s 0x3020 c false) s
  let s := (now live).foldl (fun s c => count s (cWard c 1) 1) s
  let s := (now down).foldl (fun s c => count s (cWard c 3) 1) s
  let gone := (guaranteedOf p.admitted).filter (fun e => !(guaranteedOf s.ward.admitted).any (fun d => d.1 == e.1))
  let s := gone.foldl (fun s e => setF s (wrdReg (0x100C + 16 * e.1)) 12 0 0) s
  (guaranteedOf s.ward.admitted).foldl (fun s e => classStat s e.1) s

/-- The window before the current one; with none, one in which nothing was admitted. -/
def prevWindow (s : State) : WardWin :=
  s.ward.prev.getD { start := 0, len := 0, admitted := [], eff := [], pauses := [], waits := [], recs := [] }

/-- The computation of a regulation window's start, once in a window. -/
def windowStart (s : State) : State :=
  let s := applyCuts s
  let g := guaranteedOf s.ward.admitted
  let s := { s with ward := { s.ward with
    begun := true, eff := s.ward.eff.filter (fun x => g.any (fun e => e.1 == x.1 % 256)) } }
  wardReports s (prevWindow s)

/-- WARD_WINDOW_START (R218 to R221): the Ward computes budgets, cuts and reports for the window under way (log 41). -/
def execWardWindowStart (s : State) : Out := .next (when (haspLive s && !s.ward.begun) s (windowStart s))

/-! ## Evaluation (R211, R212, R214, R220) -/

/-- Effective units of class `c` in tumbler `t` in the window under evaluation. -/
def effPrevOf (d : WardWin) (t c : Nat) (a : Admitted) : Nat :=
  match d.eff.find? (fun e => e.1 == 256 * t + c) with
  | some e => e.2.val
  | none => admittedUnits a

/-- First accesses, in order of entry, that stay within `cap` units of 1/25: their number and how many were slow (R212). -/
def firstAccesses (l : List WardRec) (cap bound : Nat) : Nat × Nat :=
  let x := l.foldl (fun (x : Nat × Nat × Nat × Bool) r =>
    let u := x.1 + r.units
    if x.2.2.2 || decide (cap < u * 25) then (x.1, x.2.1, x.2.2.1, true)
    else
      let slow := match r.latency with
        | some n => decide (bound < n)
        | none => true
      (u, x.2.1 + 1, x.2.2.1 + b2n slow, false)) (0, 0, 0, false)
  (x.2.1, x.2.2.1)

/-- Divisor of 1 − q for a PCT (R227). -/
def pctDiv (p : Nat) : Nat := [100, 1000, 10000].getD p 10000

/-- Class `c` failed its guarantee in tumbler `t` in window `d`. -/
def missedIn (s : State) (d : WardWin) (t c : Nat) (a : Admitted) : Bool :=
  let e := effPrevOf d t c a
  let avail := d.len - tget zero d.pauses t
  let recs := d.recs.filter (fun r => r.tum == t && r.cls == c && !r.excluded)
  if e = 0 ∨ guarded s t = false then false
  else if a.guar = 1 then
    let wait := (d.waits.filter (fun x => x.1 == t && x.2.1 == c)).foldl (fun n x => n + x.2.2) 0
    let offered := recs.foldl (fun n r => n + r.units) wait
    let served := (recs.filter (fun r => r.latency.isSome)).foldl (fun n r => n + r.units) 0
    decide (served * 25 < min (e * avail * 4) (offered * 25))
  else if a.guar = 2 then
    let (n, slow) := firstAccesses recs (e * avail * 4) (boundOf a)
    decide (n / pctDiv (bits a.lat.toNat 29 28) < slow)
  else false

/-- A class missed its guarantee in the window (R220). -/
def missClass (s : State) (c : Nat) : State :=
  let o := wrdReg (0x100C + 16 * c)
  let s := setF s o 31 24 (min 255 (fld s o 31 24 + 1))
  count (classBit s 0x3000 c true) (cWard c 2) 1

/-- Window `d` is evaluated. -/
def evaluateWindow (s : State) (d : WardWin) : State :=
  let bad := ((guaranteedOf d.admitted).filter (fun e => (List.range 64).any (fun t => missedIn s d t e.1 e.2))).map (·.1)
  bad.foldl missClass (wardEvent s bad 0x283 1)

/-- WINDOW_EVALUATION (R214): the oldest window whose next window has ended is evaluated, once (log 41). -/
def execWindowEvaluation (s : State) : Out :=
  match s.ward.dues with
  | d :: r => .next (when (haspLive s) s (evaluateWindow { s with ward := { s.ward with dues := r } } d))
  | [] => .next s

end Sys2Proof.Machine
end

