-- ==== Sys2Proof/Machine/TableCmds.lean ====
section
/-! DEFINITION. Commands on the tables of Hasp: NOP, MEM_READ and MEM_WRITE (R366), initiators, flows and keys (R52 to
R60), administrative rights (R386), and the Ward's classes, guarantees and plan (R216 to R228, R375). -/

namespace Sys2Proof.Machine

open Sys2Proof

/-- Bits [hi:lo] of P0 and of P1. -/
def p0 (c : Cmd) (hi lo : Nat) : Nat := bits c.p0.toNat hi lo
def p1 (c : Cmd) (hi lo : Nat) : Nat := bits c.p1.toNat hi lo

/-- NOP (R363). -/
def execNop (c : Cmd) (s : State) : Out := runCmd s c 0x0000 (fun s => reply s c rcSuccess s.now.toNat [])

/-! ## MEM_READ and MEM_WRITE (R366) -/

/-- Checks of R366. -/
def memFails (c : Cmd) : List (Bool × BitVec 16) :=
  let n := p0 c 56 32
  [(p0 c 17 0 == 0 || n % 64 != 0 || decide (n < 64) || decide (16777216 < n), rcBadValue),
   (p1 c 39 0 % 64 != 0 || c.p2.toNat % 64 != 0, rcBadAlign)]

/-- The lines of a transfer wait before the queue, each for its turn. -/
def startDma (s : State) (c : Cmd) (write : Bool) (data : List Line) : State :=
  let n := p0 c 56 32 / 64
  let id := s.nextId
  let s := { begin s c with
    nextId := id + 1
    dmas := s.dmas ++ [{ id := id, cmd := c, lines := n, done := 0, poisoned := 0, busy := false }] }
  foldUpTo n (fun s i =>
    let a := p1 c 39 0 + 64 * i
    let x := newAccess s (if write then .write else .read64) (.master .dma) (BitVec.ofNat 40 a)
    { s with
      nextId := s.nextId + 1
      waiting := s.waiting ++ [{ x with
        flow := BitVec.ofNat 18 (p0 c 17 0)
        op1 := BitVec.ofNat 64 id
        op2 := if 2 ^ 40 ≤ a then 1 else 0
        be := if write then BitVec.allOnes 64 else 0
        data := data.getD i 0 }] }) s

/-- MEM_READ (R366). -/
def execMemRead (c : Cmd) (s : State) : Out :=
  runCmd s c 0x0003 (fun s => orFail s c (memFails c) (startDma s c false []))

/-- MEM_WRITE (R366). -/
def execMemWrite (c : Cmd) (data : List Line) (s : State) : Out :=
  runCmd s c 0x0004 (fun s => orFail s c (memFails c) (startDma s c true data))

/-! ## Initiators (R52, R368) -/

/-- Flows that are open or closing. -/
def openFlows (s : State) : List Nat :=
  (s.csr.filter (fun e => inArr (flwReg 0 0) 32 262144 e.1 && bits e.2.toNat 31 30 != 0)).map
    (fun e => (e.1 - flwReg 0 0) / 32)

/-- The subscriptions of initiator `i` on ports outside `keep` end (R368). -/
def endSubs (s : State) (i keep : Nat) : State :=
  { s with cmds := { s.cmds with subs := s.cmds.subs.filter (fun e =>
      match e.2 with
      | some x => !(x.initiator.toNat == i && !bit keep x.port.toNat)
      | none => false) } }

/-- INIT_DEFINE (R52). -/
def initDefined (s : State) (c : Cmd) : State :=
  let i := p0 c 11 0
  let valid := p0 c 16 16
  let ports := p0 c 47 32
  let keep := if valid = 1 then ports else 0
  orFail s c [((openFlows s).any (fun f => flwInit s f == i && !bit keep (flwPort s f)), rcInUse)]
    (answer (endSubs (wr s (keyInit i) (BitVec.ofNat 32 (valid * 2 ^ 31 + ports))) i keep) c rcSuccess)

def execInitDefine (c : Cmd) (s : State) : Out := runCmd s c 0x0100 (fun s => initDefined s c)

/-! ## Flows (R53 to R56) -/

/-- The flow enters the open state (R54, R55). -/
def openFlow (s : State) (f : Nat) (port init key cls : Nat) : State :=
  let s := wr s (flwReg f 0) (BitVec.ofNat 32 (2 ^ 30 + port * 2 ^ 24 + init * 2 ^ 12 + key))
  let s := wr s (flwReg f 1) (BitVec.ofNat 32 cls)
  let s := wr s (flwReg f 3) 0
  wr (wr s (flwReg f 4) (BitVec.ofNat 32 s.now.toNat)) (flwReg f 5) (BitVec.ofNat 32 (s.now.toNat / 2 ^ 32))

/-- FLOW_OPEN (R55). -/
def flowOpened (s : State) (c : Cmd) : State :=
  let f := p0 c 17 0
  let port := p0 c 27 24
  let init := p0 c 43 32
  let key := p0 c 59 48
  orFail s c
    [(f == 0, rcBadValue), (flwState s f != 0, rcInUse),
     (!initOn s init port || !flag s (keyHdr key) 31, rcBadRef)]
    (answer (openFlow s f port init key (p1 c 7 0)) c rcSuccess)

def execFlowOpen (c : Cmd) (s : State) : Out := runCmd s c 0x0101 (fun s => flowOpened s c)

/-- A closing flow with nothing outstanding is closed, and its command answered (R56). -/
def closeFlow (s : State) (f : Nat) : State :=
  match s.cmds.closing.find? (fun e => e.1.toNat == f) with
  | none => s
  | some e =>
    if fld s (flwReg f 2) 15 0 ≠ 0 then s
    else
      let s := { s with cmds := { s.cmds with closing := s.cmds.closing.filter (fun x => x.1.toNat != f) } }
      answer (setF s (flwReg f 0) 31 30 0) e.2 rcSuccess

/-- FLOW_CLOSE (R56). -/
def flowClosed (s : State) (c : Cmd) : State :=
  let f := p0 c 17 0
  if f = 0 then answer s c rcBadValue
  else if flwState s f = 0 then answer s c rcSuccess
  else
    let s := setF (begin s c) (flwReg f 0) 31 30 2
    closeFlow { s with cmds := { s.cmds with closing := s.cmds.closing ++ [(BitVec.ofNat 18 f, c)] } } f

def execFlowClose (c : Cmd) (s : State) : Out := runCmd s c 0x0102 (fun s => flowClosed s c)

/-- FLOW_CLOSE_DONE (R56). -/
def execFlowCloseDone (f : BitVec 18) (s : State) : Out := .next (when (running s) s (closeFlow s f.toNat))

/-! ## Keys (R57 to R60) -/

/-- A key change is answered once every request checked against the old contents has completed (R60). -/
def keySettled (s : State) (k : Nat) : State :=
  match s.cmds.keyWait.find? (fun e => e.1.toNat == k) with
  | none => s
  | some e =>
    if s.live.any (fun x => e.2.2.contains x.1) then s
    else
      let s := { s with cmds := { s.cmds with keyWait := s.cmds.keyWait.filter (fun x => x.1.toNat != k) } }
      reply s e.2.1 rcSuccess (if e.2.1.opcode = 0x0103 then fld s (keyHdr k) 7 0 else 0) []

/-- The contents of key `k` change at one point: header, and the extents' FIRST and HI words (R57, R60). -/
def changeKey (s : State) (c : Cmd) (k : Nat) (valid : Bool) (ext : Nat → Nat × Nat) : State :=
  let ids := (s.live.filter (fun x => x.2.2.toNat == k)).map (·.1)
  let v := (fld s (keyHdr k) 7 0 + 1) % 256
  let s := wr (begin s c) (keyHdr k) (BitVec.ofNat 32 (b2n valid * 2 ^ 31 + v))
  let s := foldUpTo 8 (fun s n =>
    wr (wr s (keyLo k n) (BitVec.ofNat 32 (ext n).1)) (keyHi k n) (BitVec.ofNat 32 (ext n).2)) s
  keySettled { s with cmds := { s.cmds with keyWait := s.cmds.keyWait ++ [(BitVec.ofNat 12 k, c, ids)] } } k

/-- An extent of KEY_DEFINE breaks R58. -/
def badExtent (s : State) (x : Nat) : Bool :=
  let n := bits x 32 16
  decide (65536 < n) || (n != 0 && decide (s.part.regions < bits x 15 0 + n))

/-- KEY_DEFINE (R58, R60). -/
def keyDefined (s : State) (c : Cmd) : State :=
  orFail s c [((List.range 8).any (fun n => badExtent s (extWord c n)), rcBadRange)]
    (changeKey s c (p0 c 11 0) true (fun n =>
      let x := extWord c n
      (bits x 15 0, bits x 32 16 + bits x 37 33 * 2 ^ 24)))

def execKeyDefine (c : Cmd) (s : State) : Out := runCmd s c 0x0103 (fun s => keyDefined s c)

/-- KEY_REVOKE (R57, R60). -/
def execKeyRevoke (c : Cmd) (s : State) : Out :=
  runCmd s c 0x0104 (fun s => changeKey s c (p0 c 11 0) false (fun _ => (0, 0)))

/-- KEY_CHANGE_DONE (R60). -/
def execKeyChangeDone (k : BitVec 12) (s : State) : Out := .next (when (running s) s (keySettled s k.toNat))

/-- ADMIN_SET (R386). -/
def execAdminSet (c : Cmd) (s : State) : Out :=
  runCmd s c 0x0105 (fun s =>
    let i := p0 c 11 0
    answer (setF s (adminReg (i / 32)) (i % 32) (i % 32) (p0 c 16 16)) c rcSuccess)

/-! ## The Ward (R216 to R228) -/

/-- The share register of class `c` at `o` may take RES and MAX; `guar` is the class's GUAR (R217, R228). -/
def shareOk (s : State) (c o res max guar : Nat) : Bool :=
  decide (res ≤ max) && decide (max ≤ 512) && decide (resTotal s o - fld s (shareReg c o) 8 0 + res ≤ 392)
    && (guar == 0 || decide (8 ≤ res))

/-- No guarantee that the registers hold breaks admissibility (R216, R375). -/
def admissibleNow (s : State) : Bool :=
  let l := (configured s).map (fun c => (c, classRegs s c))
  (guaranteedOf l).isEmpty || admissible s l

/-- Performs a change of the Ward's registers where the set that it leaves is admissible (R375). -/
def wardChange (s t : State) (c : Cmd) : State :=
  if admissibleNow t then answer t c rcSuccess else answer s c rcNotAdmissible

/-- CLASS_SET (R216, R227, R228). -/
def classDefined (s : State) (c : Cmd) : State :=
  let k := p0 c 7 0
  let o := wrdReg (0x1000 + 16 * k)
  let guar := fld s o 3 2
  let ok := shareOk s k 0 (p1 c 8 0) (p1 c 25 16) guar && shareOk s k 4 (p1 c 40 32) (p1 c 57 48) guar
  let t := setF (setF s o 1 0 (p0 c 9 8)) o 5 4 (p0 c 13 12)
  let t := wr t (shareReg k 0) (BitVec.ofNat 32 (p1 c 8 0 + p1 c 25 16 * 2 ^ 16))
  let t := wr t (shareReg k 4) (BitVec.ofNat 32 (p1 c 40 32 + p1 c 57 48 * 2 ^ 16))
  orFail s c [(!ok, rcBadValue)] (wardChange s t c)

def execClassSet (c : Cmd) (s : State) : Out := runCmd s c 0x0300 (fun s => classDefined s c)

/-- GUARANTEE_SET (R216, R217, R227). -/
def guaranteeDefined (s : State) (c : Cmd) : State :=
  let k := p0 c 7 0
  let o := wrdReg (0x1000 + 16 * k)
  let g := p0 c 9 8
  let few := decide (fld s (shareReg k 0) 8 0 < 8) || decide (fld s (shareReg k 4) 8 0 < 8)
  let t := setF s o 3 2 g
  let t := if g = 1 then setF t (o + 4) 11 0 (p1 c 11 0)
    else if g = 2 then wr t (o + 8) (BitVec.ofNat 32 (p1 c 33 32 * 2 ^ 28 + p1 c 11 0 * 2 ^ 16 + p1 c 31 16))
    else t
  orFail s c [(g == 3 || p1 c 33 32 == 3 || (g != 0 && few), rcBadValue)] (wardChange s t c)

def execGuaranteeSet (c : Cmd) (s : State) : Out := runCmd s c 0x0301 (fun s => guaranteeDefined s c)

/-- A value of WRD_PLAN is outside its ranges (R223). -/
def planBad (v : Nat) : Bool := bits v 1 0 == 3 || bits v 9 8 == 3 || decide (50 < bits v 7 2)

/-- MIRROR too low for a module that is not Unpaired (R319). -/
def mirrorLow (s : State) (v : Nat) : Bool := decide (bits v 27 16 < 16) && s.pair.state != .unpaired

/-- PLAN_SET (R216, R223, R319). -/
def planDefined (s : State) (c : Cmd) : State :=
  let v := p0 c 27 0
  orFail s c [(planBad v, rcBadValue), (mirrorLow s v, rcNotAdmissible)]
    (wardChange s (wrReg s (wrdReg 4) (BitVec.ofNat 32 v) 0) c)

def execPlanSet (c : Cmd) (s : State) : Out := runCmd s c 0x0302 (fun s => planDefined s c)

end Sys2Proof.Machine
end

