-- ==== Sys2Proof/Machine/Store.lean ====
section
/-! DEFINITION. The two-slot stores of MRAM (R383, R464, R467): image slots and calibration slots, their checks, and the
layout of a calibration set (R469, log 12). -/

namespace Sys2Proof.Machine

open Sys2Proof

/-! ## Slots (R467) -/

/-- SEQ of the trailer at `a` where its CHECK fits the body (R467). -/
def trailerSeq (s : State) (body : List Byte) (a : Nat) : Option Nat :=
  let t := cellGet s.mram a 8
  let seq := leNat (t.take 4)
  if leNat (t.drop 4) = byteCrc (body ++ leBytes 4 seq) then some seq else none

/-- The valid slot with the highest SEQ. -/
def newestSlot (v0 v1 : Option Nat) : Option Nat :=
  match v0, v1 with
  | none, none => none
  | some _, none => some 0
  | none, some _ => some 1
  | some a, some b => some (if b ≤ a then 0 else 1)

/-- A 32-bit word of MRAM. -/
def mramU32 (s : State) (a : Nat) : Nat := leNat (cellGet s.mram a 4)

/-! ## Firmware images (R383) -/

def imgBase (k : Nat) : Nat := 0x400000 * k
def imgTrailer (k : Nat) : Nat := imgBase k + 0x3FFFF8
def imgVersion (s : State) (k : Nat) : Nat := mramU32 s (imgBase k + 4)
def imgLength (s : State) (k : Nat) : Nat := mramU32 s (imgBase k + 8)
def imgStart (s : State) (k : Nat) : Nat := mramU32 s (imgBase k + 16)

/-- The first `n` bytes of image slot `k`. -/
def imgBody (s : State) (k n : Nat) : List Byte := cellGet s.mram (imgBase k) n

/-- The image's own identification: magic, and a part mask that includes the part. -/
def imgIdent (s : State) (k : Nat) : Bool :=
  mramU32 s (imgBase k) == 0x4F4B5351 && bit (mramU32 s (imgBase k + 12)) s.part.code

/-- SEQ of image slot `k` where it holds a committed image; the body is the header's length (log 50). -/
def imgSeq (s : State) (k : Nat) : Option Nat :=
  let n := imgLength s k
  if imgIdent s k && decide (n ≤ 0x3FFFF8) then trailerSeq s (imgBody s k n) (imgTrailer k) else none

/-- The image slot that boot uses. -/
def bootImage (s : State) : Option Nat := newestSlot (imgSeq s 0) (imgSeq s 1)

/-! ## Calibration sets (R469) -/

def calBase (k : Nat) : Nat := 0xA00000 + 0x40000 * k

/-- Length of the body of a calibration set. -/
def calLength : Nat := 0x23000

/-- SEQ of calibration slot `k` where it is valid. -/
def calSeq (s : State) (k : Nat) : Option Nat :=
  let b := calBase k
  if mramU32 s b == 0x4C414351 && mramU32 s (b + 4) / 16 == (rd s 0).toNat / 16 then
    trailerSeq s (cellGet s.mram b calLength) (b + 0x3FFF8)
  else none

/-- The calibration slot that boot and CAL_RESTORE use. -/
def bestCal (s : State) : Option Nat := newestSlot (calSeq s 0) (calSeq s 1)

/-- Offsets of the parts of a set. -/
def calTrim (i : Nat) : Nat := 0x40 + 4 * i
def calCoef (i : Nat) : Nat := 0xA00 + 4 * i
def calIvr (r : Nat) : Nat := 0x1280 + 4 * r
def calDsk (t r w : Nat) : Nat := 0x1300 + 2048 * t + 336 * r + w
def calLvl (t r l : Nat) : Nat := 0x1300 + 2048 * t + 1008 + 68 * r + 2 * l
def calSets (t : Nat) : Nat := 0x1300 + 2048 * t + 1212
def calEq (p r l : Nat) : Nat := 0x21300 + 48 * p + 16 * r + l
def calStart : Nat := 0x21300 + 768
def calSpeed (m : Nat) : Nat := 0x21B00 + 2 * m

/-- `l` filled up with zeros to `n` bytes. -/
def padTo (n : Nat) (l : List Byte) : List Byte := l ++ List.replicate (n - l.length) 0

/-- Trim record `i` in force: leaves by zone, then Hasp, then Strike. -/
def trimInForce (s : State) (i : Nat) : Nat :=
  if i < 544 then
    if i / 16 < s.part.leaves then (rd s (lfReg (i / 16) (0x40 + 4 * (i % 16)))).toNat else 0
  else (tget zero s.calib.trims (i - 544)).toNat

def noCoef : Nat → Option (BitVec 16) := fun _ => none

/-- RTH and TAU of the 544 zones; a coefficient that no set has given has no stated bits and is a free value (log 12). -/
def coefBytes (s : State) : List Byte × State :=
  foldUpTo 544 (fun (u : List Byte × State) i =>
    let (f, s) := fresh u.2
    let a := (tget noCoef s.calib.rth i).getD (BitVec.ofNat 16 f.toNat)
    let b := (tget noCoef s.calib.tau i).getD (BitVec.ofNat 16 (f.toNat / 65536))
    (u.1 ++ leBytes 2 a.toNat ++ leBytes 2 b.toNat, s)) ([], s)

/-- TARGET of rail `r` in force, or of a ramp still running (R471). -/
def targetMv (s : State) (r : Nat) : Nat := fld s (senReg (0x100 + 4 * r)) 11 0

/-- The bus sets of one tumbler, 2,048 bytes. -/
def busBytes (s : State) (t : Nat) : List Byte :=
  padTo 2048
    ((List.range 3).flatMap (fun r => (List.range 336).map (fun w =>
        BitVec.ofNat 8 (fld s (tumReg t (0x2000 + 0x800 * r + 4 * w)) 5 0))) ++
     (List.range 3).flatMap (fun r => (List.range 34).flatMap (fun l =>
        leBytes 2 (if l < s.part.leaves then (rd s (tumReg t (0x3800 + 0x100 * r + 4 * l))).toNat else 0))) ++
     [BitVec.ofNat 8 (fld s (tumReg t 8) 10 8)])

/-- The body of the set in force. -/
def calBody (s : State) : List Byte × State :=
  let (coef, s) := coefBytes s
  (padTo calLength
    (padTo 0x40 (leBytes 4 0x4C414351 ++ leBytes 4 (rd s 0).toNat ++ leBytes 4 calLength) ++
     (List.range 624).flatMap (fun i => leBytes 4 (trimInForce s i)) ++ coef ++
     padTo 128 ((List.range 8).flatMap (fun r => leBytes 4 (targetMv s r))) ++
     (List.range 64).flatMap (busBytes s) ++
     padTo 2048 ((List.range 16).flatMap (fun p => (List.range 3).flatMap (fun r => (List.range 16).map (fun l =>
        BitVec.ofNat 8 (fld s (fpReg p (0x300 + 0x40 * r + 4 * l)) 4 0)))) ++ s.calib.start16.take 1280) ++
     padTo 5376 ((List.range 2256).flatMap (fun m => leBytes 2 (tget zero s.calib.speed m).toNat))), s)

end Sys2Proof.Machine
end

