-- ==== Sys2Proof/Machine/Calib.lean ====
section
/-! DEFINITION. Calibration (R468 to R471): plausibility limits, the runs of CAL_RUN, CAL_STORE and CAL_RESTORE. -/

namespace Sys2Proof.Machine

open Sys2Proof

/-! ## Limits (R468) -/

/-- The signed value of an 8-bit field. -/
def sx8 (v : Nat) : Int := (BitVec.ofNat 8 v).toInt

/-- OFFSET within ±8 °C and GAIN within ±2 % (R480). -/
def trimOk (offset gain : Int) : Bool :=
  decide (-64 ≤ offset) && decide (offset ≤ 64) && decide (-82 ≤ gain) && decide (gain ≤ 82)

/-- A reading in units of 0.25 °C under a trim, in °C (R480, log 51). -/
def trimmed (raw offset gain : Int) : Rat :=
  (raw : Rat) / 4 * (1 + (gain : Rat) / 4096) + (offset : Rat) / 8

/-- Some controller of rail `r` is frozen (R459). -/
def railFrozen (s : State) (r : Nat) : Bool :=
  (List.range 8).any (fun n => bit s.power.frozen.toNat n && (railsOf n).contains r)

/-- A set-point in the window of R438 and within 25 mV of the one in force. -/
def setpointOk (s : State) (r mv : Nat) : Bool :=
  let cur := fld s (senReg (0x100 + 4 * r)) 27 16
  decide (railLow r ≤ mv) && decide (mv ≤ railHigh r) && decide (mv ≤ cur + 25) && decide (cur ≤ mv + 25)

/-- Controller that records for rail `r`. -/
def railSet (r : Nat) : FltSet := ownerSet (senReg (0x100 + 4 * r))

/-- An equaliser default within 8 codes of the one in force. -/
def eqDefOk (s : State) (p r l v : Nat) : Bool :=
  let cur := fld s (fpReg p (0x300 + 0x40 * r + 4 * l)) 4 0
  decide (v ≤ cur + 8) && decide (cur ≤ v + 8)

/-! ## CAL_RUN (R470) -/

/-- Trims of a kind-0 run by zone: OFFSET, GAIN and the zone's raw reading. -/
def runTrim (res : List Int) (z : Nat) : Int × Int × Int :=
  (res.getD (3 * z) 0, res.getD (3 * z + 1) 0, res.getD (3 * z + 2) 0)

/-- A zone's new trim meets the limits, and its retrimmed reading lies within 6 °C of the model. -/
def zoneOk (s : State) (l : Nat) (res : List Int) (z : Nat) : Bool :=
  let (o, g, raw) := runTrim res z
  let d := trimmed raw o g - (s.zone l z).model
  trimOk o g && decide (-6 ≤ d) && decide (d ≤ 6)

/-- The trims are in force; SENSOR_SUSPECT and SENSOR_FAIL end for the leaf (R457, R470). -/
def applyTrims (s : State) (l : LeafN) (res : List Int) : State :=
  let s := foldUpTo 16 (fun s z =>
    let (o, g, _) := runTrim res z
    let s := wr s (lfReg l (0x40 + 4 * z)) (BitVec.ofInt 8 g ++ BitVec.ofInt 8 o |>.zeroExtend 32)
    { s with thermal := { s.thermal with
        zones := tput noZone s.thermal.zones (16 * l + z) { s.zone l z with failed := false, missed := 0, okSince := none } } }) s
  condEnd (condEnd { s with thermal := { s.thermal with suspect := s.thermal.suspect.filter (· != l.val) } }
    (.leaf l) 1) (.leaf l) 2

/-- A run's value fails its limit: the record of R468 and 0x0504. -/
def calRejects (s : State) (c : Cmd) (b : FltSet) (cls : Nat) : State := answer (fault s b cls 0 1) c rcInternal

/-- Kind 0: `res` holds OFFSET, GAIN and raw reading of each zone. -/
def calLeaf (s : State) (c : Cmd) (l : Nat) (res : List Int) : State :=
  if (List.range 16).all (zoneOk s l res) then answer (applyTrims s (Fin.ofNat 34 l) res) c rcSuccess
  else calRejects s c .sen 7

/-- Kind 1: `res` holds the TARGET that gives the nominal value at the load, in mV. -/
def calRail (s : State) (c : Cmd) (r : Nat) (res : List Int) : State :=
  let mv := (res.getD 0 0).toNat
  if setpointOk s r mv then answer (setF s (senReg (0x100 + 4 * r)) 11 0 mv) c rcSuccess
  else calRejects s c (railSet r) 3

/-- Item `i` of a kind-2 run: first and last value of its pass range, and the least run of passing steps of one of its
wires, 0 with NONE or SPLIT. -/
def runRange (res : List Int) (i : Nat) : Nat × Nat × Nat :=
  ((res.getD (3 * i) 0).toNat, (res.getD (3 * i + 1) 0).toNat, (res.getD (3 * i + 2) 0).toNat)

/-- The midpoint of a pass range; which of two middle values is taken is free (log 52). -/
def midpoint (a b : Nat) (up : Bool) : Nat := (a + b + b2n up) / 2

/-- Every item of a kind-2 run passed at least 12 steps. -/
def busOk (s : State) (res : List Int) : Bool :=
  (List.range (336 + 2 * s.part.leaves)).all (fun i => decide (12 ≤ (runRange res i).2.2))

/-- The delay set of rate `r` from a run: wires, then RD_PHASE by leaf, then WR_DELAY by leaf. -/
def applyBus (s : State) (t r : Nat) (res : List Int) : State :=
  let (f, s) := fresh s
  let mid := fun i => midpoint (runRange res i).1 (runRange res i).2.1 (bit f.toNat 0)
  let s := foldUpTo 336 (fun s w => setF s (tumReg t (0x2000 + 0x800 * r + 4 * w)) 5 0 (mid w)) s
  foldUpTo s.part.leaves (fun s l =>
    let o := tumReg t (0x3800 + 0x100 * r + 4 * l)
    setF (setF s o 5 0 (mid (336 + l))) o 13 8 (mid (336 + s.part.leaves + l))) s

/-- What the sweeps of a full training order leave in the training registers (log 52). -/
def trainedRegs (s : State) (t r : Nat) (res : List Int) : State :=
  let o := tumReg t 0x108
  let s := setF (setF (setF s o 1 1 1) o 17 16 r) o 15 8 64
  let s := foldUpTo 320 (fun s w =>
    let (f, s) := fresh s
    wr s (tumReg t (0x400 + 4 * w)) (BitVec.ofNat 32 (f.toNat &&& 0x33F3F))) s
  let s := foldUpTo 16 (fun s w =>
    wr s (tumReg t (0x400 + 4 * (320 + w)))
      (BitVec.ofNat 32 ((runRange res (320 + w)).1 + 256 * (runRange res (320 + w)).2.1))) s
  let s := count s (cTum t 15) (2 + 2 * s.part.leaves)
  foldUpTo s.part.leaves (fun s l => count s (cLeaf l 7) (if l = 0 then 256 else 128)) s

/-- The delays in force of a rate's new set move toward it step by step (R468). -/
def beginMove (s : State) (t r : Nat) : State :=
  if rateOf s t = r && !s.calib.busMoving.contains t then
    { s with calib := { s.calib with busMoving := s.calib.busMoving ++ [t] } }
  else s

/-- Kind 2. -/
def calBus (s : State) (c : Cmd) (t r : Nat) (res : List Int) : State :=
  let s := trainedRegs s t r res
  if busOk s res then
    answer (beginMove (setF (applyBus s t r res) (tumReg t 8) (8 + r) (8 + r) 1) t r) c rcSuccess
  else calRejects s c .sen 7

/-- CODE of data lane `l` (R266). -/
def calEqCode (s : State) (p l : Nat) : Nat := fld s (fpReg p (0x200 + 4 * l)) 4 0

/-- Kind 3. -/
def calPort (s : State) (c : Cmd) (p r : Nat) : State :=
  let l := (List.range 16).filter (bit (rxLanes s p))
  if l.all (fun i => eqDefOk s p r i (calEqCode s p i)) then
    answer (l.foldl (fun s i => setF s (fpReg p (0x300 + 0x40 * r + 4 * i)) 4 0 (calEqCode s p i)) s) c rcSuccess
  else calRejects s c .sen 7

/-- A tumbler that kind 2 may train. -/
def calTumOk (s : State) (t : Nat) : Bool :=
  tstate s t = .online || tstate s t = .light || tstate s t = .quiet || tstate s t = .offline

/-- Checks of R470. -/
def calFails (s : State) (kind unit rate : Nat) : List (Bool × BitVec 16) :=
  [(decide (4 ≤ kind), rcBadValue),
   (decide ((kind = 0 ∧ 34 ≤ unit) ∨ (kind = 1 ∧ 8 ≤ unit) ∨ (kind = 3 ∧ 16 ≤ unit)), rcBadUnit),
   (kind == 2 && rate == 3, rcBadValue),
   (kind == 0 && decide (s.part.leaves ≤ unit), rcState),
   (kind == 1 && railFrozen s unit, rcState),
   (kind == 2 && !calTumOk s unit, rcState),
   (kind == 3 && (!carries s unit || fld s (fpReg unit 8) 3 2 != rate), rcState)]

/-- CAL_RUN (R470). -/
def execCalRun (c : Cmd) (res : List Int) (s : State) : Out :=
  runCmd s c 0x0503 (fun s =>
    let kind := p0 c 3 0
    let unit := p0 c 13 8
    let rate := p0 c 17 16
    orFail s c (calFails s kind unit rate)
      (if kind = 0 then calLeaf s c unit res
       else if kind = 1 then calRail s c unit res
       else if kind = 2 then calBus s c unit rate res
       else calPort s c unit rate))

/-! ## CAL_STORE (R471) -/

/-- Stores the set in force: body, then trailer (R467). Answers whether the trailer was written. -/
def storeCal (s : State) (ok : Bool) : State × Bool :=
  let (k, seq) := nextSlot (calSeq s 0) (calSeq s 1)
  let (b, s) := calBody s
  mramStore (mramPut s (calBase k) b) (calBase k + 0x3FFF8) (trailer b seq) ok

/-- CAL_STORE (R471). -/
def execCalStore (c : Cmd) (mramOk : Bool) (s : State) : Out :=
  runCmd s c 0x0504 (fun s => orFail s c [(s.mramFenced, rcMramFault)]
    (let (s, ok) := storeCal s mramOk
     answer s c (if ok then rcSuccess else rcMramFault)))

/-! ## Loading a set (R467, R468) -/

/-- `n` bytes of slot `b` at offset `o`, as a number. -/
def calNat (s : State) (b o n : Nat) : Nat := leNat (cellGet s.mram (b + o) n)

/-- Sensor trims; the Nat counts values that fail. -/
def loadTrims (b : Nat) (u : State × Nat) : State × Nat :=
  foldUpTo 624 (fun (u : State × Nat) i =>
    let v := calNat u.1 b (calTrim i) 4
    if i < 544 && decide (u.1.part.leaves ≤ i / 16) then u
    else if !trimOk (sx8 (bits v 7 0)) (sx8 (bits v 15 8)) then (u.1, u.2 + 1)
    else if i < 544 then (wr u.1 (lfReg (i / 16) (0x40 + 4 * (i % 16))) (BitVec.ofNat 32 (v % 65536)), u.2)
    else
      let s := u.1
      ({ s with calib := { s.calib with trims := tput zero s.calib.trims (i - 544) (BitVec.ofNat 16 v) } }, u.2)) u

/-- Model coefficients of the fitted zones. -/
def loadCoefs (b : Nat) (u : State × Nat) : State × Nat :=
  foldUpTo 544 (fun (u : State × Nat) i =>
    let s := u.1
    let r := BitVec.ofNat 16 (calNat s b (calCoef i) 2)
    let t := BitVec.ofNat 16 (calNat s b (calCoef i + 2) 2)
    let rOk := decide ((1 : Rat) / 100 ≤ Config.rthOf r) && decide (Config.rthOf r ≤ 2)
    let tOk := decide ((1000 : Rat) ≤ Config.tauOf t) && decide (Config.tauOf t ≤ 100000)
    if s.part.leaves ≤ i / 16 then u
    else
      let s := if rOk then { s with calib := { s.calib with rth := tput noCoef s.calib.rth i (some r) } } else s
      let s := if tOk then { s with calib := { s.calib with tau := tput noCoef s.calib.tau i (some t) } } else s
      (s, u.2 + b2n (!rOk) + b2n (!tOk))) u

/-- IVR set-points; a refused one is recorded by its controller. -/
def loadIvr (b : Nat) (u : State × Nat) : State × Nat :=
  foldUpTo 8 (fun (u : State × Nat) r =>
    let mv := calNat u.1 b (calIvr r) 4
    if setpointOk u.1 r mv && !railFrozen u.1 r then (setF u.1 (senReg (0x100 + 4 * r)) 11 0 mv, u.2)
    else (fault u.1 (railSet r) 3 0 1, u.2)) u

/-- The bus sets of every tumbler. -/
def loadBus (s : State) (b : Nat) : State :=
  foldUpTo 64 (fun s t =>
    let s := foldUpTo 3 (fun s r =>
      let s := foldUpTo 336 (fun s w => setF s (tumReg t (0x2000 + 0x800 * r + 4 * w)) 5 0 (calNat s b (calDsk t r w) 1)) s
      foldUpTo s.part.leaves (fun s l =>
        wr s (tumReg t (0x3800 + 0x100 * r + 4 * l)) (BitVec.ofNat 32 (calNat s b (calLvl t r l) 2 &&& 0x3F3F))) s) s
    beginMove (setF s (tumReg t 8) 10 8 (calNat s b (calSets t) 1)) t (rateOf s t)) s

/-- The default equaliser codes of the ports (R468). -/
def loadEq (b : Nat) (u : State × Nat) : State × Nat :=
  foldUpTo 768 (fun (u : State × Nat) i =>
    let v := calNat u.1 b (calEq (i / 48) (i / 16 % 3) (i % 16)) 1
    if decide (v < 32) && eqDefOk u.1 (i / 48) (i / 16 % 3) (i % 16) v then
      (setF u.1 (fpReg (i / 48) (0x300 + 0x40 * (i / 16 % 3) + 4 * (i % 16))) 4 0 v, u.2)
    else (u.1, u.2 + 1)) u

/-- Every deskew of the starting values lies within ±8 UI (R468). -/
def deskewOk (l : List Byte) : Bool :=
  (List.range 256).all (fun i => decide (-8 ≤ Config.startDeskew l i) && decide (Config.startDeskew l i ≤ 8))

/-- The 16 Gb/s starting values (R468). -/
def loadStart (b : Nat) (u : State × Nat) : State × Nat :=
  let s := u.1
  let l := cellGet s.mram (b + calStart) 1280
  if deskewOk l then ({ s with calib := { s.calib with start16 := l } }, u.2) else (s, u.2 + 1)

/-- Speed-monitor references: within 10 % of the value in force where there is one. -/
def loadSpeed (b : Nat) (u : State × Nat) : State × Nat :=
  foldUpTo 2256 (fun (u : State × Nat) m =>
    let s := u.1
    let v := calNat s b (calSpeed m) 2
    let cur := (tget zero s.calib.speed m).toNat
    if cur = 0 ∨ (9 * cur ≤ 10 * v ∧ 10 * v ≤ 11 * cur) then
      ({ s with calib := { s.calib with speed := tput zero s.calib.speed m (BitVec.ofNat 16 v) } }, u.2)
    else (s, u.2 + 1)) u

/-- The rejected values of a restored set are recorded; answers whether all of it was accepted. -/
def calLoaded (f : Bool) (u : State × Nat) : State × Bool :=
  (if u.2 = 0 then u.1 else fault u.1 .sen 7 0 u.2, u.2 = 0 && !f)

/-- Loads the set in slot `k` through R468; answers whether every value passed. -/
def loadCal (s : State) (k : Nat) : State × Bool :=
  let b := calBase k
  let bad := fun (s : State) => (List.range 8).any (fun r =>
    !(setpointOk s r (calNat s b (calIvr r) 4) && !railFrozen s r))
  let f := bad s
  calLoaded f (loadSpeed b (loadStart b (loadEq b (loadIvr b (loadCoefs b (loadTrims b (loadBus s b, 0)))))))

/-- CAL_RESTORE (R471). -/
def execCalRestore (c : Cmd) (s : State) : Out :=
  runCmd s c 0x0505 (fun s => orFail s c [((bestCal s).isNone, rcState)]
    (let (s, ok) := loadCal s ((bestCal s).getD 0)
     answer s c (if ok then rcSuccess else rcInternal)))

/-! ## Delays in force (R468) -/

/-- One step of a value toward another. -/
def toward (a b : Nat) : Nat := if a < b then a + 1 else if b < a then a - 1 else a

/-- One step of every wire and level of a tumbler toward the set of the rate in force. -/
def busStep (s : State) (t : Nat) : State :=
  let r := rateOf s t
  let x := s.tum t
  let w := foldUpTo 336 (fun m i =>
    tput noWire m i (BitVec.ofNat 6 (toward (tget noWire m i).toNat (fld s (dskReg t r i) 5 0)))) x.wires
  let l := foldUpTo s.part.leaves (fun m i =>
    let v := (tget noLevel m i).toNat
    let g := (lvlValue s t r i).toNat
    tput noLevel m i (BitVec.ofNat 12 (toward (v / 64) (g / 64) * 64 + toward (v % 64) (g % 64)))) x.levels
  let s := s.setTum t { x with wires := w, levels := l }
  let done := (List.range 336).all (fun i => (tget noWire w i).toNat == fld s (dskReg t r i) 5 0)
    && (List.range s.part.leaves).all (fun i => tget noLevel l i = lvlValue s t r i)
  if done then { s with calib := { s.calib with busMoving := s.calib.busMoving.filter (· != t) } } else s

/-- BUS_DELAY_STEP (R468). -/
def execBusDelayStep (t : Tum) (s : State) : Out :=
  .next (when (haspLive s && s.calib.busMoving.contains t.val) s (busStep s t))

/-- SPEED_MONITOR_READ (R463): drift beyond 3 % of the reference. -/
def execSpeedMonitorRead (m : Fin 2256) (freq : Nat) (s : State) : Out :=
  let ref := (tget zero s.calib.speed m.val).toNat
  let fitted := m.val < 64 || 2240 ≤ m.val || decide ((m.val - 64) / 64 < s.part.leaves)
  .next (when (fitted && haspLive s && ref != 0 && (decide (103 * ref < 100 * freq) || decide (100 * freq < 97 * ref))) s
    (fault (wr s (senReg 0x2C) (BitVec.ofNat 32 (2 ^ 31 + m.val))) .sen 6 0 1))

end Sys2Proof.Machine
end

