-- ==== Sys2Proof/Machine/CountRows.lean ====
section
/-! DEFINITION. The counter dump (R426 to R430), the persistent fault log (R409), and event subscriptions (R368). -/

namespace Sys2Proof.Machine

open Sys2Proof

/-! ## CNT_CONFIG (R430) -/

/-- A CNT_CONFIG takes effect and is answered. -/
def applyConfig (s : State) (c : Cmd) : State :=
  let s := wr s (cntReg 0) (BitVec.ofNat 32 (p0 c 16 16 * 2 ^ 31 + 2 ^ 16 + p0 c 15 0))
  answer (wr s (cntReg 4) (BitVec.ofNat 32 (p1 c 31 0))) c rcSuccess

/-- CNT_CONFIG (R430): behind a dump that is being written, or that a latch tick has begun, it waits. -/
def execCntConfig (c : Cmd) (s : State) : Out :=
  runCmd s c 0x0600 (fun s => orFail s c
    [(decide (s.part.regions ≤ p0 c 15 0), rcBadRange), (decide (p1 c 31 0 < 1250), rcBadValue)]
    (if s.dump.running || !s.dump.edges.isEmpty then begin { s with dump := { s.dump with config := s.dump.config ++ [c] } } c
     else applyConfig s c))

/-! ## The dump -/

/-- Value of slot `k` of the page (R426). -/
def pageSlot (s : State) (k : Nat) : Nat :=
  let d := s.dump
  match k with
  | 0 => d.n
  | 1 => d.tick % 2 ^ 48
  | 2 => d.tick / 2 ^ 48
  | 3 => (rd s (cntReg 4)).toNat
  | 4 => (rd s 0).toNat
  | 5 => d.skipped
  | 6 => d.failed
  | _ => if k < 16 then 0 else (tget zero d.snapshot k).toNat

/-- Line `i` of the page of the dump (R427). -/
def pageLine (s : State) (i : Nat) : Line :=
  BitVec.ofNat 512 (foldUpTo 8 (fun v j =>
    v + (pageSlot s (8 * i + j) % 2 ^ 48 + (0x8000 + s.dump.n % 32768) * 2 ^ 48) * 2 ^ (64 * j)) 0)

/-- The page's 2,304 lines wait before the queue, in ascending order (R428). -/
def queueDump (s : State) : State :=
  let base := fld s (cntReg 0) 15 0 * 2 ^ 24 + s.dump.n % 64 * 2 ^ 18
  foldUpTo 2304 (fun s i =>
    let x := newAccess s .write (.master .dump) (BitVec.ofNat 40 (base + 64 * i))
    { s with
      nextId := s.nextId + 1
      waiting := s.waiting ++ [{ x with be := BitVec.allOnes 64, data := pageLine s i }] }) s

/-- Latch tick `t` (R426): every slot is copied as it stood when the timebase reached the tick, and the dump starts. -/
def latchDump (s : State) (t : Nat) (counts : Tab (BitVec 48)) : State :=
  let n := s.dump.n + 1
  let s := { s with dump := { s.dump with running := true, n := n, tick := t, snapshot := counts } }
  queueDump (wr s (cntReg 0x10) (BitVec.ofNat 32 (64 + n % 64)))

/-- A latch tick during a dump is skipped and counted (R428). -/
def skipTick (s : State) : State :=
  count { s with dump := { s.dump with skipped := s.dump.skipped + 1 } } (cUsb 7) 1

/-- Dumping is enabled and possible. -/
def dumpOn (s : State) : Bool := running s && flag s (cntReg 0) 31 && !s.dump.fenced

/-- LATCH_TICK (R426): the oldest latch tick that the timebase has reached is taken; before one nothing happens. -/
def execLatchTick (s : State) : Out :=
  match s.dump.edges with
  | [] => .next s
  | (t, counts) :: r =>
    let s := { s with dump := { s.dump with edges := r } }
    .next (when (dumpOn s) s (if s.dump.running then skipTick s else latchDump s t counts))

/-- The timebase reaches a multiple of the period: the tick's counts are kept for LATCH_TICK, so that they hold every event
stamped before it and none after (R37). -/
def dumpTick (s : State) : State :=
  if dumpOn s && s.now.toNat % max 1 (rd s (cntReg 4)).toNat == 0 then
    { s with dump := { s.dump with edges := s.dump.edges ++ [(s.now.toNat, s.counts)] } }
  else s

/-- No dump line has still to complete. -/
def dumpQuiet (s : State) : Bool :=
  !s.waiting.any (fun a => a.src = .master .dump) &&
    (List.range 64).all (fun t => (s.tum t).q.queue.all (fun a => a.src ≠ .master .dump || a.answered))

/-- Waiting configurations take effect (R430). -/
def configNow (s : State) : State :=
  s.dump.config.foldl applyConfig { s with dump := { s.dump with config := [] } }

/-- The dump is over (R428); waiting configurations take effect (R430). -/
def dumpDone (s : State) : State :=
  let n := s.dump.n
  let s := setF (wr s (cntReg 8) (BitVec.ofNat 32 n)) (cntReg 0xC) 15 0 (n / 2 ^ 32)
  let s := setF s (cntReg 0x10) 6 6 0
  configNow (raise (count { s with dump := { s.dump with running := false } } (cUsb 5) 1) 0x288
    (n % 2 ^ 32 + n % 64 * 2 ^ 32))

/-- No dump runs or is begun, and a configuration waits: the dump that it waited for was skipped or stopped (R400). -/
def configDue (s : State) : Bool := !s.dump.running && s.dump.edges.isEmpty && !s.dump.config.isEmpty

/-- DUMP_COMPLETE (R428). -/
def execDumpComplete (s : State) : Out :=
  .next (when (dumpQuiet s) s
    (if s.dump.running then dumpDone s else if configDue s then configNow s else s))

/-! ## The persistent log (R407, R409) -/

/-- The 32 bytes of an entry (R407). -/
def entryBytes (e : Entry) : List Byte :=
  leBytes 8 e.time.toNat ++ leBytes 4 e.bseq.toNat ++ leBytes 2 e.source.toNat ++ leBytes 1 e.cls.toNat ++
    leBytes 1 (e.severity.toNat + 8 * b2n e.conseq + 16 * b2n e.escalated + 32 * b2n e.merged) ++
    leBytes 12 e.detail.toNat ++ leBytes 4 e.count.toNat

/-- Place in MRAM of log entry `n`. -/
def logPlace (n : Nat) : Nat := 0x800000 + 32 * (n % 65536)

/-- `a` is placed before `b` (R409): by time, then severity, then source. -/
def logBefore (a b : Entry) : Bool :=
  if a.time ≠ b.time then decide (a.time.toNat < b.time.toNat)
  else if a.severity ≠ b.severity then decide (b.severity.toNat < a.severity.toNat)
  else decide (a.source.toNat < b.source.toNat)

/-- The entry that the log places next: the best of the first entries of each set. -/
def logHead (l : List Entry) : Option Entry :=
  (l.zipIdx.filter (fun e => !(l.take e.2).any (fun f => f.source = e.1.source))).foldl (fun m e =>
    match m with
    | none => some e.1
    | some b => if logBefore e.1 b then some e.1 else some b) none

/-- Entries in log order. -/
def logOrder : Nat → List Entry → List Entry
  | 0, l => l
  | n + 1, l =>
    match logHead l with
    | some e => e :: logOrder n (l.erase e)
    | none => []

/-- The MRAM has power. -/
def mramUp (s : State) : Bool :=
  match s.power.mode with
  | .on | .draining _ => s.power.strikeUp
  | _ => false

/-- Appends the unwritten entries to the log. -/
def flushTail (s : State) : State :=
  (logOrder s.logTail.length s.logTail).foldl (fun s e =>
    let s := mramPut s (logPlace s.logSeq.toNat) (entryBytes e)
    { s with logSeq := s.logSeq + 1 }) { s with logTail := [] }

/-- LOG_FLUSH (R409); a write that fails its verify twice leaves the entries unwritten (R465). -/
def execLogFlush (mramOk : Bool) (s : State) : Out :=
  .next (when (mramUp s && !s.mramFenced && !s.logTail.isEmpty) s
    (if mramOk then flushTail s else (mramStore s (logPlace s.logSeq.toNat) [] false).1))

/-- Numbers of the entries held at or above `n`. -/
def logHeld (s : State) (n : Nat) : Nat := max n (s.logSeq.toNat - 65536)

/-- LOG_READ (R409); with no entry to return, RESULT is a free value (log 53). -/
def execLogRead (c : Cmd) (s : State) : Out :=
  runCmd s c 0x0601 (fun s =>
    let k := p1 c 5 0
    let first := logHeld s (p0 c 31 0)
    let n := min k (s.logSeq.toNat - first)
    orFail s c [(k == 0, rcBadValue)]
      (if n = 0 then
        let (f, s) := fresh s
        reply s c rcSuccess (f.toNat % 2 ^ 32) []
      else reply s c rcSuccess first
        ((List.range n).flatMap (fun i => cellGet s.mram (logPlace (first + i)) 32))))

/-! ## EVENT_SUBSCRIBE (R368) -/

/-- Subscription number of a source, an initiator and a port. -/
def subOf (s : State) (src init port : Nat) : Option Nat :=
  (s.cmds.subs.find? (fun e => e.2.any (fun x =>
    x.source.toNat == src && x.initiator.toNat == init && x.port.toNat == port))).map (·.1)

/-- The lowest-numbered free subscription (log 54). -/
def freeSub (s : State) : Option Nat := (List.range 1024).find? (fun i => (tget noSub s.cmds.subs i).isNone)

/-- A user's command names its own initiator and port and a scan-completion source. -/
def userSub (c : Cmd) (src init port : Nat) : Bool :=
  match c.src with
  | .port p => init == c.initiator.toNat && port == p.val && decide (0x100 ≤ src) && decide (src ≤ 0x1FF)
  | .ring _ => true

/-- Checks of a subscription with administrative rights. -/
def adminSub (s : State) (src init port : Nat) : List (Bool × BitVec 16) :=
  [((srcKind s.part src).1 = .reserved, rcBadValue),
   (!initOn s init port || flag s (fpReg port 0x8004) 0, rcBadRef)]

def putSub (s : State) (i : Nat) (x : Option Sub) : State :=
  { s with cmds := { s.cmds with subs := tput noSub s.cmds.subs i x } }

/-- Subscribes or cancels. -/
def subscribe (s : State) (c : Cmd) (src init port : Nat) (on : Bool) : State :=
  match subOf s src init port, on with
  | some _, true => answer s c rcSuccess
  | some i, false => answer (putSub s i none) c rcSuccess
  | none, false => answer s c rcSuccess
  | none, true =>
    match freeSub s with
    | some i => answer (putSub s i (some { source := BitVec.ofNat 12 src, initiator := BitVec.ofNat 12 init,
                                           port := BitVec.ofNat 4 port, seq := 0 })) c rcSuccess
    | none => answer s c rcTableFull

/-- EVENT_SUBSCRIBE (R368). -/
def execEventSubscribe (c : Cmd) (s : State) : Out :=
  runCmd s c 0x0602 (fun s =>
    let src := p0 c 11 0
    let init := p0 c 27 16
    let port := p0 c 35 32
    let on := bit c.p0.toNat 40
    orFail s c
      ((!isAdmin s c && !userSub c src init port, rcNotPermitted) ::
        (if isAdmin s c && on then adminSub s src init port else []))
      (subscribe s c src init port on))

end Sys2Proof.Machine
end

