-- ==== Sys2Proof/Machine/LinkRows.lean ====
section
/-! DEFINITION. Link states and bring-up of a Fellor port (R244 to R256, R276 to R283, R308). -/

namespace Sys2Proof.Machine

open Sys2Proof

/-! ## FPpp_LINK_CTRL and detection (R244, R245, R278, R308) -/

/-- A write of FPpp_LINK_CTRL (R278, R308). -/
def wrLinkCtrl (s : State) (p : PortN) (v : Reg32) : State :=
  let s := wrReg s (fpReg p 0x8000) v 0
  let s := if bit v.toNat 1 then
      if carries s p then toRetrain s p else paramFault s (.port p)
    else s
  if (s.port p).link = .latchOut then s
  else if bit v.toNat 0 then fromOff s p
  else portReset s p .off

/-- LINK_EN_WRITE (R278). -/
def execLinkEnWrite (p : PortN) (v : Reg32) (s : State) : Out := .next (atReg s (fpReg p 0x8000) (wrLinkCtrl s p v))

/-- RETRAIN (R308): the written value carries RETRAIN. -/
def execRetrain (p : PortN) (v : Reg32) (s : State) : Out := .next (atReg s (fpReg p 0x8000) (wrLinkCtrl s p (v ||| 2)))

/-- DETECT_POLL (R244). -/
def execDetectPoll (p : PortN) (clk : Bool) (lanes : BitVec 16) (s : State) : Out :=
  .next (when (strikeLive s && (s.port p).link = .detect) s
    (setPhy (if clk then (at16 s p).modPort p (fun x => { x with link := .clockLock }) else s) p
      (fun x => { x with sensed := lanes })))

/-- No deskew. -/
def noDeskew : Nat → Int := fun _ => 0

/-- A lane's phase and deskew take the 16 Gb/s starting values (R245). -/
def startLane (s : State) (p l : Nat) : State :=
  let c := s.calib.start16
  let s := setF s (fpReg p (0x200 + 4 * l)) 13 8 (Config.startPhase c (16 * p + l)).toNat
  setPhy s p (fun x => { x with deskew := tput noDeskew x.deskew l (Config.startDeskew c (16 * p + l)) })

/-- Lock is reached on the clock lane and on the data lanes of a mask (R245). -/
def lockLanes (s : State) (p m : Nat) : State :=
  foldUpTo 16 (fun s l => if bit m l then setF (startLane s p l) (fpReg p (0x100 + 4 * l)) 1 1 1 else s)
    (setF s (fpReg p 0x140) 1 1 1)

/-- Lock is reached on the clock lane and on the sensed lanes (R245). -/
def clockLocked (s : State) (p : PortN) : State := toKs1 (lockLanes s p (s.port p).phy.sensed.toNat) p

/-- CLOCK_LOCK (R245); in test mode the receiver locks too and stays there (R257). -/
def execClockLock (p : PortN) (s : State) : Out :=
  .next (if strikeLive s && (s.port p).link = .clockLock then clockLocked s p
    else if strikeLive s && (s.port p).link = .test then lockLanes s p 0xFFFF
    else s)

/-- CLOCKLOCK_TIMEOUT (R278). -/
def execClocklockTimeout (p : PortN) (s : State) : Out :=
  .next (when (strikeLive s && (s.port p).link = .clockLock) s (toDetect s p))

/-! ## Key sets (R246, R247, R279 to R283) -/

/-- Sixteen lanes in reverse order. -/
def flip16 (m : Nat) : Nat := foldUpTo 16 (fun n l => n + b2n (bit m l) * 2 ^ (15 - l)) 0

def reversed (s : State) (p : Nat) : Bool := flag s (fpReg p 0x10) 4

/-- Mask by lane position from a mask by logical number, and the reverse. -/
def posMask (s : State) (p m : Nat) : Nat := if reversed s p then flip16 m else m

/-- Receive lanes of KS2: those in use at the new width (R282). -/
def ks2Lanes (s : State) (p : Nat) : Nat := lanesUsed (s.port p).phy.rxHealthy.toNat (minWidth s p)

/-- Seeds with which a lane's key set may have been scrambled, as lane places (R281, R286): its own number or, in KS1,
the reversed one; in KS2 its place among the lanes in use. -/
def keyPlaces (s : State) (p l kind : Nat) : List Nat :=
  if kind = 1 then [l, 15 - l]
  else
    let n := if reversed s p then 15 - l else l
    [lanePlace (ks2Lanes s p) n]

/-- A descrambled key set is valid (R279, R282). -/
def keyValid (kind k : Nat) : Bool := bits k 255 240 == keyCrc k && (kind == 2 || decide (bits k 37 36 < 2))

/-- The kind and the fields of a key set received on position `l`, where it is valid. -/
def readKeySet (s : State) (p l k : Nat) : Option (Nat × Nat) :=
  let id := bits k 31 0
  let kind := if id = ks1Id then 1 else if id = ks2Id then 2 else 0
  if kind = 0 then none
  else ((keyPlaces s p l kind).map (fun j => keyScramble j k)).find? (keyValid kind) |>.map (fun d => (kind, d))

/-- Bits of a key set that hold its fields: the identifier, the reserved bits and the check are left out (R282). -/
def keyFields (kind : Nat) : Nat :=
  if kind = 1 then mask 40 32 + mask 67 44 + mask 148 117 else mask 39 32 + mask 116 44

/-- A valid key set is counted on its lane (R279); a KS2 names the lanes that the partner found healthy (R282). -/
def countKeySet (s : State) (p l kind k : Nat) : State :=
  let want := keyKind s p
  s.modPort p (fun x =>
    let o := tget (fun _ => LaneKs.init) x.ks l
    let f := BitVec.ofNat 256 (k &&& keyFields kind)
    let n := if o.kind = kind ∧ 0 < o.run ∧ o.fields = f then o.run + 1 else 1
    { x with
      ks := tput (fun _ => LaneKs.init) x.ks l { kind := kind, run := n, fields := f }
      ksHeard := x.ksHeard || want == kind
      phy := { x.phy with
        txHealthy := if kind = 2 ∧ want = 2 then BitVec.ofNat 16 (bits k 67 52) else x.phy.txHealthy } })

/-- An invalid key set breaks the lane's run (R279). -/
def breakKeySet (s : State) (p l : Nat) : State :=
  s.modPort p (fun x =>
    let o := tget (fun _ => LaneKs.init) x.ks l
    { x with ks := tput (fun _ => LaneKs.init) x.ks l { o with run := 0 } })

/-- ROLE or VERSION of the partner differs (R278). -/
def mismatch (s : State) (p : PortN) (role vers : Bool) : State :=
  let s := if role then setF s (fpReg p 0x800C) 0 0 1 else s
  let s := if vers then setF s (fpReg p 0x8010) 0 0 1 else s
  fault (toDetect s p) (.port p) 8 0 1

/-- A key set is received on the lane at position `l` (R246, R278, R279, R281). -/
def keySetIn (s : State) (p : PortN) (l : LaneN) (raw : KeySetBits) : State :=
  let x := s.port p
  let k := if bit x.polInv.toNat l then 2 ^ 256 - 1 - raw.toNat else raw.toNat
  if bits k 31 0 = 2 ^ 32 - 1 - ks1Id then
    setF (breakKeySet (s.modPort p (fun x => { x with polInv := x.polInv ^^^ BitVec.ofNat 16 (2 ^ l.val) })) p l)
      (fpReg p (0x100 + 4 * l)) 2 2 (b2n (!bit x.polInv.toNat l))
  else
    match readKeySet s p l k with
    | none => breakKeySet s p l
    | some (kind, d) =>
      let role := decide (bits d 37 36 ≠ fld s (fpReg p 0x8004) 1 0)
      let vers := decide (bits d 47 44 ≠ 1)
      if x.link = .trainKs1 && kind == 1 && (role || vers) then mismatch s p role vers
      else countKeySet s p l kind d

/-- KEY_SET_RECEIVED (R281). -/
def execKeySetReceived (p : PortN) (l : LaneN) (raw : KeySetBits) (s : State) : Out :=
  .next (when (strikeLive s && inKeys s p) s (keySetIn s p l raw))

/-- The exchange of a kind is complete on a mask of positions (R279). -/
def keysDone (s : State) (p kind m : Nat) : Bool :=
  let x := s.port p
  decide (4 ≤ popNat 16 m) && decide (16 ≤ x.ksSent) && (List.range 16).all (fun l =>
    !bit m l || (let o := tget (fun _ => LaneKs.init) x.ks l; o.kind == kind && decide (8 ≤ o.run)))

/-- Fields received on the lowest position of a mask. -/
def firstKeys (s : State) (p m : Nat) : Nat :=
  match (List.range 16).find? (bit m) with
  | some l => (tget (fun _ => LaneKs.init) (s.port p).ks l).fields.toNat
  | none => 0

/-- FPpp_PARTNER_ID and FPpp_PARTNER_INFO (R283, R315). -/
def recordPartner (s : State) (p k : Nat) : State :=
  wr (wr s (fpReg p 0x8024) (BitVec.ofNat 32 (bits k 148 117))) (fpReg p 0x8028)
    (BitVec.ofNat 32 (2 ^ 31 + bits k 47 44 * 2 ^ 12 + bits k 40 38 * 2 ^ 8 + bits k 37 36 * 2 ^ 4 + bits k 51 48))

/-- The rate of R248: the highest that both ends support and REQ, MAX_RATE and failures leave. -/
def chooseRate (s : State) (p rates : Nat) : Option Nat :=
  (List.range 3).find? (fun k => decide (rateLow s p ≤ k) && bit rates k)

/-- EQ_DEF of each lane at rate `r` (R268). -/
def eqDefs (s : State) (p r : Nat) : Tab (BitVec 5) :=
  foldUpTo 16 (fun m l =>
    tput zero m l (BitVec.ofNat 5 (fld s (fpReg p (0x300 + 0x40 * r + 4 * l)) 4 0))) []

/-- The chosen rate is taken and PEND ends (R250); MAX_RATE has taken effect (R260), another rate starts its own count of
failures (R248), and the sweep starts from EQ_DEF and TRN_SPAN as they stand (R249, R268). -/
def takeRate (s : State) (p r : Nat) : State :=
  startKeys (setPhy (setF s (fpReg p 8) 4 4 0) p (fun x => { x with
    rate := BitVec.ofNat 2 r
    fails := if x.rate.toNat = r then x.fails else 0
    maxR := BitVec.ofNat 2 (fld s (fpReg p 0) 1 0)
    eqDef := eqDefs s p r
    span := BitVec.ofNat 5 (fld s (fpReg p 0) 8 4)
    rated := true
    relocked := false
    sweepStep := 0
    sweepBest := [] })) p

/-- Lane numbers seen in KS1 (R247): reversal of the order, and the lanes left healthy. -/
def orderLanes (s : State) (p m : Nat) : State :=
  let num (l : Nat) : Nat := bits (tget (fun _ => LaneKs.init) (s.port p).ks l).fields.toNat 35 32
  let lanes := (List.range 16).filter (bit m)
  let rev := lanes.all (fun l => num l == 15 - l)
  let s := setF s (fpReg p 0x10) 4 4 (b2n rev)
  let s := foldUpTo 16 (fun s l => setF s (fpReg p (0x100 + 4 * l)) 11 8 (if rev then 15 - l else l)) s
  let good := (lanes.filter (fun l => rev || num l == l)).foldl (fun n l => n + 2 ^ (if rev then 15 - l else l)) 0
  setPhy s p (fun x => { x with rxHealthy := BitVec.ofNat 16 good })

/-- KS1 is complete in a Train (R247, R248, R278, R283): the port leaves the state, and MIN_WIDTH takes effect (R260). The
lanes on which the partner receives are those of its USABLE. -/
def ks1Done (s : State) (p : PortN) : State :=
  let m := (s.port p).phy.sensed.toNat
  let k := firstKeys s p m
  if !keysDone s p 1 m then s else
  match chooseRate s p (bits k 40 38) with
  | none => s
  | some r =>
    let s := takeMinWidth (takeRate (orderLanes (recordPartner (leaveLink s p) p k) p m) p r) p
    s.modPort p (fun x => { x with
      link := .trainSweep
      phy := { x.phy with txHealthy := BitVec.ofNat 16 (bits k 67 52) } })

/-- KS1 is complete on the lanes that a Retrain tests: what the partner says of itself is recorded (R283, R315). -/
def ks1Seen (s : State) (p : Nat) (tested : Nat) : State :=
  let m := posMask s p tested
  if keysDone s p 1 m then recordPartner s p (firstKeys s p m) else s

/-- KS1 is complete in a Retrain that applies a rate (R250). -/
def ks1Again (s : State) (p : PortN) : State :=
  let m := posMask s p (s.port p).phy.rxHealthy.toNat
  let k := firstKeys s p m
  if !keysDone s p 1 m then s else
  match chooseRate s p (bits k 40 38) with
  | none => s
  | some r => takeRate (recordPartner s p k) p r

/-- The deskew of a lane is set in training: a value within ±8 UI that the channel gives (R232, log 139). -/
def deskewLane (s : State) (p l : Nat) : State :=
  let (v, s) := fresh s
  setPhy s p (fun x => { x with deskew := tput noDeskew x.deskew l ((v.toNat % 17 : Nat) - 8) })

def deskewLanes (s : State) (p m : Nat) : State :=
  foldUpTo 16 (fun s l => if bit m l then deskewLane s p l else s) s

/-- The port carries flits at the agreed widths (R252, R264, R278, R286); the other receive lanes are powered down. -/
def goActive (s : State) (p rx tx : Nat) : State :=
  let s := leaveLink s p
  let s := deskewLanes (setLocks s p (lanesUsed rx (minWidth s p))) p (lanesUsed rx (minWidth s p))
  let old := (fld s (fpReg p 0x10) 3 2, fld s (fpReg p 0x10) 1 0)
  let rw := widthFrom s p rx
  let tw := widthFrom s p tx
  let w := lanesUsed rx (minWidth s p) * 2 ^ 16 + b2n (reversed s p) * 16 + tw * 4 + rw
  let s := setHealthy (wr s (fpReg p 0x10) (BitVec.ofNat 32 w)) p rx
  let s := if old ≠ (3, 3) ∧ old ≠ (tw, rw) then count s (cPort p 9) 1 else s
  s.modPort p (fun x => { x with
    link := if rw = 0 ∧ tw = 0 then .active else .degraded
    scrTx := seeds (widthLanes tw)
    scrRx := seeds (widthLanes rw)
    lp := .none
    ks := []
    ksHeard := false
    ksSent := 0
    phy := { x.phy with txHealthy := BitVec.ofNat 16 tx, fails := 0, floor := 0, rated := false } })

/-- Numbers and limits at the end of a Train (R278, R290, R303). -/
def startNumbers (s : State) (p k : Nat) : State :=
  let c0 := BitVec.ofNat 12 (bits k 92 81)
  let c1 := BitVec.ofNat 12 (bits k 104 93)
  let c2 := BitVec.ofNat 12 (bits k 116 105)
  let first := foldUpTo 3 (fun m i => tput zero m i (firstLimit s p i)) []
  let s := s.modPort p (fun x => { x with
    rxLast := 1023
    txAcked := 1023
    txNext := 0
    replay := []
    resend := []
    discarding := false
    nakDue := false
    rxPart := []
    framing := false
    txPart := []
    sent := []
    got := []
    granted := first
    limit := []
    creditDue := false
    creditPkt := false })
  applyLimits s p c0 c1 c2

/-- KS2 is complete (R278, R282, R292); widths that do not agree leave the exchange open. -/
def ks2Done (s : State) (p : PortN) : State :=
  let m := posMask s p (ks2Lanes s p)
  let k := firstKeys s p m
  let tx := bits k 67 52
  let again := decide ((s.port p).link = .retrain)
  if !keysDone s p 2 m then s
  else if widthFrom s p tx = 3 then if again then portDown s p else trainFails s p
  else if bits k 69 68 ≠ widthFrom s p tx then s
  else
    let s := goActive s p (s.port p).phy.rxHealthy.toNat tx
    if !again then
      let s := startNumbers s p k
      if s.pair.state = .forming && bit (mirrorMask s) p then sendPair s p 0x10 (helloPkt s 1 0) else s
    else
      let s := resendAll (applyAck s p (BitVec.ofNat 10 (bits k 80 71))) p
      let s := applyLimits s p (BitVec.ofNat 12 (bits k 92 81)) (BitVec.ofNat 12 (bits k 104 93))
        (BitVec.ofNat 12 (bits k 116 105))
      if (s.port p).phy.again then toRetrain (setPhy s p (fun x => { x with again := false })) p else s

/-- KEY_SET_EXCHANGE_COMPLETE (R279). -/
def exchangeDone (s : State) (p : PortN) : State :=
  let x := s.port p
  if x.link = .trainKs1 then ks1Done s p
  else if inKs2 s p then ks2Done s p
  else if x.link = .retrain && x.phy.withSweep && x.phy.testEnded && !x.phy.rated then ks1Again s p
  else if x.link = .retrain && !x.phy.testEnded then ks1Seen s p x.phy.tested.toNat
  else s

def execKeySetExchangeComplete (p : PortN) (s : State) : Out := .next (when (strikeLive s) s (exchangeDone s p))

/-- KS1_TIMEOUT (R278). -/
def execKs1Timeout (p : PortN) (s : State) : Out :=
  .next (when (strikeLive s && (s.port p).link = .trainKs1) s (trainGivesUp s p))

/-- KS2_TIMEOUT (R278). -/
def execKs2Timeout (p : PortN) (s : State) : Out :=
  .next (when (strikeLive s && (s.port p).link = .trainKs2) s (trainFails s p))

/-! ## Rate and sweep (R248 to R250) -/

/-- A training sweep is due or runs. -/
def sweeping (s : State) (p : Nat) : Bool :=
  let x := s.port p
  x.phy.rated && (x.link = .trainSweep || (x.link = .retrain && x.phy.withSweep && x.phy.testEnded))

/-- TRAIN_RATE_RELOCK (R248). -/
def execTrainRateRelock (p : PortN) (s : State) : Out :=
  .next (when (strikeLive s && sweeping s p && !(s.port p).phy.relocked) s
    (setPhy (setF s (fpReg p 8) 3 2 (s.port p).phy.rate.toNat) p (fun x => { x with relocked := true })))

/-- First and last code of lane `l` in a sweep (R249). -/
def sweepRange (s : State) (p l : Nat) : Nat × Nat :=
  let d := (tget zero (s.port p).phy.eqDef l).toNat
  let n := (s.port p).phy.span.toNat
  (d - n, min 31 (d + n))

/-- Code steps of a sweep: those of the lane with most codes. -/
def sweepSteps (s : State) (p : Nat) : Nat :=
  foldUpTo 16 (fun m l => max m ((sweepRange s p l).2 + 1 - (sweepRange s p l).1)) 0

/-- No area measured. -/
def noBest : Nat → BitVec 9 × BitVec 5 := fun _ => (0, 0)

/-- A code step records the area of each lane's code; the lowest code wins a tie (R249). -/
def sweepCode (s : State) (p : Nat) (meas : List (BitVec 9)) : State :=
  let s := foldUpTo 16 (fun s l =>
    let x := (s.port p).phy
    let (lo, hi) := sweepRange s p l
    let c := lo + x.sweepStep
    let a := meas.getD l 0
    if hi < c ∨ a ≤ (tget noBest x.sweepBest l).1 then s
    else setPhy s p (fun x => { x with sweepBest := tput noBest x.sweepBest l (a, BitVec.ofNat 5 c) })) s
  setPhy s p (fun x => { x with sweepStep := x.sweepStep + 1 })

/-- The final step sets phase, code and area of every lane with an area above 0 (R249, R266). -/
def sweepPhase (s : State) (p : Nat) (meas : List (BitVec 9)) : State :=
  foldUpTo 16 (fun s l =>
    let (a, c) := tget noBest (s.port p).phy.sweepBest l
    let o := fpReg p (0x200 + 4 * l)
    let s := setF s o 24 16 a.toNat
    if a = 0 then s
    else
      let s := setF s o 13 8 (meas.getD l 0).toNat
      if flag s (fpReg p (0x280 + 4 * l)) 8 then s
      else setPhy s p (fun x => { x with eqTarget := tput (fun _ => none) x.eqTarget l (some c) })) s

/-- The sweep is complete: the lanes with no area are unhealthy, and KS2 or a failure follows (R249, R278). -/
def sweepEnd (s : State) (p : PortN) : State :=
  let x := (s.port p).phy
  let good := foldUpTo 16 (fun n l => n + b2n ((tget noBest x.sweepBest l).1 != 0) * 2 ^ l) 0
  let h := x.rxHealthy &&& BitVec.ofNat 16 good
  let again := decide ((s.port p).link = .retrain)
  let s := startKeys (setPhy s p (fun x => { x with rxHealthy := h, withSweep := false, sweepStep := 0, sweepBest := [] })) p
  let s := setHealthy s p h.toNat
  if widthFrom s p h.toNat = 3 then if again then portDown s p else trainFails s p
  else if again then dropIdle s p
  else (leaveLink s p).modPort p (fun x => { x with link := .trainKs2 })

/-- A written rate restarts the sweep at the step boundary (R250). -/
def sweepRestart (s : State) (p : PortN) : State :=
  let s := setF (setF s (fpReg p 8) 5 5 1) (fpReg p 8) 4 4 0
  if (s.port p).link = .retrain then
    startKeys (setPhy (at16 s p) p (fun x => { x with rated := false, relocked := false, sweepStep := 0, sweepBest := [] })) p
  else toKs1 s p

/-- TRAIN_SWEEP_STEP (R249, R250). -/
def sweepStepEnd (s : State) (p : PortN) (meas : List (BitVec 9)) : State :=
  if flag s (fpReg p 8) 4 then sweepRestart s p
  else if (s.port p).phy.sweepStep < sweepSteps s p then sweepCode s p meas
  else sweepEnd (sweepPhase s p meas) p

def execTrainSweepStep (p : PortN) (meas : List (BitVec 9)) (s : State) : Out :=
  .next (when (strikeLive s && sweeping s p && (s.port p).phy.relocked) s (sweepStepEnd s p meas))

/-- A write of FPpp_PHY_RATE (R250, R262). -/
def wrPhyRate (s : State) (p : PortN) (v : Reg32) : State :=
  let o := fpReg p 8
  if bits v.toNat 1 0 = 3 then putReg s o v (mask 1 0)
  else
    let s := setF (wrReg s o v 0) o 4 4 1
    if carries s p then toRetrain s p else s

/-- PHY_RATE_REQ_WRITE (R250). -/
def execPhyRateReqWrite (p : PortN) (v : Reg32) (s : State) : Out := .next (atReg s (fpReg p 8) (wrPhyRate s p v))

/-! ## Losing lanes, Retrain (R251 to R254) -/

/-- A data lane that carries flits, or that a Retrain tests, loses lock (R251, R252). -/
def laneLost (s : State) (p : PortN) (l : LaneN) : State :=
  let run := carries s p
  let s := loseLanes s p [l.val]
  if run && carries s p then toRetrain s p else s

/-- LANE_LOSS (R251). -/
def execLaneLoss (p : PortN) (l : LaneN) (s : State) : Out :=
  .next (when (strikeLive s && ((carries s p && bit (rxLanes s p) l) ||
      ((s.port p).link = .retrain && bit (s.port p).phy.tested.toNat l))) s (laneLost s p l))

/-- The clock lane loses lock: the port goes down, but for test mode, in which the table of R278 has no such event. -/
def clockLost (s : State) (p : PortN) : State :=
  let s := setF (setF s (fpReg p 0x140) 4 4 1) (fpReg p 0x140) 1 1 0
  if (s.port p).link = .test then s else portDown s p

/-- CLOCK_LANE_LOSS (R253). -/
def execClockLaneLoss (p : PortN) (s : State) : Out :=
  .next (when (strikeLive s && (carries s p || (s.port p).link = .retrain || (s.port p).link = .lowPower ||
      (s.port p).link = .test)) s (clockLost s p))

/-- The lane test ends (R252). -/
def laneTestEnd (s : State) (p : PortN) (rx tx : BitVec 16) : State :=
  let rx := rx &&& (s.port p).phy.tested
  let s := ks1Seen s p rx.toNat
  let s := startKeys (setPhy s p (fun x => { x with rxHealthy := rx, txHealthy := tx, testEnded := true })) p
  let s := setLocks (setHealthy s p rx.toNat) p rx.toNat
  if widthFrom s p rx.toNat = 3 ∨ widthFrom s p tx.toNat = 3 then portDown s p else dropIdle s p

/-- RETRAIN_LANE_TEST_END (R252). -/
def execRetrainLaneTestEnd (p : PortN) (rx tx : BitVec 16) (s : State) : Out :=
  .next (when (strikeLive s && (s.port p).link = .retrain && !(s.port p).phy.testEnded) s (laneTestEnd s p rx tx))

/-- A second Retrain tests the lanes that were healthy in the first (R253). -/
def retrainAgain (s : State) (p : PortN) : State :=
  let s := takeMinWidth s p
  let sweep := rateDue s p
  startKeys (setPhy s p (fun x => { x with
    withSweep := x.withSweep || sweep
    tested := if x.testEnded then x.rxHealthy else x.tested
    testEnded := false
    second := true
    rated := false
    relocked := false
    sweepStep := 0
    sweepBest := [] })) p

/-- RETRAIN_TIMEOUT (R253). -/
def execRetrainTimeout (p : PortN) (s : State) : Out :=
  .next (when (strikeLive s && (s.port p).link = .retrain) s
    (if (s.port p).phy.second then portDown s p else retrainAgain s p))

/-! ## Low power (R255, R256) -/

/-- LOWPOWER_ENTRY (R255): the entry key set, to which the spec gives no content, goes out on the lanes in use (log 137),
which then go to idle; no receiver stays locked. -/
def enterLowPower (s : State) (p : PortN) : State :=
  let lanes := txLanes s p
  let s := setF (setLocks (leaveLink s p) p 0) (fpReg p 0x140) 1 1 0
  count (s.modPort p (fun x => { x with
    link := .lowPower
    lp := .none
    lastKs := ((List.range 16).filter (fun l => bit lanes l)).map Config.entryKeySet })) (cPort p 15) 1

def execLowpowerEntry (p : PortN) (s : State) : Out :=
  .next (when (strikeLive s && carries s p && (s.port p).lp = .entering) s (enterLowPower s p))

/-- A wake request abandons the entry at any point before the clock lane is idle (R256): an LP_REQ not yet sent is not
sent, and one received is answered with LP_DENY (R295, log 140). -/
def abandonEntry (s : State) (p : Nat) : State :=
  s.modPort p (fun x => { x with
    lp := .none
    ctlDue := if x.ctlDue = some 3 then some 4 else if x.ctlDue = some 2 then none else x.ctlDue })

/-- WAKE_REQUEST (R256): it abandons an entry, or starts the exit. -/
def execWakeRequest (p : PortN) (s : State) : Out :=
  .next (when (strikeLive s) s
    (if carries s p then (if (s.port p).lp = .none then s else abandonEntry s p)
     else if (s.port p).link = .lowPower then s.modPort p (fun x => { x with lp := .waking })
     else s))

/-- The exit from LowPower ends (R250, R256): a failing lane or a pending rate leads into Retrain. -/
def exitLowPower (s : State) (p : PortN) (failed : BitVec 16) : State :=
  let bad := (List.range 16).filter (fun l => bit failed.toNat l && bit (rxLanes s p) l)
  let s := s.modPort p (fun x => { x with lp := .none })
  let s := setF (setLocks s p (rxLanes s p)) (fpReg p 0x140) 1 1 1
  if !bad.isEmpty then
    let s := loseLanes s p bad
    if (s.port p).link = .lowPower then toRetrain s p else s
  else if flag s (fpReg p 8) 4 then toRetrain s p
  else s.modPort p (fun x => { x with
    link := if rxCount s p = 16 ∧ txCount s p = 16 then .active else .degraded
    scrTx := seeds (txCount s p)
    scrRx := seeds (rxCount s p) })

/-- LOWPOWER_EXIT_DONE (R256). -/
def execLowpowerExitDone (p : PortN) (failed : BitVec 16) (s : State) : Out :=
  .next (when (strikeLive s && (s.port p).link = .lowPower && (s.port p).lp = .waking) s (exitLowPower s p failed))

end Sys2Proof.Machine
end

