-- ==== Sys2Proof/Machine/LineOps.lean ====
section
/-! DEFINITION. Line operations of the internal masters (R32, R148, R206): when the tumbler may perform one (R80, R116, R126,
R129, R158, R205), and the commands that it issues, each at its earliest slot under R73 to R77. -/

namespace Sys2Proof.Machine

open Sys2Proof

/-! ## When -/

/-- A sweeper's or copier's access wakes a gated tumbler as any access does (R149). -/
def wakeTum (s : State) (t : Nat) : State := wakeFor s t

/-- The tumbler performs line operations of the internal masters now. -/
def lineOpOk (s : State) (t : Nat) : Bool :=
  let x := s.tum t
  running s && x.mode.state = .online && x.mode.wake = .no && !x.mode.self && !x.mode.emergency && x.mode.rate = .idle
    && x.training.isNone && !x.mode.paying

/-- The slot of line `x`, where it holds all eight words. -/
def wholeSlot (s : State) (t x : Nat) : Option Slot := (slotOf (s.tum t).q x).filter slotWhole

/-- A line operation on line `x` waits: an earlier access to the line is still to be performed or its slot does not hold the
whole line (R79), or a row-remap copy holds the row (R158). -/
def lineBusy (s : State) (t x : Nat) : Bool :=
  let q := (s.tum t).q
  q.queue.any (fun a => pendsOn a x) || q.slots.any (fun k => k.line = x && k.be != 0 && !slotWhole k)
    || rowHeld s t x (placeOf s t x)

/-- A line operation of master `m` on line `x` at place `l`, as the access of the tumbler that it is. It takes an entry of its
master's reservation, and the commands up to its last, before another access is selected (log 120). -/
def lineAccess (s : State) (t x : Nat) (l : Loc) (m : Master) (write : Bool) : Access :=
  let d := (s.tum t).dram
  { newAccess s (if write then .write else .read64) (.master m) 0 with
    tum := Fin.ofNat 64 t, line := x, loc := l, stage := if write then .needWr else .needRd 1,
    hint := if m = .scan then 1 else 0, enterTime := d.time, enterSlot := d.slot, left := true }

/-- Nothing holds the row at `l` back from the access: it is open, or may be opened (R80, R126, R129). The row-remap copy is
never throttled (R206). -/
def linePlaceOk (s : State) (a : Access) (l : Loc) : Bool :=
  let t := a.tum.val
  let b := bankAt s t (bankNo l)
  (b.openRow == some l.row && !b.closing) ||
    (b.alert.isNone && (a.src = .master .remap || !throttled s t (bankNo l) a.src) &&
      (a.src = .master .remap || !b.openRow.any (rowPending s (s.tum t).q.queue (bankNo l))))

/-- What the access needs first at place `l`. -/
def lineNeed (s : State) (a : Access) (l : Loc) : Need :=
  match (bankAt s a.tum (bankNo l)).openRow with
  | none => .act
  | some r => if r = l.row then if isRead a then .rd else .wr else .pre

/-- The access is selected now (R80): no refresh and no row closing issues, and it goes before every candidate of the queue;
the row-remap copy goes before them all (R206). -/
def lineTurn (s : State) (a : Access) : Bool :=
  let t := a.tum.val
  let e := (a, lineNeed s a a.loc, a.line, a.loc)
  let cs := candidates s t
  !(refreshStep s t).2 && (closeStep s t).isNone &&
    (a.src = .master .remap || cs.isEmpty ||
      (if aged s a then !cs.all (fun c => aged s c.1) || cs.all (goesBefore s e)
       else cs.all (fun c => !aged s c.1 && goesBefore s e c)))

/-- The access has its share of the queue, and for a write of the line store (R205, R206). -/
def lineShare (s : State) (a : Access) : Bool :=
  a.src = .master .remap ||
    (hasShare s (entryHolders s a.tum) (holder a.src a.cls) 0 &&
      (isRead a || hasShare s (slotHolders s a.tum) (holder a.src a.cls) 4))

/-- A line operation may be performed now; a line that lies whole in its slot needs no command to be read (R79). -/
def lineMay (s : State) (a : Access) : Bool :=
  lineShare s a &&
    (if (wholeSlot s a.tum a.line).isSome then true
     else linePlaceOk s a a.loc && ((twinOf s a.tum a.line a.loc).all (linePlaceOk s a)) && lineTurn s a)

/-! ## Commands -/

/-- ACT at its earliest slot. -/
def actNext (s : State) (a : Access) (l : Loc) : State :=
  let t := a.tum.val
  advance (doAct (goTo s t (actSlot s t l)) a l) t 1

/-- Opens the row at `l`, precharging another open row of the bank. -/
def openLine (s : State) (a : Access) (l : Loc) : State :=
  let t := a.tum.val
  let b := bankAt s t (bankNo l)
  if b.openRow = some l.row ∧ b.closing = false then s
  else actNext (if b.openRow.isSome then preNext s t (bankNo l) else s) a l

/-- RD or WR at its earliest slot, charged to the access. -/
def colNext (s : State) (a : Access) (l : Loc) (w : Bool) : State :=
  let t := a.tum.val
  advance (charge (issueCol (goTo s t (colSlot s t l w)) t l w a.id) a 1) t 1

/-- Slots from an RD to its decoded words: tCL, the data slot and 9 cycles (R85). -/
def decodeSlots (s : State) (t : Nat) : Nat := 2 * tCL (rateOf s t) (s.tum t).dram + 1 + 18

/-- What a whole slot gives as word `w` against EPOCH `e`. -/
def slotGot (k : Slot) (w e : Nat) : Got :=
  let g := slotWord k w e
  let ep := bits k.epochs.toNat (2 * w + 1) (2 * w)
  let p := bit k.poison.toNat w
  { data := g.1, live := g.2.1, poison := g.2.2, corrected := false, wroteBack := false,
    word := if p then poisonWord ep else encodeWord (bits k.data.toNat (64 * w + 63) (64 * w)) ep,
    cls := if p then .poisoned else .clean }

/-- Reads the line of the access against EPOCH `e`: from its slot where that is whole, else by an RD. -/
def lineRead (s : State) (a : Access) (e : Nat) (flips : List CodeWord) : State × List Got :=
  let t := a.tum.val
  match wholeSlot s t a.line with
  | some k => (s, (List.range 8).map (fun w => slotGot k w e))
  | none =>
    let s := colNext (openLine s a a.loc) a a.loc false
    decodeLine s t a.loc a.line e flips (fun _ => true)

/-- WR of the line at `l`, its row opened. -/
def lineWr (s : State) (a : Access) (l : Loc) : State := colNext (openLine s a l) a l true

/-- WR of the line on every slice that takes it (R162). -/
def lineWrAll (s : State) (a : Access) : State :=
  let s := lineWr s a a.loc
  match twinOf s a.tum a.line a.loc with
  | some m => afterCol (lineWr s a m) a.tum a m
  | none => s

/-- Puts the code word `v` into a slot as its word `w`. -/
def slotCode (k : Slot) (w : Nat) (v : CodeWord) : Slot :=
  let d := decodeWord v
  if d.cls = .poisoned then slotPut k w d.epoch 0 true else slotPut k w d.epoch d.data false

/-- Writes the words of mask `m` of the line: into its slot where that holds the line, whose own WR then writes them (R78), else
by WR. -/
def lineStore (s : State) (a : Access) (m : Nat) (f : Nat → CodeWord) : State :=
  let t := a.tum.val
  match wholeSlot s t a.line with
  | some k => setQ s t (fun q => setSlot q (foldUpTo 8 (fun k w => if bit m w then slotCode k w (f w) else k) k))
  | none =>
    foldUpTo 8 (fun s w => if bit m w then putBoth s t a.loc a.line w (f w) else s) (lineWrAll s a)

/-- The words that a read has just returned are there, and a WR of the same line operation may follow. -/
def afterRead (s : State) (a : Access) : State :=
  let t := a.tum.val
  if (wholeSlot s t a.line).isSome then s else goTo s t ((s.tum t).dram.slot + decodeSlots s t)

/-- The line operation enters: a critical one is counted in the aged set (R208, R422), one of a class is measured (R211). -/
def lineEnter (s : State) (a : Access) : State :=
  let x := s.tum a.tum
  let s := if urgency s a = 3 then count s (cTum a.tum 33) 1 else s
  if classed a then
    let r : WardRec :=
      { id := a.id, tum := a.tum.val, cls := a.cls.toNat, window := s.ward.winStart, units := 0, latency := none,
        excluded := x.pauseSince.isSome && !x.pauseHot }
    { s with ward := { s.ward with log := s.ward.log ++ [r] } }
  else s

/-- The line operation is over: the row policy follows its last column command (R82). -/
def lineEnd (s : State) (a : Access) : State :=
  let s := if (wholeSlot s a.tum a.line).isSome then s else afterCol s a.tum a a.loc
  { s with nextId := s.nextId + 1 }

/-- The WR of words that the decode of a line operation has corrected or poisoned (R143, R154). -/
def writeBacks (s : State) (a : Access) (g : List Got) : State :=
  if g.any (fun w => w.wroteBack || w.cls = .uncorrectable) then lineWrAll (afterRead s a) a else s

end Sys2Proof.Machine
end

