-- ==== Sys2Proof/Machine/Regions.lean ====
section
/-! DEFINITION. Region clears and sweeps (R144 to R152, R333, R367),
and the initial sweep (R151, R381). -/

namespace Sys2Proof.Machine

open Sys2Proof

/-! ## Clear points (R146, R147) -/

/-- The next live epoch. -/
def nextEpoch (e : Nat) : Nat := if e = 3 then 1 else e + 1

/-- Tumblers that hold part of region `r`. -/
def regionTums (s : State) (r : Nat) : List Nat := if rgnMode s r = 2 then [r % 64] else List.range 64

/-- Accesses to region `r` in the queue of `t`, or with a line on its way, under another EPOCH than the region's. -/
def olderAccesses (s : State) (t r : Nat) : List Nat :=
  let q := (s.tum t).q
  ((q.queue ++ q.flight.map (·.acc)).filter (fun a =>
    regionOf a.addr.toNat == r && a.epoch.toNat != rgnEpoch s r)).map (·.id)

/-- Sweeps of region `r` are owed in every tumbler that holds part of it. A tumbler under re-initialisation that has met the
clear point runs its sweep after it (R149). -/
def oweSweeps (s : State) (r : Nat) : State :=
  { s with sweeps := s.sweeps ++ (regionTums s r).map (fun t =>
      { region := r, tum := t, started := false, ptr := 0, finished := false,
        late := (s.tum t).mode.cleared.contains r, startTime := 0, before := olderAccesses s t r }) }

/-- Some access of `ids` is still in the queue of `t` or on its way. -/
def stillThere (s : State) (t : Nat) (ids : List Nat) : Bool :=
  let q := (s.tum t).q
  q.queue.any (fun a => ids.contains a.id) || q.flight.any (fun f => ids.contains f.acc.id)

/-- A change of `r` to mode `m` is into or out of the tumbler-local mode (R147). -/
def localChange (s : State) (r : Nat) (m : Option (BitVec 2)) : Bool :=
  match m with
  | some m => (rgnMode s r == 2) != (m == 2)
  | none => false

/-- A tumbler under re-initialisation notes the clear point (R381). -/
def noteCleared (s : State) (r : Nat) : State :=
  (regionTums s r).foldl (fun s t =>
    if tstate s t = .initSweep then setMode s t (fun m => { m with cleared := r :: m.cleared }) else s) s

/-- The clear point of region `r` (R146, R147, R152): the record in MRAM, then RGN_ENTRY. In Solo the region becomes
diverged (R340); a region whose source was lost becomes usable (R346). Accesses that wait take their place under the new mode
(R145). -/
def clearPoint (s : State) (r : Nat) (m : Option (BitVec 2)) : State :=
  let o := rgnReg r
  let move := localChange s r m
  let sw := rgnSweep s r
  let s := noteCleared s r
  let s := if move then setF (setF s o 1 0 0) o 3 2 3
    else setF (setF s o 1 0 (nextEpoch (rgnEpoch s r))) o 3 2 (sw + 1)
  let s := match m with
    | some m => replaceWaiting (setF s o 9 8 m.toNat) r
    | none => s
  let s := storeRegion s r
  let s := { s with pair := { s.pair with orphan := s.pair.orphan.filter (· != r) } }
  let s := if s.pair.state = .solo then setDiverged s r else s
  if move || sw != 0 then s else oweSweeps s r

/-! ## Clears of a pair (R333) -/

/-- This member orders the clears of region `r`. -/
def clearsHere (s : State) (r : Nat) : Bool :=
  if s.pair.pending.contains r then s.pair.state = .resyncSource
  else rgnHomeEff s r = fld s (pairReg 0) 0 0

/-- CTRL packet about region `r` (R325). -/
def ctrlPkt (s : State) (sub r : Nat) (body : List (BitVec 16)) : PairPkt :=
  { pairHdr s (8 + body.length) sub (r * 2 ^ 24) with body := body }

def sendCtrl (s : State) (sub r : Nat) (body : List (BitVec 16)) : State :=
  sendSeq s 0x14 r (ctrlPkt s sub r body) none

/-- CLEAR with the MODE that region `r` is to have. -/
def sendClear (s : State) (r : Nat) (m : Option (BitVec 2)) : State :=
  sendCtrl s 0 r [BitVec.ofNat 16 ((m.map (·.toNat)).getD (rgnMode s r))]

/-- Writes to `r` are held and CLEAR goes out (R333 steps 2 and 3). -/
def startPairClear (s : State) (r : Nat) (m : Option (BitVec 2)) (c : Option Cmd) : State :=
  sendClear { s with pair := { s.pair with holdClear := s.pair.holdClear ++ [(r, m, c)] } } r m

/-! ## Progress of clears -/

/-- Region `r` is held by a clear that has not taken effect. -/
def heldClear (s : State) (r : Nat) : Bool :=
  s.clears.any (fun x => x.held.contains r) || s.pair.peerClear.any (fun x => x.1 = r)

/-- The first clear that holds region `r`. -/
def clearOf (s : State) (r : Nat) : Option ClearCmd := s.clears.find? (fun x => x.held.contains r)

/-- Changes the first clear that holds region `r`. -/
def modClear (s : State) (r : Nat) (f : ClearCmd → ClearCmd) : State :=
  match s.clears.findIdx? (fun x => x.held.contains r) with
  | some i => { s with clears := s.clears.modify i f }
  | none => s

/-- A command whose every named clear has been dealt with is answered (R367). -/
def settleClears (s : State) : State :=
  let l := s.clears.filter (fun x => x.held.isEmpty && x.passed.isEmpty)
  let s := { s with clears := s.clears.filter (fun x => !(x.held.isEmpty && x.passed.isEmpty)) }
  l.foldl (fun s x => answerOpt s x.cmd (if x.refused then rcRegionBusy else rcSuccess)) s

/-- The group of 64 regions whose every region has passed the clear point of a mode change is rewritten (R152). -/
def startReinit (s : State) (g : Nat) : State :=
  let l := (List.range 64).map (64 * g + ·)
  if l.all (fun r => rgnSweep s r == 3 && rgnEpoch s r == 0) && !s.reinits.any (fun x => x.group = g) then
    let ids := (List.range 64).flatMap (fun t =>
      let q := (s.tum t).q
      ((q.queue ++ q.flight.map (·.acc)).filter (fun a => regionOf a.addr.toNat / 64 == g)).map (·.id))
    let s := { s with reinits := s.reinits ++ [{
        group := g
        regions := l
        before := ids
        boot := false }] }
    foldUpTo 64 wakeTum s
  else s

/-- Region `r` is cleared here for the clear that holds it; the partner that asked for it is told. -/
def clearEffect (s : State) (r : Nat) : State :=
  match clearOf s r with
  | none => s
  | some x =>
    let move := localChange s r x.mode
    let s := clearPoint s r x.mode
    if move then startReinit s (r / 64)
    else
      let s := modClear s r (fun x => { x with held := x.held.erase r, passed := x.passed ++ (if x.cmd.isSome then [r] else []) })
      if x.cmd.isSome then s else settleClears (sendCtrl s 1 r [])

/-- A clear of `r` that R147 lets take effect now goes on: here, through the partner, or at the partner. -/
def advanceClear (s : State) (r : Nat) : State :=
  match clearOf s r with
  | none => s
  | some x =>
    if rgnSweep s r = 2 then s
    else if !pairUp s then clearEffect s r
    else if clearsHere s r then startPairClear s r x.mode x.cmd
    else s

/-- Groups that a range of regions touches. -/
def groupsOf (first n : Nat) : List Nat :=
  (List.range 1024).filter (fun g => decide (64 * g < first + n) && decide (first < 64 * g + 64))

/-! ## REGION_CLEAR (R367) -/

def clrFirst (c : Cmd) : Nat := bits c.p0.toNat 15 0
def clrCount (c : Cmd) : Nat := bits c.p0.toNat 32 16
def clrMode (c : Cmd) : Option (BitVec 2) :=
  if bit c.p1.toNat 0 then some (BitVec.ofNat 2 (bits c.p1.toNat 2 1)) else none

/-- A tumbler-local change covers part of a group (R49). -/
def partialGroup (s : State) (first n : Nat) (m : Option (BitVec 2)) : Bool :=
  (List.range n).any (fun i =>
    let r := first + i
    let g := r / 64 * 64
    (m == some 2 || localChange s r m) && !(decide (first ≤ g) && decide (g + 64 ≤ first + n)))

/-- R147 would refuse a clear of region `r` now. -/
def clearBusy (s : State) (r : Nat) (m : Option (BitVec 2)) : Bool :=
  if localChange s r m then rgnSweep s r != 0 || heldClear s r else rgnSweep s r == 3 || heldClear s r

/-- The clears of a command begin, in ascending order. -/
def startClears (s : State) (c : Cmd) : State :=
  let first := clrFirst c
  let n := clrCount c
  let m := clrMode c
  let l := (List.range n).map (first + ·)
  let s := { begin s c with clears := s.clears ++ [{ cmd := some c, held := l, passed := [], mode := m, refused := false }] }
  let s := l.foldl (fun s r =>
    if pairUp s && !clearsHere s r then sendClear s r m else advanceClear s r) s
  (groupsOf first n).foldl startReinit s

/-- REGION_CLEAR (R367). -/
def execRegionClear (c : Cmd) (s : State) : Out :=
  let first := clrFirst c
  let n := clrCount c
  let m := clrMode c
  runCmd s c 0x0200 (fun s => orFail s c
    [(n = 0 || decide (65536 < n), rcBadValue),
     (decide (s.part.regions < first + n), rcBadRange),
     (m = some 3, rcBadValue),
     (partialGroup s first n m, rcPartialGroup),
     ((List.range n).any (fun i => clearBusy s (first + i) m), rcRegionBusy),
     (s.mramFenced, rcMramFault)]
    (startClears s c))

/-- REGION_CLEAR_DONE (R146): every tumbler holding `r` has passed its clear point. -/
def execRegionClearDone (r : BitVec 16) (s : State) : Out :=
  .next (match s.clears.findIdx? (fun x => x.passed.contains r.toNat) with
    | some i => settleClears { s with clears := s.clears.modify i (fun x => { x with passed := x.passed.erase r.toNat }) }
    | none => s)

/-! ## Sweeps (R146 to R149) -/

/-- Position of the sweep of region `r` in tumbler `t`. -/
def sweepIdx (s : State) (t r : Nat) : Option Nat :=
  s.sweeps.findIdx? (fun x => x.region = r && x.tum = t && !x.finished)

def modSweep (s : State) (i : Nat) (f : SweepT → SweepT) : State := { s with sweeps := s.sweeps.modify i f }

/-- The sweep of `r` may start in `t`: every earlier access has been performed (R146). -/
def maySweep (s : State) (t : Nat) (x : SweepT) : Bool :=
  !x.started && takesAccess s t && running s && !stillThere s t x.before

/-- SWEEP_START (R146). -/
def execSweepStart (t : Tum) (r : BitVec 16) (s : State) : Out :=
  .next (match sweepIdx s t r.toNat with
    | some i =>
      when (s.sweeps[i]?.any (maySweep s t)) s
        (wakeTum (modSweep s i (fun x => { x with started := true, startTime := (s.tum t).dram.time })) t)
    | none => s)

/-- Words of a decoded line that the sweep rewrites (R148). -/
def staleWords (l : List Got) (cur : Nat) : Nat :=
  l.zipIdx.foldl (fun m g =>
    let e := epochOf g.1.word
    m + b2n (decide (e ≠ cur ∧ e ≠ 0)) * 2 ^ g.2) 0

/-- The line operation of R148 on line `x` of tumbler `t`. -/
def sweepOne (s : State) (t x r : Nat) (flips : List CodeWord) : State :=
  let a := lineAccess s t x (placeOf s t x) .sweep false
  let cur := rgnEpoch s r
  let read := lineRead (lineEnter s a) a cur flips
  let m := staleWords read.2 cur
  let s := if m = 0 then writeBacks read.1 a read.2
    else lineStore (afterRead read.1 a) a m (fun _ => encodeWord 0 0)
  let s := count (lineEnd s a) (cTum t 23) 1
  if m = 0 then s else count s (cTum t 24) 1

/-- Next line of a sweep, with its region's last. -/
def sweepNext (s : State) (x : SweepT) : Option (Nat × Bool) :=
  (rgnLines s x.region x.tum).bind (fun e =>
    if x.ptr < e.2 then some (e.1 + x.ptr, decide (x.ptr + 1 = e.2)) else none)

/-- One line of the running sweep in position `i`. -/
def sweepStep (s : State) (i : Nat) (x : SweepT) (flips : List CodeWord) : State :=
  match sweepNext s x with
  | some (y, last) =>
    when (!lineBusy s x.tum y && lineMay s (lineAccess s x.tum y (placeOf s x.tum y) .sweep false)) s
      (modSweep (sweepOne s x.tum y x.region flips) i (fun x => { x with ptr := x.ptr + 1, finished := last }))
  | none => s

/-- The next line of the sweep of `r` in tumbler `t`, where it may go on; a gated tumbler is woken for it (R149). -/
def sweepGo (s : State) (t r : Nat) (flips : List CodeWord) : State :=
  match sweepIdx s t r with
  | some i =>
    match s.sweeps[i]? with
    | some x => when (x.started && running s) s (if lineOpOk s t then sweepStep s i x flips else wakeTum s t)
    | none => s
  | none => s

/-- SWEEP_LINE (R148). -/
def execSweepLine (t : Tum) (r : BitVec 16) (flips : List CodeWord) (s : State) : Out :=
  .next (sweepGo s t r.toNat flips)

/-- Every tumbler has finished the running sweep of `r`. -/
def sweepOver (s : State) (r : Nat) : Bool :=
  let l := s.sweeps.filter (fun x => x.region = r)
  !l.isEmpty && l.all (·.finished)

/-- A clear that the partner orders takes effect here (R333 step 4). -/
def peerEffect (s : State) (r : Nat) (m : BitVec 2) : State := sendCtrl (clearPoint s r (some m)) 1 r []

/-- The sweep of `r` finishes (R147): an owed sweep starts, and a held clear takes effect. -/
def finishSweep (s : State) (r : Nat) : State :=
  let s := { s with sweeps := s.sweeps.filter (fun x => x.region != r) }
  if rgnSweep s r = 1 then storeRegion (setF s (rgnReg r) 3 2 0) r
  else
    let s := oweSweeps (storeRegion (setF s (rgnReg r) 3 2 1) r) r
    match s.pair.peerClear.find? (fun x => x.1 = r) with
    | some x =>
      peerEffect { s with pair := { s.pair with peerClear := s.pair.peerClear.filter (fun y => y.1 != r) } } r x.2.2
    | none => advanceClear s r

/-- The lines that no SWEEP_LINE has named, read without a further loss (log 66). -/
def sweepRest (s : State) (r : Nat) : State :=
  if sweepOver s r then s
  else foldUpTo 64 (fun s t => foldUpTo 262144 (fun s _ => sweepGo s t r []) s) s

/-- SWEEP_FINISH (R147). -/
def execSweepFinish (r : BitVec 16) (s : State) : Out :=
  let t := sweepRest s r.toNat
  .next (when (sweepOver t r.toNat && decide (rgnSweep t r.toNat = 1 ∨ rgnSweep t r.toNat = 2)) s
    (finishSweep t r.toNat))

/-! ## Initial sweep and re-initialisation (R151, R152, R381) -/

/-- Lines of a tumbler. -/
def tumLines (s : State) : Nat := s.part.activeLeaves * 8388608

/-- What the sweep in progress writes to a line of region `r`. -/
def sweepFill (s : State) (t r : Nat) : CodeWord :=
  let m := (s.tum t).mode
  if m.reinitPoison && rgnEpoch s r != 0 && !m.cleared.contains r then poisonWord (rgnEpoch s r) else encodeWord 0 0

/-- The line operation of the initial sweep's next line. -/
def initAccess (s : State) (t : Nat) : Access :=
  let x := (s.tum t).mode.sweepPtr
  lineAccess s t x (placeOf s t x) .sweep true

/-- One line of the initial sweep. -/
def initLine (s : State) (t : Nat) : State :=
  let x := (s.tum t).mode.sweepPtr
  let a := initAccess s t
  let s := lineEnd (lineStore s a 255 (fun _ => sweepFill s t (regionAt s t x))) a
  count (setMode s t (fun m => { m with sweepPtr := x + 1 })) (cTum t 25) 1

/-- The initial sweep goes on: its writes pause in a rate change (R88), a thermal emergency (R123) and a payment (R116). -/
def initOk (s : State) (t : Nat) : Bool :=
  let m := (s.tum t).mode
  haspLive s && !s.power.fatal && m.state = .initSweep && m.rate = .idle && !m.self && !m.emergency && !m.paying

/-- INITIAL_SWEEP_LINE (R151). -/
def execInitialSweepLine (t : Tum) (s : State) : Out :=
  .next (when (initOk s t && decide ((s.tum t).mode.sweepPtr < tumLines s) && lineMay s (initAccess s t)) s
    (initLine s t))

/-- Every tumbler that holds part of `r` has finished its initial sweep; one in latch-out counts as having (R503). -/
def rgnInitDone (s : State) (r : Nat) : Bool :=
  (regionTums s r).all (fun t => (s.tum t).mode.everOnline || tstate s t = .latchOut)

/-- Regions still in their initial sweep whose tumblers have all finished become (0b01, 0b00); those of a group under
re-initialisation wait for it (R151, R152). -/
def releaseRegions (s : State) : State :=
  foldUpTo s.part.regions (fun s r =>
    if rgnSweep s r == 3 && !s.reinits.any (fun x => x.regions.contains r) && rgnInitDone s r then
      storeRegion (setF (setF s (rgnReg r) 1 0 1) (rgnReg r) 3 2 0) r
    else s) s

/-- The sweep of the whole tumbler ends: it finishes the tumbler's part of every sweep whose clear point precedes its start,
and the tumbler comes online (R98, R149). -/
def initFinish (s : State) (t : Nat) : State :=
  let s := { s with sweeps := s.sweeps.map (fun x =>
    if x.tum = t then { x with finished := x.finished || !x.late, late := false } else x) }
  let s := setMode s t (fun m => { m with
    state := .online, everOnline := true, reinitPoison := false, cleared := [], sweepPtr := 0 })
  releaseRegions s

/-- Tumbler and line that a stored code word belongs to, by its number, a swap target's included (R162); none where no line
reaches it. -/
def lineOfKey (s : State) (k : Nat) : Option (Nat × Nat) :=
  let col := k / 8 % 16
  let row := k / 128 % 16400
  let bank := k / (128 * 16400) % 4
  let group := k / (4 * 128 * 16400) % 8
  let leaf := k / (32 * 128 * 16400) % 34
  let t := k / (34 * 32 * 128 * 16400)
  let n := match (s.tum t).swap with
    | some w => if w.dst = leaf then some w.logical else (List.range s.part.activeLeaves).find? (fun n => leafMap s t n == leaf)
    | none => (List.range s.part.activeLeaves).find? (fun n => leafMap s t n == leaf)
  let r :=
    if row < 16384 then if physRow s t leaf group bank row = row then some row else none
    else ((remapValid s).find? (fun i => rmpIn s t leaf group bank i && rmpState s i == 0
      && rmpSpare s i + 16384 == row)).map (rmpRow s)
  n.bind (fun n => r.map (fun r => (t, lineAt n group bank r col)))

/-- Every line of the module that satisfies `p` is stored as eight words of DATA 0 and EPOCH 0b00, whose code words read
as an unlisted byte does; their corrected-word cache entries are freed. -/
def zeroLines (s : State) (p : Nat → Nat → Bool) : State :=
  let hit := fun k => (lineOfKey s k).any (fun e => p e.1 e.2)
  let s2 := { s with dram := tfilter (fun a => !hit (a / 10)) s.dram }
  foldUpTo 64 (fun (u : State) t => u.modTum t (fun x => { x with cwc := x.cwc.filter (fun e => !hit e.word) })) s2

/-- Charge of `n` lines written in address order without line commands of their own (R203, log 66). -/
def chargeLines (s : State) (t n : Nat) : State := chargeMaster s t 2 (n + n / 16 * actUnits (rateOf s t))

/-- The lines that no INITIAL_SWEEP_LINE has named, where they are zeroed (log 66). -/
def initRest (s : State) (t : Nat) : State :=
  let x := (s.tum t).mode.sweepPtr
  if x = tumLines s then s
  else
    let s := count (chargeLines (zeroLines s (fun u y => u == t && decide (x ≤ y))) t (tumLines s - x)) (cTum t 25)
      (tumLines s - x)
    setMode s t (fun m => { m with sweepPtr := tumLines s })

/-- The initial sweep may finish: every line is written, or those left are to be zeroed. -/
def initOver (s : State) (t : Nat) : Bool :=
  initOk s t && ((s.tum t).mode.sweepPtr = tumLines s || !(s.tum t).mode.reinitPoison)

/-- INITIAL_SWEEP_FINISH (R151). -/
def execInitialSweepFinish (t : Tum) (s : State) : Out :=
  .next (when (initOver s t) s (initFinish (initRest s t) t))

/-- Line `x` of tumbler `t` is one that the re-initialisation `i` rewrites (R48). -/
def inReinit (s : State) (i : Reinit) (t x : Nat) : Bool := x / 262144 == i.group && i.regions.contains (regionAt s t x)

/-- The group may finish: earlier accesses performed, every tumbler able to write, no line in use. -/
def reinitReady (s : State) (x : Reinit) : Bool :=
  (List.range 64).all (fun t => (x.boot && tstate s t = .latchOut) || (lineOpOk s t && !stillThere s t x.before
    && (s.tum t).q.slots.all (fun k => !inReinit s x t k.line)))

/-- The range is rewritten and the regions take (0b01, 0b00) (R152). -/
def finishReinit (s : State) (x : Reinit) : State :=
  let s := zeroLines s (inReinit s x)
  let s := foldUpTo 64 (fun s t =>
    let n := 4096 * x.regions.length
    count (chargeLines s t n) (cTum t 25) n) s
  let s := { s with reinits := s.reinits.filter (fun y => y.group != x.group) }
  let s := x.regions.foldl (fun s r =>
    let s := storeRegion (setF (setF s (rgnReg r) 1 0 1) (rgnReg r) 3 2 0) r
    let peer := (clearOf s r).any (fun y => y.cmd.isNone)
    let s := modClear s r (fun y => { y with held := y.held.erase r })
    if peer then sendCtrl s 1 r [] else s) s
  settleClears s

/-- GROUP_REINIT_DONE (R152). -/
def execGroupReinitDone (g : BitVec 10) (s : State) : Out :=
  .next (match s.reinits.find? (fun x => x.group = g.toNat) with
    | some x => when (reinitReady s x) s (finishReinit s x)
    | none => s)

end Sys2Proof.Machine
end

