-- ==== Sys2Proof/Machine/PairRows.lean ====
section
/-! DEFINITION. The Bagelon pair: forming and leaving (R317, R364), packets received (R324 to R346), resynchronisation
(R343 to R345), and the loss of ports and of the partner (R338 to R340). -/

namespace Sys2Proof.Machine

open Sys2Proof

/-! ## Events and lists -/

/-- An event of R354: its bit and its source. -/
def pairEvt (s : State) (i : Nat) : State := setF (raise s (0x284 + i) 0) (pairReg 0x18) i i 1

/-- Regions with DIVERGED set, ascending. -/
def divergedList (s : State) : List Nat :=
  (s.csr.filter (fun e => inArr (rgnReg 0) 4 65536 e.1 && bit e.2.toNat 7)).map (fun e => (e.1 - rgnReg 0) / 4)

/-- Ascending union of two lists of regions. -/
def unionRegions (s : State) (a b : List Nat) : List Nat :=
  (List.range s.part.regions).filter (fun r => a.contains r || b.contains r)

/-- Answers a command whose outcome the spec does not state, with a free status (log 45). -/
def answerFree (s : State) (c : Option Cmd) : State :=
  match c with
  | some c =>
    let (f, s) := fresh s
    answer s c (BitVec.ofNat 16 f.toNat)
  | none => s

/-! ## Forming (R317, R318) -/

/-- A mirror port returns to Off and to the host role; `en` is what EN is to be. -/
def portToHost (s : State) (p : PortN) (en : Bool) : State :=
  let s := if (s.port p).link = .off ∨ (s.port p).link = .latchOut then s else portReset s p .off
  let s := setF s (fpReg p 0x8004) 1 0 0
  fromOff (setF s (fpReg p 0x8000) 0 0 (b2n en)) p

/-- A port of PAIR_FORM takes the mirror role and is enabled (R317); one in latch-out, which is not Off, keeps its role (R306). -/
def portToMirror (s : State) (p : PortN) : State :=
  if (s.port p).link = .latchOut then s else
  let s := if (s.port p).link = .off then s else portReset s p .off
  let s := setF s (fpReg p 0x8004) 1 0 1
  fromOff (setF s (fpReg p 0x8000) 0 0 1) p

def pairMember (s : State) : Nat := fld s (pairReg 0) 0 0

/-- PAIR_FORM takes effect (R317). -/
def startForm (s : State) (c : Cmd) : State :=
  let m := p1 c 15 0
  let en := foldUpTo 16 (fun n p => n + b2n (flag s (fpReg p 0x8000) 0) * 2 ^ p) 0
  let s := begin s c
  let s := wr s (pairReg 0) (BitVec.ofNat 32 (p0 c 31 16 * 2 ^ 16 + p0 c 1 1 * 2 + p0 c 0 0))
  let s := wr s (pairReg 8) (BitVec.ofNat 32 m)
  let s := { s with pair := { s.pair with
    state := .forming
    form := some c
    enBefore := BitVec.ofNat 16 en
    pgen := 0
    txSeq := []
    rxSeq := []
    nextTag := 0
    partnerFenced := 0
    maps := [] } }
  (allFins 16).foldl (fun (s : State) (p : PortN) => if bit m p then portToMirror s p else s) s

/-- PAIR_FORM (R317, R319). -/
def execPairForm (c : Cmd) (s : State) : Out :=
  runCmd s c 0x0400 (fun s =>
    let n := popNat 16 (p1 c 15 0)
    orFail s c
      [(s.pair.state != .unpaired, rcPairState), (n == 0 || decide (8 < n), rcBadValue),
       (decide (planMirror s < 16), rcNotAdmissible)]
      (startForm s c))

/-- PAIR_FORM is refused after its ports were changed (R317). -/
def formFails (s : State) (st : BitVec 16) : State :=
  let m := mirrorMask s
  let en := s.pair.enBefore.toNat
  let c := s.pair.form
  let s := { s with pair := { s.pair with state := .unpaired, form := none } }
  let s := wr (wr s (pairReg 0) 0) (pairReg 8) 0
  let s := (allFins 16).foldl (fun (s : State) (p : PortN) =>
    if bit m p then portToHost s p (bit en p) else s) s
  answerOpt s c st

/-- PAIR_FORM_TIMEOUT (R317). -/
def execPairFormTimeout (s : State) : Out :=
  .next (when (running s && s.pair.state = .forming) s (formFails s rcPairState))

/-- The port map is what runs now (R321). -/
def takeMap (s : State) : State :=
  setF s (pairReg 8) 31 16 ((mirrorPorts s).foldl (fun n p => n + 2 ^ p) 0)

/-- Regions that are copied: the counter dump destination is not (R327). -/
def copied (s : State) (l : List Nat) : List Nat :=
  l.filter (fun r => decide (r < s.part.regions) && !(dumpRegion s == some r))

/-- The resync set is empty: the pair is Paired, and PAIR_RESYNC is answered (R343, R345, R354). -/
def resyncOver (s : State) : State :=
  if s.pair.pending.isEmpty && (s.pair.state = .resyncSource || s.pair.state = .resyncTarget) then
    let c := s.pair.resync
    let s := { s with pair := { s.pair with state := .paired, resync := none, copy := [], copyRegion := none } }
    answerOpt (pairEvt s 3) c rcSuccess
  else s

/-- The pair runs a resynchronisation of `l` with this member in the given role. -/
def enterResync (s : State) (source : Bool) (l : List Nat) : State :=
  let l := copied s l
  let s := { s with pair := { s.pair with
    state := if source then .resyncSource else .resyncTarget
    pending := l
    orphan := s.pair.orphan.filter (fun r => !l.contains r)
    copy := []
    copyRegion := none
    maps := [] } }
  resyncOver s

/-- The pair has formed: a full resynchronisation from the source follows (R317, R318). -/
def formed (s : State) : State :=
  let c := s.pair.form
  let s := takeMap { s with pair := { s.pair with form := none, pgen := 0, txSeq := [], rxSeq := [], hands := [] } }
  let s := enterResync s (pairMember s = fld s (pairReg 0) 1 1) (List.range s.part.regions)
  answerOpt s c rcSuccess

/-! ## Leaving (R364) -/

/-- The mirror ports go to Off, DIVERGED is cleared, and the module is Unpaired. -/
def leavePair (s : State) (c : Cmd) : State :=
  let m := mirrorMask s
  let s := wr (wr s (pairReg 0) 0) (pairReg 8) 0
  let s := (divergedList s).foldl (fun s r => setF s (rgnReg r) 7 7 0) s
  let s := mramPut s 0xB42000 (List.replicate 8192 0)
  let s := { s with pair := { Pair.init with sentOn := 0 }, clears := s.clears.filter (fun x => x.cmd.isSome) }
  let s := (allFins 16).foldl (fun (s : State) (p : PortN) =>
    if bit m p then portToHost s p false else s) s
  answer s c rcSuccess

/-- A command of this member waits for what the partner answers: a clear or a change of home. -/
def owedByPartner (s : State) : Bool :=
  !s.pair.holdHome.isEmpty || !s.pair.holdClear.isEmpty ||
    s.clears.any (fun x => x.cmd.isSome && x.held.any (fun r => !clearsHere s r))

/-- PAIR_LEAVE goes on once every sequenced packet, every forward and every clear or change of home is answered, or the partner is
lost (R364, log 46). -/
def tryLeave (s : State) : State :=
  match s.pair.leave with
  | none => s
  | some c =>
    if !pairUp s || (s.pair.held.isEmpty && s.pair.fwds.isEmpty && !owedByPartner s) then leavePair s c else s

/-- PAIR_LEAVE (R364). -/
def execPairLeave (c : Cmd) (s : State) : Out :=
  runCmd s c 0x0401 (fun s =>
    orFail s c [(s.pair.state = .unpaired || s.pair.state = .resyncTarget, rcPairState)]
      (let s := begin s c
       tryLeave { s with pair := { s.pair with leave := some c } }))

/-! ## MAP and PAIR_RESYNC (R343, R345) -/

/-- MAP of the 2,048 regions from `2048 b`, with the bits of `l` beside DIVERGED. -/
def mapPkt (s : State) (b : Nat) (l : List Nat) : PairPkt :=
  let d := divergedList s
  let v := foldUpTo 2048 (fun n i =>
    n + b2n (d.contains (2048 * b + i) || l.contains (2048 * b + i)) * 2 ^ i) 0
  ctrlPkt s 8 (2048 * b) (toChunks 128 v)

def sendMap (s : State) (b : Nat) (l : List Nat) : State := sendSeq s 0x14 (2048 * b) (mapPkt s b l) none

def mapBlocks (s : State) : List Nat := List.range (s.part.regions / 2048)

/-- Both MAP exchanges of a rejoin are complete: resynchronisation begins (R343). -/
def tryRejoin (s : State) : State :=
  match s.pair.resync with
  | none => s
  | some c =>
    if s.pair.state = .solo && (mapBlocks s).all (fun b => s.pair.maps.contains b) then
      enterResync s (p0 c 0 0 == pairMember s) (unionRegions s (divergedList s) s.pair.pending)
    else s

/-- PAIR_RESYNC in Solo: the members exchange MAP packets; the port map, PGEN and the sequence numbers start again as they do
when a pair forms (R343, log 47). -/
def startRejoin (s : State) (c : Cmd) : State :=
  let s := begin s c
  let s := takeMap { s with pair := { s.pair with resync := some c, pgen := 0, txSeq := [], rxSeq := [], held := [], hands := [] } }
  tryRejoin ((mapBlocks s).foldl (fun s b => sendMap s b []) s)

/-- PAIR_RESYNC naming one region (R345). -/
def startOne (s : State) (c : Cmd) : State :=
  let r := p0 c 47 32
  let source := p0 c 0 0 == pairMember s
  let s := begin s c
  let s := { s with pair := { s.pair with resync := some c } }
  let s := if source then sendMap s (r / 2048) [r] else s
  enterResync s source (unionRegions s s.pair.pending [r])

/-- The states in which PAIR_RESYNC runs: Solo, or for one region a pair whose roles agree with the command. -/
def resyncState (s : State) (c : Cmd) : Bool :=
  let source := p0 c 0 0 == pairMember s
  if p0 c 16 16 = 0 then s.pair.state = .solo
  else s.pair.state = .paired || s.pair.state = (if source then .resyncSource else .resyncTarget)

/-- PAIR_RESYNC (R319, R343, R345). -/
def execPairResync (c : Cmd) (s : State) : Out :=
  runCmd s c 0x0402 (fun s =>
    orFail s c
      [(!resyncState s c, rcPairState), (decide (planMirror s < 16), rcNotAdmissible),
       (p0 c 16 16 == 1 && decide (s.part.regions ≤ p0 c 47 32), rcBadRange)]
      (if p0 c 16 16 = 1 then startOne s c else startRejoin s c))

/-! ## Change of home (R334) -/

/-- Writes HOME and HOME_EFF with the region's record (R50, R51). -/
def setHome (s : State) (r h : Nat) : State :=
  let e := if h = 1 then 0 else if h = 2 then 1 else r % 2
  storeRegion (setF (setF s (rgnReg r) 6 5 h) (rgnReg r) 10 10 e) r

/-- HOME goes out once every replica of the region is acknowledged. -/
def tryHome (s : State) : State :=
  s.pair.holdHome.foldl (fun s h =>
    if s.pair.homeSent.contains h.1 || s.pair.held.any (fun k => k.ty = 0x12 && k.region = h.1) then s
    else
      let s := { s with pair := { s.pair with homeSent := h.1 :: s.pair.homeSent } }
      sendCtrl s 2 h.1 [BitVec.ofNat 16 h.2.1.toNat]) s

/-- PAIR_HOME_SET (R334). -/
def homeSet (s : State) (c : Cmd) : State :=
  let r := p0 c 15 0
  let h := p0 c 17 16
  let here := pairUp s && rgnHomeEff s r == pairMember s
  orFail s c
    [(h == 3, rcBadValue), (decide (s.part.regions ≤ r), rcBadRange),
     (s.pair.state != .unpaired && !here, rcPairState), (s.mramFenced, rcMramFault)]
    (if s.pair.state = .unpaired then answer (setHome s r h) c rcSuccess
     else
       let s := begin s c
       tryHome { s with pair := { s.pair with holdHome := s.pair.holdHome ++ [(r, BitVec.ofNat 2 h, c)] } })

def execPairHomeSet (c : Cmd) (s : State) : Out := runCmd s c 0x0201 (fun s => homeSet s c)

/-! ## Packets received: frames (R324, R325) -/

/-- A pair packet can be taken from port `p`. -/
def takesPair (s : State) (p : Nat) : Bool := running s && carries s p && mirrorRole s p

/-- The packet leaves the port's store, which raises the PAIR limit (R302). -/
def takePair (s : State) (p ty : Nat) (k : PairPkt) : State :=
  (dropPkt s p (encodePair ty k)).modPort p (fun x => { x with
    granted := tput zero x.granted 2 (tget zero x.granted 2 + 1)
    creditDue := true })

/-- The frame of a packet: a malformed one is skipped, one for an idle engine is dropped, and one that must wait stays. -/
def pairRow (s : State) (p : PortN) (ty sub : Nat) (k : PairPkt) (may : State → Bool) (f : State → State) : Out :=
  .next (when (takesPair s p) s
    (if !pairShape ty k || k.sub.toNat != sub then badPair (takePair s p ty k) p
     else if s.pair.state = .unpaired ∨ s.pair.state = .latchOut then takePair s p ty k
     else when (may s) s (f (takePair s p ty k))))

/-- The packet is the next of its port's sequence (R324). -/
def inTurn (s : State) (p : Nat) (k : PairPkt) : Bool :=
  k.pseq = tget noSeq s.pair.rxSeq p + 1 && (pairUp s || s.pair.state = .solo)

/-- A sequenced packet has been performed at once: it is acknowledged with those before it. -/
def seqDone (s : State) (p ty : Nat) (k : PairPkt) : State := ackHands (takeHand s p ty k true) p

/-- A sequenced CTRL packet whose effect is `f`. -/
def ctrlRow (s : State) (p : PortN) (sub : Nat) (k : PairPkt) (f : State → State) : Out :=
  pairRow s p 0x14 sub k (fun s => inTurn s p k) (fun s => seqDone (f s) p 0x14 k)

/-- A sequenced CTRL packet that answers this member's clear or change of home: a leave that waited for it may go on. -/
def answerRow (s : State) (p : PortN) (sub : Nat) (k : PairPkt) (f : State → State) : Out :=
  pairRow s p 0x14 sub k (fun s => inTurn s p k) (fun s => tryLeave (seqDone (f s) p 0x14 k))

/-- Region that a region message names (R323). -/
def pktRegion (k : PairPkt) : Nat := bits k.addr.toNat 39 24

/-- Every earlier packet of port `p` about region `r` has its effect (R324, log 36). -/
def settledRegion (s : State) (p r : Nat) : Bool :=
  !s.pair.hands.any (fun h => h.port = p && !h.done && pktRegion h.pkt == r)

/-! ## Requests and replicas (R328, R329, R336) -/

/-- The access of a FWD (R325, R329, R332). -/
def fwdAccess (s : State) (k : PairPkt) : Access :=
  let d := chunkNat (k.body.take 2)
  let w := k.body.drop 2
  let kind := kindOf (bits d 3 0) (BitVec.ofNat 2 (bits d 5 4))
  let write := kind = .write
  { newAccess s kind (.flow 0) k.addr with
    cls := BitVec.ofNat 8 (bits d 17 10), urg := BitVec.ofNat 2 (bits d 7 6), hint := BitVec.ofNat 2 (bits d 9 8),
    be := if write then BitVec.ofNat 64 (chunkNat (w.take 4)) else 0,
    data := if write then BitVec.ofNat 512 (chunkNat (w.drop 4)) else 0,
    op1 := if write then 0 else BitVec.ofNat 64 (chunkNat (w.take 4)),
    op2 := if write then 0 else BitVec.ofNat 64 (chunkNat ((w.drop 4).take 4)), ftag := some k.ftag }

/-- FWD (R329, R331, R336). -/
def execFwd (p : PortN) (k : PairPkt) (s : State) : Out :=
  pairRow s p 0x11 k.sub.toNat k (fun s => inTurn s p k) (fun s =>
    let s := takeHand (count s (cPair 1) 1) p 0x11 k false
    arrive s (fwdAccess s k))

/-- Byte enables of the words of a mask. -/
def wordsBe (m : Nat) : Nat := foldUpTo 8 (fun n w => n + (if bit m w then 255 * 2 ^ (8 * w) else 0)) 0

/-- A line with the carried words in their places. -/
def wordsData (m : Nat) (l : List (BitVec 16)) : Nat :=
  (foldUpTo 8 (fun (x : Nat × List (BitVec 16)) w =>
    if bit m w then (x.1 + chunkNat (x.2.take 4) * 2 ^ (64 * w), x.2.drop 4) else x) (0, l)).1

/-- The access of a REPLICA. -/
def replicaAccess (s : State) (p : Nat) (k : PairPkt) : Access :=
  { newAccess s .write (.master .pair) k.addr with
    tag := BitVec.ofNat 16 p, op1 := k.pseq.setWidth 64, be := BitVec.ofNat 64 (wordsBe k.wmask.toNat),
    data := BitVec.ofNat 512 (wordsData k.wmask.toNat k.body) }

/-- REPLICA (R328, R329, R335); the counter dump destination is left as it is (R327). -/
def execReplica (p : PortN) (k : PairPkt) (s : State) : Out :=
  pairRow s p 0x12 k.sub.toNat k (fun s => inTurn s p k) (fun s =>
    let s := takeHand (count s (cPair 3) 1) p 0x12 k false
    if dumpRegion s == some (pktRegion k) then replicaDone s p k else arrive s (replicaAccess s p k))

/-! ## Acknowledgement -/

/-- `a` is at or before `b` in the count of R324. -/
def seqLe (a b : BitVec 32) : Bool := decide ((b - a).toNat < 2 ^ 31)

/-- A held packet is acknowledged: a write that waited for it completes (R328). -/
def heldDone (s : State) (h : HeldPkt) : State :=
  match h.done with
  | some (a, c) => complete s a c true
  | none => s

/-- What waits for acknowledgements looks again. -/
def ackEffects (s : State) : State := tryLeave (tryHome (pump s))

/-- The packets of `l` leave the buffer. -/
def freeHeld (s : State) (f : HeldPkt → Bool) : State :=
  let l := s.pair.held.filter f
  l.foldl heldDone { s with pair := { s.pair with held := s.pair.held.filter (fun h => !f h) } }

/-- ACK (R324). -/
def execPairAck (p : PortN) (k : PairPkt) (s : State) : Out :=
  pairRow s p 0x13 0 k (fun _ => true) (fun s =>
    ackEffects (freeHeld s (fun h => h.port == p.val && seqLe h.pkt.pseq k.pseq)))

/-! ## HELLO (R317, R326, R339) -/

/-- The HELLO matches this member's own (R317). -/
def helloMatches (s : State) (k : PairPkt) : Bool :=
  let ident := chunkNat (k.body.take 2)
  let ids := (k.body.getD 3 0).toNat
  bits ident 31 4 == fld s 0 31 4 && (k.body.getD 2 0).toNat == fld s (pairReg 0) 31 16 &&
    bits ids 0 0 != pairMember s && bits ids 1 1 == fld s (pairReg 0) 1 1

/-! ## Losing the partner (R340, R346) -/

/-- A request that was sent to the partner is performed here: it waits before the queue again, ahead of those that came after it
(R67, R340). -/
def redoForwards (s : State) : State :=
  { s with
    waiting := s.pair.fwds.map (·.2) ++ s.waiting
    pair := { s.pair with fwds := [] } }

/-- The sequenced packets are freed: each region whose replica was not acknowledged is diverged (R340). -/
def freeUnacked (s : State) : State :=
  let l := s.pair.held
  let s := { s with pair := { s.pair with held := [] } }
  l.foldl (fun s h => heldDone (if h.ty = 0x12 then setDiverged s h.region else s) h) s

/-- Clears that waited for the partner go on alone; those that the partner asked for end (R340, log 48). -/
def clearsAlone (s : State) : State :=
  let held := s.pair.holdClear.map (·.1)
  let s := { s with
    clears := s.clears.filter (fun x => x.cmd.isSome)
    pair := { s.pair with holdClear := [], peerClear := [] } }
  let own := (s.clears.flatMap (·.held)).filter (fun r => !held.contains r)
  let s := held.foldl clearEffect s
  own.foldl advanceClear s

/-- Commands that needed the partner end; the spec states no status for them (log 45). -/
def pairCmdsEnd (s : State) : State :=
  let l := s.pair.holdHome.map (·.2.2) ++ s.pair.resync.toList
  let s := { s with pair := { s.pair with holdHome := [], homeSent := [], resync := none } }
  l.foldl (fun s c => answerFree s (some c)) s

/-- The partner is lost (R339, R340, R346). -/
def partnerLost (s : State) : State :=
  let was := s.pair.state
  let pend := s.pair.pending
  let s := count (pairEvt { s with pair := { s.pair with
    state := .solo
    pending := []
    copy := []
    copyRegion := none
    maps := []
    mapWait := none
    hands := []
    partnerFenced := 0
    orphan := if was = .resyncTarget then s.pair.orphan ++ pend else s.pair.orphan } } 0) (cPair 7) 1
  let s := if was = .resyncSource then pend.foldl setDiverged s else s
  tryLeave (pairCmdsEnd (clearsAlone (redoForwards (freeUnacked s))))

/-- HELLO (R317, R326, R339). -/
def helloIn (s : State) (k : PairPkt) : State :=
  if s.pair.state = .forming then
    if k.sub = 1 then if helloMatches s k then formed s else formFails s rcPairMismatch else s
  else if k.sub = 0 ∧ k.body.getD 4 0 = 1 then if pairUp s then partnerLost s else s
  else if s.pair.state = .solo then pairEvt s 1
  else s

def execHello (p : PortN) (k : PairPkt) (s : State) : Out :=
  pairRow s p 0x10 k.sub.toNat k (fun _ => true) (fun s => helloIn s k)

/-- HELLO_HEARTBEAT (R339): on each mirror port without another pair packet since the last one. -/
def heartbeat (s : State) : State :=
  let sent := s.pair.sentOn.toNat
  let s := (mirrorPorts s).foldl (fun s p => if bit sent p then s else sendPair s p 0x10 (helloPkt s 0 0)) s
  { s with pair := { s.pair with sentOn := 0 } }

def execHelloHeartbeat (s : State) : Out :=
  .next (when (running s && (pairUp s || s.pair.state = .solo)) s (heartbeat s))

/-- PARTNER_LOSS_TIMEOUT (R339). -/
def execPartnerLossTimeout (s : State) : Out := .next (when (running s && pairUp s) s (partnerLost s))

/-! ## Port map (R338) -/

/-- Sends a packet in the sequence of port `p` and holds it. -/
def sendOn (s : State) (p ty : Nat) (k : PairPkt) : State :=
  let n := tget zero s.pair.txSeq p
  let k := { k with pgen := s.pair.pgen, pseq := n }
  let h : HeldPkt := { port := p, ty := ty, pkt := k, region := 65536, done := none }
  sendPair { s with pair := { s.pair with
    txSeq := tput zero s.pair.txSeq p (n + 1), held := s.pair.held ++ [h] } } p ty k

/-- The map has changed (R338, R354). -/
def mapChanged (s : State) : State := count (pairEvt s 2) (cPair 8) 1

/-- A mirror port is lost: the map lists the mirror ports that run now, PORTMAP goes out on them, and none left loses the partner
(R321, R338, R339). -/
def portLost (s : State) (p : Nat) : State :=
  let s := mapChanged (takeMap s)
  let s := { s with pair := { s.pair with pgen := s.pair.pgen + 1, mapWait := some p } }
  if (mapPorts s).isEmpty then partnerLost s
  else (mapPorts s).foldl (fun s q => sendOn s q 0x14 (pairHdr s 8 4 0)) s

/-- MIRROR_PORT_LOSS (R338). -/
def execMirrorPortLoss (p : PortN) (s : State) : Out :=
  .next (when (running s && pairUp s && flag s (pairReg 8) (16 + p.val) &&
      ((s.port p).link = .off || (s.port p).link = .latchOut || (s.port p).link = .detect)) s (portLost s p))

/-- The mirror ports in ascending order (R325). -/
def mirrorList (s : State) : List Nat := (List.range 16).filter (fun p => bit (mirrorMask s) p)

/-- Region `r` is held by a clear or a change of home that waits for the partner. -/
def awaitsPartner (s : State) (r : Nat) : Bool :=
  s.pair.holdClear.any (fun h => h.1 = r) || s.pair.holdHome.any (fun h => h.1 = r)

/-- Every packet accepted from a lost port has been performed, but for those that this member's own clear or change of home holds
back until the partner answers (log 36). -/
def lostPortsClear (s : State) : Bool :=
  s.pair.hands.all (fun h => h.done || carries s h.port || awaitsPartner s (pktRegion h.pkt))

/-- PORTMAP (R338): every packet accepted from a lost port has been performed, and PORTMAP_ACK says so on every port. -/
def portmapIn (s : State) (k : PairPkt) : State :=
  let s := mapChanged (takeMap s)
  let s := { s with pair := { s.pair with pgen := k.pgen } }
  let body := ((mirrorList s).flatMap (fun p => toChunks 2 (tget noSeq s.pair.rxSeq p).toNat) ++ List.replicate 16 0).take 16
  (mapPorts s).foldl (fun s q => sendOn s q 0x14 { pairHdr s 24 5 0 with body := body }) s

def execPortmap (p : PortN) (k : PairPkt) (s : State) : Out :=
  pairRow s p 0x14 4 k (fun s => inTurn s p k && lostPortsClear s) (fun s => seqDone (portmapIn s k) p 0x14 k)

/-- Last PSEQ that the partner performed from port `p`, as PORTMAP_ACK gives it. -/
def lastPerformed (s : State) (k : PairPkt) (p : Nat) : BitVec 32 :=
  BitVec.ofNat 32 (chunkNat ((k.body.drop (2 * (mirrorList s).findIdx (· == p))).take 2))

/-- PORTMAP_ACK (R338): what the partner performed is acknowledged, and the rest is sent again under the new map. -/
def portmapAckIn (s : State) (k : PairPkt) : State :=
  if s.pair.mapWait.isNone ∨ k.pgen ≠ s.pair.pgen then s
  else
    let lost (h : HeldPkt) : Bool := decide (h.port < 16) && !flag s (pairReg 8) (16 + h.port)
    let s2 := freeHeld s (fun h => lost h && (seqLe h.pkt.pseq (lastPerformed s k h.port) || h.region == 65536))
    let x := s2.pair
    ackEffects { s2 with pair := { x with
      mapWait := none
      held := x.held.map (fun h => if lost h then { h with port := 16 } else h) } }

def execPortmapAck (p : PortN) (k : PairPkt) (s : State) : Out := ctrlRow s p 5 k (fun s => portmapAckIn s k)

/-! ## Clears between the members (R333) -/

/-- RESULT reject about region `r`. -/
def sendReject (s : State) (p r : Nat) : State := sendPair s p 0x16 (rejectPkt s (r * 2 ^ 24) 0)

/-- The partner asks this member, the home of `r`, to clear it. -/
def clearAsked (s : State) (p r : Nat) (m : BitVec 2) : State :=
  if clearBusy s r (some m) then sendReject s p r
  else
    let s := { s with clears := s.clears ++ [{ cmd := none, held := [r], passed := [], mode := some m, refused := false }] }
    startReinit (advanceClear s r) (r / 64)

/-- The home orders this member to clear `r` (R147, R333 step 4). -/
def clearOrdered (s : State) (p r : Nat) (m : BitVec 2) : State :=
  let move := localChange s r (some m)
  let sw := rgnSweep s r
  if sw = 3 ∨ (move ∧ sw ≠ 0) ∨ s.pair.peerClear.any (fun x => x.1 = r) then sendReject s p r
  else if sw = 2 then { s with pair := { s.pair with peerClear := s.pair.peerClear ++ [(r, p, m)] } }
  else
    let s := peerEffect s r m
    if move then startReinit s (r / 64) else s

/-- MODE that a CLEAR names. -/
def clearPktMode (k : PairPkt) : BitVec 2 := BitVec.ofNat 2 (k.body.getD 0 0).toNat

/-- CLEAR takes effect after every earlier packet of its port about the region; a request that is refused anyhow does not wait. -/
def mayClearPkt (s : State) (p : Nat) (k : PairPkt) : Bool :=
  settledRegion s p (pktRegion k)
    || (clearsHere s (pktRegion k) && clearBusy s (pktRegion k) (some (clearPktMode k)))

/-- CLEAR (R333). -/
def execClear (p : PortN) (k : PairPkt) (s : State) : Out :=
  pairRow s p 0x14 0 k (fun s => inTurn s p k && mayClearPkt s p k) (fun s =>
    let r := pktRegion k
    let m := clearPktMode k
    seqDone (if s.part.regions ≤ r then s
      else if clearsHere s r then clearAsked s p r m else clearOrdered s p r m) p 0x14 k)

/-- The partner has cleared `r`: this member's own clear goes on, or its command's region is done (R333 step 5). -/
def clearAckIn (s : State) (r : Nat) : State :=
  if s.pair.holdClear.any (fun h => h.1 = r) then
    clearEffect { s with pair := { s.pair with holdClear := s.pair.holdClear.filter (fun h => h.1 != r) } } r
  else modClear s r (fun x => { x with held := x.held.erase r, passed := x.passed ++ [r] })

/-- CLEAR_ACK (R333). -/
def execClearAck (p : PortN) (k : PairPkt) (s : State) : Out := answerRow s p 1 k (fun s => clearAckIn s (pktRegion k))

/-- The partner refuses the clear of `r` (R333 step 5). -/
def clearRejected (s : State) (r : Nat) : State :=
  let peer := (clearOf s r).any (fun x => x.cmd.isNone)
  let s := { s with pair := { s.pair with holdClear := s.pair.holdClear.filter (fun h => h.1 != r) } }
  let s := modClear s r (fun x => { x with held := x.held.erase r, refused := true })
  settleClears (if peer then sendReject s (seqPort s r) r else s)

/-- RESULT with SUB 1: a replica for a fenced tumbler, or a clear, whichever was sent first (R333, R335, log 49). -/
def rejectIn (s : State) (k : PairPkt) : State :=
  let s := count s (cPair 4) 1
  let r := pktRegion k
  let replica (h : HeldPkt) : Bool := h.ty = 0x12 && h.pkt.addr = k.addr
  match s.pair.held.find? (fun h => replica h || (h.ty = 0x14 && h.pkt.sub = 0 && h.region = r)) with
  | some h => if replica h then setDiverged s r else clearRejected s r
  | none => if heldClear s r then clearRejected s r else setDiverged s r

def execResultReject (p : PortN) (k : PairPkt) (s : State) : Out :=
  pairRow s p 0x16 1 k (fun _ => true) (fun s => tryLeave (rejectIn s k))

/-- RESULT with SUB 0 (R336). -/
def execResultReadData (p : PortN) (k : PairPkt) (s : State) : Out :=
  pairRow s p 0x16 0 k (fun _ => true) (fun s =>
    let v := (k.body.headD 0).toNat
    let ok := bits v 3 0 ≤ 1
    fwdDone s k.ftag v true (if ok then 2 * (k.body.length - 1) else 0) (if ok then chunkNat (k.body.drop 1) else 0))

/-! ## Home (R334) -/

/-- HOME (R334). -/
def execHome (p : PortN) (k : PairPkt) (s : State) : Out :=
  pairRow s p 0x14 2 k (fun s => inTurn s p k && settledRegion s p (pktRegion k)) (fun s =>
    let r := pktRegion k
    let h := bits (k.body.headD 0).toNat 1 0
    seqDone (sendCtrl (if s.part.regions ≤ r ∨ h = 3 then s else setHome s r h) 3 r []) p 0x14 k)

/-- HOME_ACK (R334). -/
def homeAcked (s : State) (r : Nat) : State :=
  match s.pair.holdHome.find? (fun h => h.1 = r) with
  | none => s
  | some h =>
    let s := { s with pair := { s.pair with
      holdHome := s.pair.holdHome.filter (fun x => x.1 != r), homeSent := s.pair.homeSent.erase r } }
    answer (setHome s r h.2.1.toNat) h.2.2 rcSuccess

def execHomeAck (p : PortN) (k : PairPkt) (s : State) : Out := answerRow s p 3 k (fun s => homeAcked s (pktRegion k))

/-! ## Fenced tumblers (R335, R337) -/

/-- FENCE (R335). -/
def execFence (p : PortN) (k : PairPkt) (s : State) : Out :=
  ctrlRow s p 6 k (fun s =>
    { s with pair := { s.pair with
      partnerFenced := s.pair.partnerFenced ||| BitVec.ofNat 64 (chunkNat (k.body.take 4)) } })

/-- Every region with lines in a tumbler of the mask becomes diverged (R337). -/
def divergeTums (s : State) (m : Nat) : State :=
  foldUpTo s.part.regions (fun s r => if (regionTums s r).any (bit m) then setDiverged s r else s) s

/-- UNFENCE (R337): the pair enters resynchronisation with this member as source. -/
def unfenceIn (s : State) (m : Nat) (again : Bool) : State :=
  let s := { s with pair := { s.pair with partnerFenced := s.pair.partnerFenced &&& ~~~ (BitVec.ofNat 64 m) } }
  let s := if again then divergeTums s m else s
  if s.pair.state = .paired || s.pair.state = .resyncSource then
    let s := (mapBlocks s).foldl (fun s b => sendMap s b []) s
    let l := unionRegions s (divergedList s) s.pair.pending
    if l.isEmpty then s else enterResync s true l
  else s

def execUnfence (p : PortN) (k : PairPkt) (s : State) : Out :=
  ctrlRow s p 7 k (fun s => unfenceIn s (chunkNat (k.body.take 4)) ((k.body.getD 4 0).toNat % 2 == 1))

/-! ## Resynchronisation (R343 to R345) -/

/-- MAP (R337, R343). -/
def mapIn (s : State) (k : PairPkt) : State :=
  let b := pktRegion k
  let v := chunkNat k.body
  let l := copied s (((List.range 2048).filter (bit v)).map (b + ·))
  if s.pair.state = .paired then if l.isEmpty then s else enterResync s false l
  else
    let s := { s with pair := { s.pair with pending := unionRegions s s.pair.pending l } }
    if s.pair.state = .solo then tryRejoin { s with pair := { s.pair with maps := (b / 2048) :: s.pair.maps } } else s

def execMap (p : PortN) (k : PairPkt) (s : State) : Out := ctrlRow s p 8 k (fun s => mapIn s k)

/-- Region `r` has been copied: it is no longer pending, and DIVERGED ends unless a fenced tumbler kept its lines back. -/
def regionCopied (s : State) (r : Nat) : State :=
  let part := (regionTums s r).any (fun t => fencedHere s t || fencedThere s t)
  let s := if part then s else clearDiverged s r
  resyncOver { s with pair := { s.pair with pending := s.pair.pending.filter (· != r) } }

/-- RESYNC_DONE (R344). -/
def execResyncDone (p : PortN) (k : PairPkt) (s : State) : Out :=
  pairRow s p 0x14 9 k (fun s => inTurn s p k && settledRegion s p (pktRegion k)) (fun s =>
    seqDone (regionCopied s (pktRegion k)) p 0x14 k)

/-- The region that the source copies now, the lowest that is pending; its lines of `t` not yet copied. -/
def copyLeft (s : State) (r t : Nat) : List Nat :=
  if fencedHere s t || fencedThere s t then []
  else match rgnLines s r t with
    | some (b, n) => (List.range (n - tget zero s.pair.copy t)).map (b + tget zero s.pair.copy t + ·)
    | none => []

/-- The line operation of a resynchronisation on line `x` (R206). -/
def resyncAccess (s : State) (t x : Nat) (write : Bool) : Access :=
  { lineAccess s t x (placeOf s t x) .pair write with op2 := 1 }

/-- Resynchronisation stays within WRD_PLAN.MIRROR units per µs of the window, the replica charge counted in (R206). -/
def resyncCap (s : State) (t : Nat) : Bool :=
  decide (tget zero s.ward.mirror t * 25 < planMirror s * 4 * s.ward.winLen)

/-- The line operation of a resynchronisation may be performed now. -/
def resyncMay (s : State) (t x : Nat) (write : Bool) : Bool :=
  !lineBusy s t x && lineMay s (resyncAccess s t x write) && resyncCap s t

/-- Reads a line and sends RESYNC_LINE (R325, R344). -/
def copyLine (s : State) (r t x : Nat) (flips : List CodeWord) : State :=
  let a := resyncAccess s t x false
  let read := lineRead (lineEnter s a) a (rgnEpoch s r) flips
  let s := lineEnd (writeBacks read.1 a read.2) a
  let z := read.2.zipIdx
  let m := z.foldl (fun n y => n + b2n y.1.live * 2 ^ y.2) 0
  let q := z.foldl (fun n y => n + b2n (y.1.live && y.1.poison) * 2 ^ y.2) 0
  let d := z.flatMap (fun y => toChunks 4 (if y.1.live && !y.1.poison then y.1.data else 0))
  let k := { pairHdr s 41 0 (addrOf s t x) with body := BitVec.ofNat 16 (m + 256 * q) :: d }
  let s := { s with pair := { s.pair with copy := tput zero s.pair.copy t (tget zero s.pair.copy t + 1) } }
  sendSeq (count s (cPair 5) 1) 0x15 r k none

/-- A region whose every tumbler has finished ends with RESYNC_DONE. -/
def copyEnd (s : State) (r : Nat) : State :=
  if (regionTums s r).all (fun t => (copyLeft s r t).isEmpty) then
    let s := sendCtrl { s with pair := { s.pair with copy := [], copyRegion := none } } 9 r []
    regionCopied (count s (cPair 10) 1) r
  else s

/-- RESYNC_COPY_LINE (R344): tumbler `t` copies its next line of the lowest pending region; a gated one is woken. -/
def copyStep (s : State) (t : Nat) (flips : List CodeWord) : State :=
  match s.pair.pending.head? with
  | none => s
  | some r =>
    match copyLeft s r t with
    | [] => copyEnd s r
    | x :: _ =>
      if s.pair.holdClear.any (fun h => h.1 = r) || !pairRoom s r then s
      else if !lineOpOk s t then wakeTum s t
      else if resyncMay s t x false then
        copyEnd (copyLine { s with pair := { s.pair with copyRegion := some r } } r t x flips) r
      else s

def execResyncCopyLine (t : Tum) (flips : List CodeWord) (s : State) : Out :=
  .next (when (running s && s.pair.state = .resyncSource && s.pair.mapWait.isNone) s (copyStep s t flips))

/-- Code word of word `w` of a RESYNC_LINE: a matching word under the region's EPOCH, any other as DATA 0 with EPOCH 0b00
(R344). -/
def copyWord (k : PairPkt) (e w : Nat) : CodeWord :=
  let m := (k.body.headD 0).toNat
  if !bit m w then encodeWord 0 0
  else if bit m (8 + w) then poisonWord e
  else encodeWord (chunkNat ((k.body.drop (1 + 4 * w)).take 4)) e

/-- Stores a line of RESYNC_LINE. -/
def storeCopy (s : State) (t x r : Nat) (k : PairPkt) : State :=
  let a := resyncAccess s t x true
  lineEnd (lineStore (lineEnter s a) a 255 (copyWord k (rgnEpoch s r))) a

/-- RESYNC_LINE (R344): a line operation; a line of a fenced tumbler is rejected as a replica is (R335), and the counter dump
destination is left as it is (R327). -/
def resyncLineIn (s : State) (p : Nat) (k : PairPkt) : State :=
  let (t, x) := lineOf s k.addr.toNat
  let r := regionOf k.addr.toNat
  let s := count s (cPair 6) 1
  if dumpRegion s == some r then s
  else if fencedHere s t then sendPair s p 0x16 (rejectPkt s k.addr.toNat 0)
  else storeCopy s t x r k

/-- The line of a RESYNC_LINE can be stored now. -/
def copyMay (s : State) (k : PairPkt) : Bool :=
  let (t, x) := lineOf s k.addr.toNat
  dumpRegion s == some (regionOf k.addr.toNat) || fencedHere s t || (lineOpOk s t && resyncMay s t x true)

/-- The RESYNC_LINE is next in turn and waits for its gated tumbler (R87). -/
def copyAsleep (s : State) (p : Nat) (k : PairPkt) : Bool :=
  takesPair s p && pairShape 0x15 k && k.sub == 0 && inTurn s p k && settledRegion s p (pktRegion k) && !copyMay s k &&
    !lineOpOk s (lineOf s k.addr.toNat).1

def execResyncLine (p : PortN) (k : PairPkt) (s : State) : Out :=
  if copyAsleep s p k then .next (wakeTum s (lineOf s k.addr.toNat).1) else
  pairRow s p 0x15 0 k (fun s => inTurn s p k && settledRegion s p (pktRegion k) && copyMay s k)
    (fun s => seqDone (resyncLineIn s p k) p 0x15 k)

/-! ## Divergence bitmap (R340, R464) -/

/-- The 8-byte word of the bitmap that holds region `r`. -/
def divergedWord (s : State) (r : Nat) : List Byte :=
  let b := r / 64 * 64
  leBytes 8 (foldUpTo 64 (fun n i => n + b2n (rgnDiverged s (b + i)) * 2 ^ i) 0)

/-- Writes the dirty words; where the last one fails its verify, MRAM_RECORD is recorded (R340, R398). -/
def commitDiverged (s : State) (ok : Bool) : State :=
  match ((s.pair.dirty.map (· / 64)).eraseDups).reverse with
  | [] => s
  | last :: rest =>
    let s := rest.reverse.foldl (fun s b => mramPut s (0xB42000 + 8 * b) (divergedWord s (64 * b))) s
    let (s, done) := mramStore s (0xB42000 + 8 * last) (divergedWord s (64 * last)) ok
    if done then { s with pair := { s.pair with dirty := [] } }
    else fault { s with pair := { s.pair with dirty := s.pair.dirty.filter (fun r => r / 64 == last) } } .pair 2 0 1

/-- DIVERGED_COMMIT (R340). -/
def execDivergedCommit (ok : Bool) (s : State) : Out := .next (when (haspLive s) s (commitDiverged s ok))

end Sys2Proof.Machine
end

