-- ==== Sys2Proof/Machine/Repair.lean ====
section
/-! DEFINITION. Patrol scrubbing (R153, R154), row remap (R157 to R159) and leaf swap (R160 to R165). -/

namespace Sys2Proof.Machine

open Sys2Proof

/-! ## Patrol scrubbing -/

/-- Active leaf-slices of a tumbler, in physical leaf order. -/
def activeSlices (s : State) (t : Nat) : List Nat := (List.range s.part.leaves).filter (fun l => roleOf s t l == 0)

/-- Rows of one leaf-slice. -/
def sliceRows : Nat := 524288

/-- Slice and row number of a scrub position; rows of a slice are numbered by bank group, bank and row (log 29). -/
def scrubAt (s : State) (t p : Nat) : Option (Nat × Nat) :=
  ((activeSlices s t)[p / sliceRows]?).map (fun l => (l, p % sliceRows))

/-- Line in column `c` of row number `k` of logical leaf `n`. -/
def rowLine (n k c : Nat) : Nat := lineAt n (k / 65536) (k / 16384 % 4) (k % 16384) c

/-- The scrubber's line operation on line `x` at place `l`. -/
def scrubAccess (s : State) (t x : Nat) (l : Loc) : Access := lineAccess s t x l .scrub false

/-- The scrubber reads one line at place `l` and acts on its words (R154). -/
def scrubLine (s : State) (t x : Nat) (l : Loc) (flips : List CodeWord) : State :=
  let a := scrubAccess s t x l
  let read := lineRead (lineEnter s a) a (rgnEpoch s (regionAt s t x)) flips
  count (writeBacks read.1 a read.2) (cTum t 26) 1

/-- The sixteen lines of row number `k` of logical leaf `n` at the place that `f` gives a line. -/
def scrubLines16 (s : State) (t n k : Nat) (f : Nat → Loc) (flips : List CodeWord) : State :=
  let s := foldUpTo 16 (fun s c =>
    let x := rowLine n k c
    scrubLine s t x (f x) ((flips.drop (8 * c)).take 8)) s
  let x := rowLine n k 15
  lineEnd s (scrubAccess s t x (f x))

/-- The row of a swap target that lies under the copy pointer is scrubbed with its source row (R153). -/
def scrubTarget (s : State) (t l k : Nat) (flips : List CodeWord) : State :=
  match (s.tum t).swap with
  | some w =>
    if w.src = l ∧ rowLine w.logical k 15 % 8388608 < w.ptr then
      scrubLines16 s t w.logical k (placeRaw w.dst) (flips.drop 128)
    else s
  | none => s

/-- One row of the pass; the pointer moves on, and a finished pass is counted (R167). -/
def scrubRow (s : State) (t l k : Nat) (flips : List CodeWord) : State :=
  let s := scrubLines16 s t (logicalOf s t l) k (placeOn s t l) flips
  let s := scrubTarget s t l k flips
  let o := tumReg t 0x44
  let p := fld s o 23 0 + 1
  if (activeSlices s t).length * sliceRows ≤ p then setF (setF s o 23 0 0) o 31 24 (fld s o 31 24 + 1)
  else setF s o 23 0 p

/-- The row may be scrubbed now: none of its lines waits, and the scrubber's access is selected. -/
def scrubMay (s : State) (t l k : Nat) : Bool :=
  let n := logicalOf s t l
  let x := rowLine n k 0
  !(List.range 16).any (fun c => lineBusy s t (rowLine n k c)) && lineMay s (scrubAccess s t x (placeOn s t l x))
    && (match (s.tum t).swap with
      | some w => w.src != l || linePlaceOk s (scrubAccess s t x (placeRaw w.dst x)) (placeRaw w.dst x)
      | none => true)

/-- PATROL_SCRUB_ROW (R153); a gated tumbler is woken for it as for any access. -/
def execPatrolScrubRow (t : Tum) (flips : List CodeWord) (s : State) : Out :=
  .next (match scrubAt s t (fld s (tumReg t 0x44) 23 0) with
    | some (l, k) =>
      when (flag s (tumReg t 0x40) 8 && running s) s
        (if lineOpOk s t then when (scrubMay s t l k) s (scrubRow s t l k flips) else wakeTum s t)
    | none => s)

/-! ## Row remap -/

def rrTum (c : Cmd) : Nat := bits c.p0.toNat 5 0
def rrLeaf (c : Cmd) : Nat := bits c.p0.toNat 13 8
def rrGroup (c : Cmd) : Nat := bits c.p0.toNat 18 16
def rrBank (c : Cmd) : Nat := bits c.p0.toNat 21 20
def rrRow (c : Cmd) : Nat := bits c.p0.toNat 45 32

/-- The lowest-numbered free remap entry (log 30). -/
def freeEntry (s : State) : Option Nat :=
  let l := remapValid s
  (List.range 32768).find? (fun i => !l.contains i)

/-- The lowest-numbered free spare row of a bank (R158). -/
def freeSpare (s : State) (t l g b : Nat) : Option Nat :=
  let u := ((remapValid s).filter (rmpIn s t l g b)).map (rmpSpare s)
  (List.range 16).find? (fun i => !u.contains i)

/-- The slice is the source or the target of a leaf swap. -/
def inSwap (s : State) (t l : Nat) : Bool := (s.tum t).swap.any (fun w => w.src = l || w.dst = l)

/-- The tumbler is online, Light or Quiet. -/
def serves (s : State) (t : Nat) : Bool := tstate s t = .online || tstate s t = .light || tstate s t = .quiet

/-- Fills entry `i`. -/
def putEntry (s : State) (i t l g b row spare st : Nat) : State :=
  let s := wr s (rmpLo i) (BitVec.ofNat 32 (l * 2 ^ 19 + g * 2 ^ 16 + b * 2 ^ 14 + row))
  wr s (rmpHi i) (BitVec.ofNat 32 (2 ^ 31 + st * 2 ^ 12 + spare * 2 ^ 6 + t))

/-- REMAP_ROW (R158); a swap of the slice answers 0x0303, a role other than active 0x0300 (log 31). -/
def execRemapRow (c : Cmd) (s : State) : Out :=
  runCmd s c 0x0202 (fun s =>
    let t := rrTum c
    let l := rrLeaf c
    let g := rrGroup c
    let b := rrBank c
    let e := freeEntry s
    let f := freeSpare s t l g b
    orFail s c
      [(decide (s.part.leaves ≤ l), rcBadUnit),
       (inSwap s t l, rcInProgress),
       (roleOf s t l != 0, rcState),
       (!serves s t, rcState),
       ((remapFind s t l g b (rrRow c) 1).isSome, rcInProgress),
       (e.isNone, rcTableFull),
       (f.isNone, rcNoSpare),
       (s.mramFenced, rcMramFault)]
      (wakeTum (putEntry (begin s c) (e.getD 0) t l g b (rrRow c) (f.getD 0) 1) t))

/-- The row-remap copy's access to column 0 of the row of line `x0`, at place `l`. -/
def remapAccess (s : State) (t x0 : Nat) (l : Loc) : Access := lineAccess s t x0 l .remap false

/-- The sixteen lines of a row are read at place `l`. -/
def readRow (s : State) (t x0 : Nat) (l : Loc) (flips : List CodeWord) : State × List (List Got) :=
  foldUpTo 16 (fun (u : State × List (List Got)) c =>
    let x := x0 + 8 * c
    let a := remapAccess u.1 t x l
    let s := colNext (openLine u.1 a l) a l false
    let read := decodeLine s t l x (rgnEpoch s (regionAt s t x)) ((flips.drop (8 * c)).take 8) (fun _ => true)
    (read.1, u.2 ++ [read.2])) (s, [])

/-- The row copy of R158 step 3 from place `p` to place `q`, for the row of line `x0`. -/
def copyRow (s : State) (t x0 : Nat) (p q : Loc) (flips : List CodeWord) : State :=
  let row := readRow s t x0 p flips
  let s := row.1
  let s := afterCol (goTo s t ((s.tum t).dram.slot + decodeSlots s t)) t (remapAccess s t x0 p) p
  let s := row.2.zipIdx.foldl (fun s e =>
    let a := remapAccess s t x0 q
    let s := colNext (openLine s a q) a q true
    e.1.zipIdx.foldl (fun s g => putWord s t q e.2 g.2 g.1.word) s) s
  let s := afterCol s t (remapAccess s t x0 q) q
  { s with nextId := s.nextId + 1 }

/-- The copy may be performed now: its banks accept its ACTs, and no refresh comes first. -/
def remapMay (s : State) (t x0 : Nat) (p q : Loc) : Bool :=
  let a := remapAccess s t x0 p
  lineMay s a && linePlaceOk s a q

/-- Corrected-word cache entries of a physical row are freed. -/
def dropRowCwc (s : State) (t : Nat) (l : Loc) : State :=
  let lo := wordKey t l 0 0
  s.modTum t (fun x => { x with cwc := x.cwc.filter (fun e => !(decide (lo ≤ e.word) && decide (e.word < lo + 128))) })

/-- The REMAP_ROW command that entry `i` belongs to. -/
def remapCmd (s : State) (i : Nat) : Option Cmd :=
  s.cmds.begun.find? (fun c => c.opcode = 0x0202 && rrTum c == rmpTum s i && rrLeaf c == rmpLeaf s i
    && rrRow c == rmpRow s i && rmpIn s (rrTum c) (rrLeaf c) (rrGroup c) (rrBank c) i)

/-- The remap of entry `i` ends with its record stored or not. -/
def remapEnd (s : State) (i t : Nat) (src : Loc) (old : Option Nat) (c : Option Cmd) (stored : Bool) : State :=
  if stored then
    let s := match old with
      | some j => storeRemap (setF s (rmpHi j) 13 12 2) j
      | none => s
    let s := dropRowCwc (setF s (rmpHi i) 13 12 0) t src
    answerOpt (count s (cTum t 27) 1) c rcSuccess
  else answerOpt (wr (wr s (rmpLo i) 0) (rmpHi i) 0) c rcMramFault

/-- Line of column 0 of the row of entry `i`, the row's place, and its spare. -/
def remapLine (s : State) (i : Nat) : Nat :=
  lineAt (logicalOf s (rmpTum s i) (rmpLeaf s i)) (fld s (rmpLo i) 18 16) (fld s (rmpLo i) 15 14) (rmpRow s i) 0
def remapSrc (s : State) (i : Nat) : Loc := placeOn s (rmpTum s i) (rmpLeaf s i) (remapLine s i)
def remapDst (s : State) (i : Nat) : Loc := { remapSrc s i with row := 16384 + rmpSpare s i }

/-- Steps 3 to 6 of R158 for entry `i`; a record that fails its verify twice leaves the row as it was (R465). -/
def remapDone (s : State) (i : Nat) (flips : List CodeWord) (ok : Bool) : State :=
  let t := rmpTum s i
  let c := remapCmd s i
  let src := remapSrc s i
  let old := remapFind s t src.leaf src.group src.bank (rmpRow s i) 0
  let s := copyRow s t (remapLine s i) src (remapDst s i) flips
  let active := setF s (rmpHi i) 13 12 0
  let rec8 := leBytes 4 (rd active (rmpLo i)).toNat ++ leBytes 4 (rd active (rmpHi i)).toNat
  let put := mramStore s (0xB00000 + 8 * i) rec8 ok
  remapEnd put.1 i t src old c put.2

/-- REMAP_COPY_DONE (R158); a gated tumbler is woken for the copy. -/
def execRemapCopyDone (i : BitVec 15) (flips : List CodeWord) (mramOk : Bool) (s : State) : Out :=
  let i := i.toNat
  let t := rmpTum s i
  .next (when (running s && flag s (rmpHi i) 31 && rmpState s i == 1) s
    (if lineOpOk s t then when (remapMay s t (remapLine s i) (remapSrc s i) (remapDst s i)) s (remapDone s i flips mramOk)
     else wakeTum s t))

/-! ## Leaf swap -/

def swapState (s : State) (t : Nat) : Nat := fld s (tumReg t 0x50) 31 30
def setSwapState (s : State) (t v : Nat) : State := setF s (tumReg t 0x50) 31 30 v
def lsSrc (c : Cmd) : Nat := bits c.p0.toNat 5 0
def lsDst (c : Cmd) : Nat := bits c.p0.toNat 13 8
def lsMask (c : Cmd) : List Nat := (List.range 64).filter (fun t => bit c.p1.toNat t)

/-- A remap of the slice is in the copying state. -/
def remapCopying (s : State) (t l : Nat) : Bool :=
  (remapValid s).any (fun i => rmpTum s i == t && rmpLeaf s i == l && rmpState s i == 1)

/-- Checks of R161 for tumbler `t`. -/
def swapChecks (s : State) (src dst t : Nat) : List (Bool × BitVec 16) :=
  [(roleOf s t src != 0 || roleOf s t dst != 1, rcState),
   ((s.tum t).swap.isSome, rcInProgress),
   (!serves s t, rcState),
   (remapCopying s t src, rcInProgress)]

/-- Step 1 of R162 in tumbler `t`. -/
def startSwap (s : State) (c : Cmd) (t : Nat) : State :=
  let src := lsSrc c
  let dst := lsDst c
  let n := logicalOf s t src
  let s := startSlice (setRole s t dst 2 n) t dst
  let s := wr s (tumReg t 0x50) (BitVec.ofNat 32 (2 ^ 30 + src * 2 ^ 24))
  let s := setF s (tumReg t 0x54) 13 8 dst
  s.modTum t (fun x => { x with
    swap := some { logical := n, src := src, dst := dst, ptr := 0, aborts := [], before := [], cmd := some c,
                   failed := none } })

/-- LEAF_SWAP (R161, R162). -/
def execLeafSwap (c : Cmd) (s : State) : Out :=
  runCmd s c 0x0203 (fun s =>
    let l := lsMask c
    orFail s c
      ([(decide (s.part.leaves ≤ lsSrc c) || decide (s.part.leaves ≤ lsDst c) || lsSrc c == lsDst c, rcBadUnit)] ++
        l.flatMap (swapChecks s (lsSrc c) (lsDst c)) ++ [(s.mramFenced, rcMramFault)])
      (if l.isEmpty then answer s c rcSuccess else l.foldl (fun s t => startSwap s c t) (begin s c)))

/-- Line that the copier moves next, with its places on source and target. -/
def swapNext (w : Swap) : Nat := w.logical * 8388608 + w.ptr
def swapAccess (s : State) (t : Nat) (w : Swap) : Access :=
  lineAccess s t (swapNext w) (placeOn s t w.src (swapNext w)) .swap false

/-- One line of the copy (R162 step 4). -/
def swapLine (s : State) (t : Nat) (w : Swap) (flips : List CodeWord) : State :=
  let x := swapNext w
  let a := swapAccess s t w
  let b := placeRaw w.dst x
  let read := lineRead (lineEnter s a) a (rgnEpoch s (regionAt s t x)) flips
  let s := lineEnd (writeBacks read.1 a read.2) a
  let s := afterCol (lineWr (afterRead s a) a b) t a b
  let s := read.2.zipIdx.foldl (fun s e => putWord s t b (lineCol x) e.2 e.1.word) s
  let s := setF s (tumReg t 0x50) 22 0 (min 8388607 (w.ptr + 1))
  let s := s.modTum t (fun y => { y with swap := some { w with ptr := w.ptr + 1 } })
  count (chargeMaster s t 8 1) (cTum t 28) 1

/-- The copier's cap leaves room for one more line in the window: BUDGET % of 3.2 lines per ns, scaled by the rate (R163). -/
def copyBudget (s : State) (t : Nat) : Bool :=
  decide (tget zero s.ward.masters (masterKey t 8) * 400
    < fld s (tumReg t 0x54) 5 0 * 512 * pick3 (rateOf s t) 4 3 2 * s.ward.winLen)

/-- The line operation of the copier may be performed now. -/
def swapMay (s : State) (t : Nat) (w : Swap) : Bool :=
  let a := swapAccess s t w
  let b := placeRaw w.dst (swapNext w)
  !lineBusy s t (swapNext w) && lineMay s a && linePlaceOk s a b && lineTurn s a

/-- The next line of the copy, where it may go on; `cap` where the copier's budget counts. A gated tumbler is woken. -/
def swapGo (s : State) (t : Nat) (cap : Bool) (flips : List CodeWord) : State :=
  match (s.tum t).swap with
  | some w =>
    when (running s && swapState s t == 1 && decide (w.ptr < 8388608) && (!cap || copyBudget s t)) s
      (if lineOpOk s t then when (swapMay s t w) s (swapLine s t w flips) else wakeTum s t)
  | none => s

/-- SWAP_COPY_LINE (R162). -/
def execSwapCopyLine (t : Tum) (flips : List CodeWord) (s : State) : Out := .next (swapGo s t true flips)

/-- The copier of tumbler `t` has passed the last line. -/
def swapCopied (s : State) (t : Nat) : Bool := (s.tum t).swap.any (fun w => w.ptr == 8388608)

/-- The lines that no SWAP_COPY_LINE has named, read without a further loss (log 66). -/
def swapRest (s : State) (t : Nat) : State :=
  if swapCopied s t || swapState s t != 1 then s else foldUpTo 8388608 (fun s _ => swapGo s t false []) s

/-- Accesses of tumbler `t` that use leaf `l`. -/
def onLeaf (s : State) (t l : Nat) : List Nat :=
  let q := (s.tum t).q
  ((q.queue ++ q.flight.map (·.acc)).filter (fun a => a.loc.leaf = l)).map (·.id)

/-- Step 5 of R162: the repair record, then the leaf map. -/
def switchPoint (s : State) (t : Nat) (w : Swap) : State :=
  let s := setRole (setF s (tumReg t (0x200 + 4 * w.logical)) 5 0 w.dst) t w.dst 0 w.logical
  let s := setRole (storeLeaf (setRole s t w.src 3 0) t) t w.src 0 w.logical
  let ids := onLeaf s t w.src
  (setSwapState s t 2).modTum t (fun x => { x with swap := some { w with before := ids } })

/-- SWAP_SWITCH_POINT (R162). -/
def execSwapSwitchPoint (t : Tum) (s : State) : Out :=
  let u := swapRest s t
  .next (match (u.tum t).swap with
    | some w => when (running s && serves s t && swapState s t == 1 && w.ptr == 8388608 && !s.mramFenced) s (switchPoint u t w)
    | none => s)

/-- A tumbler's swap ends; the command is answered once its last tumbler is done. An abandonment gives it a status that
the spec does not state (log 32). -/
def swapEnd (s : State) (t : Nat) (w : Swap) (fail : Option (BitVec 16)) : State :=
  let s := (setSwapState s t 0).modTum t (fun x => { x with swap := none })
  let f := match fail with
    | some v => some v
    | none => w.failed
  let others := (List.range 64).filter (fun u => (s.tum u).swap.any (fun v => v.cmd == w.cmd))
  if others.isEmpty then answerOpt s w.cmd (f.getD rcSuccess)
  else others.foldl (fun (s : State) u => s.modTum u (fun x => { x with swap := x.swap.map (fun v => { v with failed := f }) })) s

/-- The accesses that entered before have been performed, line slots included. -/
def swapQuiet (s : State) (t : Nat) (w : Swap) : Bool :=
  !stillThere s t w.before && !(s.tum t).q.slots.any (fun k => k.half)

/-- Step 6 of R162. -/
def swapRetire (s : State) (t : Nat) (w : Swap) : State :=
  let s := stopSlice (setRole s t w.src 3 0) t w.src
  let l := (remapValid s).filter (fun i => rmpTum s i == t && rmpLeaf s i == w.src)
  let s := l.foldl (fun s i => storeRemap (wr (wr s (rmpLo i) 0) (rmpHi i) 0) i) s
  let s := s.modTum t (fun x => { x with cwc := x.cwc.filter (fun e => e.word / (32 * 128 * 16400) % 34 != w.src) })
  raise (swapEnd (count s (cTum t 29) 1) t w none) (0x80 + t) 0

/-- SWAP_RETIRE (R162). -/
def execSwapRetire (t : Tum) (s : State) : Out :=
  .next (match (s.tum t).swap with
    | some w =>
      when (running s && swapState s t == 2 && swapQuiet s t w
          && !(s.tum t).q.slots.any (fun k => k.loc.leaf = w.src)) s
        (swapRetire s t w)
    | none => s)

/-- An abandonment begins (R164). -/
def swapAbandon (s : State) (t : Nat) : State :=
  let ids := (s.tum t).swap.map (fun w => onLeaf s t w.src)
  (setSwapState s t 3).modTum t (fun x => { x with swap := x.swap.map (fun w => { w with before := ids.getD [] }) })

/-- LEAF_SWAP_ABORT (R164); a tumbler without a swap answers as one past its switch point (log 33). -/
def execLeafSwapAbort (c : Cmd) (s : State) : Out :=
  runCmd s c 0x0204 (fun s =>
    let t := bits c.p0.toNat 5 0
    orFail s c [((s.tum t).swap.isNone || swapState s t == 2, rcTooLate)]
      (let s := if swapState s t = 1 then swapAbandon s t else s
       (begin s c).modTum t (fun x => { x with swap := x.swap.map (fun w => { w with aborts := w.aborts ++ [c] }) })))

/-- The abandonment ends: the target is spare again (R164). -/
def abandonDone (s : State) (t : Nat) (w : Swap) : State :=
  let s := stopSlice (setRole s t w.dst 1 0) t w.dst
  let (f, s) := fresh s
  let s := swapEnd s t w (some (BitVec.ofNat 16 f.toNat))
  w.aborts.foldl (fun s c => answer s c rcSuccess) s

/-- SWAP_ABANDON_DONE (R164). -/
def execSwapAbandonDone (t : Tum) (s : State) : Out :=
  .next (match (s.tum t).swap with
    | some w => when (swapState s t == 3 && swapQuiet s t w) s (abandonDone s t w)
    | none => s)

end Sys2Proof.Machine
end

