-- ==== Sys2Proof/Machine/Scans.lean ====
section
/-! DEFINITION. Scans (R175 to R197): the descriptor and its checks, predicates, column reads, outputs, the record, and
their end. -/

namespace Sys2Proof.Machine

open Sys2Proof

/-! ## The descriptor (R176, R177) -/

/-- `n` bytes at payload offset `o`. -/
def pay (c : Cmd) (o n : Nat) : Nat := leNat ((c.ext.drop o).take n)

def elemBytes (format : Nat) : Nat := 2 ^ bits format 1 0
def fSigned (x : Scan) : Bool := bit x.format.toNat 2
def fOrdered (x : Scan) : Bool := bit x.format.toNat 3
def wantsBitmap (x : Scan) : Bool := bit x.outputs.toNat 0
def wantsIndex (x : Scan) : Bool := bit x.outputs.toNat 1
def wantsAgg (x : Scan) : Bool := bit x.outputs.toNat 2

/-- The scan that a payload describes. -/
def scanOf (c : Cmd) (order : Nat) : Scan :=
  { phase := .running, flow := BitVec.ofNat 18 (pay c 0x10 4), tag := BitVec.ofNat 16 (pay c 0x0E 2),
    format := BitVec.ofNat 8 (pay c 0x0C 1), outputs := BitVec.ofNat 8 (pay c 0x0D 1),
    base := BitVec.ofNat 40 (pay c 0 8), count := BitVec.ofNat 32 (pay c 8 4),
    bitmapBase := BitVec.ofNat 40 (pay c 0x18 8), indexBase := BitVec.ofNat 40 (pay c 0x20 8),
    indexCap := BitVec.ofNat 32 (pay c 0x28 4), record := BitVec.ofNat 40 (pay c 0x30 8),
    tree := BitVec.ofNat 64 (pay c 0x38 8),
    terms := (List.range 16).map (fun i => BitVec.ofNat 32 (pay c (0x40 + 4 * i) 4)),
    consts := (List.range (pay c 0x14 1)).map (fun j => BitVec.ofNat 64 (pay c (128 + 8 * j) 8)),
    engines := [], known := [], selected := [], idxQueue := [], idxWritten := 0, bitmapDone := [], total := 0,
    sum := 0, min := none, max := none, status := 0, corrected := false, stale := false, overflow := false,
    poisonLines := 0, firstPoison := none, noRecord := false, aborts := [], order := order, outBusy := 0 }

/-- Terms whose slots TREE.USED names. -/
def usedTerms (x : Scan) : List Nat :=
  (x.terms.zipIdx.filter (fun e => bit x.tree.toNat e.2)).map (fun e => e.1.toNat)

/-- Some reserved field is not zero (R176, R177, R181, R182). -/
def scanReserved (c : Cmd) (x : Scan) : Bool :=
  pay c 0 8 / 2 ^ 40 != 0 || bits x.format.toNat 7 4 != 0 || bits x.outputs.toNat 7 3 != 0
    || pay c 0x10 4 / 2 ^ 18 != 0 || pay c 0x15 3 != 0 || (wantsBitmap x && pay c 0x18 8 / 2 ^ 40 != 0)
    || (wantsIndex x && pay c 0x20 8 / 2 ^ 40 != 0) || pay c 0x2C 4 != 0 || pay c 0x30 8 / 2 ^ 40 != 0
    || bits x.tree.toNat 63 31 != 0
    || (usedTerms x).any (fun v => v &&& (mask 7 4 + mask 15 13 + mask 23 19 + mask 31 25) != 0)

/-- Byte ranges of the column, the enabled outputs and the record: (first byte, length). -/
def colBytes (x : Scan) : Nat := x.count.toNat * elemBytes x.format.toNat
def bitmapWords (x : Scan) : Nat := (x.count.toNat + 63) / 64
def outRanges (x : Scan) : List (Nat × Nat) :=
  (if wantsBitmap x then [(x.bitmapBase.toNat, bitmapWords x * 8)] else [])
    ++ (if wantsIndex x then [(x.indexBase.toNat, x.indexCap.toNat * 4)] else [])
    ++ [(x.record.toNat, 64)]
def scanRanges (x : Scan) : List (Nat × Nat) := (x.base.toNat, colBytes x) :: outRanges x

/-- An alignment of R176 is not met. -/
def scanMisaligned (x : Scan) : Bool :=
  x.base.toNat % elemBytes x.format.toNat != 0 || x.record.toNat % 64 != 0
    || (wantsBitmap x && x.bitmapBase.toNat % 64 != 0)
    || (wantsIndex x && (x.indexBase.toNat % 64 != 0 || x.indexCap = 0 || x.indexCap.toNat % 16 != 0))

/-- Constants that an OP uses (R181). -/
def opConsts (v : Nat) : Nat :=
  let op := bits v 3 0
  if op = 6 ∨ op = 8 then 2 else if op = 7 then bits v 18 16 + 1 else 1

/-- The predicate case of R178. -/
def badPredicate (x : Scan) : Bool :=
  bits x.tree.toNat 15 0 == 0 || (usedTerms x).any (fun v =>
    decide (8 < bits v 3 0) || (bits v 18 16 != 0 && bits v 3 0 != 7)
      || decide (x.consts.length < bits v 12 8 + opConsts v))

def rangesMeet (a b : Nat × Nat) : Bool := decide (a.1 < b.1 + b.2) && decide (b.1 < a.1 + a.2)

/-- Two of the ranges overlap. -/
def scanOverlap (x : Scan) : Bool :=
  let l := (scanRanges x).zipIdx
  l.any (fun a => l.any (fun b => decide (a.2 < b.2) && rangesMeet a.1 b.1))

/-- Regions that a range touches. -/
def regionsOf (r : Nat × Nat) : List Nat :=
  if r.2 = 0 then [] else (List.range (regionOf (r.1 + r.2 - 1) + 1 - regionOf r.1)).map (regionOf r.1 + ·)

/-! ## Column lines -/

def colFirst (x : Scan) : Nat := x.base.toNat / 64
def colLast (x : Scan) : Nat := (x.base.toNat + colBytes x - 1) / 64

/-- First line of the module, from number `n` on and up to `last`, that lies in tumbler `t`: whole interleave chunks of
other tumblers are passed over, at most `fuel` of them. -/
def findLine (s : State) (t last : Nat) : Nat → Nat → Option Nat
  | 0, _ => none
  | fuel + 1, n =>
    if last < n then none
    else if (lineOf s (64 * n)).1 = t then some n
    else
      let m := rgnMode s (regionOf (64 * n))
      let k := if m = 0 then 4 else if m = 1 then 64 else 262144
      findLine s t last fuel ((n / k + 1) * k)

/-- Next column line of engine `e`, as a line number of the module. -/
def nextLine (s : State) (x : Scan) (e : Nat) : Option Nat :=
  findLine s e (colLast x) 256 (colFirst x + (tget (fun _ => EngProg.init) x.engines e).next)

/-- Tumblers that hold a line of the column. -/
def scanTums (s : State) (x : Scan) : List Nat :=
  (List.range 64).filter (fun t => (findLine s t (colLast x) 256 (colFirst x)).isSome)

/-! ## SCAN_START (R178, R179) -/

def freeSlot (s : State) : Option Nat := (List.range 256).find? (fun k => (s.scan k).isNone)

/-- An engine or tumbler that the scan needs cannot take it (R178). -/
def scanUnits (s : State) (x : Scan) : Bool :=
  (scanTums s x).any (fun t => tstate s t = .latchOut || (s.eng t).state != .up || !flag s (scnReg t 0) 8)

/-- The scan takes slot `k` (R179). -/
def startScan (s : State) (x : Scan) (k : Nat) : State :=
  let e := (scanTums s x).foldl (fun m t => tput (fun _ => EngProg.init) m t { next := 0, done := false, begun := false }) []
  { s.setScan k (some { x with engines := e }) with nextId := s.nextId + 1 }

/-- SCAN_START (R178); the slot taken is the lowest that is free (log 37). -/
def execScanStart (c : Cmd) (s : State) : Out :=
  runCmd s c 0x0205 (fun s =>
    let x := scanOf c s.nextId
    let f := x.flow.toNat
    let k := freeSlot s
    let key := flwKey s f
    orFail s c
      [(!isAdmin s c && flwInit s f != c.initiator.toNat, rcFlowInvalid),
       (decide (32 < pay c 0x14 1), rcBadValue),
       (c.ext.length != 128 + 8 * pay c 0x14 1, rcBadLength),
       (scanReserved c x, rcReservedSet),
       (x.count = 0 || f = 0, rcBadValue),
       (scanMisaligned x, rcBadAlign),
       ((scanRanges x).any (fun r => decide (2 ^ s.part.addrWidth < r.1 + r.2)), rcBadRange),
       (badPredicate x, rcBadPredicate),
       (scanOverlap x, rcOverlap),
       (!flowValid s f, rcFlowInvalid),
       (!(regionsOf (x.base.toNat, colBytes x)).all (fun r => scanPermitted s key r true)
          || !((outRanges x).flatMap regionsOf).all (fun r => scanPermitted s key r false), rcNoPermission),
       (scanUnits s x, rcState),
       (k.isNone, rcNoSlot)]
      (reply (startScan s x (k.getD 0)) c rcSuccess (k.getD 0) []))

/-! ## The predicate (R180 to R182) -/

/-- A 64-bit value as the scan compares it. -/
def asInt (sign : Bool) (v : Nat) : Int := if sign then (BitVec.ofNat 64 v).toInt else (v : Int)

/-- An element widened to 64 bits. -/
def widen (sign : Bool) (w v : Nat) : Nat :=
  if sign && bit v (8 * w - 1) then v + (2 ^ 64 - 2 ^ (8 * w)) else v

/-- Term record `v` on the element whose bytes spell `raw`. -/
def termHolds (x : Scan) (v raw : Nat) : Bool :=
  let sign := fSigned x
  let c := fun k => (x.consts.getD (bits v 12 8 + k) 0).toNat
  let e := asInt sign (widen sign (elemBytes x.format.toNat) raw)
  let i := fun k => asInt sign (c k)
  let op := bits v 3 0
  let r :=
    if op = 0 then decide (e = i 0) else if op = 1 then decide (e ≠ i 0)
    else if op = 2 then decide (e < i 0) else if op = 3 then decide (e ≤ i 0)
    else if op = 4 then decide (i 0 < e) else if op = 5 then decide (i 0 ≤ e)
    else if op = 6 then decide (i 0 ≤ e) && decide (e ≤ i 1)
    else if op = 7 then (List.range (bits v 18 16 + 1)).any (fun k => decide (e = i k))
    else raw &&& c 0 == c 1
  r != bit v 24

/-- One level of the tree: `ops` gives the operator bit of each node, true for OR. -/
def joinLevel (ops : Nat → Bool) (l : List (Option Bool)) (n : Nat) : List (Option Bool) :=
  (List.range n).map (fun j =>
    match l.getD (2 * j) none, l.getD (2 * j + 1) none with
    | none, b => b
    | a, none => a
    | some a, some b => some (if ops j then a || b else a && b))

/-- The element is selected (R182). -/
def selects (x : Scan) (raw : Nat) : Bool :=
  let t := x.tree.toNat
  let v := (List.range 16).map (fun i =>
    if bit t i then some (termHolds x (x.terms.getD i 0).toNat raw) else none)
  let v := joinLevel (fun j => bit t (16 + j)) v 8
  let v := joinLevel (fun j => bit t (24 + j)) v 4
  let v := joinLevel (fun j => bit t (28 + j)) v 2
  let v := joinLevel (fun j => bit t (30 + j)) v 1
  (v.getD 0 none).getD false

/-! ## Column reads (R183 to R187) -/

/-- Accepted scans that engine `e` has not finished, in slot-acceptance order. -/
def scansIn (s : State) (e : Nat) : List Nat :=
  let l := (List.range 256).filterMap (fun k =>
    match s.scan k with
    | some x => if x.engines.any (fun g => g.1 = e && !g.2.done) && x.phase = .running then some (x.order, k) else none
    | none => none)
  (l.foldl (fun m e => (m.takeWhile (fun f => f.1 < e.1)) ++ [e] ++ (m.dropWhile (fun f => f.1 < e.1))) []).map (·.2)

/-- The scan in slot `k` is being worked on by engine `e` (R183). -/
def activeIn (s : State) (e k : Nat) : Bool := ((scansIn s e).take (fld s (scnReg e 0) 2 0)).contains k

/-- Lowest column line whose results have not reached the combine stage (R191). -/
def lowestOpen (s : State) (x : Scan) : Nat :=
  x.engines.foldl (fun m e => if e.2.done then m else
    match nextLine s x e.1 with
    | some n => min m n
    | none => m) (colLast x + 1)

/-- R191 lets the engine read line `n` now. -/
def orderedOk (s : State) (x : Scan) (n : Nat) : Bool :=
  !(fOrdered x && wantsIndex x) || decide (64 * n - x.base.toNat < 2 ^ 20 + (64 * lowestOpen s x - x.base.toNat))

/-- Element `k` of a line: its index and value where it lies inside the column. -/
def element (x : Scan) (n : Nat) (data : Nat) (k : Nat) : Option (Nat × Nat) :=
  let w := elemBytes x.format.toNat
  let a := 64 * n + k * w
  if x.base.toNat ≤ a ∧ a < x.base.toNat + colBytes x then
    some ((a - x.base.toNat) / w, bits data (8 * (k * w + w) - 1) (8 * (k * w)))
  else none

/-- An element of value `v` and index `i` is selected (R189, R190). -/
def takeElement (x : Scan) (i v : Nat) : Scan :=
  let e := asInt (fSigned x) (widen (fSigned x) (elemBytes x.format.toNat) v)
  let lower := match x.min with
    | some (m, j) => decide (e < m) || (e == m && decide (i < j))
    | none => true
  let upper := match x.max with
    | some (m, j) => decide (m < e) || (e == m && decide (i < j))
    | none => true
  { x with
    total := x.total + 1, sum := x.sum + e, min := if lower then some (e, i) else x.min,
    max := if upper then some (e, i) else x.max,
    selected := if wantsBitmap x then
        tput zero x.selected (i / 64) (tget zero x.selected (i / 64) ||| BitVec.ofNat 64 (2 ^ (i % 64)))
      else x.selected,
    idxQueue := if wantsIndex x then x.idxQueue ++ [i] else x.idxQueue }

/-- Result of a column line: the scan, elements evaluated, and whether a poisoned word lay inside the column. -/
def evalLine (x : Scan) (n : Nat) (l : List Got) : Scan × Nat × Bool :=
  let w := elemBytes x.format.toNat
  let data := l.zipIdx.foldl (fun d g => d + g.1.data * 2 ^ (64 * g.2)) 0
  (List.range (64 / w)).foldl (fun (a : Scan × Nat × Bool) k =>
    match element x n data k with
    | none => a
    | some (i, v) =>
      let y := a.1
      let g := l.getD (k * w / 8) { data := 0, live := false, poison := false, corrected := false, wroteBack := false,
                                    word := 0, cls := .clean }
      let y := { y with
        corrected := y.corrected || g.corrected, stale := y.stale || !g.live,
        known := if wantsBitmap y then
            tput zero y.known (i / 64) (tget zero y.known (i / 64) ||| BitVec.ofNat 64 (2 ^ (i % 64)))
          else y.known }
      if g.poison then (y, a.2.1 + 1, true)
      else (if selects y v then takeElement y i v else y, a.2.1 + 1, a.2.2)) (x, 0, false)

/-- The scan ends early with a status (R193). -/
def endScan (s : State) (k : Nat) (x : Scan) (st : BitVec 8) : State :=
  s.setScan k (some { x with phase := .ending, status := st })

/-- Status of a failed check of R184, none where it passes. -/
def scanCheck (s : State) (x : Scan) (r : Nat) (col : Bool) : Option (BitVec 8) :=
  if !flowValid s x.flow.toNat then some 3
  else if !scanPermitted s (flwKey s x.flow.toNat) r col then some 2
  else none

/-- The scan takes the words `g` of line `n`; LINE of an engine with no further line is a free value (log 91). -/
def scanTook (s : State) (k : Nat) (x : Scan) (e n : Nat) (g : List Got) : State :=
  let ev := evalLine x n g
  let x := ev.1
  let cnt := ev.2.1
  let bad := ev.2.2
  let was := tget (fun _ => EngProg.init) x.engines e
  let before := ((s.scan k).map (·.total)).getD 0
  let s := if was.begun then s else count s (cScan e 5) 1
  let s := count (count (count (count s (cScan e 0) 1) (cScan e 1) cnt) (cScan e 2) (x.total - before)) (cScan e 4) (b2n bad)
  let x := { x with
    poisonLines := x.poisonLines + b2n bad,
    firstPoison := if bad then some (min (x.firstPoison.getD (64 * n)) (64 * n)) else x.firstPoison,
    overflow := x.overflow || (wantsIndex x && decide (x.indexCap.toNat < x.total)),
    engines := tput (fun _ => EngProg.init) x.engines e { was with next := n + 1 - colFirst x, begun := true } }
  let more := nextLine s x e
  let x := if more.isSome then x else
    { x with engines := tput (fun _ => EngProg.init) x.engines e { next := n + 1 - colFirst x, done := true, begun := true } }
  let s := wr s (scnReg e 8) (BitVec.ofNat 32 (256 + k))
  let s := match more with
    | some m => wr s (scnReg e 0xC) (BitVec.ofNat 32 (lineOf s (64 * m)).2)
    | none =>
      let (f, s) := fresh s
      wr s (scnReg e 0xC) (BitVec.ofNat 32 (f.toNat % 2 ^ 28))
  let now := (s.scan k).getD x
  s.setScan k (some { x with phase := now.phase, status := now.status })

/-! ## Outputs that can be written (R188, R189) -/

/-- Bits of word `n` of the bitmap that belong to elements. -/
def wordFull (x : Scan) (n : Nat) : Word64 := BitVec.ofNat 64 (2 ^ min 64 (x.count.toNat - 64 * n) - 1)

/-- Every word of bitmap line `n` is known. -/
def bitmapReady (x : Scan) (n : Nat) : Bool :=
  (List.range 8).all (fun w => decide (bitmapWords x ≤ 8 * n + w) || tget zero x.known (8 * n + w) == wordFull x (8 * n + w))

/-- The next bitmap line that can be written. -/
def nextBitmap (x : Scan) : Option Nat :=
  if wantsBitmap x then (x.known.map (fun e => e.1 / 8)).find? (fun n => !x.bitmapDone.contains n && bitmapReady x n) else none

/-- `l` in ascending order with `n` put in its place. -/
def insertNat (n : Nat) : List Nat → List Nat
  | [] => [n]
  | m :: r => if n ≤ m then n :: m :: r else m :: insertNat n r

/-- Selected indices that can be written now, in the order of R189. -/
def idxReady (s : State) (x : Scan) : List Nat :=
  let l := if fOrdered x then
      let low := (64 * lowestOpen s x - x.base.toNat + elemBytes x.format.toNat - 1) / elemBytes x.format.toNat
      (x.idxQueue.filter (fun i => decide (i < low))).foldr insertNat []
    else x.idxQueue
  l.take (x.indexCap.toNat - x.idxWritten)

/-- Output lines that the scan's result buffer holds: those on their way, and those that can be written now. -/
def outLines (s : State) (x : Scan) : Nat :=
  x.outBusy + (idxReady s x).length / 16 +
    (if wantsBitmap x then
      (((x.known.map (fun e => e.1 / 8)).eraseDups).filter (fun n => !x.bitmapDone.contains n && bitmapReady x n)).length
     else 0)

/-- The result buffer is full (R183, R200). -/
def scanFull (s : State) (x : Scan) : Bool := outLines s x != 0 && decide (Config.scanBuffer ≤ outLines s x)

/-- Urgency of the scan by the fill of its result buffer, within URG_MAX of its class (R187, R209, log 132). -/
def scanUrg (s : State) (x : Scan) : BitVec 2 :=
  let n := outLines s x
  let u := if n = 0 then 0 else (bufLevel n Config.scanBuffer).toNat
  BitVec.ofNat 2 (min u (fld s (wrdReg (0x1000 + 16 * flwClass s x.flow.toNat)) 5 4))

/-! ## Reading a line -/

/-- The scan in slot `k` can have its next line read by engine `e`: neither the window of R191, nor a full buffer, nor the initial
sweep of the line's region holds it (R151, R183). -/
def scanReady (s : State) (e k : Nat) : Bool :=
  match s.scan k with
  | some x =>
    match nextLine s x e with
    | some n => x.phase = .running && orderedOk s x n && !scanFull s x && rgnSweep s (regionOf (64 * n)) != 3
    | none => false
  | none => false

/-- The scan whose line engine `e` reads next: of those it works on, the first after the one served last that can go on
(R183). -/
def scanTurn (s : State) (e : Nat) : Option Nat :=
  let l := (scansIn s e).take (fld s (scnReg e 0) 2 0)
  let o := scnReg e 8
  let last := fld s o 7 0
  let l := if flag s o 8 && l.contains last then (l.dropWhile (· != last)).drop 1 ++ (l.takeWhile (· != last) ++ [last]) else l
  l.find? (scanReady s e)

/-- The column read of line `y` of tumbler `e` for scan `x`: of its flow's class (R187). -/
def scanAccess (s : State) (x : Scan) (e y : Nat) : Access :=
  { lineAccess s e y (placeOf s e y) .scan false with
    flow := x.flow, cls := BitVec.ofNat 8 (flwClass s x.flow.toNat), urg := scanUrg s x }

/-- The read `a` has returned its words: measured like any access of its class (R211, R212, R424). -/
def scanMeasured (s : State) (a : Access) (whole : Bool) : State :=
  let wait := if whole then 0 else decodeSlots s a.tum * slotUnits (rateOf s a.tum)
  let ns := ((s.tum a.tum).dram.time - a.enterTime + wait) / 480
  wardDone (histogram s a.tum a.cls.toNat ns) a.id ns false

/-- Engine `e` reads line `n` of the module for the scan in slot `k`. The read is in flight within this step alone, so that the
flow's OUTSTANDING ends as it began (R184). -/
def scanRead (s : State) (k : Nat) (x : Scan) (e n : Nat) (flips : List CodeWord) : State :=
  let y := (lineOf s (64 * n)).2
  let r := regionOf (64 * n)
  let a := scanAccess s x e y
  let whole := (wholeSlot s e y).isSome
  let read := lineRead (lineEnter s a) a (rgnEpoch s r) flips
  let s := scanMeasured (lineEnd (writeBacks read.1 a read.2) a) a whole
  scanTook s k x e n read.2

/-- The checked read of R183: performed where the tumbler can, and it wakes a gated one (R187). -/
def scanStep (s : State) (k : Nat) (x : Scan) (e n : Nat) (flips : List CodeWord) : State :=
  let y := (lineOf s (64 * n)).2
  if tstate s e = .latchOut then endScan s k x 4
  else
    match scanCheck s x (regionOf (64 * n)) true with
    | some st => endScan s k x st
    | none =>
      if lineOpOk s e then when (!lineBusy s e y && lineMay s (scanAccess s x e y)) s (scanRead s k x e n flips)
      else wakeTum s e

/-- SCAN_LINE_READ (R183, R184). -/
def execScanLineRead (k : BitVec 8) (e : Tum) (flips : List CodeWord) (s : State) : Out :=
  .next (match s.scan k.toNat with
    | none => s
    | some x =>
      match nextLine s x e with
      | none => s
      | some n => when (running s && scanTurn s e == some k.toNat) s (scanStep s k.toNat x e n flips))

/-- Scans with a line of the column or of an output in tumbler `t`, which enters latch-out, end with FENCED (R193). -/
def fenceScans (s : State) (t : Nat) : State :=
  foldUpTo 256 (fun s k =>
    match s.scan k with
    | some x =>
      let out := (outRanges x).any (fun r =>
        decide (0 < r.2) && (findLine s t ((r.1 + r.2 - 1) / 64) 256 (r.1 / 64)).isSome)
      when (x.phase = .running && (out || (findLine s t (colLast x) 256 (colFirst x)).isSome)) s (endScan s k x 4)
    | none => s) s

/-! ## Writing outputs -/

/-- An output or record write of the scan in slot `k` enters the crossbar. -/
def scanWrite (s : State) (k : Nat) (x : Scan) (addr : Nat) (be : BitVec 64) (data : Line) : State :=
  let a := { newAccess s .write (.master .scan) (BitVec.ofNat 40 addr) with
    flow := x.flow, tag := BitVec.ofNat 16 k, cls := BitVec.ofNat 8 (flwClass s x.flow.toNat), urg := scanUrg s x,
    be := be, data := data }
  let s := s.setScan k (some { x with outBusy := x.outBusy + 1 })
  arrive (flowStart (count s (cScan a.tum 3) 1) a.id x.flow) a

/-- Writes bitmap line `n`. -/
def writeBitmap (s : State) (k : Nat) (x : Scan) (n : Nat) : State :=
  let d := (List.range 8).foldl (fun v w => v + (tget zero x.selected (8 * n + w)).toNat * 2 ^ (64 * w)) 0
  let be := 2 ^ (8 * min 8 (bitmapWords x - 8 * n)) - 1
  scanWrite s k { x with bitmapDone := x.bitmapDone ++ [n] } (x.bitmapBase.toNat + 64 * n) (BitVec.ofNat 64 be)
    (BitVec.ofNat 512 d)

/-- Every engine of the scan has finished. -/
def enginesDone (x : Scan) : Bool := x.engines.all (fun e => e.2.done)

/-- The indices of the next index line: sixteen, or what is left at the end. -/
def nextIndex (s : State) (x : Scan) : List Nat :=
  let l := idxReady s x
  if wantsIndex x && (decide (16 ≤ l.length) || enginesDone x) then l.take 16 else []

/-- Writes an index line. -/
def writeIndex (s : State) (k : Nat) (x : Scan) (l : List Nat) : State :=
  let v := l ++ (if l.length % 2 = 1 then [0xFFFFFFFF] else [])
  let d := v.zipIdx.foldl (fun d e => d + e.1 * 2 ^ (32 * e.2)) 0
  scanWrite s k { x with idxWritten := x.idxWritten + l.length, idxQueue := x.idxQueue.filter (fun i => !l.contains i) }
    (x.indexBase.toNat + 4 * x.idxWritten) (BitVec.ofNat 64 (2 ^ (4 * v.length) - 1)) (BitVec.ofNat 512 d)

/-- The write of R188 or R189 after its check (R184). -/
def outputStep (s : State) (k : Nat) (x : Scan) (bitmap : Bool) : State :=
  if bitmap then
    match nextBitmap x with
    | some n =>
      match scanCheck s x (regionOf (x.bitmapBase.toNat + 64 * n)) false with
      | some st => endScan s k x st
      | none => writeBitmap s k x n
    | none => s
  else
    match nextIndex s x with
    | [] => s
    | i :: r =>
      match scanCheck s x (regionOf (x.indexBase.toNat + 4 * x.idxWritten)) false with
      | some st => endScan s k x st
      | none => writeIndex s k x (i :: r)

/-- SCAN_OUTPUT_WRITE (R188). -/
def execScanOutputWrite (k : BitVec 8) (bitmap : Bool) (s : State) : Out :=
  .next (match s.scan k.toNat with
    | some x => when (running s && x.phase = .running) s (outputStep s k.toNat x bitmap)
    | none => s)

/-! ## End (R190 to R195) -/

/-- Everything asked for is evaluated and written. -/
def scanComplete (x : Scan) : Bool :=
  enginesDone x && (!wantsBitmap x || x.bitmapDone.length == (bitmapWords x + 7) / 8)
    && (!wantsIndex x || x.idxWritten == min x.total x.indexCap.toNat)

/-- MIN and MAX of an empty selection (R190). -/
def emptyMin (x : Scan) : Int := if fSigned x then 2 ^ 63 - 1 else 2 ^ 64 - 1
def emptyMax (x : Scan) : Int := if fSigned x then -(2 ^ 63) else 0

/-- Low `w` bits of an integer in two's complement. -/
def twos (w : Nat) (v : Int) : Nat := (BitVec.ofInt w v).toNat

/-- The completion record (R192). -/
def scanRecord (x : Scan) : Nat :=
  let agg := wantsAgg x
  let mn := x.min.getD (emptyMin x, 0xFFFFFFFF)
  let mx := x.max.getD (emptyMax x, 0xFFFFFFFF)
  x.status.toNat + (b2n x.corrected + 2 * b2n x.stale + 4 * b2n x.overflow) * 2 ^ 8 + x.tag.toNat * 2 ^ 16
    + x.idxWritten * 2 ^ 32 + x.total * 2 ^ 64
    + (if agg then
        twos 128 x.sum * 2 ^ 128 + twos 64 mn.1 * 2 ^ 256 + twos 64 mx.1 * 2 ^ 320 + mn.2 * 2 ^ 384 + mx.2 * 2 ^ 416
      else 0)
    + x.firstPoison.getD 0 * 2 ^ 448 + min x.poisonLines 0xFFFFFF * 2 ^ 488

/-- The scan has ended: the record write begins where its check passes (R184, R194). -/
def scanFinish (s : State) (k : Nat) (x : Scan) : State :=
  let x := { x with
    status := if x.phase = .running then (if x.poisonLines = 0 then 0 else 1) else x.status, phase := .recorded }
  let s := if x.status.toNat ≤ 6 then
      x.engines.foldl (fun s e => count s (cScan e.1 (6 + x.status.toNat)) 1) s
    else s
  match scanCheck s x (regionOf x.record.toNat) false with
  | some _ => s.setScan k (some { x with noRecord := true })
  | none => scanWrite s k x x.record.toNat (BitVec.allOnes 64) (BitVec.ofNat 512 (scanRecord x))

/-- SCAN_END (R194). -/
def execScanEnd (k : BitVec 8) (s : State) : Out :=
  .next (match s.scan k.toNat with
    | some x =>
      when (running s && x.outBusy == 0 && (x.phase = .ending || (x.phase = .running && scanComplete x))) s
        (scanFinish s k.toNat x)
    | none => s)

/-- DATA of the completion event (R301). -/
def scanData (k : Nat) (x : Scan) : Nat :=
  k + x.tag.toNat * 2 ^ 8 + x.status.toNat * 2 ^ 24 + b2n x.noRecord * 2 ^ 32

/-- SCAN_COMPLETION_EVENT (R194): the event, and the slot is freed. -/
def execScanCompletionEvent (k : BitVec 8) (s : State) : Out :=
  .next (match s.scan k.toNat with
    | some x =>
      when (running s && x.phase = .recorded && x.outBusy == 0) s
        (x.aborts.foldl (fun s c => answer s c rcSuccess)
          (raise (s.setScan k.toNat none) (0x100 + k.toNat) (scanData k.toNat x)))
    | none => s)

/-- SCAN_ABORT (R195). -/
def execScanAbort (c : Cmd) (s : State) : Out :=
  runCmd s c 0x0206 (fun s =>
    let k := bits c.p0.toNat 7 0
    match s.scan k with
    | none => answer s c rcTooLate
    | some x =>
      orFail s c
        [(!isAdmin s c && flwInit s x.flow.toNat != c.initiator.toNat, rcFlowInvalid),
         (x.phase = .recorded, rcTooLate)]
        ((begin s c).setScan k (some { x with
          phase := .ending, status := if x.phase = .running then 5 else x.status, aborts := x.aborts ++ [c] })))

end Sys2Proof.Machine
end

