-- ==== Sys2Proof/Machine/Units.lean ====
section
/-! DEFINITION. Shutting units down and starting them (R380 to R382, R406, R410), and POWER_STATE with the start of Hold
(R442, R443, R445). -/

namespace Sys2Proof.Machine

open Sys2Proof

/-! ## Units -/

/-- Fault set of a unit. -/
def unitSet : UnitId → FltSet
  | .tum t => .tum t
  | .port p => .port p
  | .scan n => .scan n
  | .core c => .core c

/-- The unit is in its shutting-down state. -/
def unitShutting (s : State) : UnitId → Bool
  | .tum t => tstate s t = .shutting
  | .port p => (s.port p).shutting
  | .scan n => (s.eng n).state = .shutting
  | .core c => (s.core c).state = .shutting

/-- The unit is in latch-out, its shutdown ended. -/
def unitLatched (s : State) (u : UnitId) : Bool := latched s (unitSet u) && !unitShutting s u

/-- REEN_PEND of a unit (R382). -/
def reenPend (s : State) : UnitId → Bool
  | .tum t => (s.tum t).mode.reenPend
  | .port p => (s.port p).reenPend
  | .scan n => (s.eng n).reenPend
  | .core c => (s.core c).reenPend

def setReen (s : State) (u : UnitId) (b : Bool) : State :=
  match u with
  | .tum t => setMode s t (fun m => { m with reenPend := b })
  | .port p => s.modPort p (fun x => { x with reenPend := b })
  | .scan n => s.setEng n { s.eng n with reenPend := b }
  | .core c => s.setCore c { s.core c with reenPend := b }

/-- A class of the unit's FLT_STAT is held at a recorded severity of 3 or 4 (R406). -/
def unitFaulty (s : State) (u : UnitId) : Bool := decide (3 ≤ maxSev s (unitSet u))

/-- The shutdown of a unit by command begins (R410), with DISABLED recorded (R398); a tumbler in the emergency band takes a
fault shutdown. -/
def unitShutdown (s : State) (u : UnitId) : State :=
  let s := recordQuiet s (unitSet u) 1 0 1
  match u with
  | .tum t => tumShutdown s t (s.tum t).mode.emergency
  | .port p => portLatch s p
  | .scan n => engShutdown s n
  | .core c => coreShutdown s c

/-! ## Starts (R381) -/

/-- A core starts at COREn_BOOT_VEC (R379, R381). -/
def coreStart (s : State) (c : Nat) : State :=
  s.setCore c { Core.init with state := .booting, pc := BitVec.ofNat 64 (2 * fld s (coreReg c 0) 31 1) }

/-- An engine is Idle, or Disabled where EN is 0 (R200). -/
def engStart (s : State) (n : Nat) : State := s.setEng n { state := .up, reenPend := false }

/-- The start of a tumbler: its slices stay in self-refresh until it is online (PRESERVE = 1), or are written anew. -/
def tumStart (s : State) (t : Tum) (preserve : Bool) : State :=
  if preserve then setMode s t (fun m => { m with state := .offline })
  else
    let s := leaveSelf s t
    let poison := !pairUp s
    setMode s t (fun m => { m with state := .initSweep, sweepPtr := 0, reinitPoison := poison, cleared := [] })

/-- The start of R381 begins. -/
def startUnit (s : State) (u : UnitId) (preserve : Bool) : State :=
  let s := setReen s u false
  let s := { s with cmds := { s.cmds with starting := s.cmds.starting ++ [(u, preserve)] } }
  match u with
  | .tum t => tumStart s t preserve
  | .port p => toDetect (clearExclusions s p) p
  | .scan n => engStart s n
  | .core c => coreStart s c

/-! ## UNIT_DISABLE -/

/-- No other core is running or asleep (R380). -/
def lastCore (s : State) (u : UnitId) : Bool :=
  match u with
  | .core c => takesSources s c && !(List.range 8).any (fun k => k != c.val && takesSources s k)
  | _ => false

/-- A pending enable is superseded by a disable (R382). -/
def supersede (s : State) (u : UnitId) : State :=
  let l := s.cmds.enabling.filter (fun x => x.1 = u)
  let s := { setReen s u false with cmds := { s.cmds with enabling := s.cmds.enabling.filter (fun x => x.1 ≠ u) } }
  l.foldl (fun s x => answer s x.2.2 rcSuperseded) s

/-- UNIT_DISABLE of a unit (R380, R382). -/
def disableUnit (s : State) (c : Cmd) (u : UnitId) : State :=
  if unitLatched s u then answer s c rcSuccess
  else
    let s := if reenPend s u then supersede s u else s
    let s := begin { s with cmds := { s.cmds with disabling := s.cmds.disabling ++ [(u, c)] } } c
    if unitShutting s u || inStart s u then s else unitShutdown s u

/-- UNIT_DISABLE (R380). -/
def execUnitDisable (c : Cmd) (s : State) : Out :=
  runCmd s c 0x0500 (fun s =>
    match unitOf c with
    | none => answer s c rcBadUnit
    | some u => orFail s c [(lastCore s u, rcState)] (disableUnit s c u))

/-! ## UNIT_ENABLE -/

/-- The slices may have lost data since the entry into latch-out (R381). -/
def mayNotPreserve (s : State) (u : UnitId) (preserve : Bool) : Bool :=
  match u with
  | .tum t => preserve && (s.tum t).mode.refreshLost
  | _ => false

/-- UNIT_ENABLE waits for its reply with the unit's start or pending. -/
def awaitStart (s : State) (c : Cmd) (u : UnitId) (preserve : Bool) : State :=
  begin { s with cmds := { s.cmds with enabling := s.cmds.enabling ++ [(u, preserve, c)] } } c

/-- UNIT_ENABLE of a unit (R381, R382, R406). -/
def enableUnit (s : State) (c : Cmd) (u : UnitId) (preserve : Bool) : State :=
  if reenPend s u then answer s c rcEnablePending
  else if unitShutting s u then setReen (awaitStart s c u preserve) u true
  else if inStart s u then awaitStart s c u preserve
  else if unitLatched s u then
    orFail s c [(unitFaulty s u, rcState), (mayNotPreserve s u preserve, rcState)] (startUnit (awaitStart s c u preserve) u preserve)
  else answer s c rcSuccess

/-- UNIT_ENABLE (R381). -/
def execUnitEnable (c : Cmd) (s : State) : Out :=
  runCmd s c 0x0501 (fun s =>
    match unitOf c with
    | none => answer s c rcBadUnit
    | some u => enableUnit s c u (bit c.p0.toNat 16))

/-! ## SHUTDOWN_COMPLETE (R410) -/

/-- Bodies of FENCE and UNFENCE for one tumbler (R325). -/
def tumMask (t : Nat) : List (BitVec 16) := toChunks 4 (2 ^ t)

/-- The swap of a tumbler that enters latch-out ends: abandoned, or retired where it is past its switch point. -/
def endSwap (s : State) (t : Nat) : State :=
  match (s.tum t).swap with
  | some w => if swapState s t = 2 then swapRetire s t w else abandonDone s t w
  | none => s

/-- Nothing is queued, held or on its way in a tumbler. -/
def tumEmpty (s : State) (t : Nat) : Bool :=
  let q := (s.tum t).q
  q.queue.isEmpty && q.slots.isEmpty && q.flight.isEmpty && q.asm.isEmpty

/-- The tumbler enters latch-out (R193, R335, R410, R411). -/
def tumLatch (s : State) (t : Nat) : State :=
  let s := fenceScans (endSwap s t) t
  let s := if (s.tum t).mode.self then s else selfEntry s t
  let s := setMode s t (fun m => { m with state := .latchOut, faultShut := false, emergency := false, refreshLost := false })
  let s := pauseOff s t
  let s := if pairUp s then sendCtrl s 6 0 (tumMask t) else s
  releaseRegions s

/-- In a fault shutdown the reads and atomics without an issued command are dealt with first (R410). -/
def fenceFirst (s : State) (t : Nat) : State := if (s.tum t).mode.faultShut then fenceUnstarted s t else s

/-- Every scan that needs engine `n` has ended under R194. -/
def engFree (s : State) (n : Nat) : Bool :=
  (List.range 256).all (fun k => (s.scan k).all (fun x => !scanNeeds x n || x.phase = .recorded))

/-- The unit's part of the shutdown is over. -/
def shutOver (s : State) : UnitId → Bool
  | .tum t => tumEmpty (fenceFirst s t) t
  | .scan n => engFree s n
  | _ => true

/-- The unit enters latch-out. -/
def latchUnit (s : State) (u : UnitId) : State :=
  match u with
  | .tum t => tumLatch (fenceFirst s t) t
  | .port p => s.modPort p (fun x => { x with shutting := false })
  | .scan n => s.setEng n { s.eng n with state := .latchOut }
  | .core c => s.setCore c { s.core c with state := .latchOut }

/-- Disables of the unit are answered once it is in latch-out (R380). -/
def answerDisables (s : State) (u : UnitId) : State :=
  let l := s.cmds.disabling.filter (fun x => x.1 = u)
  let s := { s with cmds := { s.cmds with disabling := s.cmds.disabling.filter (fun x => x.1 ≠ u) } }
  l.foldl (fun s x => answer s x.2 rcSuccess) s

/-- Enables of the unit leave the list with a status. -/
def answerEnables (s : State) (u : UnitId) (st : BitVec 16) : State :=
  let l := s.cmds.enabling.filter (fun x => x.1 = u)
  let s := { s with cmds := { s.cmds with enabling := s.cmds.enabling.filter (fun x => x.1 ≠ u) } }
  l.foldl (fun s x => answer s x.2.2 st) s

/-- The pending enable is judged by R406 (R382). -/
def judgeEnable (s : State) (u : UnitId) : State :=
  if !reenPend s u then s
  else
    let pre := (s.cmds.enabling.find? (fun x => x.1 = u)).any (·.2.1)
    if unitFaulty s u || mayNotPreserve s u pre then answerEnables (setReen s u false) u rcState
    else startUnit s u pre

/-- SHUTDOWN_COMPLETE (R410). -/
def execShutdownComplete (u : UnitId) (s : State) : Out :=
  .next (when (unitShutting s u && shutOver s u) s (judgeEnable (answerDisables (latchUnit s u) u) u))

/-! ## UNIT_START_DONE (R381) -/

/-- The start of the unit is over, but for what the event itself does. -/
def startOver (s : State) (u : UnitId) (preserve : Bool) : Bool :=
  match u with
  | .tum t => if preserve then (s.tum t).mode.self else tstate s t = .online
  | .core c => (s.core c).state = .booting
  | _ => true

/-- A tumbler's start ends: self-refresh exit, and UNFENCE to the partner (R337). -/
def tumStarted (s : State) (t : Nat) (preserve : Bool) : State :=
  let s := if preserve then
      setMode (excludeQueued (leaveSelf s t) t) t (fun m => { m with state := .online, everOnline := true })
    else s
  if pairUp s then sendCtrl s 7 0 (tumMask t ++ [if preserve then 0 else 1]) else s

/-- The unit is started. -/
def unitStarted (s : State) (u : UnitId) (preserve : Bool) : State :=
  match u with
  | .tum t => tumStarted s t preserve
  | .core c => s.setCore c { s.core c with state := .running }
  | _ => s

/-- A UNIT_DISABLE that came during the start follows it (R380). -/
def lateDisable (s : State) (u : UnitId) : State :=
  if s.cmds.disabling.any (fun x => x.1 = u) then unitShutdown s u else s

/-- The start of `u` finishes: its enables are answered and a waiting disable follows. -/
def startDone (s : State) (u : UnitId) (preserve : Bool) : State :=
  let s := { s with cmds := { s.cmds with starting := s.cmds.starting.filter (fun x => x.1 ≠ u) } }
  lateDisable (answerEnables (unitStarted s u preserve) u rcSuccess) u

/-- A unit that came up without a UNIT_ENABLE has commands waiting for it (R357, R380). -/
def bootStarted (s : State) (u : UnitId) : Bool :=
  !inStart s u && !unitShutting s u && !unitLatched s u &&
    (s.cmds.disabling.any (fun x => x.1 = u) || s.cmds.enabling.any (fun x => x.1 = u))

/-- UNIT_START_DONE (R381). -/
def execUnitStartDone (u : UnitId) (s : State) : Out :=
  .next (match s.cmds.starting.find? (fun x => x.1 = u) with
    | some x => when (startOver s u x.2) s (startDone s u x.2)
    | none => when (bootStarted s u) s (lateDisable (answerEnables s u rcSuccess) u))

/-! ## POWER_STATE (R442, R443, R445) -/

/-- Quiet bits change (R443): a tumbler in self-refresh whose bit is now clear starts its exit. -/
def quietWake (s : State) : State :=
  foldUpTo 64 (fun s t =>
    if tstate s t = .quiet && !quietBit s t && (s.tum t).mode.wake = .no then
      setMode s t (fun m => { m with wake := .quiet })
    else s) s

/-- Sets or clears the bits `m` of a register. -/
def putBits (s : State) (off m : Nat) (b : Bool) : State :=
  let v := (rd s off).toNat
  wr s off (BitVec.ofNat 32 (if b then v ||| m else v &&& (allBits ^^^ m)))

/-- Codes 0b000 to 0b010 (R442). -/
def setPower (s : State) (code tums ports : Nat) : State :=
  let q := code == 2
  let s := putBits s (senReg 0x20) (bits tums 31 0) q
  let s := putBits s (senReg 0x24) (bits tums 63 32) q
  let s := putBits s (senReg 0x28) ports q
  let s := if q then s else
    foldUpTo 64 (fun s t => if bit tums t then gateOff (setF s (tumReg t 0x10) 16 16 code) t else s) s
  quietWake s

/-- A POWER_STATE that is performed: LAST, and the count (R423, R472). -/
def powerDone (s : State) (code : Nat) : State := count (setF s (senReg 0) 2 0 code) (cSen 3) 1

/-- POWER_STATE (R442, R445). -/
def execPowerState (c : Cmd) (s : State) : Out :=
  runCmd s c 0x0502 (fun s =>
    let code := p0 c 2 0
    let tums := c.p1.toNat
    let ports := bits c.p2.toNat 15 0
    orFail s c
      [(decide (4 ≤ code), rcBadValue),
       (code == 3 && (tums != 2 ^ 64 - 1 || ports != 0xFFFF), rcBadValue),
       (code == 3 && !flag s (senReg 0) 5, rcState)]
      (if code = 3 then
        let s := answer (powerDone s code) c rcSuccess
        { s with power := { s.power with holdAsked := true } }
      else answer (powerDone (setPower s code tums ports) code) c rcSuccess))

/-- HOLD_STOP_POINT (R445, R447). -/
def execHoldStopPoint (s : State) : Out :=
  .next (when (s.power.holdAsked && running s) s
    (beginDrain { s with power := { s.power with holdAsked := false } } .powerState))

end Sys2Proof.Machine
end

