-- ==== Sys2Proof/Machine/EventRows.lean ====
section
/-! DEFINITION. The event controller: acceptance and packets (R388, R389, R396), delivery to the cores (R377, R378, R390 to
R395), and writes of its registers (R412 to R416). The instructions of the cores are no commands of the block: MIE,
EVTHR and the address of the next instruction are theirs (log 55). -/

namespace Sys2Proof.Machine

open Sys2Proof

/-! ## Sources (R387) -/

/-- The fault set whose source is `n`. -/
def setOfSource (s : State) (n : Nat) : Option FltSet := (fltSets s.part).find? (fun b => fltSource b == n)

/-- A class bit is set whose FLT_MASK bit is 0. -/
def fltAsserted (s : State) (b : FltSet) : Bool :=
  ((rd s (fltBase b)).toNat &&& (0xFFFFFF ^^^ fld s (fltBase b + 4) 23 0)) % 2 ^ 24 != 0

/-- A level source is asserted (R387). -/
def sourceLevel (s : State) (n : Nat) : Bool :=
  if 0x210 ≤ n ∧ n ≤ 0x21F then
    let src := CmdSrc.port (Fin.ofNat 16 (n - 0x210))
    (headOf s src).isSome && mayTake s src
  else if 0x220 ≤ n ∧ n ≤ 0x223 then
    let src := CmdSrc.ring (Fin.ofNat 4 (n - 0x220))
    (headOf s src).isSome && mayTake s src
  else (setOfSource s n).any (fltAsserted s)

def isPending (s : State) (n : Nat) : Bool := flag s (evcSrc n 4) 0
def inService (s : State) (n : Nat) : Bool := flag s (evcSrc n 4) 1
def srcMasked (s : State) (n : Nat) : Bool := flag s (evcSrc n 0) 8
def srcPrio (s : State) (n : Nat) : Nat := fld s (evcSrc n 0) 3 0

/-! ## Acceptance (R389, R396) -/

/-- SEVERITY of an EVT packet (R301): the highest recorded severity of a fault source (log 56). -/
def evtSeverity (s : State) (n : Nat) : Nat :=
  match setOfSource s n with
  | some b => maxSev s b
  | none => 0xFF

/-- One EVT packet for subscription `i`: the port's queue takes it where it has room (R304, R396). -/
def sendEvt (s : State) (n data : Nat) (i : Nat) (x : Sub) : State :=
  let e : EvtPkt :=
    { initiator := x.initiator, source := BitVec.ofNat 12 n, severity := BitVec.ofNat 8 (evtSeverity s n),
      count := BitVec.ofNat 8 (fld s (evcSrc n 4) 15 8), time := s.now, data := BitVec.ofNat 64 data, seq := x.seq }
  let p := x.port.toNat
  let s := putSub s i (some { x with seq := x.seq + 1 })
  if (s.port p).link = .off || (s.port p).link = .latchOut then count s (cPort p 22) 1
  else if mirrorRole s p || decide (64 ≤ (s.port p).evtQ.length) then s
  else s.modPort p (fun y => { y with evtQ := y.evtQ ++ [e] })

/-- A pending, unmasked source of priority above 0 wakes its target (R378, R394). -/
def wakeTarget (s : State) (n : Nat) : State :=
  let c := targetOf s n
  if isPending s n && !srcMasked s n && srcPrio s n != 0 && (s.core c).state = .asleep then
    s.setCore c { s.core c with state := .running }
  else s

/-- Source `n` is accepted as pending (R389). -/
def acceptSource (s : State) (n data : Nat) : State :=
  let o := evcSrc n 4
  let s := setF (setF s o 15 8 (min 255 (fld s o 15 8 + 1))) o 0 0 1
  let s := wr s (evcSrc n 0x10) (BitVec.ofNat 32 s.now.toNat)
  let s := wr s (evcSrc n 0x14) (BitVec.ofNat 32 (s.now.toNat / 2 ^ 32))
  let s := s.cmds.subs.foldl (fun (u : State) e =>
    match e.2 with
    | some x => if x.source.toNat = n then sendEvt u n data e.1 x else u
    | none => u) s
  wakeTarget s n

/-- The first pulse of source `n` is taken off. -/
def takePulse (s : State) (n : BitVec 12) : State := { s with pulses := s.pulses.eraseP (fun e => e.1 = n) }

/-- A level source may be accepted (R389). -/
def levelReady (s : State) (n : Nat) : Bool :=
  (srcKind s.part n).1 = .level && sourceLevel s n && !isPending s n && !inService s n

/-- SOURCE_ACCEPT (R389). -/
def execSourceAccept (src : BitVec 12) (s : State) : Out :=
  .next (when (haspLive s) s
    (match s.pulses.find? (fun e => e.1 = src) with
     | some e => acceptSource (takePulse s src) src.toNat e.2.toNat
     | none => when (levelReady s src.toNat) s (acceptSource s src.toNat 0)))

/-! ## Delivery (R377, R390, R391) -/

/-- The source can be selected for core `c`; MIE and EVTHR are the core's (log 55). -/
def eligible (s : State) (c n : Nat) : Bool :=
  isPending s n && !srcMasked s n && targetOf s n == c && srcPrio s n != 0

/-- The arbiter's choice for core `c`: highest priority, then lowest index (R390). -/
def arbiter (s : State) (c : Nat) : Option Nat :=
  foldUpTo 4096 (fun (m : Option Nat) n =>
    if (srcKind s.part n).1 != .reserved && eligible s c n then
      match m with
      | none => some n
      | some k => if srcPrio s k < srcPrio s n then some n else some k
    else m) none

/-- The core takes the delivery of source `n` (R377). The address of its next instruction is free (log 55). -/
def deliver (s : State) (c n : Nat) : State :=
  let (f, s) := fresh s
  let vec := (rd s (evcSrc n 8)).toNat + (rd s (evcSrc n 0xC)).toNat * 2 ^ 32
  let s := s.setCore c { s.core c with
    state := .running, mepc := f &&& 0xFFFFFFFFFFFFFFFE, mcause := 0x8000000000000018, mtval := 0
    evsrc := BitVec.ofNat 12 n, mpie := true, mie := false, mpp := 3, pc := BitVec.ofNat 64 vec }
  count s (cCmd (11 + c)) 1

/-- Vector-fetch entry of source `n` at core `c`: the claim (R391). -/
def claim (s : State) (c n : Nat) : State :=
  let o := evcSrc n 4
  let s := setF (setF s o 0 0 0) o 6 4 c
  deliver (if (srcKind s.part n).1 = .level then setF s o 1 1 1 else s) c n

/-- EVENT_CLAIM (R391). -/
def execEventClaim (c : CoreN) (src : BitVec 12) (s : State) : Out :=
  .next (when (haspLive s && takesSources s c && arbiter s c = some src.toNat) s (claim s c src.toNat))

/-- WFI (R378): the core sleeps unless a delivery to it is pending. -/
def execWfi (c : CoreN) (s : State) : Out :=
  .next (when (haspLive s && (s.core c).state = .running && (arbiter s c).isNone) s
    (s.setCore c { s.core c with state := .asleep }))

/-! ## Register writes -/

/-- A write of EVC_SRC_CFG (R392, R414): FILT of a synchronous source stays 0. -/
def wrSrcCfg (s : State) (n : Nat) (v : Reg32) : State :=
  let rej := if !(srcKind s.part n).2 && bits v.toNat 15 10 != 0 then mask 15 10 else 0
  wakeTarget (putReg s (evcSrc n 0) v rej) n

/-- EVC_SRC_CFG_WRITE (R392). -/
def execEvcSrcCfgWrite (src : BitVec 12) (v : Reg32) (s : State) : Out :=
  .next (atReg s (evcSrc src.toNat 0) (wrSrcCfg s src.toNat v))

/-- A write of EVC_EOI (R395): a source still asserted is accepted again. -/
def wrEoi (s : State) (v : Reg32) : State :=
  let n := bits v.toNat 11 0
  if (srcKind s.part n).1 = .level && inService s n then
    let s := setF s (evcSrc n 4) 1 1 0
    if levelReady s n then acceptSource s n 0 else s
  else s

/-- EVC_EOI (R395). -/
def execEvcEoi (v : Reg32) (s : State) : Out := .next (atReg s (evcReg 0) (wrEoi s v))

/-- A write of EVC_SW_RAISE (R412). -/
def wrSwRaise (s : State) (v : Reg32) : State :=
  let n := bits v.toNat 11 0
  if n < 0x800 then paramFault s .evc else raise s n 0

/-- EVC_SW_RAISE (R412). -/
def execEvcSwRaise (v : Reg32) (s : State) : Out := .next (atReg s (evcReg 4) (wrSwRaise s v))

/-- A write of EVC_SRC_STAT (R415): CNT_CLR sets COUNT to 0. -/
def wrSrcStat (s : State) (n : Nat) (v : Reg32) : State :=
  if bit v.toNat 31 then setF s (evcSrc n 4) 15 8 0 else s

/-- CNT_CLR (R415): the written value carries CNT_CLR. -/
def execCntClr (src : BitVec 12) (v : Reg32) (s : State) : Out :=
  .next (atReg s (evcSrc src.toNat 4) (wrSrcStat s src.toNat (v ||| 0x80000000)))

end Sys2Proof.Machine
end

