-- ==== Sys2Proof/Machine/FaultRows.lean ====
section
/-! DEFINITION. Faults that a block detects of itself (R398, R403, R459), their acknowledgement (R406), and the end of a
reaction shadow (R405). -/

namespace Sys2Proof.Machine

open Sys2Proof

/-! ## FAULT_DETECTED -/

/-- The block of a set can record: its domain is out of reset (R493, R508). -/
def setLive (s : State) (b : FltSet) : Bool :=
  match b with
  | .sen | .ivr _ | .mram => !s.power.porst
  | .leaf l => haspLive s && decide (l.val < s.part.leaves)
  | _ => haspLive s

/-- LINE_SLOT (R398): the words `m` of the slot of line `x` are held poisoned under their EPOCH. -/
def slotLost (s : State) (t x m : Nat) : State :=
  setQ s t (fun q => { q with slots := q.slots.map (fun k =>
    if k.line = x then
      { k with poison := BitVec.ofNat 8 (foldUpTo 8 (fun n w =>
          n + b2n (bit k.poison.toNat w || (bit m w && slotHas k w)) * 2 ^ w) 0) }
    else k) })

/-- DETAIL of an entry: the registers of R407 for the classes that have them. -/
def detailOf (b : FltSet) (c : Nat) (d : BitVec 96) : BitVec 96 :=
  match b with
  | .tum _ => if c = 2 ∨ c = 3 then d else 0
  | .port _ => if c = 2 then d else 0
  | _ => 0

/-- What a class does beside its record. -/
def faultSide (s : State) (b : FltSet) (c : Nat) (d : BitVec 96) : State :=
  match b with
  | .tum t =>
    if c = 7 then slotLost s t (bits d.toNat 95 8) (bits d.toNat 7 0)
    else if c = 5 && tstate s t = .latchOut then setMode s t (fun m => { m with refreshLost := true })
    else s
  | .ivr n => if c = 1 then count s (cSen (8 + n)) 1 else if c = 2 then setF s (senReg 0) 7 7 0 else s
  | .xbar => if c = 1 then count s (cXbar 5) 1 else s
  | _ => s

/-- A condition class whose condition still holds shows no further fault (R404). -/
def alreadyHeld (s : State) (b : FltSet) (c : Nat) : Bool := (faultClass b c).1 && condHolds s b c

/-- FAULT_DETECTED (R403). For LINE_SLOT `detail` names the affected words in bits [7:0] and the line above them. -/
def execFaultDetected (b : FltSet) (cls : Fin 24) (detail : BitVec 96) (merged : BitVec 32) (s : State) : Out :=
  .next (when (setLive s b && decide (cls.val < classCount b) && !alreadyHeld s b cls) s
    (fault (faultSide s b cls detail) b cls (detailOf b cls detail) (max 1 merged.toNat)))

/-! ## FLT_STAT_ACK (R406) -/

/-- A write of FLT_STAT: acknowledged classes clear with their FLT_SEV, but for conditions that still hold. -/
def wrFltStat (s : State) (b : FltSet) (v : Reg32) : State :=
  let s := foldUpTo (classCount b) (fun s c =>
    if bit v.toNat c && statBit s b c && !alreadyHeld s b c then
      setSev (setF s (fltBase b) c c 0) b c 0 false
    else s) s
  setAlert s (alertCond s)

/-- FLT_STAT_ACK (R406). -/
def execFltStatAck (b : FltSet) (v : Reg32) (s : State) : Out :=
  .next (atReg s (fltBase b) (wrFltStat s b v))

/-! ## SHADOW_END (R405) -/

/-- An access of port `p` accepted before its last reset has still to complete. -/
def oldOfPort (s : State) (p : PortN) (a : Access) : Bool := a.port = some p && a.gen ≠ (s.port p).gen && !a.answered

/-- The dependants of the reaction have finished their part. -/
def shadowOver (s : State) (b : FltSet) : Bool :=
  match b with
  | .tum t => tumEmpty s t && tstate s t ≠ .shutting
  | .port p => !s.waiting.any (oldOfPort s p) && (List.range 64).all (fun t => !(s.tum t).q.queue.any (oldOfPort s p))
  | .scan n => engFree s n
  | _ => true

/-- Conditions entered in the shadow that still hold are recorded again (R405). -/
def rerecord (s : State) (l : List (FltSet × Nat)) : State :=
  l.foldl (fun s e => if alreadyHeld s e.1 e.2 then fault s e.1 e.2 0 1 else s) s

/-- The first shadow of `b` ends. -/
def endShadow (s : State) (b : FltSet) (x : Shadow) : State :=
  rerecord { s with shadows := s.shadows.eraseP (fun e => e.owner = b && !e.fatal) } x.seen

/-- SHADOW_END (R405); the shadow of a Fatal stop lasts until reset. -/
def execShadowEnd (b : FltSet) (s : State) : Out :=
  .next (match s.shadows.find? (fun e => e.owner = b && !e.fatal) with
    | some x => when (shadowOver s b) s (endShadow s b x)
    | none => s)

end Sys2Proof.Machine
end

