-- ==== Sys2Proof/Machine/Rings.lean ====
section
/-! DEFINITION. The ring pairs and the USB4 port (R359, R370 to R373, R493). -/

namespace Sys2Proof.Machine

open Sys2Proof

/-! ## Stopping (R373) -/

/-- The ring pair works: enabled, its link up, not stopped, the port not fenced. -/
def ringLive (s : State) (n : Nat) : Bool :=
  strikeLive s && flag s (ringReg n 0) 0 && s.usb.link && !s.usb.fenced && !(s.ring n).stopped

/-- A DMA error stops the ring, with ERR set and EN cleared. -/
def ringError (s : State) (n : RingN) : State :=
  let s := setF (setF (stopRing s n) (ringReg n 0) 2 2 1) (ringReg n 0) 0 0 0
  fault (count s (cUsb 3) 1) .usb 1 0 1

/-- DMA_ERROR (R373). -/
def execDmaError (n : RingN) (s : State) : Out := .next (when (ringLive s n) s (ringError s n))

/-- The USB4 link is lost: every ring stops, and LINK_LOSS is recorded (R373, R398). -/
def linkLost (s : State) : State :=
  fault (count (stopRings { s with usb := { s.usb with link := false } }) (cUsb 4) 1) .usb 2 0 1

/-- USB4_LINK_LOSS (R373). -/
def execUsb4LinkLoss (s : State) : Out := .next (when (strikeLive s && s.usb.link) s (linkLost s))

/-! ## CORE_RING_CTL and the bases (R372) -/

/-- EN goes from 0 to 1: the four pointers start at 0. -/
def ringStart (s : State) (n : Nat) : State :=
  let s := [0x14, 0x18, 0x1C, 0x20].foldl (fun s o => wr s (ringReg n o) 0) s
  s.setRing n { s.ring n with stopped := false, cmdQ := [], replies := [] }

/-- A write of CORE_RING_CTL (R372, R373). -/
def wrRingCtl (s : State) (n : RingN) (v : Reg32) : State :=
  let o := ringReg n 0
  let en := flag s o 0
  let size := bits v.toNat 12 8
  let bad := decide (size < 6) || decide (16 < size) || (en && size != fld s o 12 8)
  let s := putReg s o v (if bad then mask 12 8 else 0)
  if !en && bit v.toNat 0 then ringStart s n else if en && !bit v.toNat 0 then stopRing s n else s

/-- A write of a BASE register: while EN is 1 its value stays. -/
def wrRingBase (s : State) (off : Nat) (v : Reg32) (m : Nat) : State :=
  let n := (off - ringReg 0 0) / 0x40
  let diff := (v.toNat &&& m) != (rd s off).toNat
  putReg s off v (if flag s (ringReg n 0) 0 && diff then m else 0)

/-- RING_EN_WRITE (R373). -/
def execRingEnWrite (n : RingN) (v : Reg32) (s : State) : Out := .next (atReg s (ringReg n 0) (wrRingCtl s n v))

/-! ## Commands and replies -/

/-- Slots between CHEAD and CTAIL. -/
def ringFilled (s : State) (n : Nat) : Nat :=
  (fld s (ringReg n 0x14) 16 0 + 2 ^ 17 - fld s (ringReg n 0x18) 16 0) % 2 ^ 17

/-- The command that host memory holds from CHEAD on; its EXT is LEN bytes (R359). -/
def ringCmd (n : RingN) (bytes : List Byte) : Cmd :=
  let c := cmdOfBytes (.ring n) 0 none bytes
  let k := c.len.toNat
  { c with ext := padTo k (c.ext.take k) }

/-- The device reads the command at CHEAD: one that can never be covered stops the ring, one not covered is left (R359,
R373). -/
def fetchCmd (s : State) (n : RingN) (bytes : List Byte) : State :=
  let c := ringCmd n bytes
  let k := ringSlots c.len.toNat
  if 2 ^ fld s (ringReg n 0) 12 8 < k then ringError s n
  else if k ≤ ringFilled s n then s.setRing n { s.ring n with cmdQ := [c] }
  else s

/-- RING_COMMAND_FETCH (R373). -/
def execRingCommandFetch (n : RingN) (bytes : List Byte) (s : State) : Out :=
  .next (when (ringLive s n && running s && s.power.taking && s.update.isNone && (s.ring n).cmdQ.isEmpty
      && ringFilled s n != 0) s
    (fetchCmd s n bytes))

/-- Writes slot `i` of a reply to its place in the reply ring. -/
def replySlot (s : State) (n tail i : Nat) (b : List Byte) : Word64 × List Byte :=
  let base := (rd s (ringReg n 0x0C)).toNat + (rd s (ringReg n 0x10)).toNat * 2 ^ 32
  (BitVec.ofNat 64 (base + 64 * ((tail + i) % 2 ^ fld s (ringReg n 0) 12 8)), (b.drop (64 * i)).take 64)

/-- The first waiting reply is written; RTAIL advances and the vector is signalled. -/
def writeReply (s : State) (n : Nat) (r : Reply) : State :=
  let b := replyBytes r
  let k := (b.length + 63) / 64
  let o := ringReg n 0x1C
  let tail := fld s o 16 0
  let x := s.ring n
  let irq := flag s (ringReg n 0) 1
  let out := (List.range k).map (fun i => replySlot s n tail i b)
  let s := s.setRing n { x with replies := x.replies.drop 1, msix := if irq then x.msix + 1 else x.msix }
  setF { s with usb := { s.usb with out := s.usb.out ++ out } } o 16 0 (tail + k)

/-- REPLY_WRITE (R373). -/
def execReplyWrite (n : RingN) (s : State) : Out :=
  .next (match (s.ring n).replies with
    | [] => s
    | r :: _ => when (ringLive s n && replyRoom s n r.data.length) s (writeReply s n r))

/-! ## USB4 reset (R493) -/

/-- Registers of the USB4 domain. -/
def usbReg (o : Nat) : Bool := (decide (0x2B81000 ≤ o) && decide (o < 0x2B82000)) || o == accStat 8

/-- The USB4 domain returns to its reset values; replies owed on the rings are discarded. The shadows of BAR0 and the rings
stay (R35, log 128). -/
def usbDomainReset (s : State) : State :=
  let s := (allFins 4).foldl (fun (s : State) (n : RingN) => stopRing s n) s
  let s := resetRegs s usbReg
  { s with rings := [], usb := { s.usb with fenced := false } }

/-- USB4_RESET (R493). -/
def execUsb4Reset (s : State) : Out := .next (when (strikeLive s) s (usbDomainReset s))

end Sys2Proof.Machine
end

