-- ==== Sys2Proof/Machine/Firmware.lean ====
section
/-! DEFINITION. Firmware images and in-service update (R383 to R385), and core restarts (R379). -/

namespace Sys2Proof.Machine

open Sys2Proof

/-- The image slot running, and the other one. -/
def slotRunning (s : State) : Nat := fld s fwStat 8 8
def slotOther (s : State) : Nat := 1 - slotRunning s

/-- CORE_FW_STAT.UPD. -/
def setUpd (s : State) (v : Nat) : State := setF s fwStat 1 0 v

/-! ## FW_LOAD and FW_COMMIT (R383) -/

/-- A committed image's trailer is invalidated: its CHECK becomes one that cannot fit (log 57). -/
def dropTrailer (s : State) (k : Nat) : State :=
  if (imgSeq s k).isSome then
    let seq := mramU32 s (imgTrailer k)
    mramPut s (imgTrailer k)
      (leBytes 4 seq ++ leBytes 4 (0xFFFFFFFF - byteCrc (imgBody s k (imgLength s k) ++ leBytes 4 seq)))
  else s

/-- FW_LOAD (R383). -/
def execFwLoad (c : Cmd) (mramOk : Bool) (s : State) : Out :=
  runCmd s c 0x0700 (fun s =>
    let o := p0 c 21 0
    orFail s c
      [(s.update.isSome, rcInProgress), (decide (0x400000 < o + c.ext.length), rcBadRange), (s.mramFenced, rcMramFault)]
      (let k := slotOther s
       let (s, ok) := mramStore (setUpd (dropTrailer s k) 1) (imgBase k + o) c.ext mramOk
       answer s c (if ok then rcSuccess else rcMramFault)))

/-- What FW_COMMIT checks of the loaded image. -/
def commitOk (s : State) (k n crc : Nat) : Bool :=
  imgIdent s k && imgLength s k == n && decide (n ≤ 0x3FFFF8) && byteCrc (imgBody s k n) == crc

/-- SEQ that a commit writes: one more than the highest valid one (R467). -/
def commitSeq (s : State) : Nat := max ((imgSeq s 0).getD 0) ((imgSeq s 1).getD 0) + 1

/-- FW_COMMIT (R383). -/
def execFwCommit (c : Cmd) (mramOk : Bool) (s : State) : Out :=
  runCmd s c 0x0701 (fun s =>
    let k := slotOther s
    let n := p0 c 22 0
    orFail s c
      [(s.update.isSome, rcInProgress), (!commitOk s k n (p1 c 31 0), rcBadImage), (s.mramFenced, rcMramFault)]
      (let (s, ok) := mramStore s (imgTrailer k) (trailer (imgBody s k n) (commitSeq s)) mramOk
       if ok then answer (setUpd s 2) c rcSuccess else answer s c rcMramFault))

/-! ## FW_ACTIVATE (R384) -/

/-- The other slot holds a committed image newer than the one running (R362). -/
def newerImage (s : State) : Bool :=
  match imgSeq s (slotOther s) with
  | some n => decide ((imgSeq s (slotRunning s)).getD 0 < n)
  | none => false

/-- FW_ACTIVATE (R384): the pause begins. -/
def execFwActivate (c : Cmd) (s : State) : Out :=
  runCmd s c 0x0702 (fun s =>
    orFail s c [(s.update.isSome, rcInProgress), (!newerImage s, rcNoImage)]
      (let s := begin (setUpd (count s (cCmd 9) 1) 3) c
       { s with update := some { cmd := c, next := 7, failed := 0, slot := slotOther s == 1 } }))

/-- COREn_BOOT_VEC from the header of image slot `k` (R379). -/
def loadVec (s : State) (n k : Nat) : State := setF s (coreReg n 0) 31 1 (imgStart s k / 2)

/-- The core runs image slot `k` from its start address. -/
def coreOn (s : State) (n k : Nat) : State :=
  let s := loadVec s n k
  s.setCore n { Core.init with state := .running, reenPend := (s.core n).reenPend,
                               pc := BitVec.ofNat 64 (2 * fld s (coreReg n 0) 31 1) }

/-- The update ends: the new image runs, and command processing resumes. -/
def updateDone (s : State) (u : Update) : State :=
  let k := b2n u.slot
  let ver := imgVersion s k
  let s := setF (setF (setUpd s 0) fwStat 8 8 k) fwStat 31 16 ver
  reply { s with update := none } u.cmd rcSuccess (ver + u.failed.toNat * 2 ^ 32) []

/-- Core 7 failed its self-check: the old image runs on (R385). -/
def updateRollback (s : State) (u : Update) : State :=
  let s := coreOn s 7 (slotRunning s)
  answer (count (setUpd { s with update := none } 2) (cCmd 10) 1) u.cmd rcUpdateFailed

/-- The core takes part in the update: it is in no shutdown or latch-out. -/
def updatable (s : State) (n : Nat) : Bool := (s.core n).state ≠ .shutting && (s.core n).state ≠ .latchOut

/-- The sources of core 7 move to other cores before it restarts (R384). -/
def moveTargets (s : State) (n : CoreN) : State :=
  if n.val = 7 then retarget (s.setCore 7 { s.core 7 with state := .off }) 7 else s

/-- Core `n` has restarted, or failed to. -/
def coreUpdated (s : State) (u : Update) (n : CoreN) (pass : Bool) : State :=
  let ok := updatable s n
  let s := if ok then moveTargets s n else s
  if ok && !pass && n.val = 7 then updateRollback s u
  else
    let s := if !ok then s else if pass then coreOn s n (b2n u.slot)
      else fault (loadVec s n (b2n u.slot)) (.core n) 4 0 1
    let u := { u with failed := if ok && !pass then u.failed ||| BitVec.ofNat 8 (2 ^ n.val) else u.failed }
    if n.val = 0 then updateDone s u else { s with update := some { u with next := n.val - 1 } }

/-- FW_CORE_RESTART (R384, R385): core 7 first, then 6 to 0. -/
def execFwCoreRestart (n : CoreN) (pass : Bool) (s : State) : Out :=
  .next (match s.update with
    | some u => when (running s && u.next = n.val) s (coreUpdated s u n pass)
    | none => s)

/-! ## CORE_RESTART (R379) -/

/-- A write of COREn_CTRL: RESTART restarts a core that is started. -/
def wrCoreCtrl (s : State) (n : CoreN) (v : Reg32) : State :=
  if bit v.toNat 0 && (takesSources s n || (s.core n).state = .booting) then
    let s := coreStart s n
    if s.cmds.starting.any (fun x => x.1 = .core n) then s
    else { s with cmds := { s.cmds with starting := s.cmds.starting ++ [(.core n, false)] } }
  else s

/-- CORE_RESTART (R379): the written value carries RESTART. -/
def execCoreRestart (n : CoreN) (v : Reg32) (s : State) : Out :=
  .next (atReg s (coreReg n 4) (wrCoreCtrl s n (v ||| 1)))

end Sys2Proof.Machine
end

