-- ==== Sys2Proof/Machine/Resets.lean ====
section
/-! DEFINITION. The reset domains (R493, R494, R508), power-on reset (R495), warm reset (R496, R498), and the port logic
reset by itself (R499). -/

namespace Sys2Proof.Machine

open Sys2Proof

/-! ## Domains (R493) -/

/-- Registers that the Sentinel keeps, those of the IVR controllers and of the MRAM fault set: power-on reset only. -/
def keptReg (o : Nat) : Bool :=
  o == 0x10 || o == 0x28 || o == 0x30 || o == 0x40 || o == 0x48 || o == 0x4C
    || (decide (0x100000 ≤ o) && decide (o < 0x200000)) || (decide (0x2B90000 ≤ o) && decide (o < 0x2B90200))

/-- Registers of the counter store (R420). -/
def counterReg (o : Nat) : Bool := decide (0x2900000 ≤ o) && decide (o < 0x29FFE00)

/-- Registers of the port domains; their fault sets lie in the Hasp core domain (R508). -/
def portReg (o : Nat) : Bool :=
  decide (0x2600000 ≤ o) && decide (o < 0x2700000) && decide (o % 0x10000 < 0xFE00)

/-- What a reset of the Hasp core domain comes with. -/
structure ResetScope where
  /-- The port domains and the USB4 domain. -/
  strike : Bool
  /-- The counter store. -/
  counters : Bool
  deriving DecidableEq, Repr

/-- Registers that a reset returns to their reset values. -/
def resetReg (x : ResetScope) (o : Nat) : Bool :=
  !keptReg o && (x.counters || !counterReg o) && (x.strike || !(portReg o || usbReg o))

/-- A tumbler after a reset of its controller: what the leaf array holds stays (R493). -/
def tumReset (x : Tumbler) : Tumbler :=
  { Tumbler.init with
    sets := x.sets.map (fun e => (e.1, { RefSet.init with ptr := e.2.ptr, away := e.2.away }))
    hammer := x.hammer
    sre := x.sre
    sreSuspect := x.sreSuspect
    mode := { TMode.init with self := x.mode.self } }

/-- The fault sets of the Hasp core domain return to their reset values; BSEQ goes on (R508). -/
def fltReset (s : State) : State :=
  (fltSets s.part).foldl (fun s b =>
    match b with
    | .sen | .ivr _ | .mram => s
    | _ => s.setFlt b { FltS.init with bseq := (s.flt b).bseq }) s

/-- Ports after a reset of their domain: the generation advances (R499). -/
def portsReset (s : State) : State :=
  foldUpTo 16 (fun s p => s.setPort p { Port.init with gen := (s.port p).gen + 1 }) s

/-- The Hasp core domain and the cores are reset, with the domains of `x` (R493, R494). The shadows of the access paths
stay: R35 lets a warm or partial reset change none of its registers (log 128 for the other LO and HI pairs). -/
def haspReset (s : State) (x : ResetScope) : State :=
  let s := fltReset (resetRegs s (resetReg x))
  let s := foldUpTo 64 (fun s t => s.modTum t tumReset) s
  let s := if x.strike then
      { portsReset s with rings := [], usb := { s.usb with link := false, fenced := false } }
    else s
  let s := if x.counters then { s with counts := [], dump := Dump.init }
    else setF { s with dump := { s.dump with running := false, config := [], fenced := false, edges := [] } } (cntReg 0x10) 6 6 0
  { s with
    waiting := []
    live := []
    sweeps := []
    clears := []
    reinits := []
    engines := []
    scans := []
    ward := Ward.initAt s.now.toNat
    pair := Pair.init
    cmds := Cmds.init
    dmas := []
    cores := []
    sram := []
    update := none
    pulses := []
    shadows := []
    thermal := { Thermal.init with suspect := s.thermal.suspect }
    calib := Calib.init
    power := { s.power with
      haspUp := false
      storeUp := s.power.storeUp && !x.counters
      preserve := false
      groups := 0
      taking := false
      holdAsked := false
      drained := 0 } }

/-! ## Power-on reset (R495) -/

/-- GBL_RST_STAT.CAUSE. -/
def setCause (s : State) (c : Nat) : State := setF s 0x40 3 0 c

/-- Power-on reset with cause `c`: what lies outside every reset domain stays, and the contents are lost. -/
def powerOn (s : State) (c : Nat) : State :=
  let p := { Power.init with front := s.power.front, wrst := s.power.wrstLow, wrstLow := s.power.wrstLow }
  let t := { State.reset with
    part := s.part
    pending := s.pending
    free := s.free
    nextId := s.nextId
    mram := s.mram
    jtag := s.jtag
    logSeq := s.logSeq
    usb := { link := false, fenced := false, out := s.usb.out, bar0 := s.usb.bar0 }
    power := p }
  setCause (wr t 0x48 (rd s 0x48)) c

/-- No supply is left (R436, R452). -/
def powerOff (s : State) : State :=
  let s := powerOn s 0
  { s with power := { s.power with mode := .off, front := false } }

/-- PORST_N (R495): the module is held at the VSEN row, its timebase at 0, until the rail sequence goes on; without VIN
nothing is left to hold it. -/
def execPorstN (s : State) : Out :=
  .next (when (s.power.mode != .off) s
    (if s.power.front then
      let s := powerOn s 1
      { s with power := { s.power with porst := true } }
     else powerOff s))

/-! ## Warm reset (R496, R498) -/

/-- ALERT_N follows its condition (R402). -/
def alertNow (s : State) : State := setAlert s (alertCond s)

/-- WARM, saturating at 255 (R505). -/
def countWarm (s : State) : State := setF s 0x40 23 16 (min 255 (fld s 0x40 23 16 + 1))

/-- The boot is to start from its image-check row, with the cause that RETAIN gives (R496, R505). -/
def warmBoot (s : State) : State :=
  let s := setCause s (if s.power.retain then 3 else 2)
  let s := { s with power := { s.power with wrst := false } }
  if s.power.railRow = 7 ∧ s.power.mode = .on then
    setF { s with usb := { s.usb with link := true } } 0x44 3 0 1
  else s

/-- The warm reset takes effect; while WRST_N is low the domains stay in reset (R496). -/
def warmReset (s : State) : State :=
  let s := (allFins 16).foldl (fun (s : State) (p : PortN) => portReset s p .off) s
  let s := countWarm (haspReset s { strike := true, counters := false })
  let s := { s with power := { s.power with wrst := true, wrstHeld := false, fatal := false, frozen := 0 } }
  let s := alertNow s
  if s.power.wrstLow then s else warmBoot s

/-- REFLOSS is recorded while it holds outside Hold (R459, R485). -/
def evalRefLoss (s : State) : State :=
  if flag s 0x28 2 then if condHolds s .sen 4 then s else fault s .sen 4 0 1
  else condEnd s .sen 4

/-- Hold or retention is left by way of the rail sequence from the row of VMRAM (R453). -/
def leaveHold (s : State) : State :=
  let s := setF s (senReg 0) 7 7 0
  evalRefLoss { s with power := { s.power with mode := .on, railRow := 0 } }

/-- A warm reset ends Hold or retention once VIN supplies the module (R453). -/
def warmExit (s : State) : State := if s.power.front then warmReset (leaveHold s) else s

/-- The module is in a drain. -/
def draining (s : State) : Bool :=
  match s.power.mode with
  | .draining _ => true
  | _ => false

/-- Hold, or the retention that follows a drain without Hold. -/
def retaining (s : State) : Bool :=
  match s.power.mode with
  | .hold _ _ | .retained _ => true
  | _ => false

/-- WRST_N (R496, R498). -/
def execWrstN (s : State) : Out :=
  .next (when (s.power.mode != .off && !s.power.wrstLow) s
    (let s := { s with power := { s.power with wrstLow := true } }
     if s.power.porst then s
     else if draining s then { s with power := { s.power with wrstHeld := true } }
     else if retaining s then warmExit s
     else warmReset s))

/-- WRST_N_RISE (R496). -/
def execWrstNRise (s : State) : Out :=
  .next (when s.power.wrstLow s
    (let s := { s with power := { s.power with wrstLow := false } }
     if s.power.wrst then warmBoot s else s))

/-! ## Port logic reset (R499) -/

/-- PORT_LOGIC_RESET (R499): the port restarts from Detect where EN is 1. -/
def execPortLogicReset (p : PortN) (s : State) : Out :=
  .next (when (strikeLive s && (s.port p).link != .latchOut) s (fromOff (portReset s p .off) p))

end Sys2Proof.Machine
end

