-- ==== Sys2Proof/Machine/Power.lean ====
section
/-! DEFINITION. Inputs and rails (R436 to R441), brown-out, drain and commit (R446 to R449), Hold and retention (R451 to
R453), VIN_HIGH (R458), the reference clock (R34, R485) and the Quiet bits (R443, R475). -/

namespace Sys2Proof.Machine

open Sys2Proof

/-- The Sentinel is powered and out of reset. -/
def sentinelUp (s : State) : Bool := s.power.mode != .off && !s.power.porst

/-! ## Front stage (R436, R437) -/

/-- FRONT_STAGE_START (R440): from a cold start VSEN reaches its window with it. -/
def execFrontStageStart (s : State) : Out :=
  .next (let on := { s with power := { s.power with front := true } }
         if s.power.mode = .off then powerOn on 0 else on)

/-- FRONT_STAGE_STOP (R436): Hold goes on from HOLD_VIN; every other state loses its supply. -/
def execFrontStageStop (s : State) : Out :=
  .next (match s.power.mode with
    | .hold c _ => { s with power := { s.power with mode := .hold c true, front := false } }
    | _ => powerOff s)

/-! ## Rail sequence (R440) -/

/-- Rails of row `n`, from the row of VMRAM and VSTRIKE on. -/
def railRowOf (n : Nat) : List Nat := [[7, 5], [6], [3], [2], [1], [4], [0]].getD n []

/-- A rail comes up: its set-point in force is its TARGET. -/
def railUp (s : State) (r : Nat) : State :=
  let o := senReg (0x100 + 4 * r)
  if bit s.power.railsOn.toNat r then s
  else
    let s := setF s o 27 16 (fld s o 11 0)
    { s with power := { s.power with railsOn := s.power.railsOn ||| BitVec.ofNat 8 (2 ^ r) } }

/-- Every rail is in its window: power-good, and the Strike logic leaves reset (R440, R501). -/
def railsComplete (s : State) : State :=
  let s := setF s (senReg 0) 7 7 1
  { s with power := { s.power with strikeUp := true } }

/-- The next row of rails comes up. -/
def railStep (s : State) : State :=
  let n := s.power.railRow
  let s := (railRowOf n).foldl railUp { s with power := { s.power with porst := false, railRow := n + 1 } }
  if n = 6 then railsComplete s else s

/-- The rail sequence goes on: supplied, and for the row of VMRAM with the reference stable (R485). -/
def railReady (s : State) : Bool :=
  s.power.mode = .on && s.power.front && decide (s.power.railRow < 7)
    && (decide (0 < s.power.railRow) || !flag s 0x28 2)

/-- RAIL_SEQUENCE_STEP (R440). -/
def execRailSequenceStep (s : State) : Out := .next (when (railReady s) s (railStep s))

/-! ## Set-points (R438, R439) -/

/-- One step of at most 2 mV from `a` toward `b`. -/
def rampTo (a b : Nat) : Nat := if a < b then min b (a + 2) else max b (a - 2)

/-- IVR_RAMP_STEP (R439). -/
def execIvrRampStep (r : Fin 8) (s : State) : Out :=
  let o := senReg (0x100 + 4 * r)
  .next (when (bit s.power.railsOn.toNat r) s (setF s o 27 16 (rampTo (fld s o 27 16) (fld s o 11 0))))

/-- A write of SEN_IVR_SET: a TARGET outside the window, or of a rail whose controller is frozen, is rejected (R438, R459). -/
def wrTarget (s : State) (r : Nat) (v : Reg32) : State :=
  let mv := bits v.toNat 11 0
  let bad := decide (mv < railLow r) || decide (railHigh r < mv) || railFrozen s r
  putReg s (senReg (0x100 + 4 * r)) v (if bad then mask 11 0 else 0)

/-- SEN_IVR_TARGET_WRITE (R439). -/
def execSenIvrTargetWrite (r : Fin 8) (v : Reg32) (s : State) : Out :=
  .next (atReg s (senReg (0x100 + 4 * r)) (wrTarget s r v))

/-! ## Quiet bits (R443, R475) -/

/-- A write of a SEN_QUIET register: a tumbler whose bit is cleared leaves self-refresh at once. -/
def wrQuiet (s : State) (w : Nat) (v : Reg32) : State := quietWake (putReg s (senReg (0x20 + 4 * w)) v 0)

/-- QUIET_BIT_WRITE (R443). -/
def execQuietBitWrite (w : Fin 3) (v : Reg32) (s : State) : Out :=
  .next (atReg s (senReg (0x20 + 4 * w)) (wrQuiet s w v))

/-! ## HOLD_VIN (R451, R459) -/

/-- HOLD_LOW holds while HOLD_EN is 1 and HOLD_OK is 0. -/
def holdLow (s : State) : Bool := flag s (senReg 8) 8 && !flag s (senReg 0) 5

/-- HOLD_LOW begins or ends. -/
def evalHoldLow (s : State) : State :=
  if holdLow s then if condHolds s .sen 3 then s else fault s .sen 3 0 1
  else condEnd s .sen 3

/-- HOLD_OK_CHANGE (R451). -/
def execHoldOkChange (ok : Bool) (s : State) : Out :=
  .next (when (sentinelUp s) s (evalHoldLow (setF s (senReg 0) 5 5 (b2n ok))))

/-! ## Brown-out and VIN_HIGH (R446, R447, R458) -/

/-- The slope test is in use (R446). -/
def slopeOn (s : State) : Bool := fld s (senReg 8) 3 0 != 0

/-- What the detection itself leaves: the trip, the stamp, the count, the IBI and BROWN_OUT (R446, R474, R488). -/
def brownOutSeen (s : State) (slope : Bool) : State :=
  let s := setF s (senReg 0xC) (b2n slope) (b2n slope) 1
  let s := wr s (senReg 0x10) (s.now.setWidth 32)
  let s := wr s (senReg 0x14) ((s.now >>> 32).setWidth 32)
  fault (ibi (count s (cSen 0) 1) 0xA2 1) .sen 1 0 1

/-- BROWN_OUT (R446, R447); in Hold or retention VIN no longer matters. -/
def execBrownOut (slope : Bool) (s : State) : Out :=
  .next (when (sentinelUp s && !retaining s && (!slope || slopeOn s)) s
    (let s := brownOutSeen s slope
     if s.power.mode = .on then beginDrain s .brownOut else s))

/-- VIN_HIGH (R458): recorded at severity 3, whose reaction is the drain. -/
def execVinHigh (s : State) : Out := .next (when (sentinelUp s) s (fault s .sen 2 0 1))

/-! ## Drain and commit (R447, R448) -/

/-- Tumbler `t` ends its drain: accesses still queued are not performed, and its slices enter self-refresh. -/
def drainEnd (s : State) (t : Tum) : State :=
  let s := setQ s t (fun _ => TQueue.init)
  let m := (s.tum t).mode
  let s := if m.self || m.state = .offline || m.state = .latchOut then s else selfEntry s t
  { s with power := { s.power with drained := s.power.drained ||| BitVec.ofNat 64 (2 ^ t.val) } }

/-- DRAIN_COMPLETE (R447, R401). -/
def execDrainComplete (t : Tum) (s : State) : Out :=
  .next (when ((draining s || s.power.fatal) && haspLive s && noWrites s t) s (drainEnd s t))

/-- The power record of R466. -/
def powerRecord (s : State) (cause : Nat) : List Byte :=
  leBytes 8 cause ++ leBytes 8 s.power.stopAt.toNat ++ leBytes 8 (rd s (pairReg 0)).toNat
    ++ leBytes 8 (mirrorMask s) ++ List.replicate 32 0

/-- The MRAM writes of the commit, in order (R448). -/
def commitWrites (s : State) (c : DrainCause) (recorded : Bool) : State :=
  let s := flushTail (commitDiverged s true)
  if recorded then
    let (f, s) := fresh s
    mramPut s 0xB50000 (powerRecord s (DrainCause_code c (f.toNat % 2 ^ 32)))
  else s

/-- Every tumbler that is not in latch-out has been online since the last boot (R497). -/
def allOnceOnline (s : State) : Bool :=
  (List.range 64).all (fun t => (s.tum t).mode.everOnline || tstate s t = .latchOut)

/-- The drain is followed by Hold (R445, R447). -/
def entersHold (s : State) (c : DrainCause) : Bool :=
  c = .powerState || (c != .thermalTrip && flag s (senReg 8) 8 && flag s (senReg 0) 5)

/-- The rails of Hold stay: VLEAF and VPP; after a thermal trip only VHASP, VPASS and VBUS go off (R447, R458). -/
def railsOff (s : State) (c : DrainCause) : State :=
  let s := haspReset s { strike := c != .thermalTrip, counters := true }
  let p := s.power
  { s with power := { p with
      railRow := 0
      railsOn := p.railsOn &&& (if c = .thermalTrip then 0xE6 else 0x06)
      strikeUp := p.strikeUp && c = .thermalTrip } }

/-- The commit of a drain ends: RETAIN is latched and the rails go off (R447, R497). -/
def commitDone (s : State) (c : DrainCause) : State :=
  let recorded := !s.power.fatal || c = .thermalTrip
  let retain := recorded && allOnceOnline s
  let s := setF (commitWrites s c recorded) (senReg 0) 6 6 0
  let hold := entersHold s c
  let s := railsOff s c
  let s := { s with power := { s.power with retain := retain, mode := if hold then .hold c false else .retained c } }
  let s := if hold then ibi (setF s (senReg 0) 7 7 0) 0xA3 1 else s
  if s.power.wrstHeld then warmExit s else s

/-- Every tumbler has ended its drain. -/
def drainOver (s : State) : Bool := s.power.drained == BitVec.allOnes 64

/-- MRAM_COMMIT_DONE (R447, R448); in a Fatal stop the log tail alone is committed (R401). -/
def execMramCommitDone (s : State) : Out :=
  .next (match s.power.mode with
    | .draining c => when (haspLive s && drainOver s) s (commitDone s c)
    | _ => when (haspLive s && s.power.fatal && drainOver s) s (flushTail s))

/-! ## Leaving Hold and retention (R449, R452, R453) -/

/-- Hold or retention ends with cause `c`: the rails come up. -/
def resume (s : State) (c : Nat) : State := setCause (leaveHold s) c

/-- A brown-out drain has ended, and no Fatal stop keeps the module stopped. -/
def afterBrownOut (s : State) : Bool :=
  !s.power.fatal && (match s.power.mode with
    | .hold .brownOut _ | .retained .brownOut => true
    | _ => false)

/-- VIN_RECOVERY (R449). -/
def execVinRecovery (s : State) : Out :=
  .next (when (afterBrownOut s && s.power.front) s (resume (setF s (senReg 0xC) 2 2 1) 5))

/-- HOLD_EXIT_VIN (R453): VIN has been below 7 V during a Hold entered by POWER_STATE. -/
def execHoldExitVin (s : State) : Out :=
  .next (when (s.power.mode = .hold .powerState true && s.power.front && !s.power.fatal) s (resume s 4))

/-- HOLD_VIN_LOW (R452). -/
def execHoldVinLow (s : State) : Out :=
  .next (match s.power.mode with
    | .hold _ _ => { s with power := { s.power with retain := false } }
    | _ => s)

/-! ## Reference clock (R34, R485) -/

/-- The reference is lost: the oscillator drives the count (R34); a Hasp out of reset sees the event. -/
def refLost (s : State) : State :=
  let s := setF s 0x28 2 1 3
  let s := if bit s.power.railsOn.toNat 0 then count s (cSen 4) 1 else s
  let s := if haspLive s then raise s 0x289 0 else s
  if retaining s then s else evalRefLoss s

/-- REFCLK_LOSS (R34). -/
def execRefclkLoss (s : State) : Out := .next (when (sentinelUp s && !flag s 0x28 2) s (refLost s))

/-- REFCLK_RETURN (R34): FREERUN stays set. -/
def execRefclkReturn (s : State) : Out :=
  .next (when (sentinelUp s && flag s 0x28 2) s (evalRefLoss (setF s 0x28 2 2 0)))

end Sys2Proof.Machine
end

