-- ==== Sys2Proof/Machine/Boot.lean ====
section
/-! DEFINITION. Bring-up: the boot stages (R501), the store checks and loads (R453, R466 to R468), the tumbler groups (R502,
R503) and the ports (R504). -/

namespace Sys2Proof.Machine

open Sys2Proof

/-- GBL_BOOT_STAT.STAGE (R506). -/
def stage (s : State) : Nat := fld s 0x44 3 0
def setStage (s : State) (n : Nat) : State := setF s 0x44 3 0 n

/-! ## Image check (R467, R501) -/

/-- SEQ of the leaf-record slots of tumbler `t`. -/
def leafSeq (s : State) (t k : Nat) : Option Nat := slotSeq s (0xB40000 + 128 * t + 64 * k) 64

/-- Slots found invalid: of images, of calibration sets, and leaf-record pairs without a valid slot (log 62). -/
def badSlots (s : State) : Nat :=
  ((List.range 2).filter (fun k => (imgSeq s k).isNone)).length
    + ((List.range 2).filter (fun k => (calSeq s k).isNone)).length
    + ((List.range 64).filter (fun t => (leafSeq s t 0).isNone && (leafSeq s t 1).isNone)).length

/-- Conditions that outlast the reset of their fault set are recorded again (R457, R508). -/
def againSuspect (s : State) : State :=
  s.thermal.suspect.foldl (fun s l => fault s (.leaf (Fin.ofNat 34 l)) 1 0 1) s

/-- The stores are checked (R501). -/
def checkStores (s : State) : State :=
  let one := (imgSeq s 0).isSome != (imgSeq s 1).isSome
  let s := setF (setF s 0x44 8 8 (b2n one)) 0x44 9 9 (b2n (bestCal s).isNone)
  let n := badSlots s
  let s := if n = 0 then s else fault s .sen 5 0 n
  setStage s 2

/-! ## Store load (R453, R466, R501) -/

/-- Leaf map and roles of tumbler `t` from its newest valid leaf record; reset values where it has none. -/
def loadLeaf (s : State) (t : Nat) : State :=
  match newestSlot (leafSeq s t 0) (leafSeq s t 1) with
  | none => s
  | some k =>
    let b := cellGet s.mram (0xB40000 + 128 * t + 64 * k) 56
    let map := fun n => (b.getD n 0).toNat % 64
    let roles := leNat ((b.drop 32).take 24)
    let s := foldUpTo s.part.activeLeaves (fun s n => wr s (tumReg t (0x200 + 4 * n)) (BitVec.ofNat 32 (map n))) s
    foldUpTo s.part.leaves (fun s l =>
      let role := roles / 4 ^ l % 4
      let held := ((List.range s.part.activeLeaves).find? (fun n => map n == l)).getD 0
      wr s (lfReg l (0x100 + 4 * t)) (BitVec.ofNat 32 (role + if role = 0 then 8 * held else 0))) s

/-- Remap entry `i` from its record; a word of 0 is no record. An entry of a retired slice, which a power failure after the
switch point of its swap left, is freed: step 6 of R162 is finished (R164). -/
def loadRemap (s : State) (i : Nat) : State :=
  let w := mramWord s (0xB00000 + 8 * i)
  if w = 0 then s
  else if roleOf s (bits w 37 32) (bits w 24 19) = 3 then mramPut s (0xB00000 + 8 * i) (leBytes 8 0)
  else wr (wr s (rmpLo i) (BitVec.ofNat 32 w)) (rmpHi i) (BitVec.ofNat 32 (w / 2 ^ 32))

/-- Sets the restored fields of region `r`. -/
def putRegion (s : State) (r epoch sweep mode home : Nat) : State :=
  let eff := if home = 0 then r % 2 else home - 1
  wr s (rgnReg r) (BitVec.ofNat 32 (epoch + 4 * sweep + 32 * home + 256 * mode + 1024 * eff))

/-- The region record's CRC-8 is right. -/
def recordOk (w : Nat) : Bool := recCrc w == bits w 63 56

def regionWord (s : State) (r : Nat) : Nat := mramWord s (0xA80000 + 8 * r)

/-- Region `r` restores as (0b00, 0b11) in the 256-byte mode: its record fails, or that of a region of a group with a
tumbler-local region does (R466). -/
def restoresAnew (s : State) (r : Nat) : Bool :=
  let g := (List.range 64).map (fun i => regionWord s (64 * (r / 64) + i))
  !recordOk (regionWord s r)
    || (g.any (fun w => !recordOk w) && g.any (fun w => recordOk w && bits w 21 20 == 2))

/-- The region table from MRAM, with the DIVERGED bits where the module is in a pair. -/
def loadRegions (s : State) (paired : Bool) : State :=
  foldUpTo s.part.regions (fun s r =>
    let w := regionWord s r
    let s := if restoresAnew s r then putRegion s r 0 3 0 0
      else putRegion s r (bits w 17 16) (bits w 19 18) (bits w 21 20) (bits w 23 22)
    if paired && bit (mramWord s (0xB42000 + 8 * (r / 64))) (r % 64) then setF s (rgnReg r) 7 7 1 else s) s

/-- Interrupted sweeps restart from their start, and regions restored as (0b00, 0b11) are to be rewritten (R453). -/
def restartSweeps (s : State) : State :=
  let s := foldUpTo s.part.regions (fun s r =>
    if rgnSweep s r = 1 ∨ rgnSweep s r = 2 then oweSweeps s r else s) s
  foldUpTo (s.part.regions / 64) (fun s g =>
    let l := ((List.range 64).map (64 * g + ·)).filter (fun r => rgnSweep s r == 3)
    if l.isEmpty then s
    else { s with reinits := s.reinits ++ [{ group := g, regions := l, before := [], boot := true }] }) s

/-- PAIR_CFG and the mirror roles from the power record; the pair engine starts in Solo (R453, R504). -/
def loadPair (s : State) : State :=
  let m := mramWord s 0xB50018 % 65536
  if m = 0 then s
  else
    let s := wr s (pairReg 0) (BitVec.ofNat 32 (mramWord s 0xB50010))
    let s := setF s (pairReg 8) 15 0 m
    let s := foldUpTo 16 (fun s p => if bit m p then setF s (fpReg p 0x8004) 1 0 1 else s) s
    { s with pair := { s.pair with state := .solo } }

/-- The preserved boot: region table, sweeps, pair, and RETAINED (R453). -/
def loadPreserved (s : State) : State :=
  let s := loadPair s
  setF (restartSweeps (loadRegions s (s.pair.state = .solo))) (senReg 0) 4 4 1

/-- Cores 0 to 7 start from image slot `k`; without a valid image, from an address that the spec does not give (log 60). -/
def startCores (s : State) : State :=
  let s := match bootImage s with
    | some k =>
      let s := setF (setF s fwStat 8 8 k) fwStat 31 16 (imgVersion s k)
      foldUpTo 8 (fun s n => loadVec s n k) s
    | none =>
      let (f, s) := fresh s
      let s := setF (setF s fwStat 8 8 (f.toNat % 2)) fwStat 31 16 (f.toNat / 2)
      foldUpTo 8 (fun s n => setF s (coreReg n 0) 31 1 (f.toNat / 2 ^ 17)) s
  foldUpTo 8 coreStart s

/-- The Hasp core domain is out of reset: its registers are reached from now on (R44, R501). -/
def haspOn (s : State) : State := { s with power := { s.power with haspUp := true, storeUp := true } }

/-- The store load, the end of the reset of the Hasp core domain, and the start of the cores. -/
def loadStores (s : State) : State :=
  let s := { s with power := { s.power with preserve := s.power.retain } }
  let s := match bestCal s with
    | some k => (loadCal s k).1
    | none => s
  let s := foldUpTo 32768 loadRemap (foldUpTo 64 loadLeaf s)
  let s := if s.power.preserve then loadPreserved s else setF s (senReg 0) 4 4 0
  setStage (startCores (againSuspect (haspOn s))) 3

/-! ## Tumblers (R502) -/

/-- A tumbler's delay sets as training finds them: free values (log 63). -/
def trainSets (s : State) (t : Nat) : State :=
  foldUpTo 3 (fun s r => foldUpTo 336 (fun s w =>
    let (f, s) := fresh s
    setF s (dskReg t r w) 5 0 f.toNat) s) s

/-- Read centring and write levelling on every fitted leaf at rate `r` (log 63). -/
def trainLevels (s : State) (t r : Nat) : State :=
  let o := tumReg t 0x108
  let s := setF (setF (setF s o 1 1 1) o 17 16 r) o 15 8 64
  let s := count s (cTum t 15) (2 * s.part.leaves)
  let s := foldUpTo s.part.leaves (fun s l => count s (cLeaf l 7) 128) s
  let s := foldUpTo s.part.leaves (fun s l =>
    let (f, s) := fresh s
    wr s (lvlReg t r l) (BitVec.ofNat 32 (f.toNat &&& 0x3F3F))) s
  foldUpTo 336 (fun s w =>
    let (f, s) := fresh s
    wr s (tumReg t (0x400 + 4 * w)) (BitVec.ofNat 32 (f.toNat &&& 0x33F3F))) s

/-- The rate is changed to `r` (R88). -/
def bringRate (s : State) (t r : Nat) : State :=
  let s := if rateOf s t = r then s else count s (cTum t 14) 1
  setF (setF s (tumReg t 8) 3 2 r) (tumReg t 8) 1 0 r

/-- The rate that the bring-up of `t` ends at, none where no rate is valid: the 6.4 Gb/s set of the calibration, or the
highest rate that full training validates, which is a free value (log 63). -/
def bringTrain (s : State) (t : Nat) : State × Option Nat :=
  if flag s (tumReg t 8) 8 then (s, some 0)
  else
    let (f, s) := fresh s
    let m := f.toNat % 8
    let s := count (setF (trainSets s t) (tumReg t 8) 10 8 m) (cTum t 15) (3 * (2 + 2 * s.part.leaves))
    (s, (List.range 3).find? (bit m))

/-- A tumbler that no rate serves records a fault, whose class the spec does not give, and is in latch-out, its slices in
self-refresh (R112, R502, R503, log 61). -/
def bringFails (s : State) (t : Tum) : State :=
  let (f, s) := fresh s
  let s := openShadow (recordQuiet s (.tum t) ([2, 3, 5, 6, 7].getD (f.toNat % 5) 2) 0 1) (.tum t) false
  let s := if (s.tum t).mode.self then s else selfEntry s t
  releaseRegions (setMode s t (fun m => { m with state := .latchOut }))

/-- The last step of bring_up: self-refresh exit and online, or the initial sweep. -/
def bringOnline (s : State) (t : Nat) : State :=
  let s := if (s.tum t).mode.self then leaveSelf s t else restartRefresh s t
  if s.power.preserve then setMode s t (fun m => { m with state := .online, everOnline := true })
  else setMode s t (fun m => { m with state := .initSweep, sweepPtr := 0, reinitPoison := false, cleared := [] })

/-- bring_up of R502 for one tumbler. -/
def bringUp (s : State) (t : Tum) : State :=
  match bringTrain s t with
  | (s, none) => bringFails s t
  | (s, some r) => bringOnline (loadSet (trainLevels (bringRate s t r) t r) t r) t

/-- The tumblers of group `g` are brought up; one that is not offline has been already. -/
def groupStart (s : State) (g : Nat) : State :=
  let s := { s with power := { s.power with groups := s.power.groups ||| BitVec.ofNat 4 (2 ^ g) } }
  ((allFins 64).filter (fun t => t.val / 16 == g)).foldl (fun (s : State) (t : Tum) =>
    if tstate s t = .offline then bringUp s t else s) s

/-- TUMBLER_GROUP_START (R502): group g starts after group g − 1; group 0 starts with stage 0x4 (R501). -/
def execTumblerGroupStart (g : Fin 4) (s : State) : Out :=
  .next (when (running s && stage s = 4 && decide (0 < g.val) && bit s.power.groups.toNat (g.val - 1)
      && !bit s.power.groups.toNat g.val) s
    (groupStart s g))

/-! ## Stages (R501) -/

/-- Firmware takes commands, enables every port and starts group 0 (R501, R504). -/
def firmwareUp (s : State) : State :=
  let s := foldUpTo 8 (fun s n =>
    if (s.core n).state = .booting then s.setCore n { s.core n with state := .running } else s) s
  let s := { s with power := { s.power with taking := true } }
  let s := foldUpTo 16 (fun s p => fromOff (setF s (fpReg p 0x8000) 0 0 1) p) s
  groupStart (setStage s 4) 0

/-- Every tumbler is online or in latch-out, and every region is usable. -/
def bootOver (s : State) : Bool :=
  s.power.groups == 15 && (List.range 64).all (fun t => tstate s t != .offline && tstate s t != .initSweep)
    && (List.range s.part.regions).all (fun r => rgnSweep s r != 3)

/-- The boot ends: DONE is set, and RETAIN is cleared (R497, R501). -/
def bootDone (s : State) : State :=
  let s := setF (setStage s 5) 0x44 31 31 1
  { s with power := { s.power with retain := false } }

/-- The stage that is in progress completes. -/
def nextStage (s : State) : State :=
  match stage s with
  | 0 => setStage { s with usb := { s.usb with link := true } } 1
  | 1 => checkStores s
  | 2 => loadStores s
  | 3 => firmwareUp s
  | 4 => if bootOver s then bootDone s else s
  | _ => s

/-- The boot may go on: supplied, every rail up, no reset and no Fatal stop. -/
def booting (s : State) : Bool :=
  s.power.mode = .on && s.power.railRow = 7 && !s.power.wrst && !s.power.porst && !s.power.fatal

/-- BOOT_STAGE (R501). -/
def execBootStage (s : State) : Out := .next (when (booting s) s (nextStage s))

end Sys2Proof.Machine
end

