-- ==== Sys2Proof/Machine/ThermalRows.lean ====
section
/-! DEFINITION. The thermal evaluation (R454 to R460, R108, R109, R123) and refresh by the leaves themselves (R121). -/

namespace Sys2Proof.Machine

open Sys2Proof

/-! ## Sensors (R460) -/

/-- A sensor after an evaluation that reads `x`. -/
def sensed (now : Nat) (x : Option Rat) (y : Sens) : Sens :=
  let missed := if x.isNone then y.missed + 1 else 0
  let jump := match x, y.prev with
    | some v, some p => decide (10 < v - p) || decide (10 < p - v)
    | _, _ => false
  let bad := decide (4 ≤ missed) || x.any (fun v => decide (v < -40) || decide (150 < v)) || jump
  let ok := if bad then none else some (y.okSince.getD now)
  { reading := x.getD y.reading, failed := bad || (y.failed && !ok.any (fun a => decide (a + 6250 ≤ now))),
    missed := missed, okSince := ok, prev := x }

/-- A reading under a trim record. -/
def underTrim (raw : Option Int) (v : Nat) : Option Rat :=
  raw.map (fun r => trimmed r (sx8 (bits v 7 0)) (sx8 (bits v 15 8)))

def sensOf (z : Zone) : Sens :=
  { reading := z.sensor, failed := z.failed, missed := z.missed, okSince := z.okSince, prev := z.prev }

def withSens (z : Zone) (y : Sens) : Zone :=
  { z with sensor := y.reading, failed := y.failed, missed := y.missed, okSince := y.okSince, prev := y.prev }

/-- Step 1 of R455: every new reading. -/
def takeReadings (s : State) (i : ThermIn) : State :=
  let n := s.now.toNat
  let th := s.thermal
  let zones := foldUpTo (16 * s.part.leaves) (fun m k =>
    let z := tget noZone m k
    tput noZone m k (withSens z (sensed n (underTrim (i.leaf.getD k none) (trimInForce s k)) (sensOf z)))) th.zones
  let hasp := foldUpTo 64 (fun m k =>
    tput noSens m k (sensed n (underTrim (i.hasp.getD k none) (trimInForce s (544 + k))) (tget noSens m k))) th.hasp
  let strike := foldUpTo 16 (fun m k =>
    tput noSens m k (sensed n (underTrim (i.strike.getD k none) (trimInForce s (608 + k))) (tget noSens m k))) th.strike
  let s := { s with thermal := { th with zones := zones, hasp := hasp, strike := strike } }
  let s := wr s (senReg 4) (i.holdMv ++ i.vinMv)
  foldUpTo 8 (fun s r =>
    let e := i.ivr.getD r (0, 0)
    wr s (senReg (0x180 + 4 * r)) (e.1 ++ (0 : BitVec 4) ++ e.2)) s

/-- Greatest of a list of temperatures. -/
def maxTemp (l : List Rat) : Option Rat :=
  l.foldl (fun m v => match m with
    | none => some v
    | some w => some (if w < v then v else w)) none

/-- Sensors `i` and `j` of a grid `w` wide are adjacent (R454). -/
def adjacent (w i j : Nat) : Bool :=
  (i / w == j / w && (i + 1 == j || j + 1 == i)) || (i % w == j % w && (i + w == j || j + w == i))

/-- Reading of sensor `i` of a die, or what R460 puts in its place. -/
def dieReading (x : Tab Sens) (n w die i : Nat) : Rat :=
  let at' := tget noSens x
  if !(at' i).failed then (at' i).reading
  else
    let good := (List.range n).filter (fun j => !(at' j).failed)
    match maxTemp ((good.filter (adjacent w i)).map (fun j => (at' j).reading)) with
    | some v => v + 3
    | none =>
      match maxTemp (good.map (fun j => (at' j).reading)) with
      | some v => v + 3
      | none => Config.dieTemp die

def haspTemp (s : State) (i : Nat) : Rat := dieReading s.thermal.hasp 64 8 0 i
def strikeTemp (s : State) (i : Nat) : Rat := dieReading s.thermal.strike 16 2 1 i

/-! ## Model (R456) -/

/-- Neighbours of leaf `l` that the model uses. -/
def modelNeighbours (s : State) (l z : Nat) : List Rat :=
  (((if l = 0 then [] else [l - 1]) ++ [l + 1]).filter (fun k => decide (k < s.part.leaves)
    && !s.thermal.suspect.contains k && !(s.zone k z).failed)).map (fun k => (s.zone k z).used)

/-- RTH and TAU of a zone. -/
def rthAt (s : State) (i : Nat) : Rat := ((tget noCoef s.calib.rth i).map Config.rthOf).getD (Config.defaultRth i)
def tauAt (s : State) (i : Nat) : Rat := ((tget noCoef s.calib.tau i).map Config.tauOf).getD (Config.defaultTau i)

/-- One step of the model for zone `z` of leaf `l`, on the state before the evaluation's model step. -/
def modelStep (s : State) (cur : List (BitVec 16)) (l z : Nat) : Rat :=
  let k := 16 * l + z
  let th := (haspTemp s (4 * z) + haspTemp s (4 * z + 1) + haspTemp s (4 * z + 2) + haspTemp s (4 * z + 3)) / 4
  let ts := strikeTemp s z
  let lin := ts + (th - ts) * ((l : Rat) + 1) / ((s.part.leaves : Rat) + 1)
  let nb := modelNeighbours s l z
  let base := if nb.isEmpty || !s.thermal.started then lin
    else (lin + nb.foldl (· + ·) 0 / (nb.length : Rat)) / 2
  let p := Config.zonePower k (tget zero s.thermal.acts k) (tget zero s.thermal.refs k) (tget zero s.thermal.nrrs k) cur
  let m := if s.thermal.started then (s.zone l z).model else Config.modelStart k
  m + (base + rthAt s k * p - m) * (256 / 100) / tauAt s k

/-- Step 2 of R455: the model of every fitted zone. -/
def stepModel (s : State) (cur : List (BitVec 16)) : State :=
  let zones := if s.thermal.stopped then s.thermal.zones
    else foldUpTo (16 * s.part.leaves) (fun m k =>
      tput noZone m k { s.zone (k / 16) (k % 16) with model := modelStep s cur (k / 16) (k % 16) }) s.thermal.zones
  { s with thermal := { s.thermal with zones := zones, started := true, acts := [], refs := [], nrrs := [] } }

/-! ## Suspect leaves and used temperatures (R457, R459) -/

/-- Some zone of the leaf reads more than 6 °C below its model. -/
def readsLow (s : State) (l : Nat) : Bool :=
  (List.range 16).any (fun z => !(s.zone l z).failed && decide ((s.zone l z).sensor < (s.zone l z).model - 6))

/-- The leaf's count of such evaluations; the 16th flags it. -/
def stepSuspect (s : State) (l : LeafN) : State :=
  let n := if readsLow s l then tget zero s.thermal.below l.val + 1 else 0
  let s := { s with thermal := { s.thermal with below := tput zero s.thermal.below l.val n } }
  if 16 ≤ n && !s.thermal.suspect.contains l.val then
    fault (count { s with thermal := { s.thermal with suspect := s.thermal.suspect ++ [l.val] } } (cLeaf l 5) 1)
      (.leaf l) 1 0 1
  else s

/-- A zone's run of readings more than 6 °C above its model. -/
def aboveStep (z : Zone) : Zone :=
  if z.failed then { z with above := 0 }
  else if z.model + 6 < z.sensor then { z with above := min 16 (z.above + 1), modelLow := z.modelLow || decide (16 ≤ z.above + 1) }
  else if z.model - 6 ≤ z.sensor then { z with above := 0, modelLow := false }
  else { z with above := 0 }

/-- MODEL_LOW (R457): zones whose run has just reached 16 evaluations. -/
def stepModelLow (s : State) : State :=
  let k := 16 * s.part.leaves
  let hits := ((List.range k).filter (fun i =>
    let z := tget noZone s.thermal.zones i
    !z.modelLow && (aboveStep z).modelLow)).length
  let zones := foldUpTo k (fun m i => tput noZone m i (aboveStep (tget noZone m i))) s.thermal.zones
  let s := { s with thermal := { s.thermal with zones := zones } }
  if hits = 0 then s else fault s .thm 5 0 hits

/-- SENSOR_FAIL of a leaf (R459, R460). -/
def stepFail (s : State) (l : LeafN) : State :=
  let bad := (List.range 16).any (fun z => (s.zone l z).failed)
  if bad && !condHolds s (.leaf l) 2 then fault s (.leaf l) 2 0 1
  else if !bad && condHolds s (.leaf l) 2 then condEnd s (.leaf l) 2
  else s

/-- Used temperature of a zone (R457), or of R459 with the model stopped. -/
def usedTemp (s : State) (l z : Nat) : Rat :=
  let x := s.zone l z
  if s.thermal.stopped then
    if x.failed then
      match maxTemp (((List.range 16).filter (fun k => k != z && !(s.zone l k).failed)).map (fun k => (s.zone l k).sensor + 6)) with
      | some v => v + 6
      | none => 110
    else x.sensor + 6
  else if x.failed then x.model + 6
  else if s.thermal.suspect.contains l then if x.sensor < x.model then x.model else x.sensor
  else x.sensor

/-- Step 3 of R455. -/
def formUsed (s : State) : State :=
  let s := (allFins 34).foldl (fun (s : State) (l : LeafN) => if l.val < s.part.leaves then stepFail s l else s) s
  let s := if s.thermal.stopped then s
    else stepModelLow ((allFins 34).foldl (fun (s : State) (l : LeafN) => if l.val < s.part.leaves then stepSuspect s l else s) s)
  { s with thermal := { s.thermal with
      zones := foldUpTo (16 * s.part.leaves) (fun m k =>
        tput noZone m k { s.zone (k / 16) (k % 16) with used := usedTemp s (k / 16) (k % 16) }) s.thermal.zones } }

/-! ## Bands (R108, R109, R123) -/

/-- Band that a temperature lies in (R108). -/
def bandFor (t : Rat) : Nat := if t ≤ 85 then 0 else if t ≤ 95 then 1 else if t ≤ 105 then 2 else 3

/-- Lower boundary of a band. -/
def bandFloor (b : Nat) : Rat := if b = 1 then 85 else if b = 2 then 95 else 105

/-- The zone lies 3 °C below the band it is in. -/
def bandLow (b : Nat) (t : Rat) : Bool := b != 0 && decide (t ≤ bandFloor b - 3)

/-- Band of a zone after an evaluation at tick `now` (R109). -/
def bandStep (now : Nat) (z : Zone) : Zone :=
  let b := z.band.toNat
  let n := bandFor z.used
  if b < n then { z with band := BitVec.ofNat 2 n, lowSince := none }
  else if !bandLow b z.used then { z with lowSince := none }
  else
    let since := z.lowSince.getD now
    if since + 6250 ≤ now then
      { z with band := BitVec.ofNat 2 (b - 1), lowSince := if bandLow (b - 1) z.used then some now else none }
    else { z with lowSince := some since }

/-- The controller sends a band rise to slices in self-refresh (R121). -/
def sendBand (s : State) (l z b : Nat) : State :=
  foldUpTo 4 (fun s i =>
    let t := 4 * z + i
    if (s.tum t).mode.self then
      let x := tget noLeaf s.leaves l
      let c := tget zero x.selfBand t
      { s with leaves := tput noLeaf s.leaves l { x with
          sent := tput zero x.sent t (BitVec.ofNat 2 b)
          selfBand := tput zero x.selfBand t (if c.toNat < b then BitVec.ofNat 2 b else c) } }
    else s) s

/-- A band change: event 0x28A, its count, IBI 0xA4, and the excess of a rise; a fall may end a payment (R116, R117, R455,
R488). -/
def bandChanged (s : State) (l z old new : Nat) : State :=
  let s := raise s 0x28A (l + z * 2 ^ 6 + old * 2 ^ 10 + new * 2 ^ 12)
  let s := ibi (count s (cSen (if old < new then 1 else 2)) 1) 0xA4 2
  if old < new then foldUpTo 4 (fun s i => checkExcess s (4 * z + i)) (sendBand s l z new)
  else foldUpTo 4 (fun s i => endExcess s (4 * z + i)) s

/-- Step 4 of R455 for one zone. -/
def stepZone (s : State) (k : Nat) : State :=
  let x := s.zone (k / 16) (k % 16)
  let y := bandStep s.now.toNat x
  let s := { s with thermal := { s.thermal with zones := tput noZone s.thermal.zones k y } }
  if x.band = y.band then s else bandChanged s (k / 16) (k % 16) x.band.toNat y.band.toNat

/-- A zone over the tumbler is in the emergency band. -/
def zoneEmergency (s : State) (t : Nat) : Bool :=
  (List.range s.part.leaves).any (fun l => (s.zone l (t / 4)).band = 3)

/-- The emergency of a tumbler begins or ends (R123); what came to a gated tumbler meanwhile wakes it then. -/
def stepEmergency (s : State) (t : Tum) : State :=
  let e := zoneEmergency s t
  if e && !(s.tum t).mode.emergency then
    let s := setMode s t (fun m => { m with emergency := true })
    if condHolds s (.tum t) 4 then s else fault s (.tum t) 4 0 1
  else if !e && (s.tum t).mode.emergency then
    let s := setMode s t (fun m => { m with emergency := false })
    condEnd (if (s.tum t).q.queue.isEmpty then s else wakeFor s t) (.tum t) 4
  else s

/-- Step 4 of R455. -/
def stepBands (s : State) : State :=
  (allFins 64).foldl (fun (s : State) (t : Tum) => stepEmergency s t) (foldUpTo (16 * s.part.leaves) stepZone s)

/-! ## Thresholds (R458) -/

/-- A hot condition of the thermal block: class `c`, set at `hi`, ended after 1 ms below `lo`. Answers the state and
the tick since which every sensor is cool. -/
def hotStep (s : State) (c : Nat) (l : List Rat) (hi lo : Rat) (since : Option Nat) : State × Option Nat :=
  let cool := if l.all (fun v => decide (v < lo)) then some (since.getD s.now.toNat) else none
  let s := if l.any (fun v => decide (hi ≤ v)) && !condHolds s .thm c then fault s .thm c 0 1
    else if condHolds s .thm c && cool.any (fun a => decide (a + 6250 ≤ s.now.toNat)) then condEnd s .thm c
    else s
  (s, cool)

/-- A trip of class `c`. -/
def tripStep (s : State) (c : Nat) (l : List Rat) (hi : Rat) : State :=
  if !s.power.fatal && l.any (fun v => decide (hi ≤ v)) then fault s .thm c 0 1 else s

/-- Step 5 of R455. -/
def stepThresholds (s : State) : State :=
  let h := (List.range 64).map (haspTemp s)
  let k := (List.range 16).map (strikeTemp s)
  let (s, a) := hotStep s 1 h 105 102 s.thermal.haspCool
  let (s, b) := hotStep s 3 k 110 107 s.thermal.strikeCool
  let s := { s with thermal := { s.thermal with haspCool := a, strikeCool := b } }
  tripStep (tripStep s 2 h 110) 4 k 120

/-- The evaluation of R455. -/
def evaluate (s : State) (i : ThermIn) : State :=
  stepThresholds (stepBands (formUsed (stepModel (takeReadings s i) (i.ivr.map (·.1)))))

/-- THERMAL_EVALUATION (R455). -/
def execThermalEvaluation (i : ThermIn) (s : State) : Out := .next (when (haspLive s) s (evaluate s i))

/-! ## Refresh by the leaves (R121) -/

/-- Tumbler `t`'s slice of leaf `l` chooses its band from its sensor and guard, and refreshes for one base interval, at ×4 where
it chooses the emergency band, for which R108 gives no rate (log 121). Its refreshes clear old hammer counts (R124). -/
def sliceSelf (s : State) (l t : Nat) (temp : Rat) : State :=
  let x := tget noLeaf s.leaves l
  let g : Nat := tget zero x.guard t
  let own := max (tget zero x.sent t).toNat (bandFor (temp + (g : Rat)))
  let b := if (s.tum t).sreSuspect.contains l then max 2 own else own
  let s := if (tget zero x.selfBand t).toNat < b then count s (cLeaf l 4) 1 else s
  let s := { s with leaves := tput noLeaf s.leaves l { x with selfBand := tput zero x.selfBand t (BitVec.ofNat 2 b) } }
  let n := [1, 2, 4, 4].getD b 4
  foldUpTo 4 (fun s k =>
    let y := setOf s t l k
    putSet (refreshRows s t l k (y.ptr + y.away) n) t l k { y with away := y.away + n }) s

/-- LEAF_SELF_REFRESH (R121). -/
def execLeafSelfRefresh (l : LeafN) (z : Fin 16) (temp : Int) (s : State) : Out :=
  if s.part.leaves ≤ l.val then .fault .leafNotFitted
  else .next (foldUpTo 4 (fun (u : State) i =>
    let t := 4 * z.val + i
    if (u.tum t).mode.self && (u.tum t).sre.contains l.val then
      sliceSelf u l t ((temp : Rat) / 4)
    else u) s)

end Sys2Proof.Machine
end

