-- ==== Sys2Proof/Machine/CsrRead.lean ====
section
/-! DEFINITION. What a register reads as: stored bits, and the fields that show a state held elsewhere. -/

namespace Sys2Proof.Machine

open Sys2Proof

/-! ## Fault sets (R419) -/

/-- A register of fault set `b` at offset `o` in the set. -/
def readFlt (s : State) (b : FltSet) (o : Nat) : Nat :=
  let f := s.flt b
  if o = 0 then
    let v := fld s (fltBase b) 23 0
    v + maxSev s b * 2 ^ 24 + b2n (v != 0) * 2 ^ 27
  else if o = 0x14 then f.hist.length + f.next.toNat * 16
  else if 0x100 ≤ o then
    match f.hist.find? (fun e => e.1 = (o - 0x100) / 0x20) with
    | some e => leNat (((entryBytes e.2).drop ((o - 0x100) % 0x20)).take 4)
    | none => 0
  else (rd s (fltBase b + o)).toNat

/-! ## Thermal window (R477 to R479) -/

/-- The 10-bit code of a temperature; one that is no multiple of 0.25 °C is rounded as a free value says (log 16). -/
def tempCode (t : Rat) : Nat :=
  let x := (t + 64) * 4
  let f := x.floor
  let n := if (f : Rat) = x then f else if Config.tempRoundsUp t then f + 1 else f
  min 1023 n.toNat

/-- Greatest code of a list of temperatures, 0 for none. -/
def codeMax (l : List Rat) : Nat := l.foldl (fun m t => max m (tempCode t)) 0

/-- Readings of the sensors of a die that have not failed. -/
def dieReadings (m : Tab Sens) (n : Nat) : List Rat :=
  (List.range n).filterMap (fun k => let y := tget noSens m k; if y.failed then none else some y.reading)

/-- The zones of leaf `l`. -/
def leafZones (s : State) (l : Nat) : List Zone := (List.range 16).map (s.zone l)

def suspect (s : State) (l : Nat) : Bool := s.thermal.suspect.contains l

/-- THM_LEAF_MODEL. -/
def readLeafModel (s : State) (l : Nat) : Nat :=
  let z := leafZones s l
  let used := codeMax (z.map (·.used))
  let k := ((List.range 16).find? (fun i => tempCode (s.zone l i).used == used)).getD 0
  b2n (suspect s l) * 2 ^ 31 + b2n (z.any (·.failed)) * 2 ^ 30 + codeMax (z.map (·.model)) * 2 ^ 20 + used * 2 ^ 10 + k

/-- THM_ZONE_T. -/
def readZoneT (s : State) (l z : Nat) : Nat :=
  let x := s.zone l z
  tempCode x.model * 2 ^ 20 + (if x.failed then 0 else tempCode x.sensor) * 2 ^ 10 + tempCode x.used

/-- THM_ZONE_ST. -/
def readZoneSt (s : State) (l z : Nat) : Nat :=
  b2n (s.zone l z).failed * 8 + b2n (suspect s l) * 4 + (s.zone l z).band.toNat

/-- THM_HASP and THM_STRIKE. -/
def readSens (y : Sens) : Nat := if y.failed then 1024 else tempCode y.reading

/-- THM_STAT. -/
def readThmStat (s : State) : Nat :=
  codeMax ((List.range (16 * s.part.leaves)).map (fun k => (tget noZone s.thermal.zones k).used)) * 2 ^ 20
    + codeMax (dieReadings s.thermal.strike 16) * 2 ^ 10 + codeMax (dieReadings s.thermal.hasp 64)

/-- The thermal window; before the first evaluation the temperatures read 0. -/
def readThm (s : State) (o : Nat) : Nat :=
  let on := s.thermal.started
  if 0x400 ≤ o ∧ o < 0x1000 then
    let l := (o - 0x400) / 4
    if on then readLeafModel s l else b2n (suspect s l) * 2 ^ 31
  else if 0x1000 ≤ o ∧ o < 0x3000 then
    let l := (o - 0x1000) / 0x80
    let z := (o - 0x1000) % 0x80 / 8
    if o % 8 = 4 then readZoneSt s l z else if on then readZoneT s l z else 0
  else if !on then 0
  else if o = 0 then readThmStat s
  else if o < 0x3100 then readSens (tget noSens s.thermal.hasp ((o - 0x3000) / 4))
  else readSens (tget noSens s.thermal.strike ((o - 0x3100) / 4))

/-! ## Event controller (R413 to R417) -/

def readEvc (s : State) (off : Nat) : Nat :=
  let o := off - 0x400000
  let n := (o - 0x10000) / 0x20
  if o = 0xC then (s.cmds.subs.filter (fun e => e.2.isSome)).length
  else if 0x30000 ≤ o then
    match tget noSub s.cmds.subs ((o - 0x30000) / 4) with
    | some x => 2 ^ 31 + x.port.toNat * 2 ^ 24 + x.initiator.toNat * 2 ^ 12 + x.source.toNat
    | none => 0
  else if 0x10000 ≤ o ∧ (o - 0x10000) % 0x20 = 4 ∧ (srcKind s.part n).1 = .level then
    setBits (rd s off).toNat 2 2 (b2n (sourceLevel s n))
  else (rd s off).toNat

/-! ## Tumblers (R98, R133, R137, R168) -/

def readTum (s : State) (t o : Nat) : Nat :=
  let x := s.tum t
  if o = 0x0C then
    b2n x.mode.reenPend * 2 ^ 24 + x.q.slots.length * 2 ^ 14 + x.q.queue.length * 2 ^ 4 + TState_code x.mode.state
  else if o = 0x24 then
    let band := ((List.range s.part.leaves).filter (refreshed s t)).foldl (fun m l => max m (bandOf s t l)) 0
    b2n x.mode.self * 16 + b2n x.mode.paying * 4 + band
  else if o = 0x48 then setBits (rd s (tumReg t o)).toNat 10 4 x.cwc.length
  else if 0x4000 ≤ o then
    let l := (o - 0x4000) / 16
    let y := setOf s t l ((o - 0x4000) % 16 / 4)
    b2n (refreshed s t l && (x.mode.self || x.mode.state != .offline)) * 2 ^ 31 + y.ptr * 2 ^ 4 + (if x.mode.self then 0 else y.debt)
  else (rd s (tumReg t o)).toNat

/-! ## Scan engines (R199 to R202) -/

/-- The scans that engine `e` works on, and those that wait for it. -/
def engActive (s : State) (e : Nat) : List Nat := (scansIn s e).take (fld s (scnReg e 0) 2 0)
def engWaiting (s : State) (e : Nat) : List Nat := (scansIn s e).drop (fld s (scnReg e 0) 2 0)

/-- A scan that engine `e` works on is held by R191, by its full buffer or by its tumbler (R200). -/
def scanHeld (s : State) (e k : Nat) : Bool :=
  match s.scan k with
  | some x => scanFull s x || (nextLine s x e).all (fun n => !orderedOk s x n || !lineOpOk s e)
  | none => true

/-- STATE of an engine. -/
def engCode (s : State) (e : Nat) : Nat :=
  match (s.eng e).state with
  | .shutting => 3
  | .latchOut => 4
  | _ =>
    let l := engActive s e
    if l.isEmpty then (if flag s (scnReg e 0) 8 then 0 else 5) else if l.all (scanHeld s e) then 2 else 1

/-- Column lines of a scan that engine `e` has still to read. -/
def linesLeft (s : State) (x : Scan) (e : Nat) : Nat :=
  match nextLine s x e with
  | none => 0
  | some n => ((List.range (colLast x + 1 - n)).filter (fun i => (lineOf s (64 * (n + i))).1 == e)).length

/-- SCNnn_SLOT. -/
def readSlot (s : State) (e k : Nat) : Nat :=
  match s.scan k with
  | none => 0
  | some x =>
    if !scanNeeds x e then 0
    else if (tget (fun _ => EngProg.init) x.engines e).done || x.phase != .running then 3 * 2 ^ 30
    else (if (engActive s e).contains k then 2 else 1) * 2 ^ 30 + linesLeft s x e

def readScn (s : State) (e o : Nat) : Nat :=
  if o = 4 then
    b2n (s.eng e).reenPend * 2 ^ 19 + engCode s e * 2 ^ 16 + (engWaiting s e).length * 2 ^ 4 + (engActive s e).length
  else if 0x400 ≤ o then readSlot s e ((o - 0x400) / 4)
  else (rd s (scnReg e o)).toNat

/-! ## Ports (R310 to R316) -/

def readPort (s : State) (p o : Nat) : Nat :=
  let x := s.port p
  if o = 0x8008 then b2n x.reenPend * 2 ^ 24 + x.phy.fails * 2 ^ 16 + LinkState_code x.link
  else if o = 0x8014 then x.rxLast.toNat * 2 ^ 20 + x.txAcked.toNat * 2 ^ 10 + x.txNext.toNat
  else if 0x8018 ≤ o ∧ o < 0x8024 then
    let k := (o - 0x8018) / 4
    (tget zero x.limit k).toNat * 2 ^ 16 + creditLeft s p k
  else if o = 0x802C then x.urgTx.toNat * 2 ^ 26 + min 512 x.cmpBuf.length * 2 ^ 16 + reqWait s p
  else (rd s (fpReg p o)).toNat

/-! ## Other blocks -/

/-- Tumblers online (R506). -/
def onlineCount (s : State) : Nat :=
  ((List.range 64).filter (fun t =>
    let m := tstate s t
    m = .online || m = .light || m = .quiet || m = .busy)).length

/-- RMP_STAT (R157). -/
def readRmp (s : State) : Nat :=
  let l := remapValid s
  (l.filter (fun i => rmpState s i == 2)).length * 2 ^ 16 + l.length

/-- CNT_LIVE (R435). -/
def readLive (s : State) (o : Nat) : Nat :=
  let n := (tget zero s.counts ((o - 0x10000) / 8)).toNat
  if (o - 0x10000) / 8 < 16 then 0 else if o % 8 = 0 then n % 2 ^ 32 else n / 2 ^ 32

/-- The pair window (R351 to R354). -/
def readPair (s : State) (o : Nat) : Nat :=
  let x := s.pair
  let sync := x.state = .resyncSource || x.state = .resyncTarget
  if o = 0xC then
    x.pgen.toNat * 2 ^ 24 + PairState_code x.state * 2 ^ 21
      + ((List.range s.part.regions).filter (rgnDiverged s)).length
  else if o = 0x10 then b2n sync * 2 ^ 31 + x.pending.length
  else if o = 0x14 then x.fwds.length * 2 ^ 16 + x.held.length
  else (rd s (pairReg o)).toNat

/-- The offset lies in the MRAM aperture (R386). -/
def inAperture (off : Nat) : Bool := decide (0x2C00000 ≤ off) && decide (off < 0x3000000)

/-- What a defined register shows. -/
def shown (s : State) (off : Nat) : Nat :=
  match fltAt s.part off with
  | some (b, o) => readFlt s b o
  | none =>
    if off = 0x20 then s.now.toNat % 2 ^ 32
    else if off = 0x24 then s.now.toNat / 2 ^ 32
    else if off = 0x44 then setBits (rd s off).toNat 22 16 (onlineCount s)
    else if 0x200000 ≤ off ∧ off < 0x400000 then readThm s (off - 0x200000)
    else if 0x400000 ≤ off ∧ off < 0x800000 then readEvc s off
    else if 0x800100 ≤ off ∧ off < 0x800140 then
      if carries s ((off - 0x800100) / 4) then (rd s off).toNat else 0
    else if 0x2000000 ≤ off ∧ off < 0x2400000 then readTum s ((off - 0x2000000) / 0x10000) (off % 0x10000)
    else if 0x2400000 ≤ off ∧ off < 0x2500000 then readScn s ((off - 0x2400000) / 0x4000) (off % 0x4000)
    else if 0x2600000 ≤ off ∧ off < 0x2700000 then readPort s ((off - 0x2600000) / 0x10000) (off % 0x10000)
    else if off = 0x2840000 then readRmp s
    else if 0x2910000 ≤ off ∧ off < 0x2A00000 then readLive s (off - 0x2900000)
    else if 0x2A00000 ≤ off ∧ off < 0x2B00000 then readPair s (off - 0x2A00000)
    else if 0x2B00000 ≤ off ∧ off < 0x2B80000 ∧ off % 0x10000 = 8 then
      let c := s.core ((off - 0x2B00000) / 0x10000)
      b2n c.reenPend * 2 ^ 8 + CState_code c.state
    else (rd s off).toNat

/-! ## Pairs that latch (R35) -/

/-- HI register that a read of a LO register latches. -/
def hiOf (s : State) (off : Nat) : Option Nat :=
  if off = 0x20 ∨ off = senReg 0x10 then some (off + 4)
  else if inArr (evcSrc 0 0x10) 0x20 4096 off ∨ inArr (flwReg 1 6) 32 262143 off ∨ inArr (fpReg 0 0x580) 0x10000 16 off
      ∨ off = cntReg 8 ∨ inArr (cntReg 0x10000) 8 18432 off then
    if (regDef s.part off).isSome then some (off + 4) else none
  else none

def noShadow : Nat → Option Reg32 := fun _ => none
def shadowKey (path off : Nat) : Nat := 2 ^ 26 * path + off

/-- Latches the HI half for a path. -/
def latchHi (s : State) (path off : Nat) : State :=
  match hiOf s off with
  | some h => { s with shadow := tput noShadow s.shadow (shadowKey path h) (some (BitVec.ofNat 32 (shown s h))) }
  | none => s

/-- What a path reads: the latched half where it has one. -/
def shownOn (s : State) (path off : Nat) : Reg32 :=
  (tget noShadow s.shadow (shadowKey path off)).getD (BitVec.ofNat 32 (shown s off))

/-! ## Reads on a path (R11, R12, R16, R44) -/

/-- Status of an access to offset `off`, aligned or not. -/
def accessStatus (s : State) (off : Nat) : BitVec 16 :=
  if off % 4 != 0 then rcBadAlign
  else if inAperture off then (if haspLive s then rcSuccess else rcUnitInReset)
  else regStatus s off

/-- RC bits of a register are cleared by a read (R12). -/
def clearRc (s : State) (off : Nat) : State :=
  match regDef s.part off with
  | some d => if d.rc = 0 then s else wr s off (BitVec.ofNat 32 ((rd s off).toNat &&& (allBits ^^^ d.rc)))
  | none => s

/-- Four bytes of the MRAM page that the aperture shows. -/
def apertureWord (s : State) (off : Nat) : Reg32 :=
  BitVec.ofNat 32 (mramU32 s (fld s mramPage 1 0 * 0x400000 + (off - 0x2C00000)))

/-- A failing access of a core or of BAR0 is latched, the first one since VALID was cleared; a core records it (R371,
R376, R386, R398). -/
def latchFail (s : State) (path : Nat) (st : BitVec 16) : State :=
  if 8 < path ∨ st = rcSuccess ∨ flag s (accStat path) 31 = true then s
  else
    let s := wr s (accStat path) (BitVec.ofNat 32 (2 ^ 31 + st.toNat))
    if path < 8 then fault s (.core (Fin.ofNat 8 path)) 5 0 1 else s

/-- A read of one register on a path: the state after it, the value and the status. -/
def readCsr (s : State) (path off : Nat) : State × Reg32 × BitVec 16 :=
  let st := accessStatus s off
  if st != rcSuccess then (latchFail s path st, 0, st)
  else if inAperture off then (s, apertureWord s off, st)
  else if (regDef s.part off).isNone then (s, 0, st)
  else (clearRc (latchHi s path off) off, shownOn s path off, st)

/-- A read of one register on a path, whose value the path receives. -/
def readOne (s : State) (path off : Nat) : State :=
  let (s, v, _) := readCsr s path off
  { s with readOut := tput zero s.readOut path v }

/-- TIME_LO_READ (R35). -/
def execTimeLoRead (path : Path) (s : State) : Out := .next (when (sentinelUp s) s (readOne s path.val 0x20))

/-- READ_CLEAR (R12). -/
def execReadClear (path : Path) (off : BitVec 26) (s : State) : Out :=
  .next (when (sentinelUp s) s (readOne s path.val off.toNat))

end Sys2Proof.Machine
end

