-- ==== Sys2Proof/Machine/Pattern.lean ====
section
/-! DEFINITION. Pattern generators and checkers of a Fellor port in test mode (R257, R258, R272 to R274). A flit time at ×16
is 32 UI of every lane (log 141). -/

namespace Sys2Proof.Machine

open Sys2Proof

/-! ## Pseudo-random patterns (R258) -/

/-- Exponents a and b of the polynomial x^a + x^b + 1 of a PATTERN code. -/
def prbsTaps (pat : Nat) : Nat × Nat :=
  if pat = 0 then (7, 6) else if pat = 1 then (15, 14) else if pat = 2 then (23, 18) else (31, 28)

/-- The next bit of the sequence whose last bits stand in `r`, the newest at bit 0 (as R286 runs its scrambler). -/
def prbsBit (pat r : Nat) : Bool := bit r ((prbsTaps pat).1 - 1) != bit r ((prbsTaps pat).2 - 1)

/-- A bit enters a register of `n` bits. -/
def shiftIn (n r : Nat) (b : Bool) : Nat := (2 * r) % 2 ^ n + b2n b

/-- The register one bit earlier. -/
def prbsBack (pat r : Nat) : Nat :=
  let (a, b) := prbsTaps pat
  r / 2 + b2n (bit r 0 != bit r b) * 2 ^ (a - 1)

/-- The 128-bit user pattern (R273). -/
def userPattern (s : State) (p : Nat) : Nat :=
  foldUpTo 4 (fun n i => n + (rd s (fpReg p (0x510 + 4 * i))).toNat * 2 ^ (32 * i)) 0

def patternOf (s : State) (p : Nat) : Nat := fld s (fpReg p 0x500) 2 0

/-! ## Generators -/

/-- Start of lane `l`'s generator: all ones, or the first pattern bit, delayed by 64 × l bits. -/
def genStart (pat l : Nat) : Nat :=
  if pat = 4 then (64 * l) % 128
  else foldUpTo (64 * l) (fun r _ => prbsBack pat r) (2 ^ (prbsTaps pat).1 - 1)

/-- The next bit of a generator, and the generator after it; for the user pattern it is the place of the next bit. -/
def genBit (pat user g : Nat) : Bool × Nat :=
  if pat = 4 then (bit user g, (g + 1) % 128)
  else (prbsBit pat g, shiftIn (prbsTaps pat).1 g (prbsBit pat g))

/-- `n` bits of a generator, the first at bit 0 of the answer. -/
def genRun (pat user : Nat) : Nat → Nat → Nat × Nat
  | 0, g => (0, g)
  | n + 1, g =>
    let (b, g) := genBit pat user g
    let (m, g) := genRun pat user n g
    (b2n b + 2 * m, g)

/-- Generators and checkers run. -/
def patternRuns (s : State) (p : Nat) : Bool := (s.port p).link = .test && flag s (fpReg p 0x500) 8

/-- Generators start, and checkers start their search. -/
def startPatterns (s : State) (p : Nat) : State :=
  let pat := patternOf s p
  let s := wr s (fpReg p 0x540) 0
  setPhy s p (fun x => { x with
    gens := foldUpTo 16 (fun m l => tput zero m l (genStart pat l)) []
    chks := [] })

/-- Bit u of lane l at place 16 × u + l, as in a flit at ×16 (R284). -/
def spread (l m : Nat) : Nat := foldUpTo 32 (fun a u => a + b2n (bit m u) * 2 ^ (16 * u + l)) 0

/-- Bits of lane `l` out of a flit time at ×16. -/
def gather (l f : Nat) : Nat := foldUpTo 32 (fun a u => a + b2n (bit f (16 * u + l)) * 2 ^ u) 0

/-- What the lanes driven by generators send in one flit time. -/
def patternBits (s : State) (p : Nat) : Nat :=
  let pat := patternOf s p
  let user := userPattern s p
  foldUpTo 16 (fun a l =>
    if txLive s p l then a + spread l (genRun pat user 32 (tget zero (s.port p).phy.gens l)).1 else a) 0

/-- Every generator moves on by 32 bits. -/
def moveGens (s : State) (p : Nat) : State :=
  let pat := patternOf s p
  let user := userPattern s p
  setPhy s p (fun x => { x with
    gens := foldUpTo 16 (fun m l => tput zero m l (genRun pat user 32 (tget zero x.gens l)).2) [] })

/-! ## Checkers -/

/-- Bits that a search takes before it predicts, and bits in a row that bring it into sync. -/
def searchNeeds (pat : Nat) : Nat × Nat := if pat = 4 then (256, 0) else ((prbsTaps pat).1, 64)

/-- The last 256 bits are twice some rotation of the user pattern. -/
def isRotation (user r : Nat) : Bool :=
  let lo := r % 2 ^ 128
  r / 2 ^ 128 == lo && (List.range 128).any (fun k => (lo / 2 ^ k + lo % 2 ^ k * 2 ^ (128 - k)) == user)

/-- The bit that a loaded search expects. For the user pattern the register holds the pattern from the next bit on. -/
def expects (pat : Nat) (x : Search) : Bool := if pat = 4 then bit x.reg 0 else prbsBit pat x.reg

/-- A loaded search moves on by one bit of its own prediction. -/
def predicted (pat : Nat) (x : Search) : Nat :=
  if pat = 4 then x.reg / 2 + b2n (bit x.reg 0) * 2 ^ 127 else shiftIn (prbsTaps pat).1 x.reg (expects pat x)

/-- A search still loads. -/
def loading (pat : Nat) (x : Search) : Bool := decide (x.seen < (searchNeeds pat).1)

/-- A bit enters a search that loads: into the register of a pseudo-random pattern, or into the last 256 bits, oldest at
bit 0, of which a rotation of the user pattern is looked for. -/
def loadBit (pat user : Nat) (x : Search) (b : Bool) : Search :=
  if pat ≠ 4 then { x with seen := x.seen + 1, reg := shiftIn (prbsTaps pat).1 x.reg b }
  else
    let r := x.reg / 2 + b2n b * 2 ^ 255
    if 255 ≤ x.run ∧ isRotation user r then { seen := 256, reg := r % 2 ^ 128, run := 0, hist := 0 }
    else { x with reg := r, run := x.run + 1 }

/-- A loaded search compares a bit; 16 mismatches among 64 bits start it anew. -/
def compareBit (pat : Nat) (x : Search) (b : Bool) : Search :=
  let bad := expects pat x != b
  let h := (x.hist <<< 1) ||| (if bad then 1 else 0)
  if 16 ≤ popNat 64 h.toNat then Search.init
  else { x with reg := predicted pat x, run := if bad then 0 else x.run + 1, hist := h }

/-- A bit enters a search. -/
def searchBit (pat user : Nat) (x : Search) (b : Bool) : Search :=
  if loading pat x then loadBit pat user x b else compareBit pat x b

/-- A search has found its pattern. -/
def found (pat : Nat) (x : Search) : Bool := !loading pat x && decide ((searchNeeds pat).2 ≤ x.run)

/-- A checker out of sync takes a bit: both searches go on, and the first to find its pattern is in sync. -/
def seekBit (pat user : Nat) (c : Checker) (b : Bool) : Checker :=
  let d := searchBit pat user c.direct b
  let i := searchBit pat user c.inverse (!b)
  let sync := if found pat d then some false else if found pat i then some true else none
  { sync := sync
    direct := if sync.isSome then { d with hist := 0 } else d
    inverse := if sync.isSome then { i with hist := 0 } else i }

/-- A checker takes a bit: the checker after it, and whether the bit was checked and whether it mismatched. -/
def checkBit (pat user : Nat) (c : Checker) (b : Bool) : Checker × Bool × Bool :=
  match c.sync with
  | none => (seekBit pat user c b, false, false)
  | some inv =>
    let x := if inv then c.inverse else c.direct
    let b := b != inv
    let bad := expects pat x != b
    let y := compareBit pat x b
    let c := if y = Search.init then Checker.init
      else if inv then { c with inverse := y } else { c with direct := y }
    (c, true, bad)

/-- `n` bits of a checker: the checker, a mask of the UI checked, and the mismatches. -/
def checkRun (pat user m : Nat) : Nat → Nat → Checker → Checker × Nat × Nat
  | 0, _, c => (c, 0, 0)
  | n + 1, u, c =>
    let (c, k, bad) := checkBit pat user c (bit m u)
    let (c, ks, bads) := checkRun pat user m n (u + 1) c
    (c, ks + b2n k * 2 ^ u, bads + b2n bad)

def noCheck : Nat → Checker := fun _ => Checker.init

/-- PC_BITS grows by `n` UI. -/
def addBits (s : State) (p n : Nat) : State :=
  let v := fld s (fpReg p 0x584) 15 0 * 2 ^ 32 + (rd s (fpReg p 0x580)).toNat + n
  wr (wr s (fpReg p 0x580) (BitVec.ofNat 32 v)) (fpReg p 0x584) (BitVec.ofNat 32 (bits v 47 32))

/-- PC_ERR of lane `l` grows by `n` mismatches, and saturates. -/
def addErrors (s : State) (p l n : Nat) : State :=
  let o := fpReg p (0x600 + 4 * l)
  if n = 0 then s else wr s o (BitVec.ofNat 32 (min 0xFFFFFFFF ((rd s o).toNat + n)))

/-- SYNC and INV of lane `l` (R274). -/
def showSync (s : State) (p l : Nat) (c : Checker) : State :=
  setF (setF s (fpReg p 0x540) l l (b2n c.sync.isSome)) (fpReg p 0x540) (16 + l) (16 + l) (b2n (c.sync == some true))

/-- Lane `l` of a flit time in test mode, and the UI checked so far. -/
def checkLane (f : Nat) (p : Nat) (u : State × Nat) (l : Nat) : State × Nat :=
  let s := u.1
  if !bit (fld s (fpReg p 0x504) 31 16) l then u
  else
    let (c, k, bad) := checkRun (patternOf s p) (userPattern s p) (gather l f) 32 0 (tget noCheck (s.port p).phy.chks l)
    let s := setPhy s p (fun x => { x with chks := tput noCheck x.chks l c })
    (showSync (addErrors s p l bad) p l c, u.2 ||| k)

/-- A flit time of bits reaches the checkers; a UI that any lane in sync checked is counted once (log 141). -/
def checkPatterns (s : State) (p f : Nat) : State :=
  let u := foldUpTo 16 (checkLane f p) (s, 0)
  addBits u.1 p (popNat 32 u.2)

/-- Checkers of lanes that CHK leaves out are not in sync. -/
def dropCheckers (s : State) (p : Nat) : State :=
  let chk := if patternRuns s p then fld s (fpReg p 0x504) 31 16 else 0
  foldUpTo 16 (fun s l =>
    if bit chk l then s
    else showSync (setPhy s p (fun x => { x with chks := tput noCheck x.chks l Checker.init })) p l Checker.init) s

end Sys2Proof.Machine
end

