-- ==== Sys2Proof/Machine/LaneRows.lean ====
section
/-! DEFINITION. Adaptation, equaliser, eye scans, test mode and injection of a Fellor port (R236 to R243, R257 to R275). -/

namespace Sys2Proof.Machine

open Sys2Proof

/-! ## Equaliser (R237, R267) -/

def eqStat (p l : Nat) : Nat := fpReg p (0x200 + 4 * l)
def eqCode (s : State) (p l : Nat) : Nat := fld s (eqStat p l) 4 0
def noTarget : Nat → Option (BitVec 5) := fun _ => none
def eqHold (s : State) (p l : Nat) : Bool := flag s (fpReg p (0x280 + 4 * l)) 8

/-- Code that the data path moves to, where it moves (R237, R267). -/
def eqGoal (s : State) (p l : Nat) : Option Nat :=
  if eqHold s p l then some (fld s (fpReg p (0x280 + 4 * l)) 4 0)
  else (tget noTarget (s.port p).phy.eqTarget l).map (·.toNat)

/-- One code toward the target (R237). -/
def eqMove (s : State) (p l : Nat) : State :=
  let c := eqCode s p l
  match eqGoal s p l with
  | none => s
  | some g =>
    if g = c then s
    else count (setF s (eqStat p l) 4 0 (if c < g then c + 1 else c - 1)) (cPort p 12) 1

/-- EQ_CODE_MOVE (R237). -/
def execEqCodeMove (p : PortN) (l : LaneN) (s : State) : Out := .next (when (strikeLive s) s (eqMove s p l))

/-- A scan that waits for the monitor path of lane `l` starts (R240). -/
def startWaiting (s : State) (p l : Nat) : State :=
  if (s.port p).phy.adapting && (s.port p).phy.es.any (fun e => bits e.2.toNat 3 0 == l) then
    setF s (fpReg p 0x404) 4 4 0
  else s

/-- A write of FPpp_EQ_OVR abandons a running step for the lane (R242, R267), whose measurement ends (R240). In test mode the
codes stay those of EQ_DEF where there is no override (R257). -/
def wrEqOvr (s : State) (p : PortN) (l : Nat) (v : Reg32) : State :=
  let s := startWaiting (wrReg s (fpReg p (0x280 + 4 * l)) v 0) p l
  let test := (s.port p).link = .test
  setPhy s p (fun x => { x with
    adaptSkip := if x.adapting then x.adaptSkip ||| BitVec.ofNat 16 (2 ^ l) else x.adaptSkip
    eqTarget := if test then x.eqTarget else tput noTarget x.eqTarget l none })

/-- EQ_OVR_WRITE (R267). -/
def execEqOvrWrite (p : PortN) (l : LaneN) (v : Reg32) (s : State) : Out :=
  .next (atReg s (fpReg p (0x280 + 4 * l.val)) (wrEqOvr s p l v))

/-! ## Adaptation (R240 to R243) -/

/-- A firmware scan holds the monitor path of lane `l` (R240). -/
def scanHolds (s : State) (p l : Nat) : Bool :=
  flag s (fpReg p 0x404) 0 && !flag s (fpReg p 0x404) 4 && (s.port p).phy.es.any (fun e => bits e.2.toNat 3 0 == l)

/-- A step acts on lane `l` (R241, R242). -/
def adapts (s : State) (p l : Nat) : Bool :=
  bit (rxLanes s p) l && !eqHold s p l && !scanHolds s p l && !bit (s.port p).phy.adaptSkip.toNat l

/-- The code that R242 chooses: `a0`, `a1`, `a2` are the areas of c − 1, c and c + 1. -/
def adaptCode (c hyst a0 a1 a2 : Nat) : Nat × Nat :=
  let x := (c, a1)
  let x := if 0 < c ∧ a1 + hyst ≤ a0 ∧ x.2 < a0 then (c - 1, a0) else x
  if c < 31 ∧ a1 + hyst ≤ a2 ∧ x.2 < a2 then (c + 1, a2) else x

/-- One lane of a step (R242, R243): areas, midpoint of the error-free run, fewest transitions in a window. -/
def adaptLane (s : State) (p l : Nat) (m : BitVec 9 × BitVec 9 × BitVec 9 × BitVec 6 × BitVec 12) : State :=
  if !adapts s p l then s
  else if m.2.2.2.2.toNat ≤ 1228 then
    let o := laneStat s p l
    let n := fld s o 31 16
    count (setF (setF s o 3 3 1) o 31 16 (min 0xFFFF (n + 1))) (cPort p 11) 1
  else
    let o := eqStat p l
    let c := eqCode s p l
    let (b, a) := adaptCode c (fld s (fpReg p 0xC) 19 16) m.1.toNat m.2.1.toNat m.2.2.1.toNat
    let mid := m.2.2.2.1.toNat
    let ph := fld s o 13 8
    let s := setF (setF s o 4 0 b) o 24 16 a
    let s := count s (cPort p 12) (b2n (b != c))
    let s := setPhy s p (fun x => { x with eqTarget := tput noTarget x.eqTarget l none })
    if 34 ≤ mid ∨ mid ≤ 30 then
      count (setF s o 13 8 (if 32 < mid then ph + 1 else ph + 63)) (cPort p 13) 1
    else s

/-- A step of adaptation ends, and a scan that waits for the monitor path starts (R240, R242). -/
def adaptStep (s : State) (p : Nat) (meas : List (BitVec 9 × BitVec 9 × BitVec 9 × BitVec 6 × BitVec 12)) : State :=
  let s := foldUpTo 16 (fun s l =>
    match meas[l]? with
    | some m => adaptLane s p l m
    | none => s) s
  let s := setF s (fpReg p 0x404) 4 4 0
  setPhy s p (fun x => { x with adapting := false, adaptSkip := 0 })

/-- ADAPTATION_STEP (R242). -/
def execAdaptationStep (p : PortN) (meas : List (BitVec 9 × BitVec 9 × BitVec 9 × BitVec 6 × BitVec 12)) (s : State) :
    Out :=
  .next (when (strikeLive s && carries s p && ((s.port p).phy.adapting || flag s (fpReg p 0) 9)) s (adaptStep s p meas))

/-- Lanes that a step starting now leaves out. -/
def skipNow (s : State) (p : Nat) : BitVec 16 :=
  BitVec.ofNat 16 (foldUpTo 16 (fun n l => n + b2n (scanHolds s p l || eqHold s p l) * 2 ^ l) 0)

/-! ## FPpp_PHY_CTRL (R241, R254, R257, R261) -/

/-- UPWIDTH (R254). -/
def upwidthNow (s : State) (p : PortN) : State :=
  if carries s p then toRetrain (clearExclusions s p) p
  else if (s.port p).link = .retrain then setPhy (clearExclusions s p) p (fun x => { x with again := true })
  else paramFault s (.port p)

/-- Test mode begins (R257): rate and equaliser codes. -/
def enterTest (s : State) (p : Nat) : State :=
  let r := max (fld s (fpReg p 8) 1 0) (fld s (fpReg p 0) 1 0)
  let s := setF s (fpReg p 8) 3 2 r
  let t := foldUpTo 16 (fun m l =>
    tput noTarget m l (some (BitVec.ofNat 5 (fld s (fpReg p (0x300 + 0x40 * r + 4 * l)) 4 0)))) []
  startPatterns (s.modPort p (fun x => { x with link := .test, phy := { x.phy with eqTarget := t } })) p

/-- Test mode ends (R257): no lane stays locked, no checker in sync. -/
def leaveTest (s : State) (p : Nat) : State :=
  let s := setF (setLocks (leaveLink s p) p 0) (fpReg p 0x140) 1 1 0
  dropCheckers (s.modPort p (fun x => { x with link := .off })) p

/-- A write of FPpp_PHY_CTRL. -/
def wrPhyCtrl (s : State) (p : PortN) (v : Reg32) : State :=
  let s := if bit v.toNat 0 then upwidthNow s p else s
  let s := if bit v.toNat 1 && carries s p then
      setPhy s p (fun x => { x with adapting := true, adaptSkip := skipNow s p })
    else s
  if bit v.toNat 8 then
    if (s.port p).link = .off then enterTest (wrReg s (fpReg p 4) v 0) p
    else putReg s (fpReg p 4) v (mask 8 8)
  else
    let s := wrReg s (fpReg p 4) v 0
    if (s.port p).link = .test then fromOff (leaveTest s p) p else fromOff s p

/-- UPWIDTH (R254): the written value carries UPWIDTH. -/
def execUpwidth (p : PortN) (v : Reg32) (s : State) : Out := .next (atReg s (fpReg p 4) (wrPhyCtrl s p (v ||| 1)))
/-- ADAPT_NOW (R241): the written value carries ADAPT_NOW. -/
def execAdaptNow (p : PortN) (v : Reg32) (s : State) : Out := .next (atReg s (fpReg p 4) (wrPhyCtrl s p (v ||| 2)))
/-- TEST_MODE_WRITE (R257). -/
def execTestModeWrite (p : PortN) (v : Reg32) (s : State) : Out := .next (atReg s (fpReg p 4) (wrPhyCtrl s p v))

/-! ## Eye scans (R238 to R240, R269 to R271) -/

/-- A scan may run on lane `l` (R239). -/
def mayScan (s : State) (p l : Nat) : Bool :=
  (carries s p && bit (rxLanes s p) l)
    || ((s.port p).link = .test && bit (fld s (fpReg p 0x504) 31 16) l)

/-- A write of FPpp_ES_CTRL (R239, R269). -/
def wrEsCtrl (s : State) (p : PortN) (v : Reg32) : State :=
  let s := wrReg s (fpReg p 0x400) v 0
  let s := if bit v.toNat 30 then endEye s p else s
  if !bit v.toNat 31 then s
  else
    let l := bits v.toNat 3 0
    if 10 < bits v.toNat 27 24 ∨ mayScan s p l = false ∨ flag s (fpReg p 0x404) 0 = true then paramFault s (.port p)
    else
      let wait := (s.port p).phy.adapting && adapts s p l
      setPhy (setF (setF (setF s (fpReg p 0x404) 0 0 1) (fpReg p 0x404) 4 4 (b2n wait)) (fpReg p 0x404) 3 2 0) p
        (fun x => { x with es := some ((s.port p).link, v) })

/-- EYE_SCAN_START (R239): the written value carries START. -/
def execEyeScanStart (p : PortN) (v : Reg32) (s : State) : Out :=
  .next (atReg s (fpReg p 0x400) (wrEsCtrl s p (v ||| 0x80000000)))
/-- EYE_SCAN_ABORT (R269): the written value carries ABORT. -/
def execEyeScanAbort (p : PortN) (v : Reg32) (s : State) : Out :=
  .next (atReg s (fpReg p 0x400) (wrEsCtrl s p (v ||| 0x40000000)))

/-- Stores the counts of a scan started with control value `v` (R238, R239, R270, R271). -/
def storeEye (s : State) (p : Nat) (v : Reg32) (counts : List Nat) : State :=
  if bit v.toNat 4 then
    (counts.take 4096).zipIdx.foldl (fun s e =>
      wr s (fpReg p (0x1000 + 4 * e.2)) (BitVec.ofNat 32 (if e.2 = 2080 then 0 else min 0xFFFF e.1))) s
  else
    let n := if bits v.toNat 21 16 = 32 ∧ bits v.toNat 13 8 = 32 then 0 else counts.headD 0
    wr s (fpReg p 0x408) (BitVec.ofNat 32 (min 0xFFFFFFFF n))

/-- A scan finishes. -/
def finishEye (s : State) (p : Nat) (v : Reg32) (counts : List Nat) (low : Bool) : State :=
  let o := fpReg p 0x404
  let s := setF (setF (storeEye s p v counts) o 0 0 0) o 1 1 1
  let s := if low then setF s o 3 3 1 else s
  setPhy s p (fun x => { x with es := none })

/-- EYE_SCAN_DONE (R239). -/
def execEyeScanDone (p : PortN) (counts : List Nat) (low : Bool) (s : State) : Out :=
  match (s.port p).phy.es with
  | some e => .next (when (strikeLive s && flag s (fpReg p 0x404) 0 && !flag s (fpReg p 0x404) 4) s
      (finishEye s p e.2 counts low))
  | none => .next s

/-! ## Patterns and injection (R257 to R259, R272 to R275) -/

/-- CLEAR of FPpp_PG_CFG (R272). -/
def clearChecks (s : State) (p : Nat) : State :=
  let s := wr (wr s (fpReg p 0x580) 0) (fpReg p 0x584) 0
  foldUpTo 16 (fun s l => wr s (fpReg p (0x600 + 4 * l)) 0) s

/-- What a scan, an injection and the checkers make of lanes that a write has taken away in test mode (R239, R258, R259). -/
def pgLanesChanged (s : State) (p : Nat) : State :=
  let s := dropIdle (dropCheckers s p) p
  if (s.port p).phy.es.any (fun e => !mayScan s p (bits e.2.toNat 3 0)) then endEye s p else s

/-- A write of FPpp_PG_CFG (R258, R272): outside test mode it only stores. Generators and checkers start where RUN goes to 1
or PATTERN changes while they run. -/
def wrPgCfg (s : State) (p : PortN) (v : Reg32) : State :=
  let old := (patternRuns s p, patternOf s p)
  let s := putReg s (fpReg p 0x500) v (if 5 ≤ bits v.toNat 2 0 then mask 2 0 else 0)
  if (s.port p).link = .test then
    let s := if bit v.toNat 3 then clearChecks s p else s
    let s := if patternRuns s p && old != (true, patternOf s p) then startPatterns s p else s
    pgLanesChanged s p
  else s

/-- A write of FPpp_PG_LANES (R272). -/
def wrPgLanes (s : State) (p : PortN) (v : Reg32) : State :=
  let s := wrReg s (fpReg p 0x504) v 0
  if (s.port p).link = .test then pgLanesChanged s p else s

/-- PG_CLEAR (R272): the written value carries CLEAR. -/
def execPgClear (p : PortN) (v : Reg32) (s : State) : Out := .next (atReg s (fpReg p 0x500) (wrPgCfg s p (v ||| 8)))

/-- A write of FPpp_INJ (R259, R275). -/
def wrInj (s : State) (p : PortN) (v : Reg32) : State :=
  let o := fpReg p 0x700
  let pend := flag s o 16
  let s := putReg s o v (if bits v.toNat 15 8 = 0 then mask 15 8 else 0)
  if !bit v.toNat 31 then s
  else if pend || !txLive s p (bits v.toNat 3 0) then paramFault s (.port p)
  else setF s o 16 16 1

/-- INJECTION_GO (R259): the written value carries GO. -/
def execInjectionGo (p : PortN) (v : Reg32) (s : State) : Out :=
  .next (atReg s (fpReg p 0x700) (wrInj s p (v ||| 0x80000000)))

/-- The armed bits are inverted from now on (R259). -/
def inject (s : State) (p : Nat) : State :=
  let o := fpReg p 0x700
  let s := setPhy s p (fun x => { x with
    injLeft := fld s o 15 8
    injLane := BitVec.ofNat 4 (fld s o 3 0) })
  count (setF s o 16 16 0) (cPort p 14) 1

/-- INJECTION_MADE (R259). -/
def execInjectionMade (p : PortN) (s : State) : Out :=
  .next (when (strikeLive s && flag s (fpReg p 0x700) 16) s (inject s p))

end Sys2Proof.Machine
end

