-- ==== Sys2Proof/Machine/CsrWrite.lean ====
section
/-! DEFINITION. What a write of a register does: each register with an effect or a rejection of its own, and the rest
(R11 to R17). -/

namespace Sys2Proof.Machine

open Sys2Proof

/-! ## Rejected values (R17) -/

/-- A write that its register's rule may reject as a whole. -/
def putWhole (s : State) (off : Nat) (v : Reg32) (bad : Bool) : State :=
  if bad then paramFault s (ownerSet off) else wrReg s off v 0

/-- A write whose field `m` may be rejected. -/
def putField (s : State) (off : Nat) (v : Reg32) (bad : Bool) (m : Nat) : State := putReg s off v (if bad then m else 0)

/-! ## Blocks -/

/-- SEN window (R438, R443, R451, R473). -/
def wrSen (s : State) (off : Nat) (v : Reg32) : State :=
  let o := off - senReg 0
  let slope := bits v.toNat 3 0
  if o = 8 then evalHoldLow (putField s off v (decide (1 ≤ slope) && decide (slope ≤ 3)) (mask 3 0))
  else if o = 0x20 ∨ o = 0x24 ∨ o = 0x28 then wrQuiet s ((o - 0x20) / 4) v
  else if inArr 0x100 4 8 o then wrTarget s ((o - 0x100) / 4) v
  else wrReg s off v 0

/-- Event controller (R412 to R416). -/
def wrEvc (s : State) (off : Nat) (v : Reg32) : State :=
  let o := off - evcReg 0
  let n := (o - 0x10000) / 0x20
  if o = 0 then wrEoi s v
  else if o = 4 then wrSwRaise s v
  else if 0x10000 ≤ o ∧ o < 0x30000 then
    (match (o - 0x10000) % 0x20 with
    | 0 => wrSrcCfg s n v
    | 4 => wrSrcStat s n v
    | 8 => putField s off v (bit v.toNat 0) allBits
    | _ => wrReg s off v 0)
  else wrReg s off v 0

/-- WRD_CLASS_CFG: GUAR other than 0b00 needs reservations of 8 (R217, R227). -/
def guarBad (s : State) (c : Nat) (g : Nat) : Bool :=
  g == 3 || (g != 0 && (decide (fld s (shareReg c 0) 8 0 < 8) || decide (fld s (shareReg c 4) 8 0 < 8)))

/-- Fields of a share register that a write rejects, as a mask: MAX above 512; then RES above the MAX that the register takes,
above the total, or below 8 under a guarantee; and MAX below a RES that so stays (R17, R228). -/
def shareBad (s : State) (c o x guar : Nat) : Nat :=
  let old := fld s (shareReg c o) 8 0
  let res := bits x 8 0
  let high := decide (512 < bits x 25 16)
  let max := if high then fld s (shareReg c o) 25 16 else bits x 25 16
  let bad := !shareOk s c o res max guar
  let wide := high || (bad && decide (max < old))
  (if bad then mask 8 0 else 0) + (if wide then mask 25 16 else 0)

/-- Ward window (R222, R223, R227, R228). -/
def wrWrd (s : State) (off : Nat) (v : Reg32) : State :=
  let o := off - wrdReg 0
  let x := v.toNat
  if o = 0 then putField s off v (decide (bits x 15 0 < 64)) (mask 15 0)
  else if o = 4 then putWhole s off v (planBad x || mirrorLow s x)
  else if 0x1000 ≤ o ∧ o < 0x2000 then
    let c := (o - 0x1000) / 16
    if o % 16 = 0 then putField s off v (guarBad s c (bits x 3 2)) (mask 3 2)
    else if o % 16 = 8 then putField s off v (bits x 29 28 == 3) (mask 29 28)
    else wrReg s off v 0
  else if 0x2000 ≤ o ∧ o < 0x2800 then
    let c := (o - 0x2000) / 8
    putReg s off v (shareBad s c (o % 8) x (fld s (wrdReg (0x1000 + 16 * c)) 3 2))
  else wrReg s off v 0

/-- Values that a tumbler register rejects as a whole. -/
def tumWhole (o x : Nat) : Bool :=
  if o = 0x00 then
    decide (bits x 8 0 ≤ bits x 17 9) || decide (bits x 8 0 < 64) || bits x 27 18 == 0
  else if o = 0x28 then decide (bits x 13 0 < 256) || decide (8192 < bits x 13 0) || decide (6 ≤ bits x 18 16)
  else if o = 0x104 then decide (bits x 13 8 < bits x 5 0) || bits x 19 16 == 0 || decide (8 < bits x 19 16)
  else false

/-- The field that a tumbler register rejects, as a mask; 0 for none. -/
def tumField (o x : Nat) : Nat :=
  if o = 0x04 then (if bits x 1 0 = 3 then mask 1 0 else 0)
  else if o = 0x40 then (if bits x 7 0 = 0 then mask 7 0 else 0)
  else if o = 0x48 then (if bits x 2 0 = 0 then mask 2 0 else 0)
  else if o = 0x54 then (if bits x 5 0 = 0 ∨ 50 < bits x 5 0 then mask 5 0 else 0)
  else 0

/-- Tumbler window (R88 to R107, R125, R132, R134, R153, R163, R168). -/
def wrTum (s : State) (off : Nat) (v : Reg32) : State :=
  let t : Tum := Fin.ofNat 64 ((off - 0x2000000) / 0x10000)
  let o := off % 0x10000
  if o = 0x08 then wrRate s t v
  else if o = 0x10 then wrPwrCfg s t v
  else if o = 0x20 then wrRefCfg s t v
  else if o = 0x100 then wrTrnCtrl s t v
  else if 0x2000 ≤ o ∧ o < 0x3800 then beginMove (wrReg s off v 0) t ((o - 0x2000) / 0x800)
  else if 0x3800 ≤ o ∧ o < 0x3B00 then beginMove (wrReg s off v 0) t ((o - 0x3800) / 0x100)
  else if tumWhole o v.toNat then paramFault s (.tum t)
  else putReg s off v (tumField o v.toNat)

/-- Scan engine window (R199). -/
def wrScn (s : State) (off : Nat) (v : Reg32) : State :=
  let n := bits v.toNat 2 0
  if (off - 0x2400000) % 0x4000 = 0 then putField s off v (n == 0 || decide (4 < n)) (mask 2 0) else wrReg s off v 0

/-- FPpp_LINK_CFG rejects the value (R309). -/
def linkCfgBad (s : State) (p : PortN) (x : Nat) : Bool :=
  let r := bits x 1 0
  decide (2 ≤ r) || (r != fld s (fpReg p 0x8004) 1 0 && (s.port p).link != .off) || bits x 15 8 == 0 || bits x 23 16 == 0

/-- Values that a port register rejects as a whole (R260, R263, R309). -/
def portWhole (s : State) (p : PortN) (o x : Nat) : Bool :=
  if o = 0 then bits x 1 0 == 3 || bits x 3 2 == 3
  else if o = 0xC then decide (bits x 15 0 < 10) || decide (1000 < bits x 15 0) || bits x 19 16 == 0
  else if o = 0x8004 then linkCfgBad s p x
  else false

/-- Fellor window. -/
def wrPort (s : State) (off : Nat) (v : Reg32) : State :=
  let p : PortN := Fin.ofNat 16 ((off - 0x2600000) / 0x10000)
  let o := off % 0x10000
  if o = 0x04 then wrPhyCtrl s p v
  else if o = 0x08 then wrPhyRate s p v
  else if inArr 0x280 4 16 o then wrEqOvr s p ((o - 0x280) / 4) v
  else if o = 0x400 then wrEsCtrl s p v
  else if o = 0x500 then wrPgCfg s p v
  else if o = 0x504 then wrPgLanes s p v
  else if o = 0x700 then wrInj s p v
  else if o = 0x8000 then wrLinkCtrl s p v
  else putWhole s off v (portWhole s p o v.toNat)

/-- LFnn_SENS_TRIM (R480): each field within the limits of R468. -/
def wrLeaf (s : State) (off : Nat) (v : Reg32) : State :=
  let x := sx8 (bits v.toNat 7 0)
  let g := sx8 (bits v.toNat 15 8)
  putReg s off v ((if trimOk x 0 then 0 else mask 7 0) + (if trimOk 0 g then 0 else mask 15 8))

/-- Cores window (R372, R379, R386). -/
def wrCores (s : State) (off : Nat) (v : Reg32) : State :=
  let o := off - coreReg 0 0
  let n := (o - 0x81000) / 0x40
  if o < 0x80000 ∧ o % 0x10000 = 4 then wrCoreCtrl s (Fin.ofNat 8 (o / 0x10000)) v
  else if 0x81000 ≤ o ∧ o < 0x81100 then
    (match (o - 0x81000) % 0x40 with
    | 0 => wrRingCtl s (Fin.ofNat 4 n) v
    | 4 => wrRingBase s off v 0xFFFFF000
    | 0xC => wrRingBase s off v 0xFFFFF000
    | 8 => wrRingBase s off v allBits
    | 0x10 => wrRingBase s off v allBits
    | _ => wrReg s off v 0)
  else wrReg s off v 0

/-! ## Any register -/

/-- A write that reaches a defined register. -/
def writeReg (s : State) (off : Nat) (v : Reg32) : State :=
  match fltAt s.part off with
  | some (b, o) => if o = 0 then wrFltStat s b v else wrReg s off v 0
  | none =>
    if off < 0x100000 then wrReg s off (if off = 0x28 ∧ flag s 0x28 2 then v &&& 0xFFFFFFFD else v) 0
    else if off < 0x200000 then wrSen s off v
    else if off < 0x400000 then wrReg s off v 0
    else if off < 0x800000 then wrEvc s off v
    else if off < 0xC00000 then wrWrd s off v
    else if off < 0x2000000 then wrReg s off v 0
    else if off < 0x2400000 then wrTum s off v
    else if off < 0x2600000 then wrScn s off v
    else if off < 0x2700000 then wrPort s off v
    else if off < 0x2800000 then wrLeaf s off v
    else if off = pairReg 4 then
      putField s off v (decide (bits v.toNat 15 0 < 100) || decide (10000 < bits v.toNat 15 0)) (mask 15 0)
    else if 0x2B00000 ≤ off then wrCores s off v
    else wrReg s off v 0

/-- A write of one register on a path, and its status (R11, R16, R44, R386). -/
def writeCsr (s : State) (path off : Nat) (v : Reg32) : State × BitVec 16 :=
  let st := accessStatus s off
  let st := if st = rcSuccess && inAperture off then rcReadOnly else st
  if st != rcSuccess then (latchFail s path st, st)
  else if (regDef s.part off).isNone then (s, st)
  else (writeReg s off v, st)

/-- REGISTER_WRITE (R17). -/
def execRegisterWrite (path : Path) (off : BitVec 26) (v : Reg32) (s : State) : Out :=
  .next (when (sentinelUp s) s (writeCsr s path.val off.toNat v).1)

/-- GBL_LOCK_SET (R14): the written value carries LOCK. -/
def execGblLockSet (v : Reg32) (s : State) : Out :=
  .next (when (sentinelUp s) s (writeReg s 0x10 (v ||| 1)))

end Sys2Proof.Machine
end

