-- ==== Sys2Proof/Machine/CsrRows.lean ====
section
/-! DEFINITION. Register access by command and by BAR0: CSR_READ, CSR_WRITE (R365) and BAR0 requests (R371). -/

namespace Sys2Proof.Machine

open Sys2Proof

/-! ## CSR_READ and CSR_WRITE (R365) -/

/-- The access path of a command source (R35). -/
def pathOf : CmdSrc → Nat
  | .ring n => 9 + n.val
  | .port p => 13 + p.val

/-- First non-success status seen, with the index of its register. -/
def firstFail (f : Option (Nat × BitVec 16)) (i : Nat) (st : BitVec 16) : Option (Nat × BitVec 16) :=
  match f with
  | some x => some x
  | none => if st = rcSuccess then none else some (i, st)

/-- A run of register accesses: the state, the bytes read and the first failure. -/
structure CsrRun where
  st : State
  data : List Byte
  bad : Option (Nat × BitVec 16)

/-- Register `i` of a CSR_READ. -/
def readNth (path off : Nat) (u : CsrRun) (i : Nat) : CsrRun :=
  let (s, v, st) := readCsr u.st path (off + 4 * i)
  { st := s, data := u.data ++ leBytes 4 v.toNat, bad := firstFail u.bad i st }

/-- Register `i` of a CSR_WRITE. -/
def writeNth (path off : Nat) (c : Cmd) (u : CsrRun) (i : Nat) : CsrRun :=
  let (s, st) := writeCsr u.st path (off + 4 * i) (BitVec.ofNat 32 (leNat ((c.ext.drop (4 * i)).take 4)))
  { st := s, data := [], bad := firstFail u.bad i st }

/-- The reply of a run. -/
def csrReply (c : Cmd) (u : CsrRun) : State :=
  match u.bad with
  | some (i, st) => reply u.st c st i u.data
  | none => reply u.st c rcSuccess 0 u.data

/-- N is outside 1 to 64. -/
def csrCountBad (n : Nat) : Bool := n == 0 || decide (64 < n)

/-- The registers lie beyond the CSR space. -/
def csrRangeBad (off n : Nat) : Bool := decide (0x4000000 < off + 4 * n)

/-- CSR_READ (R365). -/
def csrReadDone (c : Cmd) (s : State) : State :=
  let off := p0 c 25 0
  let n := p1 c 6 0
  orFail s c [(csrCountBad n, rcBadValue), (csrRangeBad off n, rcBadRange)]
    (csrReply c ((List.range n).foldl (readNth (pathOf c.src) off) { st := s, data := [], bad := none }))

def execCsrRead (c : Cmd) (s : State) : Out := runCmd s c 0x0001 (csrReadDone c)

/-- CSR_WRITE (R365). -/
def csrWriteDone (c : Cmd) (s : State) : State :=
  let off := p0 c 25 0
  let n := p1 c 6 0
  orFail s c [(csrCountBad n, rcBadValue), (c.ext.length != 8 * ((n + 1) / 2), rcBadLength),
      (csrRangeBad off n, rcBadRange)]
    (csrReply c ((List.range n).foldl (writeNth (pathOf c.src) off c) { st := s, data := [], bad := none }))

def execCsrWrite (c : Cmd) (s : State) : Out := runCmd s c 0x0002 (csrWriteDone c)

/-! ## BAR0 (R371) -/

/-- A failing access of BAR0: it reads 0. -/
def bar0Fail (s : State) (st : BitVec 16) : State × Reg32 := (latchFail s 8 st, 0)

/-- Access `i` of a BAR0 request of `size` bytes: fewer than 4 bytes are narrow, and a fenced port fails (R11, R400). -/
def bar0Word (s : State) (off size i : Nat) (v : Option Reg32) : State × Reg32 :=
  if s.usb.fenced then bar0Fail s rcUnitFenced
  else if size < 4 * i + 4 then bar0Fail s rcBadAlign
  else
    match v with
    | some v => ((writeCsr s 8 (off + 4 * i) v).1, 0)
    | none =>
      let (s, v, _) := readCsr s 8 (off + 4 * i)
      (s, v)

/-- A BAR0 request: its completion carries what the reads returned. A request shows that the link is up. -/
def bar0Done (s : State) (off size : Nat) (data : Option (List Reg32)) : State :=
  let s := count { s with usb := { s.usb with link := true } } (cUsb 0) 1
  let u := (List.range ((size + 3) / 4)).foldl (fun (u : State × List Reg32) i =>
    let (s, v) := bar0Word u.1 off size i (data.map (fun l => l.getD i 0))
    (s, u.2 ++ [v])) (s, [])
  { u.1 with usb := { u.1.usb with bar0 := if data.isSome then [] else u.2 } }

/-- BAR0_ACCESS (R371). -/
def execBar0Access (off : BitVec 26) (size : Nat) (data : Option (List Reg32)) (s : State) : Out :=
  .next (when (strikeLive s) s (bar0Done s off.toNat size data))

end Sys2Proof.Machine
end

