-- ==== Sys2Proof/Machine/FlitRows.lean ====
section
/-! DEFINITION. Flits and packets of a Fellor port: reception (R288, R291, R296, R297, R303), control flits (R293 to
R295), transmission (R284 to R290, R304, R305). -/

namespace Sys2Proof.Machine

open Sys2Proof

/-! ## Packets received (R297, R303) -/

/-- A packet that can still be granted: the limit is not passed (R303). -/
def withinGrant (s : State) (p k : Nat) : Bool :=
  let x := s.port p
  let d := (tget zero x.granted k - tget zero x.got k).toNat
  decide (1 ≤ d) && decide (d ≤ 2047)

/-- A packet beyond the granted limit (R303). -/
def overrun (s : State) (p : PortN) : State :=
  fault (setF (skipPacket s p) (fpReg p 0x800C) 3 3 1) (.port p) 4 0 1

/-- The REQ packet that chunks spell, its Type aside (R299). -/
def decodeReq (p : PortN) (n : Nat) : Req :=
  { port := p, flow := BitVec.ofNat 18 (bits n 33 16), initiator := BitVec.ofNat 12 (bits n 45 34),
    tag := BitVec.ofNat 16 (bits n 61 46), size := BitVec.ofNat 2 (bits n 67 66),
    urgency := BitVec.ofNat 2 (bits n 69 68), hint := BitVec.ofNat 2 (bits n 71 70),
    addr := BitVec.ofNat 40 (bits n 111 72), len := BitVec.ofNat 10 (bits n 15 6), be := 0, data := 0,
    op1 := 0, op2 := 0 }

/-- A credited packet of class `k` is kept, to be taken by its own command. -/
def keepPacket (s : State) (p : PortN) (k : Nat) (pkt : List (BitVec 16)) : State :=
  if !withinGrant s p k then overrun s p
  else storePkt (s.modPort p (fun x => { x with got := tput zero x.got k (tget zero x.got k + 1) })) p pkt

/-- A REQ whose Type R62 does not know completes with PARAMETER; one of fewer than 8 chunks is skipped (R299). -/
def oddReq (s : State) (p : PortN) (n : Nat) : State :=
  if !withinGrant s p 0 then overrun s p
  else
    let s := s.modPort p (fun x => { x with got := tput zero x.got 0 (tget zero x.got 0 + 1) })
    let s := count s (cPort p 19) 1
    if bits n 15 6 < 8 then leaveStore (skipPacket s p) p else rejectReq s (decodeReq p n) stParameter

/-- A whole packet has been received (R297, R306, R307). -/
def packetIn (s : State) (p : PortN) (pkt : List (BitVec 16)) : State :=
  let n := chunkNat pkt
  let ty := bits n 5 0
  let mirror := mirrorRole s p
  let stop := (s.port p).stopped
  if ty = 0 then s
  else if ty = 1 then
    if bits n 15 6 = 4 then storePkt s p pkt else skipPacket s p
  else if ty = 4 ∧ mirror = false then
    if stop then count s (cPort p 23) 1
    else if bits n 15 6 < 8 ∨ 5 < bits n 65 62 then oddReq s p n
    else keepPacket s p 0 pkt
  else if ty = 12 ∧ mirror = false then if stop then s else keepPacket s p 1 pkt
  else if 0x10 ≤ ty ∧ ty ≤ 0x17 ∧ mirror = true then
    if pairShape ty (decodePair pkt) || !withinGrant s p 2 then keepPacket s p 2 pkt
    else
      badPair (s.modPort p (fun x => { x with
        got := tput zero x.got 2 (tget zero x.got 2 + 1)
        granted := tput zero x.granted 2 (tget zero x.granted 2 + 1)
        creditDue := true })) p
  else skipPacket s p

/-! ## Framing (R296, R297) -/

/-- Framing error: what is being received is discarded (R297). -/
def framingError (s : State) (p : PortN) : State :=
  let s := s.modPort p (fun x => { x with rxPart := [], framing := true })
  fault (count (setF s (fpReg p 0x800C) 2 2 1) (cPort p 16) 1) (.port p) 3 0 1

/-- Chunks still to come of the packet that is being received. -/
def chunksLeft (part : List (BitVec 16)) : Nat :=
  match part with
  | [] => 0
  | c :: _ => bits c.toNat 15 6 - part.length

/-- The chunks of an accepted flit, one by one. -/
def chunksIn (s : State) (p : PortN) : List (BitVec 16) → State
  | [] => s
  | c :: r =>
    if carries s p = false then s else
    match (s.port p).rxPart with
    | [] =>
      if c = 0 then chunksIn s p r
      else if (bits c.toNat 5 0 = 0) ≠ (bits c.toNat 15 6 = 0) then framingError s p
      else if bits c.toNat 15 6 = 1 then chunksIn (packetIn s p [c]) p r
      else chunksIn (s.modPort p (fun x => { x with rxPart := [c] })) p r
    | part =>
      let l := part ++ [c]
      if chunksLeft l = 0 then chunksIn (packetIn (s.modPort p (fun x => { x with rxPart := [] })) p l) p r
      else chunksIn (s.modPort p (fun x => { x with rxPart := l })) p r

/-- START that the tracked boundary calls for (R285, R297). -/
def startDue (part : List (BitVec 16)) : Nat := if chunksLeft part ≤ 28 then chunksLeft part else 31

/-- The payload of an accepted data flit (R297). -/
def payloadIn (s : State) (p : PortN) (flit : Nat) : State :=
  let start := bits flit 5 1
  let chunks := toChunks 29 (bits flit 479 16)
  let x := s.port p
  if start = 29 ∨ start = 30 then framingError s p
  else if x.framing then
    if start = 31 then s
    else chunksIn (s.modPort p (fun x => { x with framing := false, rxPart := [] })) p (chunks.drop start)
  else if start ≠ startDue x.rxPart then framingError s p
  else chunksIn s p chunks

/-! ## Flits received (R288 to R291) -/

/-- The receive scramblers advance over one flit; answers their mask (R286). -/
def rxMask (s : State) (p : Nat) : Nat × State :=
  let (m, r) := flitMask (rxCount s p) (s.port p).scrRx
  (m, s.modPort p (fun x => { x with scrRx := r }))

/-- A flit fails its CRC (R291). -/
def dataBad (s : State) (p : PortN) : State :=
  let s := count s (cPort p 4) 1
  if (s.port p).discarding then s
  else s.modPort p (fun x => { x with discarding := true, nakDue := true })

/-- A data flit is accepted in sequence. -/
def dataGood (s : State) (p : PortN) (flit : Nat) : State :=
  let s := s.modPort p (fun x => { x with rxLast := x.rxLast + 1, discarding := false, nakDue := false })
  payloadIn (count (applyAck s p (BitVec.ofNat 10 (bits flit 15 6))) (cPort p 1) 1) p flit

/-! ## Packets to send (R303, R304) -/

/-- The next packet that may start, and the state without it: a CREDIT packet first, then completions, replies, event
packets and pair packets (log 43). -/
def nextPacket (s : State) (p : Nat) : Option (List (BitVec 16) × State) :=
  let x := s.port p
  let use (k : Nat) (y : Port) : State := s.setPort p { y with sent := tput zero y.sent k (tget zero y.sent k + 1) }
  if x.creditPkt then
    some (encodeCredit (limitSent s p 0) (limitSent s p 1) (limitSent s p 2),
      s.setPort p { x with creditPkt := false, creditDue := false })
  else
    match x.cmpBuf, x.rplQ, x.evtQ, x.pairQ with
    | c :: r, _, _, _ =>
      if creditLeft s p 0 = 0 then none
      else some (encodeCmp c, count (use 0 { x with cmpBuf := r }) (cPort p 20) 1)
    | [], c :: r, _, _ => if creditLeft s p 1 = 0 then none else some (encodeRpl c, use 1 { x with rplQ := r })
    | [], [], c :: r, _ => if creditLeft s p 1 = 0 then none else some (encodeEvt c, use 1 { x with evtQ := r })
    | [], [], [], c :: r => if creditLeft s p 2 = 0 then none else some (c, use 2 { x with pairQ := r })
    | [], [], [], [] => none

/-- The next packet, looking past classes that wait for credit. -/
def anyPacket (s : State) (p : Nat) : Option (List (BitVec 16) × State) :=
  match nextPacket s p with
  | some x => some x
  | none =>
    let x := s.port p
    let cmps := if creditLeft s p 0 = 0 then x.cmpBuf else []
    let rpls := if creditLeft s p 1 = 0 then x.rplQ else []
    let evts := if creditLeft s p 1 = 0 then x.evtQ else []
    let t := s.setPort p { x with
      cmpBuf := x.cmpBuf.drop cmps.length, rplQ := x.rplQ.drop rpls.length, evtQ := x.evtQ.drop evts.length }
    match nextPacket t p with
    | some (k, t) => some (k, t.modPort p (fun y => { y with
        cmpBuf := cmps ++ y.cmpBuf, rplQ := rpls ++ y.rplQ, evtQ := evts ++ y.evtQ }))
    | none => none

/-- A data flit is ready. -/
def dataReady (s : State) (p : Nat) : Bool := !(s.port p).txPart.isEmpty || (anyPacket s p).isSome

/-! ## Control flits (R293 to R295) -/

/-- No data flit sent is unacknowledged and none is ready (R295). -/
def linkQuiet (s : State) (p : Nat) : Bool := (s.port p).replay.isEmpty && !dataReady s p

/-- LP_REQ, LP_ACK and LP_DENY (R295); an LP_REQ that comes again while an entry is under way is answered again. -/
def lowPowerCtl (s : State) (p : Nat) (ctype : Nat) : State :=
  let lp := (s.port p).lp
  if ctype = 2 then
    if lp = .asked then s.modPort p (fun x => { x with lp := .entering })
    else if linkQuiet s p then s.modPort p (fun x => { x with ctlDue := some 3, lp := .acking })
    else s.modPort p (fun x => { x with ctlDue := some 4 })
  else if ctype = 3 then s.modPort p (fun x => { x with lp := if lp = .asked then .entering else lp })
  else s.modPort p (fun x => { x with lp := if lp = .asked then .none else lp })

/-- Fields of a control flit: ACK, limits and urgency (R290, R293, R305). -/
def ctlFields (s : State) (p : PortN) (c : CtlFlit) : State :=
  let s := applyLimits (applyAck s p c.ack) p c.cred0 c.cred1 c.cred2
  let s := if (s.port p).urgRx = c.urg then s else count s (cPort p 28) 1
  let s := s.modPort p (fun x => { x with urgRx := c.urg })
  setF s (wrdReg (0x100 + 4 * p.val)) 1 0 c.urg.toNat

/-- What the CTYPE calls for (R292, R294, R295). -/
def ctlType (s : State) (p : PortN) (ctype : Nat) : State :=
  if ctype = 0 then s
  else if ctype = 1 then replayHeld (count s (cPort p 6) 1) p
  else if ctype ≤ 4 then lowPowerCtl s p ctype
  else protocolError s p

/-- A control flit is received, its bits already descrambled (R291, R293). -/
def ctlBody (s : State) (p : PortN) (ctype : Nat) (c : CtlFlit) : State :=
  let s := count s (cPort p 3) 1
  if c.crcOk then ctlType (ctlFields s p c) p ctype else count s (cPort p 4) 1

def ctlIn (s : State) (p : PortN) (ctype : Nat) (c : CtlFlit) : State := ctlBody (rxMask s p).2 p ctype c

/-- The port takes flits. -/
def takesFlits (s : State) (p : Nat) : Bool := strikeLive s && carries s p

/-- FC, or a reserved CTYPE (R294). -/
def execFc (p : PortN) (ctype : BitVec 5) (c : CtlFlit) (s : State) : Out :=
  .next (when (takesFlits s p) s (ctlIn s p ctype.toNat c))
/-- NAK (R292, R294). -/
def execNak (p : PortN) (c : CtlFlit) (s : State) : Out := .next (when (takesFlits s p) s (ctlIn s p 1 c))
/-- LP_REQ (R294, R295). -/
def execLpReq (p : PortN) (c : CtlFlit) (s : State) : Out := .next (when (takesFlits s p) s (ctlIn s p 2 c))
/-- LP_ACK (R294, R295). -/
def execLpAck (p : PortN) (c : CtlFlit) (s : State) : Out := .next (when (takesFlits s p) s (ctlIn s p 3 c))
/-- LP_DENY (R294, R295). -/
def execLpDeny (p : PortN) (c : CtlFlit) (s : State) : Out := .next (when (takesFlits s p) s (ctlIn s p 4 c))

/-- Control flit whose fields are read from its bits. -/
def ctlOf (flit : Nat) : CtlFlit :=
  { ack := BitVec.ofNat 10 (bits flit 15 6), cred0 := BitVec.ofNat 12 (bits flit 27 16),
    cred1 := BitVec.ofNat 12 (bits flit 39 28), cred2 := BitVec.ofNat 12 (bits flit 51 40),
    urg := BitVec.ofNat 2 (bits flit 53 52), crcOk := flitCrc 0 flit == bits flit 511 480 }

/-- Bits of a flit that arrive on lanes of inverted polarity (R246, R284). -/
def polMask (s : State) (p : Nat) : Nat :=
  let n := rxCount s p
  let lanes := rxLanes s p
  let inv := (s.port p).polInv.toNat
  if n = 0 then 0 else
  foldUpTo 16 (fun a l =>
    if bit lanes l && bit inv (if flag s (fpReg p 0x10) 4 then 15 - l else l) then
      a + foldUpTo (512 / n) (fun b u => b + 2 ^ (n * u + lanePlace lanes l)) 0
    else a) 0

/-- A flit as it stood on the lanes (R246, R286 to R291). -/
def flitIn (s : State) (p : PortN) (raw : Flit) : State :=
  let (m, s) := rxMask s p
  let flit := raw.toNat ^^^ polMask s p ^^^ m
  if bit flit 0 then ctlBody s p (bits flit 5 1) (ctlOf flit)
  else if flitCrc ((s.port p).rxLast + 1).toNat flit = bits flit 511 480 then dataGood s p flit
  else dataBad s p

/-- DATA_FLIT_RECEIVED (R291); in test mode the bits go to the checkers (R257). -/
def execDataFlitReceived (p : PortN) (raw : Flit) (s : State) : Out :=
  .next (if takesFlits s p then flitIn s p raw
    else if strikeLive s && patternRuns s p then checkPatterns s p raw.toNat
    else s)

/-- KS1_IN_ACTIVE (R280): the identifier stands on at least half of the lanes in use. -/
def execKs1InActive (p : PortN) (lanes : BitVec 16) (s : State) : Out :=
  .next (when (takesFlits s p && decide (rxCount s p ≤ 2 * popNat 16 (lanes.toNat &&& rxLanes s p))) s
    (toRetrain s p))

/-- NAK_TIMEOUT (R291). -/
def execNakTimeout (p : PortN) (s : State) : Out :=
  .next (when (takesFlits s p && (s.port p).discarding) s (s.modPort p (fun x => { x with nakDue := true })))

/-- ACK_TIMEOUT (R292). -/
def execAckTimeout (p : PortN) (s : State) : Out :=
  .next (when (takesFlits s p && !(s.port p).replay.isEmpty) s (replayHeld s p))

/-- LP_IDLE_TIMEOUT (R295): the port asks for LowPower, on its idle time or in Quiet. -/
def execLpIdleTimeout (p : PortN) (s : State) : Out :=
  .next (when (takesFlits s p && linkQuiet s p && (s.port p).lp = .none &&
      (fld s (fpReg p 0x8004) 31 24 != 0 || flag s (senReg 0x28) p)) s
    (s.modPort p (fun x => { x with ctlDue := some 2, lp := .asked })))

/-- LP_REQ_NO_ANSWER (R295). -/
def execLpReqNoAnswer (p : PortN) (s : State) : Out :=
  .next (when (takesFlits s p && (s.port p).lp = .asked) s (s.modPort p (fun x => { x with lp := .none })))

/-- A CREDIT packet is in the port's store, into which a new one comes now; the oldest is acted on (R38, R298). -/
def takeCredit (s : State) (p : PortN) (c0 c1 c2 : BitVec 12) : State :=
  let pkt := encodeCredit c0.toNat c1.toNat c2.toNat
  let s := received s p pkt
  match nextPkt s p 1 with
  | some e => if e.2 = usedBits pkt then applyLimits (dropPkt s p pkt) p c0 c1 c2 else s
  | none => s

/-- CREDIT (R298). -/
def execCredit (p : PortN) (c0 c1 c2 : BitVec 12) (s : State) : Out :=
  .next (when (takesFlits s p) s (takeCredit s p c0 c1 c2))

/-- CREDIT_PACKET_INSERT (R304). -/
def execCreditPacketInsert (p : PortN) (s : State) : Out :=
  .next (when (takesFlits s p && (s.port p).creditDue) s (s.modPort p (fun x => { x with creditPkt := true })))

/-- URGENCY_UPDATE (R305): a control flit with the new level is due. -/
def execUrgencyUpdate (p : PortN) (s : State) : Out :=
  .next (when (takesFlits s p) s
    (s.modPort p (fun x => { x with
      urgTx := urgOf (reqWait s p)
      creditDue := true
      ctlDue := some (x.ctlDue.getD 0) })))

/-! ## Transmission (R284 to R290, R304) -/

/-- Fills `n` more chunks of a data flit whose first chunk to fill is `i`: chunks, START, state. -/
def fillFlit (p : Nat) : Nat → Nat → State → List (BitVec 16) × Nat × State
  | 0, _, s => ([], 31, s)
  | n + 1, i, s =>
    match (s.port p).txPart with
    | c :: r =>
      let (l, st, s) := fillFlit p n (i + 1) (s.modPort p (fun x => { x with txPart := r }))
      (c :: l, st, s)
    | [] =>
      match anyPacket s p with
      | some (k, s) =>
        let (l, _, s) := fillFlit p n (i + 1) (s.modPort p (fun x => { x with txPart := k.drop 1 }))
        (k.headD 0 :: l, i, s)
      | none =>
        let (l, _, s) := fillFlit p n (i + 1) s
        (0 :: l, i, s)

/-- A packet waits and none may start (R422). -/
def stalled (s : State) (p : Nat) : Bool :=
  let x := s.port p
  (!x.cmpBuf.isEmpty && creditLeft s p 0 == 0) || ((!x.rplQ.isEmpty || !x.evtQ.isEmpty) && creditLeft s p 1 == 0)
    || (!x.pairQ.isEmpty && creditLeft s p 2 == 0)

/-- Bits that a running injection inverts in the next flit (R259, R284). -/
def injMask (s : State) (p : Nat) : Nat :=
  let x := (s.port p).phy
  let n := txCount s p
  let m := txLanes s p
  let j := lanePlace m x.injLane.toNat
  if n = 0 ∨ bit m x.injLane.toNat = false then 0
  else foldUpTo (min x.injLeft (512 / n)) (fun a u => a + 2 ^ (n * u + j)) 0

/-- Puts a flit on the lanes: it is scrambled, and an injection acts after that (R259, R286). -/
def putFlit (s : State) (p : Nat) (f : Flit) : State :=
  let (m, r) := flitMask (txCount s p) (s.port p).scrTx
  let i := injMask s p
  let n := txCount s p
  s.modPort p (fun x => { x with
    scrTx := r
    lastTx := BitVec.ofNat 512 (f.toNat ^^^ m ^^^ i)
    phy := { x.phy with injLeft := if n = 0 then 0 else x.phy.injLeft - 512 / n } })

/-- Sends a control flit (R285, R293, R304, R305). -/
def sendCtl (s : State) (p : Nat) (ctype : Nat) : State :=
  let x := s.port p
  let u := urgOf (reqWait s p)
  let pay := limitSent s p 0 + limitSent s p 1 * 2 ^ 12 + limitSent s p 2 * 2 ^ 24 + u.toNat * 2 ^ 36
  let f := mkFlit (1 + ctype * 2 + x.rxLast.toNat * 64) pay 0
  let s := putFlit s p f
  let s := s.modPort p (fun x => { x with
    urgTx := u
    creditDue := false
    lp := if ctype = 3 ∧ x.lp = .acking then .entering else x.lp })
  count s (cPort p 2) 1

/-- Sends the flit `f` of number `n` with the ACK of now (R285, R287, R290). -/
def sendData (s : State) (p : Nat) (f : Flit) (n : BitVec 10) : State :=
  let h := setBits (bits f.toNat 15 0) 15 6 (s.port p).rxLast.toNat
  putFlit s p (mkFlit h (bits f.toNat 479 16) n.toNat)

/-- Sends a held flit again (R292). -/
def sendAgain (s : State) (p : Nat) (n : BitVec 10) : State :=
  let s := s.modPort p (fun x => { x with resend := x.resend.drop 1 })
  match (s.port p).replay.find? (fun h => h.seq = n) with
  | none => s
  | some h =>
    let s := sendData s p h.flit n
    let s := s.modPort p (fun x => { x with
      replay := x.replay.map (fun g => if g.seq = n then { g with sends := g.sends + 1 } else g) })
    count s (cPort p 7) 1

/-- Sends a new data flit (R289, R296). -/
def sendNew (s : State) (p : Nat) : State :=
  let (l, start, s) := fillFlit p 29 0 s
  let n := (s.port p).txNext
  let f := mkFlit (start * 2) (chunkNat l) n.toNat
  let s := sendData s p f n
  let s := s.modPort p (fun x => { x with
    txNext := n + 1
    replay := x.replay ++ [{ seq := n, flit := f, sends := 1 }] })
  count s (cPort p 0) 1

/-- What a flit slot sends: a NAK, another control flit that is due, a replayed flit, a new data flit, or FC. -/
def flitOut (s : State) (p : Nat) : State :=
  let x := s.port p
  let s := count s (cPort p 18) (b2n (stalled s p))
  if x.nakDue then
    count (sendCtl (s.modPort p (fun x => { x with nakDue := false })) p 1) (cPort p 5) 1
  else
    match x.ctlDue with
    | some c => sendCtl (s.modPort p (fun x => { x with ctlDue := none })) p c.toNat
    | none =>
      match x.resend with
      | n :: _ => sendAgain s p n
      | [] =>
        if dataReady s p && decide (x.replay.length < 512) && x.lp = .none then sendNew s p
        else sendCtl s p 0

/-- The key sets `l` with the bits of a running injection inverted on its lane (R259). -/
def injectKeys (s : State) (p : Nat) (l : List KeySetBits) : List KeySetBits :=
  let x := (s.port p).phy
  let m := keyLanes s p
  if bit m x.injLane.toNat then
    l.modify (lanePlace m x.injLane.toNat) (fun k => k ^^^ BitVec.ofNat 256 (2 ^ min x.injLeft 256 - 1))
  else l

/-- A key set is sent on every lane that sends (R279, R281); it counts once one of its kind has been received. -/
def keysOut (s : State) (p : Nat) : State :=
  s.modPort p (fun x => { x with
    lastKs := injectKeys s p (keySetsOut s p)
    ksSent := x.ksSent + b2n x.ksHeard
    phy := { x.phy with injLeft := x.phy.injLeft - 256 } })

/-- A flit time of the selected pattern on the lanes that generators drive (R257 to R259); an idle lane shows zeros. -/
def patternOut (s : State) (p : Nat) : State :=
  let x := (s.port p).phy
  let inj := if txLive s p x.injLane.toNat then spread x.injLane.toNat (2 ^ min x.injLeft 32 - 1) else 0
  let f := patternBits s p ^^^ inj
  (moveGens s p).modPort p (fun y => { y with
    lastTx := BitVec.ofNat 512 f
    phy := { y.phy with injLeft := y.phy.injLeft - 32 } })

/-- FLIT_SLOT (R289): a flit, during an exchange a key set on each lane (log 44), in test mode a pattern. -/
def execFlitSlot (p : PortN) (s : State) : Out :=
  .next (when (strikeLive s) s
    (if carries s p then flitOut s p else if inKeys s p then keysOut s p
     else if patternRuns s p then patternOut s p else s))

end Sys2Proof.Machine
end

