-- ==== Sys2Proof/Machine/SideBand.lean ====
section
/-! DEFINITION. The I3C target (R486 to R488) and the test port (R490 to R492). -/

namespace Sys2Proof.Machine

open Sys2Proof

/-! ## I3C private transfers (R487) -/

def setI3c (s : State) (f : I3c → I3c) : State := { s with i3c := f s.i3c }

/-- A transfer on the I3C lands: the Sentinel is out of reset. -/
def onI3c (s t : State) : Out := .next (when (sentinelUp s) s t)

/-- Offsets that the Sentinel keeps while Hasp is in reset or the module in Hold (R487). -/
def keptOnI3c (off : Nat) : Bool :=
  [0x00, 0x10, 0x20, 0x24, 0x28, 0x30, 0x40, 0x48, 0x4C].contains off
    || (decide (0x100000 ≤ off) && decide (off < 0x200000))

/-- Offsets that a private read may show: the global, Sentinel and thermal windows, and every fault set (R487). -/
def readableOnI3c (s : State) (off : Nat) : Bool := decide (off < 0x400000) || (fltAt s.part off).isSome

/-- The register that a private read returns at an offset. -/
def i3cReg (s : State) (off : Nat) : Nat :=
  if off % 4 = 0 ∧ (regDef s.part off).isSome ∧ readableOnI3c s off ∧ (haspLive s ∨ keptOnI3c off) then shown s off else 0

/-- I3C_PRIVATE_WRITE (R487): one longer than SETMWL allows, or of another length, does nothing (log 64). -/
def privateWrite (s : State) (b : List Byte) : State :=
  let a := leNat (b.take 4)
  let t := setI3c s (fun x => { x with pointer := BitVec.ofNat 32 a, acked := true })
  if s.i3c.mwl.toNat < b.length then s
  else if b.length = 4 then t
  else if b.length = 8 then
    if a = 0x4C then wrReg t 0x4C (BitVec.ofNat 32 (leNat (b.drop 4))) 0 else paramFault t .sen
  else s

def execI3cPrivateWrite (bytes : List Byte) (s : State) : Out := onI3c s (privateWrite s bytes)

/-- I3C_PRIVATE_READ (R486, R487): at most SETMRL bytes, and never more than 256; the pointer passes each register whose four bytes were read. -/
def privateRead (s : State) (n : Nat) : State :=
  let n := min n (min 256 s.i3c.mrl.toNat)
  let a := s.i3c.pointer.toNat
  let b := (List.range ((n + 3) / 4)).flatMap (fun i => leBytes 4 (i3cReg s ((a + 4 * i) % 2 ^ 32)))
  setI3c s (fun x => { x with out := b.take n, pointer := BitVec.ofNat 32 (a + 4 * (n / 4)), acked := true })

def execI3cPrivateRead (n : Nat) (s : State) : Out := onI3c s (privateRead s n)

/-! ## Common command codes (R486) -/

/-- A CCC that the target accepts. -/
def ccc (s : State) (f : I3c → I3c) : Out := onI3c s (setI3c s (fun x => { f x with acked := true }))

/-- A CCC that returns bytes. -/
def cccGet (s : State) (b : List Byte) : Out := ccc s (fun x => { x with out := b })

/-- A direct CCC that the target does not acknowledge. -/
def nack (s : State) : State := setI3c s (fun x => { x with acked := false })

/-- ENEC (R486, R488): bit 0 names target interrupts. -/
def execEnec (events : BitVec 8) (s : State) : Out :=
  ccc s (fun x => { x with enabled := x.enabled || bit events.toNat 0 })

/-- DISEC (R486, R488). -/
def execDisec (events : BitVec 8) (s : State) : Out :=
  ccc s (fun x => { x with enabled := x.enabled && !bit events.toNat 0 })

/-- RSTDAA (R486). -/
def execRstdaa (s : State) : Out := ccc s (fun x => { x with dynAddr := none })

/-- ENTDAA (R486): a target without a dynamic address takes one. -/
def execEntdaa (addr : BitVec 7) (s : State) : Out :=
  onI3c s (when (s.i3c.dynAddr.isNone) s (setI3c s (fun x => { x with dynAddr := some addr, acked := true })))

/-- The static address (R483). -/
def staticAddr (s : State) : BitVec 7 := BitVec.ofNat 7 (0x50 + fld s 0x48 1 0)

/-- SETDASA (R486): from the static address, while there is no dynamic one. -/
def execSetdasa (static addr : BitVec 7) (s : State) : Out :=
  onI3c s (if static = staticAddr s ∧ s.i3c.dynAddr = none then
      setI3c s (fun x => { x with dynAddr := some addr, acked := true })
    else nack s)

/-- SETNEWDA (R486). -/
def execSetnewda (addr : BitVec 7) (s : State) : Out :=
  onI3c s (if s.i3c.dynAddr.isSome then setI3c s (fun x => { x with dynAddr := some addr, acked := true }) else nack s)

/-- SETMWL (R486). -/
def execSetmwl (n : BitVec 16) (s : State) : Out := ccc s (fun x => { x with mwl := n })

/-- SETMRL (R486). -/
def execSetmrl (n : BitVec 16) (s : State) : Out := ccc s (fun x => { x with mrl := n })

/-- Bytes of a number, most significant first. -/
def beBytes (n v : Nat) : List Byte := (leBytes n v).reverse

/-- The provisional ID: manufacturer, PART, serial number, in the places of MIPI I3C Basic (log 18). -/
def pid (s : State) : Nat :=
  Config.mipiManufacturer.toNat * 2 ^ 33 + s.part.code * 2 ^ 16 + Config.pidInstance.toNat * 2 ^ 12 + Config.serialLow.toNat

/-- GETPID (R486). -/
def execGetpid (s : State) : Out := cccGet s (beBytes 6 (pid s))

/-- GETBCR (R486): 0x06. -/
def execGetbcr (s : State) : Out := cccGet s [0x06]

/-- GETDCR (R486). -/
def execGetdcr (s : State) : Out := cccGet s [Config.i3cDcr]

/-- GETSTATUS (R486): two bytes, whose content the spec does not give (log 65). -/
def execGetstatus (s : State) : Out :=
  let (f, t) := fresh s
  onI3c s (setI3c t (fun x => { x with out := leBytes 2 (f.toNat % 2 ^ 16), acked := true }))

/-- GETMWL (R486). -/
def execGetmwl (s : State) : Out := cccGet s (beBytes 2 s.i3c.mwl.toNat)

/-- GETMRL (R486): the length, and the greatest IBI payload, which the spec does not give (log 65). -/
def execGetmrl (s : State) : Out :=
  let (f, t) := fresh s
  onI3c s (setI3c t (fun x => { x with out := beBytes 2 s.i3c.mrl.toNat ++ leBytes 1 (f.toNat % 2 ^ 8), acked := true }))

/-- UNSUPPORTED_CCC (R486): a direct one is NACKed, a broadcast one ignored. -/
def execUnsupportedCcc (direct : Bool) (s : State) : Out := onI3c s (if direct then nack s else s)

/-! ## Test port (R490, R492) -/

def setJtag (s : State) (f : Jtag → Jtag) : State := { s with jtag := f s.jtag }

/-- The test port is powered from VINT (R482). -/
def onTest (s t : State) : Out := .next (when (s.power.mode != .off) s t)

/-- BYPASS (R490): one bit, captured as 0 (log 14). -/
def bypassed (s : State) : State := setJtag s (fun x => { x with instr := .bypass, capture := 0, driving := false })

def execBypass (s : State) : Out := onTest s (bypassed s)

/-- The IDCODE (R490). -/
def idcodeOf (s : State) : Nat :=
  fld s 0 3 0 * 2 ^ 28 + (0xD100 + s.part.code) * 2 ^ 12 + Config.jedecManufacturer.toNat * 2 + 1

/-- IDCODE (R490). -/
def execIdcode (s : State) : Out :=
  onTest s (setJtag s (fun x => { x with instr := .idcode, capture := BitVec.ofNat 32 (idcodeOf s), driving := false }))

/-- Levels of the sideband lands of R482, PORST_N in bit 0, then WRST_N, TMS, TDI, TCK, TRST_N, I3C_SA0, I3C_SA1, TDO,
PGOOD, ALERT_N, I3C_SCL and I3C_SDA (log 14); those that the model does not hold are free. -/
def lands (s : State) (f : Nat) : Nat :=
  let known := b2n (!s.power.porst) + b2n (!s.power.wrstLow) * 2 + fld s 0x48 1 0 * 2 ^ 6 + fld s (senReg 0) 7 7 * 2 ^ 9
    + b2n (!s.power.alert) * 2 ^ 10
  known + bits f 5 2 * 2 ^ 2 + bits f 8 8 * 2 ^ 8 + bits f 12 11 * 2 ^ 11

/-- The lands are captured, and the boundary cells take the value shifted in. -/
def boundaryScan (s : State) (i : TestInstr) (drive : Bool) (shift : BitVec 13) : State :=
  let (f, s) := fresh s
  let w := lands s f.toNat
  setJtag s (fun x =>
    { x with instr := i, boundary := shift, capture := BitVec.ofNat 32 w, driving := drive })

/-- SAMPLE_PRELOAD (R490). -/
def execSamplePreload (shift : BitVec 13) (s : State) : Out := onTest s (boundaryScan s .samplePreload false shift)

/-- Dies of the serial path from Strike upward: each fitted leaf, L00 first, then Hasp (R491). -/
def stackDies (s : State) : List Die :=
  .strike :: ((List.range s.part.leaves).map (fun l => Die.leaf (Fin.ofNat 34 l)) ++ [.hasp])

/-- Dies that the serial test path runs through: those not bypassed. -/
def testPath (s : State) : List Die := (stackDies s).filter (fun d => !s.jtag.dieBypass.contains d)

/-- EXTEST (R490): acts as BYPASS while LOCK is 1 (R492). -/
def execExtest (shift : BitVec 13) (s : State) : Out :=
  onTest s (if locked s then bypassed s else boundaryScan s .extest true shift)

end Sys2Proof.Machine
end

