-- ==== Sys2Proof/Machine/Dispatch.lean ====
section
/-! DEFINITION. What each command does: one arm per row of spec/opcode_table.json, each one call of its meaning. -/

namespace Sys2Proof.Machine

open Sys2Proof

/-- The effect of a command on everything but the queue. -/
def exec (i : Instr) (s : State) : Host.Outcome State Fault Refusal :=
  match i with
  | .read r => Sys2Proof.Machine.execRead r s
  | .write r => Sys2Proof.Machine.execWrite r s
  | .atomicAdd r => Sys2Proof.Machine.execAtomicAdd r s
  | .atomicSwap r => Sys2Proof.Machine.execAtomicSwap r s
  | .atomicCompareAndSwap r => Sys2Proof.Machine.execAtomicCompareAndSwap r s
  | .atomicAndOr r => Sys2Proof.Machine.execAtomicAndOr r s
  | .waitRelease t => Sys2Proof.Machine.execWaitRelease t s
  | .commandSlot t => Sys2Proof.Machine.execCommandSlot t s
  | .throttleEnd t => Sys2Proof.Machine.execThrottleEnd t s
  | .refreshDue t l k => Sys2Proof.Machine.execRefreshDue t l k s
  | .refreshWake t => Sys2Proof.Machine.execRefreshWake t s
  | .trasmaxExpiry t l g b => Sys2Proof.Machine.execTrasmaxExpiry t l g b s
  | .idleClose t l g b => Sys2Proof.Machine.execIdleClose t l g b s
  | .codeWordDecode t flips => Sys2Proof.Machine.execCodeWordDecode t flips s
  | .cwcWindowExpiry t => Sys2Proof.Machine.execCwcWindowExpiry t s
  | .lightEntry t => Sys2Proof.Machine.execLightEntry t s
  | .wakeComplete t => Sys2Proof.Machine.execWakeComplete t s
  | .quietEntry t => Sys2Proof.Machine.execQuietEntry t s
  | .selfRefreshEntry t => Sys2Proof.Machine.execSelfRefreshEntry t s
  | .selfRefreshExit t => Sys2Proof.Machine.execSelfRefreshExit t s
  | .pwrCfgWrite t v => Sys2Proof.Machine.execPwrCfgWrite t v s
  | .refCfgWrite t v => Sys2Proof.Machine.execRefCfgWrite t v s
  | .rateReqWrite t v => Sys2Proof.Machine.execRateReqWrite t v s
  | .rateQuiesced t => Sys2Proof.Machine.execRateQuiesced t s
  | .rateRelockDone t => Sys2Proof.Machine.execRateRelockDone t s
  | .trnStart t v => Sys2Proof.Machine.execTrnStart t v s
  | .trnAbort t v => Sys2Proof.Machine.execTrnAbort t v s
  | .trnStepBoundary t pass => Sys2Proof.Machine.execTrnStepBoundary t pass s
  | .regionClear c => Sys2Proof.Machine.execRegionClear c s
  | .regionClearDone r => Sys2Proof.Machine.execRegionClearDone r s
  | .sweepStart t r => Sys2Proof.Machine.execSweepStart t r s
  | .sweepLine t r flips => Sys2Proof.Machine.execSweepLine t r flips s
  | .sweepFinish r => Sys2Proof.Machine.execSweepFinish r s
  | .initialSweepLine t => Sys2Proof.Machine.execInitialSweepLine t s
  | .initialSweepFinish t => Sys2Proof.Machine.execInitialSweepFinish t s
  | .groupReinitDone g => Sys2Proof.Machine.execGroupReinitDone g s
  | .patrolScrubRow t flips => Sys2Proof.Machine.execPatrolScrubRow t flips s
  | .remapRow c => Sys2Proof.Machine.execRemapRow c s
  | .remapCopyDone x flips mramOk => Sys2Proof.Machine.execRemapCopyDone x flips mramOk s
  | .leafSwap c => Sys2Proof.Machine.execLeafSwap c s
  | .swapCopyLine t flips => Sys2Proof.Machine.execSwapCopyLine t flips s
  | .swapSwitchPoint t => Sys2Proof.Machine.execSwapSwitchPoint t s
  | .swapRetire t => Sys2Proof.Machine.execSwapRetire t s
  | .leafSwapAbort c => Sys2Proof.Machine.execLeafSwapAbort c s
  | .swapAbandonDone t => Sys2Proof.Machine.execSwapAbandonDone t s
  | .scanStart c => Sys2Proof.Machine.execScanStart c s
  | .scanLineRead k e flips => Sys2Proof.Machine.execScanLineRead k e flips s
  | .scanOutputWrite k bitmap => Sys2Proof.Machine.execScanOutputWrite k bitmap s
  | .scanEnd k => Sys2Proof.Machine.execScanEnd k s
  | .scanCompletionEvent k => Sys2Proof.Machine.execScanCompletionEvent k s
  | .scanAbort c => Sys2Proof.Machine.execScanAbort c s
  | .wardWindowStart => Sys2Proof.Machine.execWardWindowStart s
  | .windowEvaluation => Sys2Proof.Machine.execWindowEvaluation s
  | .linkEnWrite p v => Sys2Proof.Machine.execLinkEnWrite p v s
  | .retrain p v => Sys2Proof.Machine.execRetrain p v s
  | .detectPoll p clk lanes => Sys2Proof.Machine.execDetectPoll p clk lanes s
  | .clockLock p => Sys2Proof.Machine.execClockLock p s
  | .clocklockTimeout p => Sys2Proof.Machine.execClocklockTimeout p s
  | .keySetReceived p lane bits => Sys2Proof.Machine.execKeySetReceived p lane bits s
  | .keySetExchangeComplete p => Sys2Proof.Machine.execKeySetExchangeComplete p s
  | .trainRateRelock p => Sys2Proof.Machine.execTrainRateRelock p s
  | .trainSweepStep p meas => Sys2Proof.Machine.execTrainSweepStep p meas s
  | .ks1Timeout p => Sys2Proof.Machine.execKs1Timeout p s
  | .ks2Timeout p => Sys2Proof.Machine.execKs2Timeout p s
  | .phyRateReqWrite p v => Sys2Proof.Machine.execPhyRateReqWrite p v s
  | .laneLoss p lane => Sys2Proof.Machine.execLaneLoss p lane s
  | .clockLaneLoss p => Sys2Proof.Machine.execClockLaneLoss p s
  | .retrainLaneTestEnd p rx tx => Sys2Proof.Machine.execRetrainLaneTestEnd p rx tx s
  | .retrainTimeout p => Sys2Proof.Machine.execRetrainTimeout p s
  | .upwidth p v => Sys2Proof.Machine.execUpwidth p v s
  | .adaptationStep p meas => Sys2Proof.Machine.execAdaptationStep p meas s
  | .adaptNow p v => Sys2Proof.Machine.execAdaptNow p v s
  | .eqCodeMove p lane => Sys2Proof.Machine.execEqCodeMove p lane s
  | .eqOvrWrite p lane v => Sys2Proof.Machine.execEqOvrWrite p lane v s
  | .eyeScanStart p v => Sys2Proof.Machine.execEyeScanStart p v s
  | .eyeScanAbort p v => Sys2Proof.Machine.execEyeScanAbort p v s
  | .eyeScanDone p counts lowDens => Sys2Proof.Machine.execEyeScanDone p counts lowDens s
  | .lowpowerEntry p => Sys2Proof.Machine.execLowpowerEntry p s
  | .wakeRequest p => Sys2Proof.Machine.execWakeRequest p s
  | .lowpowerExitDone p failed => Sys2Proof.Machine.execLowpowerExitDone p failed s
  | .testModeWrite p v => Sys2Proof.Machine.execTestModeWrite p v s
  | .pgClear p v => Sys2Proof.Machine.execPgClear p v s
  | .injectionGo p v => Sys2Proof.Machine.execInjectionGo p v s
  | .injectionMade p => Sys2Proof.Machine.execInjectionMade p s
  | .dataFlitReceived p raw => Sys2Proof.Machine.execDataFlitReceived p raw s
  | .ks1InActive p lanes => Sys2Proof.Machine.execKs1InActive p lanes s
  | .nakTimeout p => Sys2Proof.Machine.execNakTimeout p s
  | .ackTimeout p => Sys2Proof.Machine.execAckTimeout p s
  | .fc p ctype c => Sys2Proof.Machine.execFc p ctype c s
  | .nak p c => Sys2Proof.Machine.execNak p c s
  | .lpReq p c => Sys2Proof.Machine.execLpReq p c s
  | .lpAck p c => Sys2Proof.Machine.execLpAck p c s
  | .lpDeny p c => Sys2Proof.Machine.execLpDeny p c s
  | .lpIdleTimeout p => Sys2Proof.Machine.execLpIdleTimeout p s
  | .lpReqNoAnswer p => Sys2Proof.Machine.execLpReqNoAnswer p s
  | .credit p c0 c1 c2 => Sys2Proof.Machine.execCredit p c0 c1 c2 s
  | .creditPacketInsert p => Sys2Proof.Machine.execCreditPacketInsert p s
  | .urgencyUpdate p => Sys2Proof.Machine.execUrgencyUpdate p s
  | .cmd p c => Sys2Proof.Machine.execCmd p c s
  | .commandTake src => Sys2Proof.Machine.execCommandTake src s
  | .nop c => Sys2Proof.Machine.execNop c s
  | .csrRead c => Sys2Proof.Machine.execCsrRead c s
  | .csrWrite c => Sys2Proof.Machine.execCsrWrite c s
  | .memRead c => Sys2Proof.Machine.execMemRead c s
  | .memWrite c data => Sys2Proof.Machine.execMemWrite c data s
  | .initDefine c => Sys2Proof.Machine.execInitDefine c s
  | .flowOpen c => Sys2Proof.Machine.execFlowOpen c s
  | .flowClose c => Sys2Proof.Machine.execFlowClose c s
  | .flowCloseDone f => Sys2Proof.Machine.execFlowCloseDone f s
  | .keyDefine c => Sys2Proof.Machine.execKeyDefine c s
  | .keyRevoke c => Sys2Proof.Machine.execKeyRevoke c s
  | .keyChangeDone k => Sys2Proof.Machine.execKeyChangeDone k s
  | .adminSet c => Sys2Proof.Machine.execAdminSet c s
  | .classSet c => Sys2Proof.Machine.execClassSet c s
  | .guaranteeSet c => Sys2Proof.Machine.execGuaranteeSet c s
  | .planSet c => Sys2Proof.Machine.execPlanSet c s
  | .pairForm c => Sys2Proof.Machine.execPairForm c s
  | .pairFormTimeout => Sys2Proof.Machine.execPairFormTimeout s
  | .pairLeave c => Sys2Proof.Machine.execPairLeave c s
  | .pairResync c => Sys2Proof.Machine.execPairResync c s
  | .pairHomeSet c => Sys2Proof.Machine.execPairHomeSet c s
  | .hello p k => Sys2Proof.Machine.execHello p k s
  | .helloHeartbeat => Sys2Proof.Machine.execHelloHeartbeat s
  | .fwd p k => Sys2Proof.Machine.execFwd p k s
  | .replica p k => Sys2Proof.Machine.execReplica p k s
  | .pairAck p k => Sys2Proof.Machine.execPairAck p k s
  | .clear p k => Sys2Proof.Machine.execClear p k s
  | .clearAck p k => Sys2Proof.Machine.execClearAck p k s
  | .home p k => Sys2Proof.Machine.execHome p k s
  | .homeAck p k => Sys2Proof.Machine.execHomeAck p k s
  | .portmap p k => Sys2Proof.Machine.execPortmap p k s
  | .portmapAck p k => Sys2Proof.Machine.execPortmapAck p k s
  | .fence p k => Sys2Proof.Machine.execFence p k s
  | .unfence p k => Sys2Proof.Machine.execUnfence p k s
  | .map p k => Sys2Proof.Machine.execMap p k s
  | .resyncDone p k => Sys2Proof.Machine.execResyncDone p k s
  | .resyncLine p k => Sys2Proof.Machine.execResyncLine p k s
  | .resultReadData p k => Sys2Proof.Machine.execResultReadData p k s
  | .resultReject p k => Sys2Proof.Machine.execResultReject p k s
  | .resyncCopyLine t flips => Sys2Proof.Machine.execResyncCopyLine t flips s
  | .mirrorPortLoss p => Sys2Proof.Machine.execMirrorPortLoss p s
  | .partnerLossTimeout => Sys2Proof.Machine.execPartnerLossTimeout s
  | .divergedCommit mramOk => Sys2Proof.Machine.execDivergedCommit mramOk s
  | .unitDisable c => Sys2Proof.Machine.execUnitDisable c s
  | .unitEnable c => Sys2Proof.Machine.execUnitEnable c s
  | .shutdownComplete u => Sys2Proof.Machine.execShutdownComplete u s
  | .unitStartDone u => Sys2Proof.Machine.execUnitStartDone u s
  | .powerState c => Sys2Proof.Machine.execPowerState c s
  | .holdStopPoint => Sys2Proof.Machine.execHoldStopPoint s
  | .calRun c res => Sys2Proof.Machine.execCalRun c res s
  | .calStore c mramOk => Sys2Proof.Machine.execCalStore c mramOk s
  | .calRestore c => Sys2Proof.Machine.execCalRestore c s
  | .cntConfig c => Sys2Proof.Machine.execCntConfig c s
  | .logRead c => Sys2Proof.Machine.execLogRead c s
  | .eventSubscribe c => Sys2Proof.Machine.execEventSubscribe c s
  | .fwLoad c mramOk => Sys2Proof.Machine.execFwLoad c mramOk s
  | .fwCommit c mramOk => Sys2Proof.Machine.execFwCommit c mramOk s
  | .fwActivate c => Sys2Proof.Machine.execFwActivate c s
  | .fwCoreRestart n pass => Sys2Proof.Machine.execFwCoreRestart n pass s
  | .coreRestart n v => Sys2Proof.Machine.execCoreRestart n v s
  | .ringEnWrite n v => Sys2Proof.Machine.execRingEnWrite n v s
  | .ringCommandFetch n bytes => Sys2Proof.Machine.execRingCommandFetch n bytes s
  | .replyWrite n => Sys2Proof.Machine.execReplyWrite n s
  | .dmaError n => Sys2Proof.Machine.execDmaError n s
  | .usb4LinkLoss => Sys2Proof.Machine.execUsb4LinkLoss s
  | .bar0Access off size data => Sys2Proof.Machine.execBar0Access off size data s
  | .sourceAccept src => Sys2Proof.Machine.execSourceAccept src s
  | .eventClaim c src => Sys2Proof.Machine.execEventClaim c src s
  | .wfi c => Sys2Proof.Machine.execWfi c s
  | .evcSrcCfgWrite src v => Sys2Proof.Machine.execEvcSrcCfgWrite src v s
  | .evcEoi v => Sys2Proof.Machine.execEvcEoi v s
  | .evcSwRaise v => Sys2Proof.Machine.execEvcSwRaise v s
  | .cntClr src v => Sys2Proof.Machine.execCntClr src v s
  | .faultDetected b cls detail merged => Sys2Proof.Machine.execFaultDetected b cls detail merged s
  | .fltStatAck b v => Sys2Proof.Machine.execFltStatAck b v s
  | .shadowEnd b => Sys2Proof.Machine.execShadowEnd b s
  | .logFlush mramOk => Sys2Proof.Machine.execLogFlush mramOk s
  | .latchTick => Sys2Proof.Machine.execLatchTick s
  | .dumpComplete => Sys2Proof.Machine.execDumpComplete s
  | .brownOut slope => Sys2Proof.Machine.execBrownOut slope s
  | .drainComplete t => Sys2Proof.Machine.execDrainComplete t s
  | .mramCommitDone => Sys2Proof.Machine.execMramCommitDone s
  | .vinRecovery => Sys2Proof.Machine.execVinRecovery s
  | .holdExitVin => Sys2Proof.Machine.execHoldExitVin s
  | .holdVinLow => Sys2Proof.Machine.execHoldVinLow s
  | .vinHigh => Sys2Proof.Machine.execVinHigh s
  | .railSequenceStep => Sys2Proof.Machine.execRailSequenceStep s
  | .ivrRampStep r => Sys2Proof.Machine.execIvrRampStep r s
  | .senIvrTargetWrite r v => Sys2Proof.Machine.execSenIvrTargetWrite r v s
  | .quietBitWrite w v => Sys2Proof.Machine.execQuietBitWrite w v s
  | .thermalEvaluation x => Sys2Proof.Machine.execThermalEvaluation x s
  | .speedMonitorRead m freq => Sys2Proof.Machine.execSpeedMonitorRead m freq s
  | .busDelayStep t => Sys2Proof.Machine.execBusDelayStep t s
  | .refclkLoss => Sys2Proof.Machine.execRefclkLoss s
  | .refclkReturn => Sys2Proof.Machine.execRefclkReturn s
  | .timeLoRead path => Sys2Proof.Machine.execTimeLoRead path s
  | .gblLockSet v => Sys2Proof.Machine.execGblLockSet v s
  | .registerWrite path off v => Sys2Proof.Machine.execRegisterWrite path off v s
  | .readClear path off => Sys2Proof.Machine.execReadClear path off s
  | .porstN => Sys2Proof.Machine.execPorstN s
  | .wrstN => Sys2Proof.Machine.execWrstN s
  | .wrstNRise => Sys2Proof.Machine.execWrstNRise s
  | .portLogicReset p => Sys2Proof.Machine.execPortLogicReset p s
  | .bootStage => Sys2Proof.Machine.execBootStage s
  | .tumblerGroupStart g => Sys2Proof.Machine.execTumblerGroupStart g s
  | .i3cPrivateWrite bytes => Sys2Proof.Machine.execI3cPrivateWrite bytes s
  | .i3cPrivateRead n => Sys2Proof.Machine.execI3cPrivateRead n s
  | .enec events => Sys2Proof.Machine.execEnec events s
  | .disec events => Sys2Proof.Machine.execDisec events s
  | .rstdaa => Sys2Proof.Machine.execRstdaa s
  | .entdaa addr => Sys2Proof.Machine.execEntdaa addr s
  | .setdasa static addr => Sys2Proof.Machine.execSetdasa static addr s
  | .setnewda addr => Sys2Proof.Machine.execSetnewda addr s
  | .setmwl n => Sys2Proof.Machine.execSetmwl n s
  | .setmrl n => Sys2Proof.Machine.execSetmrl n s
  | .getpid => Sys2Proof.Machine.execGetpid s
  | .getbcr => Sys2Proof.Machine.execGetbcr s
  | .getdcr => Sys2Proof.Machine.execGetdcr s
  | .getstatus => Sys2Proof.Machine.execGetstatus s
  | .getmwl => Sys2Proof.Machine.execGetmwl s
  | .getmrl => Sys2Proof.Machine.execGetmrl s
  | .unsupportedCcc direct => Sys2Proof.Machine.execUnsupportedCcc direct s
  | .bypass => Sys2Proof.Machine.execBypass s
  | .idcode => Sys2Proof.Machine.execIdcode s
  | .samplePreload shift => Sys2Proof.Machine.execSamplePreload shift s
  | .extest shift => Sys2Proof.Machine.execExtest shift s
  | .flitSlot p => Sys2Proof.Machine.execFlitSlot p s
  | .frontStageStart => Sys2Proof.Machine.execFrontStageStart s
  | .frontStageStop => Sys2Proof.Machine.execFrontStageStop s
  | .holdOkChange ok => Sys2Proof.Machine.execHoldOkChange ok s
  | .leafSelfRefresh l z temp => Sys2Proof.Machine.execLeafSelfRefresh l z temp s
  | .usb4Reset => Sys2Proof.Machine.execUsb4Reset s

end Sys2Proof.Machine
end

