-- ==== Sys2Proof/Machine/Tick.lean ====
section
/-! DEFINITION. One tick of the always-on timebase (R33) and the half-open windows that it moves (R37). -/

namespace Sys2Proof.Machine

open Sys2Proof

/-- The timebase advances by one tick; an event stamped at a boundary belongs to the window that begins there (R37). -/
def tick (s : State) : State := dumpTick (wardTick { s with now := s.now + 1 })

end Sys2Proof.Machine
end

