-- ==== Sys2Proof/Machine/Step.lean ====
section
/-! DEFINITION. One step: the command at the front of the queue is performed; on an empty queue the always-on
timebase ticks (R33, log 25). -/

namespace Sys2Proof.Machine

open Sys2Proof

/-- The module with nothing to do: the timebase advances by one tick of 160 ns while the Sentinel is out of reset
(R33), and the windows that end there end. -/
def idle (s : State) : State := when (sentinelUp s) s (tick s)

/-- Takes the command at the front of the queue and performs it with the queue's rest. -/
def step (s : State) : Host.Outcome State Fault Refusal :=
  match s.pending with
  | [] => .next (idle s)
  | c :: rest => exec c { s with pending := rest }

/-- `s` with the command that a table word spells put at the front of its queue; no row of the table gives bits. -/
def State.withFetchWord (s : State) (nbits w : Nat) : State :=
  match decodeTableWord nbits w with
  | some c => { s with pending := c :: s.pending }
  | none => s

end Sys2Proof.Machine
end

