-- ==== Sys2Proof/Safety.lean ====
section
/-! DEFINITION. What the spec promises of every run: byte memories and the register file stay canonical data, and a
command stops the block only where it names a leaf that the part does not have. The words in which statements speak of
a command's next state. -/

namespace Sys2Proof.Machine

open Sys2Proof

/-- The canonical form of a byte memory: addresses strictly rising, no entry of value 0 (log 4, log 5). -/
def Memory.wf (m : List Host.Cell) : Bool := Tab.wf (fun _ => (0 : BitVec 8)) m

/-- The memories and the register file of a state are in canonical form. -/
def Canonical (s : State) : Prop :=
  Memory.wf s.dram = true ∧ Memory.wf s.mram = true ∧ Tab.wf (regReset s.part) s.csr = true

/-- A step that goes on. -/
def Continues (o : Host.Outcome State Fault Refusal) : Prop := ∃ t, o = .next t

/-- The command completes: its outcome is a next state, and `P` holds of it. -/
def Completes (i : Instr) (s : State) (P : State → Prop) : Prop := ∃ t, exec i s = .next t ∧ P t

/-- One byte of the leaf arrays. -/
def dramByte (s : State) (a : Nat) : Byte := tget zero s.dram a

/-- One byte of MRAM. -/
def mramByte (s : State) (a : Nat) : Byte := tget zero s.mram a

/-- Every byte of the leaf arrays and of MRAM reads as before. -/
def SameMemory (s t : State) : Prop := ∀ a, dramByte t a = dramByte s a ∧ mramByte t a = mramByte s a

/-- Every register outside `l` holds the bits it held. -/
def RegsBut (l : List Nat) (s t : State) : Prop := ∀ o, o ∉ l → rd t o = rd s o

/-- Every register that `p` does not name holds the bits it held. -/
def RegsOutside (p : Nat → Prop) (s t : State) : Prop := ∀ o, ¬ p o → rd t o = rd s o

/-- Every tumbler but `n` is as before. -/
def TumsBut (n : Nat) (s t : State) : Prop := ∀ k, k ≠ n → t.tum k = s.tum k

/-- Every Fellor port but `n` is as before. -/
def PortsBut (n : Nat) (s t : State) : Prop := ∀ k, k ≠ n → t.port k = s.port k

/-- Every byte of the leaf arrays outside the line in column `col` of place `l` of tumbler `t` reads as before. -/
def DramBut (t : Nat) (l : Loc) (col : Nat) (s u : State) : Prop :=
  ∀ a, a < 10 * wordKey t l col 0 ∨ 10 * wordKey t l col 0 + 80 ≤ a → dramByte u a = dramByte s a

/-- Every byte of the leaf arrays outside the lines in column `col` of the places `ls` of tumbler `t` reads as before. -/
def LinesBut (t : Nat) (ls : List Loc) (col : Nat) (s u : State) : Prop :=
  ∀ a, (∀ l ∈ ls, a < 10 * wordKey t l col 0 ∨ 10 * wordKey t l col 0 + 80 ≤ a) → dramByte u a = dramByte s a

/-- Every check of a list passes. -/
def Passes (l : List (Bool × BitVec 16)) : Prop := ∀ e ∈ l, e.1 = false

/-- What an access makes of clean words (R140, R144): DATA where the EPOCH is the region's, zero elsewhere. -/
def gotOf (ws : List CodeWord) (e : Nat) : List Got :=
  (List.range 8).map (fun w =>
    let d := decodeWord (ws.getD w 0)
    { data := if d.epoch = e then d.data else 0, live := d.epoch == e, poison := false, corrected := false,
      wroteBack := false, word := d.word, cls := .clean })

/-- What an access makes of a line that holds clean words. -/
def gotClean (s : State) (t : Nat) (l : Loc) (x e : Nat) : List Got := gotOf (lineWords s t l x) e

/-- What a line operation takes of line `x` at place `l`: the words of its slot where that holds the whole line (R79), else
the clean words that the line holds. -/
def gotLine (s : State) (t x : Nat) (l : Loc) (e : Nat) : List Got :=
  match wholeSlot s t x with
  | some k => (List.range 8).map (fun w => slotGot k w e)
  | none => gotClean s t l x e

/-- A read of line `x` at place `l` finds every word without error. -/
def ReadsClean (s : State) (t x : Nat) (l : Loc) : Prop :=
  wholeSlot s t x = none → ∀ w, w < 8 → (decodeWord (getWord s t l (lineCol x) w)).cls = .clean

/-- The reply of a command (R360). -/
def replyOf (c : Cmd) (st : BitVec 16) (result : Nat) (data : List Byte) : Reply :=
  { src := c.src, initiator := c.initiator, opcode := c.opcode, tag := c.tag, status := st,
    result := BitVec.ofNat 64 result, data := data }

/-- A leaf that an event command names. -/
def namedLeaf : Instr → Option LeafN
  | .refreshDue _ l _ => some l
  | .trasmaxExpiry _ l _ _ => some l
  | .idleClose _ l _ _ => some l
  | .leafSelfRefresh l _ _ => some l
  | _ => none

/-- A command slot passes (R73). -/
def slotPasses (s : State) (t : Nat) : State := advance s t 1

/-- What a command slot does before it chooses: accesses that a fault shutdown leaves unstarted end (R410), and come the marks of
R130 and the aged accesses of R422. -/
def slotPrepared (s : State) (t : Nat) : State :=
  let s := if (s.tum t).mode.faultShut && tstate s t = .shutting then fenceUnstarted s t else s
  countAged (markThrottled s t) t

end Sys2Proof.Machine
end

