-- ==== Sys2Proof/Certificates/Slice0/Obligations.lean ====
section
/-! DEFINITION. The statements for the provers. Each says what a rule of spec/ says of the block's commands or of one of
its operations; a clause that rests on a choice of the model names its log entry. -/

open Sys2Proof Sys2Proof.Machine

/-! ## The queue and the whole machine -/

/-- A step performs the command at the front of the queue, with the queue's rest. -/
def Obligations.StepPerformsTheFrontCommand : Prop :=
  ∀ (c : Instr) (rest : List Instr) (s : State),
    step { s with pending := c :: rest } = exec c { s with pending := rest }

/-- On an empty queue the always-on timebase advances by one tick while the Sentinel is out of reset (R33; that an empty
queue is one tick is the model's choice, log 25). R37: a regulation window that ends there makes way for the next one, under
the values that the classes' registers hold then, and a latch tick of the dump keeps the counts as they stand; nothing else
changes. -/
def Obligations.EmptyQueueTicksTheTimebase : Prop :=
  ∀ s : State, s.pending = [] →
    (sentinelUp s = false → step s = .next s) ∧
    (sentinelUp s = true → step s = .next (tick s)) ∧
    (let u := tick s
     let now := s.now + 1
     let last := s.ward.winStart + s.ward.winLen
     u.now = now ∧ u.counts = s.counts ∧ u.ports = s.ports ∧ u.pulses = s.pulses ∧ RegsBut [] s u ∧ SameMemory s u ∧
     (now.toNat < last → u.ward = s.ward ∧ u.tums = s.tums) ∧
     (last ≤ now.toNat →
       let n := max 1 (fld s (wrdReg 0) 15 0)
       u.ward.winStart = last ∧ u.ward.winLen = n - last % n ∧ u.ward.begun = false ∧ u.ward.served = [] ∧
       (∃ p, u.ward.prev = some p ∧ p.start = s.ward.winStart ∧ p.len = s.ward.winLen ∧ p.admitted = s.ward.admitted) ∧
       (∀ c ∈ configured s, tget (fun _ => Admitted.init) u.ward.admitted c = classRegs s c)) ∧
     (dumpOn s = true → now.toNat % max 1 (rd s (cntReg 4)).toNat = 0 →
       u.dump = { s.dump with edges := s.dump.edges ++ [(now.toNat, s.counts)] }) ∧
     ((dumpOn s = false ∨ now.toNat % max 1 (rd s (cntReg 4)).toNat ≠ 0) → u.dump = s.dump))

/-- The state after reset is in canonical form, with an empty queue. -/
def Obligations.ResetStateIsCanonical : Prop := Canonical State.reset ∧ State.reset.pending = []

/-- Every step from a canonical state ends in a canonical state: addresses of the memories and offsets of the register
file rise strictly, and no entry equals what an unlisted one reads as. -/
def Obligations.StepKeepsCanonicalForm : Prop :=
  ∀ s t : State, Canonical s → step s = .next t → Canonical t

/-- No command changes the part or the queue behind it. -/
def Obligations.CommandsLeaveQueueAndPart : Prop :=
  ∀ (i : Instr) (s t : State), exec i s = .next t → t.pending = s.pending ∧ t.part = s.part

/-- A command stops the block only where it names a leaf that the part does not have (R1): then it faults; every other
command goes on, and none is refused. -/
def Obligations.OnlyAnAbsentLeafStops : Prop :=
  ∀ (i : Instr) (s : State),
    ((∀ l, namedLeaf i = some l → l.val < s.part.leaves) → Continues (exec i s)) ∧
    (∀ l, namedLeaf i = some l → s.part.leaves ≤ l.val → exec i s = .fault .leafNotFitted)

/-! ## Code words, addresses -/

/-- R140: a stored word without an error, with one bit in error at any of the 80 positions, or with two, is decoded to
the DATA, EPOCH and word that were encoded, in the classes clean, single and double; a poisoned word (R141) is classed
poisoned, with DATA zero and its EPOCH. -/
def Obligations.OneAndTwoBitErrorsAreCorrected : Prop :=
  ∀ d e : Nat, d < 2 ^ 64 → e < 4 →
    decodeWord (encodeWord d e) = { cls := .clean, data := d, epoch := e, word := encodeWord d e } ∧
    (∀ i, i < 80 → decodeWord (encodeWord d e ^^^ BitVec.ofNat 80 (2 ^ i)) =
      { cls := .single, data := d, epoch := e, word := encodeWord d e }) ∧
    (∀ i j, i < j → j < 80 → decodeWord (encodeWord d e ^^^ BitVec.ofNat 80 (2 ^ i) ^^^ BitVec.ofNat 80 (2 ^ j)) =
      { cls := .double, data := d, epoch := e, word := encodeWord d e }) ∧
    decodeWord (poisonWord e) = { cls := .poisoned, data := 0, epoch := e, word := poisonWord e }

/-- R46: in every interleave mode the mapping from addresses to tumbler and tumbler-local offset is the one that the
rule's procedure gives, and a bijection onto 64 spaces of 2^(W − 6) bytes. -/
def Obligations.InterleaveIsABijection : Prop :=
  ∀ (p : Part) (m : Nat), m < 3 →
    (∀ a, a < 2 ^ p.addrWidth →
      (m = 2 → mapAddr m a = (bits a 29 24, a / 2 ^ 30 * 2 ^ 24 + a % 2 ^ 24)) ∧
      (m ≠ 2 →
        let k := if m = 0 then 8 else 12
        mapAddr m a = ((List.range 7).foldl (fun t i => t ^^^ bits a (k + 6 * i + 5) (k + 6 * i)) 0,
          a / 2 ^ (k + 6) * 2 ^ k + a % 2 ^ k))) ∧
    (∀ a, a < 2 ^ p.addrWidth → (mapAddr m a).1 < 64 ∧ (mapAddr m a).2 < 2 ^ (p.addrWidth - 6)) ∧
    (∀ a b, a < 2 ^ p.addrWidth → b < 2 ^ p.addrWidth → mapAddr m a = mapAddr m b → a = b) ∧
    (∀ t x, t < 64 → x < 2 ^ (p.addrWidth - 6) → ∃ a, a < 2 ^ p.addrWidth ∧ mapAddr m a = (t, x))

/-- A code word stored in the leaf arrays reads back, every other code word of every tumbler reads as before, and MRAM
and the registers do not change. R140, R144: a line that returns to a read, in which the RD found words without error, gives the
DATA of the words of the region's EPOCH, and zero for the others; the read is served with its last line; without a
line on its way nothing happens. -/
def Obligations.StoredWordsReadBack : Prop :=
  (∀ (s : State) (t col w u col' w' : Nat) (l l' : Loc) (v : CodeWord),
    (t < 64 ∧ l.leaf < 34 ∧ l.group < 8 ∧ l.bank < 4 ∧ l.row < 16400 ∧ col < 16 ∧ w < 8) →
    (u < 64 ∧ l'.leaf < 34 ∧ l'.group < 8 ∧ l'.bank < 4 ∧ l'.row < 16400 ∧ col' < 16 ∧ w' < 8) →
    getWord (putWord s t l col w v) t l col w = v ∧
    ((u, l', col', w') ≠ (t, l, col, w) →
      getWord (putWord s t l col w v) u l' col' w' = getWord s u l' col' w') ∧
    (putWord s t l col w v).mram = s.mram ∧ (putWord s t l col w v).csr = s.csr) ∧
  (∀ (s : State) (t : Tum), (s.tum t).q.flight = [] → ∀ flips, exec (.codeWordDecode t flips) s = .next s) ∧
  (∀ (s : State) (t : Tum) (f : Flight) (rest : List Flight), (s.tum t).q.flight = f :: rest → f.acc.tum = t →
    isRead f.acc = true → (∀ w, w < 8 → (decodeWord (f.words.getD w 0)).cls = .clean) →
    let y := asmAdd (asmOf (s.tum t).q f.acc) f.sub ((gotOf f.words f.acc.epoch.toNat).map gotPart)
    (y.left ≠ 0 → Completes (.codeWordDecode t []) s (fun u => (u.tum t).q.flight = rest ∧
      (u.tum t).q.asm = ((s.tum t).q.asm.filter (fun z => z.id != f.acc.id)) ++ [y] ∧
      (u.tum t).q.queue = (s.tum t).q.queue ∧ TumsBut t s u ∧ RegsBut [] s u ∧ SameMemory s u)) ∧
    (y.left = 0 → ∃ b, exec (.codeWordDecode t []) s = .next (readServed b f.acc (asmCmp f.acc y)) ∧
      (b.tum t).q.flight = rest ∧ (∀ z ∈ (b.tum t).q.asm, z.id ≠ f.acc.id) ∧ RegsBut [] s b ∧ SameMemory s b))

/-! ## Registers -/

/-- R12, R13: what a write of `v` leaves of each bit of a register, by the type of the bit; `rej` marks the bits of
fields whose written value is rejected (R17). RO, RC and WO bits keep what they hold. -/
def Obligations.RegisterBitsFollowTheirTypes : Prop :=
  ∀ (d : RegDef) (lock : Bool) (old v rej i : Nat), i < 32 →
    (d.rw ||| d.rwl ||| d.w1c ||| d.w1s) < 2 ^ 32 →
    (d.rw ||| d.rwl) &&& d.w1c = 0 → (d.rw ||| d.rwl) &&& d.w1s = 0 → d.w1c &&& d.w1s = 0 → d.rw &&& d.rwl = 0 →
    let n := bit (written d lock old v rej) i
    (bit d.rw i = true → n = if bit rej i then bit old i else bit v i) ∧
    (bit d.rwl i = true → n = if lock || bit rej i then bit old i else bit v i) ∧
    (bit d.w1c i = true → n = (bit old i && !bit v i)) ∧
    (bit d.w1s i = true → n = (bit old i || bit v i)) ∧
    (bit (d.rw ||| d.rwl ||| d.w1c ||| d.w1s) i = false → n = bit old i)

/-! ## Requests -/

/-- R38, R63, R69: a request is taken where it is the oldest of its port's store, which a new one joins; one of any type (read, write or
an atomic) that fails a check completes at once with the status of the check, without data; its flow counts the failure (R54 word 3,
saturating); no access is accepted, and memory and every other register are as before. While the completion buffer is full, it
waits in the store (R304). -/
def Obligations.RejectedRequestCompletesWithItsStatus : Prop :=
  ∀ (i : Instr) (ty : Nat) (r : Req) (s : State),
    (i, ty) ∈ [(Instr.read r, 0), (.write r, 1), (.atomicAdd r, 2), (.atomicSwap r, 3),
      (.atomicCompareAndSwap r, 4), (.atomicAndOr r, 5)] →
    let pkt := usedBits (encodeReq ty r)
    let w := received s r.port (encodeReq ty r)
    takesReq s r.port (encodeReq ty r) = true →
    ((∀ e, nextPkt w r.port 4 = some e → e.2 ≠ pkt) → exec i s = .next w) ∧
    (∀ (st : BitVec 4) (stamp : BitVec 64), nextPkt w r.port 4 = some (stamp, pkt) → 8 ≤ r.len.toNat →
      checkReq s ty r = some st →
      (512 ≤ (s.port r.port).cmpBuf.length → exec i s = .next w) ∧
      ((s.port r.port).cmpBuf.length < 512 → Completes i s (fun u =>
        (u.port r.port).rxPkts = (w.port r.port).rxPkts.eraseP (fun e => e.2 == pkt) ∧
        (u.port r.port).cmpBuf = (s.port r.port).cmpBuf ++
          [{ flow := r.flow, initiator := r.initiator, tag := r.tag, status := st, unwritten := false, corrected := false,
             partner := false, poison := 0, bytes := 0, data := 0 }] ∧
        (r.flow ≠ 0 → fld u (flwReg r.flow.toNat 3) 31 0 = min (fld s (flwReg r.flow.toNat 3) 31 0 + 1) 0xFFFFFFFF) ∧
        RegsBut (if r.flow = 0 then [] else [flwReg r.flow.toNat 3]) s u ∧
        u.live = s.live ∧ u.waiting = s.waiting ∧ u.tums = s.tums ∧ PortsBut r.port s u ∧ SameMemory s u)))

/-- R36, R54, R61 to R65, R208: a request of any type that passes the checks of R63 is accepted: its flow counts it as
outstanding and takes the receive stamp of its packet, and an access with the request's operands, the flow's class and the
effective urgency goes before the tumbler that R46 names. An access that arrives goes on where it is the best waiting access
of its tumbler (R207), and waits otherwise, which counter 32 of the tumbler counts. -/
def Obligations.AcceptedRequestBecomesAnAccess : Prop :=
  (∀ (i : Instr) (ty : Nat) (r : Req) (s : State) (stamp : BitVec 64),
     (i, ty) ∈ [(Instr.read r, 0), (.write r, 1), (.atomicAdd r, 2), (.atomicSwap r, 3),
       (.atomicCompareAndSwap r, 4), (.atomicAndOr r, 5)] →
     takesReq s r.port (encodeReq ty r) = true → 8 ≤ r.len.toNat → checkReq s ty r = none →
     nextPkt (received s r.port (encodeReq ty r)) r.port 4 = some (stamp, usedBits (encodeReq ty r)) →
     ∃ (b : State) (a : Access), exec i s = .next (arrive b a) ∧
       a.id = s.nextId ∧ a.kind = kindOf ty r.size ∧ a.src = .flow r.flow ∧ a.port = some r.port ∧ a.flow = r.flow ∧
       a.initiator = r.initiator ∧ a.tag = r.tag ∧ a.hint = r.hint ∧ a.addr = r.addr ∧ a.be = r.be ∧ a.data = r.data ∧
       a.op1 = r.op1 ∧ a.op2 = r.op2 ∧ (a.tum.val, a.line) = lineOf s r.addr.toNat ∧
       a.cls = BitVec.ofNat 8 (flwClass s r.flow.toNat) ∧
       a.urg = effUrgency s r.port r.urgency (flwClass s r.flow.toNat) ∧
       b.live = s.live ++ [(s.nextId, r.flow, BitVec.ofNat 12 (flwKey s r.flow.toNat))] ∧
       fld b (flwReg r.flow.toNat 2) 15 0 = (fld s (flwReg r.flow.toNat 2) 15 0 + 1) % 65536 ∧
       rd b (flwReg r.flow.toNat 6) = stamp.extractLsb' 0 32 ∧ rd b (flwReg r.flow.toNat 7) = stamp.extractLsb' 32 32 ∧
       RegsBut [flwReg r.flow.toNat 2, flwReg r.flow.toNat 6, flwReg r.flow.toNat 7] s b ∧
       b.waiting = s.waiting ∧ b.tums = s.tums ∧ PortsBut r.port s b ∧ SameMemory s b) ∧
  (∀ (s : State) (a : Access),
     let w := { s with waiting := s.waiting ++ [a], nextId := s.nextId + 1 }
     ((∃ b, bestWaiting w a.tum = some b ∧ b.id = a.id) → arrive s a = release w a) ∧
     ((∀ b, bestWaiting w a.tum = some b → b.id ≠ a.id) → arrive s a = count w (cTum a.tum 32) 1) ∧
     (∀ b, bestWaiting w a.tum = some b → b ∈ w.waiting ∧ canGo w b = true ∧
       ∀ c ∈ w.waiting, c.tum = a.tum → canGo w c = true → (urgency w c).toNat ≤ (urgency w b).toNat))

/-- R78, R144, R207: WAIT_RELEASE lets the best waiting access of a tumbler go: a 64-byte read served here whose line no
queued access and no slot touches joins the end of the tumbler queue, under the region's EPOCH and at the place that
leaf map and remap give. -/
def Obligations.ReleasedReadEntersTheQueue : Prop :=
  ∀ (s : State) (t : Tum) (a : Access) (f : BitVec 18), bestWaiting s t = some a →
    a.src = .flow f → a.kind = .read64 → a.ftag = none → accOrder s a = .local →
    (∀ b ∈ (s.tum t).q.queue, ∀ i, i < 4 → pendsOn b (a.line + i) = false) →
    (∀ i, i < 4 → slotOf (s.tum t).q (a.line + i) = none) →
    Completes (.waitRelease t) s (fun u =>
      u.waiting = s.waiting.filter (fun b => b.id != a.id) ∧
      (∃ e, (u.tum t).q.queue = (s.tum t).q.queue ++ [e] ∧ e.id = a.id ∧ e.line = a.line ∧ e.stage = .needRd 1 ∧
        e.epoch = BitVec.ofNat 2 (rgnEpoch s (regionOf a.addr.toNat)) ∧ e.loc = placeOf s t a.line ∧
        e.enterTime = (s.tum t).dram.time ∧ e.enterSlot = (s.tum t).dram.slot) ∧
      (u.tum t).q.slots = (s.tum t).q.slots ∧ TumsBut t s u ∧ RegsBut [] s u ∧ SameMemory s u)

/-! ## Tumbler slots -/

/-- R80, R81, R114, R115, R88: what one command slot does: nothing issues during a relock, and only a precharge while
selection is stopped; a due refresh or near-row refresh goes first, then the closing of a row, then the chosen access, then an
opportunistic refresh where the slot may carry a row command; the slot counter and the time advance in every case. -/
def Obligations.CommandSlotServesInOrder : Prop :=
  ∀ (s : State) (t : Tum),
    (clocked s t = false → exec (.commandSlot t) s = .next s) ∧
    (clocked s t = true →
      let p := slotPrepared s t
      let m := (p.tum t).mode
      (m.rate = .relocking → exec (.commandSlot t) s = .next (slotPasses p t)) ∧
      (m.rate ≠ .relocking → (m.rate ≠ .idle ∨ (p.tum t).training.isSome = true) →
        exec (.commandSlot t) s = .next (slotPasses (quiesceStep p t) t)) ∧
      (m.rate = .idle → (p.tum t).training = none →
        (∀ v, refreshStep p t = (v, true) → exec (.commandSlot t) s = .next (slotPasses (endExcess v t) t)) ∧
        (∀ x, refreshStep p t = (x, false) →
          let v := setPhase x t
          (∀ w, closeStep v t = some w → exec (.commandSlot t) s = .next (slotPasses w t)) ∧
          (closeStep v t = none →
            (∀ w, accessStep v t = some w → exec (.commandSlot t) s = .next (slotPasses w t)) ∧
            (accessStep v t = none → exec (.commandSlot t) s = .next
              (slotPasses (if rowFree (v.tum t).dram then idleRef v t else v) t)))))) ∧
    (let u := slotPasses s t
     (u.tum t).dram = { (s.tum t).dram with
       slot := (s.tum t).dram.slot + 1, time := (s.tum t).dram.time + slotUnits (rateOf s t) } ∧
     TumsBut t s u ∧ RegsBut [] s u ∧ SameMemory s u)

/-- R80: the chosen access is a candidate before which no other candidate goes, and where a candidate is aged only aged
ones are candidates; a slot without candidates carries no access command. -/
def Obligations.ChosenAccessIsFirstOfTheCandidates : Prop :=
  ∀ (s : State) (t : Nat), (∀ a ∈ (s.tum t).q.queue, a.tum.val = t) →
    (accessStep s t = none ↔ candidates s t = []) ∧
    (∀ u, accessStep s t = some u →
      ∃ c ∈ candidates s t, u = issueNeed s c ∧ ∀ d ∈ candidates s t, goesBefore s d c = false) ∧
    (∀ c ∈ candidates s t, aged s c.1 = true → ∀ d ∈ candidates s t, aged s d.1 = true)

/-- R81, R82, R87, R114, R115, R129, R155: the timed events of a tumbler: a refresh set falls due, a tumbler in Light
wakes for refresh, an open row reaches its limit or idles and is marked to close, entries of the throttle and of the
corrected-word cache expire. -/
def Obligations.TumblerTimedEvents : Prop :=
  ∀ (s : State) (t : Tum) (l : LeafN), l.val < s.part.leaves →
    (∀ k : Fin 4, scheduled s t = true → refreshed s t l = true →
      let x := setOf s t l k
      let v := putSet s t l k { x with
        debt := min 15 (x.debt + 1), due := x.due + interval s t l }
      (x.debt + 1 ≤ limitOf s t l ∨ (s.tum t).mode.paying = true → exec (.refreshDue t l k) s = .next v) ∧
      (limitOf s t l < x.debt + 1 → (s.tum t).mode.paying = false →
        exec (.refreshDue t l k) s = .next (fault v (.tum t) 5 0 1))) ∧
    (tstate s t = .light → (s.tum t).mode.wake = .no →
      (∃ e ∈ setsOf s t, limitOf s t e.1 ≤ (setOf s t e.1 e.2).debt + 1) →
      exec (.refreshWake t) s = .next (setMode s t (fun m => { m with state := .online, refreshWake := true }))) ∧
    (∀ (g : Fin 8) (b : Fin 4), (bankAt s t (bankOf l g b)).openRow.isSome = true →
      exec (.trasmaxExpiry t l g b) s =
        .next (putBank s t (bankOf l g b) { bankAt s t (bankOf l g b) with closing := true }) ∧
      (idleRow s t l g b = true → exec (.idleClose t l g b) s =
        .next (putBank s t (bankOf l g b) { bankAt s t (bankOf l g b) with closing := true }))) ∧
    Completes (.throttleEnd t) s (fun u => u = s.setTum t { s.tum t with throttle := (u.tum t).throttle } ∧
      ∀ e, e ∈ (u.tum t).throttle ↔ e ∈ (s.tum t).throttle ∧ s.now.toNat / 200000 < e.alertWin + 2) ∧
    Completes (.cwcWindowExpiry t) s (fun u => u = s.setTum t { s.tum t with cwc := (u.tum t).cwc } ∧
      ∀ e, e ∈ (u.tum t).cwc ↔ e ∈ (s.tum t).cwc ∧ s.now.toNat < e.watch.getD e.first + cwcWindow)

/-- R87, R120 to R123, R443: the power modes of a tumbler: into Light, awake again, into Quiet, into self-refresh in a
thermal emergency, and out of self-refresh. Memory and every register stay as they are. R87, R99, R110, R132, R17:
writes of TUMnn_PWR_CFG and TUMnn_REF_CFG take the fields that are not rejected; an idle time of 0, MULT 0b11 and
POSTPONE above 8 leave their field; clearing GATE_EN wakes a tumbler in Light, and a slice in self-refresh takes SR_GUARD as it
is written (R121). -/
def Obligations.TumblerPowerAndConfiguration : Prop :=
  (∀ (s : State) (t : Tum),
     (running s = true → tstate s t = .online → flag s (tumReg t 0x10) 16 = true → quietBit s t = false →
       idleNow s t = true → debtPaid s t = true → exec (.lightEntry t) s =
         .next (count (setMode s t (fun m => { m with state := .light, refreshWake := false })) (cTum t 12) 1)) ∧
     ((s.tum t).mode.wake ≠ .no → (s.tum t).mode.rate = .idle →
       (tstate s t = .quiet → (s.tum t).mode.emergency = false) →
       Completes (.wakeComplete t) s (fun u => (u.tum t).mode.state = .online ∧ (u.tum t).mode.wake = .no ∧
         (tstate s t = .quiet → (u.tum t).mode.self = false) ∧ TumsBut t s u ∧ RegsBut [] s u ∧ SameMemory s u)) ∧
     (running s = true → (tstate s t = .online ∨ tstate s t = .light) → (s.tum t).mode.wake = .no → quietBit s t = true →
       idleNow s t = true →
       Completes (.quietEntry t) s (fun u => (u.tum t).mode.state = .quiet ∧ (u.tum t).mode.self = true ∧
         TumsBut t s u ∧ RegsBut [] s u ∧ SameMemory s u)) ∧
     ((s.tum t).mode.emergency = true → (s.tum t).mode.self = false → tstate s t ≠ .latchOut → tstate s t ≠ .offline →
       noWrites s t = true →
       Completes (.selfRefreshEntry t) s (fun u => (u.tum t).mode.self = true ∧ (u.tum t).pauseSince.isSome = true ∧
         TumsBut t s u ∧ RegsBut [] s u ∧ SameMemory s u)) ∧
     (mayExit s t = true →
       Completes (.selfRefreshExit t) s (fun u => (u.tum t).mode.self = false ∧ (u.tum t).mode.wake = .no ∧
         (u.tum t).mode.state =
           (if tstate s t = .shutting ∨ tstate s t = .initSweep then tstate s t else .online) ∧
         TumsBut t s u ∧ RegsBut [] s u ∧ SameMemory s u))) ∧
  (∀ (s : State) (t : Tum) (v : Reg32),
     (reaches s (tumReg t 0x10) = true → bits v.toNat 15 0 ≠ 0 →
       Completes (.pwrCfgWrite t v) s (fun u => fld u (tumReg t 0x10) 16 0 = bits v.toNat 16 0 ∧
         (bit v.toNat 16 = false → tstate s t = .light → (s.tum t).mode.wake = .no → (u.tum t).mode.wake = .light) ∧
         RegsBut [tumReg t 0x10] s u ∧ TumsBut t s u ∧ SameMemory s u)) ∧
     (reaches s (tumReg t 0x10) = true → bits v.toNat 15 0 = 0 →
       Completes (.pwrCfgWrite t v) s (fun u => fld u (tumReg t 0x10) 15 0 = fld s (tumReg t 0x10) 15 0 ∧
         flag u (tumReg t 0x10) 16 = bit v.toNat 16)) ∧
     (reaches s (tumReg t 0x20) = true → bits v.toNat 1 0 ≠ 3 → bits v.toNat 7 4 ≤ 8 →
       Completes (.refCfgWrite t v) s (fun u => fld u (tumReg t 0x20) 1 0 = bits v.toNat 1 0 ∧
         fld u (tumReg t 0x20) 11 4 = bits v.toNat 11 4 ∧
         ((s.tum t).mode.self = true → ∀ l, l < s.part.leaves →
           (tget zero (tget noLeaf u.leaves l).guard t : Nat) = bits v.toNat 11 8) ∧
         RegsBut [tumReg t 0x20] s u ∧ TumsBut t s u ∧ SameMemory s u)) ∧
     (reaches s (tumReg t 0x20) = true → bits v.toNat 1 0 = 3 →
       Completes (.refCfgWrite t v) s (fun u => fld u (tumReg t 0x20) 1 0 = fld s (tumReg t 0x20) 1 0)))
/-- R88, R89: a write of TUMnn_RATE that names another rate with valid delays sets CHANGING and stops selection; once
the bus is quiet the relock begins; when it ends the pending rate is in force and selection may go on. R90 to R92,
R105: a training sweep starts at its first value, goes on step by step, ends with the result of every wire of its
operation after the last value, and ends as aborted at the step boundary after ABORT. -/
def Obligations.TrainingAndBusRate : Prop :=
  (∀ (s : State) (t : Tum),
     (∀ v : Reg32, reaches s (tumReg t 8) = true → bits v.toNat 1 0 ≠ 3 → bits v.toNat 1 0 ≠ rateOf s t →
       (s.tum t).training = none → bit v.toNat (8 + bits v.toNat 1 0) = true → (s.tum t).mode.rate = .idle →
       Completes (.rateReqWrite t v) s (fun u => fld u (tumReg t 8) 1 0 = bits v.toNat 1 0 ∧
         flag u (tumReg t 8) 4 = true ∧ (u.tum t).mode.rate = .quiescing ∧ rateOf u t = rateOf s t ∧
         ((tstate s t = .online ∨ tstate s t = .light) → tstate u t = .busy) ∧
         RegsBut [tumReg t 8] s u ∧ TumsBut t s u ∧ SameMemory s u)) ∧
     ((s.tum t).mode.rate = .quiescing → quiet s t = true →
       Completes (.rateQuiesced t) s (fun u => (u.tum t).mode.rate = .relocking ∧ TumsBut t s u ∧ RegsBut [] s u ∧
         SameMemory s u)) ∧
     ((s.tum t).mode.rate = .relocking → flag s (tumReg t 8) 4 = true → (s.tum t).training = none →
       Completes (.rateRelockDone t) s (fun u => rateOf u t = fld s (tumReg t 8) 1 0 ∧ flag u (tumReg t 8) 4 = false ∧
         (u.tum t).mode.rate = .idle ∧ tstate u t ≠ .busy ∧ RegsBut [tumReg t 8] s u ∧ TumsBut t s u ∧
         SameMemory s u))) ∧
  (∀ (s : State) (t : Tum),
     (∀ v : Reg32, reaches s (tumReg t 0x100) = true → 8 ≤ bits v.toNat 17 13 → bits v.toNat 17 13 ≤ 16 →
       bits v.toNat 12 10 ≤ 4 → bits v.toNat 9 4 < s.part.leaves → bit v.toNat 1 = false →
       (s.tum t).training = none → (s.tum t).mode.rate = .idle →
       (tstate s t = .offline ∨ (tstate s t = .online ∧ bits v.toNat 17 13 ≤ 10)) →
       Completes (.trnStart t v) s (fun u => (u.tum t).training = some
           { wasOnline := tstate s t = .online, d := fld s (tumReg t 0x104) 5 0, abort := false, log := [] } ∧
         flag u (tumReg t 0x108) 0 = true ∧ (tstate s t = .online → tstate u t = .busy) ∧
         RegsBut [tumReg t 0x100, tumReg t 0x108] s u ∧ TumsBut t s u ∧ SameMemory s u)) ∧
     (∀ (v : Reg32) (x : Training), reaches s (tumReg t 0x100) = true → 8 ≤ bits v.toNat 17 13 →
       bits v.toNat 17 13 ≤ 16 → bits v.toNat 12 10 ≤ 4 → bit v.toNat 0 = false → (s.tum t).training = some x →
       Completes (.trnAbort t v) s (fun u => (u.tum t).training = some { x with abort := true } ∧
         RegsBut [tumReg t 0x100] s u ∧ TumsBut t s u ∧ SameMemory s u)) ∧
     (∀ (pass : BitVec 336) (x : Training), (s.tum t).training = some x → quiet s t = true →
       (s.tum t).mode.rate = .idle → flag s (tumReg t 8) 4 = false →
       Completes (.trnStepBoundary t pass) s (fun u =>
         let d := x.d + fld s (tumReg t 0x104) 19 16
         (x.abort = true → (u.tum t).training = none ∧ flag u (tumReg t 0x108) 0 = false ∧
           flag u (tumReg t 0x108) 3 = true) ∧
         (x.abort = false → d ≤ fld s (tumReg t 0x104) 13 8 →
           (u.tum t).training = some { x with d := d, log := (x.d, pass) :: x.log }) ∧
         (x.abort = false → fld s (tumReg t 0x104) 13 8 < d → (u.tum t).training = none ∧
           flag u (tumReg t 0x108) 0 = false ∧ flag u (tumReg t 0x108) 1 = true ∧
           ∀ w ∈ opWires (fld s (tumReg t 0x100) 3 2),
             rd u (tumReg t (0x400 + 4 * w)) = BitVec.ofNat 32 (wireResult ((x.d, pass) :: x.log) w)) ∧
         TumsBut t s u ∧ SameMemory s u)))
/-! ## Clears and sweeps -/

/-- R146, R147, R152, R367: outside a pair a REGION_CLEAR that passes its checks moves every named region to its clear
point: the next live EPOCH with one more sweep owed, or, on a change into or out of the tumbler-local mode, EPOCH
0b00 and SWEEP 0b11; a region with a sweep already owed waits; regions outside the range keep EPOCH, SWEEP and
MODE, and no stored word changes. R146, R367: a region past its clear point is done with once its tumblers know; a
command whose last region is done with is answered with SUCCESS. -/
def Obligations.ClearedRegions : Prop :=
  (∀ (s : State) (c : Cmd), ready s c 0x0200 = true → pairUp s = false →
     let first := clrFirst c
     let n := clrCount c
     let m := clrMode c
     0 < n → n ≤ 65536 → first + n ≤ s.part.regions → m ≠ some 3 → partialGroup s first n m = false →
     (∀ i, i < n → clearBusy s (first + i) m = false) → s.mramFenced = false →
     Completes (.regionClear c) s (fun u => c ∈ u.cmds.begun ∧ u.dram = s.dram ∧
       ∀ r, r < s.part.regions →
         (first ≤ r → r < first + n → localChange s r m = true →
           rgnEpoch u r = 0 ∧ rgnSweep u r = 3 ∧ some (BitVec.ofNat 2 (rgnMode u r)) = m) ∧
         (first ≤ r → r < first + n → localChange s r m = false → rgnSweep s r < 2 →
           rgnEpoch u r = nextEpoch (rgnEpoch s r) ∧ rgnSweep u r = rgnSweep s r + 1 ∧
           rgnMode u r = (m.map (·.toNat)).getD (rgnMode s r)) ∧
         ((r < first ∨ first + n ≤ r ∨ rgnSweep s r = 2) →
           rgnEpoch u r = rgnEpoch s r ∧ rgnSweep u r = rgnSweep s r ∧ rgnMode u r = rgnMode s r))) ∧
  (∀ (s : State) (r : BitVec 16) (x : ClearCmd) (c : Cmd), s.clears = [x] → x.passed.contains r.toNat = true →
     x.cmd = some c → x.refused = false →
     (x.held = [] → x.passed.erase r.toNat = [] →
       exec (.regionClearDone r) s = .next (answer { s with clears := [] } c rcSuccess)) ∧
     ((x.held ≠ [] ∨ x.passed.erase r.toNat ≠ []) →
       exec (.regionClearDone r) s = .next { s with clears := [{ x with passed := x.passed.erase r.toNat }] }))
/-- R146 to R149: the sweep of a region in a tumbler: it starts once earlier accesses are performed; each line operation
replaces exactly the words whose EPOCH is neither the region's nor 0b00 by DATA 0 and EPOCH 0b00, on both slices of a leaf swap
(R162), or in the line's slot where that holds the whole line; a gated tumbler is woken for it; when every tumbler has finished,
SWEEP falls by one, and an owed sweep is set up. -/
def Obligations.RegionSweep : Prop :=
  ∀ (s : State) (t : Tum) (r : BitVec 16),
    (∀ i x, sweepIdx s t r.toNat = some i → s.sweeps[i]? = some x → maySweep s t x = true →
      exec (.sweepStart t r) s = .next (wakeTum { s with sweeps := s.sweeps.modify i (fun x =>
        { x with started := true, startTime := (s.tum t).dram.time }) } t)) ∧
    (∀ i x y last flips, sweepIdx s t r.toNat = some i → s.sweeps[i]? = some x → x.started = true → running s = true →
      x.tum = t.val → x.region = r.toNat → sweepNext s x = some (y, last) →
      (lineOpOk s t = false → exec (.sweepLine t r flips) s = .next (wakeTum s t)) ∧
      (lineOpOk s t = true → lineBusy s t y = false →
        let l := placeOf s t y
        lineMay s (lineAccess s t y l .sweep false) = true →
        (wholeSlot s t y = none → Completes (.sweepLine t r flips) s (fun u =>
          u.sweeps[i]? = some { x with ptr := x.ptr + 1, finished := last } ∧
          LinesBut t (l :: (twinOf s t y l).toList) (lineCol y) s u ∧
          ∀ w, w < 8 →
            let d := decodeWord (getWord s t l (lineCol y) w ^^^ flips.getD w 0)
            let stale := d.epoch ≠ rgnEpoch s r.toNat ∧ d.epoch ≠ 0
            d.cls = .clean → getWord u t l (lineCol y) w = (if stale then encodeWord 0 0 else d.word) ∧
              (stale → ∀ m, twinOf s t y l = some m → getWord u t m (lineCol y) w = encodeWord 0 0))) ∧
        (∀ k, wholeSlot s t y = some k → Completes (.sweepLine t r flips) s (fun u =>
          u.sweeps[i]? = some { x with ptr := x.ptr + 1, finished := last } ∧ SameMemory s u)))) ∧
    (sweepOver s r.toNat = true → rgnSweep s r.toNat = 1 →
      Completes (.sweepFinish r) s (fun u => rgnSweep u r.toNat = 0 ∧ rgnEpoch u r.toNat = rgnEpoch s r.toNat ∧
        u.sweeps = s.sweeps.filter (fun x => x.region != r.toNat) ∧ RegsBut [rgnReg r.toNat] s u ∧ u.dram = s.dram)) ∧
    (sweepOver s r.toNat = true → rgnSweep s r.toNat = 2 → heldClear s r.toNat = false →
      Completes (.sweepFinish r) s (fun u => rgnSweep u r.toNat = 1 ∧ rgnEpoch u r.toNat = rgnEpoch s r.toNat ∧
        (∀ x ∈ u.sweeps, x.region = r.toNat → x.started = false ∧ x.ptr = 0) ∧
        (∀ k ∈ regionTums s r.toNat, ∃ x ∈ u.sweeps, x.region = r.toNat ∧ x.tum = k) ∧
        RegsBut [rgnReg r.toNat] s u ∧ u.dram = s.dram))

/-- R151, R152, R381: each line of an initial sweep stores eight words as the sweep in progress writes them; at its end
the tumbler is online, and regions in SWEEP 0b11 that wait for no other tumbler take EPOCH 0b01 and SWEEP 0b00; a group
re-initialised under R152 does so as a whole. -/
def Obligations.InitialSweepAndReinitialisation : Prop :=
  ∀ (s : State) (t : Tum),
    (initOk s t = true → (s.tum t).mode.sweepPtr < tumLines s → lineMay s (initAccess s t) = true →
      let x := (s.tum t).mode.sweepPtr
      let l := placeOf s t x
      wholeSlot s t x = none →
      Completes (.initialSweepLine t) s (fun u => (u.tum t).mode.sweepPtr = x + 1 ∧
        (∀ w, w < 8 → getWord u t l (lineCol x) w = sweepFill s t (regionAt s t x)) ∧
        LinesBut t (l :: (twinOf s t x l).toList) (lineCol x) s u)) ∧
    (initOver s t = true →
      Completes (.initialSweepFinish t) s (fun u => tstate u t = .online ∧ (u.tum t).mode.everOnline = true ∧
        ((s.tum t).mode.sweepPtr = tumLines s → u.dram = s.dram) ∧
        (∀ r, r < s.part.regions → rgnSweep s r = 3 → (∀ x ∈ s.reinits, r ∉ x.regions) →
          (∀ k ∈ regionTums s r, k = t.val ∨ (s.tum k).mode.everOnline = true ∨ tstate s k = .latchOut) →
          rgnEpoch u r = 1 ∧ rgnSweep u r = 0) ∧
        RegsOutside (fun o => ∃ r, r < s.part.regions ∧ rgnSweep s r = 3 ∧ o = rgnReg r) s u)) ∧
    (∀ (g : BitVec 10) (x : Reinit), s.reinits.find? (fun x => x.group = g.toNat) = some x → reinitReady s x = true →
      (∀ r ∈ x.regions, r < 65536) →
      Completes (.groupReinitDone g) s (fun u => u.reinits = s.reinits.filter (fun y => y.group != x.group) ∧
        ∀ r ∈ x.regions, rgnEpoch u r = 1 ∧ rgnSweep u r = 0))

/-! ## Scrub, remap, leaf swap -/

/-- R153, R154, R167: a patrol step scrubs one row of the active slices and moves its pointer on; the last row of a pass
sets the pointer to 0 and counts the pass. -/
def Obligations.PatrolScrubAdvances : Prop :=
  ∀ (s : State) (t : Tum) (flips : List CodeWord) (l k : Nat),
    let p := fld s (tumReg t 0x44) 23 0
    scrubAt s t p = some (l, k) → flag s (tumReg t 0x40) 8 = true → running s = true →
    (lineOpOk s t = false → exec (.patrolScrubRow t flips) s = .next (wakeTum s t)) ∧
    (lineOpOk s t = true → scrubMay s t l k = true → Completes (.patrolScrubRow t flips) s (fun u =>
      (p + 1 < (activeSlices s t).length * sliceRows → fld u (tumReg t 0x44) 23 0 = (p + 1) % 2 ^ 24 ∧
        fld u (tumReg t 0x44) 31 24 = fld s (tumReg t 0x44) 31 24) ∧
      ((activeSlices s t).length * sliceRows ≤ p + 1 → fld u (tumReg t 0x44) 23 0 = 0 ∧
        fld u (tumReg t 0x44) 31 24 = (fld s (tumReg t 0x44) 31 24 + 1) % 256) ∧
      u.mram = s.mram))

/-- R157, R158: a REMAP_ROW that passes its checks takes the lowest free entry and the lowest free spare row of the
bank (log 30) in the copying state, and its reply is owed. R158, R165: when the copy of a remap finishes and its
record is stored, the spare row holds every word of the row, the entry is active, and the command is answered; a
record that fails its verify twice frees the entry again. -/
def Obligations.RowRemapping : Prop :=
  (∀ (s : State) (c : Cmd) (e f : Nat), ready s c 0x0202 = true → rrLeaf c < s.part.leaves →
     inSwap s (rrTum c) (rrLeaf c) = false → roleOf s (rrTum c) (rrLeaf c) = 0 → serves s (rrTum c) = true →
     remapFind s (rrTum c) (rrLeaf c) (rrGroup c) (rrBank c) (rrRow c) 1 = none → freeEntry s = some e →
     freeSpare s (rrTum c) (rrLeaf c) (rrGroup c) (rrBank c) = some f → s.mramFenced = false →
     Completes (.remapRow c) s (fun u => c ∈ u.cmds.begun ∧ u.cmds.taken = s.cmds.taken ∧
       rmpIn u (rrTum c) (rrLeaf c) (rrGroup c) (rrBank c) e = true ∧ rmpRow u e = rrRow c ∧ rmpSpare u e = f ∧
       rmpState u e = 1 ∧ flag u (rmpHi e) 31 = true ∧ RegsBut [rmpLo e, rmpHi e] s u ∧ SameMemory s u)) ∧
  (∀ (s : State) (i : BitVec 15), running s = true → flag s (rmpHi i.toNat) 31 = true → rmpState s i.toNat = 1 →
     let t := rmpTum s i.toNat
     let src := remapSrc s i.toNat
     let dst := remapDst s i.toNat
     (lineOpOk s t = false → ∀ flips ok, exec (.remapCopyDone i flips ok) s = .next (wakeTum s t)) ∧
     (lineOpOk s t = true → remapMay s t (remapLine s i.toNat) src dst = true → s.mramFenced = false →
       (∀ col w, col < 16 → w < 8 → (decodeWord (getWord s t src col w)).cls = .clean) →
       Completes (.remapCopyDone i [] true) s (fun u => rmpState u i.toNat = 0 ∧ flag u (rmpHi i.toNat) 31 = true ∧
         ∀ col w, col < 16 → w < 8 → getWord u t dst col w = getWord s t src col w) ∧
       Completes (.remapCopyDone i [] false) s (fun u => flag u (rmpHi i.toNat) 31 = false ∧ u.mram = s.mram)))
/-- R161, R162, R164: a leaf swap: it starts in every named tumbler with its target refreshed, copies line by line,
switches the leaf map, retires the source and raises its event; an abort before the switch point turns it back. -/
def Obligations.LeafSwap : Prop :=
  ∀ (s : State) (c : Cmd) (t : Tum),
    (ready s c 0x0203 = true → lsSrc c < s.part.leaves → lsDst c < s.part.leaves → lsSrc c ≠ lsDst c →
      (∀ k ∈ lsMask c, Passes (swapChecks s (lsSrc c) (lsDst c) k)) → s.mramFenced = false → t.val ∈ lsMask c →
      Completes (.leafSwap c) s (fun u => c ∈ u.cmds.begun ∧ roleOf u t (lsDst c) = 2 ∧
        logicalOf u t (lsDst c) = logicalOf s t (lsSrc c) ∧ swapState u t = 1 ∧
        (u.tum t).swap = some { logical := logicalOf s t (lsSrc c), src := lsSrc c, dst := lsDst c, ptr := 0,
                                aborts := [], before := [], cmd := some c, failed := none } ∧
        SameMemory s u)) ∧
    (∀ w : Swap, (s.tum t).swap = some w →
      (running s = true → swapState s t = 1 → w.ptr < 8388608 → copyBudget s t = true →
        (lineOpOk s t = false → ∀ flips, exec (.swapCopyLine t flips) s = .next (wakeTum s t)) ∧
        (lineOpOk s t = true → swapMay s t w = true →
          let x := swapNext w
          let l := placeOn s t w.src x
          let b := placeRaw w.dst x
          let copies (f : Nat → CodeWord) : Prop := Completes (.swapCopyLine t []) s (fun u =>
            (u.tum t).swap = some { w with ptr := w.ptr + 1 } ∧ DramBut t b (lineCol x) s u ∧
            ∀ k, k < 8 → getWord u t b (lineCol x) k = f k)
          (wholeSlot s t x = none → ReadsClean s t x l → copies (fun k => getWord s t l (lineCol x) k)) ∧
          (∀ q, wholeSlot s t x = some q → copies (fun k => (slotGot q k 0).word)))) ∧
      (running s = true → serves s t = true → swapState s t = 1 → w.ptr = 8388608 → s.mramFenced = false → w.logical < 32 → w.src < 34 →
        w.dst < 34 → w.src ≠ w.dst →
        Completes (.swapSwitchPoint t) s (fun u => leafMap u t w.logical = w.dst ∧ roleOf u t w.dst = 0 ∧
          logicalOf u t w.dst = w.logical ∧ swapState u t = 2 ∧ u.dram = s.dram)) ∧
      (running s = true → swapState s t = 2 → swapQuiet s t w = true → w.src < 34 →
        (∀ k ∈ (s.tum t).q.slots, k.loc.leaf ≠ w.src) →
        Completes (.swapRetire t) s (fun u => (u.tum t).swap = none ∧ roleOf u t w.src = 3 ∧ swapState u t = 0 ∧
          u.pulses = s.pulses ++ [(BitVec.ofNat 12 (0x80 + t), 0)] ∧ u.dram = s.dram)) ∧
      (ready s c 0x0204 = true → bits c.p0.toNat 5 0 = t.val → swapState s t = 1 →
        Completes (.leafSwapAbort c) s (fun u => swapState u t = 3 ∧ c ∈ u.cmds.begun ∧
          ((u.tum t).swap.map (·.aborts)) = some (w.aborts ++ [c]) ∧ RegsBut [tumReg t 0x50] s u ∧ SameMemory s u)) ∧
      (swapState s t = 3 → swapQuiet s t w = true → w.dst < 34 →
        Completes (.swapAbandonDone t) s (fun u => (u.tum t).swap = none ∧ roleOf u t w.dst = 1 ∧ swapState u t = 0 ∧
          SameMemory s u)))

/-! ## Scans -/

/-- R176 to R179, R183, R195: a SCAN_START whose checks pass takes the lowest free slot (log 37) with the engines that
hold its column, and answers its number; an abort ends a running scan with status 5, and its reply is owed. R188,
R189, R192 to R194: output lines go out as writes of the scan's flow: bitmap lines with the selected bits, index
lines with the next indices; an ended scan writes its record, or notes that it may not; its completion event frees
the slot. -/
def Obligations.ScanStartsEndsAndAborts : Prop :=
  (∀ (s : State) (c : Cmd),
     (∀ k, ready s c 0x0205 = true → freeSlot s = some k →
       let x := scanOf c s.nextId
       let f := x.flow.toNat
       let key := flwKey s f
       (isAdmin s c = true ∨ flwInit s f = c.initiator.toNat) → pay c 0x14 1 ≤ 32 →
       c.ext.length = 128 + 8 * pay c 0x14 1 → scanReserved c x = false → x.count ≠ 0 → f ≠ 0 →
       scanMisaligned x = false → (∀ r ∈ scanRanges x, r.1 + r.2 ≤ 2 ^ s.part.addrWidth) → badPredicate x = false →
       scanOverlap x = false → flowValid s f = true →
       (∀ r ∈ regionsOf (x.base.toNat, colBytes x), scanPermitted s key r true = true) →
       (∀ r ∈ (outRanges x).flatMap regionsOf, scanPermitted s key r false = true) → scanUnits s x = false →
       ∃ b, exec (.scanStart c) s = .next (reply b c rcSuccess k []) ∧
         (∃ y, b.scan k = some y ∧ y.phase = .running ∧ y.flow = x.flow ∧ y.status = 0 ∧
           ∀ t, scanNeeds y t = true ↔ t ∈ scanTums s x) ∧
         (∀ j, j ≠ k → b.scan j = s.scan j) ∧ RegsBut [] s b ∧ SameMemory s b) ∧
     (∀ x : Scan, ready s c 0x0206 = true → s.scan (bits c.p0.toNat 7 0) = some x → x.phase = .running →
       (isAdmin s c = true ∨ flwInit s x.flow.toNat = c.initiator.toNat) →
       Completes (.scanAbort c) s (fun u => c ∈ u.cmds.begun ∧
         u.scan (bits c.p0.toNat 7 0) = some { x with phase := .ending, status := 5, aborts := x.aborts ++ [c] } ∧
         RegsBut [] s u ∧ SameMemory s u))) ∧
  (∀ (s : State) (k : BitVec 8) (x : Scan), s.scan k.toNat = some x → running s = true →
     (∀ n, x.phase = .running → nextBitmap x = some n →
       scanCheck s x (regionOf (x.bitmapBase.toNat + 64 * n)) false = none →
       ∃ be d, exec (.scanOutputWrite k true) s = .next (scanWrite s k.toNat { x with bitmapDone := x.bitmapDone ++ [n] }
           (x.bitmapBase.toNat + 64 * n) be d) ∧
         ∀ w, w < 8 → bits d.toNat (64 * w + 63) (64 * w) = (tget zero x.selected (8 * n + w)).toNat ∧
           (wordBe be w = if 8 * n + w < bitmapWords x then 255 else 0)) ∧
     (x.phase = .running → nextIndex s x ≠ [] →
       scanCheck s x (regionOf (x.indexBase.toNat + 4 * x.idxWritten)) false = none →
       ∃ be d, exec (.scanOutputWrite k false) s = .next (scanWrite s k.toNat
           { x with idxWritten := x.idxWritten + (nextIndex s x).length,
                    idxQueue := x.idxQueue.filter (fun i => !(nextIndex s x).contains i) }
           (x.indexBase.toNat + 4 * x.idxWritten) be d)) ∧
     (x.outBusy = 0 → (x.phase = .ending ∨ (x.phase = .running ∧ scanComplete x = true)) →
       let y := { x with
         status := if x.phase = .running then (if x.poisonLines = 0 then 0 else 1) else x.status, phase := .recorded }
       (scanCheck s x (regionOf x.record.toNat) false ≠ none →
         Completes (.scanEnd k) s (fun u => u.scan k.toNat = some { y with noRecord := true } ∧ RegsBut [] s u ∧
           SameMemory s u)) ∧
       (scanCheck s x (regionOf x.record.toNat) false = none →
         ∃ b, exec (.scanEnd k) s = .next (scanWrite b k.toNat y x.record.toNat (BitVec.allOnes 64)
             (BitVec.ofNat 512 (scanRecord y))) ∧
           b.scans = s.scans ∧ RegsBut [] s b ∧ SameMemory s b)) ∧
     (x.phase = .recorded → x.outBusy = 0 →
       Completes (.scanCompletionEvent k) s (fun u => u.scan k.toNat = none ∧
         u.pulses = s.pulses ++ [(BitVec.ofNat 12 (0x100 + k.toNat), BitVec.ofNat 64 (scanData k.toNat x))] ∧
         SameMemory s u)))
/-- R182 to R184, R186, R187, R189, R190: an engine's read of the next column line of the scan whose turn it is takes every
element of the line into account: the scan's total, sum, extremes, bitmap and index queue are those that the predicate gives on
the words read; a failed check ends the scan with its status; a gated tumbler is woken. -/
def Obligations.ScanLineReadEvaluatesItsLine : Prop :=
  ∀ (s : State) (k : BitVec 8) (e : Tum) (x : Scan) (n : Nat), s.scan k.toNat = some x → nextLine s x e = some n →
    running s = true → scanTurn s e = some k.toNat →
    (tstate s e = .latchOut → ∀ flips, exec (.scanLineRead k e flips) s =
      .next (s.setScan k.toNat (some { x with phase := .ending, status := 4 }))) ∧
    (tstate s e ≠ .latchOut →
      (∀ st flips, scanCheck s x (regionOf (64 * n)) true = some st → exec (.scanLineRead k e flips) s =
        .next (s.setScan k.toNat (some { x with phase := .ending, status := st }))) ∧
      (scanCheck s x (regionOf (64 * n)) true = none →
        (lineOpOk s e = false → ∀ flips, exec (.scanLineRead k e flips) s = .next (wakeTum s e)) ∧
        (lineOpOk s e = true →
          let y := (lineOf s (64 * n)).2
          let l := placeOf s e y
          lineBusy s e y = false → lineMay s (scanAccess s x e y) = true → ReadsClean s e y l →
          Completes (.scanLineRead k e []) s (fun u => ∃ z, u.scan k.toNat = some z ∧
            let v := (evalLine x n (gotLine s e y l (rgnEpoch s (regionOf (64 * n))))).1
            z.total = v.total ∧ z.sum = v.sum ∧ z.min = v.min ∧ z.max = v.max ∧ z.selected = v.selected ∧
            z.known = v.known ∧ z.idxQueue = v.idxQueue ∧ z.phase = .running ∧ z.status = x.status ∧
            (tget (fun _ => EngProg.init) z.engines e).next = n + 1 - colFirst x ∧
            RegsBut [scnReg e 8, scnReg e 0xC, tumReg e 0x2C, tumReg e 0x30] s u ∧ SameMemory s u))))

/-! ## Ward -/

/-- R214, R218, R221, R226: at the start of a window, once, the Ward reports capacity and live budget of every tumbler that has
been online. R211, R212, R214, R220: a window is evaluated once the window after it has ended: the evaluation sets the miss bit
of every guaranteed class that missed in some tumbler, and raises the miss event exactly where there is one; each window is
evaluated once. -/
def Obligations.WardWindows : Prop :=
  (∀ s : State, haspLive s = true →
     (s.ward.begun = false → Completes .wardWindowStart s (fun u =>
       u.ward.begun = true ∧ u.ward.winStart = s.ward.winStart ∧ u.ward.winLen = s.ward.winLen ∧
       u.ward.admitted = s.ward.admitted ∧ u.ward.prev = s.ward.prev ∧ u.ward.dues = s.ward.dues ∧
       (∀ e ∈ u.ward.eff, ∃ a, (e.1 % 256, a) ∈ s.ward.admitted ∧ a.guar ≠ 0) ∧
       (∀ t, t < 64 → (s.tum t).mode.everOnline = false → rd u (wrdReg (0x400 + 4 * t)) = 0) ∧
       (∀ t, t < 64 → (s.tum t).mode.everOnline = true → (rd u (wrdReg (0x400 + 4 * t))).toNat % 2 ^ 31 =
         capacity s t * 2 ^ 16 +
           liveBudget s t (dMirrorLive s (tget zero s.ward.mirrorPrev t) ((s.ward.prev.map (·.len)).getD 0))) ∧
       u.tums = s.tums ∧ u.ports = s.ports ∧ SameMemory s u)) ∧
     (s.ward.begun = true → exec .wardWindowStart s = .next s)) ∧
  (∀ (s : State) (d : WardWin) (r : List WardWin), haspLive s = true → s.ward.dues = d :: r →
     (∀ e ∈ d.admitted, e.1 < 256) →
     let bad := (guaranteedOf d.admitted).filter (fun e => (List.range 64).any (fun t => missedIn s d t e.1 e.2))
     Completes .windowEvaluation s (fun u => u.ward.dues = r ∧
       (∀ e ∈ bad, flag u (wrdReg (0x3000 + 4 * (e.1 / 32))) (e.1 % 32) = true) ∧
       (bad = [] → u.pulses = s.pulses ∧ u.csr = s.csr) ∧
       (bad ≠ [] → u.pulses = s.pulses ++ [(0x283, 0)] ∧ flag u (wrdReg 0x10) 1 = true) ∧ SameMemory s u)) ∧
  (∀ s : State, s.ward.dues = [] → exec .windowEvaluation s = .next s)

/-! ## Commands -/

/-- R357, R360, R373, R499: an answered command leaves the taken commands and gives one reply with its opcode, tag and
status, on its ring or its port; a command whose port has been reset or whose ring has stopped since gives none, and a reply that
its ring cannot take is discarded, which DISCARD shows. -/
def Obligations.AnsweredCommandGivesOneReply : Prop :=
  ∀ (s : State) (c : Cmd) (st : BitVec 16) (result : Nat) (data : List Byte),
    let u := reply s c st result data
    (u.cmds.taken = s.cmds.taken.erase c ∧ u.cmds.begun = s.cmds.begun.erase c) ∧
    (s.cmds.dropped.contains c = true → u.ports = s.ports ∧ u.rings = s.rings) ∧
    (∀ n, c.src = .ring n → (s.cmds.dropped.contains c = true ∨ flag s (ringReg n 0) 0 = false ∨ s.usb.link = false ∨
        s.usb.fenced = true ∨ (s.ring n).stopped = true) →
      u.rings = s.rings ∧ flag u (ringReg n 0) 3 = true ∧ RegsBut [ringReg n 0] s u) ∧
    (s.cmds.dropped.contains c = false →
      (∀ n, c.src = .ring n → flag s (ringReg n 0) 0 = true → s.usb.link = true → s.usb.fenced = false →
        (s.ring n).stopped = false → (u.ring n).replies = (s.ring n).replies ++ [replyOf c st result data] ∧
        u.ports = s.ports) ∧
      (∀ p, c.src = .port p → (s.port p).link ≠ .off → (s.port p).link ≠ .latchOut →
        (u.port p).rplQ = (s.port p).rplQ ++ [replyOf c st result data] ∧ u.rings = s.rings)) ∧
    SameMemory s u

/-- R357, R361: a command is taken from the head of its source; the first check of R361 that fails answers it at once,
and otherwise it waits among the taken commands for its execution; a CMD packet of at least 4 chunks joins its port's
queue, once it is the oldest of its port's store (R38). -/
def Obligations.CommandsAreTakenInOrder : Prop :=
  ∀ (s : State) (c : Cmd),
    (∀ p : PortN, takesReq s p (encodeCmd c) = true →
      let pkt := usedBits (encodeCmd c)
      let w := received s p (encodeCmd c)
      ((∀ e, nextPkt w p 12 = some e → e.2 ≠ pkt) → exec (.cmd p c) s = .next w) ∧
      (∀ stamp, nextPkt w p 12 = some (stamp, pkt) → 4 ≤ (c.chunks.getD 0).toNat →
        Completes (.cmd p c) s (fun u => (u.port p).cmdQ = (s.port p).cmdQ ++ [{ c with src := .port p }] ∧
          (u.port p).rxPkts = (w.port p).rxPkts.eraseP (fun e => e.2 == pkt) ∧
          PortsBut p s u ∧ RegsBut [] s u ∧ u.cmds = s.cmds ∧ SameMemory s u))) ∧
    (∀ src, headOf s src = some c → mayTake s src = true →
      ∃ b, b.cmds.taken = s.cmds.taken ++ [c] ∧
        headOf b src = (match src with
          | .ring n => (s.ring n).cmdQ[1]?
          | .port p => (s.port p).cmdQ[1]?) ∧
        (checkCommand s c = none → exec (.commandTake src) s = .next b) ∧
        (∀ st, checkCommand s c = some st → exec (.commandTake src) s = .next (answer b c st)) ∧
        SameMemory s b)

/-- R52 to R56, R363, R386: NOP answers the timebase; INIT_DEFINE, ADMIN_SET, FLOW_OPEN write their tables; a flow
closes at once where nothing is outstanding, and at the last completion otherwise. -/
def Obligations.FlowAndInitiatorCommands : Prop :=
  ∀ (s : State) (c : Cmd),
    (ready s c 0x0000 = true → exec (.nop c) s = .next (reply s c rcSuccess s.now.toNat [])) ∧
    (ready s c 0x0100 = true →
      let keep := if p0 c 16 16 = 1 then p0 c 47 32 else 0
      ((∀ f ∈ openFlows s, flwInit s f = p0 c 11 0 → bit keep (flwPort s f) = true) →
        ∃ b, exec (.initDefine c) s = .next (answer b c rcSuccess) ∧
          rd b (keyInit (p0 c 11 0)) = BitVec.ofNat 32 (p0 c 16 16 * 2 ^ 31 + p0 c 47 32) ∧
          RegsBut [keyInit (p0 c 11 0)] s b ∧ b.cmds.taken = s.cmds.taken ∧ SameMemory s b) ∧
      ((∃ f ∈ openFlows s, flwInit s f = p0 c 11 0 ∧ bit keep (flwPort s f) = false) →
        exec (.initDefine c) s = .next (answer s c rcInUse))) ∧
    (ready s c 0x0105 = true →
      ∃ b, exec (.adminSet c) s = .next (answer b c rcSuccess) ∧
        flag b (adminReg (p0 c 11 0 / 32)) (p0 c 11 0 % 32) = bit c.p0.toNat 16 ∧
        RegsBut [adminReg (p0 c 11 0 / 32)] s b) ∧
    (ready s c 0x0101 = true → p0 c 17 0 ≠ 0 → flwState s (p0 c 17 0) = 0 →
      initOn s (p0 c 43 32) (p0 c 27 24) = true → flag s (keyHdr (p0 c 59 48)) 31 = true →
      let f := p0 c 17 0
      ∃ b, exec (.flowOpen c) s = .next (answer b c rcSuccess) ∧ flwState b f = 1 ∧ flwPort b f = p0 c 27 24 ∧
        flwInit b f = p0 c 43 32 ∧ flwKey b f = p0 c 59 48 ∧ flwClass b f = p1 c 7 0 ∧ rd b (flwReg f 3) = 0 ∧
        RegsBut [flwReg f 0, flwReg f 1, flwReg f 3, flwReg f 4, flwReg f 5] s b ∧ b.cmds = s.cmds ∧
        SameMemory s b) ∧
    (ready s c 0x0102 = true → p0 c 17 0 ≠ 0 → flwState s (p0 c 17 0) ≠ 0 →
      (∀ e ∈ s.cmds.closing, e.1.toNat ≠ p0 c 17 0) →
      Completes (.flowClose c) s (fun u =>
        (fld s (flwReg (p0 c 17 0) 2) 15 0 = 0 → flwState u (p0 c 17 0) = 0) ∧
        (fld s (flwReg (p0 c 17 0) 2) 15 0 ≠ 0 → flwState u (p0 c 17 0) = 2 ∧ c ∈ u.cmds.begun) ∧ SameMemory s u)) ∧
    (∀ (f : BitVec 18) (e : BitVec 18 × Cmd), running s = true →
      s.cmds.closing.find? (fun x => x.1.toNat == f.toNat) = some e → fld s (flwReg f.toNat 2) 15 0 = 0 →
      ∃ b, exec (.flowCloseDone f) s = .next (answer b e.2 rcSuccess) ∧ flwState b f.toNat = 0 ∧
        RegsBut [flwReg f.toNat 0] s b ∧ SameMemory s b)

/-- R57, R58, R60: KEY_DEFINE and KEY_REVOKE change a key at one point, with the next VERSION; what the key grants from
then on is the union of its new extents; the reply waits for the accesses checked against the old contents. -/
def Obligations.KeyCommands : Prop :=
  ∀ (s : State) (c : Cmd), (∀ e ∈ s.cmds.keyWait, e.1.toNat ≠ p0 c 11 0) →
    let k := p0 c 11 0
    (ready s c 0x0103 = true → (∀ n, n < 8 → badExtent s (extWord c n) = false) →
      Completes (.keyDefine c) s (fun u => flag u (keyHdr k) 31 = true ∧
        fld u (keyHdr k) 7 0 = (fld s (keyHdr k) 7 0 + 1) % 256 ∧
        (∀ r i, i < 5 → (bit (keyPerm u k r) i = true ↔
          ∃ n, n < 8 ∧ bits (extWord c n) 15 0 ≤ r ∧ r < bits (extWord c n) 15 0 + bits (extWord c n) 32 16 ∧
            bit (bits (extWord c n) 37 33) i = true)) ∧
        ((∃ x ∈ s.live, x.2.2.toNat = k) → c ∈ u.cmds.begun) ∧ SameMemory s u)) ∧
    (ready s c 0x0104 = true →
      Completes (.keyRevoke c) s (fun u => (∀ r, keyPerm u k r = 0) ∧
        fld u (keyHdr k) 7 0 = (fld s (keyHdr k) 7 0 + 1) % 256 ∧
        ((∃ x ∈ s.live, x.2.2.toNat = k) → c ∈ u.cmds.begun) ∧ SameMemory s u)) ∧
    (∀ (j : BitVec 12) (e : BitVec 12 × Cmd × List Nat), running s = true →
      s.cmds.keyWait.find? (fun x => x.1.toNat == j.toNat) = some e → (∀ x ∈ s.live, x.1 ∉ e.2.2) →
      ∃ b r, exec (.keyChangeDone j) s = .next (reply b e.2.1 rcSuccess r []) ∧
        r = (if e.2.1.opcode = 0x0103 then fld s (keyHdr j.toNat) 7 0 else 0) ∧ RegsBut [] s b ∧ SameMemory s b)

/-- R216, R223, R227, R228, R375: CLASS_SET, GUARANTEE_SET and PLAN_SET write their registers where the set of guarantees
stays admissible, and answer 0x0403 without effect where it would not. -/
def Obligations.WardCommands : Prop :=
  ∀ (s : State) (c : Cmd),
    let k := p0 c 7 0
    let o := wrdReg (0x1000 + 16 * k)
    (ready s c 0x0300 = true →
      shareOk s k 0 (p1 c 8 0) (p1 c 25 16) (fld s o 3 2) = true →
      shareOk s k 4 (p1 c 40 32) (p1 c 57 48) (fld s o 3 2) = true →
      ∃ b, fld b o 1 0 = p0 c 9 8 ∧ fld b o 5 4 = p0 c 13 12 ∧ fld b o 3 2 = fld s o 3 2 ∧
        fld b (shareReg k 0) 8 0 = p1 c 8 0 ∧ fld b (shareReg k 0) 25 16 = p1 c 25 16 ∧
        fld b (shareReg k 4) 8 0 = p1 c 40 32 ∧ fld b (shareReg k 4) 25 16 = p1 c 57 48 ∧
        RegsBut [o, shareReg k 0, shareReg k 4] s b ∧
        (admissibleNow b = true → exec (.classSet c) s = .next (answer b c rcSuccess)) ∧
        (admissibleNow b = false → exec (.classSet c) s = .next (answer s c rcNotAdmissible))) ∧
    (ready s c 0x0301 = true → p0 c 9 8 ≠ 3 → p1 c 33 32 ≠ 3 →
      (p0 c 9 8 = 0 ∨ (8 ≤ fld s (shareReg k 0) 8 0 ∧ 8 ≤ fld s (shareReg k 4) 8 0)) →
      ∃ b, fld b o 3 2 = p0 c 9 8 ∧ (p0 c 9 8 = 1 → fld b (o + 4) 11 0 = p1 c 11 0) ∧
        (p0 c 9 8 = 2 → fld b (o + 8) 15 0 = p1 c 31 16 ∧ fld b (o + 8) 27 16 = p1 c 11 0 ∧
          fld b (o + 8) 29 28 = p1 c 33 32) ∧
        RegsBut [o, o + 4, o + 8] s b ∧
        (admissibleNow b = true → exec (.guaranteeSet c) s = .next (answer b c rcSuccess)) ∧
        (admissibleNow b = false → exec (.guaranteeSet c) s = .next (answer s c rcNotAdmissible))) ∧
    (ready s c 0x0302 = true → planBad (p0 c 27 0) = false → mirrorLow s (p0 c 27 0) = false →
      ∃ b, fld b (wrdReg 4) 9 0 = p0 c 9 0 ∧ planMirror b = p0 c 27 16 ∧ RegsBut [wrdReg 4] s b ∧
        (admissibleNow b = true → exec (.planSet c) s = .next (answer b c rcSuccess)) ∧
        (admissibleNow b = false → exec (.planSet c) s = .next (answer s c rcNotAdmissible)))

/-- R365, R366: MEM_READ and MEM_WRITE whose checks pass put their lines before the queue in ascending order, and their
replies are owed; CSR_READ and CSR_WRITE perform their registers one by one and answer with the index of the first that
failed. -/
def Obligations.DataCommands : Prop :=
  ∀ (s : State) (c : Cmd) (data : List Line),
    (Passes (memFails c) →
      (ready s c 0x0003 = true →
        Completes (.memRead c) s (fun u => c ∈ u.cmds.begun ∧ u.waiting.length = s.waiting.length + p0 c 56 32 / 64 ∧
          (∀ i, i < p0 c 56 32 / 64 → (u.waiting[s.waiting.length + i]?).map (fun a => (a.addr, a.kind)) =
            some (BitVec.ofNat 40 (p1 c 39 0 + 64 * i), .read64)) ∧ RegsBut [] s u ∧ SameMemory s u)) ∧
      (ready s c 0x0004 = true →
        Completes (.memWrite c data) s (fun u => c ∈ u.cmds.begun ∧
          u.waiting.length = s.waiting.length + p0 c 56 32 / 64 ∧
          (∀ i, i < p0 c 56 32 / 64 → (u.waiting[s.waiting.length + i]?).map (fun a => (a.addr, a.kind, a.data)) =
            some (BitVec.ofNat 40 (p1 c 39 0 + 64 * i), .write, data.getD i 0)) ∧ RegsBut [] s u ∧ SameMemory s u))) ∧
    (csrCountBad (p1 c 6 0) = false → csrRangeBad (p0 c 25 0) (p1 c 6 0) = false →
      let path := pathOf c.src
      let off := p0 c 25 0
      (ready s c 0x0001 = true →
        exec (.csrRead c) s = .next (csrReply c
          ((List.range (p1 c 6 0)).foldl (readNth path off) { st := s, data := [], bad := none })) ∧
        (p1 c 6 0 = 1 → accessStatus s off = 0 → inAperture off = false → (regDef s.part off).isSome = true →
          exec (.csrRead c) s = .next (reply (clearRc (latchHi s path off) off) c rcSuccess 0
            (leBytes 4 (shownOn s path off).toNat)))) ∧
      (ready s c 0x0002 = true → c.ext.length = 8 * ((p1 c 6 0 + 1) / 2) →
        exec (.csrWrite c) s = .next (csrReply c
          ((List.range (p1 c 6 0)).foldl (writeNth path off c) { st := s, data := [], bad := none })) ∧
        (p1 c 6 0 = 1 → accessStatus s off = 0 → inAperture off = false → (regDef s.part off).isSome = true →
          exec (.csrWrite c) s = .next (reply
            (writeReg s off (BitVec.ofNat 32 (leNat (c.ext.take 4)))) c rcSuccess 0 []))))

/-- R409, R426 to R430, R368: counters, log and subscriptions: a latch tick that the timebase has reached is taken: its counts
become the page, which is queued, and one during a dump is skipped and counted; the end of the dump raises its event; CNT_CONFIG
waits behind a dump; a flush empties the log tail; LOG_READ returns entries that MRAM holds; a subscription is made once. -/
def Obligations.CounterLogAndEventCommands : Prop :=
  ∀ (s : State) (c : Cmd),
    (s.dump.edges = [] → exec .latchTick s = .next s) ∧
    (∀ t counts r, s.dump.edges = (t, counts) :: r →
      (dumpOn s = false → exec .latchTick s = .next { s with dump := { s.dump with edges := r } }) ∧
      (dumpOn s = true → s.dump.running = false → Completes .latchTick s (fun u => u.dump.running = true ∧
        u.dump.n = s.dump.n + 1 ∧ u.dump.tick = t ∧ u.dump.snapshot = counts ∧ u.dump.edges = r ∧
        u.waiting.length = s.waiting.length + 2304 ∧ RegsBut [cntReg 0x10] s u ∧ SameMemory s u)) ∧
      (dumpOn s = true → s.dump.running = true → exec .latchTick s =
        .next (count { s with dump := { s.dump with edges := r, skipped := s.dump.skipped + 1 } } (cUsb 7) 1))) ∧
    (dumpQuiet s = true →
      (s.dump.running = true → Completes .dumpComplete s (fun u => u.dump.running = false ∧ u.dump.config = [] ∧
        flag u (cntReg 0x10) 6 = false ∧ rd u (cntReg 8) = BitVec.ofNat 32 s.dump.n ∧
        u.pulses = s.pulses ++ [(0x288, BitVec.ofNat 64 (s.dump.n % 2 ^ 32 + s.dump.n % 64 * 2 ^ 32))] ∧
        SameMemory s u)) ∧
      (s.dump.running = false → configDue s = true → exec .dumpComplete s = .next (configNow s)) ∧
      (s.dump.running = false → configDue s = false → exec .dumpComplete s = .next s)) ∧
    (ready s c 0x0600 = true → p0 c 15 0 < s.part.regions → 1250 ≤ p1 c 31 0 →
      (s.dump.running = false → s.dump.edges = [] → ∃ b, exec (.cntConfig c) s = .next (answer b c rcSuccess) ∧
        flag b (cntReg 0) 31 = bit c.p0.toNat 16 ∧ dumpRegion b = some (p0 c 15 0) ∧
        rd b (cntReg 4) = BitVec.ofNat 32 (p1 c 31 0) ∧ RegsBut [cntReg 0, cntReg 4] s b ∧ SameMemory s b) ∧
      ((s.dump.running = true ∨ s.dump.edges ≠ []) → Completes (.cntConfig c) s (fun u =>
        u.dump.config = s.dump.config ++ [c] ∧ c ∈ u.cmds.begun ∧ RegsBut [] s u ∧ SameMemory s u))) ∧
    (mramUp s = true → s.mramFenced = false → s.logTail ≠ [] →
      Completes (.logFlush true) s (fun u => u.logTail = [] ∧
        u.logSeq = s.logSeq + BitVec.ofNat 32 s.logTail.length ∧ u.dram = s.dram ∧ RegsBut [] s u) ∧
      Completes (.logFlush false) s (fun u => u.mram = s.mram ∧ u.logSeq = s.logSeq)) ∧
    (ready s c 0x0601 = true → p1 c 5 0 ≠ 0 →
      let first := logHeld s (p0 c 31 0)
      let n := min (p1 c 5 0) (s.logSeq.toNat - first)
      (n ≠ 0 → exec (.logRead c) s = .next (reply s c rcSuccess first
        ((List.range n).flatMap (fun i => cellGet s.mram (logPlace (first + i)) 32)))) ∧
      (n = 0 → ∃ r, exec (.logRead c) s = .next (reply { s with free := s.free + 1 } c rcSuccess r []))) ∧
    (ready s c 0x0602 = true →
      let src := p0 c 11 0
      let init := p0 c 27 16
      let port := p0 c 35 32
      let on := bit c.p0.toNat 40
      (isAdmin s c = true ∨ userSub c src init port = true) →
      (isAdmin s c = true → on = true → Passes (adminSub s src init port)) →
      (∀ i, subOf s src init port = some i → on = true → exec (.eventSubscribe c) s = .next (answer s c rcSuccess)) ∧
      (∀ i, subOf s src init port = some i → on = false →
        exec (.eventSubscribe c) s = .next (answer (putSub s i none) c rcSuccess)) ∧
      (subOf s src init port = none → on = false → exec (.eventSubscribe c) s = .next (answer s c rcSuccess)) ∧
      (∀ i, subOf s src init port = none → on = true → freeSub s = some i →
        exec (.eventSubscribe c) s = .next (answer
          (putSub s i (some ⟨BitVec.ofNat 12 src, BitVec.ofNat 12 init, BitVec.ofNat 4 port, 0⟩)) c rcSuccess)) ∧
      (subOf s src init port = none → on = true → freeSub s = none →
        exec (.eventSubscribe c) s = .next (answer s c rcTableFull)))

/-! ## Units and power states -/

/-- R380 to R382, R406, R410: a UNIT_DISABLE of a unit in operation begins its shutdown and owes its reply; of a unit
in latch-out it answers at once. A UNIT_ENABLE starts a unit in latch-out that holds no fault, answers 0x0002 for
one that does, becomes pending in a unit that is shutting down, waits for a start that is under way, and answers at once for a
unit in operation; a second pending one is refused. R380, R381, R410: a shutdown ends in latch-out
and answers the disables of the unit; a start ends with the unit in operation and answers its enable. -/
def Obligations.UnitsDisableAndEnable : Prop :=
  (∀ (s : State) (c : Cmd) (u : UnitId), unitOf c = some u →
     (ready s c 0x0500 = true → lastCore s u = false →
       (unitLatched s u = true → exec (.unitDisable c) s = .next (answer s c rcSuccess)) ∧
       (unitLatched s u = false → unitShutting s u = false → inStart s u = false → reenPend s u = false →
         Completes (.unitDisable c) s (fun t => unitShutting t u = true ∧ c ∈ t.cmds.begun ∧
           (u, c) ∈ t.cmds.disabling ∧ SameMemory s t))) ∧
     (ready s c 0x0501 = true →
       let pre := bit c.p0.toNat 16
       (reenPend s u = true → exec (.unitEnable c) s = .next (answer s c rcEnablePending)) ∧
       (reenPend s u = false → unitShutting s u = true → Completes (.unitEnable c) s (fun t =>
         reenPend t u = true ∧ c ∈ t.cmds.begun ∧ (u, pre, c) ∈ t.cmds.enabling ∧ RegsBut [] s t ∧ SameMemory s t)) ∧
       (reenPend s u = false → unitShutting s u = false → inStart s u = true → Completes (.unitEnable c) s (fun t =>
         c ∈ t.cmds.begun ∧ (u, pre, c) ∈ t.cmds.enabling ∧ t.cmds.starting = s.cmds.starting ∧ RegsBut [] s t ∧
         SameMemory s t)) ∧
       (reenPend s u = false → unitShutting s u = false → inStart s u = false →
         (unitLatched s u = true →
           ((unitFaulty s u = true ∨ mayNotPreserve s u pre = true) →
             exec (.unitEnable c) s = .next (answer s c rcState)) ∧
           (unitFaulty s u = false → mayNotPreserve s u pre = false →
             Completes (.unitEnable c) s (fun t => c ∈ t.cmds.begun ∧ (u, pre, c) ∈ t.cmds.enabling ∧
               (u, pre) ∈ t.cmds.starting ∧ unitLatched t u = false ∧ SameMemory s t))) ∧
         (unitLatched s u = false → exec (.unitEnable c) s = .next (answer s c rcSuccess))))) ∧
  (∀ (s : State) (u : UnitId),
     (unitShutting s u = true → shutOver s u = true → reenPend s u = false →
       (∀ p, u = .port p → (s.port p).link = .latchOut) →
       Completes (.shutdownComplete u) s (fun t => unitLatched t u = true ∧ (∀ x ∈ t.cmds.disabling, x.1 ≠ u) ∧
         ((∀ k, u ≠ .tum k) → SameMemory s t))) ∧
     (∀ (pre : Bool) (c : Cmd), s.cmds.starting.find? (fun x => x.1 = u) = some (u, pre) → startOver s u pre = true →
       (∀ x ∈ s.cmds.disabling, x.1 ≠ u) → s.cmds.enabling.filter (fun x => x.1 = u) = [(u, pre, c)] →
       pairUp s = false →
       ∃ b, exec (.unitStartDone u) s = .next (answer b c rcSuccess) ∧ (∀ x ∈ b.cmds.starting, x.1 ≠ u) ∧
         (∀ x ∈ b.cmds.enabling, x.1 ≠ u) ∧ (∀ k, u = .core k → (b.core k).state = .running) ∧
         (∀ k, u = .tum k → tstate b k = .online) ∧ SameMemory s b))
/-- R442, R443, R445, R447: POWER_STATE 0 to 2 records the state asked for last, sets the QUIET bits named for code 2 and
clears them for the others; code 3 answers and begins the drain toward Hold at its stop point, where scans end, ports
send no more packets and DRAIN is shown. -/
def Obligations.PowerStateAndHold : Prop :=
  ∀ (s : State) (c : Cmd),
    (ready s c 0x0502 = true → p0 c 2 0 < 3 →
      ∃ b, exec (.powerState c) s = .next (answer b c rcSuccess) ∧ fld b (senReg 0) 2 0 = p0 c 2 0 ∧
        (∀ t, t < 64 → quietBit b t = if bit c.p1.toNat t then p0 c 2 0 == 2 else quietBit s t) ∧
        (∀ p, p < 16 → flag b (senReg 0x28) p =
          if bit c.p2.toNat p then p0 c 2 0 == 2 else flag s (senReg 0x28) p) ∧ SameMemory s b) ∧
    (ready s c 0x0502 = true → p0 c 2 0 = 3 → c.p1 = BitVec.allOnes 64 → bits c.p2.toNat 15 0 = 0xFFFF →
      (flag s (senReg 0) 5 = true → Completes (.powerState c) s (fun t => t.power.holdAsked = true ∧
        fld t (senReg 0) 2 0 = 3 ∧ t.cmds.taken = s.cmds.taken.erase c ∧ SameMemory s t)) ∧
      (flag s (senReg 0) 5 = false → exec (.powerState c) s = .next (answer s c rcState))) ∧
    (s.power.holdAsked = true → running s = true →
      Completes .holdStopPoint s (fun t => t.power.mode = .draining .powerState ∧ t.power.holdAsked = false ∧
        t.scans = [] ∧ t.power.stopAt = s.now ∧ flag t (senReg 0) 6 = true ∧ flag t (senReg 0) 7 = false ∧
        (∀ p, p < 16 → (t.port p).stopped = true) ∧ RegsBut [senReg 0] s t ∧ SameMemory s t))

/-! ## Calibration -/

/-- R468, R470: CAL_RUN: trims, a set-point, bus sets and equaliser codes that meet their limits come into force and
the command answers SUCCESS; values outside the limits leave what is in force and answer 0x0504. R467, R471:
CAL_STORE writes its set and trailer into one calibration slot and nothing else of MRAM; CAL_RESTORE without a
valid slot answers 0x0002; delays in force move by at most one step toward the new set. -/
def Obligations.Calibration : Prop :=
  (∀ (s : State) (c : Cmd) (res : List Int), ready s c 0x0503 = true →
     let unit := p0 c 13 8
     let rate := p0 c 17 16
     Passes (calFails s (p0 c 3 0) unit rate) →
     (p0 c 3 0 = 0 → (List.range 16).all (zoneOk s unit res) = true →
       ∃ b, exec (.calRun c res) s = .next (answer b c rcSuccess) ∧
         (∀ z, z < 16 → rd b (lfReg unit (0x40 + 4 * z)) =
           (BitVec.ofInt 8 (runTrim res z).2.1 ++ BitVec.ofInt 8 (runTrim res z).1).zeroExtend 32) ∧
         (∀ z, z < 16 → (b.zone unit z).failed = false) ∧
         RegsOutside (fun o => ∃ z, z < 16 ∧ o = lfReg unit (0x40 + 4 * z)) s b ∧ SameMemory s b) ∧
     (p0 c 3 0 = 1 → setpointOk s unit (res.getD 0 0).toNat = true →
       ∃ b, exec (.calRun c res) s = .next (answer b c rcSuccess) ∧
         fld b (senReg (0x100 + 4 * unit)) 11 0 = (res.getD 0 0).toNat ∧ RegsBut [senReg (0x100 + 4 * unit)] s b ∧
         SameMemory s b) ∧
     (p0 c 3 0 = 2 → busOk s res = true →
       ∃ b up, exec (.calRun c res) s = .next (answer b c rcSuccess) ∧ flag b (tumReg unit 8) (8 + rate) = true ∧
         (∀ w, w < 336 → fld b (tumReg unit (0x2000 + 0x800 * rate + 4 * w)) 5 0 =
           midpoint (runRange res w).1 (runRange res w).2.1 up % 64) ∧ SameMemory s b) ∧
     (p0 c 3 0 = 3 → (∀ l, l < 16 → bit (rxLanes s unit) l = true → eqDefOk s unit rate l (calEqCode s unit l) = true) →
       ∃ b, exec (.calRun c res) s = .next (answer b c rcSuccess) ∧
         (∀ l, l < 16 → bit (rxLanes s unit) l = true →
           fld b (fpReg unit (0x300 + 0x40 * rate + 4 * l)) 4 0 = calEqCode s unit l) ∧
         RegsOutside (fun o => ∃ l, l < 16 ∧ bit (rxLanes s unit) l = true ∧ o = fpReg unit (0x300 + 0x40 * rate + 4 * l)) s b ∧
         SameMemory s b) ∧
     (p0 c 3 0 = 0 → (List.range 16).all (zoneOk s unit res) = false →
       ∃ b, exec (.calRun c res) s = .next (answer b c rcInternal) ∧ b.thermal.zones = s.thermal.zones ∧
         (∀ z, z < 16 → rd b (lfReg unit (0x40 + 4 * z)) = rd s (lfReg unit (0x40 + 4 * z))) ∧ SameMemory s b)) ∧
  (∀ (s : State) (c : Cmd),
     (ready s c 0x0504 = true → s.mramFenced = false →
       ∃ b, exec (.calStore c true) s = .next (answer b c rcSuccess) ∧
         (∃ k, k < 2 ∧ ∀ a, a < calBase k ∨ calBase k + 0x40000 ≤ a → mramByte b a = mramByte s a) ∧ b.dram = s.dram ∧
         RegsBut [] s b) ∧
     (ready s c 0x0505 = true →
       (bestCal s = none → exec (.calRestore c) s = .next (answer s c rcState)) ∧
       (∀ k, bestCal s = some k → exec (.calRestore c) s =
         .next (answer (loadCal s k).1 c (if (loadCal s k).2 then rcSuccess else rcInternal)) ∧
         SameMemory s (loadCal s k).1)) ∧
     (∀ t : Tum, haspLive s = true → s.calib.busMoving.contains t.val = true →
       Completes (.busDelayStep t) s (fun u =>
         (∀ w, w < 336 → (tget noWire (u.tum t).wires w).toNat =
           toward (tget noWire (s.tum t).wires w).toNat (fld s (dskReg t (rateOf s t) w) 5 0)) ∧
         RegsBut [] s u ∧ TumsBut t s u ∧ SameMemory s u)) ∧
     (∀ (m : Fin 2256) (f : Nat), haspLive s = true → (m.val < 64 ∨ 2240 ≤ m.val) →
       let r := (tget zero s.calib.speed m.val).toNat
       r ≠ 0 →
       (97 * r ≤ 100 * f → 100 * f ≤ 103 * r → exec (.speedMonitorRead m f) s = .next s) ∧
       ((103 * r < 100 * f ∨ 100 * f < 97 * r) → exec (.speedMonitorRead m f) s =
         .next (fault (wr s (senReg 0x2C) (BitVec.ofNat 32 (2 ^ 31 + m.val))) .sen 6 0 1))))
/-! ## Firmware and rings -/

/-- R383, R384, R385, R379: FW_LOAD writes the slot that does not run, FW_COMMIT makes a checked image valid, FW_ACTIVATE
begins the restart of the cores with core 7; the last core ends the update with the image's version and the failed cores;
core 7's failure rolls back. A restarted core boots at its vector. -/
def Obligations.FirmwareUpdate : Prop :=
  ∀ (s : State) (c : Cmd),
    (ready s c 0x0700 = true → s.update = none → p0 c 21 0 + c.ext.length ≤ 0x400000 → s.mramFenced = false →
      ∃ b, exec (.fwLoad c true) s = .next (answer b c rcSuccess) ∧ fld b fwStat 1 0 = 1 ∧
        cellGet b.mram (imgBase (slotOther s) + p0 c 21 0) c.ext.length = c.ext ∧
        (∀ a, a < imgBase (slotOther s) ∨ imgBase (slotOther s) + 0x400000 ≤ a → mramByte b a = mramByte s a) ∧
        b.dram = s.dram ∧ RegsBut [fwStat] s b) ∧
    (ready s c 0x0701 = true → s.update = none → s.mramFenced = false →
      let k := slotOther s
      (commitOk s k (p0 c 22 0) (p1 c 31 0) = false → exec (.fwCommit c true) s = .next (answer s c rcBadImage)) ∧
      (commitOk s k (p0 c 22 0) (p1 c 31 0) = true → commitSeq s < 2 ^ 32 →
        ∃ b, exec (.fwCommit c true) s = .next (answer b c rcSuccess) ∧ fld b fwStat 1 0 = 2 ∧
          imgSeq b k = some (commitSeq s) ∧ (∀ a, a < imgTrailer k ∨ imgTrailer k + 8 ≤ a → mramByte b a = mramByte s a) ∧
          b.dram = s.dram ∧ RegsBut [fwStat] s b)) ∧
    (ready s c 0x0702 = true → s.update = none →
      (newerImage s = true → Completes (.fwActivate c) s (fun u =>
        u.update = some { cmd := c, next := 7, failed := 0, slot := slotOther s == 1 } ∧ c ∈ u.cmds.begun ∧
        fld u fwStat 1 0 = 3 ∧ RegsBut [fwStat] s u ∧ SameMemory s u)) ∧
      (newerImage s = false → exec (.fwActivate c) s = .next (answer s c rcNoImage))) ∧
    (∀ (n : CoreN) (x : Update), s.update = some x → running s = true → x.next = n.val → updatable s n = true →
      (n.val ≠ 0 → Completes (.fwCoreRestart n true) s (fun u => (u.core n).state = .running ∧
        u.update = some { x with next := n.val - 1 } ∧ SameMemory s u)) ∧
      (n.val = 0 → ∃ b, exec (.fwCoreRestart n true) s =
          .next (reply b x.cmd rcSuccess (imgVersion s (b2n x.slot) + x.failed.toNat * 2 ^ 32) []) ∧
        b.update = none ∧ (b.core n).state = .running ∧ fld b fwStat 8 8 = b2n x.slot ∧ fld b fwStat 1 0 = 0 ∧
        SameMemory s b) ∧
      (n.val = 7 → ∃ b, exec (.fwCoreRestart n false) s = .next (answer b x.cmd rcUpdateFailed) ∧ b.update = none ∧
        (b.core n).state = .running ∧ fld b fwStat 8 8 = fld s fwStat 8 8 ∧ SameMemory s b)) ∧
    (∀ (n : CoreN) (v : Reg32), reaches s (coreReg n 4) = true → takesSources s n = true →
      Completes (.coreRestart n v) s (fun u => (u.core n).state = .booting ∧
        (u.core n).pc = BitVec.ofNat 64 (2 * fld s (coreReg n 0) 31 1) ∧ RegsBut [] s u ∧ SameMemory s u))

/-- R359, R372, R373, R493: rings: EN starts a ring pair with its pointers at 0 and stops it; the device reads the command
at CHEAD where its slots are filled, stops the ring where they can never be, writes the first waiting reply to the reply
ring and advances RTAIL; a DMA error stops one ring, a loss of the link all of them; a reset returns the domain's
registers to their reset values. -/
def Obligations.RingPairs : Prop :=
  ∀ (s : State) (n : RingN),
    (∀ v : Reg32, reaches s (ringReg n 0) = true → 6 ≤ bits v.toNat 12 8 → bits v.toNat 12 8 ≤ 16 →
      (flag s (ringReg n 0) 0 = false → bit v.toNat 0 = true → Completes (.ringEnWrite n v) s (fun u =>
        flag u (ringReg n 0) 0 = true ∧ fld u (ringReg n 0) 12 8 = bits v.toNat 12 8 ∧
        rd u (ringReg n 0x14) = 0 ∧ rd u (ringReg n 0x18) = 0 ∧ rd u (ringReg n 0x1C) = 0 ∧ rd u (ringReg n 0x20) = 0 ∧
        (u.ring n).stopped = false ∧
        RegsBut [ringReg n 0, ringReg n 0x14, ringReg n 0x18, ringReg n 0x1C, ringReg n 0x20] s u ∧ SameMemory s u)) ∧
      (flag s (ringReg n 0) 0 = true → bit v.toNat 0 = false → bits v.toNat 12 8 = fld s (ringReg n 0) 12 8 →
        Completes (.ringEnWrite n v) s (fun u => flag u (ringReg n 0) 0 = false ∧ (u.ring n).cmdQ = [] ∧
          (u.ring n).replies = [] ∧ RegsBut [ringReg n 0] s u ∧ SameMemory s u))) ∧
    (∀ bytes : List Byte, ringLive s n = true → running s = true → s.power.taking = true → s.update = none →
      (s.ring n).cmdQ = [] → ringFilled s n ≠ 0 →
      let c := ringCmd n bytes
      (2 ^ fld s (ringReg n 0) 12 8 < ringSlots c.len.toNat →
        exec (.ringCommandFetch n bytes) s = .next (ringError s n)) ∧
      (ringSlots c.len.toNat ≤ 2 ^ fld s (ringReg n 0) 12 8 → ringSlots c.len.toNat ≤ ringFilled s n →
        Completes (.ringCommandFetch n bytes) s (fun u => (u.ring n).cmdQ = [c] ∧ RegsBut [] s u ∧ SameMemory s u)) ∧
      (ringSlots c.len.toNat ≤ 2 ^ fld s (ringReg n 0) 12 8 → ringFilled s n < ringSlots c.len.toNat →
        exec (.ringCommandFetch n bytes) s = .next s)) ∧
    (∀ (r : Reply) (l : List Reply), (s.ring n).replies = r :: l → ringLive s n = true →
      replyRoom s n r.data.length = true →
      Completes (.replyWrite n) s (fun u => (u.ring n).replies = l ∧
        fld u (ringReg n 0x1C) 16 0 = (fld s (ringReg n 0x1C) 16 0 + ((replyBytes r).length + 63) / 64) % 2 ^ 17 ∧
        (flag s (ringReg n 0) 1 = true → (u.ring n).msix = (s.ring n).msix + 1) ∧
        (flag s (ringReg n 0) 1 = false → (u.ring n).msix = (s.ring n).msix) ∧
        (∃ w, u.usb.out = s.usb.out ++ w ∧ w.flatMap (·.2) = replyBytes r) ∧
        RegsBut [ringReg n 0x1C] s u ∧ SameMemory s u)) ∧
    (ringLive s n = true → Completes (.dmaError n) s (fun u => (u.ring n).cmdQ = [] ∧ (u.ring n).replies = [] ∧
      flag u (ringReg n 0) 2 = true ∧ flag u (ringReg n 0) 0 = false ∧ SameMemory s u)) ∧
    (strikeLive s = true → s.usb.link = true → Completes .usb4LinkLoss s (fun u => u.usb.link = false ∧
      (∀ k, k < 4 → (u.ring k).stopped = true ∧ (u.ring k).cmdQ = [] ∧ (u.ring k).replies = []) ∧ SameMemory s u)) ∧
    (strikeLive s = true → Completes .usb4Reset s (fun u => u.rings = [] ∧ u.usb.fenced = false ∧
      (∀ o, usbReg o = true → rd u o = regReset s.part o) ∧ RegsOutside (fun o => usbReg o = true) s u ∧
      SameMemory s u))

/-! ## Events -/

/-- R390: the arbiter of a core selects a source that is pending, unmasked, targeted at the core and of a priority above 0,
before which no other such source goes: none has a higher priority, and none of the same priority a lower index. -/
def Obligations.ArbiterSelectsByPriorityThenIndex : Prop :=
  ∀ (s : State) (c n : Nat), arbiter s c = some n →
    isPending s n = true ∧ srcMasked s n = false ∧ targetOf s n = c ∧ 0 < srcPrio s n ∧
    ∀ k, k < 4096 → (srcKind s.part k).1 ≠ .reserved → eligible s c k = true →
      srcPrio s k < srcPrio s n ∨ (srcPrio s k = srcPrio s n ∧ n ≤ k)

/-- R389, R396: an accepted source is pending, its counter goes up by one to at most 255, its stamp is the timebase,
and one EVT packet with that counter, the stamp, the source's value and the next SEQ goes to its subscriber; a
pulse is used up. R377, R378, R391: a claimed source leaves the pending state, a level source enters service, and
its core takes the event at the source's vector with mcause, mtval and EVSRC written; the address of the core's
next instruction is free (log 55). A running core without an event to take falls asleep at WFI. -/
def Obligations.EventsAreAcceptedAndDelivered : Prop :=
  (∀ (s : State) (n : BitVec 12) (d : Word64), haspLive s = true →
     (s.pulses.find? (fun e => e.1 = n) = some (n, d) ∨
       (s.pulses.find? (fun e => e.1 = n) = none ∧ levelReady s n.toNat = true ∧ d = 0)) →
     let k := min 255 (fld s (evcSrc n.toNat 4) 15 8 + 1)
     Completes (.sourceAccept n) s (fun u => isPending u n.toNat = true ∧ fld u (evcSrc n.toNat 4) 15 8 = k ∧
       inService u n.toNat = inService s n.toNat ∧
       rd u (evcSrc n.toNat 0x10) = s.now.extractLsb' 0 32 ∧ rd u (evcSrc n.toNat 0x14) = s.now.extractLsb' 32 32 ∧
       u.pulses = s.pulses.eraseP (fun e => e.1 = n) ∧
       (∀ (i : Nat) (x : Sub), s.cmds.subs = [(i, some x)] → x.source = n → (s.port x.port.toNat).link ≠ .off →
         (s.port x.port.toNat).link ≠ .latchOut → mirrorRole s x.port.toNat = false →
         (s.port x.port.toNat).evtQ.length < 64 →
         ∃ e, (u.port x.port.toNat).evtQ = (s.port x.port.toNat).evtQ ++ [e] ∧ e.initiator = x.initiator ∧
           e.source = n ∧ e.count.toNat = k ∧ e.time = s.now ∧ e.data = d ∧ e.seq = x.seq ∧
           tget noSub u.cmds.subs i = some { x with seq := x.seq + 1 }) ∧
       ((∀ e ∈ s.cmds.subs, ∀ x, e.2 = some x → x.source ≠ n) → u.ports = s.ports) ∧
       RegsBut [evcSrc n.toNat 4, evcSrc n.toNat 0x10, evcSrc n.toNat 0x14] s u ∧ SameMemory s u)) ∧
  (∀ (s : State) (c : CoreN) (n : BitVec 12), haspLive s = true →
     (takesSources s c = true → arbiter s c = some n.toNat →
       Completes (.eventClaim c n) s (fun u => isPending u n.toNat = false ∧
         fld u (evcSrc n.toNat 4) 6 4 = c.val ∧
         ((srcKind s.part n.toNat).1 = .level → inService u n.toNat = true) ∧
         ((srcKind s.part n.toNat).1 ≠ .level → inService u n.toNat = inService s n.toNat) ∧
         (u.core c).state = .running ∧ (u.core c).mcause = 0x8000000000000018 ∧ (u.core c).mtval = 0 ∧
         (u.core c).evsrc = n ∧ (u.core c).mie = false ∧
         (u.core c).pc = rd s (evcSrc n.toNat 0xC) ++ rd s (evcSrc n.toNat 8) ∧
         (∀ k, k ≠ c.val → u.core k = s.core k) ∧ RegsBut [evcSrc n.toNat 4] s u ∧ SameMemory s u)) ∧
     ((s.core c).state = .running →
       (arbiter s c = none → exec (.wfi c) s = .next (s.setCore c { s.core c with state := .asleep })) ∧
       (∀ k, arbiter s c = some k → exec (.wfi c) s = .next s)))
/-- R392, R395, R412, R414, R415: writes of the event controller: a source's configuration, with FILT of a synchronous
source held at 0; EOI ends the service of a level source, which is accepted again while it is asserted; software raises
sources 0x800 and above; CNT_CLR clears a counter. -/
def Obligations.EventControllerWrites : Prop :=
  ∀ (s : State) (v : Reg32),
    (∀ n : BitVec 12, reaches s (evcSrc n.toNat 0) = true →
      ((srcKind s.part n.toNat).2 = true ∨ bits v.toNat 15 10 = 0) →
      Completes (.evcSrcCfgWrite n v) s (fun u => srcPrio u n.toNat = bits v.toNat 3 0 ∧
        targetOf u n.toNat = bits v.toNat 6 4 ∧ srcMasked u n.toNat = bit v.toNat 8 ∧
        fld u (evcSrc n.toNat 0) 15 10 = bits v.toNat 15 10 ∧ RegsBut [evcSrc n.toNat 0] s u ∧ SameMemory s u)) ∧
    (reaches s (evcReg 0) = true →
      let n := bits v.toNat 11 0
      ((srcKind s.part n).1 = .level → inService s n = true → sourceLevel s n = false →
        Completes (.evcEoi v) s (fun u => inService u n = false ∧ isPending u n = isPending s n ∧
          RegsBut [evcSrc n 4] s u ∧ SameMemory s u)) ∧
      ((srcKind s.part n).1 = .level → inService s n = true → sourceLevel s n = true → isPending s n = false →
        Completes (.evcEoi v) s (fun u => inService u n = false ∧ isPending u n = true ∧
          fld u (evcSrc n 4) 15 8 = min 255 (fld s (evcSrc n 4) 15 8 + 1) ∧ SameMemory s u)) ∧
      (((srcKind s.part n).1 ≠ .level ∨ inService s n = false) → exec (.evcEoi v) s = .next s)) ∧
    (reaches s (evcReg 4) = true →
      (0x800 ≤ bits v.toNat 11 0 → exec (.evcSwRaise v) s =
        .next { s with pulses := s.pulses ++ [(BitVec.ofNat 12 (bits v.toNat 11 0), 0)] }) ∧
      (bits v.toNat 11 0 < 0x800 → exec (.evcSwRaise v) s = .next (paramFault s .evc))) ∧
    (∀ n : BitVec 12, reaches s (evcSrc n.toNat 4) = true →
      Completes (.cntClr n v) s (fun u => fld u (evcSrc n.toNat 4) 15 8 = 0 ∧ isPending u n.toNat = isPending s n.toNat ∧
        inService u n.toNat = inService s n.toNat ∧ RegsBut [evcSrc n.toNat 4] s u ∧ SameMemory s u))

/-! ## Faults -/

/-- R403 to R405, R407, R419: recording a fault that is not consequential: native severity, or one level above the highest
recorded one where the class is set and not consequential; its class bit and recorded severity; one entry in the history
and the log tail with its stamp, set, class, severity and number. A consequential fault is recorded at native severity
and asks for no reaction; a later one of its class in the same shadow is counted only. -/
def Obligations.FaultsAreRecorded : Prop :=
  ∀ (s : State) (b : FltSet) (c n : Nat) (d : BitVec 96), c < classCount b → 0 < n →
    let u := (record s b c d n).1
    (shadowOf s b c = none →
      let esc := statBit s b c && !consOf s b c
      let sev := if esc then min 4 (sevOf s b c + 1) else (faultClass b c).2
      (record s b c d n).2 = sev ∧ statBit u b c = true ∧ sevOf u b c = max sev (sevOf s b c) ∧ consOf u b c = false ∧
      ∃ e : Entry, u.logTail = s.logTail ++ [e] ∧ ((s.flt b).next.toNat, e) ∈ (u.flt b).hist ∧
        (u.flt b).next = (s.flt b).next + 1 ∧ (u.flt b).bseq = (s.flt b).bseq + 1 ∧ e.bseq = (s.flt b).bseq + 1 ∧
        e.time = s.now ∧ e.source.toNat = fltSource b ∧ e.cls.toNat = c ∧ e.severity.toNat = sev ∧ e.conseq = false ∧
        e.escalated = esc ∧ e.merged = decide (1 < n) ∧ e.detail = d ∧ e.count = BitVec.ofNat 32 n) ∧
    (∀ i, shadowOf s b c = some (i, false) → (record s b c d n).2 = 0 ∧ statBit u b c = true ∧
      ∃ e : Entry, u.logTail = s.logTail ++ [e] ∧ e.severity.toNat = (faultClass b c).2 ∧ e.conseq = true ∧
        e.escalated = false) ∧
    (∀ i, shadowOf s b c = some (i, true) → (record s b c d n).2 = 0 ∧ u.logTail = s.logTail ∧ u.csr = s.csr) ∧
    RegsBut [fltBase b, sevReg b c, pairReg 0x18] s u ∧ SameMemory s u ∧ u.tums = s.tums ∧ u.ports = s.ports

/-- R399 to R401, R459: reactions. Severities 0 to 2 ask for none; at 3 and 4 a unit begins its shutdown, and the pair
engine, the counters and the USB4 port enter latch-out; a fault of the blocks that serve the whole module stops it, with
GBL_FATAL naming the set, every port in Off, the cores off and ALERT_N asserted. -/
def Obligations.FaultReactions : Prop :=
  ∀ (s : State) (b : FltSet) (c sev : Nat),
    let u := react s b c sev
    (sev < 3 → u = s) ∧
    (3 ≤ sev →
      (∀ t, b = .tum t → tstate s t ≠ .shutting → tstate s t ≠ .latchOut →
        tstate u t = .shutting ∧ (u.tum t).mode.faultShut = true) ∧
      (∀ e, b = .scan e → (s.eng e).state ≠ .shutting → (s.eng e).state ≠ .latchOut → (u.eng e).state = .shutting) ∧
      (∀ p, b = .port p → (u.port p).link = .latchOut) ∧
      (∀ k, b = .core k → (s.core k).state ≠ .shutting → (s.core k).state ≠ .latchOut → (u.core k).state = .shutting) ∧
      (b = .pair → u.pair.state = .latchOut) ∧ (b = .cnt → u.dump.fenced = true) ∧ (b = .usb → u.usb.fenced = true) ∧
      (b = .mram → sev = 3 → u.mramFenced = true) ∧ (b = .thm → sev = 3 → u.thermal.stopped = true) ∧
      (∀ k : Fin 8, b = .ivr k → sev = 3 → bit u.power.frozen.toNat k = true) ∧
      (b = .sen → sev = 3 → s.power.mode = .on → flag u (senReg 0) 6 = true ∧ u.scans = []) ∧
      (s.power.fatal = false →
        (b ∈ [FltSet.xbar, .evc, .wrd, .rmp] ∨ (sev ≠ 3 ∧ (b ∈ [FltSet.mram, .sen, .thm] ∨ ∃ k, b = .ivr k))) →
        u.power.fatal = true ∧ rd u 0x30 = BitVec.ofNat 32 (0x80000000 + fltSource b) ∧
        (∀ p, p < 16 → (u.port p).link = .off) ∧ (∀ k, k < 8 → (u.core k).state = .off) ∧ u.power.alert = true)) ∧
    u.mram = s.mram

/-- R403, R405, R406: FAULT_DETECTED records and reacts; an acknowledgement clears the named classes with their severity,
but for a condition that still holds, and ALERT_N follows; the end of a reaction shadow closes it. -/
def Obligations.FaultCommands : Prop :=
  ∀ (s : State) (b : FltSet),
    (∀ (cls : Fin 24) (d : BitVec 96) (n : BitVec 32), setLive s b = true → cls.val < classCount b →
      (alreadyHeld s b cls = true → exec (.faultDetected b cls d n) s = .next s) ∧
      (alreadyHeld s b cls = false → ∃ v, exec (.faultDetected b cls d n) s = .next (react v.1 b cls v.2) ∧
        v = record (faultSide s b cls d) b cls (detailOf b cls d) (max 1 n.toNat))) ∧
    (∀ v : Reg32, reaches s (fltBase b) = true →
      Completes (.fltStatAck b v) s (fun u =>
        (∀ c, c < classCount b → bit v.toNat c = true → alreadyHeld s b c = false →
          statBit u b c = false ∧ (statBit s b c = true → sevOf u b c = 0 ∧ consOf u b c = false)) ∧
        (∀ c, c < classCount b → (bit v.toNat c = false ∨ alreadyHeld s b c = true) →
          statBit u b c = statBit s b c ∧ sevOf u b c = sevOf s b c ∧ consOf u b c = consOf s b c) ∧
        u.power.alert = alertCond u ∧
        RegsBut [fltBase b, fltBase b + 8, fltBase b + 12, fltBase b + 16] s u ∧ SameMemory s u)) ∧
    (∀ x : Shadow, s.shadows.find? (fun e => e.owner = b && !e.fatal) = some x →
      (shadowOver s b = false → exec (.shadowEnd b) s = .next s) ∧
      (shadowOver s b = true → (∀ e ∈ x.seen, alreadyHeld s e.1 e.2 = false) → exec (.shadowEnd b) s =
        .next { s with shadows := s.shadows.eraseP (fun e => e.owner = b && !e.fatal) }))

/-! ## Register accesses -/

/-- R16: a register access at an aligned offset that no register has and that is not in the MRAM aperture reads 0, writes
nothing, and succeeds, whatever the state of the block. -/
def Obligations.ReservedOffsetsReadZero : Prop :=
  ∀ (s : State) (path off : Nat) (v : Reg32), off % 4 = 0 → inAperture off = false → regDef s.part off = none →
    readCsr s path off = (s, 0, rcSuccess) ∧ writeCsr s path off v = (s, rcSuccess)

/-- R11, R12, R14, R16, R17, R35, R44: register rows: a read of GBL_TIME_LO returns bits [31:0] of the timebase and
latches the rest for its path; a read clears RC bits; a write of a defined register acts by that register's rule,
and one that fails changes no register but the path's failure latch; GBL_LOCK.LOCK is set and freezes RWL fields.
R371, R400: BAR0: a 4-byte or 8-byte read returns its registers, a 4-byte write writes its register; a narrower
access, and any access to a fenced port, reads 0 and latches its status in the failure latch of BAR0. -/
def Obligations.RegisterAccesses : Prop :=
  (∀ s : State, sentinelUp s = true →
     (∀ p : Path, Completes (.timeLoRead p) s (fun u =>
       (tget noShadow s.shadow (shadowKey p.val 0x20) = none → tget zero u.readOut p.val = s.now.extractLsb' 0 32) ∧
       shownOn u p.val 0x24 = s.now.extractLsb' 32 32 ∧
       (∀ q : Path, q ≠ p → shownOn u q.val 0x24 = shownOn s q.val 0x24) ∧ RegsBut [] s u ∧ SameMemory s u)) ∧
     (∀ (p : Path) (o : BitVec 26) (d : RegDef), accessStatus s o.toNat = rcSuccess → inAperture o.toNat = false →
       regDef s.part o.toNat = some d →
       Completes (.readClear p o) s (fun u => tget zero u.readOut p.val = shownOn s p.val o.toNat ∧
         (∀ i, i < 32 → flag u o.toNat i = (flag s o.toNat i && !bit d.rc i)) ∧ RegsBut [o.toNat] s u ∧ SameMemory s u)) ∧
     (∀ (p : Path) (o : BitVec 26) (v : Reg32),
       (accessStatus s o.toNat = rcSuccess → inAperture o.toNat = false → (regDef s.part o.toNat).isSome = true →
         exec (.registerWrite p o v) s = .next (writeReg s o.toNat v)) ∧
       (accessStatus s o.toNat ≠ rcSuccess → 8 ≤ p.val → Completes (.registerWrite p o v) s (fun u =>
         RegsBut [accStat p.val] s u ∧ u.tums = s.tums ∧ u.ports = s.ports ∧ SameMemory s u)) ∧
       (∀ d, o.toNat < 0x100000 → fltAt s.part o.toNat = none → regDef s.part o.toNat = some d →
         let w := if o.toNat = 0x28 ∧ flag s 0x28 2 = true then v &&& 0xFFFFFFFD else v
         rd (writeReg s o.toNat v) o.toNat = BitVec.ofNat 32 (written d (locked s) (rd s o.toNat).toNat w.toNat 0) ∧
         RegsBut [o.toNat] s (writeReg s o.toNat v))) ∧
     (∀ v : Reg32, Completes (.gblLockSet v) s (fun u => locked u = true ∧ RegsBut [0x10] s u ∧ SameMemory s u)) ∧
     (locked s = true → ∀ (k : CoreN) (v : Reg32), rd (writeReg s (coreReg k 0) v) (coreReg k 0) = rd s (coreReg k 0))) ∧
  (∀ (s : State) (o : BitVec 26), strikeLive s = true →
     let b := count { s with usb := { s.usb with link := true } } (cUsb 0) 1
     let ok (x : State) (n : Nat) := accessStatus x n = rcSuccess ∧ inAperture n = false ∧ (regDef x.part n).isSome = true
     (s.usb.fenced = false → ok b o.toNat →
       let r := clearRc (latchHi b 8 o.toNat) o.toNat
       exec (.bar0Access o 4 none) s = .next { r with usb := { r.usb with bar0 := [shownOn b 8 o.toNat] } } ∧
       (ok r (o.toNat + 4) → ∃ x, exec (.bar0Access o 8 none) s = .next x ∧
         x.usb.bar0 = [shownOn b 8 o.toNat, shownOn r 8 (o.toNat + 4)] ∧ SameMemory s x) ∧
       (∀ v, exec (.bar0Access o 4 (some [v])) s =
         .next { writeReg b o.toNat v with usb := { (writeReg b o.toNat v).usb with bar0 := [] } })) ∧
     (s.usb.fenced = true → Completes (.bar0Access o 4 none) s (fun u => u.usb.bar0 = [0] ∧
       (flag s (accStat 8) 31 = false → rd u (accStat 8) = BitVec.ofNat 32 (2 ^ 31 + 0x0500)) ∧
       RegsBut [accStat 8] s u ∧ SameMemory s u)) ∧
     (∀ n, 0 < n → n < 4 → s.usb.fenced = false → Completes (.bar0Access o n none) s (fun u => u.usb.bar0 = [0] ∧
       (flag s (accStat 8) 31 = false → rd u (accStat 8) = BitVec.ofNat 32 (2 ^ 31 + rcBadAlign.toNat)) ∧
       RegsBut [accStat 8] s u ∧ SameMemory s u)))

/-! ## Power, resets, bring-up -/

/-- R446 to R449, R451 to R453, R458: a brown-out stamps its registers and begins the drain, VIN_HIGH drains as well; each
tumbler ends its drain in self-refresh with an empty queue; the commit empties the log tail, latches RETAIN, switches the
rails off and enters Hold or retention; recovery and the return of VIN leave it with their causes; HOLD_VIN below 8.5 V
clears RETAIN; HOLD_OK follows its input, and HOLD_LOW is recorded or ends with it. -/
def Obligations.PowerFailDrainAndHold : Prop :=
  ∀ s : State,
    (∀ slope, sentinelUp s = true → s.power.mode = .on → (slope = true → slopeOn s = true) →
      Completes (.brownOut slope) s (fun u => u.power.mode = .draining .brownOut ∧ u.power.stopAt = s.now ∧
        u.scans = [] ∧ flag u (senReg 0) 6 = true ∧ flag u (senReg 0xC) (b2n slope) = true ∧
        rd u (senReg 0x10) = s.now.extractLsb' 0 32 ∧ rd u (senReg 0x14) = s.now.extractLsb' 32 32 ∧ SameMemory s u)) ∧
    (sentinelUp s = true → s.power.mode = .on → shadowOf s .sen 2 = none → statBit s .sen 2 = false →
      Completes .vinHigh s (fun u => u.power.mode = .draining .vinHigh ∧ statBit u .sen 2 = true ∧
        flag u (senReg 0) 6 = true ∧ SameMemory s u)) ∧
    (∀ t : Tum, (draining s = true ∨ s.power.fatal = true) → haspLive s = true → noWrites s t = true →
      Completes (.drainComplete t) s (fun u => (u.tum t).q = TQueue.init ∧ bit u.power.drained.toNat t = true ∧
        (tstate s t ≠ .offline → tstate s t ≠ .latchOut → (u.tum t).mode.self = true) ∧
        TumsBut t s u ∧ RegsBut [] s u ∧ SameMemory s u)) ∧
    (∀ c, s.power.mode = .draining c → c ≠ .thermalTrip → haspLive s = true → drainOver s = true →
      s.power.wrstHeld = false →
      Completes .mramCommitDone s (fun u => u.power.mode = (if entersHold s c then .hold c false else .retained c) ∧
        u.power.retain = (!s.power.fatal && allOnceOnline s) ∧ u.logTail = [] ∧ u.power.haspUp = false ∧
        u.power.strikeUp = false ∧ u.power.railRow = 0 ∧ u.power.railsOn = s.power.railsOn &&& 0x06 ∧
        flag u (senReg 0) 6 = false ∧ u.dram = s.dram)) ∧
    (afterBrownOut s = true → s.power.front = true → flag s 0x28 2 = false →
      Completes .vinRecovery s (fun u => u.power.mode = .on ∧ u.power.railRow = 0 ∧ u.power.retain = s.power.retain ∧
        fld u 0x40 3 0 = 5 ∧ flag u (senReg 0xC) 2 = true ∧ RegsBut [0x40, senReg 0, senReg 0xC] s u ∧ SameMemory s u)) ∧
    (s.power.mode = .hold .powerState true → s.power.front = true → s.power.fatal = false → flag s 0x28 2 = false →
      Completes .holdExitVin s (fun u => u.power.mode = .on ∧ u.power.railRow = 0 ∧ u.power.retain = s.power.retain ∧
        fld u 0x40 3 0 = 4 ∧ RegsBut [0x40, senReg 0] s u ∧ SameMemory s u)) ∧
    (∀ c l, s.power.mode = .hold c l →
      exec .holdVinLow s = .next { s with power := { s.power with retain := false } }) ∧
    (∀ ok, sentinelUp s = true →
      ((ok = true ∨ flag s (senReg 8) 8 = false) → exec (.holdOkChange ok) s =
        .next (condEnd (setF s (senReg 0) 5 5 (b2n ok)) .sen 3)) ∧
      (ok = false → flag s (senReg 8) 8 = true → condHolds s .sen 3 = false → exec (.holdOkChange ok) s =
        .next (fault (setF s (senReg 0) 5 5 0) .sen 3 0 1)))

/-- R438 to R440, R443, R34, R485: the front stage, the rails and the clock: the rail sequence brings its next row up, and
its last row starts the Strike logic; a set-point in force ramps by at most 2 mV toward its TARGET; a TARGET outside its
window is rejected; a loss of the reference shows in GBL_TB_STAT and raises its event; QUIET bits are written. -/
def Obligations.RailsAndClock : Prop :=
  ∀ s : State,
    (s.power.mode ≠ .off → exec .frontStageStart s = .next { s with power := { s.power with front := true } }) ∧
    (s.power.mode = .off → Completes .frontStageStart s (fun u => u.power.mode = .on ∧ u.power.front = true ∧
      u.power.railRow = 0 ∧ u.now = 0 ∧ fld u 0x40 3 0 = 0 ∧ u.mram = s.mram)) ∧
    ((∀ c l, s.power.mode ≠ .hold c l) → Completes .frontStageStop s (fun u => u.power.mode = .off ∧
      u.power.front = false ∧ u.mram = s.mram ∧ (∀ a, dramByte u a = 0))) ∧
    (∀ c l, s.power.mode = .hold c l → exec .frontStageStop s =
      .next { s with power := { s.power with mode := .hold c true, front := false } }) ∧
    (railReady s = true → Completes .railSequenceStep s (fun u => u.power.railRow = s.power.railRow + 1 ∧
      u.power.porst = false ∧
      (∀ r ∈ railRowOf s.power.railRow, bit u.power.railsOn.toNat r = true ∧
        (bit s.power.railsOn.toNat r = false →
          fld u (senReg (0x100 + 4 * r)) 27 16 = fld s (senReg (0x100 + 4 * r)) 11 0)) ∧
      (s.power.railRow = 6 → u.power.strikeUp = true ∧ flag u (senReg 0) 7 = true) ∧ SameMemory s u)) ∧
    (∀ r : Fin 8, bit s.power.railsOn.toNat r = true → Completes (.ivrRampStep r) s (fun u =>
      let o := senReg (0x100 + 4 * r)
      fld u o 27 16 = rampTo (fld s o 27 16) (fld s o 11 0) ∧ fld u o 11 0 = fld s o 11 0 ∧ RegsBut [o] s u ∧
      SameMemory s u)) ∧
    (∀ (r : Fin 8) (v : Reg32), reaches s (senReg (0x100 + 4 * r)) = true →
      let o := senReg (0x100 + 4 * r)
      (railLow r ≤ bits v.toNat 11 0 → bits v.toNat 11 0 ≤ railHigh r → railFrozen s r = false →
        Completes (.senIvrTargetWrite r v) s (fun u => fld u o 11 0 = bits v.toNat 11 0 ∧
          fld u o 27 16 = fld s o 27 16 ∧ RegsBut [o] s u ∧ SameMemory s u)) ∧
      ((bits v.toNat 11 0 < railLow r ∨ railHigh r < bits v.toNat 11 0 ∨ railFrozen s r = true) →
        ∃ w, exec (.senIvrTargetWrite r v) s = .next (paramFault w (ownerSet o)) ∧ RegsBut [] s w ∧ SameMemory s w)) ∧
    (sentinelUp s = true → flag s 0x28 2 = false → Completes .refclkLoss s (fun u => flag u 0x28 2 = true ∧
      flag u 0x28 1 = true ∧ (haspLive s = true → u.pulses = s.pulses ++ [(0x289, 0)]) ∧ SameMemory s u)) ∧
    (sentinelUp s = true → flag s 0x28 2 = true →
      exec .refclkReturn s = .next (condEnd (setF s 0x28 2 2 0) .sen 4)) ∧
    (∀ (w : Fin 3) (v : Reg32), reaches s (senReg (0x20 + 4 * w)) = true → Completes (.quietBitWrite w v) s (fun u =>
      (w.val < 2 → rd u (senReg (0x20 + 4 * w)) = v) ∧
      (w.val = 2 → fld u (senReg 0x28) 15 0 = bits v.toNat 15 0) ∧
      (∀ t, t < 64 → tstate s t = .quiet → (s.tum t).mode.wake = .no → quietBit u t = false →
        (u.tum t).mode.wake = .quiet) ∧ RegsBut [senReg (0x20 + 4 * w)] s u ∧ SameMemory s u))

/-- R493 to R496, R498, R499: resets: PORST_N holds the module with every register but GBL_RST_STAT and GBL_STRAP at its reset
value; a warm reset keeps the registers of the Sentinel and the counters, returns the others to their reset values, and
counts itself; a rising WRST_N starts the boot with its cause; a port logic reset advances the port's generation,
empties it, and leaves the other ports alone. -/
def Obligations.Resets : Prop :=
  ∀ s : State,
    (s.power.mode ≠ .off → s.power.front = true → Completes .porstN s (fun u => u.power.porst = true ∧
      u.power.railRow = 0 ∧ u.power.retain = false ∧ u.now = 0 ∧ fld u 0x40 3 0 = 1 ∧ u.mram = s.mram ∧
      ∀ o, o ≠ 0x40 → o ≠ 0x48 → rd u o = regReset s.part o)) ∧
    (s.power.mode ≠ .off → s.power.wrstLow = false → s.power.porst = false → draining s = false →
      retaining s = false → Completes .wrstN s (fun u => u.power.wrst = true ∧ u.power.wrstLow = true ∧
        u.power.fatal = false ∧ u.power.haspUp = false ∧ u.now = s.now ∧ u.scans = [] ∧
        fld u 0x40 23 16 = min 255 (fld s 0x40 23 16 + 1) ∧ (∀ p, p < 16 → (u.port p).link = .off) ∧
        (∀ o, keptReg o = true → o ≠ 0x40 → rd u o = rd s o) ∧
        (∀ o, keptReg o = false → counterReg o = false → rd u o = regReset s.part o) ∧ SameMemory s u)) ∧
    (s.power.mode ≠ .off → s.power.wrstLow = false → s.power.porst = false → draining s = true →
      exec .wrstN s = .next { s with power := { s.power with wrstLow := true, wrstHeld := true } }) ∧
    (s.power.wrstLow = true →
      (s.power.wrst = false → exec .wrstNRise s = .next { s with power := { s.power with wrstLow := false } }) ∧
      (s.power.wrst = true → Completes .wrstNRise s (fun u => u.power.wrst = false ∧ u.power.wrstLow = false ∧
        fld u 0x40 3 0 = (if s.power.retain then 3 else 2) ∧
        (s.power.railRow = 7 → s.power.mode = .on → fld u 0x44 3 0 = 1 ∧ u.usb.link = true) ∧
        RegsBut [0x40, 0x44] s u ∧ SameMemory s u))) ∧
    (∀ p : PortN, strikeLive s = true → (s.port p).link ≠ .latchOut → Completes (.portLogicReset p) s (fun u =>
      (u.port p).gen = (s.port p).gen + 1 ∧ (u.port p).cmpBuf = [] ∧ (u.port p).cmdQ = [] ∧
      ((u.port p).link = .off ∨ (u.port p).link = .detect) ∧
      (flag s (fpReg p 0x8000) 0 = false → (u.port p).link = .off) ∧
      (flag s (fpReg p 0x8000) 0 = true → flag s (fpReg p 4) 8 = false → s.power.fatal = false → s.power.mode = .on →
        (u.port p).link = .detect) ∧
      PortsBut p s u ∧ SameMemory s u))

/-- R501, R502: the boot goes through its stages: the image check checks the stores, the store load takes the Hasp core domain out
of reset and starts the cores (R164: of MRAM, only remap records of a retired slice change), firmware takes commands and enables every port, and the boot is over once every tumbler has come up and
every region is usable; a group of tumblers starts after the group before it. -/
def Obligations.BootStages : Prop :=
  ∀ s : State,
    (booting s = true →
      (stage s = 0 → exec .bootStage s = .next (setStage { s with usb := { s.usb with link := true } } 1)) ∧
      (stage s = 1 → Completes .bootStage s (fun u => stage u = 2 ∧ u.power.haspUp = s.power.haspUp ∧
        flag u 0x44 9 = (bestCal s).isNone ∧ SameMemory s u)) ∧
      (stage s = 2 → Completes .bootStage s (fun u => stage u = 3 ∧ u.power.haspUp = true ∧
        u.power.preserve = s.power.retain ∧ (∀ k, k < 8 → (u.core k).state = .booting) ∧
        (∀ k, bootImage s = some k → fld u fwStat 31 16 = imgVersion s k % 65536) ∧ u.dram = s.dram ∧
        (∀ a, a < 0xB00000 ∨ 0xB40000 ≤ a → mramByte u a = mramByte s a))) ∧
      (stage s = 3 → Completes .bootStage s (fun u => stage u = 4 ∧ u.power.taking = true ∧
        bit u.power.groups.toNat 0 = true ∧ (∀ p, p < 16 → flag u (fpReg p 0x8000) 0 = true) ∧
        (∀ k, k < 8 → (s.core k).state = .booting → (u.core k).state = .running) ∧
        (∀ t, t < 16 → tstate u t ≠ .offline) ∧ u.dram = s.dram)) ∧
      (stage s = 4 → bootOver s = true → Completes .bootStage s (fun u => stage u = 5 ∧ flag u 0x44 31 = true ∧
        u.power.retain = false ∧ RegsBut [0x44] s u ∧ SameMemory s u))) ∧
    (∀ g : Fin 4, running s = true → stage s = 4 → 0 < g.val → bit s.power.groups.toNat (g.val - 1) = true →
      bit s.power.groups.toNat g = false → Completes (.tumblerGroupStart g) s (fun u =>
        bit u.power.groups.toNat g = true ∧
        (∀ t, t < 64 → t / 16 = g.val → tstate u t ≠ .offline ∧ (tstate s t ≠ .offline → u.tum t = s.tum t)) ∧
        (∀ t, t < 64 → t / 16 ≠ g.val → u.tum t = s.tum t) ∧ u.dram = s.dram))

/-- R108, R109, R455: a zone rises at one evaluation to the band of its temperature, and falls by one band after 6,250 ticks
in which every evaluation found it 3 °C below the band it is in; the evaluation does so for every fitted zone, sends the
inputs' voltages to their registers, and makes a tumbler's emergency that of the zones over it. A slice in self-refresh
refreshes at the rate of its own sensor and guard, never below the band last sent (R121). -/
def Obligations.ThermalEvaluation : Prop :=
  (∀ (now : Nat) (z : Zone),
    (z.band.toNat < bandFor z.used → (bandStep now z).band = BitVec.ofNat 2 (bandFor z.used) ∧
      (bandStep now z).lowSince = none) ∧
    (bandFor z.used ≤ z.band.toNat → bandLow z.band.toNat z.used = false →
      (bandStep now z).band = z.band ∧ (bandStep now z).lowSince = none) ∧
    (bandFor z.used ≤ z.band.toNat → bandLow z.band.toNat z.used = true →
      (z.lowSince = none → (bandStep now z).band = z.band ∧ (bandStep now z).lowSince = some now) ∧
      (∀ a, z.lowSince = some a → now < a + 6250 → (bandStep now z).band = z.band ∧
        (bandStep now z).lowSince = some a) ∧
      (∀ a, z.lowSince = some a → a + 6250 ≤ now → (bandStep now z).band.toNat = z.band.toNat - 1))) ∧
  (∀ (s : State) (i : ThermIn), haspLive s = true → Completes (.thermalEvaluation i) s (fun u =>
    (∀ l z, l < s.part.leaves → z < 16 → (u.zone l z).band =
      (bandStep s.now.toNat { s.zone l z with used := (u.zone l z).used }).band) ∧
    (∀ t, t < 64 → (u.tum t).mode.emergency = zoneEmergency u t) ∧
    rd u (senReg 4) = i.holdMv ++ i.vinMv ∧ u.thermal.started = true ∧ SameMemory s u)) ∧
  (∀ (s : State) (l : LeafN) (z : Fin 16) (temp : Int), l.val < s.part.leaves →
    Completes (.leafSelfRefresh l z temp) s (fun u =>
      (∀ t, t < 64 → t / 4 = z.val → (s.tum t).mode.self = true → (s.tum t).sre.contains l.val = true →
        let x := tget noLeaf s.leaves l
        let own := max (tget zero x.sent t).toNat (bandFor ((temp : Rat) / 4 + ((tget zero x.guard t : Nat) : Rat)))
        let b := if (s.tum t).sreSuspect.contains l.val then max 2 own else own
        ∀ k, k < 4 → (setOf u t l k).away = (setOf s t l k).away + [1, 2, 4, 4].getD b 4) ∧
      (∀ t, t < 64 → (t / 4 ≠ z.val ∨ (s.tum t).mode.self = false) → u.tum t = s.tum t) ∧
      RegsBut [] s u ∧ SameMemory s u))

/-! ## Links -/

/-- R244, R245, R248, R251 to R256, R278: the states of a link: enabling a port starts detection and disabling it resets its
logic; termination and lock lead on to the key sets; a timeout leads back, to the next training attempt, or in Retrain to a
second Retrain and then to latch-out; a lost lane is excluded and starts a Retrain, a lost clock lane takes the port down;
LowPower is entered, and left at a wake request. -/
def Obligations.LinkStates : Prop :=
  ∀ (s : State) (p : PortN),
    (∀ v : Reg32, reaches s (fpReg p 0x8000) = true → bit v.toNat 1 = false →
      (bit v.toNat 0 = true → (s.port p).link = .off → flag s (fpReg p 4) 8 = false → s.power.fatal = false →
        s.power.mode = .on → Completes (.linkEnWrite p v) s (fun u => (u.port p).link = .detect ∧
          flag u (fpReg p 0x8000) 0 = true ∧ PortsBut p s u ∧ SameMemory s u)) ∧
      (bit v.toNat 0 = false → (s.port p).link ≠ .latchOut → Completes (.linkEnWrite p v) s (fun u =>
        (u.port p).link = .off ∧ flag u (fpReg p 0x8000) 0 = false ∧ (u.port p).gen = (s.port p).gen + 1 ∧
        PortsBut p s u ∧ SameMemory s u))) ∧
    (∀ v : Reg32, reaches s (fpReg p 0x8000) = true → bit v.toNat 0 = true → carries s p = true →
      Completes (.retrain p v) s (fun u => (u.port p).link = .retrain ∧
        (u.port p).phy.tested.toNat = 0xFFFF - excludedLanes s p ∧ (u.port p).phy.testEnded = false ∧
        RegsBut [fpReg p 0x8000, fpReg p 0x404, fpReg p 0x700] s u ∧ PortsBut p s u ∧ SameMemory s u)) ∧
    (strikeLive s = true →
      (∀ lanes, (s.port p).link = .detect → Completes (.detectPoll p true lanes) s (fun u =>
          (u.port p).link = .clockLock ∧ (u.port p).phy.sensed = lanes ∧ fld u (fpReg p 8) 3 2 = 2 ∧
          RegsBut [fpReg p 8] s u ∧ PortsBut p s u ∧ SameMemory s u) ∧
        Completes (.detectPoll p false lanes) s (fun u => (u.port p).link = .detect ∧
          (u.port p).phy.sensed = lanes ∧ RegsBut [] s u ∧ PortsBut p s u ∧ SameMemory s u)) ∧
      ((s.port p).link = .clockLock →
        Completes (.clockLock p) s (fun u => (u.port p).link = .trainKs1 ∧ flag u (fpReg p 0x140) 1 = true ∧
          (∀ l, l < 16 → bit (s.port p).phy.sensed.toNat l = true → flag u (fpReg p (0x100 + 4 * l)) 1 = true) ∧
          PortsBut p s u ∧ SameMemory s u) ∧
        Completes (.clocklockTimeout p) s (fun u => (u.port p).link = .detect ∧ PortsBut p s u ∧ SameMemory s u)) ∧
      ((s.port p).link = .trainKs1 → ∃ b, exec (.ks1Timeout p) s = .next (fault b (.port p) 6 0 1) ∧
        (b.port p).link = .detect ∧ flag b (fpReg p 0x800C) 1 = true ∧ PortsBut p s b ∧ SameMemory s b) ∧
      ((s.port p).link = .trainKs2 →
        ((s.port p).phy.fails + 1 < 3 → Completes (.ks2Timeout p) s (fun u => (u.port p).link = .trainKs1 ∧
          (u.port p).phy.fails = (s.port p).phy.fails + 1 ∧ PortsBut p s u ∧ SameMemory s u)) ∧
        (3 ≤ (s.port p).phy.fails + 1 → (s.port p).phy.rate ≠ 2 → Completes (.ks2Timeout p) s (fun u =>
          (u.port p).link = .trainKs1 ∧ (u.port p).phy.fails = 0 ∧ (u.port p).phy.floor = (s.port p).phy.rate + 1 ∧
          PortsBut p s u ∧ SameMemory s u)) ∧
        (3 ≤ (s.port p).phy.fails + 1 → (s.port p).phy.rate = 2 → ∃ b, exec (.ks2Timeout p) s =
          .next (fault b (.port p) 6 0 1) ∧ (b.port p).link = .detect ∧ flag b (fpReg p 0x800C) 1 = true)) ∧
      (∀ l : LaneN, carries s p = true → bit (rxLanes s p) l = true → statBit s (.port p) 2 = false →
        Completes (.laneLoss p l) s (fun u => (u.port p).link = .retrain ∧ flag u (laneStat s p l) 4 = true ∧
          flag u (laneStat s p l) 5 = true ∧ flag u (laneStat s p l) 1 = false ∧ PortsBut p s u ∧ SameMemory s u)) ∧
      ((carries s p = true ∨ (s.port p).link = .retrain ∨ (s.port p).link = .lowPower) →
        Completes (.clockLaneLoss p) s (fun u => (u.port p).link = .latchOut ∧ flag u (fpReg p 0x140) 4 = true ∧
          SameMemory s u)) ∧
      ((s.port p).link = .test → Completes (.clockLaneLoss p) s (fun u => u.ports = s.ports ∧
        flag u (fpReg p 0x140) 4 = true ∧ flag u (fpReg p 0x140) 1 = false ∧ RegsBut [fpReg p 0x140] s u ∧
        SameMemory s u)) ∧
      (∀ rx tx, (s.port p).link = .retrain → (s.port p).phy.testEnded = false →
        let h := rx &&& (s.port p).phy.tested
        (widthFrom s p h.toNat ≠ 3 → widthFrom s p tx.toNat ≠ 3 → Completes (.retrainLaneTestEnd p rx tx) s (fun u =>
          (u.port p).link = .retrain ∧ (u.port p).phy.testEnded = true ∧ (u.port p).phy.rxHealthy = h ∧
          (u.port p).phy.txHealthy = tx ∧ (∀ l, l < 16 → flag u (laneStat s p l) 0 = bit h.toNat l ∧ flag u (laneStat s p l) 1 = bit h.toNat l) ∧
          PortsBut p s u ∧ SameMemory s u)) ∧
        ((widthFrom s p h.toNat = 3 ∨ widthFrom s p tx.toNat = 3) → Completes (.retrainLaneTestEnd p rx tx) s (fun u =>
          (u.port p).link = .latchOut ∧ SameMemory s u))) ∧
      ((s.port p).link = .retrain → ((s.port p).phy.second = true →
          Completes (.retrainTimeout p) s (fun u => (u.port p).link = .latchOut ∧ SameMemory s u)) ∧
        ((s.port p).phy.second = false → Completes (.retrainTimeout p) s (fun u => (u.port p).link = .retrain ∧
          (u.port p).phy.second = true ∧ (u.port p).phy.testEnded = false ∧
          (u.port p).phy.tested = (if (s.port p).phy.testEnded then (s.port p).phy.rxHealthy else (s.port p).phy.tested) ∧
          RegsBut [] s u ∧ PortsBut p s u ∧ SameMemory s u))) ∧
      (carries s p = true → (s.port p).lp = .entering →
        Completes (.lowpowerEntry p) s (fun u => (u.port p).link = .lowPower ∧ (u.port p).lp = .none ∧ PortsBut p s u ∧
          SameMemory s u) ∧
        exec (.wakeRequest p) s = .next (s.modPort p (fun x => { x with
          lp := .none
          ctlDue := if x.ctlDue = some 3 then some 4 else if x.ctlDue = some 2 then none else x.ctlDue }))) ∧
      ((s.port p).link = .lowPower →
        exec (.wakeRequest p) s = .next (s.modPort p (fun x => { x with lp := .waking })) ∧
        ((s.port p).lp = .waking → ∀ failed : BitVec 16,
          ((∀ l, l < 16 → bit failed.toNat l = true → bit (rxLanes s p) l = false) → flag s (fpReg p 8) 4 = false →
            Completes (.lowpowerExitDone p failed) s (fun u =>
              (u.port p).link = (if rxCount s p = 16 ∧ txCount s p = 16 then .active else .degraded) ∧
              (u.port p).lp = .none ∧ flag u (fpReg p 0x140) 1 = true ∧
              (∀ l, l < 16 → flag u (laneStat s p l) 1 = bit (rxLanes s p) l) ∧
              RegsOutside (fun o => o = fpReg p 0x140 ∨ ∃ l, l < 16 ∧ o = laneStat s p l) s u ∧ PortsBut p s u ∧
              SameMemory s u)) ∧
          ((∃ l, l < 16 ∧ bit failed.toNat l = true ∧ bit (rxLanes s p) l = true) → statBit s (.port p) 2 = false →
            Completes (.lowpowerExitDone p failed) s (fun u => (u.port p).link = .retrain ∧ PortsBut p s u ∧
              ∀ l, l < 16 → bit failed.toNat l = true → bit (rxLanes s p) l = true →
                flag u (laneStat s p l) 4 = true ∧ flag u (laneStat s p l) 5 = true)))))

/-- R246 to R250, R262, R278 to R283, R290, R303: key sets, rates and the training sweep: a valid key set lengthens its
lane's run or starts a new one, an inverted one inverts the lane; a complete KS1 exchange records the partner and chooses
the rate, a complete KS2 exchange opens the link at the agreed widths with its numbers started; the sweep keeps the
greatest area of each lane, sets phase and area at its end, and is restarted by a written rate. -/
def Obligations.KeySetsRatesAndSweeps : Prop :=
  ∀ (s : State) (p : PortN), strikeLive s = true →
    (∀ (l : LaneN) (raw : KeySetBits), inKeys s p = true →
      let x := s.port p
      let k := if bit x.polInv.toNat l then 2 ^ 256 - 1 - raw.toNat else raw.toNat
      let o := tget (fun _ => LaneKs.init) x.ks l
      (∀ kind d, bits k 31 0 ≠ 2 ^ 32 - 1 - ks1Id → readKeySet s p l k = some (kind, d) →
        (x.link = .trainKs1 → kind = 1 → bits d 37 36 = fld s (fpReg p 0x8004) 1 0 ∧ bits d 47 44 = 1) →
        Completes (.keySetReceived p l raw) s (fun u => tget (fun _ => LaneKs.init) (u.port p).ks l =
            { kind := kind, fields := BitVec.ofNat 256 (d &&& keyFields kind),
              run := if o.kind = kind ∧ 0 < o.run ∧ o.fields = BitVec.ofNat 256 (d &&& keyFields kind) then o.run + 1
                else 1 } ∧
          (u.port p).ksHeard = (x.ksHeard || keyKind s p == kind) ∧
          (kind = 2 → keyKind s p = 2 → (u.port p).phy.txHealthy = BitVec.ofNat 16 (bits d 67 52)) ∧
          RegsBut [] s u ∧ PortsBut p s u ∧ SameMemory s u)) ∧
      (bits k 31 0 ≠ 2 ^ 32 - 1 - ks1Id → readKeySet s p l k = none → Completes (.keySetReceived p l raw) s (fun u =>
        (tget (fun _ => LaneKs.init) (u.port p).ks l).run = 0 ∧ RegsBut [] s u ∧ PortsBut p s u ∧ SameMemory s u)) ∧
      (bits k 31 0 = 2 ^ 32 - 1 - ks1Id → Completes (.keySetReceived p l raw) s (fun u =>
        (u.port p).polInv = x.polInv ^^^ BitVec.ofNat 16 (2 ^ l.val) ∧
        flag u (fpReg p (0x100 + 4 * l)) 2 = !bit x.polInv.toNat l ∧
        RegsBut [fpReg p (0x100 + 4 * l)] s u ∧ PortsBut p s u ∧ SameMemory s u))) ∧
    ((s.port p).link = .trainKs1 →
      let m := posMask s p (s.port p).phy.sensed.toNat
      ∀ r, keysDone s p 1 m = true → chooseRate s p (bits (firstKeys s p m) 40 38) = some r →
        Completes (.keySetExchangeComplete p) s (fun u => (u.port p).link = .trainSweep ∧
          (u.port p).phy.rate.toNat = r ∧ (u.port p).phy.rated = true ∧ flag u (fpReg p 8) 4 = false ∧
          rd u (fpReg p 0x8024) = BitVec.ofNat 32 (bits (firstKeys s p m) 148 117) ∧ PortsBut p s u ∧ SameMemory s u)) ∧
    ((s.port p).link = .trainKs2 →
      let m := posMask s p (ks2Lanes s p)
      let k := firstKeys s p m
      let rw := widthFrom s p (s.port p).phy.rxHealthy.toNat
      let tw := widthFrom s p (bits k 67 52)
      keysDone s p 2 m = true → tw ≠ 3 → bits k 69 68 = tw →
        Completes (.keySetExchangeComplete p) s (fun u =>
          (u.port p).link = (if rw = 0 ∧ tw = 0 then .active else .degraded) ∧ fld u (fpReg p 0x10) 3 0 = 4 * tw + rw ∧
          (u.port p).rxLast = 1023 ∧ (u.port p).txNext = 0 ∧ (u.port p).replay = [] ∧
          (mirrorRole s p = false →
            (tget zero (u.port p).limit 0).toNat = (if bits k 92 81 ≤ 2047 then bits k 92 81 else 0) ∧
            (tget zero (u.port p).limit 1).toNat = (if bits k 104 93 ≤ 2047 then bits k 104 93 else 0) ∧
            (2047 < bits k 92 81 ∨ 2047 < bits k 104 93 → flag u (fpReg p 0x800C) 6 = true)) ∧
          (mirrorRole s p = true →
            (tget zero (u.port p).limit 2).toNat = (if bits k 116 105 ≤ 2047 then bits k 116 105 else 0) ∧
            (2047 < bits k 116 105 → flag u (fpReg p 0x800C) 6 = true)) ∧ SameMemory s u)) ∧
    (sweeping s p = true → (s.port p).phy.relocked = false → Completes (.trainRateRelock p) s (fun u =>
      fld u (fpReg p 8) 3 2 = (s.port p).phy.rate.toNat ∧ (u.port p).phy.relocked = true ∧ RegsBut [fpReg p 8] s u ∧
      PortsBut p s u ∧ SameMemory s u)) ∧
    (∀ meas : List (BitVec 9), sweeping s p = true → (s.port p).phy.relocked = true →
      let best := tget noBest (s.port p).phy.sweepBest
      let step := (s.port p).phy.sweepStep
      (flag s (fpReg p 8) 4 = true → Completes (.trainSweepStep p meas) s (fun u => flag u (fpReg p 8) 4 = false ∧
        flag u (fpReg p 8) 5 = true ∧ (u.port p).phy.sweepStep = 0 ∧ (u.port p).phy.sweepBest = [] ∧
        ((s.port p).link = .trainSweep → (u.port p).link = .trainKs1) ∧ PortsBut p s u ∧ SameMemory s u)) ∧
      (flag s (fpReg p 8) 4 = false → step < sweepSteps s p → Completes (.trainSweepStep p meas) s (fun u =>
        (u.port p).phy.sweepStep = step + 1 ∧
        (∀ l, l < 16 → tget noBest (u.port p).phy.sweepBest l =
          if (sweepRange s p l).1 + step ≤ (sweepRange s p l).2 ∧ (best l).1 < meas.getD l 0 then
            (meas.getD l 0, BitVec.ofNat 5 ((sweepRange s p l).1 + step)) else best l) ∧
        RegsBut [] s u ∧ PortsBut p s u ∧ SameMemory s u)) ∧
      (flag s (fpReg p 8) 4 = false → sweepSteps s p ≤ step → (s.port p).link = .trainSweep →
        ∀ h : BitVec 16, (∀ l, l < 16 → bit h.toNat l = (bit (s.port p).phy.rxHealthy.toNat l && (best l).1 != 0)) →
          widthFrom s p h.toNat ≠ 3 → Completes (.trainSweepStep p meas) s (fun u => (u.port p).link = .trainKs2 ∧
            (u.port p).phy.rxHealthy = h ∧ (∀ l, l < 16 → fld u (fpReg p (0x200 + 4 * l)) 24 16 = (best l).1.toNat ∧
              ((best l).1 ≠ 0 → fld u (fpReg p (0x200 + 4 * l)) 13 8 = (meas.getD l 0).toNat % 64)) ∧
            PortsBut p s u ∧ SameMemory s u))) ∧
    (∀ v : Reg32, reaches s (fpReg p 8) = true →
      (bits v.toNat 1 0 ≠ 3 → Completes (.phyRateReqWrite p v) s (fun u => fld u (fpReg p 8) 1 0 = bits v.toNat 1 0 ∧
        flag u (fpReg p 8) 4 = true ∧ fld u (fpReg p 8) 3 2 = fld s (fpReg p 8) 3 2 ∧
        (carries s p = true → (u.port p).link = .retrain ∧ (u.port p).phy.withSweep = true) ∧
        (carries s p = false → u.ports = s.ports) ∧ PortsBut p s u ∧ SameMemory s u)) ∧
      (bits v.toNat 1 0 = 3 → ∃ w, exec (.phyRateReqWrite p v) s = .next (paramFault w (.port p)) ∧
        fld w (fpReg p 8) 1 0 = fld s (fpReg p 8) 1 0 ∧ w.ports = s.ports))

/-- R237 to R243, R254, R257 to R259, R267 to R275: lanes: the equaliser moves one code at a time; an override is written; an
adaptation step chooses each lane's code or freezes it; UPWIDTH clears the exclusions and retrains; test mode is entered
from Off; eye scans start, abort and report; the checker's counters clear; an injection is armed and made. -/
def Obligations.LaneCommands : Prop :=
  ∀ (s : State) (p : PortN),
    (∀ l : LaneN, strikeLive s = true →
      (∀ g, eqGoal s p l = some g → g ≠ eqCode s p l → Completes (.eqCodeMove p l) s (fun u =>
        eqCode u p l = (if eqCode s p l < g then eqCode s p l + 1 else eqCode s p l - 1) ∧
        RegsBut [eqStat p l] s u ∧ u.ports = s.ports ∧ SameMemory s u)) ∧
      ((eqGoal s p l = none ∨ eqGoal s p l = some (eqCode s p l)) → exec (.eqCodeMove p l) s = .next s)) ∧
    (∀ (l : LaneN) (v : Reg32), reaches s (fpReg p (0x280 + 4 * l)) = true → Completes (.eqOvrWrite p l v) s (fun u =>
      fld u (fpReg p (0x280 + 4 * l)) 4 0 = bits v.toNat 4 0 ∧ eqHold u p l = bit v.toNat 8 ∧
      ((s.port p).link ≠ .test → tget noTarget (u.port p).phy.eqTarget l = none) ∧
      ((s.port p).link = .test → (u.port p).phy.eqTarget = (s.port p).phy.eqTarget) ∧
      ((s.port p).phy.adapting = true → bit (u.port p).phy.adaptSkip.toNat l = true ∧
        ((s.port p).phy.es.any (fun e => bits e.2.toNat 3 0 == l.val) = true → flag u (fpReg p 0x404) 4 = false)) ∧
      RegsBut [fpReg p (0x280 + 4 * l), fpReg p 0x404] s u ∧ PortsBut p s u ∧ SameMemory s u)) ∧
    (∀ meas : List (BitVec 9 × BitVec 9 × BitVec 9 × BitVec 6 × BitVec 12), strikeLive s = true → carries s p = true →
      ((s.port p).phy.adapting = true ∨ flag s (fpReg p 0) 9 = true) → Completes (.adaptationStep p meas) s (fun u =>
        (u.port p).phy.adapting = false ∧
        (∀ l m, l < 16 → meas[l]? = some m → adapts s p l = true →
          (1228 < m.2.2.2.2.toNat → (eqCode u p l, fld u (eqStat p l) 24 16) = adaptCode (eqCode s p l)
            (fld s (fpReg p 0xC) 19 16) m.1.toNat m.2.1.toNat m.2.2.1.toNat) ∧
          (m.2.2.2.2.toNat ≤ 1228 → flag u (laneStat s p l) 3 = true ∧ rd u (eqStat p l) = rd s (eqStat p l) ∧
            fld u (laneStat s p l) 31 16 = min 0xFFFF (fld s (laneStat s p l) 31 16 + 1))) ∧
        (∀ l, l < 16 → adapts s p l = false → rd u (eqStat p l) = rd s (eqStat p l)) ∧ PortsBut p s u ∧
        SameMemory s u)) ∧
    (∀ v : Reg32, reaches s (fpReg p 4) = true → bit v.toNat 8 = false →
      (carries s p = true → Completes (.upwidth p v) s (fun u => (u.port p).link = .retrain ∧
        (u.port p).phy.tested = 0xFFFF ∧ excludedLanes u p = 0 ∧ PortsBut p s u ∧ SameMemory s u)) ∧
      ((s.port p).link = .retrain → Completes (.upwidth p v) s (fun u => (u.port p).link = .retrain ∧
        (u.port p).phy.again = true ∧ excludedLanes u p = 0 ∧ PortsBut p s u ∧ SameMemory s u)) ∧
      (carries s p = true → bit v.toNat 0 = false → Completes (.adaptNow p v) s (fun u =>
        (u.port p).phy.adapting = true ∧ (u.port p).phy.adaptSkip = skipNow s p ∧ (u.port p).link = (s.port p).link ∧
        RegsBut [fpReg p 4] s u ∧ PortsBut p s u ∧ SameMemory s u)) ∧
      (bits v.toNat 1 0 = 0 → (s.port p).link = .test → Completes (.testModeWrite p v) s (fun u =>
        ((u.port p).link = .off ∨ (u.port p).link = .detect) ∧ flag u (fpReg p 4) 8 = false ∧
        (∀ l, l < 16 → flag u (fpReg p (0x100 + 4 * l)) 1 = false) ∧ PortsBut p s u ∧ SameMemory s u))) ∧
    (∀ v : Reg32, reaches s (fpReg p 4) = true → bit v.toNat 8 = true → bits v.toNat 1 0 = 0 → (s.port p).link = .off →
      Completes (.testModeWrite p v) s (fun u => (u.port p).link = .test ∧ flag u (fpReg p 4) 8 = true ∧
        fld u (fpReg p 8) 3 2 = max (fld s (fpReg p 8) 1 0) (fld s (fpReg p 0) 1 0) ∧
        (∀ l, l < 16 → tget zero (u.port p).phy.gens l = genStart (patternOf s p) l) ∧ (u.port p).phy.chks = [] ∧
        RegsBut [fpReg p 4, fpReg p 8, fpReg p 0x540] s u ∧ PortsBut p s u ∧ SameMemory s u)) ∧
    (∀ v : Reg32, reaches s (fpReg p 0x400) = true →
      (bit v.toNat 30 = false → bits v.toNat 27 24 ≤ 10 → mayScan s p (bits v.toNat 3 0) = true →
        flag s (fpReg p 0x404) 0 = false → Completes (.eyeScanStart p v) s (fun u => flag u (fpReg p 0x404) 0 = true ∧
          (u.port p).phy.es = some ((s.port p).link, v ||| 0x80000000) ∧ fld u (fpReg p 0x404) 3 2 = 0 ∧
          RegsBut [fpReg p 0x400, fpReg p 0x404] s u ∧ PortsBut p s u ∧ SameMemory s u)) ∧
      (bit v.toNat 31 = false → flag s (fpReg p 0x404) 0 = true → Completes (.eyeScanAbort p v) s (fun u =>
        flag u (fpReg p 0x404) 0 = false ∧ flag u (fpReg p 0x404) 2 = true ∧ (u.port p).phy.es = none ∧
        RegsBut [fpReg p 0x400, fpReg p 0x404] s u ∧ PortsBut p s u ∧ SameMemory s u))) ∧
    (∀ (e : LinkState × Reg32) (counts : List Nat) (low : Bool), (s.port p).phy.es = some e → strikeLive s = true →
      flag s (fpReg p 0x404) 0 = true → flag s (fpReg p 0x404) 4 = false →
      Completes (.eyeScanDone p counts low) s (fun u => flag u (fpReg p 0x404) 0 = false ∧
        flag u (fpReg p 0x404) 1 = true ∧ flag u (fpReg p 0x404) 3 = (flag s (fpReg p 0x404) 3 || low) ∧
        (u.port p).phy.es = none ∧
        (bit e.2.toNat 4 = true → ∀ i, i < 4096 → i < counts.length → rd u (fpReg p (0x1000 + 4 * i)) =
          BitVec.ofNat 32 (if i = 2080 then 0 else min 0xFFFF (counts.getD i 0))) ∧
        (bit e.2.toNat 4 = false → bits e.2.toNat 21 16 ≠ 32 → rd u (fpReg p 0x408) =
          BitVec.ofNat 32 (min 0xFFFFFFFF (counts.headD 0))) ∧ PortsBut p s u ∧ SameMemory s u)) ∧
    (∀ v : Reg32, reaches s (fpReg p 0x500) = true →
      ((s.port p).link = .test → Completes (.pgClear p v) s (fun u =>
        rd u (fpReg p 0x580) = 0 ∧ rd u (fpReg p 0x584) = 0 ∧ (∀ l, l < 16 → rd u (fpReg p (0x600 + 4 * l)) = 0) ∧
        fld u (fpReg p 0x500) 2 0 = (if bits v.toNat 2 0 < 5 then bits v.toNat 2 0 else fld s (fpReg p 0x500) 2 0) ∧
        flag u (fpReg p 0x500) 8 = bit v.toNat 8 ∧ PortsBut p s u ∧ SameMemory s u)) ∧
      ((s.port p).link ≠ .test → Completes (.pgClear p v) s (fun u =>
        fld u (fpReg p 0x500) 2 0 = (if bits v.toNat 2 0 < 5 then bits v.toNat 2 0 else fld s (fpReg p 0x500) 2 0) ∧
        (bits v.toNat 2 0 < 5 → RegsBut [fpReg p 0x500] s u) ∧ u.ports = s.ports ∧ SameMemory s u))) ∧
    (∀ v : Reg32, reaches s (fpReg p 0x700) = true → bits v.toNat 15 8 ≠ 0 → flag s (fpReg p 0x700) 16 = false →
      txLive s p (bits v.toNat 3 0) = true → Completes (.injectionGo p v) s (fun u => flag u (fpReg p 0x700) 16 = true ∧
        fld u (fpReg p 0x700) 15 8 = bits v.toNat 15 8 ∧ fld u (fpReg p 0x700) 3 0 = bits v.toNat 3 0 ∧
        RegsBut [fpReg p 0x700] s u ∧ u.ports = s.ports ∧ SameMemory s u)) ∧
    (strikeLive s = true → flag s (fpReg p 0x700) 16 = true → Completes (.injectionMade p) s (fun u =>
      (u.port p).phy.injLeft = fld s (fpReg p 0x700) 15 8 ∧
      (u.port p).phy.injLane = BitVec.ofNat 4 (fld s (fpReg p 0x700) 3 0) ∧ flag u (fpReg p 0x700) 16 = false ∧
      RegsBut [fpReg p 0x700] s u ∧ PortsBut p s u ∧ SameMemory s u))

/-! ## Flits -/

/-- R280, R286, R288 to R291, R293 to R295, R297 to R299, R303: reception. A data flit in sequence with its CRC right is
accepted, its ACK frees the replayed flits up to it, and its payload follows; a REQ within the grant that it holds
alone is kept. A flit that fails its CRC is discarded and a NAK is due. A control flit that passes its CRC brings its
limits, its ACK and its urgency, and its type's effect; one that fails brings nothing. KS1 in Active leads to Retrain. -/
def Obligations.FlitReception : Prop :=
  ∀ (s : State) (p : PortN), takesFlits s p = true →
    let x := s.port p
    let acked (a : BitVec 10) : List Held :=
      if x.replay.any (fun h => h.seq = a) then (x.replay.dropWhile (fun h => h.seq ≠ a)).drop 1 else x.replay
    (∀ raw : Flit,
      let f := raw.toNat ^^^ polMask s p ^^^ (rxMask s p).1
      bit f 0 = false →
      (flitCrc (x.rxLast + 1).toNat f = bits f 511 480 →
        (∃ b, exec (.dataFlitReceived p raw) s = .next (payloadIn b p f) ∧ (b.port p).rxLast = x.rxLast + 1 ∧
          (b.port p).discarding = false ∧ (b.port p).nakDue = false ∧ (b.port p).rxPkts = x.rxPkts ∧
          ((x.replay.map (·.seq)).Nodup → (b.port p).replay = acked (BitVec.ofNat 10 (bits f 15 6))) ∧
          RegsBut [] s b ∧ PortsBut p s b ∧ SameMemory s b) ∧
        (∀ (pkt : List (BitVec 16)) (pad : Nat),
          let n := chunkNat pkt
          toChunks 29 (bits f 479 16) = pkt ++ List.replicate pad 0 → bits f 5 1 = 0 → x.framing = false →
          x.rxPart = [] → bits n 5 0 = 4 → bits n 15 6 = pkt.length → 8 ≤ pkt.length → bits n 65 62 ≤ 5 →
          mirrorRole s p = false → x.stopped = false → withinGrant s p 0 = true →
          Completes (.dataFlitReceived p raw) s (fun u => (u.port p).rxPkts = x.rxPkts ++ [(s.now, usedBits pkt)] ∧
            tget zero (u.port p).got 0 = tget zero x.got 0 + 1 ∧ (u.port p).rxPart = [] ∧ RegsBut [] s u ∧
            PortsBut p s u ∧ SameMemory s u))) ∧
      (flitCrc (x.rxLast + 1).toNat f ≠ bits f 511 480 → Completes (.dataFlitReceived p raw) s (fun u =>
        (u.port p).discarding = true ∧ (u.port p).nakDue = (x.nakDue || !x.discarding) ∧ (u.port p).rxLast = x.rxLast ∧
        (u.port p).rxPkts = x.rxPkts ∧ (u.port p).replay = x.replay ∧ RegsBut [] s u ∧ PortsBut p s u ∧
        SameMemory s u))) ∧
    (∀ c : CtlFlit, c.crcOk = true → (x.replay.map (·.seq)).Nodup →
      let taken (u : State) : Prop :=
        (u.port p).urgRx = c.urg ∧ fld u (wrdReg (0x100 + 4 * p.val)) 1 0 = c.urg.toNat ∧
        (u.port p).replay = acked c.ack ∧
        (mirrorRole s p = false →
          ((c.cred0 - tget zero x.sent 0).toNat ≤ 2047 → tget zero (u.port p).limit 0 = c.cred0) ∧
          ((c.cred1 - tget zero x.sent 1).toNat ≤ 2047 → tget zero (u.port p).limit 1 = c.cred1) ∧
          (2047 < (c.cred0 - tget zero x.sent 0).toNat → tget zero (u.port p).limit 0 = tget zero x.limit 0 ∧
            flag u (fpReg p 0x800C) 6 = true)) ∧
        (mirrorRole s p = true →
          ((c.cred2 - tget zero x.sent 2).toNat ≤ 2047 → tget zero (u.port p).limit 2 = c.cred2)) ∧
        RegsBut [wrdReg (0x100 + 4 * p.val), fpReg p 0x800C] s u ∧ PortsBut p s u ∧ SameMemory s u
      Completes (.fc p 0 c) s (fun u => taken u ∧ (u.port p).lp = x.lp ∧ (u.port p).ctlDue = x.ctlDue) ∧
      (∀ t : BitVec 5, 5 ≤ t.toNat → Completes (.fc p t c) s (fun u => taken u ∧ flag u (fpReg p 0x800C) 6 = true)) ∧
      ((∀ h ∈ x.replay, h.sends < 4) → Completes (.nak p c) s (fun u => taken u ∧
        (u.port p).resend = (acked c.ack).map (·.seq))) ∧
      (x.lp = .asked → Completes (.lpReq p c) s (fun u => taken u ∧ (u.port p).lp = .entering) ∧
        Completes (.lpAck p c) s (fun u => taken u ∧ (u.port p).lp = .entering) ∧
        Completes (.lpDeny p c) s (fun u => taken u ∧ (u.port p).lp = .none)) ∧
      (x.lp ≠ .asked → Completes (.lpAck p c) s (fun u => taken u ∧ (u.port p).lp = x.lp) ∧
        Completes (.lpDeny p c) s (fun u => taken u ∧ (u.port p).lp = x.lp)) ∧
      (linkQuiet (ctlFields (rxMask s p).2 p c) p = true → x.lp ≠ .asked → Completes (.lpReq p c) s (fun u => taken u ∧
        (u.port p).ctlDue = some 3 ∧ (u.port p).lp = .acking)) ∧
      (linkQuiet (ctlFields (rxMask s p).2 p c) p = false → x.lp ≠ .asked → Completes (.lpReq p c) s (fun u => taken u ∧
        (u.port p).ctlDue = some 4 ∧ (u.port p).lp = x.lp))) ∧
    (∀ c : CtlFlit, c.crcOk = false →
      let nothing (u : State) : Prop :=
        (u.port p).urgRx = x.urgRx ∧ (u.port p).limit = x.limit ∧ (u.port p).replay = x.replay ∧
        (u.port p).resend = x.resend ∧ (u.port p).lp = x.lp ∧ (u.port p).ctlDue = x.ctlDue ∧ RegsBut [] s u ∧
        PortsBut p s u ∧ SameMemory s u
      (∀ t, Completes (.fc p t c) s nothing) ∧ Completes (.nak p c) s nothing ∧ Completes (.lpReq p c) s nothing ∧
      Completes (.lpAck p c) s nothing ∧ Completes (.lpDeny p c) s nothing) ∧
    (∀ c0 c1 c2 : BitVec 12, mirrorRole s p = false → nextPkt s p 1 = none → (c0 - tget zero x.sent 0).toNat ≤ 2047 →
      (c1 - tget zero x.sent 1).toNat ≤ 2047 → Completes (.credit p c0 c1 c2) s (fun u =>
        tget zero (u.port p).limit 0 = c0 ∧ tget zero (u.port p).limit 1 = c1 ∧
        tget zero (u.port p).limit 2 = tget zero x.limit 2 ∧ (u.port p).rxPkts = x.rxPkts ∧ RegsBut [] s u ∧ PortsBut p s u ∧ SameMemory s u)) ∧
    (∀ lanes : BitVec 16,
      (rxCount s p ≤ 2 * popNat 16 (lanes.toNat &&& rxLanes s p) → Completes (.ks1InActive p lanes) s (fun u =>
        (u.port p).link = .retrain ∧ (u.port p).phy.testEnded = false ∧
        RegsBut [fpReg p 0x404, fpReg p 0x700] s u ∧ PortsBut p s u ∧ SameMemory s u)) ∧
      (2 * popNat 16 (lanes.toNat &&& rxLanes s p) < rxCount s p → exec (.ks1InActive p lanes) s = .next s))

/-- R259, R284 to R290, R292, R295, R304, R305, R422: transmission. The timers of a port call for a NAK, a replay, an
LP_REQ or the end of one; a change of urgency or of limits makes a control flit or a CREDIT packet due. A flit slot
sends a NAK, another control flit that is due, a held flit again with the ACK of now, a new data flit, which takes the
next number and is held, or FC; during an exchange it sends the key sets (that one flit slot carries them is the model's
choice, log 44). -/
def Obligations.FlitTransmission : Prop :=
  ∀ (s : State) (p : PortN), strikeLive s = true →
    let x := s.port p
    (carries s p = true →
      (x.discarding = true → exec (.nakTimeout p) s = .next (s.modPort p (fun y => { y with nakDue := true }))) ∧
      (x.discarding = false → exec (.nakTimeout p) s = .next s) ∧
      (x.replay ≠ [] → (∀ h ∈ x.replay, h.sends < 4) → exec (.ackTimeout p) s =
        .next (s.modPort p (fun y => { y with resend := y.replay.map (·.seq) }))) ∧
      ((∃ h ∈ x.replay, 4 ≤ h.sends) → statBit s (.port p) 7 = false → Completes (.ackTimeout p) s (fun u =>
        (u.port p).link = .retrain ∧ flag u (fpReg p 0x800C) 4 = true ∧ PortsBut p s u ∧ SameMemory s u)) ∧
      (linkQuiet s p = true → x.lp = .none → (fld s (fpReg p 0x8004) 31 24 ≠ 0 ∨ flag s (senReg 0x28) p = true) →
        exec (.lpIdleTimeout p) s = .next (s.modPort p (fun y => { y with ctlDue := some 2, lp := .asked }))) ∧
      (x.lp = .asked → exec (.lpReqNoAnswer p) s = .next (s.modPort p (fun y => { y with lp := .none }))) ∧
      (x.creditDue = true → exec (.creditPacketInsert p) s = .next (s.modPort p (fun y => { y with creditPkt := true }))) ∧
      Completes (.urgencyUpdate p) s (fun u => (u.port p).urgTx = urgOf (reqWait s p) ∧ (u.port p).creditDue = true ∧
        (u.port p).ctlDue.isSome = true ∧ RegsBut [] s u ∧ PortsBut p s u ∧ SameMemory s u)) ∧
    (carries s p = true →
      let pay := limitSent s p 0 + limitSent s p 1 * 2 ^ 12 + limitSent s p 2 * 2 ^ 24 +
        (urgOf (reqWait s p)).toNat * 2 ^ 36
      let onLanes (f : Flit) : Flit :=
        BitVec.ofNat 512 (f.toNat ^^^ (flitMask (txCount s p) x.scrTx).1 ^^^ injMask s p)
      let ctl (t : Nat) : Flit := onLanes (mkFlit (1 + t * 2 + x.rxLast.toNat * 64) pay 0)
      let frame (u : State) : Prop := RegsBut [] s u ∧ PortsBut p s u ∧ SameMemory s u
      (x.nakDue = true → Completes (.flitSlot p) s (fun u => (u.port p).lastTx = ctl 1 ∧ (u.port p).nakDue = false ∧
        (u.port p).replay = x.replay ∧ (u.port p).resend = x.resend ∧ (u.port p).txNext = x.txNext ∧ frame u)) ∧
      (x.nakDue = false →
        (∀ c, x.ctlDue = some c → Completes (.flitSlot p) s (fun u => (u.port p).lastTx = ctl c.toNat ∧
          (u.port p).ctlDue = none ∧ (u.port p).urgTx = urgOf (reqWait s p) ∧ (u.port p).creditDue = false ∧
          (c.toNat = 3 → x.lp = .acking → (u.port p).lp = .entering) ∧ (u.port p).txNext = x.txNext ∧
          (u.port p).replay = x.replay ∧ frame u)) ∧
        (x.ctlDue = none →
          (∀ n r h, x.resend = n :: r → x.replay.find? (fun g => g.seq = n) = some h →
            Completes (.flitSlot p) s (fun u =>
              (u.port p).lastTx = onLanes (mkFlit (setBits (bits h.flit.toNat 15 0) 15 6 x.rxLast.toNat)
                (bits h.flit.toNat 479 16) n.toNat) ∧ (u.port p).resend = r ∧
              (u.port p).replay = x.replay.map (fun g => if g.seq = n then { g with sends := g.sends + 1 } else g) ∧
              (u.port p).txNext = x.txNext ∧ frame u)) ∧
          (x.resend = [] → dataReady s p = true → x.replay.length < 512 → x.lp = .none →
            Completes (.flitSlot p) s (fun u => (u.port p).txNext = x.txNext + 1 ∧ frame u ∧
              ∃ f : Flit, (u.port p).replay = x.replay ++ [{ seq := x.txNext, flit := f, sends := 1 }] ∧
                bit f.toNat 0 = false ∧
                (x.txPart = [] → x.creditPkt = true → bits f.toNat 5 1 = 0 ∧ (u.port p).creditPkt = false ∧
                  toChunks 4 (bits f.toNat 479 16) =
                    encodeCredit (limitSent s p 0) (limitSent s p 1) (limitSent s p 2)))) ∧
          (x.resend = [] → (dataReady s p = false ∨ 512 ≤ x.replay.length ∨ x.lp ≠ .none) →
            Completes (.flitSlot p) s (fun u => (u.port p).lastTx = ctl 0 ∧ (u.port p).txNext = x.txNext ∧
              (u.port p).replay = x.replay ∧ frame u))))) ∧
    (carries s p = false →
      (inKeys s p = true → Completes (.flitSlot p) s (fun u => (u.port p).lastKs = injectKeys s p (keySetsOut s p) ∧
        (u.port p).ksSent = x.ksSent + b2n x.ksHeard ∧ (u.port p).link = x.link ∧ RegsBut [] s u ∧ PortsBut p s u ∧
        SameMemory s u)) ∧
      (inKeys s p = false → patternRuns s p = true → Completes (.flitSlot p) s (fun u =>
        (∀ l t, l < 16 → t < 32 → (l ≠ x.phy.injLane.toNat ∨ x.phy.injLeft ≤ t) →
          bit (u.port p).lastTx.toNat (16 * t + l) = (txLive s p l &&
            bit (genRun (patternOf s p) (userPattern s p) 32 (tget zero x.phy.gens l)).1 t)) ∧
        (u.port p).phy.injLeft = x.phy.injLeft - 32 ∧ RegsBut [] s u ∧ PortsBut p s u ∧ SameMemory s u)) ∧
      (inKeys s p = false → patternRuns s p = false → exec (.flitSlot p) s = .next s))

/-! ## Pair -/

/-- R317 to R319, R321, R326, R334, R338 to R340, R343, R345, R354, R364: membership. PAIR_FORM gives its ports the mirror
role; its timeout undoes it; PAIR_LEAVE ends the pair once nothing is owed to the partner; PAIR_RESYNC rejoins with MAP
packets or marks one region; PAIR_HOME_SET writes the home or asks the partner; losing a port changes the map, losing
the last port or the partner leads to Solo; diverged bits reach MRAM. -/
def Obligations.PairMembership : Prop :=
  ∀ (s : State) (c : Cmd),
    (ready s c 0x0400 = true →
      let m := p1 c 15 0
      (s.pair.state = .unpaired → 0 < popNat 16 m → popNat 16 m ≤ 8 → 16 ≤ planMirror s →
        Completes (.pairForm c) s (fun u => u.pair.state = .forming ∧ u.pair.form = some c ∧ c ∈ u.cmds.begun ∧
          rd u (pairReg 0) = BitVec.ofNat 32 (p0 c 31 16 * 2 ^ 16 + p0 c 1 1 * 2 + p0 c 0 0) ∧ mirrorMask u = m ∧
          (∀ p, p < 16 → bit m p = true → (s.port p).link ≠ .latchOut →
            fld u (fpReg p 0x8004) 1 0 = 1 ∧ flag u (fpReg p 0x8000) 0 = true) ∧
          (∀ p, p < 16 → bit m p = false → u.port p = s.port p) ∧ SameMemory s u)) ∧
      (s.pair.state ≠ .unpaired → exec (.pairForm c) s = .next (answer s c rcPairState))) ∧
    (running s = true → s.pair.state = .forming → s.pair.form = some c →
      ∃ b, exec .pairFormTimeout s = .next (answer b c rcPairState) ∧ b.pair.state = .unpaired ∧ b.pair.form = none ∧
        rd b (pairReg 0) = 0 ∧ rd b (pairReg 8) = 0 ∧ SameMemory s b ∧
        ∀ p, p < 16 → bit (mirrorMask s) p = true → fld b (fpReg p 0x8004) 1 0 = 0 ∧
          flag b (fpReg p 0x8000) 0 = bit s.pair.enBefore.toNat p) ∧
    (ready s c 0x0401 = true →
      ((s.pair.state = .unpaired ∨ s.pair.state = .resyncTarget) →
        exec (.pairLeave c) s = .next (answer s c rcPairState)) ∧
      (s.pair.state ≠ .unpaired → s.pair.state ≠ .resyncTarget →
        ((pairUp s = false ∨ (s.pair.held = [] ∧ s.pair.fwds = [] ∧ owedByPartner s = false)) →
          ∃ b, exec (.pairLeave c) s = .next (answer b c rcSuccess) ∧ b.pair.state = .unpaired ∧
            rd b (pairReg 0) = 0 ∧ rd b (pairReg 8) = 0 ∧ (∀ r, r < 65536 → rgnDiverged b r = false) ∧
            (∀ a, dramByte b a = dramByte s a) ∧ (∀ a, a < 8192 → mramByte b (0xB42000 + a) = 0) ∧
            (∀ a, a < 0xB42000 ∨ 0xB44000 ≤ a → mramByte b a = mramByte s a)) ∧
        (pairUp s = true → (s.pair.held ≠ [] ∨ s.pair.fwds ≠ [] ∨ owedByPartner s = true) → Completes (.pairLeave c) s (fun u =>
          u.pair.leave = some c ∧ u.pair.state = s.pair.state ∧ c ∈ u.cmds.begun ∧ RegsBut [] s u ∧
          SameMemory s u)))) ∧
    (ready s c 0x0402 = true → resyncState s c = false → exec (.pairResync c) s = .next (answer s c rcPairState)) ∧
    (ready s c 0x0402 = true → resyncState s c = true → 16 ≤ planMirror s →
      (p0 c 16 16 = 0 → (∃ b, b < s.part.regions / 2048 ∧ b ∉ s.pair.maps) → Completes (.pairResync c) s (fun u =>
        u.pair.state = .solo ∧ u.pair.resync = some c ∧ c ∈ u.cmds.begun ∧ (∀ b, b < s.part.regions / 2048 →
          ∃ h ∈ u.pair.held, h.ty = 0x14 ∧ h.pkt.sub = 8 ∧ h.region = 2048 * b) ∧ RegsBut [pairReg 8] s u ∧
        SameMemory s u)) ∧
      (p0 c 16 16 = 1 → p0 c 47 32 < s.part.regions → dumpRegion s ≠ some (p0 c 47 32) →
        Completes (.pairResync c) s (fun u =>
          u.pair.state = (if p0 c 0 0 = pairMember s then .resyncSource else .resyncTarget) ∧
          p0 c 47 32 ∈ u.pair.pending ∧ u.pair.resync = some c ∧ c ∈ u.cmds.begun ∧ RegsBut [] s u ∧
          SameMemory s u))) ∧
    (ready s c 0x0201 = true → p0 c 17 16 ≠ 3 → p0 c 15 0 < s.part.regions →
      let r := p0 c 15 0
      let h := p0 c 17 16
      (s.pair.state = .unpaired → s.mramFenced = false →
        ∃ b, exec (.pairHomeSet c) s = .next (answer b c rcSuccess) ∧ fld b (rgnReg r) 6 5 = h ∧
          fld b (rgnReg r) 10 10 = (if h = 1 then 0 else if h = 2 then 1 else r % 2) ∧ RegsBut [rgnReg r] s b ∧
          (∀ a, dramByte b a = dramByte s a) ∧
          (∀ a, a < 0xA80000 + 8 * r ∨ 0xA80000 + 8 * r + 8 ≤ a → mramByte b a = mramByte s a)) ∧
      (pairUp s = true → rgnHomeEff s r = pairMember s → s.mramFenced = false → Completes (.pairHomeSet c) s (fun u =>
        u.pair.holdHome = s.pair.holdHome ++ [(r, BitVec.ofNat 2 h, c)] ∧ c ∈ u.cmds.begun ∧ RegsBut [] s u ∧
        SameMemory s u)) ∧
      (s.pair.state ≠ .unpaired → (pairUp s = false ∨ rgnHomeEff s r ≠ pairMember s) →
        exec (.pairHomeSet c) s = .next (answer s c rcPairState))) ∧
    (running s = true → (pairUp s = true ∨ s.pair.state = .solo) → Completes .helloHeartbeat s (fun u =>
      u.pair.sentOn = 0 ∧ (∀ p, p < 16 → (u.port p).pairQ = (s.port p).pairQ ++
        (if bit (mirrorMask s) p ∧ carries s p = true ∧ bit s.pair.sentOn.toNat p = false then
          [encodePair 0x10 (helloPkt s 0 0)] else [])) ∧ RegsBut [] s u ∧ SameMemory s u)) ∧
    (running s = true → pairUp s = true → s.pair.leave = none →
      Completes .partnerLossTimeout s (fun u => u.pair.state = .solo ∧ flag u (pairReg 0x18) 0 = true ∧
        u.pair.fwds = [] ∧ u.pair.partnerFenced = 0 ∧
        (∀ h ∈ s.pair.held, h.ty = 0x12 → h.region < 65536 → dumpRegion s ≠ some h.region →
          rgnDiverged u h.region = true)) ∧
      (∀ p : PortN, flag s (pairReg 8) (16 + p.val) = true →
        ((s.port p).link = .off ∨ (s.port p).link = .latchOut ∨ (s.port p).link = .detect) →
        (mirrorPorts s ≠ [] → Completes (.mirrorPortLoss p) s (fun u =>
          (∀ q, q < 16 → flag u (pairReg 8) (16 + q) = (mirrorPorts s).contains q) ∧ u.pair.pgen = s.pair.pgen + 1 ∧ u.pair.mapWait = some p.val ∧
          flag u (pairReg 0x18) 2 = true ∧
          (∀ q ∈ mirrorPorts s, ∃ h ∈ u.pair.held, h.port = q ∧ h.ty = 0x14 ∧ h.pkt.sub = 4) ∧
          RegsBut [pairReg 8, pairReg 0x18] s u ∧ SameMemory s u)) ∧
        (mirrorPorts s = [] → Completes (.mirrorPortLoss p) s (fun u => u.pair.state = .solo)))) ∧
    (haspLive s = true →
      (s.pair.dirty = [] → ∀ ok, exec (.divergedCommit ok) s = .next s) ∧
      (s.pair.dirty ≠ [] → s.mramFenced = false → Completes (.divergedCommit true) s (fun u => u.pair.dirty = [] ∧
        (∀ r ∈ s.pair.dirty, ∀ i, i < 8 → mramByte u (0xB42000 + 8 * (r / 64) + i) = (divergedWord s r).getD i 0) ∧
        (∀ a, (∀ r ∈ s.pair.dirty, a < 0xB42000 + 8 * (r / 64) ∨ 0xB42000 + 8 * (r / 64) + 8 ≤ a) →
          mramByte u a = mramByte s a) ∧ (∀ a, dramByte u a = dramByte s a) ∧ RegsBut [] s u)))

/-- R323 to R326, R328, R329, R333 to R338, R343, R344: packets of the partner. A malformed packet is skipped and recorded;
one for an idle engine is dropped; one out of its turn waits. FWD and REPLICA are taken in hand and arrive as accesses;
ACK frees what it covers; RESULT completes its request; CLEAR, HOME, FENCE, UNFENCE, MAP, PORTMAP and RESYNC packets have
their effects and are acknowledged; the source copies a line, and the target stores it. -/
def Obligations.PairPackets : Prop :=
  ∀ (s : State) (p : PortN) (k : PairPkt), takesPair s p = true →
    let r := pktRegion k
    let live := s.pair.state ≠ .unpaired ∧ s.pair.state ≠ .latchOut
    let turn := live ∧ inTurn s p k = true ∧ pairShape 0x14 k = true
    let performed (u : State) : Prop := tget noSeq u.pair.rxSeq p = k.pseq
    (pairShape 0x11 k = false → ∃ b, exec (.fwd p k) s = .next (fault b .pair 1 0 1) ∧
      flag b (fpReg p 0x800C) 6 = true ∧ b.pair = s.pair ∧ RegsBut [fpReg p 0x800C] s b ∧ SameMemory s b) ∧
    (pairShape 0x11 k = true → ¬ live → exec (.fwd p k) s = .next (takePair s p 0x11 k)) ∧
    (pairShape 0x11 k = true → live → inTurn s p k = false → exec (.fwd p k) s = .next s) ∧
    (live → inTurn s p k = true →
      (pairShape 0x11 k = true → ∃ b, exec (.fwd p k) s = .next (arrive b (fwdAccess b k)) ∧
        performed b ∧ b.pair.hands = s.pair.hands ++ [{ port := p, ty := 0x11, pkt := k, done := false }] ∧
        (fwdAccess b k).addr = k.addr ∧
        (fwdAccess b k).ftag = some k.ftag ∧ b.waiting = s.waiting ∧ RegsBut [] s b ∧ SameMemory s b) ∧
      (pairShape 0x12 k = true → dumpRegion s ≠ some r → ∃ b, exec (.replica p k) s = .next (arrive b (replicaAccess b p k)) ∧
        performed b ∧ b.pair.hands = s.pair.hands ++ [{ port := p, ty := 0x12, pkt := k, done := false }] ∧
        (replicaAccess b p k).addr = k.addr ∧ b.waiting = s.waiting ∧ RegsBut [] s b ∧ SameMemory s b) ∧
      (pairShape 0x12 k = true → dumpRegion s = some r → k.sub = 0 → ∃ b, exec (.replica p k) s =
        .next (handDone b p k.pseq) ∧ performed b ∧ b.waiting = s.waiting ∧ RegsBut [] s b ∧ SameMemory s b) ∧
      (pairShape 0x15 k = true →
        let t := (lineOf s k.addr.toNat).1
        let x := (lineOf s k.addr.toNat).2
        let l := placeOf s t x
        let m := (k.body.headD 0).toNat
        let code (w : Nat) : CodeWord :=
          if bit m w = false then encodeWord 0 0
          else if bit m (8 + w) then poisonWord (rgnEpoch s (regionOf k.addr.toNat))
          else encodeWord (chunkNat ((k.body.drop (1 + 4 * w)).take 4)) (rgnEpoch s (regionOf k.addr.toNat))
        settledRegion s p r = true → dumpRegion s ≠ some (regionOf k.addr.toNat) → fencedHere s t = false →
        (lineOpOk s t = false → exec (.resyncLine p k) s = .next (wakeTum s t)) ∧
        (lineOpOk s t = true → resyncMay s t x true = true → wholeSlot s t x = none →
          Completes (.resyncLine p k) s (fun u => performed u ∧
            LinesBut t (l :: (twinOf s t x l).toList) (lineCol x) s u ∧
            (∀ w, w < 8 → getWord u t l (lineCol x) w = code w ∧
              ∀ n, twinOf s t x l = some n → getWord u t n (lineCol x) w = code w) ∧
            (∀ a, mramByte u a = mramByte s a) ∧ RegsBut [tumReg t 0x2C, tumReg t 0x30] s u)))) ∧
    (live → pairShape 0x13 k = true → k.sub = 0 →
      let acked (h : HeldPkt) : Bool := h.port == p.val && seqLe h.pkt.pseq k.pseq
      ∃ b, exec (.pairAck p k) s = .next (ackEffects b) ∧ b.pair.held = s.pair.held.filter (fun h => !acked h) ∧
        SameMemory s b ∧ (∀ h a e, s.pair.held.filter acked = [h] → h.done = some (a, e) →
          ∃ w, b = complete w a e true ∧ RegsBut [] s w)) ∧
    (live → pairShape 0x10 k = true →
      (s.pair.state = .forming → k.sub = 1 → ∀ c, s.pair.form = some c →
        (helloMatches s k = true → ∃ b, exec (.hello p k) s = .next (answer b c rcSuccess) ∧ b.pair.pgen = 0 ∧
          b.pair.form = none ∧ SameMemory s b ∧
          b.pair.state = (if pairMember s = fld s (pairReg 0) 1 1 then .resyncSource else .resyncTarget)) ∧
        (helloMatches s k = false → ∃ b, exec (.hello p k) s = .next (answer b c rcPairMismatch) ∧
          b.pair.state = .unpaired ∧ SameMemory s b)) ∧
      (k.sub = 0 → k.body.getD 4 0 = 1 → pairUp s = true → s.pair.leave = none → Completes (.hello p k) s (fun u =>
        u.pair.state = .solo)) ∧
      (k.sub = 0 → k.body.getD 4 0 = 0 → pairUp s = true → exec (.hello p k) s = .next (takePair s p 0x10 k)) ∧
      (k.sub = 0 → k.body.getD 4 0 = 0 → s.pair.state = .solo → Completes (.hello p k) s (fun u =>
        flag u (pairReg 0x18) 1 = true ∧ RegsBut [pairReg 0x18] s u ∧ SameMemory s u))) ∧
    (turn → r < s.part.regions →
      (k.sub = 0 → settledRegion s p r = true → clearsHere s r = false → localChange s r (some (BitVec.ofNat 2 (k.body.getD 0 0).toNat)) = false →
        rgnSweep s r < 2 → (∀ x ∈ s.pair.peerClear, x.1 ≠ r) → Completes (.clear p k) s (fun u => performed u ∧
          rgnEpoch u r = nextEpoch (rgnEpoch s r) ∧ rgnSweep u r = rgnSweep s r + 1 ∧
          (∃ h ∈ u.pair.held, h.ty = 0x14 ∧ h.pkt.sub = 1 ∧ h.region = r) ∧ RegsBut [rgnReg r] s u ∧
          (∀ a, dramByte u a = dramByte s a))) ∧
      (k.sub = 1 → s.pair.leave = none → (∀ h ∈ s.pair.holdClear, h.1 ≠ r) → ∀ x, s.clears = [x] → r ∈ x.held →
        Completes (.clearAck p k) s (fun u => performed u ∧
          u.clears = [{ x with held := x.held.erase r, passed := x.passed ++ [r] }] ∧ RegsBut [] s u ∧
          SameMemory s u)) ∧
      (k.sub = 2 → settledRegion s p r = true → bits (k.body.headD 0).toNat 1 0 ≠ 3 → Completes (.home p k) s (fun u => performed u ∧
        fld u (rgnReg r) 6 5 = bits (k.body.headD 0).toNat 1 0 ∧
        (∃ h ∈ u.pair.held, h.ty = 0x14 ∧ h.pkt.sub = 3 ∧ h.region = r) ∧ RegsBut [rgnReg r] s u ∧
        (∀ a, dramByte u a = dramByte s a))) ∧
      (k.sub = 3 → s.pair.leave = none → ∀ h, s.pair.holdHome.find? (fun h => h.1 = r) = some h → h.2.1 ≠ 3 →
        ∃ b, exec (.homeAck p k) s = .next (seqDone (answer b h.2.2 rcSuccess) p 0x14 k) ∧
          fld b (rgnReg r) 6 5 = h.2.1.toNat ∧ (∀ x ∈ b.pair.holdHome, x.1 ≠ r) ∧ RegsBut [rgnReg r] s b ∧
          (∀ a, dramByte b a = dramByte s a)) ∧
      (k.sub = 9 → settledRegion s p r = true → s.pair.resync = none → Completes (.resyncDone p k) s (fun u => performed u ∧
        u.pair.pending = s.pair.pending.filter (· != r) ∧
        ((s.pair.state = .resyncSource ∨ s.pair.state = .resyncTarget) → u.pair.state =
          (if s.pair.pending.filter (· != r) = [] then .paired else s.pair.state)) ∧
        ((∀ t ∈ regionTums s r, fencedHere s t = false ∧ fencedThere s t = false) → rgnDiverged u r = false) ∧
        RegsBut [rgnReg r, pairReg 0x18] s u ∧ SameMemory s u))) ∧
    (turn →
      (k.sub = 4 → lostPortsClear s = true → Completes (.portmap p k) s (fun u => performed u ∧ u.pair.pgen = k.pgen ∧
        (∀ q, q < 16 → flag u (pairReg 8) (16 + q) = (mirrorPorts s).contains q) ∧
        (∀ q ∈ mapPorts u, ∃ h ∈ u.pair.held, h.port = q ∧ h.ty = 0x14 ∧ h.pkt.sub = 5) ∧
        RegsBut [pairReg 8, pairReg 0x18] s u ∧ SameMemory s u)) ∧
      (k.sub = 5 → s.pair.mapWait.isSome = true → k.pgen = s.pair.pgen → s.pair.leave = none →
        Completes (.portmapAck p k) s (fun u => performed u ∧ u.pair.mapWait = none)) ∧
      (k.sub = 5 → (s.pair.mapWait = none ∨ k.pgen ≠ s.pair.pgen) → Completes (.portmapAck p k) s (fun u => performed u ∧
        u.pair.held = s.pair.held ∧ RegsBut [] s u ∧ SameMemory s u)) ∧
      (k.sub = 6 → Completes (.fence p k) s (fun u => performed u ∧
        u.pair.partnerFenced = s.pair.partnerFenced ||| BitVec.ofNat 64 (chunkNat (k.body.take 4)) ∧
        u.pair.state = s.pair.state ∧ RegsBut [] s u ∧ SameMemory s u)) ∧
      (k.sub = 7 → Completes (.unfence p k) s (fun u => performed u ∧
        u.pair.partnerFenced = s.pair.partnerFenced &&& ~~~ (BitVec.ofNat 64 (chunkNat (k.body.take 4))) ∧
        (s.pair.state = .paired → (∃ n, n < s.part.regions ∧ rgnDiverged s n = true ∧ dumpRegion s ≠ some n) →
          u.pair.state = .resyncSource) ∧ SameMemory s u)) ∧
      (k.sub = 8 → s.pair.state = .solo → s.pair.resync = none → Completes (.map p k) s (fun u => performed u ∧
        r / 2048 ∈ u.pair.maps ∧ u.pair.state = .solo ∧
        (∀ i, i < 2048 → r + i < s.part.regions → dumpRegion s ≠ some (r + i) → bit (chunkNat k.body) i = true →
          r + i ∈ u.pair.pending) ∧ RegsBut [] s u ∧ SameMemory s u)) ∧
      (k.sub = 8 → s.pair.state = .paired → (∃ i, i < 2048 ∧ r + i < s.part.regions ∧ dumpRegion s ≠ some (r + i) ∧
          bit (chunkNat k.body) i = true) → Completes (.map p k) s (fun u => performed u ∧
        u.pair.state = .resyncTarget ∧ RegsBut [] s u ∧ SameMemory s u))) ∧
    (live → pairShape 0x16 k = true →
      (k.sub = 0 → ∀ e, s.pair.fwds.find? (fun f => f.1 = k.ftag) = some e →
        let v := (k.body.headD 0).toNat
        let ok := bits v 3 0 ≤ 1
        ∃ b, exec (.resultReadData p k) s = .next (complete b e.2 (statusCmp e.2 v true
            (if ok then 2 * (k.body.length - 1) else 0) (if ok then chunkNat (k.body.drop 1) else 0)) false) ∧
          (∀ f ∈ b.pair.fwds, f.1 ≠ k.ftag) ∧ RegsBut [] s b ∧ SameMemory s b) ∧
      (k.sub = 1 → (∃ h ∈ s.pair.held, h.ty = 0x12 ∧ h.pkt.addr = k.addr) →
        (∀ h ∈ s.pair.held, h.ty = 0x14 → h.pkt.sub = 0 → h.region ≠ r) → dumpRegion s ≠ some r → s.pair.leave = none →
        Completes (.resultReject p k) s (fun u => rgnDiverged u r = true ∧ u.pair.held = s.pair.held ∧
          RegsBut [rgnReg r] s u ∧ SameMemory s u))) ∧
    (∀ t : Tum, s.pair.state = .resyncSource → s.pair.mapWait = none →
      (s.pair.pending = [] → ∀ flips, exec (.resyncCopyLine t flips) s = .next s) ∧
      (∀ n x y rest, s.pair.pending.head? = some n → copyLeft s n t = x :: y :: rest →
        (∀ h ∈ s.pair.holdClear, h.1 ≠ n) → pairRoom s n = true →
        let l := placeOf s t x
        (lineOpOk s t = false → ∀ flips, exec (.resyncCopyLine t flips) s = .next (wakeTum s t)) ∧
        (lineOpOk s t = true → resyncMay s t x false = true → ReadsClean s t x l →
        let g := gotLine s t x l (rgnEpoch s n)
        Completes (.resyncCopyLine t []) s (fun u =>
          tget zero u.pair.copy t = tget zero s.pair.copy t + 1 ∧ u.pair.copyRegion = some n ∧
          (∃ h, u.pair.held = s.pair.held ++ [h] ∧ h.ty = 0x15 ∧ h.region = n ∧
            h.pkt.addr = BitVec.ofNat 40 (addrOf s t x) ∧
            h.pkt.body = BitVec.ofNat 16 (foldUpTo 8 (fun m w => m + b2n ((g.map (·.live)).getD w false) * 2 ^ w +
                b2n ((g.map (fun e => e.live && e.poison)).getD w false) * 2 ^ (8 + w)) 0) ::
              g.flatMap (fun e => toChunks 4 e.data)) ∧ RegsBut [tumReg t 0x2C, tumReg t 0x30] s u ∧ SameMemory s u))))


/-! ## I3C and the test port -/

/-- R486, R487, R490, R492: the I3C target and the test port: a private write sets the pointer, and writes only
GBL_I3C_CFG; a private read returns registers from the pointer onward; the CCCs set addresses, lengths and the interrupt
enable, and return the identity (bit places of PID: log 18; what the spec leaves open of GETSTATUS and GETMRL is free,
log 65); other direct CCCs are not acknowledged. The four test instructions select, capture and drive; EXTEST acts as
BYPASS while the module is locked. -/
def Obligations.I3cAndTestPort : Prop :=
  ∀ s : State,
    (sentinelUp s = true →
      (∀ b : List Byte, b.length = 4 → 4 ≤ s.i3c.mwl.toNat → exec (.i3cPrivateWrite b) s = .next { s with
        i3c := { s.i3c with pointer := BitVec.ofNat 32 (leNat b), acked := true } }) ∧
      (∀ b : List Byte, b.length = 8 → 8 ≤ s.i3c.mwl.toNat →
        (leNat (b.take 4) = 0x4C → Completes (.i3cPrivateWrite b) s (fun u =>
          fld u 0x4C 2 0 = leNat (b.drop 4) % 8 ∧ u.i3c.pointer = 0x4C ∧ RegsBut [0x4C] s u ∧ SameMemory s u)) ∧
        (leNat (b.take 4) ≠ 0x4C → ∃ w, exec (.i3cPrivateWrite b) s = .next (paramFault w .sen) ∧
          w.i3c.pointer.toNat = leNat (b.take 4) ∧ RegsBut [] s w ∧ SameMemory s w)) ∧
      (∀ n m : Nat, n = 4 * m → n ≤ 256 → n ≤ s.i3c.mrl.toNat → Completes (.i3cPrivateRead n) s (fun u =>
        u.i3c.out.length = n ∧ (∀ i, i < m → leNat ((u.i3c.out.drop (4 * i)).take 4) =
          i3cReg s ((s.i3c.pointer.toNat + 4 * i) % 2 ^ 32) % 2 ^ 32) ∧
        u.i3c.pointer = s.i3c.pointer + BitVec.ofNat 32 n ∧ RegsBut [] s u ∧ SameMemory s u)) ∧
      (∀ e : BitVec 8, bit e.toNat 0 = true →
        exec (.enec e) s = .next { s with i3c := { s.i3c with enabled := true, acked := true } } ∧
        exec (.disec e) s = .next { s with i3c := { s.i3c with enabled := false, acked := true } }) ∧
      exec .rstdaa s = .next { s with i3c := { s.i3c with dynAddr := none, acked := true } } ∧
      (∀ a : BitVec 7,
        (s.i3c.dynAddr = none →
          exec (.entdaa a) s = .next { s with i3c := { s.i3c with dynAddr := some a, acked := true } } ∧
          exec (.setdasa (staticAddr s) a) s = .next { s with i3c := { s.i3c with dynAddr := some a, acked := true } } ∧
          exec (.setnewda a) s = .next { s with i3c := { s.i3c with acked := false } }) ∧
        (s.i3c.dynAddr ≠ none → exec (.entdaa a) s = .next s ∧
          exec (.setnewda a) s = .next { s with i3c := { s.i3c with dynAddr := some a, acked := true } } ∧
          ∀ static, exec (.setdasa static a) s = .next { s with i3c := { s.i3c with acked := false } }) ∧
        (∀ static, static ≠ staticAddr s →
          exec (.setdasa static a) s = .next { s with i3c := { s.i3c with acked := false } })) ∧
      (∀ n : BitVec 16,
        exec (.setmwl n) s = .next { s with i3c := { s.i3c with mwl := n, acked := true } } ∧
        exec (.setmrl n) s = .next { s with i3c := { s.i3c with mrl := n, acked := true } }) ∧
      (let gives (c : Instr) (b : List Byte) : Prop :=
        exec c s = .next { s with i3c := { s.i3c with out := b, acked := true } }
       gives .getpid (beBytes 6 (pid s)) ∧ gives .getbcr [0x06] ∧ gives .getdcr [Config.i3cDcr] ∧
       gives .getmwl (beBytes 2 s.i3c.mwl.toNat)) ∧
      Completes .getstatus s (fun u => u.i3c.out.length = 2 ∧ u.i3c.acked = true ∧ RegsBut [] s u ∧ SameMemory s u) ∧
      Completes .getmrl s (fun u => u.i3c.out.take 2 = beBytes 2 s.i3c.mrl.toNat ∧ u.i3c.acked = true ∧
        RegsBut [] s u ∧ SameMemory s u) ∧
      exec (.unsupportedCcc true) s = .next { s with i3c := { s.i3c with acked := false } } ∧
      exec (.unsupportedCcc false) s = .next s) ∧
    (s.power.mode ≠ .off →
      let bypassed : State := { s with jtag := { s.jtag with instr := .bypass, capture := 0, driving := false } }
      let scanned (u : State) (shift : BitVec 13) : Prop :=
        u.jtag.boundary = shift ∧ bit u.jtag.capture.toNat 0 = !s.power.porst ∧
        bit u.jtag.capture.toNat 1 = !s.power.wrstLow ∧ bits u.jtag.capture.toNat 7 6 = fld s 0x48 1 0 ∧
        bit u.jtag.capture.toNat 9 = flag s (senReg 0) 7 ∧ bit u.jtag.capture.toNat 10 = !s.power.alert ∧
        RegsBut [] s u ∧ SameMemory s u
      exec .bypass s = .next bypassed ∧
      Completes .idcode s (fun u => u.jtag.instr = .idcode ∧ bits u.jtag.capture.toNat 31 28 = fld s 0 3 0 ∧
        bits u.jtag.capture.toNat 27 12 = 0xD100 + s.part.code ∧
        bits u.jtag.capture.toNat 11 1 = Config.jedecManufacturer.toNat ∧ bit u.jtag.capture.toNat 0 = true ∧
        u.jtag.driving = false ∧ RegsBut [] s u ∧ SameMemory s u) ∧
      (∀ shift : BitVec 13,
        Completes (.samplePreload shift) s (fun u => u.jtag.instr = .samplePreload ∧ u.jtag.driving = false ∧
          scanned u shift) ∧
        (locked s = true → exec (.extest shift) s = .next bypassed) ∧
        (locked s = false → Completes (.extest shift) s (fun u => u.jtag.instr = .extest ∧ u.jtag.driving = true ∧
          scanned u shift))))
end

