-- ==== Sys2Proof/Laws/Bits.lean ====
section
/-! SUPPORT. Bit fields of numbers: what reading and setting a field does, bit by bit. -/

namespace Sys2Proof.Machine

open Sys2Proof

theorem setBits_eq (x hi lo v : Nat) :
    setBits x hi lo v = 2 ^ lo * (2 ^ (hi - lo + 1) * (x / 2 ^ lo / 2 ^ (hi - lo + 1)) + v % 2 ^ (hi - lo + 1)) + x % 2 ^ lo := by
  unfold setBits bits
  have h1 := Nat.div_add_mod x (2 ^ lo)
  have h2 := Nat.div_add_mod (x / 2 ^ lo) (2 ^ (hi - lo + 1))
  generalize x / 2 ^ lo = y at *
  generalize y % 2 ^ (hi - lo + 1) = m at *
  generalize x % 2 ^ lo = r at *
  generalize v % 2 ^ (hi - lo + 1) = u at *
  generalize y / 2 ^ (hi - lo + 1) = d at *
  subst h2
  subst h1
  have : m * 2 ^ lo ≤ 2 ^ lo * (2 ^ (hi - lo + 1) * d + m) + r := by nlinarith [Nat.zero_le (2 ^ lo * (2 ^ (hi - lo + 1) * d)), Nat.zero_le r]
  zify [this]
  ring

theorem bit_setBits (x hi lo v i : Nat) (h : lo ≤ hi) :
    bit (setBits x hi lo v) i = if lo ≤ i ∧ i ≤ hi then bit v (i - lo) else bit x i := by
  unfold bit
  rw [setBits_eq, Nat.testBit_two_pow_mul_add _ (Nat.mod_lt _ (Nat.two_pow_pos _)),
    Nat.testBit_two_pow_mul_add _ (Nat.mod_lt _ (Nat.two_pow_pos _))]
  simp only [Nat.testBit_mod_two_pow, Nat.testBit_div_two_pow]
  by_cases h1 : i < lo
  · simp [h1, Nat.not_le.2 h1]
  · by_cases h2 : i ≤ hi
    · have h3 : i - lo < hi - lo + 1 := by omega
      simp [h1, h2, h3, Nat.not_lt.1 h1]
    · have h3 : ¬ (i - lo < hi - lo + 1) := by omega
      have h4 : i - lo - (hi - lo + 1) + (hi - lo + 1) + lo = i := by omega
      simp [h1, h2, h3, h4]

theorem bits_setBits_same (x hi lo v : Nat) : bits (setBits x hi lo v) hi lo = v % 2 ^ (hi - lo + 1) := by
  rw [setBits_eq]
  unfold bits
  rw [Nat.mul_add_div (Nat.two_pow_pos lo), Nat.div_eq_of_lt (Nat.mod_lt _ (Nat.two_pow_pos lo)), Nat.add_zero,
    Nat.mul_add_mod, Nat.mod_mod]

theorem bit_bits (x hi lo i : Nat) : bit (bits x hi lo) i = (decide (i < hi - lo + 1) && bit x (lo + i)) := by
  unfold bit bits
  rw [Nat.testBit_mod_two_pow, Nat.testBit_div_two_pow, Nat.add_comm lo i]

theorem bits_setBits_other (x hi lo v h2 l2 : Nat) (h : lo ≤ hi) (hd : h2 < lo ∨ hi < l2) (hl : l2 ≤ h2) :
    bits (setBits x hi lo v) h2 l2 = bits x h2 l2 := by
  apply Nat.eq_of_testBit_eq
  intro i
  have e := bit_bits (setBits x hi lo v) h2 l2 i
  have e2 := bit_bits x h2 l2 i
  unfold bit at e e2
  rw [e, e2]
  have e3 := bit_setBits x hi lo v (l2 + i) h
  unfold bit at e3
  rw [e3]
  by_cases hi' : i < h2 - l2 + 1
  · have : ¬ (lo ≤ l2 + i ∧ l2 + i ≤ hi) := by omega
    simp [this]
  · simp [hi']

theorem setBits_lt (x hi lo v : Nat) (hx : x < 2 ^ 32) (h : lo ≤ hi) (h32 : hi < 32) : setBits x hi lo v < 2 ^ 32 := by
  apply Nat.lt_pow_two_of_testBit
  intro i hi'
  have e := bit_setBits x hi lo v i h
  unfold bit at e
  rw [e]
  have : ¬ (lo ≤ i ∧ i ≤ hi) := by omega
  rw [if_neg this]
  exact Nat.testBit_lt_two_pow (lt_of_lt_of_le hx (Nat.pow_le_pow_right (by decide) hi'))
end Sys2Proof.Machine
end

