-- ==== Sys2Proof/Laws/Tab.lean ====
section
/-! SUPPORT. Laws of sparse tables: reading after writing, and the canonical form that every operation keeps. -/

namespace Sys2Proof.Machine

variable {α : Type}

theorem tget_nil (d : Nat → α) (k : Nat) : tget d [] k = d k := rfl

theorem tget_cons (d : Nat → α) (e : Nat × α) (m : Tab α) (k : Nat) :
    tget d (e :: m) k = if e.1 = k then e.2 else tget d m k := rfl

theorem tget_tdel_same (d : Nat → α) (m : Tab α) (k : Nat) : tget d (tdel m k) k = d k := by
  induction m with
  | nil => rfl
  | cons e r ih =>
    simp only [tdel]
    split
    · exact ih
    · rename_i h
      simp [tget_cons, h, ih]

theorem tget_tdel_other (d : Nat → α) (m : Tab α) {k j : Nat} (h : j ≠ k) : tget d (tdel m k) j = tget d m j := by
  induction m with
  | nil => rfl
  | cons e r ih =>
    simp only [tdel]
    split
    · rename_i hk
      have : ¬ e.1 = j := fun h2 => h (h2.symm.trans hk)
      simp [tget_cons, this, ih]
    · simp [tget_cons, ih]

theorem tget_tins_same (d : Nat → α) (m : Tab α) (k : Nat) (v : α) (h : ∀ e ∈ m, e.1 ≠ k) :
    tget d (tins m k v) k = v := by
  induction m with
  | nil => simp [tins, tget_cons]
  | cons e r ih =>
    simp only [tins]
    split
    · simp [tget_cons]
    · have h1 : ¬ e.1 = k := h e (by simp)
      simp [tget_cons, h1, ih (fun x hx => h x (by simp [hx]))]

theorem tget_tins_other (d : Nat → α) (m : Tab α) (k : Nat) (v : α) {j : Nat} (h : j ≠ k) :
    tget d (tins m k v) j = tget d m j := by
  induction m with
  | nil => simp [tins, tget_cons, tget_nil, Ne.symm h]
  | cons e r ih =>
    simp only [tins]
    split
    · simp [tget_cons, Ne.symm h]
    · simp [tget_cons, ih]

theorem tdel_no_key (m : Tab α) (k : Nat) : ∀ e ∈ tdel m k, e.1 ≠ k := by
  induction m with
  | nil => simp [tdel]
  | cons e r ih =>
    simp only [tdel]
    split
    · exact ih
    · rename_i h
      simpa [h] using ih

/-- A key reads back what was written to it. -/
@[simp] theorem tget_tput_same [DecidableEq α] (d : Nat → α) (m : Tab α) (k : Nat) (v : α) :
    tget d (tput d m k v) k = v := by
  unfold tput
  split
  · rename_i h
    rw [tget_tdel_same, h]
  · exact tget_tins_same d _ k v (tdel_no_key m k)

/-- Every other key reads as before. -/
theorem tget_tput_other [DecidableEq α] (d : Nat → α) (m : Tab α) (v : α) {k j : Nat} (h : j ≠ k) :
    tget d (tput d m k v) j = tget d m j := by
  unfold tput
  split
  · exact tget_tdel_other d m h
  · rw [tget_tins_other d _ k v h, tget_tdel_other d m h]

theorem tget_tput [DecidableEq α] (d : Nat → α) (m : Tab α) (k j : Nat) (v : α) :
    tget d (tput d m k v) j = if j = k then v else tget d m j := by
  split
  · rename_i h
    rw [h, tget_tput_same]
  · rename_i h
    exact tget_tput_other d m v h

/-- The canonical form as a proposition. -/
def Canon (d : Nat → α) (m : Tab α) : Prop := m.Pairwise (fun a b => a.1 < b.1) ∧ ∀ e ∈ m, e.2 ≠ d e.1

theorem trising_iff (lo : Nat) (m : Tab α) :
    trising lo m = true ↔ m.Pairwise (fun a b => a.1 < b.1) ∧ ∀ e ∈ m, lo < e.1 := by
  induction m generalizing lo with
  | nil => simp [trising]
  | cons e r ih =>
    simp only [trising, Bool.and_eq_true, decide_eq_true_eq, ih, List.pairwise_cons, List.mem_cons, forall_eq_or_imp]
    constructor
    · rintro ⟨h1, h2, h3⟩
      exact ⟨⟨h3, h2⟩, h1, fun x hx => lt_trans h1 (h3 x hx)⟩
    · rintro ⟨⟨h3, h2⟩, h1, _⟩
      exact ⟨h1, h2, h3⟩

theorem tab_wf_iff [DecidableEq α] (d : Nat → α) (m : Tab α) : Tab.wf d m = true ↔ Canon d m := by
  cases m with
  | nil => simp [Tab.wf, Canon]
  | cons e r =>
    simp only [Tab.wf, Bool.and_eq_true, decide_eq_true_eq, trising_iff, List.all_eq_true, Canon, List.pairwise_cons,
      List.mem_cons, forall_eq_or_imp]
    tauto

theorem canon_tdel (d : Nat → α) (m : Tab α) (k : Nat) (h : Canon d m) : Canon d (tdel m k) := by
  have hs : (tdel m k).Sublist m := by
    induction m with
    | nil => exact List.Sublist.refl _
    | cons e r ih =>
      simp only [tdel]
      have h2 : Canon d r := ⟨(List.pairwise_cons.1 h.1).2, fun x hx => h.2 x (by simp [hx])⟩
      split
      · exact List.Sublist.cons _ (ih h2)
      · exact List.Sublist.cons_cons _ (ih h2)
  exact ⟨h.1.sublist hs, fun e he => h.2 e (hs.subset he)⟩

theorem mem_tins (m : Tab α) (k : Nat) (v : α) (e : Nat × α) : e ∈ tins m k v → e = (k, v) ∨ e ∈ m := by
  induction m with
  | nil => simp [tins]
  | cons x r ih =>
    simp only [tins]
    split
    · simp
    · simp only [List.mem_cons]
      rintro (h | h)
      · exact .inr (.inl h)
      · rcases ih h with h | h
        · exact .inl h
        · exact .inr (.inr h)

theorem canon_tins (d : Nat → α) (m : Tab α) (k : Nat) (v : α) (h : Canon d m) (hk : ∀ e ∈ m, e.1 ≠ k)
    (hv : v ≠ d k) : Canon d (tins m k v) := by
  refine ⟨?_, fun e he => ?_⟩
  · induction m with
    | nil => simp [tins]
    | cons x r ih =>
      have h1 := List.pairwise_cons.1 h.1
      have h2 : Canon d r := ⟨h1.2, fun y hy => h.2 y (by simp [hy])⟩
      simp only [tins]
      split
      · rename_i hlt
        refine List.pairwise_cons.2 ⟨fun y hy => ?_, h.1⟩
        rcases List.mem_cons.1 hy with hy | hy
        · rw [hy]; exact hlt
        · exact lt_trans hlt (h1.1 y hy)
      · rename_i hge
        refine List.pairwise_cons.2 ⟨fun y hy => ?_, ih h2 (fun y hy => hk y (by simp [hy]))⟩
        rcases mem_tins r k v y hy with hy | hy
        · have := hk x (by simp)
          rw [hy]; dsimp only; omega
        · exact h1.1 y hy
  · rcases mem_tins m k v e he with h3 | h3
    · rw [h3]; exact hv
    · exact h.2 e h3

/-- Writing keeps the canonical form. -/
theorem wf_tput [DecidableEq α] (d : Nat → α) (m : Tab α) (k : Nat) (v : α) (h : Tab.wf d m = true) :
    Tab.wf d (tput d m k v) = true := by
  rw [tab_wf_iff] at h ⊢
  unfold tput
  split
  · exact canon_tdel d m k h
  · rename_i hv
    exact canon_tins d _ k v (canon_tdel d m k h) (tdel_no_key m k) hv

/-- Dropping keys keeps the canonical form. -/
theorem wf_tfilter [DecidableEq α] (d : Nat → α) (p : Nat → Bool) (m : Tab α) (h : Tab.wf d m = true) :
    Tab.wf d (tfilter p m) = true := by
  rw [tab_wf_iff] at h ⊢
  exact ⟨h.1.sublist List.filter_sublist, fun e he => h.2 e (List.mem_of_mem_filter he)⟩

theorem wf_nil [DecidableEq α] (d : Nat → α) : Tab.wf d ([] : Tab α) = true := rfl

/-- Byte memories keep the canonical form under a write of bytes. -/
theorem wf_cellPut (m : List Host.Cell) (a : Nat) (l : List Byte) (h : Memory.wf m = true) :
    Memory.wf (cellPut m a l) = true := by
  induction l generalizing m a with
  | nil => exact h
  | cons b r ih => exact ih _ _ (wf_tput _ _ _ _ h)

end Sys2Proof.Machine
end

