-- ==== Sys2Proof/Laws/Kept.lean ====
section
/-! SUPPORT. What every command keeps: the queue of waiting commands, the part, and the canonical form of the register
file and of the two byte memories. One law per operation of the model. -/

namespace Sys2Proof.Machine

open Sys2Proof

/-- The queue is `q`, the part is `p`, and the register file and the memories are in canonical form. -/
def Kept (q : List Instr) (p : Part) (s : State) : Prop :=
  s.pending = q ∧ s.part = p ∧ Memory.wf s.dram = true ∧ Memory.wf s.mram = true ∧ Tab.wf (regReset p) s.csr = true

variable {q : List Instr} {p : Part}

theorem kept_of {s t : State} (h : Kept q p s) (h1 : t.pending = s.pending) (h2 : t.part = s.part)
    (h3 : t.dram = s.dram) (h4 : t.mram = s.mram) (h5 : t.csr = s.csr) : Kept q p t := by
  unfold Kept at *
  rw [h1, h2, h3, h4, h5]
  exact h

/-- An update of other fields. -/
theorem kept_with {s : State} (h : Kept q p s)
    (now : BitVec 64) (free : Nat) (shadow : Tab (Option Reg32)) (readOut : Tab Reg32) (sram : List Host.Cell)
    (mramFenced : Bool) (tums : Tab Tumbler) (leaves : Tab LeafS) (waiting : List Access) (live : List (Nat ×
    BitVec 18 × BitVec 12)) (nextId : Nat) (sweeps : List SweepT) (clears : List ClearCmd) (reinits : List
    Reinit) (engines : Tab Engine) (scans : Tab (Option Scan)) (ward : Ward) (ports : Tab Port) (pair : Pair)
    (cmds : Cmds) (rings : Tab RingS) (dmas : List Dma) (usb : Usb) (cores : Tab Core) (update : Option Update)
    (pulses : List (BitVec 12 × Word64)) (flts : Tab FltS) (shadows : List Shadow) (logTail : List Entry)
    (logSeq : BitVec 32) (counts : Tab (BitVec 48)) (dump : Dump) (power : Power) (thermal : Thermal) (calib :
    Calib) (i3c : I3c) (jtag : Jtag) :
    Kept q p (State.mk s.part s.pending now free s.csr shadow readOut s.dram sram s.mram mramFenced tums leaves waiting live
      nextId sweeps clears reinits engines scans ward ports pair cmds rings dmas usb cores update pulses flts
      shadows logTail logSeq counts dump power thermal calib i3c jtag) := h

theorem kept_when {s t : State} (c : Bool) (hs : Kept q p s) (ht : Kept q p t) : Kept q p (when c s t) := by
  unfold when
  split
  · exact ht
  · exact hs

theorem kept_ite {s t : State} {c : Prop} [Decidable c] (hs : Kept q p s) (ht : Kept q p t) :
    Kept q p (if c then s else t) := by
  split
  · exact hs
  · exact ht

theorem kept_foldl {β : Type} (f : State → β → State) (hf : ∀ s b, Kept q p s → Kept q p (f s b)) (l : List β)
    {s : State} (h : Kept q p s) : Kept q p (l.foldl f s) := by
  induction l generalizing s with
  | nil => exact h
  | cons b r ih => exact ih (hf s b h)

theorem kept_foldUpTo (n : Nat) (f : State → Nat → State) (hf : ∀ s b, Kept q p s → Kept q p (f s b))
    {s : State} (h : Kept q p s) : Kept q p (foldUpTo n f s) := kept_foldl f hf _ h

/-- Folds that carry a state beside something else. -/
theorem kept_foldl_fst {β γ : Type} (f : State × γ → β → State × γ)
    (hf : ∀ u b, Kept q p u.1 → Kept q p (f u b).1) (l : List β) {u : State × γ} (h : Kept q p u.1) :
    Kept q p (l.foldl f u).1 := by
  induction l generalizing u with
  | nil => exact h
  | cons b r ih => exact ih (hf u b h)

theorem kept_foldUpTo_fst {γ : Type} (n : Nat) (f : State × γ → Nat → State × γ)
    (hf : ∀ u b, Kept q p u.1 → Kept q p (f u b).1) {u : State × γ} (h : Kept q p u.1) :
    Kept q p (foldUpTo n f u).1 := kept_foldl_fst f hf _ h

theorem kept_foldl_snd {β γ : Type} (f : γ × State → β → γ × State)
    (hf : ∀ u b, Kept q p u.2 → Kept q p (f u b).2) (l : List β) {u : γ × State} (h : Kept q p u.2) :
    Kept q p (l.foldl f u).2 := by
  induction l generalizing u with
  | nil => exact h
  | cons b r ih => exact ih (hf u b h)

theorem kept_foldUpTo_snd {γ : Type} (n : Nat) (f : γ × State → Nat → γ × State)
    (hf : ∀ u b, Kept q p u.2 → Kept q p (f u b).2) {u : γ × State} (h : Kept q p u.2) :
    Kept q p (foldUpTo n f u).2 := kept_foldl_snd f hf _ h

theorem kept_fst {γ : Type} {e : State × γ} {s : State} {g : γ} (he : e = (s, g)) (h : Kept q p e.1) : Kept q p s := by
  rw [he] at h
  exact h

theorem kept_snd {γ : Type} {e : γ × State} {s : State} {g : γ} (he : e = (g, s)) (h : Kept q p e.2) : Kept q p s := by
  rw [he] at h
  exact h

theorem kept_mid {γ δ : Type} {e : State × γ × δ} {s : State} {g : γ} {d : δ} (he : e = (s, g, d))
    (h : Kept q p e.1) : Kept q p s := by
  rw [he] at h
  exact h

theorem kept_end {γ δ : Type} {e : γ × δ × State} {s : State} {g : γ} {d : δ} (he : e = (g, d, s))
    (h : Kept q p e.2.2) : Kept q p s := by
  rw [he] at h
  exact h

theorem kept_wr {s : State} (h : Kept q p s) (off : Nat) (v : Reg32) : Kept q p (wr s off v) := by
  obtain ⟨h1, h2, h3, h4, h5⟩ := h
  refine ⟨h1, h2, h3, h4, ?_⟩
  unfold wr
  rw [h2]
  exact wf_tput _ _ _ _ h5

theorem kept_resetRegs {s : State} (h : Kept q p s) (f : Nat → Bool) : Kept q p (resetRegs s f) := by
  obtain ⟨h1, h2, h3, h4, h5⟩ := h
  exact ⟨h1, h2, h3, h4, wf_tfilter (regReset p) (fun o => !f o) _ h5⟩

/-- The MRAM takes a canonical memory. -/
theorem kept_mram {s : State} (h : Kept q p s) {m : List Host.Cell} (hm : Memory.wf m = true) :
    Kept q p { s with mram := m } := ⟨h.1, h.2.1, h.2.2.1, hm, h.2.2.2.2⟩

/-- The leaf arrays take a canonical memory. -/
theorem kept_dram {s : State} (h : Kept q p s) {m : List Host.Cell} (hm : Memory.wf m = true) :
    Kept q p { s with dram := m } := ⟨h.1, h.2.1, hm, h.2.2.2.1, h.2.2.2.2⟩

/-- An outcome whose next state, if it is one, is kept so. -/
structure KeptOut (q : List Instr) (p : Part) (o : Out) : Prop where
  kept : ∀ t, o = .next t → Kept q p t

theorem keptOut_next {s : State} (h : Kept q p s) : KeptOut q p (.next s) where
  kept t ht := by
    cases ht
    exact h

theorem keptOut_fault (f : Fault) : KeptOut q p (.fault f) where
  kept t ht := by cases ht

theorem keptOut_ite {a b : Out} {c : Prop} [Decidable c] (ha : KeptOut q p a) (hb : KeptOut q p b) :
    KeptOut q p (if c then a else b) := by
  split
  · exact ha
  · exact hb

end Sys2Proof.Machine
end

