-- ==== Sys2Proof/Laws/KeptRegs.lean ====
section
/-! SUPPORT. What the operations of Machine/Regs.lean keep (Laws/Kept.lean). -/

namespace Sys2Proof.Machine

open Sys2Proof

variable {q : List Instr} {p : Part}

theorem kept_setF {s : State} (hs : Kept q p s) (off : Nat) (hi : Nat) (lo : Nat) (v : Nat) :
    Kept q p (setF s off hi lo v) := by
  unfold setF
  repeat' first
    | with_reducible assumption
    | intro _
    | with_reducible apply kept_wr

theorem kept_wrReg {s : State} (hs : Kept q p s) (off : Nat) (v : Reg32) (rej : Nat) :
    Kept q p (wrReg s off v rej) := by
  unfold wrReg
  repeat' first
    | with_reducible assumption
    | intro _
    | with_reducible apply kept_wr
    | split

end Sys2Proof.Machine
end

