-- ==== Sys2Proof/Laws/KeptOps.lean ====
section
/-! SUPPORT. What the operations of Machine/Ops.lean keep (Laws/Kept.lean). -/

namespace Sys2Proof.Machine

open Sys2Proof

variable {q : List Instr} {p : Part}

theorem kept_setTum {s : State} (hs : Kept q p s) (t : Nat) (x : Tumbler) :
    Kept q p (State.setTum s t x) := by
  unfold State.setTum
  repeat' first
    | with_reducible assumption
    | intro _
    | with_reducible apply kept_with

theorem kept_modTum {s : State} (hs : Kept q p s) (t : Nat) (f : Tumbler → Tumbler) :
    Kept q p (State.modTum s t f) := by
  unfold State.modTum
  repeat' first
    | with_reducible assumption
    | intro _
    | with_reducible apply kept_setTum

theorem kept_setPort {s : State} (hs : Kept q p s) (p0 : Nat) (x : Port) :
    Kept q p (State.setPort s p0 x) := by
  unfold State.setPort
  repeat' first
    | with_reducible assumption
    | intro _
    | with_reducible apply kept_with

theorem kept_modPort {s : State} (hs : Kept q p s) (p0 : Nat) (f : Port → Port) :
    Kept q p (State.modPort s p0 f) := by
  unfold State.modPort
  repeat' first
    | with_reducible assumption
    | intro _
    | with_reducible apply kept_setPort

theorem kept_setCore {s : State} (hs : Kept q p s) (c : Nat) (x : Core) :
    Kept q p (State.setCore s c x) := by
  unfold State.setCore
  repeat' first
    | with_reducible assumption
    | intro _
    | with_reducible apply kept_with

theorem kept_setEng {s : State} (hs : Kept q p s) (n : Nat) (x : Engine) :
    Kept q p (State.setEng s n x) := by
  unfold State.setEng
  repeat' first
    | with_reducible assumption
    | intro _
    | with_reducible apply kept_with

theorem kept_setRing {s : State} (hs : Kept q p s) (n : Nat) (x : RingS) :
    Kept q p (State.setRing s n x) := by
  unfold State.setRing
  repeat' first
    | with_reducible assumption
    | intro _
    | with_reducible apply kept_with

theorem kept_setFlt {s : State} (hs : Kept q p s) (b : FltSet) (x : FltS) :
    Kept q p (State.setFlt s b x) := by
  unfold State.setFlt
  repeat' first
    | with_reducible assumption
    | intro _
    | with_reducible apply kept_with

theorem kept_setScan {s : State} (hs : Kept q p s) (n : Nat) (x : Option Scan) :
    Kept q p (State.setScan s n x) := by
  unfold State.setScan
  repeat' first
    | with_reducible assumption
    | intro _
    | with_reducible apply kept_with

theorem kept_setMode {s : State} (hs : Kept q p s) (t : Nat) (f : TMode → TMode) :
    Kept q p (setMode s t f) := by
  unfold setMode
  repeat' first
    | with_reducible assumption
    | intro _
    | with_reducible apply kept_modTum

theorem kept_setQ {s : State} (hs : Kept q p s) (t : Nat) (f : TQueue → TQueue) :
    Kept q p (setQ s t f) := by
  unfold setQ
  repeat' first
    | with_reducible assumption
    | intro _
    | with_reducible apply kept_modTum

theorem kept_setDram {s : State} (hs : Kept q p s) (t : Nat) (f : TDram → TDram) :
    Kept q p (setDram s t f) := by
  unfold setDram
  repeat' first
    | with_reducible assumption
    | intro _
    | with_reducible apply kept_modTum

theorem kept_setPhy {s : State} (hs : Kept q p s) (p0 : Nat) (f : PhyS → PhyS) :
    Kept q p (setPhy s p0 f) := by
  unfold setPhy
  repeat' first
    | with_reducible assumption
    | intro _
    | with_reducible apply kept_modPort

theorem kept_fresh {s : State} (hs : Kept q p s) :
    Kept q p (fresh s).2 := by
  unfold fresh
  repeat' first
    | with_reducible assumption
    | intro _
    | with_reducible apply kept_with

theorem kept_count {s : State} (hs : Kept q p s) (slot : Nat) (n : Nat) :
    Kept q p (count s slot n) := by
  unfold count
  repeat' first
    | with_reducible assumption
    | intro _
    | with_reducible apply kept_ite
    | split
    | with_reducible apply kept_with

theorem kept_raise {s : State} (hs : Kept q p s) (src : Nat) (data : Nat) :
    Kept q p (raise s src data) := by
  unfold raise
  repeat' first
    | with_reducible assumption
    | intro _
    | with_reducible apply kept_with

theorem kept_ibi {s : State} (hs : Kept q p s) (b : Byte) (i : Nat) :
    Kept q p (ibi s b i) := by
  unfold ibi
  repeat' first
    | with_reducible assumption
    | intro _
    | with_reducible apply kept_ite
    | split
    | with_reducible apply kept_with

theorem kept_mramPut {s : State} (hs : Kept q p s) (a : Nat) (l : List Byte) : Kept q p (mramPut s a l) := by
  unfold mramPut
  split
  · exact hs
  · exact kept_count (kept_mram hs (wf_cellPut _ _ _ hs.2.2.2.1)) _ _

theorem kept_setSev {s : State} (hs : Kept q p s) (b : FltSet) (c : Nat) (sev : Nat) (cons : Bool) :
    Kept q p (setSev s b c sev cons) := by
  unfold setSev
  repeat' first
    | with_reducible assumption
    | intro _
    | with_reducible apply kept_setF

theorem kept_setAlert {s : State} (hs : Kept q p s) (a : Bool) :
    Kept q p (setAlert s a) := by
  unfold setAlert
  repeat' first
    | with_reducible assumption
    | intro _
    | with_reducible apply kept_ibi
    | with_reducible apply kept_ite
    | split
    | with_reducible apply kept_with

theorem kept_openShadow {s : State} (hs : Kept q p s) (b : FltSet) (fatal : Bool) :
    Kept q p (openShadow s b fatal) := by
  unfold openShadow
  repeat' first
    | with_reducible assumption
    | intro _
    | with_reducible apply kept_with

theorem kept_pushEntry {s : State} (hs : Kept q p s) (b : FltSet) (c : Nat) (sev : Nat) (conseq : Bool) (esc : Bool) (detail : BitVec 96) (n : Nat) :
    Kept q p (pushEntry s b c sev conseq esc detail n) := by
  unfold pushEntry
  repeat' first
    | with_reducible assumption
    | intro _
    | with_reducible apply kept_count
    | with_reducible apply kept_setFlt
    | with_reducible apply kept_with

theorem kept_record {s : State} (hs : Kept q p s) (b : FltSet) (c : Nat) (detail : BitVec 96) (n : Nat) :
    Kept q p (record s b c detail n).1 := by
  unfold record
  repeat' first
    | with_reducible assumption
    | intro _
    | extract_lets
    | with_reducible apply kept_setFlt
    | with_reducible apply kept_count
    | with_reducible apply kept_pushEntry
    | with_reducible apply kept_setF
    | with_reducible apply kept_setSev
    | with_reducible apply kept_setAlert
    | with_reducible apply kept_ite
    | split
    | with_reducible apply kept_with

theorem kept_recordQuiet {s : State} (hs : Kept q p s) (b : FltSet) (c : Nat) (detail : BitVec 96) (n : Nat) :
    Kept q p (recordQuiet s b c detail n) := by
  unfold recordQuiet
  repeat' first
    | with_reducible assumption
    | intro _
    | with_reducible apply kept_record

theorem kept_condEnd {s : State} (hs : Kept q p s) (b : FltSet) (c : Nat) :
    Kept q p (condEnd s b c) := by
  unfold condEnd
  repeat' first
    | with_reducible assumption
    | intro _
    | with_reducible apply kept_setFlt

theorem kept_dropTaken {s : State} (hs : Kept q p s) (src : CmdSrc) :
    Kept q p (dropTaken s src) := by
  unfold dropTaken
  repeat' first
    | with_reducible assumption
    | intro _
    | with_reducible apply kept_with

theorem kept_discardReply {s : State} (hs : Kept q p s) (n : Nat) :
    Kept q p (discardReply s n) := by
  unfold discardReply
  repeat' first
    | with_reducible assumption
    | intro _
    | with_reducible apply kept_count
    | with_reducible apply kept_setF

theorem kept_sendReply {s : State} (hs : Kept q p s) (r : Reply) :
    Kept q p (sendReply s r) := by
  unfold sendReply
  repeat' first
    | with_reducible assumption
    | intro _
    | extract_lets
    | with_reducible apply kept_count
    | with_reducible apply kept_setRing
    | with_reducible apply kept_discardReply
    | with_reducible apply kept_modPort
    | with_reducible apply kept_ite
    | split

theorem kept_reply {s : State} (hs : Kept q p s) (c : Cmd) (status : BitVec 16) (result : Nat) (data : List Byte) :
    Kept q p (reply s c status result data) := by
  unfold reply
  repeat' first
    | with_reducible assumption
    | intro _
    | extract_lets
    | with_reducible apply kept_count
    | with_reducible apply kept_discardReply
    | with_reducible apply kept_sendReply
    | with_reducible apply kept_ite
    | split
    | with_reducible apply kept_with

theorem kept_answer {s : State} (hs : Kept q p s) (c : Cmd) (status : BitVec 16) :
    Kept q p (answer s c status) := by
  unfold answer
  repeat' first
    | with_reducible assumption
    | intro _
    | with_reducible apply kept_reply

theorem kept_answerOpt {s : State} (hs : Kept q p s) (c : Option Cmd) (status : BitVec 16) :
    Kept q p (answerOpt s c status) := by
  unfold answerOpt
  repeat' first
    | with_reducible assumption
    | intro _
    | with_reducible apply kept_answer
    | split

end Sys2Proof.Machine
end

