-- ==== Sys2Proof/Laws/KeptFaults.lean ====
section
/-! SUPPORT. What the operations of Machine/Faults.lean keep (Laws/Kept.lean). -/

namespace Sys2Proof.Machine

open Sys2Proof

variable {q : List Instr} {p : Part}

theorem kept_leaveStore {s : State} (hs : Kept q p s) (p0 : Nat) :
    Kept q p (leaveStore s p0) := by
  unfold leaveStore
  repeat' first
    | with_reducible assumption
    | intro _
    | with_reducible apply kept_modPort

theorem kept_doneLive {s : State} (hs : Kept q p s) (id : Nat) (f : BitVec 18) :
    Kept q p (doneLive s id f) := by
  unfold doneLive
  repeat' first
    | with_reducible assumption
    | intro _
    | with_reducible apply kept_setF
    | with_reducible apply kept_with

theorem kept_histogram {s : State} (hs : Kept q p s) (t : Nat) (c : Nat) (l : Nat) :
    Kept q p (histogram s t c l) := by
  unfold histogram
  repeat' first
    | with_reducible assumption
    | intro _
    | with_reducible apply kept_count

theorem kept_wardDone {s : State} (hs : Kept q p s) (id : Nat) (lat : Nat) (fenced : Bool) :
    Kept q p (wardDone s id lat fenced) := by
  unfold wardDone
  repeat' first
    | with_reducible assumption
    | intro _
    | with_reducible apply kept_ite
    | split
    | with_reducible apply kept_with

theorem kept_pushCmp {s : State} (hs : Kept q p s) (port : Option PortN) (gen : BitVec 2) (c : Cmp) :
    Kept q p (pushCmp s port gen c).1 := by
  unfold pushCmp
  repeat' first
    | with_reducible assumption
    | intro _
    | extract_lets
    | with_reducible apply kept_setPort
    | with_reducible apply kept_count
    | with_reducible apply kept_ite
    | split

theorem kept_countCmp {s : State} (hs : Kept q p s) (c : Cmp) :
    Kept q p (countCmp s c) := by
  unfold countCmp
  repeat' first
    | with_reducible assumption
    | intro _
    | with_reducible apply kept_count
    | with_reducible apply kept_ite

theorem kept_scanWriteDone {s : State} (hs : Kept q p s) (k : Nat) (st : BitVec 4) :
    Kept q p (scanWriteDone s k st) := by
  unfold scanWriteDone
  repeat' first
    | with_reducible assumption
    | intro _
    | with_reducible apply kept_setScan
    | with_reducible apply kept_fresh
    | with_reducible apply kept_ite
    | split

theorem kept_dmaStatus {s : State} (hs : Kept q p s) (st : BitVec 4) :
    Kept q p (dmaStatus s st).2 := by
  unfold dmaStatus
  repeat' first
    | with_reducible assumption
    | intro _
    | with_reducible apply kept_fresh
    | with_reducible apply kept_ite
    | split

theorem kept_dmaEnd {s : State} (hs : Kept q p s) (d : Dma) (st : BitVec 16) :
    Kept q p (dmaEnd s d st) := by
  unfold dmaEnd
  repeat' first
    | with_reducible assumption
    | intro _
    | with_reducible apply kept_reply
    | with_reducible apply kept_with

theorem kept_dmaLine {s : State} (hs : Kept q p s) (a : Access) (c : Cmp) :
    Kept q p (dmaLine s a c) := by
  unfold dmaLine
  repeat' first
    | with_reducible assumption
    | intro _
    | with_reducible apply kept_count
    | with_reducible apply kept_dmaEnd
    | with_reducible apply kept_dmaStatus
    | with_reducible apply kept_ite
    | split
    | with_reducible apply kept_with

theorem kept_cntFence {s : State} (hs : Kept q p s) :
    Kept q p (cntFence s) := by
  unfold cntFence
  repeat' first
    | with_reducible assumption
    | intro _
    | with_reducible apply kept_setF
    | with_reducible apply kept_with

theorem kept_dumpLine {s : State} (hs : Kept q p s) (st : BitVec 4) :
    Kept q p (dumpLine s st) := by
  unfold dumpLine
  repeat' first
    | with_reducible assumption
    | intro _
    | with_reducible apply kept_count
    | with_reducible apply kept_record
    | with_reducible apply kept_cntFence
    | with_reducible apply kept_ite
    | split
    | with_reducible apply kept_with

theorem kept_masterDone {s : State} (hs : Kept q p s) (m : Master) (a : Access) (c : Cmp) (queued : Bool) :
    Kept q p (masterDone s m a c queued) := by
  unfold masterDone
  repeat' first
    | with_reducible assumption
    | intro _
    | with_reducible apply kept_doneLive
    | with_reducible apply kept_wardDone
    | with_reducible apply kept_histogram
    | with_reducible apply kept_scanWriteDone
    | with_reducible apply kept_dmaLine
    | with_reducible apply kept_dumpLine
    | with_reducible apply kept_ite
    | split

theorem kept_completeCore {s : State} (hs : Kept q p s) (a : Access) (c : Cmp) (queued : Bool) :
    Kept q p (completeCore s a c queued).1 := by
  unfold completeCore
  repeat' first
    | with_reducible assumption
    | intro _
    | with_reducible apply kept_masterDone
    | with_reducible apply kept_doneLive
    | with_reducible apply kept_countCmp
    | with_reducible apply kept_wardDone
    | with_reducible apply kept_histogram
    | with_reducible apply kept_count
    | with_reducible apply kept_pushCmp
    | with_reducible apply kept_ite
    | split

theorem kept_completeQuiet {s : State} (hs : Kept q p s) (a : Access) (c : Cmp) (queued : Bool) :
    Kept q p (completeQuiet s a c queued) := by
  unfold completeQuiet
  repeat' first
    | with_reducible assumption
    | intro _
    | with_reducible apply kept_completeCore
    | with_reducible apply kept_recordQuiet
    | split
    | (with_reducible refine kept_fst (by assumption) ?_)

theorem kept_sendPair {s : State} (hs : Kept q p s) (p0 : Nat) (ty : Nat) (k : PairPkt) :
    Kept q p (sendPair s p0 ty k) := by
  unfold sendPair
  repeat' first
    | with_reducible assumption
    | intro _
    | with_reducible apply kept_modPort
    | with_reducible apply kept_ite
    | split
    | with_reducible apply kept_with

theorem kept_helloAll {s : State} (hs : Kept q p s) (sub : Nat) (reason : Nat) :
    Kept q p (helloAll s sub reason) := by
  unfold helloAll
  repeat' first
    | with_reducible assumption
    | intro _
    | with_reducible apply kept_sendPair
    | with_reducible apply kept_foldl

theorem kept_freshIf {s : State} (hs : Kept q p s) (c : Bool) :
    Kept q p (if c then ((0 : BitVec 64), s) else fresh s).2 := by
  split
  · exact hs
  · exact kept_fresh hs

theorem kept_endEye {s : State} (hs : Kept q p s) (p0 : Nat) : Kept q p (endEye s p0) := by
  unfold endEye
  dsimp only
  split
  · exact hs
  · have h1 := kept_setF (kept_setF (kept_setF (kept_freshIf hs (flag s (fpReg p0 0x404) 4)) (fpReg p0 0x404) 0 0 0)
      (fpReg p0 0x404) 4 4 0) (fpReg p0 0x404) 2 2 1
    exact kept_setPhy (kept_ite (kept_setF h1 _ _ _ _) h1) _ _

theorem kept_dropInjection {s : State} (hs : Kept q p s) (p0 : Nat) :
    Kept q p (dropInjection s p0) := by
  unfold dropInjection
  repeat' first
    | with_reducible assumption
    | intro _
    | with_reducible apply kept_setF
    | with_reducible apply kept_ite

theorem kept_portRegsOff {s : State} (hs : Kept q p s) (p0 : Nat) :
    Kept q p (portRegsOff s p0) := by
  unfold portRegsOff
  repeat' first
    | with_reducible assumption
    | intro _
    | extract_lets
    | with_reducible apply kept_wr
    | with_reducible apply kept_setF
    | with_reducible apply kept_dropInjection
    | with_reducible apply kept_endEye
    | with_reducible apply kept_foldUpTo

theorem kept_portReset {s : State} (hs : Kept q p s) (p0 : PortN) (dest : LinkState) :
    Kept q p (portReset s p0 dest) := by
  unfold portReset
  repeat' first
    | with_reducible assumption
    | intro _
    | extract_lets
    | with_reducible apply kept_openShadow
    | with_reducible apply kept_count
    | with_reducible apply kept_dropTaken
    | with_reducible apply kept_recordQuiet
    | with_reducible apply kept_portRegsOff
    | with_reducible apply kept_setPort
    | with_reducible apply kept_ite

theorem kept_portLatch {s : State} (hs : Kept q p s) (p0 : PortN) :
    Kept q p (portLatch s p0) := by
  unfold portLatch
  repeat' first
    | with_reducible assumption
    | intro _
    | extract_lets
    | with_reducible apply kept_setF
    | with_reducible apply kept_portReset
    | with_reducible apply kept_modPort

theorem kept_retarget {s : State} (hs : Kept q p s) (c : Nat) : Kept q p (retarget s c) := by
  unfold retarget
  extract_lets fb st dst srcs
  clear_value dst
  cases dst with
  | some k => exact kept_foldl _ (fun u n hu => kept_setF hu _ _ _ _) _ hs
  | none => exact kept_ite hs (kept_count (kept_recordQuiet hs _ _ _ _) _ _)

theorem kept_coreShutdown {s : State} (hs : Kept q p s) (c : CoreN) :
    Kept q p (coreShutdown s c) := by
  unfold coreShutdown
  repeat' first
    | with_reducible assumption
    | intro _
    | with_reducible apply kept_openShadow
    | with_reducible apply kept_retarget
    | with_reducible apply kept_setCore

theorem kept_endScans {s : State} (hs : Kept q p s) (f : Scan → Bool) (status : BitVec 8) :
    Kept q p (endScans s f status) := by
  unfold endScans
  repeat' first
    | with_reducible assumption
    | intro _
    | with_reducible apply kept_setScan
    | with_reducible apply kept_ite
    | with_reducible apply kept_foldUpTo
    | with_reducible apply kept_foldUpTo_fst
    | with_reducible apply kept_foldUpTo_snd
    | split

theorem kept_engShutdown {s : State} (hs : Kept q p s) (n : Tum) :
    Kept q p (engShutdown s n) := by
  unfold engShutdown
  repeat' first
    | with_reducible assumption
    | intro _
    | with_reducible apply kept_openShadow
    | with_reducible apply kept_endScans
    | with_reducible apply kept_setEng

theorem kept_tumShutdown {s : State} (hs : Kept q p s) (t : Tum) (fault : Bool) :
    Kept q p (tumShutdown s t fault) := by
  unfold tumShutdown
  repeat' first
    | with_reducible assumption
    | intro _
    | with_reducible apply kept_openShadow
    | with_reducible apply kept_setF
    | with_reducible apply kept_fault
    | with_reducible apply kept_idle
    | with_reducible apply kept_setTum
    | with_reducible apply kept_ite
    | split

theorem kept_leafReset {s : State} (hs : Kept q p s) (l : LeafN) :
    Kept q p (leafReset s l) := by
  unfold leafReset
  repeat' first
    | with_reducible assumption
    | intro _
    | with_reducible apply kept_openShadow
    | with_reducible apply kept_count
    | with_reducible apply kept_setF
    | with_reducible apply kept_setTum
    | with_reducible apply kept_ite
    | with_reducible apply kept_foldl

theorem kept_setDiverged {s : State} (hs : Kept q p s) (r : Nat) :
    Kept q p (setDiverged s r) := by
  unfold setDiverged
  repeat' first
    | with_reducible assumption
    | intro _
    | extract_lets
    | with_reducible apply kept_count
    | with_reducible apply kept_setF
    | with_reducible apply kept_ite
    | split
    | with_reducible apply kept_with

theorem kept_abortUnsent {s : State} (hs : Kept q p s) (queued : Bool) (a : Access) :
    Kept q p (abortUnsent s queued a) := by
  unfold abortUnsent
  extract_lets s1
  refine kept_completeQuiet ?_ _ _ _
  unfold s1
  split
  · exact kept_ite hs (kept_leaveStore hs _)
  · exact hs

theorem kept_freeDead {s : State} (hs : Kept q p s) (h : HeldPkt) :
    Kept q p (freeDead s h) := by
  unfold freeDead
  repeat' first
    | with_reducible assumption
    | intro _
    | extract_lets
    | with_reducible apply kept_setDiverged
    | with_reducible apply kept_completeQuiet
    | with_reducible apply kept_ite
    | split

theorem kept_pairLatch {s : State} (hs : Kept q p s) :
    Kept q p (pairLatch s) := by
  unfold pairLatch
  repeat' first
    | with_reducible assumption
    | intro _
    | extract_lets
    | with_reducible apply kept_answer
    | with_reducible apply kept_openShadow
    | with_reducible apply kept_freeDead
    | with_reducible apply kept_abortUnsent
    | with_reducible apply kept_setQ
    | with_reducible apply kept_ite
    | with_reducible apply kept_foldl
    | with_reducible apply kept_foldl_fst
    | with_reducible apply kept_foldl_snd
    | split
    | with_reducible apply kept_with

theorem kept_beginDrain {s : State} (hs : Kept q p s) (c : DrainCause) :
    Kept q p (beginDrain s c) := by
  unfold beginDrain
  repeat' first
    | with_reducible assumption
    | intro _
    | with_reducible apply kept_setF
    | with_reducible apply kept_helloAll
    | with_reducible apply kept_modPort
    | with_reducible apply kept_foldl
    | with_reducible apply kept_foldl_fst
    | with_reducible apply kept_foldl_snd
    | with_reducible apply kept_with

theorem kept_stopRing {s : State} (hs : Kept q p s) (n : RingN) :
    Kept q p (stopRing s n) := by
  unfold stopRing
  repeat' first
    | with_reducible assumption
    | intro _
    | extract_lets
    | with_reducible apply kept_dropTaken
    | with_reducible apply kept_setRing
    | with_reducible apply kept_count
    | with_reducible apply kept_setF
    | with_reducible apply kept_ite

theorem kept_stopRings {s : State} (hs : Kept q p s) :
    Kept q p (stopRings s) := by
  unfold stopRings
  repeat' first
    | with_reducible assumption
    | intro _
    | extract_lets
    | with_reducible apply kept_stopRing
    | with_reducible apply kept_setRing
    | with_reducible apply kept_foldl

theorem kept_fatalStop {s : State} (hs : Kept q p s) (b : FltSet) :
    Kept q p (fatalStop s b) := by
  unfold fatalStop
  repeat' first
    | with_reducible assumption
    | intro _
    | extract_lets
    | with_reducible apply kept_openShadow
    | with_reducible apply kept_wr
    | with_reducible apply kept_portReset
    | with_reducible apply kept_stopRings
    | with_reducible apply kept_setCore
    | with_reducible apply kept_setAlert
    | with_reducible apply kept_foldl
    | with_reducible apply kept_foldl_fst
    | with_reducible apply kept_foldl_snd
    | with_reducible apply kept_with

theorem kept_react {s : State} (hs : Kept q p s) (b : FltSet) (c : Nat) (sev : Nat) :
    Kept q p (react s b c sev) := by
  unfold react
  repeat' first
    | with_reducible assumption
    | intro _
    | extract_lets
    | with_reducible apply kept_tumShutdown
    | with_reducible apply kept_engShutdown
    | with_reducible apply kept_portLatch
    | with_reducible apply kept_coreShutdown
    | with_reducible apply kept_leafReset
    | with_reducible apply kept_pairLatch
    | with_reducible apply kept_cntFence
    | with_reducible apply kept_stopRings
    | with_reducible apply kept_fatalStop
    | with_reducible apply kept_setF
    | with_reducible apply kept_beginDrain
    | with_reducible apply kept_ite
    | with_reducible apply kept_foldl
    | with_reducible apply kept_foldl_fst
    | with_reducible apply kept_foldl_snd
    | split
    | with_reducible apply kept_with

theorem kept_fault {s : State} (hs : Kept q p s) (b : FltSet) (c : Nat) (detail : BitVec 96) (n : Nat) :
    Kept q p (fault s b c detail n) := by
  unfold fault
  repeat' first
    | with_reducible assumption
    | intro _
    | with_reducible apply kept_record
    | with_reducible apply kept_react

theorem kept_paramFault {s : State} (hs : Kept q p s) (b : FltSet) :
    Kept q p (paramFault s b) := by
  unfold paramFault
  repeat' first
    | with_reducible assumption
    | intro _
    | with_reducible apply kept_fault

theorem kept_complete {s : State} (hs : Kept q p s) (a : Access) (c : Cmp) (queued : Bool) :
    Kept q p (complete s a c queued) := by
  unfold complete
  repeat' first
    | with_reducible assumption
    | intro _
    | with_reducible apply kept_completeCore
    | with_reducible apply kept_fault
    | split
    | (with_reducible refine kept_fst (by assumption) ?_)

theorem kept_mramStore {s : State} (hs : Kept q p s) (a : Nat) (l : List Byte) (ok : Bool) :
    Kept q p (mramStore s a l ok).1 := by
  unfold mramStore
  repeat' first
    | with_reducible assumption
    | intro _
    | with_reducible apply kept_mramPut
    | with_reducible apply kept_fault
    | with_reducible apply kept_count
    | with_reducible apply kept_ite
    | split

theorem kept_storeRegion {s : State} (hs : Kept q p s) (r : Nat) :
    Kept q p (storeRegion s r) := by
  unfold storeRegion
  repeat' first
    | with_reducible assumption
    | intro _
    | with_reducible apply kept_mramPut

theorem kept_storeRemap {s : State} (hs : Kept q p s) (i : Nat) :
    Kept q p (storeRemap s i) := by
  unfold storeRemap
  repeat' first
    | with_reducible assumption
    | intro _
    | with_reducible apply kept_mramPut

theorem kept_storeLeaf {s : State} (hs : Kept q p s) (t : Nat) :
    Kept q p (storeLeaf s t) := by
  unfold storeLeaf
  repeat' first
    | with_reducible assumption
    | intro _
    | with_reducible apply kept_mramPut

end Sys2Proof.Machine
end

