-- ==== Sys2Proof/Laws/KeptAddr.lean ====
section
/-! SUPPORT. What the operations of Machine/Addr.lean keep (Laws/Kept.lean). -/

namespace Sys2Proof.Machine

open Sys2Proof

variable {q : List Instr} {p : Part}

theorem kept_setRole {s : State} (hs : Kept q p s) (t : Nat) (l : Nat) (role : Nat) (logical : Nat) :
    Kept q p (setRole s t l role logical) := by
  unfold setRole
  repeat' first
    | with_reducible assumption
    | intro _
    | with_reducible apply kept_setF

theorem kept_putWordRaw {s : State} (hs : Kept q p s) (t : Nat) (l : Loc) (col w : Nat) (v : CodeWord) :
    Kept q p (putWordRaw s t l col w v) := kept_dram hs (wf_cellPut _ _ _ hs.2.2.1)

theorem kept_putWord {s : State} (hs : Kept q p s) (t : Nat) (l : Loc) (col : Nat) (w : Nat) (v : CodeWord) :
    Kept q p (putWord s t l col w v) := by
  unfold putWord
  repeat' first
    | with_reducible assumption
    | intro _
    | with_reducible apply kept_putWordRaw
    | with_reducible apply kept_modTum

theorem kept_putBoth {s : State} (hs : Kept q p s) (t : Nat) (l : Loc) (x : Nat) (w : Nat) (v : CodeWord) :
    Kept q p (putBoth s t l x w v) := by
  unfold putBoth
  repeat' first
    | with_reducible assumption
    | intro _
    | extract_lets
    | with_reducible apply kept_putWord
    | split

theorem kept_writeBack {s : State} (hs : Kept q p s) (t : Nat) (l : Loc) (x : Nat) (w : Nat) (v : CodeWord) :
    Kept q p (writeBack s t l x w v) := by
  unfold writeBack
  repeat' first
    | with_reducible assumption
    | intro _
    | extract_lets
    | with_reducible apply kept_putWordRaw
    | split

theorem kept_loseBits {s : State} (hs : Kept q p s) (t : Nat) (l : Loc) (col : Nat) (w : Nat) (f : CodeWord) :
    Kept q p (loseBits s t l col w f) := by
  unfold loseBits
  repeat' first
    | with_reducible assumption
    | intro _
    | with_reducible apply kept_putWordRaw
    | with_reducible apply kept_ite

theorem kept_wordRecord {s : State} (hs : Kept q p s) (t : Nat) (l : Loc) (x : Nat) (w : Nat) (hard : Bool) :
    Kept q p (wordRecord s t l x w hard) := by
  unfold wordRecord
  repeat' first
    | with_reducible assumption
    | intro _
    | with_reducible apply kept_wr
    | with_reducible apply kept_setF

theorem kept_classHard {s : State} (hs : Kept q p s) (t : Nat) (l : Loc) (x : Nat) (w : Nat) :
    Kept q p (classHard s t l x w) := by
  unfold classHard
  repeat' first
    | with_reducible assumption
    | intro _
    | with_reducible apply kept_count
    | with_reducible apply kept_wordRecord
    | with_reducible apply kept_fault
    | with_reducible apply kept_raise

theorem kept_cwcDrop {s : State} (hs : Kept q p s) (t : Nat) (k : Nat) :
    Kept q p (cwcDrop s t k) := by
  unfold cwcDrop
  repeat' first
    | with_reducible assumption
    | intro _
    | with_reducible apply kept_modTum

theorem kept_cwcPut {s : State} (hs : Kept q p s) (t : Nat) (e : CwcEntry) : Kept q p (cwcPut s t e).1 := by
  unfold cwcPut
  extract_lets c
  split
  · exact kept_modTum hs _ _
  · split
    · exact kept_modTum hs _ _
    · split
      · exact kept_modTum hs _ _
      · exact kept_count hs _ _

theorem kept_corrected {s : State} (hs : Kept q p s) (t : Nat) (l : Loc) (x w : Nat) (double : Bool) :
    Kept q p (corrected s t l x w double).1 := by
  unfold corrected
  extract_lets k now s1 e old1 old n
  have h1 : Kept q p s1 := kept_count hs _ _
  clear_value s1 e old n
  split
  · exact kept_classHard (kept_cwcDrop h1 _ _) _ _ _ _
  · split
    · exact kept_cwcPut h1 _ _
    · split
      · exact kept_cwcPut h1 _ _
      · exact kept_cwcPut h1 _ _

theorem kept_decodeAt {s : State} (hs : Kept q p s) (t : Nat) (l : Loc) (x w e : Nat) (v : CodeWord) :
    Kept q p (decodeAt s t l x w e v).1 := by
  unfold decodeAt
  extract_lets d still
  clear_value d still
  split
  · exact hs
  · exact hs
  · exact kept_fault (kept_count (kept_wordRecord (kept_ite (kept_putBoth hs _ _ _ _ _) hs) _ _ _ _ _) _ _) _ _ _ _
  · split
    rename_i he
    have h1 := kept_fst he (kept_corrected hs _ _ _ _ _)
    exact kept_ite (kept_count (kept_writeBack h1 _ _ _ _ _) _ _) h1

theorem kept_decodeRead {s : State} (hs : Kept q p s) (t : Nat) (l : Loc) (x e : Nat) (ws flips : List CodeWord)
    (pick : Nat → Bool) : Kept q p (decodeRead s t l x e ws flips pick).1 := by
  delta decodeRead
  extract_lets c s1
  have h1 : Kept q p s1 := kept_foldUpTo _ _ (fun u w hu => kept_ite (kept_loseBits hu _ _ _ _ _) hu) hs
  clear_value s1
  generalize 8 = n
  refine kept_foldUpTo_fst _ _ (fun u w hu => ?_) h1
  extract_lets v
  split
  · exact kept_decodeAt hu _ _ _ _ _ _
  · exact hu

theorem kept_decodeLine {s : State} (hs : Kept q p s) (t : Nat) (l : Loc) (x : Nat) (e : Nat) (flips : List CodeWord) (pick : Nat → Bool) :
    Kept q p (decodeLine s t l x e flips pick).1 := by
  unfold decodeLine
  repeat' first
    | with_reducible assumption
    | intro _
    | with_reducible apply kept_decodeRead

theorem kept_flowStart {s : State} (hs : Kept q p s) (id : Nat) (f : BitVec 18) :
    Kept q p (flowStart s id f) := by
  unfold flowStart
  repeat' first
    | with_reducible assumption
    | intro _
    | with_reducible apply kept_setF
    | with_reducible apply kept_with

end Sys2Proof.Machine
end

