-- ==== Sys2Proof/Laws/KeptPairOps.lean ====
section
/-! SUPPORT. What the operations of Machine/PairOps.lean keep (Laws/Kept.lean). -/

namespace Sys2Proof.Machine

open Sys2Proof

variable {q : List Instr} {p : Part}

theorem kept_clearDiverged {s : State} (hs : Kept q p s) (r : Nat) :
    Kept q p (clearDiverged s r) := by
  unfold clearDiverged
  repeat' first
    | with_reducible assumption
    | intro _
    | extract_lets
    | with_reducible apply kept_setF
    | with_reducible apply kept_ite
    | split
    | with_reducible apply kept_with

theorem kept_sendHeld {s : State} (hs : Kept q p s) (h : HeldPkt) :
    Kept q p (sendHeld s h).1 := by
  unfold sendHeld
  repeat' first
    | with_reducible assumption
    | intro _
    | extract_lets
    | with_reducible apply kept_sendPair
    | with_reducible apply kept_with

theorem kept_sendSeq {s : State} (hs : Kept q p s) (ty r : Nat) (k : PairPkt) (done : Option (Access × Cmp)) :
    Kept q p (sendSeq s ty r k done) := by
  unfold sendSeq
  extract_lets h
  split
  rename_i u g he
  have h1 : Kept q p u := by
    refine kept_fst he ?_
    split
    · exact kept_sendHeld hs _
    · exact hs
  exact h1

theorem kept_pump {s : State} (hs : Kept q p s) : Kept q p (pump s) := by
  unfold pump
  refine kept_foldUpTo _ _ (fun u i hu => ?_) hs
  split
  · split
    · split
      rename_i he
      have h1 := kept_fst he (kept_sendHeld hu _)
      exact h1
    · exact hu
  · exact hu

theorem kept_badPair {s : State} (hs : Kept q p s) (p0 : Nat) :
    Kept q p (badPair s p0) := by
  unfold badPair
  repeat' first
    | with_reducible assumption
    | intro _
    | extract_lets
    | with_reducible apply kept_count
    | with_reducible apply kept_setF
    | with_reducible apply kept_fault

theorem kept_sendFwd {s : State} (hs : Kept q p s) (a : Access) :
    Kept q p (sendFwd s a) := by
  unfold sendFwd
  repeat' first
    | with_reducible assumption
    | intro _
    | extract_lets
    | with_reducible apply kept_sendSeq
    | with_reducible apply kept_count
    | with_reducible apply kept_with

theorem kept_fwdMeasured {s : State} (hs : Kept q p s) (a : Access) (fenced : Bool) :
    Kept q p (fwdMeasured s a fenced) := by
  unfold fwdMeasured
  repeat' first
    | with_reducible assumption
    | intro _
    | with_reducible apply kept_wardDone
    | with_reducible apply kept_histogram

theorem kept_sendAck {s : State} (hs : Kept q p s) (p0 : Nat) (n : Nat) :
    Kept q p (sendAck s p0 n) := by
  unfold sendAck
  repeat' first
    | with_reducible assumption
    | intro _
    | with_reducible apply kept_sendPair

theorem kept_ackHands {s : State} (hs : Kept q p s) (p0 : Nat) :
    Kept q p (ackHands s p0) := by
  unfold ackHands
  repeat' first
    | with_reducible assumption
    | intro _
    | extract_lets
    | with_reducible apply kept_sendAck
    | with_reducible apply kept_ite
    | split
    | with_reducible apply kept_with

theorem kept_takeHand {s : State} (hs : Kept q p s) (p0 : Nat) (ty : Nat) (k : PairPkt) (done : Bool) :
    Kept q p (takeHand s p0 ty k done) := by
  unfold takeHand
  repeat' first
    | with_reducible assumption
    | intro _
    | extract_lets
    | with_reducible apply kept_with

theorem kept_handDone {s : State} (hs : Kept q p s) (p0 : Nat) (seq : BitVec 32) :
    Kept q p (handDone s p0 seq) := by
  unfold handDone
  repeat' first
    | with_reducible assumption
    | intro _
    | with_reducible apply kept_ackHands
    | with_reducible apply kept_ite
    | split
    | with_reducible apply kept_with

theorem kept_fwdDone {s : State} (hs : Kept q p s) (tag : BitVec 16) (v : Nat) (partner : Bool) (bytes : Nat) (data : Nat) :
    Kept q p (fwdDone s tag v partner bytes data) := by
  unfold fwdDone
  repeat' first
    | with_reducible assumption
    | intro _
    | with_reducible apply kept_complete
    | split
    | with_reducible apply kept_with

theorem kept_answerFwd {s : State} (hs : Kept q p s) (k : PairPkt) (partner : Bool) :
    Kept q p (answerFwd s k partner) := by
  unfold answerFwd
  repeat' first
    | with_reducible assumption
    | intro _
    | extract_lets
    | with_reducible apply kept_fwdDone

theorem kept_replicaDone {s : State} (hs : Kept q p s) (p0 : Nat) (k : PairPkt) : Kept q p (replicaDone s p0 k) :=
  kept_handDone (kept_ite (kept_answerFwd hs _ _) hs) _ _

theorem kept_replicaStored {s : State} (hs : Kept q p s) (a : Access) :
    Kept q p (replicaStored s a) := by
  unfold replicaStored
  repeat' first
    | with_reducible assumption
    | intro _
    | with_reducible apply kept_replicaDone
    | split

theorem kept_replicaRejected {s : State} (hs : Kept q p s) (a : Access) :
    Kept q p (replicaRejected s a) := by
  unfold replicaRejected
  repeat' first
    | with_reducible assumption
    | intro _
    | extract_lets
    | with_reducible apply kept_answerFwd
    | with_reducible apply kept_sendPair
    | with_reducible apply kept_handDone
    | with_reducible apply kept_ite
    | split

theorem kept_fwdServed {s : State} (hs : Kept q p s) (tag : BitVec 16) : Kept q p (fwdServed s tag) := by
  unfold fwdServed
  split
  · exact kept_handDone hs _ _
  · exact hs

theorem kept_writeSafe {s : State} (hs : Kept q p s) (a : Access) (c : Cmp) (m d : Nat) :
    Kept q p (writeSafe s a c m d) := by
  unfold writeSafe
  extract_lets r addr s1 s2 o
  split
  · exact kept_replicaStored hs _
  · exact kept_masterDone hs _ _ _ _
  · have h1 : Kept q p s1 := kept_fwdMeasured hs _ _
    have h2 : Kept q p s2 := kept_ite (kept_setDiverged h1 _) h1
    exact kept_ite h2 (kept_fwdServed (kept_sendSeq (kept_count h2 _ _) _ _ _ _) _)
  · clear_value o
    split
    · exact kept_ite (kept_complete hs _ _ _) (kept_sendSeq (kept_count hs _ _) _ _ _ _)
    · exact kept_complete (kept_ite hs (kept_setDiverged hs _)) _ _ _
    · exact kept_complete hs _ _ _

theorem kept_readServed {s : State} (hs : Kept q p s) (a : Access) (c : Cmp) :
    Kept q p (readServed s a c) := by
  unfold readServed
  repeat' first
    | with_reducible assumption
    | intro _
    | extract_lets
    | with_reducible apply kept_fwdMeasured
    | with_reducible apply kept_fwdServed
    | with_reducible apply kept_sendPair
    | with_reducible apply kept_complete
    | with_reducible apply kept_ite
    | split

end Sys2Proof.Machine
end

