-- ==== Sys2Proof/Laws/KeptQueue.lean ====
section
/-! SUPPORT. What the operations of Machine/Queue.lean keep (Laws/Kept.lean). -/

namespace Sys2Proof.Machine

open Sys2Proof

variable {q : List Instr} {p : Part}

theorem kept_chargeMaster {s : State} (hs : Kept q p s) (t : Nat) (m : Nat) (n : Nat) :
    Kept q p (chargeMaster s t m n) := by
  unfold chargeMaster
  repeat' first
    | with_reducible assumption
    | intro _
    | with_reducible apply kept_with

theorem kept_charge {s : State} (hs : Kept q p s) (a : Access) (n : Nat) :
    Kept q p (charge s a n) := by
  unfold charge
  repeat' first
    | with_reducible assumption
    | intro _
    | extract_lets
    | with_reducible apply kept_count
    | with_reducible apply kept_chargeMaster
    | with_reducible apply kept_ite
    | split
    | with_reducible apply kept_with

theorem kept_excludeQueued {s : State} (hs : Kept q p s) (t : Nat) :
    Kept q p (excludeQueued s t) := by
  unfold excludeQueued
  repeat' first
    | with_reducible assumption
    | intro _
    | extract_lets
    | with_reducible apply kept_setQ
    | with_reducible apply kept_ite
    | split
    | with_reducible apply kept_with

theorem kept_pauseOn {s : State} (hs : Kept q p s) (t : Nat) :
    Kept q p (pauseOn s t) := by
  unfold pauseOn
  repeat' first
    | with_reducible assumption
    | intro _
    | with_reducible apply kept_excludeQueued
    | with_reducible apply kept_modTum
    | with_reducible apply kept_ite
    | split

theorem kept_pauseHotOn {s : State} (hs : Kept q p s) (t : Nat) :
    Kept q p (pauseHotOn s t) := by
  unfold pauseHotOn
  repeat' first
    | with_reducible assumption
    | intro _
    | with_reducible apply kept_modTum
    | with_reducible apply kept_ite

theorem kept_pauseOff {s : State} (hs : Kept q p s) (t : Nat) :
    Kept q p (pauseOff s t) := by
  unfold pauseOff
  repeat' first
    | with_reducible assumption
    | intro _
    | with_reducible apply kept_excludeQueued
    | with_reducible apply kept_modTum
    | split

theorem kept_storePkt {s : State} (hs : Kept q p s) (p0 : Nat) (pkt : List (BitVec 16)) :
    Kept q p (storePkt s p0 pkt) := by
  unfold storePkt
  repeat' first
    | with_reducible assumption
    | intro _
    | with_reducible apply kept_modPort

theorem kept_received {s : State} (hs : Kept q p s) (p0 : Nat) (pkt : List (BitVec 16)) :
    Kept q p (received s p0 pkt) := by
  unfold received
  repeat' first
    | with_reducible assumption
    | intro _
    | with_reducible apply kept_storePkt
    | with_reducible apply kept_ite

theorem kept_dropPkt {s : State} (hs : Kept q p s) (p0 : Nat) (pkt : List (BitVec 16)) :
    Kept q p (dropPkt s p0 pkt) := by
  unfold dropPkt
  repeat' first
    | with_reducible assumption
    | intro _
    | with_reducible apply kept_modPort

theorem kept_asmPut {s : State} (hs : Kept q p s) (a : Access) (x : Assembly) :
    Kept q p (asmPut s a x) := by
  unfold asmPut
  repeat' first
    | with_reducible assumption
    | intro _
    | extract_lets
    | with_reducible apply kept_setQ
    | with_reducible apply kept_readServed
    | with_reducible apply kept_count
    | with_reducible apply kept_ite

theorem kept_slotDone {s : State} (hs : Kept q p s) (a : Access) (k : Slot) (c : Cmp) (m : Nat) :
    Kept q p (slotDone s a k c m) := by
  unfold slotDone
  repeat' first
    | with_reducible assumption
    | intro _
    | extract_lets
    | with_reducible apply kept_setQ
    | with_reducible apply kept_count
    | with_reducible apply kept_writeSafe
    | with_reducible apply kept_ite

theorem kept_settleOne {s : State} (hs : Kept q p s) (t : Nat) (id : Nat) (x : Nat) :
    Kept q p (settleOne s t id x) := by
  unfold settleOne
  repeat' first
    | with_reducible assumption
    | intro _
    | extract_lets
    | with_reducible apply kept_fresh
    | with_reducible apply kept_slotDone
    | with_reducible apply kept_count
    | with_reducible apply kept_setQ
    | with_reducible apply kept_asmPut
    | with_reducible apply kept_ite
    | with_reducible apply kept_foldUpTo
    | with_reducible apply kept_foldUpTo_fst
    | with_reducible apply kept_foldUpTo_snd
    | split

theorem kept_settle {s : State} (hs : Kept q p s) (t : Nat) (x : Nat) :
    Kept q p (settle s t x) := by
  unfold settle
  repeat' first
    | with_reducible assumption
    | intro _
    | extract_lets
    | with_reducible apply kept_settleOne
    | with_reducible apply kept_foldUpTo
    | with_reducible apply kept_foldUpTo_fst
    | with_reducible apply kept_foldUpTo_snd
    | with_reducible apply kept_foldl

theorem kept_wakeFor {s : State} (hs : Kept q p s) (t : Nat) :
    Kept q p (wakeFor s t) := by
  unfold wakeFor
  repeat' first
    | with_reducible assumption
    | intro _
    | extract_lets
    | with_reducible apply kept_setMode
    | with_reducible apply kept_ite

theorem kept_enterQueue {s : State} (hs : Kept q p s) (a : Access) :
    Kept q p (enterQueue s a) := by
  unfold enterQueue
  repeat' first
    | with_reducible assumption
    | intro _
    | extract_lets
    | with_reducible apply kept_fresh
    | with_reducible apply kept_wakeFor
    | with_reducible apply kept_count
    | with_reducible apply kept_setQ
    | with_reducible apply kept_settle
    | with_reducible apply kept_ite
    | split
    | with_reducible apply kept_with

theorem kept_failAccess {s : State} (hs : Kept q p s) (a : Access) (st : BitVec 4) :
    Kept q p (failAccess s a st) := by
  unfold failAccess
  repeat' first
    | with_reducible assumption
    | intro _
    | extract_lets
    | with_reducible apply kept_replicaRejected
    | with_reducible apply kept_fwdServed
    | with_reducible apply kept_sendPair
    | with_reducible apply kept_sendSeq
    | with_reducible apply kept_count
    | with_reducible apply kept_complete
    | with_reducible apply kept_ite
    | split

theorem kept_dmaBegin {s : State} (hs : Kept q p s) (a : Access) :
    Kept q p (dmaBegin s a).1 := by
  unfold dmaBegin
  repeat' first
    | with_reducible assumption
    | intro _
    | extract_lets
    | with_reducible apply kept_flowStart
    | with_reducible apply kept_ite
    | split
    | with_reducible apply kept_with

theorem kept_replaceWaiting {s : State} (hs : Kept q p s) (r : Nat) :
    Kept q p (replaceWaiting s r) := by
  unfold replaceWaiting
  repeat' first
    | with_reducible assumption
    | intro _
    | with_reducible apply kept_ite
    | split
    | with_reducible apply kept_with

theorem kept_release {s : State} (hs : Kept q p s) (a : Access) : Kept q p (release s a) := by
  unfold release
  split
  · rename_i st _
    cases (s.dmas.find? (fun d => d.id == a.op1.toNat)) with
    | none => exact hs
    | some d => exact kept_dmaEnd hs _ _
  · extract_lets o
    split
    rename_i s1 a1 he
    have h1 := kept_fst he (kept_dmaBegin hs _)
    extract_lets s2 s3 a2
    have h2 : Kept q p s2 := h1
    have h3 : Kept q p s3 := by
      unfold s3
      split
      · exact kept_ite h2 (kept_leaveStore h2 _)
      · exact h2
    clear_value o
    split
    · exact kept_failAccess h3 _ _
    · exact kept_failAccess h3 _ _
    · exact kept_sendFwd h3 _
    · exact kept_ite (kept_writeSafe h3 _ _ _ _) (kept_enterQueue h3 _)

theorem kept_arrive {s : State} (hs : Kept q p s) (a : Access) :
    Kept q p (arrive s a) := by
  unfold arrive
  repeat' first
    | with_reducible assumption
    | intro _
    | extract_lets
    | with_reducible apply kept_release
    | with_reducible apply kept_count
    | with_reducible apply kept_ite
    | split
    | with_reducible apply kept_with

end Sys2Proof.Machine
end

