-- ==== Sys2Proof/Laws/KeptTiming.lean ====
section
/-! SUPPORT. What the operations of Machine/Timing.lean keep (Laws/Kept.lean). -/

namespace Sys2Proof.Machine

open Sys2Proof

variable {q : List Instr} {p : Part}

theorem kept_putSet {s : State} (hs : Kept q p s) (t : Nat) (l : Nat) (k : Nat) (x : RefSet) :
    Kept q p (putSet s t l k x) := by
  unfold putSet
  repeat' first
    | with_reducible assumption
    | intro _
    | with_reducible apply kept_modTum

theorem kept_restartRefresh {s : State} (hs : Kept q p s) (t : Nat) :
    Kept q p (restartRefresh s t) := by
  unfold restartRefresh
  repeat' first
    | with_reducible assumption
    | intro _
    | extract_lets
    | with_reducible apply kept_putSet
    | with_reducible apply kept_foldl

theorem kept_stopSlice {s : State} (hs : Kept q p s) (t : Nat) (l : Nat) :
    Kept q p (stopSlice s t l) := by
  unfold stopSlice
  repeat' first
    | with_reducible assumption
    | intro _
    | extract_lets
    | with_reducible apply kept_putSet
    | with_reducible apply kept_foldUpTo

theorem kept_startSlice {s : State} (hs : Kept q p s) (t : Nat) (l : Nat) :
    Kept q p (startSlice s t l) := by
  unfold startSlice
  repeat' first
    | with_reducible assumption
    | intro _
    | with_reducible apply kept_putSet
    | with_reducible apply kept_foldUpTo

theorem kept_hammerRef {s : State} (hs : Kept q p s) (t : Nat) (l : Loc) :
    Kept q p (hammerRef s t l) := by
  unfold hammerRef
  repeat' first
    | with_reducible assumption
    | intro _
    | extract_lets
    | with_reducible apply kept_modTum
    | with_reducible apply kept_ite

theorem kept_refreshRows {s : State} (hs : Kept q p s) (t : Nat) (l : Nat) (k : Nat) (p0 : Nat) (n : Nat) :
    Kept q p (refreshRows s t l k p0 n) := by
  unfold refreshRows
  repeat' first
    | with_reducible assumption
    | intro _
    | extract_lets
    | with_reducible apply kept_hammerRef
    | with_reducible apply kept_foldUpTo

theorem kept_advance {s : State} (hs : Kept q p s) (t : Nat) (n : Nat) :
    Kept q p (advance s t n) := by
  unfold advance
  repeat' first
    | with_reducible assumption
    | intro _
    | extract_lets
    | with_reducible apply kept_setDram
    | with_reducible apply kept_ite
    | split
    | with_reducible apply kept_with

theorem kept_goTo {s : State} (hs : Kept q p s) (t : Nat) (m : Nat) :
    Kept q p (goTo s t m) := by
  unfold goTo
  repeat' first
    | with_reducible assumption
    | intro _
    | with_reducible apply kept_advance

theorem kept_enterSelf {s : State} (hs : Kept q p s) (t : Nat) :
    Kept q p (enterSelf s t) := by
  unfold enterSelf
  repeat' first
    | with_reducible assumption
    | intro _
    | extract_lets
    | with_reducible apply kept_putSet
    | with_reducible apply kept_refreshRows
    | with_reducible apply kept_count
    | with_reducible apply kept_modTum
    | with_reducible apply kept_setMode
    | with_reducible apply kept_foldl
    | with_reducible apply kept_foldl_fst
    | with_reducible apply kept_foldl_snd
    | with_reducible apply kept_with

theorem kept_leaveSelf {s : State} (hs : Kept q p s) (t : Nat) :
    Kept q p (leaveSelf s t) := by
  unfold leaveSelf
  repeat' first
    | with_reducible assumption
    | intro _
    | with_reducible apply kept_restartRefresh
    | with_reducible apply kept_setMode
    | with_reducible apply kept_ite

theorem kept_putBank {s : State} (hs : Kept q p s) (t : Nat) (n : Nat) (b : Bank) :
    Kept q p (putBank s t n b) := by
  unfold putBank
  repeat' first
    | with_reducible assumption
    | intro _
    | with_reducible apply kept_setDram

theorem kept_putSlice {s : State} (hs : Kept q p s) (t : Nat) (l : Nat) (x : SliceTim) :
    Kept q p (putSlice s t l x) := by
  unfold putSlice
  repeat' first
    | with_reducible assumption
    | intro _
    | with_reducible apply kept_setDram

theorem kept_issuePre {s : State} (hs : Kept q p s) (t : Nat) (n : Nat) :
    Kept q p (issuePre s t n) := by
  unfold issuePre
  repeat' first
    | with_reducible assumption
    | intro _
    | extract_lets
    | with_reducible apply kept_putBank
    | with_reducible apply kept_count
    | with_reducible apply kept_setDram

theorem kept_throttle {s : State} (hs : Kept q p s) (t : Nat) (n : Nat) (src : Src) :
    Kept q p (throttle s t n src) := by
  unfold throttle
  repeat' first
    | with_reducible assumption
    | intro _
    | extract_lets
    | with_reducible apply kept_setTum
    | with_reducible apply kept_count
    | with_reducible apply kept_ite

theorem kept_alertRow {s : State} (hs : Kept q p s) (t : Nat) (l : Loc) (src : Src) :
    Kept q p (alertRow s t l src) := by
  unfold alertRow
  repeat' first
    | with_reducible assumption
    | intro _
    | extract_lets
    | with_reducible apply kept_putBank
    | with_reducible apply kept_wr
    | with_reducible apply kept_count
    | with_reducible apply kept_throttle
    | with_reducible apply kept_ite
    | with_reducible apply kept_foldl

theorem kept_hammerAct {s : State} (hs : Kept q p s) (t : Nat) (l : Loc) (src : Src) :
    Kept q p (hammerAct s t l src) := by
  unfold hammerAct
  repeat' first
    | with_reducible assumption
    | intro _
    | extract_lets
    | with_reducible apply kept_putBank
    | with_reducible apply kept_modTum
    | with_reducible apply kept_throttle
    | with_reducible apply kept_alertRow
    | with_reducible apply kept_ite

theorem kept_issueAct {s : State} (hs : Kept q p s) (t : Nat) (l : Loc) (src : Src) (id : Option Nat) :
    Kept q p (issueAct s t l src id) := by
  unfold issueAct
  repeat' first
    | with_reducible assumption
    | intro _
    | extract_lets
    | with_reducible apply kept_setDram
    | with_reducible apply kept_putBank
    | with_reducible apply kept_putSlice
    | with_reducible apply kept_hammerAct
    | with_reducible apply kept_count
    | with_reducible apply kept_with

theorem kept_autoPre {s : State} (hs : Kept q p s) (t : Nat) (l : Loc) :
    Kept q p (autoPre s t l) := by
  unfold autoPre
  repeat' first
    | with_reducible assumption
    | intro _
    | extract_lets
    | with_reducible apply kept_putBank

theorem kept_issueCol {s : State} (hs : Kept q p s) (t : Nat) (l : Loc) (w : Bool) (id : Nat) :
    Kept q p (issueCol s t l w id) := by
  unfold issueCol
  repeat' first
    | with_reducible assumption
    | intro _
    | extract_lets
    | with_reducible apply kept_count
    | with_reducible apply kept_putBank
    | with_reducible apply kept_putSlice
    | with_reducible apply kept_setDram
    | with_reducible apply kept_ite

theorem kept_issueRef {s : State} (hs : Kept q p s) (t : Nat) (l : Nat) (k : Nat) :
    Kept q p (issueRef s t l k) := by
  unfold issueRef
  repeat' first
    | with_reducible assumption
    | intro _
    | extract_lets
    | with_reducible apply kept_refreshRows
    | with_reducible apply kept_putBank
    | with_reducible apply kept_putSet
    | with_reducible apply kept_count
    | with_reducible apply kept_setDram
    | with_reducible apply kept_foldl
    | with_reducible apply kept_foldl_fst
    | with_reducible apply kept_foldl_snd
    | with_reducible apply kept_with

theorem kept_issueNrr {s : State} (hs : Kept q p s) (t : Nat) (n : Nat) :
    Kept q p (issueNrr s t n) := by
  unfold issueNrr
  repeat' first
    | with_reducible assumption
    | intro _
    | extract_lets
    | with_reducible apply kept_putBank
    | with_reducible apply kept_putSlice
    | with_reducible apply kept_setDram
    | with_reducible apply kept_modTum
    | with_reducible apply kept_count
    | split
    | with_reducible apply kept_with

theorem kept_preNext {s : State} (hs : Kept q p s) (t : Nat) (n : Nat) :
    Kept q p (preNext s t n) := by
  unfold preNext
  repeat' first
    | with_reducible assumption
    | intro _
    | with_reducible apply kept_advance
    | with_reducible apply kept_issuePre
    | with_reducible apply kept_goTo

theorem kept_nrrNext {s : State} (hs : Kept q p s) (t : Nat) (n : Nat) :
    Kept q p (nrrNext s t n) := by
  unfold nrrNext
  repeat' first
    | with_reducible assumption
    | intro _
    | extract_lets
    | with_reducible apply kept_preNext
    | with_reducible apply kept_advance
    | with_reducible apply kept_issueNrr
    | with_reducible apply kept_goTo
    | with_reducible apply kept_ite

theorem kept_refNext {s : State} (hs : Kept q p s) (t : Nat) (l : Nat) (k : Nat) :
    Kept q p (refNext s t l k) := by
  unfold refNext
  repeat' first
    | with_reducible assumption
    | intro _
    | extract_lets
    | with_reducible apply kept_preNext
    | with_reducible apply kept_advance
    | with_reducible apply kept_issueRef
    | with_reducible apply kept_goTo
    | with_reducible apply kept_ite
    | with_reducible apply kept_foldl

theorem kept_settleBanks {s : State} (hs : Kept q p s) (t : Nat) :
    Kept q p (settleBanks s t) := by
  unfold settleBanks
  repeat' first
    | with_reducible assumption
    | intro _
    | extract_lets
    | with_reducible apply kept_nrrNext
    | with_reducible apply kept_preNext
    | with_reducible apply kept_foldl

end Sys2Proof.Machine
end

