-- ==== Sys2Proof/Laws/KeptSlots.lean ====
section
/-! SUPPORT. What the operations of Machine/Slots.lean keep (Laws/Kept.lean). -/

namespace Sys2Proof.Machine

open Sys2Proof

variable {q : List Instr} {p : Part}

theorem kept_checkExcess {s : State} (hs : Kept q p s) (t : Nat) :
    Kept q p (checkExcess s t) := by
  unfold checkExcess
  repeat' first
    | with_reducible assumption
    | intro _
    | with_reducible apply kept_pauseOn
    | with_reducible apply kept_count
    | with_reducible apply kept_setMode
    | with_reducible apply kept_ite

theorem kept_endExcess {s : State} (hs : Kept q p s) (t : Nat) :
    Kept q p (endExcess s t) := by
  unfold endExcess
  repeat' first
    | with_reducible assumption
    | intro _
    | with_reducible apply kept_pauseOff
    | with_reducible apply kept_setMode
    | with_reducible apply kept_ite

theorem kept_stepSet {s u : State} (hs : Kept q p s) (t : Nat) (e : Nat × Nat) (h : stepSet s t e = some u) :
    Kept q p u := by
  unfold stepSet at h
  split at h
  · cases h
    exact kept_issueRef hs _ _ _
  · obtain ⟨n, -, rfl⟩ := Option.map_eq_some_iff.1 h
    exact kept_issuePre hs _ _

theorem kept_limitStep {s u : State} (hs : Kept q p s) (t : Nat) (h : (limitSet s t).bind (stepSet s t) = some u) :
    Kept q p u := by
  obtain ⟨e, -, he⟩ := Option.bind_eq_some_iff.1 h
  exact kept_stepSet hs _ _ he

theorem kept_refreshStep {s : State} (hs : Kept q p s) (t : Nat) : Kept q p (refreshStep s t).1 := by
  unfold refreshStep
  extract_lets ex
  split
  · split
    · rename_i u h
      obtain ⟨e, -, he⟩ := List.exists_of_findSome?_eq_some h
      exact kept_stepSet hs _ _ he
    · cases h : (limitSet s t).bind (stepSet s t) with
      | none => exact hs
      | some u => exact kept_limitStep hs _ h
  · split
    · rename_i u h
      exact kept_limitStep hs _ h
    · split
      · exact kept_issueNrr hs _ _
      · exact hs

theorem kept_idleRef {s : State} (hs : Kept q p s) (t : Nat) :
    Kept q p (idleRef s t) := by
  unfold idleRef
  repeat' first
    | with_reducible assumption
    | intro _
    | extract_lets
    | with_reducible apply kept_issueRef
    | with_reducible apply kept_ite
    | with_reducible apply kept_foldl
    | with_reducible apply kept_foldl_fst
    | with_reducible apply kept_foldl_snd
    | split

theorem kept_afterCol {s : State} (hs : Kept q p s) (t : Nat) (a : Access) (l : Loc) :
    Kept q p (afterCol s t a l) := by
  unfold afterCol
  repeat' first
    | with_reducible assumption
    | intro _
    | extract_lets
    | with_reducible apply kept_autoPre
    | with_reducible apply kept_putBank
    | with_reducible apply kept_ite

theorem kept_doRd {s : State} (hs : Kept q p s) (a : Access) (x : Nat) (l : Loc) :
    Kept q p (doRd s a x l) := by
  unfold doRd
  repeat' first
    | with_reducible assumption
    | intro _
    | extract_lets
    | with_reducible apply kept_charge
    | with_reducible apply kept_issueCol
    | with_reducible apply kept_setQ
    | with_reducible apply kept_settle
    | with_reducible apply kept_afterCol
    | with_reducible apply kept_ite

theorem kept_storeSlot {s : State} (hs : Kept q p s) (t : Nat) (k : Slot) (l : Loc) :
    Kept q p (storeSlot s t k l) := by
  unfold storeSlot
  repeat' first
    | with_reducible assumption
    | intro _
    | extract_lets
    | with_reducible apply kept_putWord
    | with_reducible apply kept_ite
    | with_reducible apply kept_foldUpTo

theorem kept_slotWritten {s : State} (hs : Kept q p s) (t : Nat) (k : Slot) :
    Kept q p (slotWritten s t k) := by
  unfold slotWritten
  repeat' first
    | with_reducible assumption
    | intro _
    | extract_lets
    | with_reducible apply kept_setQ

theorem kept_doWr {s : State} (hs : Kept q p s) (a : Access) (k : Slot) (l : Loc) :
    Kept q p (doWr s a k l) := by
  unfold doWr
  repeat' first
    | with_reducible assumption
    | intro _
    | extract_lets
    | with_reducible apply kept_storeSlot
    | with_reducible apply kept_charge
    | with_reducible apply kept_issueCol
    | with_reducible apply kept_afterCol
    | with_reducible apply kept_setQ
    | with_reducible apply kept_settle
    | with_reducible apply kept_slotWritten
    | with_reducible apply kept_ite

theorem kept_doAct {s : State} (hs : Kept q p s) (a : Access) (l : Loc) :
    Kept q p (doAct s a l) := by
  unfold doAct
  repeat' first
    | with_reducible assumption
    | intro _
    | extract_lets
    | with_reducible apply kept_issueAct
    | with_reducible apply kept_setQ
    | with_reducible apply kept_charge

theorem kept_issueNeed {s : State} (hs : Kept q p s) (e : Access × Need × Nat × Loc) :
    Kept q p (issueNeed s e) := by
  unfold issueNeed
  repeat' first
    | with_reducible assumption
    | intro _
    | extract_lets
    | with_reducible apply kept_doAct
    | with_reducible apply kept_issuePre
    | with_reducible apply kept_doRd
    | with_reducible apply kept_wr
    | with_reducible apply kept_doWr
    | split

theorem kept_setPhase {s : State} (hs : Kept q p s) (t : Nat) :
    Kept q p (setPhase s t) := by
  unfold setPhase
  repeat' first
    | with_reducible assumption
    | intro _
    | extract_lets
    | with_reducible apply kept_setQ

theorem kept_markThrottled {s : State} (hs : Kept q p s) (t : Nat) :
    Kept q p (markThrottled s t) := by
  unfold markThrottled
  repeat' first
    | with_reducible assumption
    | intro _
    | extract_lets
    | with_reducible apply kept_setQ
    | with_reducible apply kept_ite
    | split
    | with_reducible apply kept_with

theorem kept_fenceUnstarted {s : State} (hs : Kept q p s) (t : Nat) :
    Kept q p (fenceUnstarted s t) := by
  unfold fenceUnstarted
  repeat' first
    | with_reducible assumption
    | intro _
    | extract_lets
    | with_reducible apply kept_fresh
    | with_reducible apply kept_setQ
    | with_reducible apply kept_sendFwd
    | with_reducible apply kept_failAccess
    | with_reducible apply kept_complete
    | with_reducible apply kept_settle
    | with_reducible apply kept_ite
    | with_reducible apply kept_foldl
    | with_reducible apply kept_foldl_fst
    | with_reducible apply kept_foldl_snd
    | split

theorem kept_quiesceStep {s : State} (hs : Kept q p s) (t : Nat) :
    Kept q p (quiesceStep s t) := by
  unfold quiesceStep
  repeat' first
    | with_reducible assumption
    | intro _
    | with_reducible apply kept_issuePre
    | split

theorem kept_countAged {s : State} (hs : Kept q p s) (t : Nat) :
    Kept q p (countAged s t) := by
  unfold countAged
  repeat' first
    | with_reducible assumption
    | intro _
    | extract_lets
    | with_reducible apply kept_count
    | with_reducible apply kept_ite

theorem kept_closeStep {s u : State} (hs : Kept q p s) (t : Nat) (h : closeStep s t = some u) : Kept q p u := by
  unfold closeStep at h
  obtain ⟨n, -, rfl⟩ := Option.map_eq_some_iff.1 h
  exact kept_issuePre hs _ _

theorem kept_accessStep {s u : State} (hs : Kept q p s) (t : Nat) (h : accessStep s t = some u) : Kept q p u := by
  unfold accessStep at h
  split at h
  · cases h
  · cases h
    exact kept_issueNeed hs _

theorem kept_slotCommand {s : State} (hs : Kept q p s) (t : Nat) : Kept q p (slotCommand s t) := by
  unfold slotCommand
  extract_lets m
  split
  · exact kept_ite hs (kept_quiesceStep hs _)
  · split
    rename_i s1 used he
    have h1 := kept_fst he (kept_refreshStep hs _)
    split
    · exact kept_endExcess h1 _
    · extract_lets s2
      have h2 : Kept q p s2 := kept_setPhase h1 _
      split
      · rename_i u h
        exact kept_closeStep h2 _ h
      · split
        · rename_i u h
          exact kept_accessStep h2 _ h
        · exact kept_ite (kept_idleRef h2 _) h2

theorem kept_commandSlot {s : State} (hs : Kept q p s) (t : Nat) :
    Kept q p (commandSlot s t) := by
  unfold commandSlot
  repeat' first
    | with_reducible assumption
    | intro _
    | extract_lets
    | with_reducible apply kept_fenceUnstarted
    | with_reducible apply kept_slotCommand
    | with_reducible apply kept_countAged
    | with_reducible apply kept_markThrottled
    | with_reducible apply kept_advance
    | with_reducible apply kept_ite

theorem kept_lineReturns {s : State} (hs : Kept q p s) (t : Nat) (f : Flight) (flips : List CodeWord) :
    Kept q p (lineReturns s t f flips) := by
  unfold lineReturns
  repeat' first
    | with_reducible assumption
    | intro _
    | extract_lets
    | with_reducible apply kept_setQ
    | with_reducible apply kept_decodeRead
    | with_reducible apply kept_asmPut
    | with_reducible apply kept_corrected
    | with_reducible apply kept_settle
    | with_reducible apply kept_slotDone
    | with_reducible apply kept_count
    | with_reducible apply kept_ite

end Sys2Proof.Machine
end

