-- ==== Sys2Proof/Laws/KeptAccess.lean ====
section
/-! SUPPORT. What the operations of Machine/Access.lean keep (Laws/Kept.lean). -/

namespace Sys2Proof.Machine

open Sys2Proof

variable {q : List Instr} {p : Part}

theorem kept_atReg {s : State} (hs : Kept q p s) (off : Nat) {t : State} (ht : Kept q p t) :
    Kept q p (atReg s off t) := by
  unfold atReg
  repeat' first
    | with_reducible assumption
    | intro _
    | with_reducible apply kept_when

theorem kept_putReg {s : State} (hs : Kept q p s) (off : Nat) (v : Reg32) (rej : Nat) :
    Kept q p (putReg s off v rej) := by
  unfold putReg
  repeat' first
    | with_reducible assumption
    | intro _
    | extract_lets
    | with_reducible apply kept_wrReg
    | with_reducible apply kept_paramFault
    | with_reducible apply kept_ite

end Sys2Proof.Machine
end

