-- ==== Sys2Proof/Laws/KeptTumRows.lean ====
section
/-! SUPPORT. What the operations of Machine/TumRows.lean keep (Laws/Kept.lean). -/

namespace Sys2Proof.Machine

open Sys2Proof

variable {q : List Instr} {p : Part}

theorem kept_execCommandSlot (t : Tum) {s : State} (hs : Kept q p s) :
    KeptOut q p (execCommandSlot t s) := by
  unfold execCommandSlot
  repeat' first
    | with_reducible assumption
    | intro _
    | with_reducible apply keptOut_next
    | exact keptOut_fault _
    | with_reducible apply kept_when
    | with_reducible apply kept_commandSlot

theorem kept_execThrottleEnd (t : Tum) {s : State} (hs : Kept q p s) :
    KeptOut q p (execThrottleEnd t s) := by
  unfold execThrottleEnd
  repeat' first
    | with_reducible assumption
    | intro _
    | with_reducible apply keptOut_next
    | exact keptOut_fault _
    | with_reducible apply kept_modTum

theorem kept_setDue {s : State} (hs : Kept q p s) (t : Tum) (l : Nat) (k : Nat) :
    Kept q p (setDue s t l k) := by
  unfold setDue
  repeat' first
    | with_reducible assumption
    | intro _
    | extract_lets
    | with_reducible apply kept_putSet
    | with_reducible apply kept_fault
    | with_reducible apply kept_ite

theorem kept_execRefreshDue (t : Tum) (l : LeafN) (k : Fin 4) {s : State} (hs : Kept q p s) :
    KeptOut q p (execRefreshDue t l k s) := by
  unfold execRefreshDue
  repeat' first
    | with_reducible assumption
    | intro _
    | with_reducible apply keptOut_next
    | exact keptOut_fault _
    | with_reducible apply keptOut_ite
    | with_reducible apply kept_fault
    | with_reducible apply kept_when
    | with_reducible apply kept_setDue

theorem kept_execRefreshWake (t : Tum) {s : State} (hs : Kept q p s) :
    KeptOut q p (execRefreshWake t s) := by
  unfold execRefreshWake
  repeat' first
    | with_reducible assumption
    | intro _
    | with_reducible apply keptOut_next
    | exact keptOut_fault _
    | with_reducible apply kept_when
    | with_reducible apply kept_setMode

theorem kept_closeBank {s : State} (hs : Kept q p s) (t : Nat) (n : Nat) :
    Kept q p (closeBank s t n) := by
  unfold closeBank
  repeat' first
    | with_reducible assumption
    | intro _
    | with_reducible apply kept_putBank

theorem kept_execTrasmaxExpiry (t : Tum) (l : LeafN) (g : Fin 8) (b : Fin 4) {s : State} (hs : Kept q p s) :
    KeptOut q p (execTrasmaxExpiry t l g b s) := by
  unfold execTrasmaxExpiry
  repeat' first
    | with_reducible assumption
    | intro _
    | with_reducible apply keptOut_next
    | exact keptOut_fault _
    | with_reducible apply keptOut_ite
    | with_reducible apply kept_fault
    | with_reducible apply kept_when
    | with_reducible apply kept_closeBank

theorem kept_execIdleClose (t : Tum) (l : LeafN) (g : Fin 8) (b : Fin 4) {s : State} (hs : Kept q p s) :
    KeptOut q p (execIdleClose t l g b s) := by
  unfold execIdleClose
  repeat' first
    | with_reducible assumption
    | intro _
    | with_reducible apply keptOut_next
    | exact keptOut_fault _
    | with_reducible apply keptOut_ite
    | with_reducible apply kept_fault
    | with_reducible apply kept_when
    | with_reducible apply kept_closeBank

theorem kept_execCodeWordDecode (t : Tum) (flips : List CodeWord) {s : State} (hs : Kept q p s) :
    KeptOut q p (execCodeWordDecode t flips s) := by
  unfold execCodeWordDecode
  repeat' first
    | with_reducible assumption
    | intro _
    | with_reducible apply keptOut_next
    | exact keptOut_fault _
    | with_reducible apply kept_lineReturns
    | split

theorem kept_execCwcWindowExpiry (t : Tum) {s : State} (hs : Kept q p s) :
    KeptOut q p (execCwcWindowExpiry t s) := by
  unfold execCwcWindowExpiry
  repeat' first
    | with_reducible assumption
    | intro _
    | with_reducible apply keptOut_next
    | exact keptOut_fault _
    | with_reducible apply kept_modTum

theorem kept_execLightEntry (t : Tum) {s : State} (hs : Kept q p s) :
    KeptOut q p (execLightEntry t s) := by
  unfold execLightEntry
  repeat' first
    | with_reducible assumption
    | intro _
    | with_reducible apply keptOut_next
    | exact keptOut_fault _
    | with_reducible apply kept_when
    | with_reducible apply kept_count
    | with_reducible apply kept_setMode

theorem kept_wakeDone {s : State} (hs : Kept q p s) (t : Nat) :
    Kept q p (wakeDone s t) := by
  unfold wakeDone
  repeat' first
    | with_reducible assumption
    | intro _
    | extract_lets
    | with_reducible apply kept_excludeQueued
    | with_reducible apply kept_leaveSelf
    | with_reducible apply kept_setMode
    | with_reducible apply kept_ite

theorem kept_execWakeComplete (t : Tum) {s : State} (hs : Kept q p s) :
    KeptOut q p (execWakeComplete t s) := by
  unfold execWakeComplete
  repeat' first
    | with_reducible assumption
    | intro _
    | with_reducible apply keptOut_next
    | exact keptOut_fault _
    | with_reducible apply kept_when
    | with_reducible apply kept_idle
    | with_reducible apply kept_wakeDone

theorem kept_selfEntry {s : State} (hs : Kept q p s) (t : Nat) :
    Kept q p (selfEntry s t) := by
  unfold selfEntry
  repeat' first
    | with_reducible assumption
    | intro _
    | with_reducible apply kept_enterSelf
    | with_reducible apply kept_settleBanks

theorem kept_execQuietEntry (t : Tum) {s : State} (hs : Kept q p s) :
    KeptOut q p (execQuietEntry t s) := by
  unfold execQuietEntry
  repeat' first
    | with_reducible assumption
    | intro _
    | with_reducible apply keptOut_next
    | exact keptOut_fault _
    | with_reducible apply kept_when
    | with_reducible apply kept_setMode
    | with_reducible apply kept_selfEntry

theorem kept_execSelfRefreshEntry (t : Tum) {s : State} (hs : Kept q p s) :
    KeptOut q p (execSelfRefreshEntry t s) := by
  unfold execSelfRefreshEntry
  repeat' first
    | with_reducible assumption
    | intro _
    | with_reducible apply keptOut_next
    | exact keptOut_fault _
    | with_reducible apply kept_when
    | with_reducible apply kept_pauseHotOn
    | with_reducible apply kept_selfEntry

theorem kept_selfExit {s : State} (hs : Kept q p s) (t : Nat) :
    Kept q p (selfExit s t) := by
  unfold selfExit
  repeat' first
    | with_reducible assumption
    | intro _
    | extract_lets
    | with_reducible apply kept_leaveSelf
    | with_reducible apply kept_pauseOff
    | with_reducible apply kept_excludeQueued
    | with_reducible apply kept_setMode
    | with_reducible apply kept_ite

theorem kept_execSelfRefreshExit (t : Tum) {s : State} (hs : Kept q p s) :
    KeptOut q p (execSelfRefreshExit t s) := by
  unfold execSelfRefreshExit
  repeat' first
    | with_reducible assumption
    | intro _
    | with_reducible apply keptOut_next
    | exact keptOut_fault _
    | with_reducible apply kept_when
    | with_reducible apply kept_selfExit

theorem kept_gateOff {s : State} (hs : Kept q p s) (t : Nat) :
    Kept q p (gateOff s t) := by
  unfold gateOff
  repeat' first
    | with_reducible assumption
    | intro _
    | with_reducible apply kept_setMode
    | with_reducible apply kept_ite

theorem kept_wrPwrCfg {s : State} (hs : Kept q p s) (t : Tum) (v : Reg32) :
    Kept q p (wrPwrCfg s t v) := by
  unfold wrPwrCfg
  repeat' first
    | with_reducible assumption
    | intro _
    | with_reducible apply kept_gateOff
    | with_reducible apply kept_putReg

theorem kept_execPwrCfgWrite (t : Tum) (v : Reg32) {s : State} (hs : Kept q p s) :
    KeptOut q p (execPwrCfgWrite t v s) := by
  unfold execPwrCfgWrite
  repeat' first
    | with_reducible assumption
    | intro _
    | with_reducible apply keptOut_next
    | exact keptOut_fault _
    | with_reducible apply kept_atReg
    | with_reducible apply kept_wrPwrCfg

theorem kept_sendGuard {s : State} (hs : Kept q p s) (t : Nat) :
    Kept q p (sendGuard s t) := by
  unfold sendGuard
  repeat' first
    | with_reducible assumption
    | intro _
    | extract_lets
    | with_reducible apply kept_foldUpTo
    | with_reducible apply kept_foldUpTo_fst
    | with_reducible apply kept_foldUpTo_snd
    | with_reducible apply kept_with

theorem kept_wrRefCfg {s : State} (hs : Kept q p s) (t : Tum) (v : Reg32) :
    Kept q p (wrRefCfg s t v) := by
  unfold wrRefCfg
  repeat' first
    | with_reducible assumption
    | intro _
    | extract_lets
    | with_reducible apply kept_putReg
    | with_reducible apply kept_sendGuard
    | with_reducible apply kept_endExcess
    | with_reducible apply kept_checkExcess
    | with_reducible apply kept_ite

theorem kept_execRefCfgWrite (t : Tum) (v : Reg32) {s : State} (hs : Kept q p s) :
    KeptOut q p (execRefCfgWrite t v s) := by
  unfold execRefCfgWrite
  repeat' first
    | with_reducible assumption
    | intro _
    | with_reducible apply keptOut_next
    | exact keptOut_fault _
    | with_reducible apply kept_atReg
    | with_reducible apply kept_wrRefCfg

end Sys2Proof.Machine
end

