-- ==== Sys2Proof/Laws/KeptBusRate.lean ====
section
/-! SUPPORT. What the operations of Machine/BusRate.lean keep (Laws/Kept.lean). -/

namespace Sys2Proof.Machine

open Sys2Proof

variable {q : List Instr} {p : Part}

theorem kept_loadSet {s : State} (hs : Kept q p s) (t : Nat) (r : Nat) :
    Kept q p (loadSet s t r) := by
  unfold loadSet
  repeat' first
    | with_reducible assumption
    | intro _
    | extract_lets
    | with_reducible apply kept_modTum

theorem kept_beginRate {s : State} (hs : Kept q p s) (t : Nat) :
    Kept q p (beginRate s t) := by
  unfold beginRate
  repeat' first
    | with_reducible assumption
    | intro _
    | extract_lets
    | with_reducible apply kept_setMode
    | with_reducible apply kept_pauseOn
    | with_reducible apply kept_ite

theorem kept_cancelRate {s : State} (hs : Kept q p s) (t : Nat) :
    Kept q p (cancelRate s t) := by
  unfold cancelRate
  repeat' first
    | with_reducible assumption
    | intro _
    | with_reducible apply kept_pauseOff
    | with_reducible apply kept_setMode
    | with_reducible apply kept_idle
    | with_reducible apply kept_ite

theorem kept_wrRate {s : State} (hs : Kept q p s) (t : Tum) (v : Reg32) :
    Kept q p (wrRate s t v) := by
  unfold wrRate
  repeat' first
    | with_reducible assumption
    | intro _
    | extract_lets
    | with_reducible apply kept_wrReg
    | with_reducible apply kept_paramFault
    | with_reducible apply kept_cancelRate
    | with_reducible apply kept_setF
    | with_reducible apply kept_idle
    | with_reducible apply kept_beginRate
    | with_reducible apply kept_ite

theorem kept_execRateReqWrite (t : Tum) (v : Reg32) {s : State} (hs : Kept q p s) :
    KeptOut q p (execRateReqWrite t v s) := by
  unfold execRateReqWrite
  repeat' first
    | with_reducible assumption
    | intro _
    | with_reducible apply keptOut_next
    | exact keptOut_fault _
    | with_reducible apply kept_atReg
    | with_reducible apply kept_wrRate

theorem kept_beginRelock {s : State} (hs : Kept q p s) (t : Nat) :
    Kept q p (beginRelock s t) := by
  unfold beginRelock
  repeat' first
    | with_reducible assumption
    | intro _
    | extract_lets
    | with_reducible apply kept_selfEntry
    | with_reducible apply kept_setMode
    | with_reducible apply kept_ite

theorem kept_execRateQuiesced (t : Tum) {s : State} (hs : Kept q p s) :
    KeptOut q p (execRateQuiesced t s) := by
  unfold execRateQuiesced
  repeat' first
    | with_reducible assumption
    | intro _
    | with_reducible apply keptOut_next
    | exact keptOut_fault _
    | with_reducible apply kept_when
    | with_reducible apply kept_beginRelock

theorem kept_relockExit {s : State} (hs : Kept q p s) (t : Nat) :
    Kept q p (relockExit s t) := by
  unfold relockExit
  repeat' first
    | with_reducible assumption
    | intro _
    | extract_lets
    | with_reducible apply kept_leaveSelf
    | with_reducible apply kept_ite

theorem kept_relockDone {s : State} (hs : Kept q p s) (t : Nat) :
    Kept q p (relockDone s t) := by
  unfold relockDone
  repeat' first
    | with_reducible assumption
    | intro _
    | extract_lets
    | with_reducible apply kept_setF
    | with_reducible apply kept_count
    | with_reducible apply kept_loadSet
    | with_reducible apply kept_relockExit
    | with_reducible apply kept_setMode
    | with_reducible apply kept_idle
    | with_reducible apply kept_modTum
    | with_reducible apply kept_pauseOff
    | with_reducible apply kept_ite
    | split

theorem kept_execRateRelockDone (t : Tum) {s : State} (hs : Kept q p s) :
    KeptOut q p (execRateRelockDone t s) := by
  unfold execRateRelockDone
  repeat' first
    | with_reducible assumption
    | intro _
    | with_reducible apply keptOut_next
    | exact keptOut_fault _
    | with_reducible apply kept_when
    | with_reducible apply kept_relockDone

theorem kept_startSweep {s : State} (hs : Kept q p s) (t : Nat) :
    Kept q p (startSweep s t) := by
  unfold startSweep
  repeat' first
    | with_reducible assumption
    | intro _
    | extract_lets
    | with_reducible apply kept_setF
    | with_reducible apply kept_count
    | with_reducible apply kept_modTum
    | with_reducible apply kept_pauseOn
    | with_reducible apply kept_setMode
    | with_reducible apply kept_ite

theorem kept_wrTrnCtrl {s : State} (hs : Kept q p s) (t : Tum) (v : Reg32) :
    Kept q p (wrTrnCtrl s t v) := by
  unfold wrTrnCtrl
  repeat' first
    | with_reducible assumption
    | intro _
    | extract_lets
    | with_reducible apply kept_putReg
    | with_reducible apply kept_startSweep
    | with_reducible apply kept_paramFault
    | with_reducible apply kept_modTum
    | with_reducible apply kept_ite

theorem kept_execTrnStart (t : Tum) (v : Reg32) {s : State} (hs : Kept q p s) :
    KeptOut q p (execTrnStart t v s) := by
  unfold execTrnStart
  repeat' first
    | with_reducible assumption
    | intro _
    | with_reducible apply keptOut_next
    | exact keptOut_fault _
    | with_reducible apply kept_atReg
    | with_reducible apply kept_wrTrnCtrl

theorem kept_execTrnAbort (t : Tum) (v : Reg32) {s : State} (hs : Kept q p s) :
    KeptOut q p (execTrnAbort t v s) := by
  unfold execTrnAbort
  repeat' first
    | with_reducible assumption
    | intro _
    | with_reducible apply keptOut_next
    | exact keptOut_fault _
    | with_reducible apply kept_atReg
    | with_reducible apply kept_wrTrnCtrl

theorem kept_endSweep {s : State} (hs : Kept q p s) (t : Nat) (x : Training) :
    Kept q p (endSweep s t x) := by
  unfold endSweep
  repeat' first
    | with_reducible assumption
    | intro _
    | extract_lets
    | with_reducible apply kept_setF
    | with_reducible apply kept_modTum
    | with_reducible apply kept_pauseOff
    | with_reducible apply kept_setMode
    | with_reducible apply kept_idle
    | with_reducible apply kept_beginRate
    | with_reducible apply kept_ite

theorem kept_payDue (t n : Nat) {s : State} (hs : Kept q p s) : Kept q p (payDue t n s) := by
  induction n generalizing s with
  | zero => exact hs
  | succ n ih =>
    unfold payDue
    split
    · exact ih (kept_refNext hs _ _ _)
    · exact hs

theorem kept_boundaryRefresh {s : State} (hs : Kept q p s) (t : Nat) : Kept q p (boundaryRefresh s t) :=
  kept_ite hs (kept_endExcess (kept_payDue _ _ hs) _)

theorem kept_stepEnd {s : State} (hs : Kept q p s) (t : Nat) (x : Training) (pass : BitVec 336) :
    Kept q p (stepEnd s t x pass) := by
  unfold stepEnd
  repeat' first
    | with_reducible assumption
    | intro _
    | extract_lets
    | with_reducible apply kept_count
    | with_reducible apply kept_setF
    | with_reducible apply kept_endSweep
    | with_reducible apply kept_beginRelock
    | with_reducible apply kept_modTum
    | with_reducible apply kept_wr
    | with_reducible apply kept_boundaryRefresh
    | with_reducible apply kept_ite
    | with_reducible apply kept_foldl

theorem kept_execTrnStepBoundary (t : Tum) (pass : BitVec 336) {s : State} (hs : Kept q p s) :
    KeptOut q p (execTrnStepBoundary t pass s) := by
  unfold execTrnStepBoundary
  repeat' first
    | with_reducible assumption
    | intro _
    | with_reducible apply keptOut_next
    | exact keptOut_fault _
    | with_reducible apply kept_when
    | with_reducible apply kept_idle
    | with_reducible apply kept_stepEnd
    | with_reducible apply kept_when
    | split

end Sys2Proof.Machine
end

