-- ==== Sys2Proof/Laws/KeptLinkCore.lean ====
section
/-! SUPPORT. What the operations of Machine/LinkCore.lean keep (Laws/Kept.lean). -/

namespace Sys2Proof.Machine

open Sys2Proof

variable {q : List Instr} {p : Part}

theorem kept_clearExclusions {s : State} (hs : Kept q p s) (p0 : Nat) :
    Kept q p (clearExclusions s p0) := by
  unfold clearExclusions
  repeat' first
    | with_reducible assumption
    | intro _
    | with_reducible apply kept_setF
    | with_reducible apply kept_foldUpTo

theorem kept_takeMinWidth {s : State} (hs : Kept q p s) (p0 : Nat) :
    Kept q p (takeMinWidth s p0) := by
  unfold takeMinWidth
  repeat' first
    | with_reducible assumption
    | intro _
    | with_reducible apply kept_setPhy

theorem kept_setLocks {s : State} (hs : Kept q p s) (p0 : Nat) (m : Nat) :
    Kept q p (setLocks s p0 m) := by
  unfold setLocks
  repeat' first
    | with_reducible assumption
    | intro _
    | with_reducible apply kept_setF
    | with_reducible apply kept_foldUpTo

theorem kept_setHealthy {s : State} (hs : Kept q p s) (p0 : Nat) (m : Nat) :
    Kept q p (setHealthy s p0 m) := by
  unfold setHealthy
  repeat' first
    | with_reducible assumption
    | intro _
    | with_reducible apply kept_setF
    | with_reducible apply kept_foldUpTo

theorem kept_leaveLink {s : State} (hs : Kept q p s) (p0 : Nat) :
    Kept q p (leaveLink s p0) := by
  unfold leaveLink
  repeat' first
    | with_reducible assumption
    | intro _
    | with_reducible apply kept_setPhy
    | with_reducible apply kept_dropInjection
    | with_reducible apply kept_endEye

theorem kept_startKeys {s : State} (hs : Kept q p s) (p0 : Nat) :
    Kept q p (startKeys s p0) := by
  unfold startKeys
  repeat' first
    | with_reducible assumption
    | intro _
    | with_reducible apply kept_modPort

theorem kept_toDetect {s : State} (hs : Kept q p s) (p0 : Nat) :
    Kept q p (toDetect s p0) := by
  unfold toDetect
  repeat' first
    | with_reducible assumption
    | intro _
    | extract_lets
    | with_reducible apply kept_leaveLink
    | with_reducible apply kept_wr
    | with_reducible apply kept_setF
    | with_reducible apply kept_startKeys
    | with_reducible apply kept_modPort
    | with_reducible apply kept_foldUpTo

theorem kept_fromOff {s : State} (hs : Kept q p s) (p0 : Nat) :
    Kept q p (fromOff s p0) := by
  unfold fromOff
  repeat' first
    | with_reducible assumption
    | intro _
    | with_reducible apply kept_toDetect
    | with_reducible apply kept_ite

theorem kept_at16 {s : State} (hs : Kept q p s) (p0 : Nat) :
    Kept q p (at16 s p0) := by
  unfold at16
  repeat' first
    | with_reducible assumption
    | intro _
    | with_reducible apply kept_setF

theorem kept_toKs1 {s : State} (hs : Kept q p s) (p0 : Nat) :
    Kept q p (toKs1 s p0) := by
  unfold toKs1
  repeat' first
    | with_reducible assumption
    | intro _
    | extract_lets
    | with_reducible apply kept_at16
    | with_reducible apply kept_startKeys
    | with_reducible apply kept_leaveLink
    | with_reducible apply kept_modPort

theorem kept_trainGivesUp {s : State} (hs : Kept q p s) (p0 : PortN) :
    Kept q p (trainGivesUp s p0) := by
  unfold trainGivesUp
  repeat' first
    | with_reducible assumption
    | intro _
    | extract_lets
    | with_reducible apply kept_toDetect
    | with_reducible apply kept_setF
    | with_reducible apply kept_fault

theorem kept_trainFails {s : State} (hs : Kept q p s) (p0 : PortN) :
    Kept q p (trainFails s p0) := by
  unfold trainFails
  repeat' first
    | with_reducible assumption
    | intro _
    | extract_lets
    | with_reducible apply kept_toKs1
    | with_reducible apply kept_setPhy
    | with_reducible apply kept_trainGivesUp
    | with_reducible apply kept_ite

theorem kept_portDown {s : State} (hs : Kept q p s) (p0 : PortN) :
    Kept q p (portDown s p0) := by
  unfold portDown
  repeat' first
    | with_reducible assumption
    | intro _
    | extract_lets
    | with_reducible apply kept_fault
    | with_reducible apply kept_leaveLink
    | with_reducible apply kept_portLatch
    | with_reducible apply kept_ite

theorem kept_toRetrain {s : State} (hs : Kept q p s) (p0 : Nat) :
    Kept q p (toRetrain s p0) := by
  unfold toRetrain
  repeat' first
    | with_reducible assumption
    | intro _
    | extract_lets
    | with_reducible apply kept_takeMinWidth
    | with_reducible apply kept_startKeys
    | with_reducible apply kept_leaveLink
    | with_reducible apply kept_count
    | with_reducible apply kept_modPort

theorem kept_markLost {s : State} (hs : Kept q p s) (p0 : Nat) (l : Nat) :
    Kept q p (markLost s p0 l) := by
  unfold markLost
  repeat' first
    | with_reducible assumption
    | intro _
    | extract_lets
    | with_reducible apply kept_setF

theorem kept_loseLanes {s : State} (hs : Kept q p s) (p0 : PortN) (l : List Nat) :
    Kept q p (loseLanes s p0 l) := by
  unfold loseLanes
  repeat' first
    | with_reducible assumption
    | intro _
    | extract_lets
    | with_reducible apply kept_markLost
    | with_reducible apply kept_fault
    | with_reducible apply kept_count
    | with_reducible apply kept_foldl

theorem kept_protocolError {s : State} (hs : Kept q p s) (p0 : Nat) :
    Kept q p (protocolError s p0) := by
  unfold protocolError
  repeat' first
    | with_reducible assumption
    | intro _
    | with_reducible apply kept_count
    | with_reducible apply kept_setF

theorem kept_applyLimit {s : State} (hs : Kept q p s) (p0 : Nat) (k : Nat) (v : BitVec 12) :
    Kept q p (applyLimit s p0 k v) := by
  unfold applyLimit
  repeat' first
    | with_reducible assumption
    | intro _
    | extract_lets
    | with_reducible apply kept_protocolError
    | with_reducible apply kept_setPort
    | with_reducible apply kept_ite

theorem kept_applyLimits {s : State} (hs : Kept q p s) (p0 : Nat) (c0 : BitVec 12) (c1 : BitVec 12) (c2 : BitVec 12) :
    Kept q p (applyLimits s p0 c0 c1 c2) := by
  unfold applyLimits
  repeat' first
    | with_reducible assumption
    | intro _
    | with_reducible apply kept_applyLimit
    | with_reducible apply kept_ite

theorem kept_applyAck {s : State} (hs : Kept q p s) (p0 : Nat) (a : BitVec 10) :
    Kept q p (applyAck s p0 a) := by
  unfold applyAck
  repeat' first
    | with_reducible assumption
    | intro _
    | extract_lets
    | with_reducible apply kept_setPort
    | with_reducible apply kept_ite

theorem kept_resendAll {s : State} (hs : Kept q p s) (p0 : Nat) :
    Kept q p (resendAll s p0) := by
  unfold resendAll
  repeat' first
    | with_reducible assumption
    | intro _
    | with_reducible apply kept_modPort

theorem kept_replayHeld {s : State} (hs : Kept q p s) (p0 : PortN) :
    Kept q p (replayHeld s p0) := by
  unfold replayHeld
  repeat' first
    | with_reducible assumption
    | intro _
    | extract_lets
    | with_reducible apply kept_fault
    | with_reducible apply kept_setF
    | with_reducible apply kept_toRetrain
    | with_reducible apply kept_resendAll
    | with_reducible apply kept_ite

theorem kept_dropIdle {s : State} (hs : Kept q p s) (p0 : Nat) :
    Kept q p (dropIdle s p0) := by
  unfold dropIdle
  repeat' first
    | with_reducible assumption
    | intro _
    | with_reducible apply kept_dropInjection
    | with_reducible apply kept_ite

end Sys2Proof.Machine
end

