-- ==== Sys2Proof/Laws/KeptRequests.lean ====
section
/-! SUPPORT. What the operations of Machine/Requests.lean keep (Laws/Kept.lean). -/

namespace Sys2Proof.Machine

open Sys2Proof

variable {q : List Instr} {p : Part}

theorem kept_skipPacket {s : State} (hs : Kept q p s) (p0 : Nat) :
    Kept q p (skipPacket s p0) := by
  unfold skipPacket
  repeat' first
    | with_reducible assumption
    | intro _
    | with_reducible apply kept_count
    | with_reducible apply kept_setF

theorem kept_rejectReq {s : State} (hs : Kept q p s) (r : Req) (st : BitVec 4) :
    Kept q p (rejectReq s r st) := by
  unfold rejectReq
  repeat' first
    | with_reducible assumption
    | intro _
    | extract_lets
    | with_reducible apply kept_setF
    | with_reducible apply kept_leaveStore
    | with_reducible apply kept_count
    | with_reducible apply kept_corrected
    | with_reducible apply kept_pushCmp
    | with_reducible apply kept_ite

theorem kept_acceptReq {s : State} (hs : Kept q p s) (ty : Nat) (r : Req) (stamp : BitVec 64) :
    Kept q p (acceptReq s ty r stamp) := by
  unfold acceptReq
  repeat' first
    | with_reducible assumption
    | intro _
    | extract_lets
    | with_reducible apply kept_setF
    | with_reducible apply kept_wr
    | with_reducible apply kept_count
    | with_reducible apply kept_arrive
    | with_reducible apply kept_with

theorem kept_checkedReq {s : State} (hs : Kept q p s) (ty : Nat) (r : Req) (stamp : BitVec 64) :
    Kept q p (checkedReq s ty r stamp) := by
  unfold checkedReq
  extract_lets t
  have ht : Kept q p t := kept_count (kept_dropPkt hs _ _) _ _
  split
  · exact kept_leaveStore (kept_skipPacket ht _) _
  · split
    · exact kept_ite (kept_rejectReq ht _ _) hs
    · exact kept_acceptReq ht _ _ _

theorem kept_takeReq {s : State} (hs : Kept q p s) (ty : Nat) (r : Req) :
    Kept q p (takeReq s ty r) := by
  unfold takeReq
  repeat' first
    | with_reducible assumption
    | intro _
    | extract_lets
    | with_reducible apply kept_received
    | with_reducible apply kept_checkedReq
    | with_reducible apply kept_ite
    | split

theorem kept_takeRow {s : State} (hs : Kept q p s) (ty : Nat) (r : Req) :
    KeptOut q p (takeRow s ty r) := by
  unfold takeRow
  repeat' first
    | with_reducible assumption
    | intro _
    | with_reducible apply keptOut_next
    | exact keptOut_fault _
    | with_reducible apply kept_when
    | with_reducible apply kept_takeReq

theorem kept_execRead (r : Req) {s : State} (hs : Kept q p s) :
    KeptOut q p (execRead r s) := by
  unfold execRead
  repeat' first
    | with_reducible assumption
    | intro _
    | with_reducible apply keptOut_next
    | exact keptOut_fault _
    | with_reducible apply kept_takeRow

theorem kept_execWrite (r : Req) {s : State} (hs : Kept q p s) :
    KeptOut q p (execWrite r s) := by
  unfold execWrite
  repeat' first
    | with_reducible assumption
    | intro _
    | with_reducible apply keptOut_next
    | exact keptOut_fault _
    | with_reducible apply kept_takeRow

theorem kept_execAtomicAdd (r : Req) {s : State} (hs : Kept q p s) :
    KeptOut q p (execAtomicAdd r s) := by
  unfold execAtomicAdd
  repeat' first
    | with_reducible assumption
    | intro _
    | with_reducible apply keptOut_next
    | exact keptOut_fault _
    | with_reducible apply kept_takeRow

theorem kept_execAtomicSwap (r : Req) {s : State} (hs : Kept q p s) :
    KeptOut q p (execAtomicSwap r s) := by
  unfold execAtomicSwap
  repeat' first
    | with_reducible assumption
    | intro _
    | with_reducible apply keptOut_next
    | exact keptOut_fault _
    | with_reducible apply kept_takeRow

theorem kept_execAtomicCompareAndSwap (r : Req) {s : State} (hs : Kept q p s) :
    KeptOut q p (execAtomicCompareAndSwap r s) := by
  unfold execAtomicCompareAndSwap
  repeat' first
    | with_reducible assumption
    | intro _
    | with_reducible apply keptOut_next
    | exact keptOut_fault _
    | with_reducible apply kept_takeRow

theorem kept_execAtomicAndOr (r : Req) {s : State} (hs : Kept q p s) :
    KeptOut q p (execAtomicAndOr r s) := by
  unfold execAtomicAndOr
  repeat' first
    | with_reducible assumption
    | intro _
    | with_reducible apply keptOut_next
    | exact keptOut_fault _
    | with_reducible apply kept_takeRow

theorem kept_execWaitRelease (t : Tum) {s : State} (hs : Kept q p s) :
    KeptOut q p (execWaitRelease t s) := by
  unfold execWaitRelease
  repeat' first
    | with_reducible assumption
    | intro _
    | with_reducible apply keptOut_next
    | exact keptOut_fault _
    | with_reducible apply kept_release
    | split

end Sys2Proof.Machine
end

