-- ==== Sys2Proof/Laws/KeptCmdCore.lean ====
section
/-! SUPPORT. What the operations of Machine/CmdCore.lean keep (Laws/Kept.lean). -/

namespace Sys2Proof.Machine

open Sys2Proof

variable {q : List Instr} {p : Part}

theorem kept_begin {s : State} (hs : Kept q p s) (c : Cmd) :
    Kept q p (begin s c) := by
  unfold begin
  repeat' first
    | with_reducible assumption
    | intro _
    | with_reducible apply kept_with

theorem kept_runCmd {s : State} (hs : Kept q p s) (c : Cmd) (op : BitVec 16) (f : State → State)
    (hf : ∀ u, Kept q p u → Kept q p (f u)) : KeptOut q p (runCmd s c op f) :=
  keptOut_next (kept_when _ hs (hf _ hs))

theorem kept_orFail {s : State} (hs : Kept q p s) (c : Cmd) (l : List (Bool × BitVec 16)) {t : State}
    (ht : Kept q p t) : Kept q p (orFail s c l t) := by
  unfold orFail
  split
  · exact kept_answer hs _ _
  · exact ht

theorem kept_popHead {s : State} (hs : Kept q p s) (src : CmdSrc) (c : Cmd) :
    Kept q p (popHead s src c) := by
  unfold popHead
  repeat' first
    | with_reducible assumption
    | intro _
    | extract_lets
    | with_reducible apply kept_setRing
    | with_reducible apply kept_count
    | with_reducible apply kept_setF
    | with_reducible apply kept_modPort
    | split

theorem kept_takeCommand {s : State} (hs : Kept q p s) (src : CmdSrc) (c : Cmd) :
    Kept q p (takeCommand s src c) := by
  unfold takeCommand
  repeat' first
    | with_reducible assumption
    | intro _
    | extract_lets
    | with_reducible apply kept_popHead
    | with_reducible apply kept_answer
    | split
    | with_reducible apply kept_with

theorem kept_execCommandTake (src : CmdSrc) {s : State} (hs : Kept q p s) :
    KeptOut q p (execCommandTake src s) := by
  unfold execCommandTake
  repeat' first
    | with_reducible assumption
    | intro _
    | with_reducible apply keptOut_next
    | exact keptOut_fault _
    | with_reducible apply kept_when
    | with_reducible apply kept_takeCommand
    | with_reducible apply kept_when
    | split

theorem kept_cmdEnters {s : State} (hs : Kept q p s) (p0 : PortN) (c : Cmd) :
    Kept q p (cmdEnters s p0 c) := by
  unfold cmdEnters
  repeat' first
    | with_reducible assumption
    | intro _
    | extract_lets
    | with_reducible apply kept_dropPkt
    | with_reducible apply kept_count
    | with_reducible apply kept_skipPacket
    | with_reducible apply kept_modPort
    | with_reducible apply kept_ite

theorem kept_cmdArrives {s : State} (hs : Kept q p s) (p0 : PortN) (c : Cmd) :
    Kept q p (cmdArrives s p0 c) := by
  unfold cmdArrives
  repeat' first
    | with_reducible assumption
    | intro _
    | extract_lets
    | with_reducible apply kept_received
    | with_reducible apply kept_cmdEnters
    | with_reducible apply kept_ite
    | split

theorem kept_execCmd (p0 : PortN) (c : Cmd) {s : State} (hs : Kept q p s) :
    KeptOut q p (execCmd p0 c s) := by
  unfold execCmd
  repeat' first
    | with_reducible assumption
    | intro _
    | with_reducible apply keptOut_next
    | exact keptOut_fault _
    | with_reducible apply kept_when
    | with_reducible apply kept_cmdArrives

end Sys2Proof.Machine
end

