-- ==== Sys2Proof/Laws/KeptWardRows.lean ====
section
/-! SUPPORT. What the operations of Machine/WardRows.lean keep (Laws/Kept.lean). -/

namespace Sys2Proof.Machine

open Sys2Proof

variable {q : List Instr} {p : Part}

theorem kept_rotateWindow {s : State} (hs : Kept q p s) :
    Kept q p (rotateWindow s) := by
  unfold rotateWindow
  repeat' first
    | with_reducible assumption
    | intro _
    | extract_lets
    | with_reducible apply kept_modTum
    | with_reducible apply kept_foldUpTo
    | with_reducible apply kept_foldUpTo_fst
    | with_reducible apply kept_foldUpTo_snd
    | with_reducible apply kept_foldl
    | with_reducible apply kept_foldl_fst
    | with_reducible apply kept_foldl_snd
    | with_reducible apply kept_with

theorem kept_wardTick {s : State} (hs : Kept q p s) :
    Kept q p (wardTick s) := by
  unfold wardTick
  repeat' first
    | with_reducible assumption
    | intro _
    | with_reducible apply kept_rotateWindow
    | with_reducible apply kept_ite

theorem kept_wardTum {s : State} (hs : Kept q p s) (t : Nat) (mir : Nat) (cut : Bool) :
    Kept q p (wardTum s t mir cut) := by
  unfold wardTum
  repeat' first
    | with_reducible assumption
    | intro _
    | with_reducible apply kept_wr
    | with_reducible apply kept_ite

theorem kept_applyCuts {s : State} (hs : Kept q p s) :
    Kept q p (applyCuts s) := by
  unfold applyCuts
  repeat' first
    | with_reducible assumption
    | intro _
    | extract_lets
    | with_reducible apply kept_wardTum
    | with_reducible apply kept_count
    | with_reducible apply kept_ite
    | with_reducible apply kept_foldUpTo
    | with_reducible apply kept_foldUpTo_fst
    | with_reducible apply kept_foldUpTo_snd
    | with_reducible apply kept_foldl
    | with_reducible apply kept_foldl_fst
    | with_reducible apply kept_foldl_snd
    | split
    | with_reducible apply kept_with

theorem kept_classBit {s : State} (hs : Kept q p s) (base : Nat) (c : Nat) (b : Bool) :
    Kept q p (classBit s base c b) := by
  unfold classBit
  repeat' first
    | with_reducible assumption
    | intro _
    | with_reducible apply kept_setF

theorem kept_wardEvent {s : State} (hs : Kept q p s) (l : List Nat) (src : Nat) (i : Nat) :
    Kept q p (wardEvent s l src i) := by
  unfold wardEvent
  repeat' first
    | with_reducible assumption
    | intro _
    | with_reducible apply kept_setF
    | with_reducible apply kept_raise
    | with_reducible apply kept_ite

theorem kept_effMin {s : State} (hs : Kept q p s) (c : Nat) :
    Kept q p (effMin s c).2 := by
  unfold effMin
  repeat' first
    | with_reducible assumption
    | intro _
    | extract_lets
    | with_reducible apply kept_fresh
    | with_reducible apply kept_foldl
    | with_reducible apply kept_foldl_fst
    | with_reducible apply kept_foldl_snd
    | split

theorem kept_classStat {s : State} (hs : Kept q p s) (c : Nat) :
    Kept q p (classStat s c) := by
  unfold classStat
  repeat' first
    | with_reducible assumption
    | intro _
    | extract_lets
    | with_reducible apply kept_effMin
    | with_reducible apply kept_setF

theorem kept_wardReports {s : State} (hs : Kept q p s) (p0 : WardWin) :
    Kept q p (wardReports s p0) := by
  unfold wardReports
  repeat' first
    | with_reducible assumption
    | intro _
    | extract_lets
    | with_reducible apply kept_wardEvent
    | with_reducible apply kept_classBit
    | with_reducible apply kept_count
    | with_reducible apply kept_setF
    | with_reducible apply kept_classStat
    | with_reducible apply kept_foldl

theorem kept_windowStart {s : State} (hs : Kept q p s) :
    Kept q p (windowStart s) := by
  unfold windowStart
  repeat' first
    | with_reducible assumption
    | intro _
    | extract_lets
    | with_reducible apply kept_applyCuts
    | with_reducible apply kept_wardReports
    | with_reducible apply kept_with

theorem kept_execWardWindowStart {s : State} (hs : Kept q p s) :
    KeptOut q p (execWardWindowStart s) := by
  unfold execWardWindowStart
  repeat' first
    | with_reducible assumption
    | intro _
    | with_reducible apply keptOut_next
    | exact keptOut_fault _
    | with_reducible apply kept_when
    | with_reducible apply kept_windowStart

theorem kept_missClass {s : State} (hs : Kept q p s) (c : Nat) :
    Kept q p (missClass s c) := by
  unfold missClass
  repeat' first
    | with_reducible assumption
    | intro _
    | extract_lets
    | with_reducible apply kept_setF
    | with_reducible apply kept_count
    | with_reducible apply kept_classBit

theorem kept_evaluateWindow {s : State} (hs : Kept q p s) (d : WardWin) :
    Kept q p (evaluateWindow s d) := by
  unfold evaluateWindow
  repeat' first
    | with_reducible assumption
    | intro _
    | extract_lets
    | with_reducible apply kept_missClass
    | with_reducible apply kept_wardEvent
    | with_reducible apply kept_foldl

theorem kept_execWindowEvaluation {s : State} (hs : Kept q p s) :
    KeptOut q p (execWindowEvaluation s) := by
  unfold execWindowEvaluation
  repeat' first
    | with_reducible assumption
    | intro _
    | with_reducible apply keptOut_next
    | exact keptOut_fault _
    | with_reducible apply kept_when
    | with_reducible apply kept_evaluateWindow
    | with_reducible apply kept_when
    | split
    | with_reducible apply kept_with

end Sys2Proof.Machine
end

