-- ==== Sys2Proof/Laws/KeptTableCmds.lean ====
section
/-! SUPPORT. What the operations of Machine/TableCmds.lean keep (Laws/Kept.lean). -/

namespace Sys2Proof.Machine

open Sys2Proof

variable {q : List Instr} {p : Part}

theorem kept_execNop (c : Cmd) {s : State} (hs : Kept q p s) :
    KeptOut q p (execNop c s) := by
  unfold execNop
  repeat' first
    | with_reducible assumption
    | intro _
    | with_reducible apply keptOut_next
    | exact keptOut_fault _
    | with_reducible apply kept_runCmd
    | with_reducible apply kept_reply

theorem kept_startDma {s : State} (hs : Kept q p s) (c : Cmd) (write : Bool) (data : List Line) :
    Kept q p (startDma s c write data) := by
  unfold startDma
  repeat' first
    | with_reducible assumption
    | intro _
    | extract_lets
    | with_reducible apply kept_begin
    | with_reducible apply kept_ite
    | with_reducible apply kept_foldUpTo
    | with_reducible apply kept_foldUpTo_fst
    | with_reducible apply kept_foldUpTo_snd
    | split
    | with_reducible apply kept_with

theorem kept_execMemRead (c : Cmd) {s : State} (hs : Kept q p s) :
    KeptOut q p (execMemRead c s) := by
  unfold execMemRead
  repeat' first
    | with_reducible assumption
    | intro _
    | with_reducible apply keptOut_next
    | exact keptOut_fault _
    | with_reducible apply kept_runCmd
    | with_reducible apply kept_orFail
    | with_reducible apply kept_startDma

theorem kept_execMemWrite (c : Cmd) (data : List Line) {s : State} (hs : Kept q p s) :
    KeptOut q p (execMemWrite c data s) := by
  unfold execMemWrite
  repeat' first
    | with_reducible assumption
    | intro _
    | with_reducible apply keptOut_next
    | exact keptOut_fault _
    | with_reducible apply kept_runCmd
    | with_reducible apply kept_orFail
    | with_reducible apply kept_startDma

theorem kept_endSubs {s : State} (hs : Kept q p s) (i : Nat) (keep : Nat) :
    Kept q p (endSubs s i keep) := by
  unfold endSubs
  repeat' first
    | with_reducible assumption
    | intro _
    | split
    | with_reducible apply kept_with

theorem kept_initDefined {s : State} (hs : Kept q p s) (c : Cmd) :
    Kept q p (initDefined s c) := by
  unfold initDefined
  repeat' first
    | with_reducible assumption
    | intro _
    | extract_lets
    | with_reducible apply kept_orFail
    | with_reducible apply kept_answer
    | with_reducible apply kept_endSubs
    | with_reducible apply kept_wr

theorem kept_execInitDefine (c : Cmd) {s : State} (hs : Kept q p s) :
    KeptOut q p (execInitDefine c s) := by
  unfold execInitDefine
  repeat' first
    | with_reducible assumption
    | intro _
    | with_reducible apply keptOut_next
    | exact keptOut_fault _
    | with_reducible apply kept_runCmd
    | with_reducible apply kept_initDefined

theorem kept_openFlow {s : State} (hs : Kept q p s) (f : Nat) (port : Nat) (init : Nat) (key : Nat) (cls : Nat) :
    Kept q p (openFlow s f port init key cls) := by
  unfold openFlow
  repeat' first
    | with_reducible assumption
    | intro _
    | extract_lets
    | with_reducible apply kept_wr

theorem kept_flowOpened {s : State} (hs : Kept q p s) (c : Cmd) :
    Kept q p (flowOpened s c) := by
  unfold flowOpened
  repeat' first
    | with_reducible assumption
    | intro _
    | extract_lets
    | with_reducible apply kept_orFail
    | with_reducible apply kept_answer
    | with_reducible apply kept_openFlow

theorem kept_execFlowOpen (c : Cmd) {s : State} (hs : Kept q p s) :
    KeptOut q p (execFlowOpen c s) := by
  unfold execFlowOpen
  repeat' first
    | with_reducible assumption
    | intro _
    | with_reducible apply keptOut_next
    | exact keptOut_fault _
    | with_reducible apply kept_runCmd
    | with_reducible apply kept_flowOpened

theorem kept_closeFlow {s : State} (hs : Kept q p s) (f : Nat) :
    Kept q p (closeFlow s f) := by
  unfold closeFlow
  repeat' first
    | with_reducible assumption
    | intro _
    | extract_lets
    | with_reducible apply kept_answer
    | with_reducible apply kept_setF
    | with_reducible apply kept_ite
    | split
    | with_reducible apply kept_with

theorem kept_flowClosed {s : State} (hs : Kept q p s) (c : Cmd) :
    Kept q p (flowClosed s c) := by
  unfold flowClosed
  repeat' first
    | with_reducible assumption
    | intro _
    | extract_lets
    | with_reducible apply kept_answer
    | with_reducible apply kept_setF
    | with_reducible apply kept_begin
    | with_reducible apply kept_closeFlow
    | with_reducible apply kept_ite
    | split
    | with_reducible apply kept_with

theorem kept_execFlowClose (c : Cmd) {s : State} (hs : Kept q p s) :
    KeptOut q p (execFlowClose c s) := by
  unfold execFlowClose
  repeat' first
    | with_reducible assumption
    | intro _
    | with_reducible apply keptOut_next
    | exact keptOut_fault _
    | with_reducible apply kept_runCmd
    | with_reducible apply kept_flowClosed

theorem kept_execFlowCloseDone (f : BitVec 18) {s : State} (hs : Kept q p s) :
    KeptOut q p (execFlowCloseDone f s) := by
  unfold execFlowCloseDone
  repeat' first
    | with_reducible assumption
    | intro _
    | with_reducible apply keptOut_next
    | exact keptOut_fault _
    | with_reducible apply kept_when
    | with_reducible apply kept_closeFlow

theorem kept_keySettled {s : State} (hs : Kept q p s) (k : Nat) :
    Kept q p (keySettled s k) := by
  unfold keySettled
  repeat' first
    | with_reducible assumption
    | intro _
    | extract_lets
    | with_reducible apply kept_reply
    | with_reducible apply kept_ite
    | split
    | with_reducible apply kept_with

theorem kept_changeKey {s : State} (hs : Kept q p s) (c : Cmd) (k : Nat) (valid : Bool) (ext : Nat → Nat × Nat) :
    Kept q p (changeKey s c k valid ext) := by
  unfold changeKey
  repeat' first
    | with_reducible assumption
    | intro _
    | extract_lets
    | with_reducible apply kept_wr
    | with_reducible apply kept_begin
    | with_reducible apply kept_keySettled
    | with_reducible apply kept_foldUpTo
    | with_reducible apply kept_foldUpTo_fst
    | with_reducible apply kept_foldUpTo_snd
    | with_reducible apply kept_with

theorem kept_keyDefined {s : State} (hs : Kept q p s) (c : Cmd) :
    Kept q p (keyDefined s c) := by
  unfold keyDefined
  repeat' first
    | with_reducible assumption
    | intro _
    | extract_lets
    | with_reducible apply kept_orFail
    | with_reducible apply kept_changeKey

theorem kept_execKeyDefine (c : Cmd) {s : State} (hs : Kept q p s) :
    KeptOut q p (execKeyDefine c s) := by
  unfold execKeyDefine
  repeat' first
    | with_reducible assumption
    | intro _
    | with_reducible apply keptOut_next
    | exact keptOut_fault _
    | with_reducible apply kept_runCmd
    | with_reducible apply kept_keyDefined

theorem kept_execKeyRevoke (c : Cmd) {s : State} (hs : Kept q p s) :
    KeptOut q p (execKeyRevoke c s) := by
  unfold execKeyRevoke
  repeat' first
    | with_reducible assumption
    | intro _
    | with_reducible apply keptOut_next
    | exact keptOut_fault _
    | with_reducible apply kept_runCmd
    | with_reducible apply kept_changeKey

theorem kept_execKeyChangeDone (k : BitVec 12) {s : State} (hs : Kept q p s) :
    KeptOut q p (execKeyChangeDone k s) := by
  unfold execKeyChangeDone
  repeat' first
    | with_reducible assumption
    | intro _
    | with_reducible apply keptOut_next
    | exact keptOut_fault _
    | with_reducible apply kept_when
    | with_reducible apply kept_keySettled

theorem kept_execAdminSet (c : Cmd) {s : State} (hs : Kept q p s) :
    KeptOut q p (execAdminSet c s) := by
  unfold execAdminSet
  repeat' first
    | with_reducible assumption
    | intro _
    | extract_lets
    | with_reducible apply keptOut_next
    | exact keptOut_fault _
    | with_reducible apply kept_runCmd
    | with_reducible apply kept_answer
    | with_reducible apply kept_setF

theorem kept_wardChange {s : State} (hs : Kept q p s) {t : State} (ht : Kept q p t) (c : Cmd) :
    Kept q p (wardChange s t c) := by
  unfold wardChange
  repeat' first
    | with_reducible assumption
    | intro _
    | with_reducible apply kept_answer
    | with_reducible apply kept_ite

theorem kept_classDefined {s : State} (hs : Kept q p s) (c : Cmd) :
    Kept q p (classDefined s c) := by
  unfold classDefined
  repeat' first
    | with_reducible assumption
    | intro _
    | extract_lets
    | with_reducible apply kept_setF
    | with_reducible apply kept_wr
    | with_reducible apply kept_orFail
    | with_reducible apply kept_wardChange

theorem kept_execClassSet (c : Cmd) {s : State} (hs : Kept q p s) :
    KeptOut q p (execClassSet c s) := by
  unfold execClassSet
  repeat' first
    | with_reducible assumption
    | intro _
    | with_reducible apply keptOut_next
    | exact keptOut_fault _
    | with_reducible apply kept_runCmd
    | with_reducible apply kept_classDefined

theorem kept_guaranteeDefined {s : State} (hs : Kept q p s) (c : Cmd) :
    Kept q p (guaranteeDefined s c) := by
  unfold guaranteeDefined
  repeat' first
    | with_reducible assumption
    | intro _
    | extract_lets
    | with_reducible apply kept_setF
    | with_reducible apply kept_wr
    | with_reducible apply kept_orFail
    | with_reducible apply kept_wardChange
    | with_reducible apply kept_ite

theorem kept_execGuaranteeSet (c : Cmd) {s : State} (hs : Kept q p s) :
    KeptOut q p (execGuaranteeSet c s) := by
  unfold execGuaranteeSet
  repeat' first
    | with_reducible assumption
    | intro _
    | with_reducible apply keptOut_next
    | exact keptOut_fault _
    | with_reducible apply kept_runCmd
    | with_reducible apply kept_guaranteeDefined

theorem kept_planDefined {s : State} (hs : Kept q p s) (c : Cmd) :
    Kept q p (planDefined s c) := by
  unfold planDefined
  repeat' first
    | with_reducible assumption
    | intro _
    | extract_lets
    | with_reducible apply kept_orFail
    | with_reducible apply kept_wardChange
    | with_reducible apply kept_wrReg

theorem kept_execPlanSet (c : Cmd) {s : State} (hs : Kept q p s) :
    KeptOut q p (execPlanSet c s) := by
  unfold execPlanSet
  repeat' first
    | with_reducible assumption
    | intro _
    | with_reducible apply keptOut_next
    | exact keptOut_fault _
    | with_reducible apply kept_runCmd
    | with_reducible apply kept_planDefined

end Sys2Proof.Machine
end

