-- ==== Sys2Proof/Laws/KeptStore.lean ====
section
/-! SUPPORT. What the operations of Machine/Store.lean keep (Laws/Kept.lean). -/

namespace Sys2Proof.Machine

open Sys2Proof

variable {q : List Instr} {p : Part}

theorem kept_coefBytes {s : State} (hs : Kept q p s) :
    Kept q p (coefBytes s).2 := by
  unfold coefBytes
  repeat' first
    | with_reducible assumption
    | intro _
    | extract_lets
    | with_reducible apply kept_fresh
    | with_reducible apply kept_foldUpTo
    | with_reducible apply kept_foldUpTo_fst
    | with_reducible apply kept_foldUpTo_snd

theorem kept_calBody {s : State} (hs : Kept q p s) :
    Kept q p (calBody s).2 := by
  unfold calBody
  repeat' first
    | with_reducible assumption
    | intro _
    | extract_lets
    | with_reducible apply kept_coefBytes

end Sys2Proof.Machine
end

