-- ==== Sys2Proof/Laws/KeptCalib.lean ====
section
/-! SUPPORT. What the operations of Machine/Calib.lean keep (Laws/Kept.lean). -/

namespace Sys2Proof.Machine

open Sys2Proof

variable {q : List Instr} {p : Part}

theorem kept_applyTrims {s : State} (hs : Kept q p s) (l : LeafN) (res : List Int) :
    Kept q p (applyTrims s l res) := by
  unfold applyTrims
  repeat' first
    | with_reducible assumption
    | intro _
    | extract_lets
    | with_reducible apply kept_wr
    | with_reducible apply kept_condEnd
    | with_reducible apply kept_foldUpTo
    | with_reducible apply kept_foldUpTo_fst
    | with_reducible apply kept_foldUpTo_snd
    | split
    | with_reducible apply kept_with

theorem kept_calRejects {s : State} (hs : Kept q p s) (c : Cmd) (b : FltSet) (cls : Nat) :
    Kept q p (calRejects s c b cls) := by
  unfold calRejects
  repeat' first
    | with_reducible assumption
    | intro _
    | with_reducible apply kept_answer
    | with_reducible apply kept_fault

theorem kept_calLeaf {s : State} (hs : Kept q p s) (c : Cmd) (l : Nat) (res : List Int) :
    Kept q p (calLeaf s c l res) := by
  unfold calLeaf
  repeat' first
    | with_reducible assumption
    | intro _
    | with_reducible apply kept_answer
    | with_reducible apply kept_applyTrims
    | with_reducible apply kept_calRejects
    | with_reducible apply kept_ite

theorem kept_calRail {s : State} (hs : Kept q p s) (c : Cmd) (r : Nat) (res : List Int) :
    Kept q p (calRail s c r res) := by
  unfold calRail
  repeat' first
    | with_reducible assumption
    | intro _
    | extract_lets
    | with_reducible apply kept_answer
    | with_reducible apply kept_setF
    | with_reducible apply kept_calRejects
    | with_reducible apply kept_ite

theorem kept_applyBus {s : State} (hs : Kept q p s) (t : Nat) (r : Nat) (res : List Int) :
    Kept q p (applyBus s t r res) := by
  unfold applyBus
  repeat' first
    | with_reducible assumption
    | intro _
    | extract_lets
    | with_reducible apply kept_fresh
    | with_reducible apply kept_setF
    | with_reducible apply kept_foldUpTo

theorem kept_trainedRegs {s : State} (hs : Kept q p s) (t : Nat) (r : Nat) (res : List Int) :
    Kept q p (trainedRegs s t r res) := by
  unfold trainedRegs
  repeat' first
    | with_reducible assumption
    | intro _
    | extract_lets
    | with_reducible apply kept_setF
    | with_reducible apply kept_fresh
    | with_reducible apply kept_wr
    | with_reducible apply kept_count
    | with_reducible apply kept_ite
    | with_reducible apply kept_foldUpTo

theorem kept_beginMove {s : State} (hs : Kept q p s) (t : Nat) (r : Nat) :
    Kept q p (beginMove s t r) := by
  unfold beginMove
  repeat' first
    | with_reducible assumption
    | intro _
    | with_reducible apply kept_ite
    | split
    | with_reducible apply kept_with

theorem kept_calBus {s : State} (hs : Kept q p s) (c : Cmd) (t : Nat) (r : Nat) (res : List Int) :
    Kept q p (calBus s c t r res) := by
  unfold calBus
  repeat' first
    | with_reducible assumption
    | intro _
    | extract_lets
    | with_reducible apply kept_trainedRegs
    | with_reducible apply kept_answer
    | with_reducible apply kept_beginMove
    | with_reducible apply kept_setF
    | with_reducible apply kept_applyBus
    | with_reducible apply kept_calRejects
    | with_reducible apply kept_ite

theorem kept_calPort {s : State} (hs : Kept q p s) (c : Cmd) (p0 : Nat) (r : Nat) :
    Kept q p (calPort s c p0 r) := by
  unfold calPort
  repeat' first
    | with_reducible assumption
    | intro _
    | extract_lets
    | with_reducible apply kept_answer
    | with_reducible apply kept_setF
    | with_reducible apply kept_calRejects
    | with_reducible apply kept_ite
    | with_reducible apply kept_foldl

theorem kept_execCalRun (c : Cmd) (res : List Int) {s : State} (hs : Kept q p s) :
    KeptOut q p (execCalRun c res s) := by
  unfold execCalRun
  repeat' first
    | with_reducible assumption
    | intro _
    | extract_lets
    | with_reducible apply keptOut_next
    | exact keptOut_fault _
    | with_reducible apply keptOut_ite
    | with_reducible apply kept_runCmd
    | with_reducible apply kept_orFail
    | with_reducible apply kept_calLeaf
    | with_reducible apply kept_calRail
    | with_reducible apply kept_calBus
    | with_reducible apply kept_calPort
    | with_reducible apply kept_ite

theorem kept_storeCal {s : State} (hs : Kept q p s) (ok : Bool) :
    Kept q p (storeCal s ok).1 := by
  unfold storeCal
  repeat' first
    | with_reducible assumption
    | intro _
    | extract_lets
    | with_reducible apply kept_calBody
    | with_reducible apply kept_mramStore
    | with_reducible apply kept_mramPut

theorem kept_execCalStore (c : Cmd) (mramOk : Bool) {s : State} (hs : Kept q p s) :
    KeptOut q p (execCalStore c mramOk s) := by
  unfold execCalStore
  repeat' first
    | with_reducible assumption
    | intro _
    | extract_lets
    | with_reducible apply keptOut_next
    | exact keptOut_fault _
    | with_reducible apply keptOut_ite
    | with_reducible apply kept_runCmd
    | with_reducible apply kept_orFail
    | with_reducible apply kept_storeCal
    | with_reducible apply kept_answer

theorem kept_loadTrims {u : State × Nat} (hu : Kept q p u.1) (b : Nat) : Kept q p (loadTrims b u).1 := by
  unfold loadTrims
  refine kept_foldUpTo_fst _ _ (fun v i hv => ?_) hu
  extract_lets w s
  split
  · exact hv
  · split
    · exact hv
    · split
      · exact kept_wr hv _ _
      · exact hv

theorem kept_loadCoefs {u : State × Nat} (hu : Kept q p u.1) (b : Nat) : Kept q p (loadCoefs b u).1 := by
  unfold loadCoefs
  refine kept_foldUpTo_fst _ _ (fun v i hv => ?_) hu
  extract_lets
  split
  · exact hv
  · exact kept_ite (kept_ite hv hv) (kept_ite hv hv)

theorem kept_loadIvr {u : State × Nat} (hu : Kept q p u.1) (b : Nat) : Kept q p (loadIvr b u).1 := by
  delta loadIvr
  generalize 8 = n
  refine kept_foldUpTo_fst _ _ (fun v i hv => ?_) hu
  dsimp only
  split
  · exact kept_setF (s := v.1) hv _ _ _ _
  · exact kept_fault (s := v.1) hv (railSet i) 3 0 1

theorem kept_loadBus {s : State} (hs : Kept q p s) (b : Nat) :
    Kept q p (loadBus s b) := by
  unfold loadBus
  repeat' first
    | with_reducible assumption
    | intro _
    | extract_lets
    | with_reducible apply kept_setF
    | with_reducible apply kept_wr
    | with_reducible apply kept_beginMove
    | with_reducible apply kept_foldUpTo

theorem kept_loadEq {u : State × Nat} (hu : Kept q p u.1) (b : Nat) : Kept q p (loadEq b u).1 := by
  delta loadEq
  generalize 768 = n
  refine kept_foldUpTo_fst _ _ (fun v i hv => ?_) hu
  dsimp only
  split
  · exact kept_setF hv _ _ _ _
  · exact hv

theorem kept_loadStart {u : State × Nat} (hu : Kept q p u.1) (b : Nat) : Kept q p (loadStart b u).1 := by
  unfold loadStart
  extract_lets s l
  split
  · exact hu
  · exact hu

theorem kept_loadSpeed {u : State × Nat} (hu : Kept q p u.1) (b : Nat) : Kept q p (loadSpeed b u).1 := by
  delta loadSpeed
  generalize 2256 = n
  refine kept_foldUpTo_fst _ _ (fun v i hv => ?_) hu
  dsimp only
  split
  · exact hv
  · exact hv

theorem kept_calLoaded {u : State × Nat} (hu : Kept q p u.1) (f : Bool) : Kept q p (calLoaded f u).1 :=
  kept_ite hu (kept_fault hu _ _ _ _)

theorem kept_loadCal {s : State} (hs : Kept q p s) (k : Nat) : Kept q p (loadCal s k).1 :=
  kept_calLoaded (kept_loadSpeed (kept_loadStart (kept_loadEq (kept_loadIvr (kept_loadCoefs (kept_loadTrims
    (u := (loadBus s (calBase k), 0)) (kept_loadBus hs _) _) _) _) _) _) _) _

theorem kept_execCalRestore (c : Cmd) {s : State} (hs : Kept q p s) : KeptOut q p (execCalRestore c s) := by
  refine kept_runCmd hs _ _ _ (fun u hu => kept_orFail hu _ _ ?_)
  have h := kept_loadCal hu ((bestCal u).getD 0)
  revert h
  generalize loadCal u ((bestCal u).getD 0) = e
  exact fun h => kept_answer h _ _

theorem kept_busStep {s : State} (hs : Kept q p s) (t : Nat) :
    Kept q p (busStep s t) := by
  unfold busStep
  repeat' first
    | with_reducible assumption
    | intro _
    | extract_lets
    | with_reducible apply kept_setTum
    | with_reducible apply kept_ite
    | with_reducible apply kept_foldUpTo
    | with_reducible apply kept_foldUpTo_fst
    | with_reducible apply kept_foldUpTo_snd
    | split
    | with_reducible apply kept_with

theorem kept_execBusDelayStep (t : Tum) {s : State} (hs : Kept q p s) :
    KeptOut q p (execBusDelayStep t s) := by
  unfold execBusDelayStep
  repeat' first
    | with_reducible assumption
    | intro _
    | with_reducible apply keptOut_next
    | exact keptOut_fault _
    | with_reducible apply kept_when
    | with_reducible apply kept_busStep

theorem kept_execSpeedMonitorRead (m : Fin 2256) (freq : Nat) {s : State} (hs : Kept q p s) :
    KeptOut q p (execSpeedMonitorRead m freq s) := by
  unfold execSpeedMonitorRead
  repeat' first
    | with_reducible assumption
    | intro _
    | extract_lets
    | with_reducible apply keptOut_next
    | exact keptOut_fault _
    | with_reducible apply kept_when
    | with_reducible apply kept_fault
    | with_reducible apply kept_wr

end Sys2Proof.Machine
end

