-- ==== Sys2Proof/Laws/KeptCountRows.lean ====
section
/-! SUPPORT. What the operations of Machine/CountRows.lean keep (Laws/Kept.lean). -/

namespace Sys2Proof.Machine

open Sys2Proof

variable {q : List Instr} {p : Part}

theorem kept_applyConfig {s : State} (hs : Kept q p s) (c : Cmd) :
    Kept q p (applyConfig s c) := by
  unfold applyConfig
  repeat' first
    | with_reducible assumption
    | intro _
    | extract_lets
    | with_reducible apply kept_wr
    | with_reducible apply kept_answer

theorem kept_execCntConfig (c : Cmd) {s : State} (hs : Kept q p s) :
    KeptOut q p (execCntConfig c s) := by
  unfold execCntConfig
  repeat' first
    | with_reducible assumption
    | intro _
    | with_reducible apply keptOut_next
    | exact keptOut_fault _
    | with_reducible apply keptOut_ite
    | with_reducible apply kept_runCmd
    | with_reducible apply kept_orFail
    | with_reducible apply kept_begin
    | with_reducible apply kept_applyConfig
    | with_reducible apply kept_ite
    | with_reducible apply kept_orFail
    | split
    | with_reducible apply kept_with

theorem kept_queueDump {s : State} (hs : Kept q p s) :
    Kept q p (queueDump s) := by
  unfold queueDump
  repeat' first
    | with_reducible assumption
    | intro _
    | extract_lets
    | with_reducible apply kept_foldUpTo
    | with_reducible apply kept_foldUpTo_fst
    | with_reducible apply kept_foldUpTo_snd
    | with_reducible apply kept_with

theorem kept_latchDump {s : State} (hs : Kept q p s) (t : Nat) (counts : Tab (BitVec 48)) :
    Kept q p (latchDump s t counts) := by
  unfold latchDump
  repeat' first
    | with_reducible assumption
    | intro _
    | extract_lets
    | with_reducible apply kept_tick
    | with_reducible apply kept_queueDump
    | with_reducible apply kept_wr
    | with_reducible apply kept_with

theorem kept_skipTick {s : State} (hs : Kept q p s) :
    Kept q p (skipTick s) := by
  unfold skipTick
  repeat' first
    | with_reducible assumption
    | intro _
    | with_reducible apply kept_count
    | with_reducible apply kept_with

theorem kept_execLatchTick {s : State} (hs : Kept q p s) :
    KeptOut q p (execLatchTick s) := by
  unfold execLatchTick
  repeat' first
    | with_reducible assumption
    | intro _
    | extract_lets
    | with_reducible apply keptOut_next
    | exact keptOut_fault _
    | with_reducible apply keptOut_ite
    | with_reducible apply kept_when
    | with_reducible apply kept_skipTick
    | with_reducible apply kept_latchDump
    | with_reducible apply kept_when
    | with_reducible apply kept_ite
    | split
    | with_reducible apply kept_with

theorem kept_dumpTick {s : State} (hs : Kept q p s) :
    Kept q p (dumpTick s) := by
  unfold dumpTick
  repeat' first
    | with_reducible assumption
    | intro _
    | with_reducible apply kept_ite
    | split
    | with_reducible apply kept_with

theorem kept_configNow {s : State} (hs : Kept q p s) :
    Kept q p (configNow s) := by
  unfold configNow
  repeat' first
    | with_reducible assumption
    | intro _
    | with_reducible apply kept_applyConfig
    | with_reducible apply kept_foldl
    | with_reducible apply kept_foldl_fst
    | with_reducible apply kept_foldl_snd
    | with_reducible apply kept_with

theorem kept_dumpDone {s : State} (hs : Kept q p s) :
    Kept q p (dumpDone s) := by
  unfold dumpDone
  repeat' first
    | with_reducible assumption
    | intro _
    | extract_lets
    | with_reducible apply kept_setF
    | with_reducible apply kept_wr
    | with_reducible apply kept_configNow
    | with_reducible apply kept_raise
    | with_reducible apply kept_count
    | with_reducible apply kept_with

theorem kept_execDumpComplete {s : State} (hs : Kept q p s) :
    KeptOut q p (execDumpComplete s) := by
  unfold execDumpComplete
  repeat' first
    | with_reducible assumption
    | intro _
    | with_reducible apply keptOut_next
    | exact keptOut_fault _
    | with_reducible apply keptOut_ite
    | with_reducible apply kept_when
    | with_reducible apply kept_dumpDone
    | with_reducible apply kept_configNow
    | with_reducible apply kept_when
    | with_reducible apply kept_ite

theorem kept_flushTail {s : State} (hs : Kept q p s) :
    Kept q p (flushTail s) := by
  unfold flushTail
  repeat' first
    | with_reducible assumption
    | intro _
    | extract_lets
    | with_reducible apply kept_mramPut
    | with_reducible apply kept_foldl
    | with_reducible apply kept_foldl_fst
    | with_reducible apply kept_foldl_snd
    | with_reducible apply kept_with

theorem kept_execLogFlush (mramOk : Bool) {s : State} (hs : Kept q p s) :
    KeptOut q p (execLogFlush mramOk s) := by
  unfold execLogFlush
  repeat' first
    | with_reducible assumption
    | intro _
    | with_reducible apply keptOut_next
    | exact keptOut_fault _
    | with_reducible apply keptOut_ite
    | with_reducible apply kept_when
    | with_reducible apply kept_flushTail
    | with_reducible apply kept_mramStore
    | with_reducible apply kept_when
    | with_reducible apply kept_ite

theorem kept_execLogRead (c : Cmd) {s : State} (hs : Kept q p s) :
    KeptOut q p (execLogRead c s) := by
  unfold execLogRead
  repeat' first
    | with_reducible assumption
    | intro _
    | extract_lets
    | with_reducible apply keptOut_next
    | exact keptOut_fault _
    | with_reducible apply keptOut_ite
    | with_reducible apply kept_runCmd
    | with_reducible apply kept_orFail
    | with_reducible apply kept_fresh
    | with_reducible apply kept_reply
    | with_reducible apply kept_ite

theorem kept_putSub {s : State} (hs : Kept q p s) (i : Nat) (x : Option Sub) :
    Kept q p (putSub s i x) := by
  unfold putSub
  repeat' first
    | with_reducible assumption
    | intro _
    | with_reducible apply kept_with

theorem kept_subscribe {s : State} (hs : Kept q p s) (c : Cmd) (src : Nat) (init : Nat) (port : Nat) (on : Bool) :
    Kept q p (subscribe s c src init port on) := by
  unfold subscribe
  repeat' first
    | with_reducible assumption
    | intro _
    | with_reducible apply kept_answer
    | with_reducible apply kept_putSub
    | split

theorem kept_execEventSubscribe (c : Cmd) {s : State} (hs : Kept q p s) :
    KeptOut q p (execEventSubscribe c s) := by
  unfold execEventSubscribe
  repeat' first
    | with_reducible assumption
    | intro _
    | extract_lets
    | with_reducible apply keptOut_next
    | exact keptOut_fault _
    | with_reducible apply keptOut_ite
    | with_reducible apply kept_runCmd
    | with_reducible apply kept_orFail
    | with_reducible apply kept_subscribe

end Sys2Proof.Machine
end

