-- ==== Sys2Proof/Laws/KeptLinkRows.lean ====
section
/-! SUPPORT. What the operations of Machine/LinkRows.lean keep (Laws/Kept.lean). -/

namespace Sys2Proof.Machine

open Sys2Proof

variable {q : List Instr} {p : Part}

theorem kept_wrLinkCtrl {s : State} (hs : Kept q p s) (p0 : PortN) (v : Reg32) :
    Kept q p (wrLinkCtrl s p0 v) := by
  unfold wrLinkCtrl
  repeat' first
    | with_reducible assumption
    | intro _
    | extract_lets
    | with_reducible apply kept_wrReg
    | with_reducible apply kept_toRetrain
    | with_reducible apply kept_paramFault
    | with_reducible apply kept_fromOff
    | with_reducible apply kept_portReset
    | with_reducible apply kept_ite

theorem kept_execLinkEnWrite (p0 : PortN) (v : Reg32) {s : State} (hs : Kept q p s) :
    KeptOut q p (execLinkEnWrite p0 v s) := by
  unfold execLinkEnWrite
  repeat' first
    | with_reducible assumption
    | intro _
    | with_reducible apply keptOut_next
    | exact keptOut_fault _
    | with_reducible apply kept_atReg
    | with_reducible apply kept_wrLinkCtrl

theorem kept_execRetrain (p0 : PortN) (v : Reg32) {s : State} (hs : Kept q p s) :
    KeptOut q p (execRetrain p0 v s) := by
  unfold execRetrain
  repeat' first
    | with_reducible assumption
    | intro _
    | with_reducible apply keptOut_next
    | exact keptOut_fault _
    | with_reducible apply kept_atReg
    | with_reducible apply kept_wrLinkCtrl

theorem kept_execDetectPoll (p0 : PortN) (clk : Bool) (lanes : BitVec 16) {s : State} (hs : Kept q p s) :
    KeptOut q p (execDetectPoll p0 clk lanes s) := by
  unfold execDetectPoll
  repeat' first
    | with_reducible assumption
    | intro _
    | with_reducible apply keptOut_next
    | exact keptOut_fault _
    | with_reducible apply keptOut_ite
    | with_reducible apply kept_when
    | with_reducible apply kept_setPhy
    | with_reducible apply kept_at16
    | with_reducible apply kept_modPort
    | with_reducible apply kept_when
    | with_reducible apply kept_ite

theorem kept_startLane {s : State} (hs : Kept q p s) (p0 : Nat) (l : Nat) :
    Kept q p (startLane s p0 l) := by
  unfold startLane
  repeat' first
    | with_reducible assumption
    | intro _
    | extract_lets
    | with_reducible apply kept_setF
    | with_reducible apply kept_setPhy

theorem kept_lockLanes {s : State} (hs : Kept q p s) (p0 : Nat) (m : Nat) :
    Kept q p (lockLanes s p0 m) := by
  unfold lockLanes
  repeat' first
    | with_reducible assumption
    | intro _
    | with_reducible apply kept_setF
    | with_reducible apply kept_startLane
    | with_reducible apply kept_ite
    | with_reducible apply kept_foldUpTo

theorem kept_clockLocked {s : State} (hs : Kept q p s) (p0 : PortN) :
    Kept q p (clockLocked s p0) := by
  unfold clockLocked
  repeat' first
    | with_reducible assumption
    | intro _
    | with_reducible apply kept_toKs1
    | with_reducible apply kept_lockLanes

theorem kept_execClockLock (p0 : PortN) {s : State} (hs : Kept q p s) :
    KeptOut q p (execClockLock p0 s) := by
  unfold execClockLock
  repeat' first
    | with_reducible assumption
    | intro _
    | with_reducible apply keptOut_next
    | exact keptOut_fault _
    | with_reducible apply keptOut_ite
    | with_reducible apply kept_clockLocked
    | with_reducible apply kept_lockLanes
    | with_reducible apply kept_ite

theorem kept_execClocklockTimeout (p0 : PortN) {s : State} (hs : Kept q p s) :
    KeptOut q p (execClocklockTimeout p0 s) := by
  unfold execClocklockTimeout
  repeat' first
    | with_reducible assumption
    | intro _
    | with_reducible apply keptOut_next
    | exact keptOut_fault _
    | with_reducible apply kept_when
    | with_reducible apply kept_toDetect

theorem kept_countKeySet {s : State} (hs : Kept q p s) (p0 : Nat) (l : Nat) (kind : Nat) (k : Nat) :
    Kept q p (countKeySet s p0 l kind k) := by
  unfold countKeySet
  repeat' first
    | with_reducible assumption
    | intro _
    | extract_lets
    | with_reducible apply kept_modPort

theorem kept_breakKeySet {s : State} (hs : Kept q p s) (p0 : Nat) (l : Nat) :
    Kept q p (breakKeySet s p0 l) := by
  unfold breakKeySet
  repeat' first
    | with_reducible assumption
    | intro _
    | extract_lets
    | with_reducible apply kept_modPort

theorem kept_mismatch {s : State} (hs : Kept q p s) (p0 : PortN) (role : Bool) (vers : Bool) :
    Kept q p (mismatch s p0 role vers) := by
  unfold mismatch
  repeat' first
    | with_reducible assumption
    | intro _
    | extract_lets
    | with_reducible apply kept_setF
    | with_reducible apply kept_fault
    | with_reducible apply kept_toDetect
    | with_reducible apply kept_ite

theorem kept_keySetIn {s : State} (hs : Kept q p s) (p0 : PortN) (l : LaneN) (raw : KeySetBits) :
    Kept q p (keySetIn s p0 l raw) := by
  unfold keySetIn
  repeat' first
    | with_reducible assumption
    | intro _
    | extract_lets
    | with_reducible apply kept_setF
    | with_reducible apply kept_breakKeySet
    | with_reducible apply kept_modPort
    | with_reducible apply kept_mismatch
    | with_reducible apply kept_countKeySet
    | with_reducible apply kept_ite
    | split

theorem kept_execKeySetReceived (p0 : PortN) (l : LaneN) (raw : KeySetBits) {s : State} (hs : Kept q p s) :
    KeptOut q p (execKeySetReceived p0 l raw s) := by
  unfold execKeySetReceived
  repeat' first
    | with_reducible assumption
    | intro _
    | with_reducible apply keptOut_next
    | exact keptOut_fault _
    | with_reducible apply kept_when
    | with_reducible apply kept_keySetIn

theorem kept_recordPartner {s : State} (hs : Kept q p s) (p0 : Nat) (k : Nat) :
    Kept q p (recordPartner s p0 k) := by
  unfold recordPartner
  repeat' first
    | with_reducible assumption
    | intro _
    | with_reducible apply kept_wr

theorem kept_takeRate {s : State} (hs : Kept q p s) (p0 : Nat) (r : Nat) :
    Kept q p (takeRate s p0 r) := by
  unfold takeRate
  repeat' first
    | with_reducible assumption
    | intro _
    | with_reducible apply kept_startKeys
    | with_reducible apply kept_setPhy
    | with_reducible apply kept_setF

theorem kept_orderLanes {s : State} (hs : Kept q p s) (p0 : Nat) (m : Nat) :
    Kept q p (orderLanes s p0 m) := by
  unfold orderLanes
  repeat' first
    | with_reducible assumption
    | intro _
    | extract_lets
    | with_reducible apply kept_setF
    | with_reducible apply kept_setPhy
    | with_reducible apply kept_ite
    | with_reducible apply kept_foldUpTo

theorem kept_ks1Done {s : State} (hs : Kept q p s) (p0 : PortN) :
    Kept q p (ks1Done s p0) := by
  unfold ks1Done
  repeat' first
    | with_reducible assumption
    | intro _
    | extract_lets
    | with_reducible apply kept_takeMinWidth
    | with_reducible apply kept_takeRate
    | with_reducible apply kept_orderLanes
    | with_reducible apply kept_recordPartner
    | with_reducible apply kept_leaveLink
    | with_reducible apply kept_modPort
    | with_reducible apply kept_ite
    | split

theorem kept_ks1Seen {s : State} (hs : Kept q p s) (p0 : Nat) (tested : Nat) :
    Kept q p (ks1Seen s p0 tested) := by
  unfold ks1Seen
  repeat' first
    | with_reducible assumption
    | intro _
    | extract_lets
    | with_reducible apply kept_recordPartner
    | with_reducible apply kept_ite

theorem kept_ks1Again {s : State} (hs : Kept q p s) (p0 : PortN) :
    Kept q p (ks1Again s p0) := by
  unfold ks1Again
  repeat' first
    | with_reducible assumption
    | intro _
    | extract_lets
    | with_reducible apply kept_takeRate
    | with_reducible apply kept_recordPartner
    | with_reducible apply kept_ite
    | split

theorem kept_deskewLane {s : State} (hs : Kept q p s) (p0 : Nat) (l : Nat) :
    Kept q p (deskewLane s p0 l) := by
  unfold deskewLane
  repeat' first
    | with_reducible assumption
    | intro _
    | extract_lets
    | with_reducible apply kept_fresh
    | with_reducible apply kept_setPhy

theorem kept_deskewLanes {s : State} (hs : Kept q p s) (p0 : Nat) (m : Nat) :
    Kept q p (deskewLanes s p0 m) := by
  unfold deskewLanes
  repeat' first
    | with_reducible assumption
    | intro _
    | with_reducible apply kept_deskewLane
    | with_reducible apply kept_ite
    | with_reducible apply kept_foldUpTo

theorem kept_goActive {s : State} (hs : Kept q p s) (p0 : Nat) (rx : Nat) (tx : Nat) :
    Kept q p (goActive s p0 rx tx) := by
  unfold goActive
  repeat' first
    | with_reducible assumption
    | intro _
    | extract_lets
    | with_reducible apply kept_leaveLink
    | with_reducible apply kept_deskewLanes
    | with_reducible apply kept_setLocks
    | with_reducible apply kept_setHealthy
    | with_reducible apply kept_wr
    | with_reducible apply kept_count
    | with_reducible apply kept_modPort
    | with_reducible apply kept_ite

theorem kept_startNumbers {s : State} (hs : Kept q p s) (p0 : Nat) (k : Nat) :
    Kept q p (startNumbers s p0 k) := by
  unfold startNumbers
  repeat' first
    | with_reducible assumption
    | intro _
    | extract_lets
    | with_reducible apply kept_modPort
    | with_reducible apply kept_applyLimits

theorem kept_ks2Done {s : State} (hs : Kept q p s) (p0 : PortN) :
    Kept q p (ks2Done s p0) := by
  unfold ks2Done
  repeat' first
    | with_reducible assumption
    | intro _
    | extract_lets
    | with_reducible apply kept_portDown
    | with_reducible apply kept_trainFails
    | with_reducible apply kept_goActive
    | with_reducible apply kept_startNumbers
    | with_reducible apply kept_sendPair
    | with_reducible apply kept_resendAll
    | with_reducible apply kept_applyAck
    | with_reducible apply kept_applyLimits
    | with_reducible apply kept_toRetrain
    | with_reducible apply kept_setPhy
    | with_reducible apply kept_ite

theorem kept_exchangeDone {s : State} (hs : Kept q p s) (p0 : PortN) :
    Kept q p (exchangeDone s p0) := by
  unfold exchangeDone
  repeat' first
    | with_reducible assumption
    | intro _
    | extract_lets
    | with_reducible apply kept_ks1Done
    | with_reducible apply kept_ks2Done
    | with_reducible apply kept_ks1Again
    | with_reducible apply kept_ks1Seen
    | with_reducible apply kept_ite

theorem kept_execKeySetExchangeComplete (p0 : PortN) {s : State} (hs : Kept q p s) :
    KeptOut q p (execKeySetExchangeComplete p0 s) := by
  unfold execKeySetExchangeComplete
  repeat' first
    | with_reducible assumption
    | intro _
    | with_reducible apply keptOut_next
    | exact keptOut_fault _
    | with_reducible apply kept_when
    | with_reducible apply kept_exchangeDone

theorem kept_execKs1Timeout (p0 : PortN) {s : State} (hs : Kept q p s) :
    KeptOut q p (execKs1Timeout p0 s) := by
  unfold execKs1Timeout
  repeat' first
    | with_reducible assumption
    | intro _
    | with_reducible apply keptOut_next
    | exact keptOut_fault _
    | with_reducible apply kept_when
    | with_reducible apply kept_trainGivesUp

theorem kept_execKs2Timeout (p0 : PortN) {s : State} (hs : Kept q p s) :
    KeptOut q p (execKs2Timeout p0 s) := by
  unfold execKs2Timeout
  repeat' first
    | with_reducible assumption
    | intro _
    | with_reducible apply keptOut_next
    | exact keptOut_fault _
    | with_reducible apply kept_when
    | with_reducible apply kept_trainFails

theorem kept_execTrainRateRelock (p0 : PortN) {s : State} (hs : Kept q p s) :
    KeptOut q p (execTrainRateRelock p0 s) := by
  unfold execTrainRateRelock
  repeat' first
    | with_reducible assumption
    | intro _
    | with_reducible apply keptOut_next
    | exact keptOut_fault _
    | with_reducible apply kept_when
    | with_reducible apply kept_setPhy
    | with_reducible apply kept_setF

theorem kept_sweepCode {s : State} (hs : Kept q p s) (p0 : Nat) (meas : List (BitVec 9)) :
    Kept q p (sweepCode s p0 meas) := by
  unfold sweepCode
  repeat' first
    | with_reducible assumption
    | intro _
    | extract_lets
    | with_reducible apply kept_sweepStep
    | with_reducible apply kept_setPhy
    | with_reducible apply kept_ite
    | with_reducible apply kept_foldUpTo

theorem kept_sweepPhase {s : State} (hs : Kept q p s) (p0 : Nat) (meas : List (BitVec 9)) :
    Kept q p (sweepPhase s p0 meas) := by
  unfold sweepPhase
  repeat' first
    | with_reducible assumption
    | intro _
    | extract_lets
    | with_reducible apply kept_setF
    | with_reducible apply kept_setPhy
    | with_reducible apply kept_ite
    | with_reducible apply kept_foldUpTo

theorem kept_sweepEnd {s : State} (hs : Kept q p s) (p0 : PortN) :
    Kept q p (sweepEnd s p0) := by
  unfold sweepEnd
  repeat' first
    | with_reducible assumption
    | intro _
    | extract_lets
    | with_reducible apply kept_startKeys
    | with_reducible apply kept_setPhy
    | with_reducible apply kept_sweepStep
    | with_reducible apply kept_setHealthy
    | with_reducible apply kept_portDown
    | with_reducible apply kept_trainFails
    | with_reducible apply kept_dropIdle
    | with_reducible apply kept_leaveLink
    | with_reducible apply kept_modPort
    | with_reducible apply kept_ite

theorem kept_sweepRestart {s : State} (hs : Kept q p s) (p0 : PortN) :
    Kept q p (sweepRestart s p0) := by
  unfold sweepRestart
  repeat' first
    | with_reducible assumption
    | intro _
    | extract_lets
    | with_reducible apply kept_setF
    | with_reducible apply kept_startKeys
    | with_reducible apply kept_setPhy
    | with_reducible apply kept_at16
    | with_reducible apply kept_sweepStep
    | with_reducible apply kept_toKs1
    | with_reducible apply kept_ite

theorem kept_sweepStepEnd {s : State} (hs : Kept q p s) (p0 : PortN) (meas : List (BitVec 9)) :
    Kept q p (sweepStepEnd s p0 meas) := by
  unfold sweepStepEnd
  repeat' first
    | with_reducible assumption
    | intro _
    | with_reducible apply kept_sweepRestart
    | with_reducible apply kept_sweepStep
    | with_reducible apply kept_sweepCode
    | with_reducible apply kept_sweepEnd
    | with_reducible apply kept_sweepPhase
    | with_reducible apply kept_ite

theorem kept_execTrainSweepStep (p0 : PortN) (meas : List (BitVec 9)) {s : State} (hs : Kept q p s) :
    KeptOut q p (execTrainSweepStep p0 meas s) := by
  unfold execTrainSweepStep
  repeat' first
    | with_reducible assumption
    | intro _
    | with_reducible apply keptOut_next
    | exact keptOut_fault _
    | with_reducible apply kept_when
    | with_reducible apply kept_sweepStepEnd

theorem kept_wrPhyRate {s : State} (hs : Kept q p s) (p0 : PortN) (v : Reg32) :
    Kept q p (wrPhyRate s p0 v) := by
  unfold wrPhyRate
  repeat' first
    | with_reducible assumption
    | intro _
    | extract_lets
    | with_reducible apply kept_putReg
    | with_reducible apply kept_setF
    | with_reducible apply kept_wrReg
    | with_reducible apply kept_toRetrain
    | with_reducible apply kept_ite

theorem kept_execPhyRateReqWrite (p0 : PortN) (v : Reg32) {s : State} (hs : Kept q p s) :
    KeptOut q p (execPhyRateReqWrite p0 v s) := by
  unfold execPhyRateReqWrite
  repeat' first
    | with_reducible assumption
    | intro _
    | with_reducible apply keptOut_next
    | exact keptOut_fault _
    | with_reducible apply kept_atReg
    | with_reducible apply kept_wrPhyRate

theorem kept_laneLost {s : State} (hs : Kept q p s) (p0 : PortN) (l : LaneN) :
    Kept q p (laneLost s p0 l) := by
  unfold laneLost
  repeat' first
    | with_reducible assumption
    | intro _
    | extract_lets
    | with_reducible apply kept_loseLanes
    | with_reducible apply kept_toRetrain
    | with_reducible apply kept_ite

theorem kept_execLaneLoss (p0 : PortN) (l : LaneN) {s : State} (hs : Kept q p s) :
    KeptOut q p (execLaneLoss p0 l s) := by
  unfold execLaneLoss
  repeat' first
    | with_reducible assumption
    | intro _
    | with_reducible apply keptOut_next
    | exact keptOut_fault _
    | with_reducible apply kept_when
    | with_reducible apply kept_laneLost

theorem kept_clockLost {s : State} (hs : Kept q p s) (p0 : PortN) :
    Kept q p (clockLost s p0) := by
  unfold clockLost
  repeat' first
    | with_reducible assumption
    | intro _
    | extract_lets
    | with_reducible apply kept_setF
    | with_reducible apply kept_portDown
    | with_reducible apply kept_ite

theorem kept_execClockLaneLoss (p0 : PortN) {s : State} (hs : Kept q p s) :
    KeptOut q p (execClockLaneLoss p0 s) := by
  unfold execClockLaneLoss
  repeat' first
    | with_reducible assumption
    | intro _
    | with_reducible apply keptOut_next
    | exact keptOut_fault _
    | with_reducible apply kept_when
    | with_reducible apply kept_clockLost

theorem kept_laneTestEnd {s : State} (hs : Kept q p s) (p0 : PortN) (rx : BitVec 16) (tx : BitVec 16) :
    Kept q p (laneTestEnd s p0 rx tx) := by
  unfold laneTestEnd
  repeat' first
    | with_reducible assumption
    | intro _
    | extract_lets
    | with_reducible apply kept_ks1Seen
    | with_reducible apply kept_startKeys
    | with_reducible apply kept_setPhy
    | with_reducible apply kept_setLocks
    | with_reducible apply kept_setHealthy
    | with_reducible apply kept_portDown
    | with_reducible apply kept_dropIdle
    | with_reducible apply kept_ite

theorem kept_execRetrainLaneTestEnd (p0 : PortN) (rx : BitVec 16) (tx : BitVec 16) {s : State} (hs : Kept q p s) :
    KeptOut q p (execRetrainLaneTestEnd p0 rx tx s) := by
  unfold execRetrainLaneTestEnd
  repeat' first
    | with_reducible assumption
    | intro _
    | with_reducible apply keptOut_next
    | exact keptOut_fault _
    | with_reducible apply kept_when
    | with_reducible apply kept_laneTestEnd

theorem kept_retrainAgain {s : State} (hs : Kept q p s) (p0 : PortN) :
    Kept q p (retrainAgain s p0) := by
  unfold retrainAgain
  repeat' first
    | with_reducible assumption
    | intro _
    | extract_lets
    | with_reducible apply kept_takeMinWidth
    | with_reducible apply kept_startKeys
    | with_reducible apply kept_setPhy

theorem kept_execRetrainTimeout (p0 : PortN) {s : State} (hs : Kept q p s) :
    KeptOut q p (execRetrainTimeout p0 s) := by
  unfold execRetrainTimeout
  repeat' first
    | with_reducible assumption
    | intro _
    | with_reducible apply keptOut_next
    | exact keptOut_fault _
    | with_reducible apply keptOut_ite
    | with_reducible apply kept_when
    | with_reducible apply kept_portDown
    | with_reducible apply kept_retrainAgain
    | with_reducible apply kept_when
    | with_reducible apply kept_ite

theorem kept_enterLowPower {s : State} (hs : Kept q p s) (p0 : PortN) :
    Kept q p (enterLowPower s p0) := by
  unfold enterLowPower
  repeat' first
    | with_reducible assumption
    | intro _
    | extract_lets
    | with_reducible apply kept_setF
    | with_reducible apply kept_setLocks
    | with_reducible apply kept_leaveLink
    | with_reducible apply kept_count
    | with_reducible apply kept_modPort

theorem kept_execLowpowerEntry (p0 : PortN) {s : State} (hs : Kept q p s) :
    KeptOut q p (execLowpowerEntry p0 s) := by
  unfold execLowpowerEntry
  repeat' first
    | with_reducible assumption
    | intro _
    | with_reducible apply keptOut_next
    | exact keptOut_fault _
    | with_reducible apply kept_when
    | with_reducible apply kept_enterLowPower

theorem kept_abandonEntry {s : State} (hs : Kept q p s) (p0 : Nat) :
    Kept q p (abandonEntry s p0) := by
  unfold abandonEntry
  repeat' first
    | with_reducible assumption
    | intro _
    | with_reducible apply kept_modPort

theorem kept_execWakeRequest (p0 : PortN) {s : State} (hs : Kept q p s) :
    KeptOut q p (execWakeRequest p0 s) := by
  unfold execWakeRequest
  repeat' first
    | with_reducible assumption
    | intro _
    | with_reducible apply keptOut_next
    | exact keptOut_fault _
    | with_reducible apply keptOut_ite
    | with_reducible apply kept_when
    | with_reducible apply kept_abandonEntry
    | with_reducible apply kept_modPort
    | with_reducible apply kept_when
    | with_reducible apply kept_ite

theorem kept_exitLowPower {s : State} (hs : Kept q p s) (p0 : PortN) (failed : BitVec 16) :
    Kept q p (exitLowPower s p0 failed) := by
  unfold exitLowPower
  repeat' first
    | with_reducible assumption
    | intro _
    | extract_lets
    | with_reducible apply kept_modPort
    | with_reducible apply kept_setF
    | with_reducible apply kept_setLocks
    | with_reducible apply kept_loseLanes
    | with_reducible apply kept_toRetrain
    | with_reducible apply kept_ite

theorem kept_execLowpowerExitDone (p0 : PortN) (failed : BitVec 16) {s : State} (hs : Kept q p s) :
    KeptOut q p (execLowpowerExitDone p0 failed s) := by
  unfold execLowpowerExitDone
  repeat' first
    | with_reducible assumption
    | intro _
    | with_reducible apply keptOut_next
    | exact keptOut_fault _
    | with_reducible apply kept_when
    | with_reducible apply kept_exitLowPower

end Sys2Proof.Machine
end

