-- ==== Sys2Proof/Laws/KeptLineOps.lean ====
section
/-! SUPPORT. What the operations of Machine/LineOps.lean keep (Laws/Kept.lean). -/

namespace Sys2Proof.Machine

open Sys2Proof

variable {q : List Instr} {p : Part}

theorem kept_wakeTum {s : State} (hs : Kept q p s) (t : Nat) :
    Kept q p (wakeTum s t) := by
  unfold wakeTum
  repeat' first
    | with_reducible assumption
    | intro _
    | with_reducible apply kept_wakeFor

theorem kept_actNext {s : State} (hs : Kept q p s) (a : Access) (l : Loc) :
    Kept q p (actNext s a l) := by
  unfold actNext
  repeat' first
    | with_reducible assumption
    | intro _
    | extract_lets
    | with_reducible apply kept_advance
    | with_reducible apply kept_doAct
    | with_reducible apply kept_goTo

theorem kept_openLine {s : State} (hs : Kept q p s) (a : Access) (l : Loc) :
    Kept q p (openLine s a l) := by
  unfold openLine
  repeat' first
    | with_reducible assumption
    | intro _
    | extract_lets
    | with_reducible apply kept_actNext
    | with_reducible apply kept_preNext
    | with_reducible apply kept_ite

theorem kept_colNext {s : State} (hs : Kept q p s) (a : Access) (l : Loc) (w : Bool) :
    Kept q p (colNext s a l w) := by
  unfold colNext
  repeat' first
    | with_reducible assumption
    | intro _
    | extract_lets
    | with_reducible apply kept_advance
    | with_reducible apply kept_charge
    | with_reducible apply kept_issueCol
    | with_reducible apply kept_goTo

theorem kept_lineRead {s : State} (hs : Kept q p s) (a : Access) (e : Nat) (flips : List CodeWord) :
    Kept q p (lineRead s a e flips).1 := by
  unfold lineRead
  repeat' first
    | with_reducible assumption
    | intro _
    | extract_lets
    | with_reducible apply kept_colNext
    | with_reducible apply kept_openLine
    | with_reducible apply kept_decodeLine
    | split

theorem kept_lineWr {s : State} (hs : Kept q p s) (a : Access) (l : Loc) :
    Kept q p (lineWr s a l) := by
  unfold lineWr
  repeat' first
    | with_reducible assumption
    | intro _
    | with_reducible apply kept_colNext
    | with_reducible apply kept_openLine

theorem kept_lineWrAll {s : State} (hs : Kept q p s) (a : Access) :
    Kept q p (lineWrAll s a) := by
  unfold lineWrAll
  repeat' first
    | with_reducible assumption
    | intro _
    | extract_lets
    | with_reducible apply kept_lineWr
    | with_reducible apply kept_afterCol
    | split

theorem kept_lineStore {s : State} (hs : Kept q p s) (a : Access) (m : Nat) (f : Nat → CodeWord) :
    Kept q p (lineStore s a m f) := by
  unfold lineStore
  repeat' first
    | with_reducible assumption
    | intro _
    | extract_lets
    | with_reducible apply kept_setQ
    | with_reducible apply kept_putBoth
    | with_reducible apply kept_lineWrAll
    | with_reducible apply kept_ite
    | with_reducible apply kept_foldUpTo
    | with_reducible apply kept_foldUpTo_fst
    | with_reducible apply kept_foldUpTo_snd
    | split

theorem kept_afterRead {s : State} (hs : Kept q p s) (a : Access) :
    Kept q p (afterRead s a) := by
  unfold afterRead
  repeat' first
    | with_reducible assumption
    | intro _
    | extract_lets
    | with_reducible apply kept_goTo
    | with_reducible apply kept_ite

theorem kept_lineEnter {s : State} (hs : Kept q p s) (a : Access) :
    Kept q p (lineEnter s a) := by
  unfold lineEnter
  repeat' first
    | with_reducible assumption
    | intro _
    | extract_lets
    | with_reducible apply kept_count
    | with_reducible apply kept_ite
    | split
    | with_reducible apply kept_with

theorem kept_lineEnd {s : State} (hs : Kept q p s) (a : Access) :
    Kept q p (lineEnd s a) := by
  unfold lineEnd
  repeat' first
    | with_reducible assumption
    | intro _
    | extract_lets
    | with_reducible apply kept_afterCol
    | with_reducible apply kept_ite
    | split
    | with_reducible apply kept_with

theorem kept_writeBacks {s : State} (hs : Kept q p s) (a : Access) (g : List Got) :
    Kept q p (writeBacks s a g) := by
  unfold writeBacks
  repeat' first
    | with_reducible assumption
    | intro _
    | with_reducible apply kept_lineWrAll
    | with_reducible apply kept_afterRead
    | with_reducible apply kept_ite

end Sys2Proof.Machine
end

