-- ==== Sys2Proof/Laws/KeptRegions.lean ====
section
/-! SUPPORT. What the operations of Machine/Regions.lean keep (Laws/Kept.lean). -/

namespace Sys2Proof.Machine

open Sys2Proof

variable {q : List Instr} {p : Part}

theorem kept_oweSweeps {s : State} (hs : Kept q p s) (r : Nat) :
    Kept q p (oweSweeps s r) := by
  unfold oweSweeps
  repeat' first
    | with_reducible assumption
    | intro _
    | with_reducible apply kept_with

theorem kept_noteCleared {s : State} (hs : Kept q p s) (r : Nat) :
    Kept q p (noteCleared s r) := by
  unfold noteCleared
  repeat' first
    | with_reducible assumption
    | intro _
    | with_reducible apply kept_setMode
    | with_reducible apply kept_ite
    | with_reducible apply kept_foldl

theorem kept_clearPoint {s : State} (hs : Kept q p s) (r : Nat) (m : Option (BitVec 2)) :
    Kept q p (clearPoint s r m) := by
  unfold clearPoint
  repeat' first
    | with_reducible assumption
    | intro _
    | extract_lets
    | with_reducible apply kept_noteCleared
    | with_reducible apply kept_setF
    | with_reducible apply kept_replaceWaiting
    | with_reducible apply kept_storeRegion
    | with_reducible apply kept_setDiverged
    | with_reducible apply kept_oweSweeps
    | with_reducible apply kept_ite
    | split
    | with_reducible apply kept_with

theorem kept_sendCtrl {s : State} (hs : Kept q p s) (sub : Nat) (r : Nat) (body : List (BitVec 16)) :
    Kept q p (sendCtrl s sub r body) := by
  unfold sendCtrl
  repeat' first
    | with_reducible assumption
    | intro _
    | with_reducible apply kept_sendSeq

theorem kept_sendClear {s : State} (hs : Kept q p s) (r : Nat) (m : Option (BitVec 2)) :
    Kept q p (sendClear s r m) := by
  unfold sendClear
  repeat' first
    | with_reducible assumption
    | intro _
    | with_reducible apply kept_sendCtrl

theorem kept_startPairClear {s : State} (hs : Kept q p s) (r : Nat) (m : Option (BitVec 2)) (c : Option Cmd) :
    Kept q p (startPairClear s r m c) := by
  unfold startPairClear
  repeat' first
    | with_reducible assumption
    | intro _
    | with_reducible apply kept_sendClear
    | with_reducible apply kept_with

theorem kept_modClear {s : State} (hs : Kept q p s) (r : Nat) (f : ClearCmd → ClearCmd) :
    Kept q p (modClear s r f) := by
  unfold modClear
  repeat' first
    | with_reducible assumption
    | intro _
    | split
    | with_reducible apply kept_with

theorem kept_settleClears {s : State} (hs : Kept q p s) :
    Kept q p (settleClears s) := by
  unfold settleClears
  repeat' first
    | with_reducible assumption
    | intro _
    | extract_lets
    | with_reducible apply kept_answerOpt
    | with_reducible apply kept_ite
    | with_reducible apply kept_foldl
    | with_reducible apply kept_foldl_fst
    | with_reducible apply kept_foldl_snd
    | split
    | with_reducible apply kept_with

theorem kept_startReinit {s : State} (hs : Kept q p s) (g : Nat) :
    Kept q p (startReinit s g) := by
  unfold startReinit
  repeat' first
    | with_reducible assumption
    | intro _
    | extract_lets
    | with_reducible apply kept_wakeTum
    | with_reducible apply kept_ite
    | with_reducible apply kept_foldUpTo
    | with_reducible apply kept_foldUpTo_fst
    | with_reducible apply kept_foldUpTo_snd
    | split
    | with_reducible apply kept_with

theorem kept_clearEffect {s : State} (hs : Kept q p s) (r : Nat) :
    Kept q p (clearEffect s r) := by
  unfold clearEffect
  repeat' first
    | with_reducible assumption
    | intro _
    | extract_lets
    | with_reducible apply kept_clearPoint
    | with_reducible apply kept_startReinit
    | with_reducible apply kept_modClear
    | with_reducible apply kept_settleClears
    | with_reducible apply kept_sendCtrl
    | with_reducible apply kept_ite
    | split

theorem kept_advanceClear {s : State} (hs : Kept q p s) (r : Nat) :
    Kept q p (advanceClear s r) := by
  unfold advanceClear
  repeat' first
    | with_reducible assumption
    | intro _
    | with_reducible apply kept_clearEffect
    | with_reducible apply kept_startPairClear
    | with_reducible apply kept_ite
    | split

theorem kept_startClears {s : State} (hs : Kept q p s) (c : Cmd) :
    Kept q p (startClears s c) := by
  unfold startClears
  repeat' first
    | with_reducible assumption
    | intro _
    | extract_lets
    | with_reducible apply kept_begin
    | with_reducible apply kept_sendClear
    | with_reducible apply kept_advanceClear
    | with_reducible apply kept_startReinit
    | with_reducible apply kept_ite
    | with_reducible apply kept_foldl
    | with_reducible apply kept_foldl_fst
    | with_reducible apply kept_foldl_snd
    | split
    | with_reducible apply kept_with

theorem kept_execRegionClear (c : Cmd) {s : State} (hs : Kept q p s) :
    KeptOut q p (execRegionClear c s) := by
  unfold execRegionClear
  repeat' first
    | with_reducible assumption
    | intro _
    | extract_lets
    | with_reducible apply keptOut_next
    | exact keptOut_fault _
    | with_reducible apply kept_runCmd
    | with_reducible apply kept_orFail
    | with_reducible apply kept_startClears

theorem kept_execRegionClearDone (r : BitVec 16) {s : State} (hs : Kept q p s) :
    KeptOut q p (execRegionClearDone r s) := by
  unfold execRegionClearDone
  repeat' first
    | with_reducible assumption
    | intro _
    | with_reducible apply keptOut_next
    | exact keptOut_fault _
    | with_reducible apply kept_settleClears
    | split
    | with_reducible apply kept_with

theorem kept_modSweep {s : State} (hs : Kept q p s) (i : Nat) (f : SweepT → SweepT) :
    Kept q p (modSweep s i f) := by
  unfold modSweep
  repeat' first
    | with_reducible assumption
    | intro _
    | with_reducible apply kept_with

theorem kept_execSweepStart (t : Tum) (r : BitVec 16) {s : State} (hs : Kept q p s) :
    KeptOut q p (execSweepStart t r s) := by
  unfold execSweepStart
  repeat' first
    | with_reducible assumption
    | intro _
    | with_reducible apply keptOut_next
    | exact keptOut_fault _
    | with_reducible apply kept_when
    | with_reducible apply kept_wakeTum
    | with_reducible apply kept_modSweep
    | with_reducible apply kept_when
    | split

theorem kept_sweepOne {s : State} (hs : Kept q p s) (t x r : Nat) (flips : List CodeWord) :
    Kept q p (sweepOne s t x r flips) := by
  unfold sweepOne
  extract_lets a cur read m s1 s2
  have hr : Kept q p read.1 := kept_lineRead (kept_lineEnter hs _) _ _ _
  have h1 : Kept q p s1 := kept_ite (kept_writeBacks hr _ _) (kept_lineStore (kept_afterRead hr _) _ _ _)
  have h2 : Kept q p s2 := kept_count (kept_lineEnd h1 _) _ _
  exact kept_ite h2 (kept_count h2 _ _)

theorem kept_sweepStep {s : State} (hs : Kept q p s) (i : Nat) (x : SweepT) (flips : List CodeWord) :
    Kept q p (sweepStep s i x flips) := by
  unfold sweepStep
  repeat' first
    | with_reducible assumption
    | intro _
    | with_reducible apply kept_when
    | with_reducible apply kept_modSweep
    | with_reducible apply kept_sweepOne
    | with_reducible apply kept_when
    | split

theorem kept_sweepGo {s : State} (hs : Kept q p s) (t : Nat) (r : Nat) (flips : List CodeWord) :
    Kept q p (sweepGo s t r flips) := by
  unfold sweepGo
  repeat' first
    | with_reducible assumption
    | intro _
    | with_reducible apply kept_when
    | with_reducible apply kept_sweepStep
    | with_reducible apply kept_wakeTum
    | with_reducible apply kept_when
    | with_reducible apply kept_ite
    | split

theorem kept_execSweepLine (t : Tum) (r : BitVec 16) (flips : List CodeWord) {s : State} (hs : Kept q p s) :
    KeptOut q p (execSweepLine t r flips s) := by
  unfold execSweepLine
  repeat' first
    | with_reducible assumption
    | intro _
    | with_reducible apply keptOut_next
    | exact keptOut_fault _
    | with_reducible apply kept_sweepGo

theorem kept_peerEffect {s : State} (hs : Kept q p s) (r : Nat) (m : BitVec 2) :
    Kept q p (peerEffect s r m) := by
  unfold peerEffect
  repeat' first
    | with_reducible assumption
    | intro _
    | with_reducible apply kept_sendCtrl
    | with_reducible apply kept_clearPoint

theorem kept_finishSweep {s : State} (hs : Kept q p s) (r : Nat) :
    Kept q p (finishSweep s r) := by
  unfold finishSweep
  repeat' first
    | with_reducible assumption
    | intro _
    | extract_lets
    | with_reducible apply kept_storeRegion
    | with_reducible apply kept_setF
    | with_reducible apply kept_oweSweeps
    | with_reducible apply kept_peerEffect
    | with_reducible apply kept_advanceClear
    | with_reducible apply kept_ite
    | split
    | with_reducible apply kept_with

theorem kept_sweepRest {s : State} (hs : Kept q p s) (r : Nat) :
    Kept q p (sweepRest s r) := by
  unfold sweepRest
  repeat' first
    | with_reducible assumption
    | intro _
    | with_reducible apply kept_sweepGo
    | with_reducible apply kept_ite
    | with_reducible apply kept_foldUpTo

theorem kept_execSweepFinish (r : BitVec 16) {s : State} (hs : Kept q p s) :
    KeptOut q p (execSweepFinish r s) := by
  unfold execSweepFinish
  repeat' first
    | with_reducible assumption
    | intro _
    | extract_lets
    | with_reducible apply keptOut_next
    | exact keptOut_fault _
    | with_reducible apply kept_sweepRest
    | with_reducible apply kept_when
    | with_reducible apply kept_finishSweep

theorem kept_initLine {s : State} (hs : Kept q p s) (t : Nat) :
    Kept q p (initLine s t) := by
  unfold initLine
  repeat' first
    | with_reducible assumption
    | intro _
    | extract_lets
    | with_reducible apply kept_lineEnd
    | with_reducible apply kept_lineStore
    | with_reducible apply kept_count
    | with_reducible apply kept_setMode

theorem kept_execInitialSweepLine (t : Tum) {s : State} (hs : Kept q p s) :
    KeptOut q p (execInitialSweepLine t s) := by
  unfold execInitialSweepLine
  repeat' first
    | with_reducible assumption
    | intro _
    | with_reducible apply keptOut_next
    | exact keptOut_fault _
    | with_reducible apply kept_when
    | with_reducible apply kept_initLine

theorem kept_releaseRegions {s : State} (hs : Kept q p s) :
    Kept q p (releaseRegions s) := by
  unfold releaseRegions
  repeat' first
    | with_reducible assumption
    | intro _
    | with_reducible apply kept_storeRegion
    | with_reducible apply kept_setF
    | with_reducible apply kept_ite
    | with_reducible apply kept_foldUpTo

theorem kept_initFinish {s : State} (hs : Kept q p s) (t : Nat) :
    Kept q p (initFinish s t) := by
  unfold initFinish
  repeat' first
    | with_reducible assumption
    | intro _
    | extract_lets
    | with_reducible apply kept_setMode
    | with_reducible apply kept_releaseRegions
    | with_reducible apply kept_ite
    | split
    | with_reducible apply kept_with

theorem kept_zeroLines {s : State} (hs : Kept q p s) (f : Nat → Nat → Bool) : Kept q p (zeroLines s f) := by
  unfold zeroLines
  extract_lets hit s2
  have h2 : Kept q p s2 := kept_dram hs (wf_tfilter _ _ _ hs.2.2.1)
  exact kept_foldUpTo _ _ (fun u t hu => kept_modTum hu _ _) h2

theorem kept_chargeLines {s : State} (hs : Kept q p s) (t : Nat) (n : Nat) :
    Kept q p (chargeLines s t n) := by
  unfold chargeLines
  repeat' first
    | with_reducible assumption
    | intro _
    | with_reducible apply kept_chargeMaster

theorem kept_initRest {s : State} (hs : Kept q p s) (t : Nat) :
    Kept q p (initRest s t) := by
  unfold initRest
  repeat' first
    | with_reducible assumption
    | intro _
    | extract_lets
    | with_reducible apply kept_count
    | with_reducible apply kept_chargeLines
    | with_reducible apply kept_zeroLines
    | with_reducible apply kept_setMode
    | with_reducible apply kept_ite

theorem kept_execInitialSweepFinish (t : Tum) {s : State} (hs : Kept q p s) :
    KeptOut q p (execInitialSweepFinish t s) := by
  unfold execInitialSweepFinish
  repeat' first
    | with_reducible assumption
    | intro _
    | with_reducible apply keptOut_next
    | exact keptOut_fault _
    | with_reducible apply kept_when
    | with_reducible apply kept_initFinish
    | with_reducible apply kept_initRest

theorem kept_finishReinit {s : State} (hs : Kept q p s) (x : Reinit) :
    Kept q p (finishReinit s x) := by
  unfold finishReinit
  repeat' first
    | with_reducible assumption
    | intro _
    | extract_lets
    | with_reducible apply kept_zeroLines
    | with_reducible apply kept_count
    | with_reducible apply kept_chargeLines
    | with_reducible apply kept_storeRegion
    | with_reducible apply kept_setF
    | with_reducible apply kept_modClear
    | with_reducible apply kept_sendCtrl
    | with_reducible apply kept_settleClears
    | with_reducible apply kept_ite
    | with_reducible apply kept_foldUpTo
    | with_reducible apply kept_foldUpTo_fst
    | with_reducible apply kept_foldUpTo_snd
    | with_reducible apply kept_foldl
    | with_reducible apply kept_foldl_fst
    | with_reducible apply kept_foldl_snd
    | split
    | with_reducible apply kept_with

theorem kept_execGroupReinitDone (g : BitVec 10) {s : State} (hs : Kept q p s) :
    KeptOut q p (execGroupReinitDone g s) := by
  unfold execGroupReinitDone
  repeat' first
    | with_reducible assumption
    | intro _
    | with_reducible apply keptOut_next
    | exact keptOut_fault _
    | with_reducible apply kept_when
    | with_reducible apply kept_finishReinit
    | with_reducible apply kept_when
    | split

end Sys2Proof.Machine
end

