-- ==== Sys2Proof/Laws/KeptPairRows.lean ====
section
/-! SUPPORT. What the operations of Machine/PairRows.lean keep (Laws/Kept.lean). -/

namespace Sys2Proof.Machine

open Sys2Proof

variable {q : List Instr} {p : Part}

theorem kept_pairEvt {s : State} (hs : Kept q p s) (i : Nat) :
    Kept q p (pairEvt s i) := by
  unfold pairEvt
  repeat' first
    | with_reducible assumption
    | intro _
    | with_reducible apply kept_setF
    | with_reducible apply kept_raise

theorem kept_answerFree {s : State} (hs : Kept q p s) (c : Option Cmd) :
    Kept q p (answerFree s c) := by
  unfold answerFree
  repeat' first
    | with_reducible assumption
    | intro _
    | extract_lets
    | with_reducible apply kept_fresh
    | with_reducible apply kept_answer
    | split

theorem kept_portToHost {s : State} (hs : Kept q p s) (p0 : PortN) (en : Bool) :
    Kept q p (portToHost s p0 en) := by
  unfold portToHost
  repeat' first
    | with_reducible assumption
    | intro _
    | extract_lets
    | with_reducible apply kept_portReset
    | with_reducible apply kept_setF
    | with_reducible apply kept_fromOff
    | with_reducible apply kept_ite

theorem kept_portToMirror {s : State} (hs : Kept q p s) (p0 : PortN) :
    Kept q p (portToMirror s p0) := by
  unfold portToMirror
  repeat' first
    | with_reducible assumption
    | intro _
    | extract_lets
    | with_reducible apply kept_portReset
    | with_reducible apply kept_setF
    | with_reducible apply kept_fromOff
    | with_reducible apply kept_ite

theorem kept_startForm {s : State} (hs : Kept q p s) (c : Cmd) :
    Kept q p (startForm s c) := by
  unfold startForm
  repeat' first
    | with_reducible assumption
    | intro _
    | extract_lets
    | with_reducible apply kept_begin
    | with_reducible apply kept_wr
    | with_reducible apply kept_portToMirror
    | with_reducible apply kept_ite
    | with_reducible apply kept_foldUpTo
    | with_reducible apply kept_foldUpTo_fst
    | with_reducible apply kept_foldUpTo_snd
    | with_reducible apply kept_foldl
    | with_reducible apply kept_foldl_fst
    | with_reducible apply kept_foldl_snd
    | split
    | with_reducible apply kept_with

theorem kept_execPairForm (c : Cmd) {s : State} (hs : Kept q p s) :
    KeptOut q p (execPairForm c s) := by
  unfold execPairForm
  repeat' first
    | with_reducible assumption
    | intro _
    | extract_lets
    | with_reducible apply keptOut_next
    | exact keptOut_fault _
    | with_reducible apply kept_runCmd
    | with_reducible apply kept_orFail
    | with_reducible apply kept_startForm

theorem kept_formFails {s : State} (hs : Kept q p s) (st : BitVec 16) :
    Kept q p (formFails s st) := by
  unfold formFails
  repeat' first
    | with_reducible assumption
    | intro _
    | extract_lets
    | with_reducible apply kept_wr
    | with_reducible apply kept_portToHost
    | with_reducible apply kept_answerOpt
    | with_reducible apply kept_ite
    | with_reducible apply kept_foldl
    | with_reducible apply kept_foldl_fst
    | with_reducible apply kept_foldl_snd
    | split
    | with_reducible apply kept_with

theorem kept_execPairFormTimeout {s : State} (hs : Kept q p s) :
    KeptOut q p (execPairFormTimeout s) := by
  unfold execPairFormTimeout
  repeat' first
    | with_reducible assumption
    | intro _
    | with_reducible apply keptOut_next
    | exact keptOut_fault _
    | with_reducible apply kept_when
    | with_reducible apply kept_formFails

theorem kept_takeMap {s : State} (hs : Kept q p s) :
    Kept q p (takeMap s) := by
  unfold takeMap
  repeat' first
    | with_reducible assumption
    | intro _
    | with_reducible apply kept_setF

theorem kept_resyncOver {s : State} (hs : Kept q p s) :
    Kept q p (resyncOver s) := by
  unfold resyncOver
  repeat' first
    | with_reducible assumption
    | intro _
    | extract_lets
    | with_reducible apply kept_answerOpt
    | with_reducible apply kept_pairEvt
    | with_reducible apply kept_ite
    | split
    | with_reducible apply kept_with

theorem kept_enterResync {s : State} (hs : Kept q p s) (source : Bool) (l : List Nat) :
    Kept q p (enterResync s source l) := by
  unfold enterResync
  repeat' first
    | with_reducible assumption
    | intro _
    | extract_lets
    | with_reducible apply kept_resyncOver
    | with_reducible apply kept_ite
    | split
    | with_reducible apply kept_with

theorem kept_formed {s : State} (hs : Kept q p s) :
    Kept q p (formed s) := by
  unfold formed
  repeat' first
    | with_reducible assumption
    | intro _
    | extract_lets
    | with_reducible apply kept_takeMap
    | with_reducible apply kept_enterResync
    | with_reducible apply kept_answerOpt
    | with_reducible apply kept_with

theorem kept_leavePair {s : State} (hs : Kept q p s) (c : Cmd) :
    Kept q p (leavePair s c) := by
  unfold leavePair
  repeat' first
    | with_reducible assumption
    | intro _
    | extract_lets
    | with_reducible apply kept_wr
    | with_reducible apply kept_setF
    | with_reducible apply kept_mramPut
    | with_reducible apply kept_portToHost
    | with_reducible apply kept_answer
    | with_reducible apply kept_ite
    | with_reducible apply kept_foldl
    | with_reducible apply kept_foldl_fst
    | with_reducible apply kept_foldl_snd
    | split
    | with_reducible apply kept_with

theorem kept_tryLeave {s : State} (hs : Kept q p s) :
    Kept q p (tryLeave s) := by
  unfold tryLeave
  repeat' first
    | with_reducible assumption
    | intro _
    | with_reducible apply kept_leavePair
    | with_reducible apply kept_ite
    | split

theorem kept_execPairLeave (c : Cmd) {s : State} (hs : Kept q p s) :
    KeptOut q p (execPairLeave c s) := by
  unfold execPairLeave
  repeat' first
    | with_reducible assumption
    | intro _
    | extract_lets
    | with_reducible apply keptOut_next
    | exact keptOut_fault _
    | with_reducible apply kept_runCmd
    | with_reducible apply kept_orFail
    | with_reducible apply kept_begin
    | with_reducible apply kept_tryLeave
    | with_reducible apply kept_orFail
    | with_reducible apply kept_with

theorem kept_sendMap {s : State} (hs : Kept q p s) (b : Nat) (l : List Nat) :
    Kept q p (sendMap s b l) := by
  unfold sendMap
  repeat' first
    | with_reducible assumption
    | intro _
    | with_reducible apply kept_sendSeq

theorem kept_tryRejoin {s : State} (hs : Kept q p s) :
    Kept q p (tryRejoin s) := by
  unfold tryRejoin
  repeat' first
    | with_reducible assumption
    | intro _
    | with_reducible apply kept_enterResync
    | with_reducible apply kept_ite
    | split

theorem kept_startRejoin {s : State} (hs : Kept q p s) (c : Cmd) :
    Kept q p (startRejoin s c) := by
  unfold startRejoin
  repeat' first
    | with_reducible assumption
    | intro _
    | extract_lets
    | with_reducible apply kept_begin
    | with_reducible apply kept_takeMap
    | with_reducible apply kept_tryRejoin
    | with_reducible apply kept_sendMap
    | with_reducible apply kept_foldl
    | with_reducible apply kept_foldl_fst
    | with_reducible apply kept_foldl_snd
    | with_reducible apply kept_with

theorem kept_startOne {s : State} (hs : Kept q p s) (c : Cmd) :
    Kept q p (startOne s c) := by
  unfold startOne
  repeat' first
    | with_reducible assumption
    | intro _
    | extract_lets
    | with_reducible apply kept_begin
    | with_reducible apply kept_sendMap
    | with_reducible apply kept_enterResync
    | with_reducible apply kept_ite
    | split
    | with_reducible apply kept_with

theorem kept_execPairResync (c : Cmd) {s : State} (hs : Kept q p s) :
    KeptOut q p (execPairResync c s) := by
  unfold execPairResync
  repeat' first
    | with_reducible assumption
    | intro _
    | with_reducible apply keptOut_next
    | exact keptOut_fault _
    | with_reducible apply keptOut_ite
    | with_reducible apply kept_runCmd
    | with_reducible apply kept_orFail
    | with_reducible apply kept_startOne
    | with_reducible apply kept_startRejoin
    | with_reducible apply kept_ite

theorem kept_setHome {s : State} (hs : Kept q p s) (r : Nat) (h : Nat) :
    Kept q p (setHome s r h) := by
  unfold setHome
  repeat' first
    | with_reducible assumption
    | intro _
    | extract_lets
    | with_reducible apply kept_storeRegion
    | with_reducible apply kept_setF

theorem kept_tryHome {s : State} (hs : Kept q p s) :
    Kept q p (tryHome s) := by
  unfold tryHome
  repeat' first
    | with_reducible assumption
    | intro _
    | extract_lets
    | with_reducible apply kept_sendCtrl
    | with_reducible apply kept_ite
    | with_reducible apply kept_foldl
    | with_reducible apply kept_foldl_fst
    | with_reducible apply kept_foldl_snd
    | split
    | with_reducible apply kept_with

theorem kept_homeSet {s : State} (hs : Kept q p s) (c : Cmd) :
    Kept q p (homeSet s c) := by
  unfold homeSet
  repeat' first
    | with_reducible assumption
    | intro _
    | extract_lets
    | with_reducible apply kept_orFail
    | with_reducible apply kept_answer
    | with_reducible apply kept_setHome
    | with_reducible apply kept_begin
    | with_reducible apply kept_tryHome
    | with_reducible apply kept_ite
    | split
    | with_reducible apply kept_with

theorem kept_execPairHomeSet (c : Cmd) {s : State} (hs : Kept q p s) :
    KeptOut q p (execPairHomeSet c s) := by
  unfold execPairHomeSet
  repeat' first
    | with_reducible assumption
    | intro _
    | with_reducible apply keptOut_next
    | exact keptOut_fault _
    | with_reducible apply kept_runCmd
    | with_reducible apply kept_homeSet

theorem kept_takePair {s : State} (hs : Kept q p s) (p0 : Nat) (ty : Nat) (k : PairPkt) :
    Kept q p (takePair s p0 ty k) := by
  unfold takePair
  repeat' first
    | with_reducible assumption
    | intro _
    | with_reducible apply kept_dropPkt
    | with_reducible apply kept_modPort

theorem kept_pairRow {s : State} (hs : Kept q p s) (n : PortN) (ty sub : Nat) (k : PairPkt) (may : State → Bool)
    (f : State → State) (hf : ∀ u, Kept q p u → Kept q p (f u)) : KeptOut q p (pairRow s n ty sub k may f) := by
  have ht := kept_takePair hs n ty k
  exact keptOut_next (kept_when _ hs (kept_ite (kept_badPair ht _) (kept_ite ht (kept_when _ hs (hf _ ht)))))

theorem kept_seqDone {s : State} (hs : Kept q p s) (p0 : Nat) (ty : Nat) (k : PairPkt) :
    Kept q p (seqDone s p0 ty k) := by
  unfold seqDone
  repeat' first
    | with_reducible assumption
    | intro _
    | with_reducible apply kept_ackHands
    | with_reducible apply kept_takeHand

theorem kept_ctrlRow {s : State} (hs : Kept q p s) (n : PortN) (sub : Nat) (k : PairPkt) (f : State → State)
    (hf : ∀ u, Kept q p u → Kept q p (f u)) : KeptOut q p (ctrlRow s n sub k f) :=
  kept_pairRow hs _ _ _ _ _ _ (fun _ hu => kept_seqDone (hf _ hu) _ _ _)

theorem kept_answerRow {s : State} (hs : Kept q p s) (n : PortN) (sub : Nat) (k : PairPkt) (f : State → State)
    (hf : ∀ u, Kept q p u → Kept q p (f u)) : KeptOut q p (answerRow s n sub k f) :=
  kept_pairRow hs _ _ _ _ _ _ (fun _ hu => kept_tryLeave (kept_seqDone (hf _ hu) _ _ _))

theorem kept_execFwd (p0 : PortN) (k : PairPkt) {s : State} (hs : Kept q p s) :
    KeptOut q p (execFwd p0 k s) := by
  unfold execFwd
  repeat' first
    | with_reducible assumption
    | intro _
    | extract_lets
    | with_reducible apply keptOut_next
    | exact keptOut_fault _
    | with_reducible apply kept_pairRow
    | with_reducible apply kept_takeHand
    | with_reducible apply kept_count
    | with_reducible apply kept_arrive

theorem kept_execReplica (p0 : PortN) (k : PairPkt) {s : State} (hs : Kept q p s) :
    KeptOut q p (execReplica p0 k s) := by
  unfold execReplica
  repeat' first
    | with_reducible assumption
    | intro _
    | extract_lets
    | with_reducible apply keptOut_next
    | exact keptOut_fault _
    | with_reducible apply keptOut_ite
    | with_reducible apply kept_pairRow
    | with_reducible apply kept_takeHand
    | with_reducible apply kept_count
    | with_reducible apply kept_replicaDone
    | with_reducible apply kept_arrive
    | with_reducible apply kept_ite

theorem kept_heldDone {s : State} (hs : Kept q p s) (h : HeldPkt) :
    Kept q p (heldDone s h) := by
  unfold heldDone
  repeat' first
    | with_reducible assumption
    | intro _
    | with_reducible apply kept_complete
    | split

theorem kept_ackEffects {s : State} (hs : Kept q p s) :
    Kept q p (ackEffects s) := by
  unfold ackEffects
  repeat' first
    | with_reducible assumption
    | intro _
    | with_reducible apply kept_tryLeave
    | with_reducible apply kept_tryHome
    | with_reducible apply kept_pump

theorem kept_freeHeld {s : State} (hs : Kept q p s) (f : HeldPkt → Bool) :
    Kept q p (freeHeld s f) := by
  unfold freeHeld
  repeat' first
    | with_reducible assumption
    | intro _
    | extract_lets
    | with_reducible apply kept_heldDone
    | with_reducible apply kept_foldl
    | with_reducible apply kept_foldl_fst
    | with_reducible apply kept_foldl_snd
    | with_reducible apply kept_with

theorem kept_execPairAck (p0 : PortN) (k : PairPkt) {s : State} (hs : Kept q p s) :
    KeptOut q p (execPairAck p0 k s) := by
  unfold execPairAck
  repeat' first
    | with_reducible assumption
    | intro _
    | with_reducible apply keptOut_next
    | exact keptOut_fault _
    | with_reducible apply kept_pairRow
    | with_reducible apply kept_ackEffects
    | with_reducible apply kept_freeHeld

theorem kept_redoForwards {s : State} (hs : Kept q p s) :
    Kept q p (redoForwards s) := by
  unfold redoForwards
  repeat' first
    | with_reducible assumption
    | intro _
    | with_reducible apply kept_with

theorem kept_freeUnacked {s : State} (hs : Kept q p s) :
    Kept q p (freeUnacked s) := by
  unfold freeUnacked
  repeat' first
    | with_reducible assumption
    | intro _
    | extract_lets
    | with_reducible apply kept_heldDone
    | with_reducible apply kept_setDiverged
    | with_reducible apply kept_ite
    | with_reducible apply kept_foldl
    | with_reducible apply kept_foldl_fst
    | with_reducible apply kept_foldl_snd
    | split
    | with_reducible apply kept_with

theorem kept_clearsAlone {s : State} (hs : Kept q p s) :
    Kept q p (clearsAlone s) := by
  unfold clearsAlone
  repeat' first
    | with_reducible assumption
    | intro _
    | extract_lets
    | with_reducible apply kept_clearEffect
    | with_reducible apply kept_advanceClear
    | with_reducible apply kept_foldl
    | with_reducible apply kept_foldl_fst
    | with_reducible apply kept_foldl_snd
    | with_reducible apply kept_with

theorem kept_pairCmdsEnd {s : State} (hs : Kept q p s) :
    Kept q p (pairCmdsEnd s) := by
  unfold pairCmdsEnd
  repeat' first
    | with_reducible assumption
    | intro _
    | extract_lets
    | with_reducible apply kept_answerFree
    | with_reducible apply kept_foldl
    | with_reducible apply kept_foldl_fst
    | with_reducible apply kept_foldl_snd
    | with_reducible apply kept_with

theorem kept_partnerLost {s : State} (hs : Kept q p s) :
    Kept q p (partnerLost s) := by
  unfold partnerLost
  repeat' first
    | with_reducible assumption
    | intro _
    | extract_lets
    | with_reducible apply kept_count
    | with_reducible apply kept_pairEvt
    | with_reducible apply kept_setDiverged
    | with_reducible apply kept_tryLeave
    | with_reducible apply kept_pairCmdsEnd
    | with_reducible apply kept_clearsAlone
    | with_reducible apply kept_redoForwards
    | with_reducible apply kept_freeUnacked
    | with_reducible apply kept_ite
    | with_reducible apply kept_foldl
    | with_reducible apply kept_foldl_fst
    | with_reducible apply kept_foldl_snd
    | split
    | with_reducible apply kept_with

theorem kept_helloIn {s : State} (hs : Kept q p s) (k : PairPkt) :
    Kept q p (helloIn s k) := by
  unfold helloIn
  repeat' first
    | with_reducible assumption
    | intro _
    | with_reducible apply kept_formed
    | with_reducible apply kept_formFails
    | with_reducible apply kept_partnerLost
    | with_reducible apply kept_pairEvt
    | with_reducible apply kept_ite

theorem kept_execHello (p0 : PortN) (k : PairPkt) {s : State} (hs : Kept q p s) :
    KeptOut q p (execHello p0 k s) := by
  unfold execHello
  repeat' first
    | with_reducible assumption
    | intro _
    | with_reducible apply keptOut_next
    | exact keptOut_fault _
    | with_reducible apply kept_pairRow
    | with_reducible apply kept_helloIn

theorem kept_heartbeat {s : State} (hs : Kept q p s) :
    Kept q p (heartbeat s) := by
  unfold heartbeat
  repeat' first
    | with_reducible assumption
    | intro _
    | extract_lets
    | with_reducible apply kept_sendPair
    | with_reducible apply kept_ite
    | with_reducible apply kept_foldl
    | with_reducible apply kept_foldl_fst
    | with_reducible apply kept_foldl_snd
    | split
    | with_reducible apply kept_with

theorem kept_execHelloHeartbeat {s : State} (hs : Kept q p s) :
    KeptOut q p (execHelloHeartbeat s) := by
  unfold execHelloHeartbeat
  repeat' first
    | with_reducible assumption
    | intro _
    | with_reducible apply keptOut_next
    | exact keptOut_fault _
    | with_reducible apply kept_when
    | with_reducible apply kept_heartbeat

theorem kept_execPartnerLossTimeout {s : State} (hs : Kept q p s) :
    KeptOut q p (execPartnerLossTimeout s) := by
  unfold execPartnerLossTimeout
  repeat' first
    | with_reducible assumption
    | intro _
    | with_reducible apply keptOut_next
    | exact keptOut_fault _
    | with_reducible apply kept_when
    | with_reducible apply kept_partnerLost

theorem kept_sendOn {s : State} (hs : Kept q p s) (p0 : Nat) (ty : Nat) (k : PairPkt) :
    Kept q p (sendOn s p0 ty k) := by
  unfold sendOn
  repeat' first
    | with_reducible assumption
    | intro _
    | extract_lets
    | with_reducible apply kept_sendPair
    | with_reducible apply kept_with

theorem kept_mapChanged {s : State} (hs : Kept q p s) :
    Kept q p (mapChanged s) := by
  unfold mapChanged
  repeat' first
    | with_reducible assumption
    | intro _
    | with_reducible apply kept_count
    | with_reducible apply kept_pairEvt

theorem kept_portLost {s : State} (hs : Kept q p s) (p0 : Nat) :
    Kept q p (portLost s p0) := by
  unfold portLost
  repeat' first
    | with_reducible assumption
    | intro _
    | extract_lets
    | with_reducible apply kept_mapChanged
    | with_reducible apply kept_takeMap
    | with_reducible apply kept_partnerLost
    | with_reducible apply kept_sendOn
    | with_reducible apply kept_ite
    | with_reducible apply kept_foldl
    | with_reducible apply kept_foldl_fst
    | with_reducible apply kept_foldl_snd
    | split
    | with_reducible apply kept_with

theorem kept_execMirrorPortLoss (p0 : PortN) {s : State} (hs : Kept q p s) :
    KeptOut q p (execMirrorPortLoss p0 s) := by
  unfold execMirrorPortLoss
  repeat' first
    | with_reducible assumption
    | intro _
    | with_reducible apply keptOut_next
    | exact keptOut_fault _
    | with_reducible apply kept_when
    | with_reducible apply kept_portLost

theorem kept_portmapIn {s : State} (hs : Kept q p s) (k : PairPkt) :
    Kept q p (portmapIn s k) := by
  unfold portmapIn
  repeat' first
    | with_reducible assumption
    | intro _
    | extract_lets
    | with_reducible apply kept_mapChanged
    | with_reducible apply kept_takeMap
    | with_reducible apply kept_sendOn
    | with_reducible apply kept_foldl
    | with_reducible apply kept_foldl_fst
    | with_reducible apply kept_foldl_snd
    | with_reducible apply kept_with

theorem kept_execPortmap (p0 : PortN) (k : PairPkt) {s : State} (hs : Kept q p s) :
    KeptOut q p (execPortmap p0 k s) := by
  unfold execPortmap
  repeat' first
    | with_reducible assumption
    | intro _
    | with_reducible apply keptOut_next
    | exact keptOut_fault _
    | with_reducible apply kept_pairRow
    | with_reducible apply kept_seqDone
    | with_reducible apply kept_portmapIn

theorem kept_portmapAckIn {s : State} (hs : Kept q p s) (k : PairPkt) :
    Kept q p (portmapAckIn s k) := by
  unfold portmapAckIn
  repeat' first
    | with_reducible assumption
    | intro _
    | extract_lets
    | with_reducible apply kept_freeHeld
    | with_reducible apply kept_ackEffects
    | with_reducible apply kept_ite
    | split
    | with_reducible apply kept_with

theorem kept_execPortmapAck (p0 : PortN) (k : PairPkt) {s : State} (hs : Kept q p s) :
    KeptOut q p (execPortmapAck p0 k s) := by
  unfold execPortmapAck
  repeat' first
    | with_reducible assumption
    | intro _
    | with_reducible apply keptOut_next
    | exact keptOut_fault _
    | with_reducible apply kept_ctrlRow
    | with_reducible apply kept_portmapAckIn

theorem kept_sendReject {s : State} (hs : Kept q p s) (p0 : Nat) (r : Nat) :
    Kept q p (sendReject s p0 r) := by
  unfold sendReject
  repeat' first
    | with_reducible assumption
    | intro _
    | with_reducible apply kept_sendPair

theorem kept_clearAsked {s : State} (hs : Kept q p s) (p0 : Nat) (r : Nat) (m : BitVec 2) :
    Kept q p (clearAsked s p0 r m) := by
  unfold clearAsked
  repeat' first
    | with_reducible assumption
    | intro _
    | extract_lets
    | with_reducible apply kept_sendReject
    | with_reducible apply kept_startReinit
    | with_reducible apply kept_advanceClear
    | with_reducible apply kept_ite
    | split
    | with_reducible apply kept_with

theorem kept_clearOrdered {s : State} (hs : Kept q p s) (p0 : Nat) (r : Nat) (m : BitVec 2) :
    Kept q p (clearOrdered s p0 r m) := by
  unfold clearOrdered
  repeat' first
    | with_reducible assumption
    | intro _
    | extract_lets
    | with_reducible apply kept_sendReject
    | with_reducible apply kept_peerEffect
    | with_reducible apply kept_startReinit
    | with_reducible apply kept_ite
    | split
    | with_reducible apply kept_with

theorem kept_execClear (p0 : PortN) (k : PairPkt) {s : State} (hs : Kept q p s) :
    KeptOut q p (execClear p0 k s) := by
  unfold execClear
  repeat' first
    | with_reducible assumption
    | intro _
    | extract_lets
    | with_reducible apply keptOut_next
    | exact keptOut_fault _
    | with_reducible apply keptOut_ite
    | with_reducible apply kept_pairRow
    | with_reducible apply kept_seqDone
    | with_reducible apply kept_clearAsked
    | with_reducible apply kept_clearOrdered
    | with_reducible apply kept_ite

theorem kept_clearAckIn {s : State} (hs : Kept q p s) (r : Nat) :
    Kept q p (clearAckIn s r) := by
  unfold clearAckIn
  repeat' first
    | with_reducible assumption
    | intro _
    | with_reducible apply kept_clearEffect
    | with_reducible apply kept_modClear
    | with_reducible apply kept_ite
    | split
    | with_reducible apply kept_with

theorem kept_execClearAck (p0 : PortN) (k : PairPkt) {s : State} (hs : Kept q p s) :
    KeptOut q p (execClearAck p0 k s) := by
  unfold execClearAck
  repeat' first
    | with_reducible assumption
    | intro _
    | with_reducible apply keptOut_next
    | exact keptOut_fault _
    | with_reducible apply kept_answerRow
    | with_reducible apply kept_clearAckIn

theorem kept_clearRejected {s : State} (hs : Kept q p s) (r : Nat) :
    Kept q p (clearRejected s r) := by
  unfold clearRejected
  repeat' first
    | with_reducible assumption
    | intro _
    | extract_lets
    | with_reducible apply kept_modClear
    | with_reducible apply kept_settleClears
    | with_reducible apply kept_sendReject
    | with_reducible apply kept_ite
    | split
    | with_reducible apply kept_with

theorem kept_rejectIn {s : State} (hs : Kept q p s) (k : PairPkt) :
    Kept q p (rejectIn s k) := by
  unfold rejectIn
  repeat' first
    | with_reducible assumption
    | intro _
    | extract_lets
    | with_reducible apply kept_count
    | with_reducible apply kept_setDiverged
    | with_reducible apply kept_clearRejected
    | with_reducible apply kept_ite
    | split

theorem kept_execResultReject (p0 : PortN) (k : PairPkt) {s : State} (hs : Kept q p s) :
    KeptOut q p (execResultReject p0 k s) := by
  unfold execResultReject
  repeat' first
    | with_reducible assumption
    | intro _
    | with_reducible apply keptOut_next
    | exact keptOut_fault _
    | with_reducible apply kept_pairRow
    | with_reducible apply kept_tryLeave
    | with_reducible apply kept_rejectIn

theorem kept_execResultReadData (p0 : PortN) (k : PairPkt) {s : State} (hs : Kept q p s) :
    KeptOut q p (execResultReadData p0 k s) := by
  unfold execResultReadData
  repeat' first
    | with_reducible assumption
    | intro _
    | extract_lets
    | with_reducible apply keptOut_next
    | exact keptOut_fault _
    | with_reducible apply keptOut_ite
    | with_reducible apply kept_pairRow
    | with_reducible apply kept_fwdDone

theorem kept_execHome (p0 : PortN) (k : PairPkt) {s : State} (hs : Kept q p s) :
    KeptOut q p (execHome p0 k s) := by
  unfold execHome
  repeat' first
    | with_reducible assumption
    | intro _
    | extract_lets
    | with_reducible apply keptOut_next
    | exact keptOut_fault _
    | with_reducible apply keptOut_ite
    | with_reducible apply kept_pairRow
    | with_reducible apply kept_seqDone
    | with_reducible apply kept_sendCtrl
    | with_reducible apply kept_setHome
    | with_reducible apply kept_ite

theorem kept_homeAcked {s : State} (hs : Kept q p s) (r : Nat) :
    Kept q p (homeAcked s r) := by
  unfold homeAcked
  repeat' first
    | with_reducible assumption
    | intro _
    | extract_lets
    | with_reducible apply kept_answer
    | with_reducible apply kept_setHome
    | split
    | with_reducible apply kept_with

theorem kept_execHomeAck (p0 : PortN) (k : PairPkt) {s : State} (hs : Kept q p s) :
    KeptOut q p (execHomeAck p0 k s) := by
  unfold execHomeAck
  repeat' first
    | with_reducible assumption
    | intro _
    | with_reducible apply keptOut_next
    | exact keptOut_fault _
    | with_reducible apply kept_answerRow
    | with_reducible apply kept_homeAcked

theorem kept_execFence (p0 : PortN) (k : PairPkt) {s : State} (hs : Kept q p s) :
    KeptOut q p (execFence p0 k s) := by
  unfold execFence
  repeat' first
    | with_reducible assumption
    | intro _
    | with_reducible apply keptOut_next
    | exact keptOut_fault _
    | with_reducible apply kept_ctrlRow
    | with_reducible apply kept_with

theorem kept_divergeTums {s : State} (hs : Kept q p s) (m : Nat) :
    Kept q p (divergeTums s m) := by
  unfold divergeTums
  repeat' first
    | with_reducible assumption
    | intro _
    | with_reducible apply kept_setDiverged
    | with_reducible apply kept_ite
    | with_reducible apply kept_foldUpTo

theorem kept_unfenceIn {s : State} (hs : Kept q p s) (m : Nat) (again : Bool) :
    Kept q p (unfenceIn s m again) := by
  unfold unfenceIn
  repeat' first
    | with_reducible assumption
    | intro _
    | extract_lets
    | with_reducible apply kept_divergeTums
    | with_reducible apply kept_sendMap
    | with_reducible apply kept_enterResync
    | with_reducible apply kept_ite
    | with_reducible apply kept_foldl
    | with_reducible apply kept_foldl_fst
    | with_reducible apply kept_foldl_snd
    | split
    | with_reducible apply kept_with

theorem kept_execUnfence (p0 : PortN) (k : PairPkt) {s : State} (hs : Kept q p s) :
    KeptOut q p (execUnfence p0 k s) := by
  unfold execUnfence
  repeat' first
    | with_reducible assumption
    | intro _
    | with_reducible apply keptOut_next
    | exact keptOut_fault _
    | with_reducible apply kept_ctrlRow
    | with_reducible apply kept_unfenceIn

theorem kept_mapIn {s : State} (hs : Kept q p s) (k : PairPkt) :
    Kept q p (mapIn s k) := by
  unfold mapIn
  repeat' first
    | with_reducible assumption
    | intro _
    | extract_lets
    | with_reducible apply kept_enterResync
    | with_reducible apply kept_tryRejoin
    | with_reducible apply kept_ite
    | split
    | with_reducible apply kept_with

theorem kept_execMap (p0 : PortN) (k : PairPkt) {s : State} (hs : Kept q p s) :
    KeptOut q p (execMap p0 k s) := by
  unfold execMap
  repeat' first
    | with_reducible assumption
    | intro _
    | with_reducible apply keptOut_next
    | exact keptOut_fault _
    | with_reducible apply kept_ctrlRow
    | with_reducible apply kept_mapIn

theorem kept_regionCopied {s : State} (hs : Kept q p s) (r : Nat) :
    Kept q p (regionCopied s r) := by
  unfold regionCopied
  repeat' first
    | with_reducible assumption
    | intro _
    | extract_lets
    | with_reducible apply kept_clearDiverged
    | with_reducible apply kept_resyncOver
    | with_reducible apply kept_ite
    | split
    | with_reducible apply kept_with

theorem kept_execResyncDone (p0 : PortN) (k : PairPkt) {s : State} (hs : Kept q p s) :
    KeptOut q p (execResyncDone p0 k s) := by
  unfold execResyncDone
  repeat' first
    | with_reducible assumption
    | intro _
    | with_reducible apply keptOut_next
    | exact keptOut_fault _
    | with_reducible apply kept_pairRow
    | with_reducible apply kept_seqDone
    | with_reducible apply kept_regionCopied

theorem kept_copyLine {s : State} (hs : Kept q p s) (r t x : Nat) (flips : List CodeWord) :
    Kept q p (copyLine s r t x flips) := by
  have hr := kept_lineRead (kept_lineEnter hs (resyncAccess s t x false)) (resyncAccess s t x false) (rgnEpoch s r) flips
  revert hr
  unfold copyLine
  dsimp only
  generalize lineRead (lineEnter s (resyncAccess s t x false)) (resyncAccess s t x false) (rgnEpoch s r) flips = read
  intro hr
  refine kept_sendSeq (kept_count ?_ _ _) _ _ _ _
  exact kept_of (kept_lineEnd (kept_writeBacks hr _ _) _) rfl rfl rfl rfl rfl

theorem kept_copyEnd {s : State} (hs : Kept q p s) (r : Nat) :
    Kept q p (copyEnd s r) := by
  unfold copyEnd
  repeat' first
    | with_reducible assumption
    | intro _
    | extract_lets
    | with_reducible apply kept_sendCtrl
    | with_reducible apply kept_regionCopied
    | with_reducible apply kept_count
    | with_reducible apply kept_ite
    | split
    | with_reducible apply kept_with

theorem kept_copyStep {s : State} (hs : Kept q p s) (t : Nat) (flips : List CodeWord) :
    Kept q p (copyStep s t flips) := by
  unfold copyStep
  repeat' first
    | with_reducible assumption
    | intro _
    | with_reducible apply kept_copyEnd
    | with_reducible apply kept_wakeTum
    | with_reducible apply kept_copyLine
    | with_reducible apply kept_ite
    | split
    | with_reducible apply kept_with

theorem kept_execResyncCopyLine (t : Tum) (flips : List CodeWord) {s : State} (hs : Kept q p s) :
    KeptOut q p (execResyncCopyLine t flips s) := by
  unfold execResyncCopyLine
  repeat' first
    | with_reducible assumption
    | intro _
    | with_reducible apply keptOut_next
    | exact keptOut_fault _
    | with_reducible apply kept_when
    | with_reducible apply kept_copyStep

theorem kept_storeCopy {s : State} (hs : Kept q p s) (t : Nat) (x : Nat) (r : Nat) (k : PairPkt) :
    Kept q p (storeCopy s t x r k) := by
  unfold storeCopy
  repeat' first
    | with_reducible assumption
    | intro _
    | extract_lets
    | with_reducible apply kept_lineEnd
    | with_reducible apply kept_lineStore
    | with_reducible apply kept_lineEnter

theorem kept_resyncLineIn {s : State} (hs : Kept q p s) (p0 : Nat) (k : PairPkt) :
    Kept q p (resyncLineIn s p0 k) := by
  unfold resyncLineIn
  repeat' first
    | with_reducible assumption
    | intro _
    | extract_lets
    | with_reducible apply kept_count
    | with_reducible apply kept_sendPair
    | with_reducible apply kept_storeCopy
    | with_reducible apply kept_ite

theorem kept_execResyncLine (p0 : PortN) (k : PairPkt) {s : State} (hs : Kept q p s) :
    KeptOut q p (execResyncLine p0 k s) := by
  unfold execResyncLine
  repeat' first
    | with_reducible assumption
    | intro _
    | with_reducible apply keptOut_next
    | exact keptOut_fault _
    | with_reducible apply keptOut_ite
    | with_reducible apply kept_wakeTum
    | with_reducible apply kept_pairRow
    | with_reducible apply kept_seqDone
    | with_reducible apply kept_resyncLineIn

theorem kept_commitDiverged {s : State} (hs : Kept q p s) (ok : Bool) :
    Kept q p (commitDiverged s ok) := by
  unfold commitDiverged
  repeat' first
    | with_reducible assumption
    | intro _
    | extract_lets
    | with_reducible apply kept_mramPut
    | with_reducible apply kept_mramStore
    | with_reducible apply kept_fault
    | with_reducible apply kept_ite
    | with_reducible apply kept_foldl
    | with_reducible apply kept_foldl_fst
    | with_reducible apply kept_foldl_snd
    | split
    | with_reducible apply kept_with

theorem kept_execDivergedCommit (ok : Bool) {s : State} (hs : Kept q p s) :
    KeptOut q p (execDivergedCommit ok s) := by
  unfold execDivergedCommit
  repeat' first
    | with_reducible assumption
    | intro _
    | with_reducible apply keptOut_next
    | exact keptOut_fault _
    | with_reducible apply kept_when
    | with_reducible apply kept_commitDiverged

end Sys2Proof.Machine
end

