-- ==== Sys2Proof/Laws/KeptRepair.lean ====
section
/-! SUPPORT. What the operations of Machine/Repair.lean keep (Laws/Kept.lean). -/

namespace Sys2Proof.Machine

open Sys2Proof

variable {q : List Instr} {p : Part}

theorem kept_scrubLine {s : State} (hs : Kept q p s) (t x : Nat) (l : Loc) (flips : List CodeWord) :
    Kept q p (scrubLine s t x l flips) :=
  kept_count (kept_writeBacks (kept_lineRead (kept_lineEnter hs _) _ _ _) _ _) _ _

theorem kept_scrubLines16 {s : State} (hs : Kept q p s) (t : Nat) (n : Nat) (k : Nat) (f : Nat → Loc) (flips : List CodeWord) :
    Kept q p (scrubLines16 s t n k f flips) := by
  unfold scrubLines16
  repeat' first
    | with_reducible assumption
    | intro _
    | extract_lets
    | with_reducible apply kept_scrubLine
    | with_reducible apply kept_lineEnd
    | with_reducible apply kept_foldUpTo

theorem kept_scrubTarget {s : State} (hs : Kept q p s) (t : Nat) (l : Nat) (k : Nat) (flips : List CodeWord) :
    Kept q p (scrubTarget s t l k flips) := by
  unfold scrubTarget
  repeat' first
    | with_reducible assumption
    | intro _
    | with_reducible apply kept_scrubLines16
    | with_reducible apply kept_ite
    | split

theorem kept_scrubRow {s : State} (hs : Kept q p s) (t : Nat) (l : Nat) (k : Nat) (flips : List CodeWord) :
    Kept q p (scrubRow s t l k flips) := by
  unfold scrubRow
  repeat' first
    | with_reducible assumption
    | intro _
    | extract_lets
    | with_reducible apply kept_scrubLines16
    | with_reducible apply kept_scrubTarget
    | with_reducible apply kept_setF
    | with_reducible apply kept_ite

theorem kept_execPatrolScrubRow (t : Tum) (flips : List CodeWord) {s : State} (hs : Kept q p s) :
    KeptOut q p (execPatrolScrubRow t flips s) := by
  unfold execPatrolScrubRow
  repeat' first
    | with_reducible assumption
    | intro _
    | with_reducible apply keptOut_next
    | exact keptOut_fault _
    | with_reducible apply keptOut_ite
    | with_reducible apply kept_when
    | with_reducible apply kept_scrubRow
    | with_reducible apply kept_wakeTum
    | with_reducible apply kept_when
    | with_reducible apply kept_ite
    | split

theorem kept_putEntry {s : State} (hs : Kept q p s) (i : Nat) (t : Nat) (l : Nat) (g : Nat) (b : Nat) (row : Nat) (spare : Nat) (st : Nat) :
    Kept q p (putEntry s i t l g b row spare st) := by
  unfold putEntry
  repeat' first
    | with_reducible assumption
    | intro _
    | extract_lets
    | with_reducible apply kept_wr

theorem kept_execRemapRow (c : Cmd) {s : State} (hs : Kept q p s) :
    KeptOut q p (execRemapRow c s) := by
  unfold execRemapRow
  repeat' first
    | with_reducible assumption
    | intro _
    | extract_lets
    | with_reducible apply keptOut_next
    | exact keptOut_fault _
    | with_reducible apply kept_runCmd
    | with_reducible apply kept_orFail
    | with_reducible apply kept_wakeTum
    | with_reducible apply kept_putEntry
    | with_reducible apply kept_begin

theorem kept_readRow {s : State} (hs : Kept q p s) (t x0 : Nat) (a : Loc) (flips : List CodeWord) :
    Kept q p (readRow s t x0 a flips).1 := by
  delta readRow
  generalize 16 = n
  refine kept_foldUpTo_fst n _ (fun u c hu => ?_) (u := (s, [])) hs
  dsimp only
  have h1 := kept_colNext (kept_openLine hu (remapAccess u.1 t (x0 + 8 * c) a) a) (remapAccess u.1 t (x0 + 8 * c) a) a false
  exact kept_decodeLine h1 _ _ _ _ _ _

theorem kept_copyRow {s : State} (hs : Kept q p s) (t x0 : Nat) (a b : Loc) (flips : List CodeWord) :
    Kept q p (copyRow s t x0 a b flips) := by
  unfold copyRow
  extract_lets row s1 s2 s3 s4
  have h1 : Kept q p s1 := kept_readRow hs t x0 a flips
  clear_value s1 row
  have h2 : Kept q p s2 := kept_afterCol (kept_goTo h1 _ _) _ _ _
  clear_value s2
  have h3 : Kept q p s3 := kept_foldl _ (fun u e hu => kept_foldl _ (fun v g hv => kept_putWord hv _ _ _ _ _) _
    (kept_colNext (kept_openLine hu _ _) _ _ _)) _ h2
  clear_value s3
  have h4 : Kept q p s4 := kept_afterCol h3 _ _ _
  exact kept_with h4 _ _ _ _ _ _ _ _ _ _ _ _ _ _ _ _ _ _ _ _ _ _ _ _ _ _ _ _ _ _ _ _ _ _ _ _ _

theorem kept_dropRowCwc {s : State} (hs : Kept q p s) (t : Nat) (l : Loc) :
    Kept q p (dropRowCwc s t l) := by
  unfold dropRowCwc
  repeat' first
    | with_reducible assumption
    | intro _
    | extract_lets
    | with_reducible apply kept_modTum

theorem kept_remapEnd {s : State} (hs : Kept q p s) (i t : Nat) (src : Loc) (old : Option Nat) (c : Option Cmd)
    (stored : Bool) : Kept q p (remapEnd s i t src old c stored) := by
  unfold remapEnd
  split
  · extract_lets s1 s2
    have h1 : Kept q p s1 := by
      unfold s1
      split
      · exact kept_storeRemap (kept_setF hs _ _ _ _) _
      · exact hs
    exact kept_answerOpt (kept_count (kept_dropRowCwc (kept_setF h1 _ _ _ _) _ _) _ _) _ _
  · exact kept_answerOpt (kept_wr (kept_wr hs _ _) _ _) _ _

theorem kept_remapDone {s : State} (hs : Kept q p s) (i : Nat) (flips : List CodeWord) (ok : Bool) :
    Kept q p (remapDone s i flips ok) := by
  unfold remapDone
  dsimp only
  exact kept_remapEnd (kept_mramStore (kept_copyRow hs _ _ _ _ _) _ _ _) _ _ _ _ _ _

theorem kept_execRemapCopyDone (i : BitVec 15) (flips : List CodeWord) (mramOk : Bool) {s : State} (hs : Kept q p s) :
    KeptOut q p (execRemapCopyDone i flips mramOk s) := by
  unfold execRemapCopyDone
  repeat' first
    | with_reducible assumption
    | intro _
    | extract_lets
    | with_reducible apply keptOut_next
    | exact keptOut_fault _
    | with_reducible apply keptOut_ite
    | with_reducible apply kept_when
    | with_reducible apply kept_remapDone
    | with_reducible apply kept_wakeTum
    | with_reducible apply kept_when
    | with_reducible apply kept_ite

theorem kept_setSwapState {s : State} (hs : Kept q p s) (t : Nat) (v : Nat) :
    Kept q p (setSwapState s t v) := by
  unfold setSwapState
  repeat' first
    | with_reducible assumption
    | intro _
    | with_reducible apply kept_setF

theorem kept_startSwap {s : State} (hs : Kept q p s) (c : Cmd) (t : Nat) :
    Kept q p (startSwap s c t) := by
  unfold startSwap
  repeat' first
    | with_reducible assumption
    | intro _
    | extract_lets
    | with_reducible apply kept_startSlice
    | with_reducible apply kept_setRole
    | with_reducible apply kept_wr
    | with_reducible apply kept_setF
    | with_reducible apply kept_modTum

theorem kept_execLeafSwap (c : Cmd) {s : State} (hs : Kept q p s) :
    KeptOut q p (execLeafSwap c s) := by
  unfold execLeafSwap
  repeat' first
    | with_reducible assumption
    | intro _
    | extract_lets
    | with_reducible apply keptOut_next
    | exact keptOut_fault _
    | with_reducible apply keptOut_ite
    | with_reducible apply kept_runCmd
    | with_reducible apply kept_orFail
    | with_reducible apply kept_answer
    | with_reducible apply kept_startSwap
    | with_reducible apply kept_begin
    | with_reducible apply kept_ite
    | with_reducible apply kept_foldl

theorem kept_swapLine {s : State} (hs : Kept q p s) (t : Nat) (w : Swap) (flips : List CodeWord) :
    Kept q p (swapLine s t w flips) := by
  unfold swapLine
  extract_lets x a b read s1 s2 s3 s4 s5
  have hr : Kept q p read.1 := kept_lineRead (kept_lineEnter hs _) _ _ _
  have h1 : Kept q p s1 := kept_lineEnd (kept_writeBacks hr _ _) _
  have h2 : Kept q p s2 := kept_afterCol (kept_lineWr (kept_afterRead h1 _) _ _) _ _ _
  have h3 : Kept q p s3 := kept_foldl _ (fun u e hu => kept_putWord hu _ _ _ _ _) _ h2
  have h5 : Kept q p s5 := kept_modTum (kept_setF h3 _ _ _ _) _ _
  exact kept_count (kept_chargeMaster h5 _ _ _) _ _

theorem kept_swapGo {s : State} (hs : Kept q p s) (t : Nat) (cap : Bool) (flips : List CodeWord) :
    Kept q p (swapGo s t cap flips) := by
  unfold swapGo
  repeat' first
    | with_reducible assumption
    | intro _
    | with_reducible apply kept_when
    | with_reducible apply kept_swapLine
    | with_reducible apply kept_wakeTum
    | with_reducible apply kept_when
    | with_reducible apply kept_ite
    | split

theorem kept_execSwapCopyLine (t : Tum) (flips : List CodeWord) {s : State} (hs : Kept q p s) :
    KeptOut q p (execSwapCopyLine t flips s) := by
  unfold execSwapCopyLine
  repeat' first
    | with_reducible assumption
    | intro _
    | with_reducible apply keptOut_next
    | exact keptOut_fault _
    | with_reducible apply kept_swapGo

theorem kept_swapRest {s : State} (hs : Kept q p s) (t : Nat) :
    Kept q p (swapRest s t) := by
  unfold swapRest
  repeat' first
    | with_reducible assumption
    | intro _
    | with_reducible apply kept_swapGo
    | with_reducible apply kept_ite
    | with_reducible apply kept_foldUpTo

theorem kept_switchPoint {s : State} (hs : Kept q p s) (t : Nat) (w : Swap) :
    Kept q p (switchPoint s t w) := by
  unfold switchPoint
  repeat' first
    | with_reducible assumption
    | intro _
    | extract_lets
    | with_reducible apply kept_setRole
    | with_reducible apply kept_setF
    | with_reducible apply kept_storeLeaf
    | with_reducible apply kept_setSwapState
    | with_reducible apply kept_modTum

theorem kept_execSwapSwitchPoint (t : Tum) {s : State} (hs : Kept q p s) :
    KeptOut q p (execSwapSwitchPoint t s) := by
  unfold execSwapSwitchPoint
  repeat' first
    | with_reducible assumption
    | intro _
    | extract_lets
    | with_reducible apply keptOut_next
    | exact keptOut_fault _
    | with_reducible apply kept_swapRest
    | with_reducible apply kept_when
    | with_reducible apply kept_switchPoint
    | with_reducible apply kept_when
    | split

theorem kept_swapEnd {s : State} (hs : Kept q p s) (t : Nat) (w : Swap) (fail : Option (BitVec 16)) :
    Kept q p (swapEnd s t w fail) := by
  unfold swapEnd
  repeat' first
    | with_reducible assumption
    | intro _
    | extract_lets
    | with_reducible apply kept_setSwapState
    | with_reducible apply kept_modTum
    | with_reducible apply kept_answerOpt
    | with_reducible apply kept_ite
    | with_reducible apply kept_foldl

theorem kept_swapRetire {s : State} (hs : Kept q p s) (t : Nat) (w : Swap) :
    Kept q p (swapRetire s t w) := by
  unfold swapRetire
  repeat' first
    | with_reducible assumption
    | intro _
    | extract_lets
    | with_reducible apply kept_stopSlice
    | with_reducible apply kept_setRole
    | with_reducible apply kept_storeRemap
    | with_reducible apply kept_wr
    | with_reducible apply kept_modTum
    | with_reducible apply kept_raise
    | with_reducible apply kept_swapEnd
    | with_reducible apply kept_count
    | with_reducible apply kept_foldl

theorem kept_execSwapRetire (t : Tum) {s : State} (hs : Kept q p s) :
    KeptOut q p (execSwapRetire t s) := by
  unfold execSwapRetire
  repeat' first
    | with_reducible assumption
    | intro _
    | with_reducible apply keptOut_next
    | exact keptOut_fault _
    | with_reducible apply kept_when
    | with_reducible apply kept_swapRetire
    | with_reducible apply kept_when
    | split

theorem kept_swapAbandon {s : State} (hs : Kept q p s) (t : Nat) :
    Kept q p (swapAbandon s t) := by
  unfold swapAbandon
  repeat' first
    | with_reducible assumption
    | intro _
    | extract_lets
    | with_reducible apply kept_setSwapState
    | with_reducible apply kept_modTum

theorem kept_execLeafSwapAbort (c : Cmd) {s : State} (hs : Kept q p s) :
    KeptOut q p (execLeafSwapAbort c s) := by
  unfold execLeafSwapAbort
  repeat' first
    | with_reducible assumption
    | intro _
    | extract_lets
    | with_reducible apply keptOut_next
    | exact keptOut_fault _
    | with_reducible apply keptOut_ite
    | with_reducible apply kept_runCmd
    | with_reducible apply kept_orFail
    | with_reducible apply kept_swapAbandon
    | with_reducible apply kept_begin
    | with_reducible apply kept_modTum
    | with_reducible apply kept_ite

theorem kept_abandonDone {s : State} (hs : Kept q p s) (t : Nat) (w : Swap) :
    Kept q p (abandonDone s t w) := by
  unfold abandonDone
  repeat' first
    | with_reducible assumption
    | intro _
    | extract_lets
    | with_reducible apply kept_stopSlice
    | with_reducible apply kept_setRole
    | with_reducible apply kept_fresh
    | with_reducible apply kept_swapEnd
    | with_reducible apply kept_answer
    | with_reducible apply kept_foldl

theorem kept_execSwapAbandonDone (t : Tum) {s : State} (hs : Kept q p s) :
    KeptOut q p (execSwapAbandonDone t s) := by
  unfold execSwapAbandonDone
  repeat' first
    | with_reducible assumption
    | intro _
    | with_reducible apply keptOut_next
    | exact keptOut_fault _
    | with_reducible apply kept_when
    | with_reducible apply kept_abandonDone
    | with_reducible apply kept_when
    | split

end Sys2Proof.Machine
end

