-- ==== Sys2Proof/Laws/KeptScans.lean ====
section
/-! SUPPORT. What the operations of Machine/Scans.lean keep (Laws/Kept.lean). -/

namespace Sys2Proof.Machine

open Sys2Proof

variable {q : List Instr} {p : Part}

theorem kept_startScan {s : State} (hs : Kept q p s) (x : Scan) (k : Nat) :
    Kept q p (startScan s x k) := by
  unfold startScan
  repeat' first
    | with_reducible assumption
    | intro _
    | extract_lets
    | with_reducible apply kept_setScan
    | with_reducible apply kept_foldl
    | with_reducible apply kept_foldl_fst
    | with_reducible apply kept_foldl_snd
    | with_reducible apply kept_with

theorem kept_execScanStart (c : Cmd) {s : State} (hs : Kept q p s) :
    KeptOut q p (execScanStart c s) := by
  unfold execScanStart
  repeat' first
    | with_reducible assumption
    | intro _
    | extract_lets
    | with_reducible apply keptOut_next
    | exact keptOut_fault _
    | with_reducible apply kept_runCmd
    | with_reducible apply kept_orFail
    | with_reducible apply kept_count
    | with_reducible apply kept_reply
    | with_reducible apply kept_startScan

theorem kept_endScan {s : State} (hs : Kept q p s) (k : Nat) (x : Scan) (st : BitVec 8) :
    Kept q p (endScan s k x st) := by
  unfold endScan
  repeat' first
    | with_reducible assumption
    | intro _
    | with_reducible apply kept_setScan

theorem kept_scanTook {s : State} (hs : Kept q p s) (k : Nat) (x : Scan) (e n : Nat) (g : List Got) :
    Kept q p (scanTook s k x e n g) := by
  unfold scanTook
  extract_lets ev x1 cnt bad was before s4 s5 x2 more x3 s6 s7 now
  have h4 : Kept q p s4 := kept_ite hs (kept_count hs _ _)
  have h5 : Kept q p s5 := kept_count (kept_count (kept_count (kept_count h4 _ _) _ _) _ _) _ _
  have h6 : Kept q p s6 := kept_wr h5 _ _
  have h7 : Kept q p s7 := by
    clear_value s6 more
    unfold s7
    cases more with
    | some m => exact kept_wr h6 _ _
    | none => exact kept_wr (kept_fresh h6) _ _
  exact kept_setScan h7 _ _

theorem kept_scanMeasured {s : State} (hs : Kept q p s) (a : Access) (whole : Bool) :
    Kept q p (scanMeasured s a whole) := by
  unfold scanMeasured
  repeat' first
    | with_reducible assumption
    | intro _
    | extract_lets
    | with_reducible apply kept_wardDone
    | with_reducible apply kept_histogram

theorem kept_scanRead {s : State} (hs : Kept q p s) (k : Nat) (x : Scan) (e n : Nat) (flips : List CodeWord) :
    Kept q p (scanRead s k x e n flips) := by
  unfold scanRead
  extract_lets y r a whole read s1
  have hr : Kept q p read.1 := kept_lineRead (kept_lineEnter hs _) _ _ _
  have h1 : Kept q p s1 := kept_scanMeasured (kept_lineEnd (kept_writeBacks hr _ _) _) _ _
  exact kept_scanTook h1 _ _ _ _ _

theorem kept_scanStep {s : State} (hs : Kept q p s) (k : Nat) (x : Scan) (e : Nat) (n : Nat) (flips : List CodeWord) :
    Kept q p (scanStep s k x e n flips) := by
  unfold scanStep
  repeat' first
    | with_reducible assumption
    | intro _
    | extract_lets
    | with_reducible apply kept_endScan
    | with_reducible apply kept_when
    | with_reducible apply kept_scanRead
    | with_reducible apply kept_wakeTum
    | with_reducible apply kept_when
    | with_reducible apply kept_ite
    | split

theorem kept_execScanLineRead (k : BitVec 8) (e : Tum) (flips : List CodeWord) {s : State} (hs : Kept q p s) :
    KeptOut q p (execScanLineRead k e flips s) := by
  unfold execScanLineRead
  repeat' first
    | with_reducible assumption
    | intro _
    | with_reducible apply keptOut_next
    | exact keptOut_fault _
    | with_reducible apply kept_when
    | with_reducible apply kept_scanStep
    | with_reducible apply kept_when
    | split

theorem kept_fenceScans {s : State} (hs : Kept q p s) (t : Nat) :
    Kept q p (fenceScans s t) := by
  unfold fenceScans
  repeat' first
    | with_reducible assumption
    | intro _
    | extract_lets
    | with_reducible apply kept_when
    | with_reducible apply kept_endScan
    | with_reducible apply kept_when
    | with_reducible apply kept_foldUpTo
    | with_reducible apply kept_foldUpTo_fst
    | with_reducible apply kept_foldUpTo_snd
    | split

theorem kept_scanWrite {s : State} (hs : Kept q p s) (k : Nat) (x : Scan) (addr : Nat) (be : BitVec 64) (data : Line) :
    Kept q p (scanWrite s k x addr be data) := by
  unfold scanWrite
  repeat' first
    | with_reducible assumption
    | intro _
    | extract_lets
    | with_reducible apply kept_setScan
    | with_reducible apply kept_arrive
    | with_reducible apply kept_flowStart
    | with_reducible apply kept_count

theorem kept_writeBitmap {s : State} (hs : Kept q p s) (k : Nat) (x : Scan) (n : Nat) :
    Kept q p (writeBitmap s k x n) := by
  unfold writeBitmap
  repeat' first
    | with_reducible assumption
    | intro _
    | extract_lets
    | with_reducible apply kept_scanWrite

theorem kept_writeIndex {s : State} (hs : Kept q p s) (k : Nat) (x : Scan) (l : List Nat) :
    Kept q p (writeIndex s k x l) := by
  unfold writeIndex
  repeat' first
    | with_reducible assumption
    | intro _
    | extract_lets
    | with_reducible apply kept_scanWrite

theorem kept_outputStep {s : State} (hs : Kept q p s) (k : Nat) (x : Scan) (bitmap : Bool) :
    Kept q p (outputStep s k x bitmap) := by
  unfold outputStep
  repeat' first
    | with_reducible assumption
    | intro _
    | with_reducible apply kept_endScan
    | with_reducible apply kept_writeBitmap
    | with_reducible apply kept_writeIndex
    | with_reducible apply kept_ite
    | split

theorem kept_execScanOutputWrite (k : BitVec 8) (bitmap : Bool) {s : State} (hs : Kept q p s) :
    KeptOut q p (execScanOutputWrite k bitmap s) := by
  unfold execScanOutputWrite
  repeat' first
    | with_reducible assumption
    | intro _
    | with_reducible apply keptOut_next
    | exact keptOut_fault _
    | with_reducible apply kept_when
    | with_reducible apply kept_outputStep
    | with_reducible apply kept_when
    | split

theorem kept_scanFinish {s : State} (hs : Kept q p s) (k : Nat) (x : Scan) :
    Kept q p (scanFinish s k x) := by
  unfold scanFinish
  repeat' first
    | with_reducible assumption
    | intro _
    | extract_lets
    | with_reducible apply kept_count
    | with_reducible apply kept_setScan
    | with_reducible apply kept_scanWrite
    | with_reducible apply kept_ite
    | with_reducible apply kept_foldl
    | with_reducible apply kept_foldl_fst
    | with_reducible apply kept_foldl_snd
    | split

theorem kept_execScanEnd (k : BitVec 8) {s : State} (hs : Kept q p s) :
    KeptOut q p (execScanEnd k s) := by
  unfold execScanEnd
  repeat' first
    | with_reducible assumption
    | intro _
    | with_reducible apply keptOut_next
    | exact keptOut_fault _
    | with_reducible apply kept_when
    | with_reducible apply kept_scanFinish
    | with_reducible apply kept_when
    | split

theorem kept_execScanCompletionEvent (k : BitVec 8) {s : State} (hs : Kept q p s) :
    KeptOut q p (execScanCompletionEvent k s) := by
  unfold execScanCompletionEvent
  repeat' first
    | with_reducible assumption
    | intro _
    | with_reducible apply keptOut_next
    | exact keptOut_fault _
    | with_reducible apply kept_when
    | with_reducible apply kept_answer
    | with_reducible apply kept_raise
    | with_reducible apply kept_setScan
    | with_reducible apply kept_when
    | with_reducible apply kept_foldl
    | with_reducible apply kept_foldl_fst
    | with_reducible apply kept_foldl_snd
    | split

theorem kept_execScanAbort (c : Cmd) {s : State} (hs : Kept q p s) :
    KeptOut q p (execScanAbort c s) := by
  unfold execScanAbort
  repeat' first
    | with_reducible assumption
    | intro _
    | extract_lets
    | with_reducible apply keptOut_next
    | exact keptOut_fault _
    | with_reducible apply keptOut_ite
    | with_reducible apply kept_runCmd
    | with_reducible apply kept_answer
    | with_reducible apply kept_orFail
    | with_reducible apply kept_begin
    | with_reducible apply kept_setScan
    | with_reducible apply kept_ite
    | with_reducible apply kept_orFail
    | split

end Sys2Proof.Machine
end

