-- ==== Sys2Proof/Laws/KeptUnits.lean ====
section
/-! SUPPORT. What the operations of Machine/Units.lean keep (Laws/Kept.lean). -/

namespace Sys2Proof.Machine

open Sys2Proof

variable {q : List Instr} {p : Part}

theorem kept_setReen {s : State} (hs : Kept q p s) (u : UnitId) (b : Bool) :
    Kept q p (setReen s u b) := by
  unfold setReen
  repeat' first
    | with_reducible assumption
    | intro _
    | with_reducible apply kept_setMode
    | with_reducible apply kept_modPort
    | with_reducible apply kept_setEng
    | with_reducible apply kept_setCore
    | split

theorem kept_unitShutdown {s : State} (hs : Kept q p s) (u : UnitId) :
    Kept q p (unitShutdown s u) := by
  unfold unitShutdown
  repeat' first
    | with_reducible assumption
    | intro _
    | extract_lets
    | with_reducible apply kept_recordQuiet
    | with_reducible apply kept_tumShutdown
    | with_reducible apply kept_portLatch
    | with_reducible apply kept_engShutdown
    | with_reducible apply kept_coreShutdown
    | split

theorem kept_coreStart {s : State} (hs : Kept q p s) (c : Nat) :
    Kept q p (coreStart s c) := by
  unfold coreStart
  repeat' first
    | with_reducible assumption
    | intro _
    | with_reducible apply kept_setCore

theorem kept_engStart {s : State} (hs : Kept q p s) (n : Nat) :
    Kept q p (engStart s n) := by
  unfold engStart
  repeat' first
    | with_reducible assumption
    | intro _
    | with_reducible apply kept_setEng

theorem kept_tumStart {s : State} (hs : Kept q p s) (t : Tum) (preserve : Bool) :
    Kept q p (tumStart s t preserve) := by
  unfold tumStart
  repeat' first
    | with_reducible assumption
    | intro _
    | extract_lets
    | with_reducible apply kept_setMode
    | with_reducible apply kept_leaveSelf
    | with_reducible apply kept_ite

theorem kept_startUnit {s : State} (hs : Kept q p s) (u : UnitId) (preserve : Bool) :
    Kept q p (startUnit s u preserve) := by
  unfold startUnit
  repeat' first
    | with_reducible assumption
    | intro _
    | extract_lets
    | with_reducible apply kept_setReen
    | with_reducible apply kept_tumStart
    | with_reducible apply kept_toDetect
    | with_reducible apply kept_clearExclusions
    | with_reducible apply kept_engStart
    | with_reducible apply kept_coreStart
    | split
    | with_reducible apply kept_with

theorem kept_supersede {s : State} (hs : Kept q p s) (u : UnitId) :
    Kept q p (supersede s u) := by
  unfold supersede
  repeat' first
    | with_reducible assumption
    | intro _
    | extract_lets
    | with_reducible apply kept_setReen
    | with_reducible apply kept_answer
    | with_reducible apply kept_foldl
    | with_reducible apply kept_foldl_fst
    | with_reducible apply kept_foldl_snd
    | with_reducible apply kept_with

theorem kept_disableUnit {s : State} (hs : Kept q p s) (c : Cmd) (u : UnitId) :
    Kept q p (disableUnit s c u) := by
  unfold disableUnit
  repeat' first
    | with_reducible assumption
    | intro _
    | extract_lets
    | with_reducible apply kept_answer
    | with_reducible apply kept_supersede
    | with_reducible apply kept_begin
    | with_reducible apply kept_unitShutdown
    | with_reducible apply kept_ite
    | split
    | with_reducible apply kept_with

theorem kept_execUnitDisable (c : Cmd) {s : State} (hs : Kept q p s) :
    KeptOut q p (execUnitDisable c s) := by
  unfold execUnitDisable
  repeat' first
    | with_reducible assumption
    | intro _
    | with_reducible apply keptOut_next
    | exact keptOut_fault _
    | with_reducible apply kept_runCmd
    | with_reducible apply kept_answer
    | with_reducible apply kept_orFail
    | with_reducible apply kept_disableUnit
    | with_reducible apply kept_orFail
    | split

theorem kept_awaitStart {s : State} (hs : Kept q p s) (c : Cmd) (u : UnitId) (preserve : Bool) :
    Kept q p (awaitStart s c u preserve) := by
  unfold awaitStart
  repeat' first
    | with_reducible assumption
    | intro _
    | with_reducible apply kept_begin
    | with_reducible apply kept_with

theorem kept_enableUnit {s : State} (hs : Kept q p s) (c : Cmd) (u : UnitId) (preserve : Bool) :
    Kept q p (enableUnit s c u preserve) := by
  unfold enableUnit
  repeat' first
    | with_reducible assumption
    | intro _
    | with_reducible apply kept_answer
    | with_reducible apply kept_setReen
    | with_reducible apply kept_awaitStart
    | with_reducible apply kept_orFail
    | with_reducible apply kept_startUnit
    | with_reducible apply kept_ite

theorem kept_execUnitEnable (c : Cmd) {s : State} (hs : Kept q p s) :
    KeptOut q p (execUnitEnable c s) := by
  unfold execUnitEnable
  repeat' first
    | with_reducible assumption
    | intro _
    | with_reducible apply keptOut_next
    | exact keptOut_fault _
    | with_reducible apply kept_runCmd
    | with_reducible apply kept_answer
    | with_reducible apply kept_enableUnit
    | split

theorem kept_endSwap {s : State} (hs : Kept q p s) (t : Nat) :
    Kept q p (endSwap s t) := by
  unfold endSwap
  repeat' first
    | with_reducible assumption
    | intro _
    | with_reducible apply kept_swapRetire
    | with_reducible apply kept_abandonDone
    | with_reducible apply kept_ite
    | split

theorem kept_tumLatch {s : State} (hs : Kept q p s) (t : Nat) :
    Kept q p (tumLatch s t) := by
  unfold tumLatch
  repeat' first
    | with_reducible assumption
    | intro _
    | extract_lets
    | with_reducible apply kept_fenceScans
    | with_reducible apply kept_endSwap
    | with_reducible apply kept_selfEntry
    | with_reducible apply kept_setMode
    | with_reducible apply kept_pauseOff
    | with_reducible apply kept_sendCtrl
    | with_reducible apply kept_releaseRegions
    | with_reducible apply kept_ite

theorem kept_fenceFirst {s : State} (hs : Kept q p s) (t : Nat) :
    Kept q p (fenceFirst s t) := by
  unfold fenceFirst
  repeat' first
    | with_reducible assumption
    | intro _
    | with_reducible apply kept_fenceUnstarted
    | with_reducible apply kept_ite

theorem kept_latchUnit {s : State} (hs : Kept q p s) (u : UnitId) :
    Kept q p (latchUnit s u) := by
  unfold latchUnit
  repeat' first
    | with_reducible assumption
    | intro _
    | with_reducible apply kept_tumLatch
    | with_reducible apply kept_fenceFirst
    | with_reducible apply kept_modPort
    | with_reducible apply kept_setEng
    | with_reducible apply kept_setCore
    | split

theorem kept_answerDisables {s : State} (hs : Kept q p s) (u : UnitId) :
    Kept q p (answerDisables s u) := by
  unfold answerDisables
  repeat' first
    | with_reducible assumption
    | intro _
    | extract_lets
    | with_reducible apply kept_answer
    | with_reducible apply kept_foldl
    | with_reducible apply kept_foldl_fst
    | with_reducible apply kept_foldl_snd
    | with_reducible apply kept_with

theorem kept_answerEnables {s : State} (hs : Kept q p s) (u : UnitId) (st : BitVec 16) :
    Kept q p (answerEnables s u st) := by
  unfold answerEnables
  repeat' first
    | with_reducible assumption
    | intro _
    | extract_lets
    | with_reducible apply kept_answer
    | with_reducible apply kept_foldl
    | with_reducible apply kept_foldl_fst
    | with_reducible apply kept_foldl_snd
    | with_reducible apply kept_with

theorem kept_judgeEnable {s : State} (hs : Kept q p s) (u : UnitId) :
    Kept q p (judgeEnable s u) := by
  unfold judgeEnable
  repeat' first
    | with_reducible assumption
    | intro _
    | extract_lets
    | with_reducible apply kept_answerEnables
    | with_reducible apply kept_setReen
    | with_reducible apply kept_startUnit
    | with_reducible apply kept_ite

theorem kept_execShutdownComplete (u : UnitId) {s : State} (hs : Kept q p s) :
    KeptOut q p (execShutdownComplete u s) := by
  unfold execShutdownComplete
  repeat' first
    | with_reducible assumption
    | intro _
    | with_reducible apply keptOut_next
    | exact keptOut_fault _
    | with_reducible apply kept_when
    | with_reducible apply kept_judgeEnable
    | with_reducible apply kept_answerDisables
    | with_reducible apply kept_latchUnit

theorem kept_tumStarted {s : State} (hs : Kept q p s) (t : Nat) (preserve : Bool) :
    Kept q p (tumStarted s t preserve) := by
  unfold tumStarted
  repeat' first
    | with_reducible assumption
    | intro _
    | extract_lets
    | with_reducible apply kept_setMode
    | with_reducible apply kept_excludeQueued
    | with_reducible apply kept_leaveSelf
    | with_reducible apply kept_sendCtrl
    | with_reducible apply kept_ite

theorem kept_unitStarted {s : State} (hs : Kept q p s) (u : UnitId) (preserve : Bool) :
    Kept q p (unitStarted s u preserve) := by
  unfold unitStarted
  repeat' first
    | with_reducible assumption
    | intro _
    | with_reducible apply kept_tumStarted
    | with_reducible apply kept_setCore
    | split

theorem kept_lateDisable {s : State} (hs : Kept q p s) (u : UnitId) :
    Kept q p (lateDisable s u) := by
  unfold lateDisable
  repeat' first
    | with_reducible assumption
    | intro _
    | with_reducible apply kept_unitShutdown
    | with_reducible apply kept_ite

theorem kept_startDone {s : State} (hs : Kept q p s) (u : UnitId) (preserve : Bool) :
    Kept q p (startDone s u preserve) := by
  unfold startDone
  repeat' first
    | with_reducible assumption
    | intro _
    | extract_lets
    | with_reducible apply kept_lateDisable
    | with_reducible apply kept_answerEnables
    | with_reducible apply kept_unitStarted
    | with_reducible apply kept_with

theorem kept_execUnitStartDone (u : UnitId) {s : State} (hs : Kept q p s) :
    KeptOut q p (execUnitStartDone u s) := by
  unfold execUnitStartDone
  repeat' first
    | with_reducible assumption
    | intro _
    | with_reducible apply keptOut_next
    | exact keptOut_fault _
    | with_reducible apply kept_when
    | with_reducible apply kept_startDone
    | with_reducible apply kept_lateDisable
    | with_reducible apply kept_answerEnables
    | with_reducible apply kept_when
    | split

theorem kept_quietWake {s : State} (hs : Kept q p s) :
    Kept q p (quietWake s) := by
  unfold quietWake
  repeat' first
    | with_reducible assumption
    | intro _
    | with_reducible apply kept_setMode
    | with_reducible apply kept_ite
    | with_reducible apply kept_foldUpTo

theorem kept_putBits {s : State} (hs : Kept q p s) (off : Nat) (m : Nat) (b : Bool) :
    Kept q p (putBits s off m b) := by
  unfold putBits
  repeat' first
    | with_reducible assumption
    | intro _
    | extract_lets
    | with_reducible apply kept_wr

theorem kept_setPower {s : State} (hs : Kept q p s) (code : Nat) (tums : Nat) (ports : Nat) :
    Kept q p (setPower s code tums ports) := by
  unfold setPower
  repeat' first
    | with_reducible assumption
    | intro _
    | extract_lets
    | with_reducible apply kept_putBits
    | with_reducible apply kept_gateOff
    | with_reducible apply kept_setF
    | with_reducible apply kept_quietWake
    | with_reducible apply kept_ite
    | with_reducible apply kept_foldUpTo

theorem kept_powerDone {s : State} (hs : Kept q p s) (code : Nat) :
    Kept q p (powerDone s code) := by
  unfold powerDone
  repeat' first
    | with_reducible assumption
    | intro _
    | with_reducible apply kept_count
    | with_reducible apply kept_setF

theorem kept_execPowerState (c : Cmd) {s : State} (hs : Kept q p s) :
    KeptOut q p (execPowerState c s) := by
  unfold execPowerState
  repeat' first
    | with_reducible assumption
    | intro _
    | extract_lets
    | with_reducible apply keptOut_next
    | exact keptOut_fault _
    | with_reducible apply keptOut_ite
    | with_reducible apply kept_runCmd
    | with_reducible apply kept_orFail
    | with_reducible apply kept_answer
    | with_reducible apply kept_powerDone
    | with_reducible apply kept_setPower
    | with_reducible apply kept_ite
    | with_reducible apply kept_orFail
    | split
    | with_reducible apply kept_with

theorem kept_execHoldStopPoint {s : State} (hs : Kept q p s) :
    KeptOut q p (execHoldStopPoint s) := by
  unfold execHoldStopPoint
  repeat' first
    | with_reducible assumption
    | intro _
    | with_reducible apply keptOut_next
    | exact keptOut_fault _
    | with_reducible apply kept_when
    | with_reducible apply kept_beginDrain
    | with_reducible apply kept_when
    | with_reducible apply kept_with

end Sys2Proof.Machine
end

