-- ==== Sys2Proof/Laws/KeptEventRows.lean ====
section
/-! SUPPORT. What the operations of Machine/EventRows.lean keep (Laws/Kept.lean). -/

namespace Sys2Proof.Machine

open Sys2Proof

variable {q : List Instr} {p : Part}

theorem kept_sendEvt {s : State} (hs : Kept q p s) (n : Nat) (data : Nat) (i : Nat) (x : Sub) :
    Kept q p (sendEvt s n data i x) := by
  unfold sendEvt
  repeat' first
    | with_reducible assumption
    | intro _
    | extract_lets
    | with_reducible apply kept_count
    | with_reducible apply kept_putSub
    | with_reducible apply kept_modPort
    | with_reducible apply kept_ite

theorem kept_wakeTarget {s : State} (hs : Kept q p s) (n : Nat) :
    Kept q p (wakeTarget s n) := by
  unfold wakeTarget
  repeat' first
    | with_reducible assumption
    | intro _
    | extract_lets
    | with_reducible apply kept_setCore
    | with_reducible apply kept_ite

theorem kept_acceptSource {s : State} (hs : Kept q p s) (n : Nat) (data : Nat) :
    Kept q p (acceptSource s n data) := by
  unfold acceptSource
  repeat' first
    | with_reducible assumption
    | intro _
    | extract_lets
    | with_reducible apply kept_setF
    | with_reducible apply kept_wr
    | with_reducible apply kept_sendEvt
    | with_reducible apply kept_wakeTarget
    | with_reducible apply kept_ite
    | with_reducible apply kept_foldl
    | with_reducible apply kept_foldl_fst
    | with_reducible apply kept_foldl_snd
    | split

theorem kept_takePulse {s : State} (hs : Kept q p s) (n : BitVec 12) :
    Kept q p (takePulse s n) := by
  unfold takePulse
  repeat' first
    | with_reducible assumption
    | intro _
    | with_reducible apply kept_with

theorem kept_execSourceAccept (src : BitVec 12) {s : State} (hs : Kept q p s) :
    KeptOut q p (execSourceAccept src s) := by
  unfold execSourceAccept
  repeat' first
    | with_reducible assumption
    | intro _
    | with_reducible apply keptOut_next
    | exact keptOut_fault _
    | with_reducible apply kept_when
    | with_reducible apply kept_acceptSource
    | with_reducible apply kept_takePulse
    | with_reducible apply kept_when
    | split

theorem kept_deliver {s : State} (hs : Kept q p s) (c : Nat) (n : Nat) :
    Kept q p (deliver s c n) := by
  unfold deliver
  repeat' first
    | with_reducible assumption
    | intro _
    | extract_lets
    | with_reducible apply kept_fresh
    | with_reducible apply kept_setCore
    | with_reducible apply kept_count

theorem kept_claim {s : State} (hs : Kept q p s) (c : Nat) (n : Nat) :
    Kept q p (claim s c n) := by
  unfold claim
  repeat' first
    | with_reducible assumption
    | intro _
    | extract_lets
    | with_reducible apply kept_setF
    | with_reducible apply kept_deliver
    | with_reducible apply kept_ite

theorem kept_execEventClaim (c : CoreN) (src : BitVec 12) {s : State} (hs : Kept q p s) :
    KeptOut q p (execEventClaim c src s) := by
  unfold execEventClaim
  repeat' first
    | with_reducible assumption
    | intro _
    | with_reducible apply keptOut_next
    | exact keptOut_fault _
    | with_reducible apply kept_when
    | with_reducible apply kept_claim

theorem kept_execWfi (c : CoreN) {s : State} (hs : Kept q p s) :
    KeptOut q p (execWfi c s) := by
  unfold execWfi
  repeat' first
    | with_reducible assumption
    | intro _
    | with_reducible apply keptOut_next
    | exact keptOut_fault _
    | with_reducible apply kept_when
    | with_reducible apply kept_setCore

theorem kept_wrSrcCfg {s : State} (hs : Kept q p s) (n : Nat) (v : Reg32) :
    Kept q p (wrSrcCfg s n v) := by
  unfold wrSrcCfg
  repeat' first
    | with_reducible assumption
    | intro _
    | extract_lets
    | with_reducible apply kept_wakeTarget
    | with_reducible apply kept_putReg

theorem kept_execEvcSrcCfgWrite (src : BitVec 12) (v : Reg32) {s : State} (hs : Kept q p s) :
    KeptOut q p (execEvcSrcCfgWrite src v s) := by
  unfold execEvcSrcCfgWrite
  repeat' first
    | with_reducible assumption
    | intro _
    | with_reducible apply keptOut_next
    | exact keptOut_fault _
    | with_reducible apply kept_atReg
    | with_reducible apply kept_wrSrcCfg

theorem kept_wrEoi {s : State} (hs : Kept q p s) (v : Reg32) :
    Kept q p (wrEoi s v) := by
  unfold wrEoi
  repeat' first
    | with_reducible assumption
    | intro _
    | extract_lets
    | with_reducible apply kept_setF
    | with_reducible apply kept_acceptSource
    | with_reducible apply kept_ite

theorem kept_execEvcEoi (v : Reg32) {s : State} (hs : Kept q p s) :
    KeptOut q p (execEvcEoi v s) := by
  unfold execEvcEoi
  repeat' first
    | with_reducible assumption
    | intro _
    | with_reducible apply keptOut_next
    | exact keptOut_fault _
    | with_reducible apply kept_atReg
    | with_reducible apply kept_wrEoi

theorem kept_wrSwRaise {s : State} (hs : Kept q p s) (v : Reg32) :
    Kept q p (wrSwRaise s v) := by
  unfold wrSwRaise
  repeat' first
    | with_reducible assumption
    | intro _
    | extract_lets
    | with_reducible apply kept_paramFault
    | with_reducible apply kept_raise
    | with_reducible apply kept_ite

theorem kept_execEvcSwRaise (v : Reg32) {s : State} (hs : Kept q p s) :
    KeptOut q p (execEvcSwRaise v s) := by
  unfold execEvcSwRaise
  repeat' first
    | with_reducible assumption
    | intro _
    | with_reducible apply keptOut_next
    | exact keptOut_fault _
    | with_reducible apply kept_atReg
    | with_reducible apply kept_wrSwRaise

theorem kept_wrSrcStat {s : State} (hs : Kept q p s) (n : Nat) (v : Reg32) :
    Kept q p (wrSrcStat s n v) := by
  unfold wrSrcStat
  repeat' first
    | with_reducible assumption
    | intro _
    | with_reducible apply kept_setF
    | with_reducible apply kept_ite

theorem kept_execCntClr (src : BitVec 12) (v : Reg32) {s : State} (hs : Kept q p s) :
    KeptOut q p (execCntClr src v s) := by
  unfold execCntClr
  repeat' first
    | with_reducible assumption
    | intro _
    | with_reducible apply keptOut_next
    | exact keptOut_fault _
    | with_reducible apply kept_atReg
    | with_reducible apply kept_wrSrcStat

end Sys2Proof.Machine
end

