-- ==== Sys2Proof/Laws/KeptFaultRows.lean ====
section
/-! SUPPORT. What the operations of Machine/FaultRows.lean keep (Laws/Kept.lean). -/

namespace Sys2Proof.Machine

open Sys2Proof

variable {q : List Instr} {p : Part}

theorem kept_slotLost {s : State} (hs : Kept q p s) (t : Nat) (x : Nat) (m : Nat) :
    Kept q p (slotLost s t x m) := by
  unfold slotLost
  repeat' first
    | with_reducible assumption
    | intro _
    | with_reducible apply kept_setQ

theorem kept_faultSide {s : State} (hs : Kept q p s) (b : FltSet) (c : Nat) (d : BitVec 96) :
    Kept q p (faultSide s b c d) := by
  unfold faultSide
  repeat' first
    | with_reducible assumption
    | intro _
    | with_reducible apply kept_slotLost
    | with_reducible apply kept_setMode
    | with_reducible apply kept_count
    | with_reducible apply kept_setF
    | with_reducible apply kept_ite
    | split

theorem kept_execFaultDetected (b : FltSet) (cls : Fin 24) (detail : BitVec 96) (merged : BitVec 32) {s : State} (hs : Kept q p s) :
    KeptOut q p (execFaultDetected b cls detail merged s) := by
  unfold execFaultDetected
  repeat' first
    | with_reducible assumption
    | intro _
    | with_reducible apply keptOut_next
    | exact keptOut_fault _
    | with_reducible apply kept_when
    | with_reducible apply kept_fault
    | with_reducible apply kept_faultSide

theorem kept_wrFltStat {s : State} (hs : Kept q p s) (b : FltSet) (v : Reg32) :
    Kept q p (wrFltStat s b v) := by
  unfold wrFltStat
  repeat' first
    | with_reducible assumption
    | intro _
    | extract_lets
    | with_reducible apply kept_setSev
    | with_reducible apply kept_setF
    | with_reducible apply kept_setAlert
    | with_reducible apply kept_ite
    | with_reducible apply kept_foldUpTo

theorem kept_execFltStatAck (b : FltSet) (v : Reg32) {s : State} (hs : Kept q p s) :
    KeptOut q p (execFltStatAck b v s) := by
  unfold execFltStatAck
  repeat' first
    | with_reducible assumption
    | intro _
    | with_reducible apply keptOut_next
    | exact keptOut_fault _
    | with_reducible apply kept_atReg
    | with_reducible apply kept_wrFltStat

theorem kept_rerecord {s : State} (hs : Kept q p s) (l : List (FltSet × Nat)) :
    Kept q p (rerecord s l) := by
  unfold rerecord
  repeat' first
    | with_reducible assumption
    | intro _
    | with_reducible apply kept_fault
    | with_reducible apply kept_ite
    | with_reducible apply kept_foldl

theorem kept_endShadow {s : State} (hs : Kept q p s) (b : FltSet) (x : Shadow) :
    Kept q p (endShadow s b x) := by
  unfold endShadow
  repeat' first
    | with_reducible assumption
    | intro _
    | with_reducible apply kept_rerecord
    | with_reducible apply kept_with

theorem kept_execShadowEnd (b : FltSet) {s : State} (hs : Kept q p s) :
    KeptOut q p (execShadowEnd b s) := by
  unfold execShadowEnd
  repeat' first
    | with_reducible assumption
    | intro _
    | with_reducible apply keptOut_next
    | exact keptOut_fault _
    | with_reducible apply kept_when
    | with_reducible apply kept_endShadow
    | with_reducible apply kept_when
    | split

end Sys2Proof.Machine
end

