-- ==== Sys2Proof/Laws/KeptRings.lean ====
section
/-! SUPPORT. What the operations of Machine/Rings.lean keep (Laws/Kept.lean). -/

namespace Sys2Proof.Machine

open Sys2Proof

variable {q : List Instr} {p : Part}

theorem kept_ringError {s : State} (hs : Kept q p s) (n : RingN) :
    Kept q p (ringError s n) := by
  unfold ringError
  repeat' first
    | with_reducible assumption
    | intro _
    | extract_lets
    | with_reducible apply kept_setF
    | with_reducible apply kept_stopRing
    | with_reducible apply kept_fault
    | with_reducible apply kept_count

theorem kept_execDmaError (n : RingN) {s : State} (hs : Kept q p s) :
    KeptOut q p (execDmaError n s) := by
  unfold execDmaError
  repeat' first
    | with_reducible assumption
    | intro _
    | with_reducible apply keptOut_next
    | exact keptOut_fault _
    | with_reducible apply kept_when
    | with_reducible apply kept_ringError

theorem kept_linkLost {s : State} (hs : Kept q p s) :
    Kept q p (linkLost s) := by
  unfold linkLost
  repeat' first
    | with_reducible assumption
    | intro _
    | with_reducible apply kept_fault
    | with_reducible apply kept_count
    | with_reducible apply kept_stopRings
    | with_reducible apply kept_with

theorem kept_execUsb4LinkLoss {s : State} (hs : Kept q p s) :
    KeptOut q p (execUsb4LinkLoss s) := by
  unfold execUsb4LinkLoss
  repeat' first
    | with_reducible assumption
    | intro _
    | with_reducible apply keptOut_next
    | exact keptOut_fault _
    | with_reducible apply kept_when
    | with_reducible apply kept_linkLost

theorem kept_ringStart {s : State} (hs : Kept q p s) (n : Nat) :
    Kept q p (ringStart s n) := by
  unfold ringStart
  repeat' first
    | with_reducible assumption
    | intro _
    | extract_lets
    | with_reducible apply kept_wr
    | with_reducible apply kept_setRing
    | with_reducible apply kept_foldl

theorem kept_wrRingCtl {s : State} (hs : Kept q p s) (n : RingN) (v : Reg32) :
    Kept q p (wrRingCtl s n v) := by
  unfold wrRingCtl
  repeat' first
    | with_reducible assumption
    | intro _
    | extract_lets
    | with_reducible apply kept_putReg
    | with_reducible apply kept_ringStart
    | with_reducible apply kept_stopRing
    | with_reducible apply kept_ite

theorem kept_wrRingBase {s : State} (hs : Kept q p s) (off : Nat) (v : Reg32) (m : Nat) :
    Kept q p (wrRingBase s off v m) := by
  unfold wrRingBase
  repeat' first
    | with_reducible assumption
    | intro _
    | extract_lets
    | with_reducible apply kept_putReg

theorem kept_execRingEnWrite (n : RingN) (v : Reg32) {s : State} (hs : Kept q p s) :
    KeptOut q p (execRingEnWrite n v s) := by
  unfold execRingEnWrite
  repeat' first
    | with_reducible assumption
    | intro _
    | with_reducible apply keptOut_next
    | exact keptOut_fault _
    | with_reducible apply kept_atReg
    | with_reducible apply kept_wrRingCtl

theorem kept_fetchCmd {s : State} (hs : Kept q p s) (n : RingN) (bytes : List Byte) :
    Kept q p (fetchCmd s n bytes) := by
  unfold fetchCmd
  repeat' first
    | with_reducible assumption
    | intro _
    | extract_lets
    | with_reducible apply kept_ringError
    | with_reducible apply kept_setRing
    | with_reducible apply kept_ite

theorem kept_execRingCommandFetch (n : RingN) (bytes : List Byte) {s : State} (hs : Kept q p s) :
    KeptOut q p (execRingCommandFetch n bytes s) := by
  unfold execRingCommandFetch
  repeat' first
    | with_reducible assumption
    | intro _
    | with_reducible apply keptOut_next
    | exact keptOut_fault _
    | with_reducible apply kept_when
    | with_reducible apply kept_fetchCmd

theorem kept_writeReply {s : State} (hs : Kept q p s) (n : Nat) (r : Reply) :
    Kept q p (writeReply s n r) := by
  unfold writeReply
  repeat' first
    | with_reducible assumption
    | intro _
    | extract_lets
    | with_reducible apply kept_setRing
    | with_reducible apply kept_setF
    | with_reducible apply kept_ite
    | split
    | with_reducible apply kept_with

theorem kept_execReplyWrite (n : RingN) {s : State} (hs : Kept q p s) :
    KeptOut q p (execReplyWrite n s) := by
  unfold execReplyWrite
  repeat' first
    | with_reducible assumption
    | intro _
    | with_reducible apply keptOut_next
    | exact keptOut_fault _
    | with_reducible apply kept_when
    | with_reducible apply kept_writeReply
    | with_reducible apply kept_when
    | split

theorem kept_usbDomainReset {s : State} (hs : Kept q p s) :
    Kept q p (usbDomainReset s) := by
  unfold usbDomainReset
  repeat' first
    | with_reducible assumption
    | intro _
    | extract_lets
    | with_reducible apply kept_stopRing
    | with_reducible apply kept_resetRegs
    | with_reducible apply kept_foldl
    | with_reducible apply kept_foldl_fst
    | with_reducible apply kept_foldl_snd
    | with_reducible apply kept_with

theorem kept_execUsb4Reset {s : State} (hs : Kept q p s) :
    KeptOut q p (execUsb4Reset s) := by
  unfold execUsb4Reset
  repeat' first
    | with_reducible assumption
    | intro _
    | with_reducible apply keptOut_next
    | exact keptOut_fault _
    | with_reducible apply kept_when
    | with_reducible apply kept_usbDomainReset

end Sys2Proof.Machine
end

