-- ==== Sys2Proof/Laws/KeptFirmware.lean ====
section
/-! SUPPORT. What the operations of Machine/Firmware.lean keep (Laws/Kept.lean). -/

namespace Sys2Proof.Machine

open Sys2Proof

variable {q : List Instr} {p : Part}

theorem kept_setUpd {s : State} (hs : Kept q p s) (v : Nat) :
    Kept q p (setUpd s v) := by
  unfold setUpd
  repeat' first
    | with_reducible assumption
    | intro _
    | with_reducible apply kept_setF

theorem kept_dropTrailer {s : State} (hs : Kept q p s) (k : Nat) :
    Kept q p (dropTrailer s k) := by
  unfold dropTrailer
  repeat' first
    | with_reducible assumption
    | intro _
    | extract_lets
    | with_reducible apply kept_mramPut
    | with_reducible apply kept_ite

theorem kept_execFwLoad (c : Cmd) (mramOk : Bool) {s : State} (hs : Kept q p s) :
    KeptOut q p (execFwLoad c mramOk s) := by
  unfold execFwLoad
  repeat' first
    | with_reducible assumption
    | intro _
    | extract_lets
    | with_reducible apply keptOut_next
    | exact keptOut_fault _
    | with_reducible apply keptOut_ite
    | with_reducible apply kept_runCmd
    | with_reducible apply kept_orFail
    | with_reducible apply kept_mramStore
    | with_reducible apply kept_setUpd
    | with_reducible apply kept_dropTrailer
    | with_reducible apply kept_answer

theorem kept_execFwCommit (c : Cmd) (mramOk : Bool) {s : State} (hs : Kept q p s) :
    KeptOut q p (execFwCommit c mramOk s) := by
  unfold execFwCommit
  repeat' first
    | with_reducible assumption
    | intro _
    | extract_lets
    | with_reducible apply keptOut_next
    | exact keptOut_fault _
    | with_reducible apply keptOut_ite
    | with_reducible apply kept_runCmd
    | with_reducible apply kept_orFail
    | with_reducible apply kept_mramStore
    | with_reducible apply kept_answer
    | with_reducible apply kept_setUpd
    | with_reducible apply kept_ite

theorem kept_execFwActivate (c : Cmd) {s : State} (hs : Kept q p s) :
    KeptOut q p (execFwActivate c s) := by
  unfold execFwActivate
  repeat' first
    | with_reducible assumption
    | intro _
    | extract_lets
    | with_reducible apply keptOut_next
    | exact keptOut_fault _
    | with_reducible apply kept_runCmd
    | with_reducible apply kept_orFail
    | with_reducible apply kept_begin
    | with_reducible apply kept_setUpd
    | with_reducible apply kept_count
    | with_reducible apply kept_orFail
    | with_reducible apply kept_with

theorem kept_loadVec {s : State} (hs : Kept q p s) (n : Nat) (k : Nat) :
    Kept q p (loadVec s n k) := by
  unfold loadVec
  repeat' first
    | with_reducible assumption
    | intro _
    | with_reducible apply kept_setF

theorem kept_coreOn {s : State} (hs : Kept q p s) (n : Nat) (k : Nat) :
    Kept q p (coreOn s n k) := by
  unfold coreOn
  repeat' first
    | with_reducible assumption
    | intro _
    | extract_lets
    | with_reducible apply kept_loadVec
    | with_reducible apply kept_setCore

theorem kept_updateDone {s : State} (hs : Kept q p s) (u : Update) :
    Kept q p (updateDone s u) := by
  unfold updateDone
  repeat' first
    | with_reducible assumption
    | intro _
    | extract_lets
    | with_reducible apply kept_setF
    | with_reducible apply kept_setUpd
    | with_reducible apply kept_reply
    | with_reducible apply kept_with

theorem kept_updateRollback {s : State} (hs : Kept q p s) (u : Update) :
    Kept q p (updateRollback s u) := by
  unfold updateRollback
  repeat' first
    | with_reducible assumption
    | intro _
    | extract_lets
    | with_reducible apply kept_coreOn
    | with_reducible apply kept_answer
    | with_reducible apply kept_count
    | with_reducible apply kept_setUpd
    | with_reducible apply kept_with

theorem kept_moveTargets {s : State} (hs : Kept q p s) (n : CoreN) :
    Kept q p (moveTargets s n) := by
  unfold moveTargets
  repeat' first
    | with_reducible assumption
    | intro _
    | with_reducible apply kept_retarget
    | with_reducible apply kept_setCore
    | with_reducible apply kept_ite

theorem kept_coreUpdated {s : State} (hs : Kept q p s) (u : Update) (n : CoreN) (pass : Bool) :
    Kept q p (coreUpdated s u n pass) := by
  unfold coreUpdated
  repeat' first
    | with_reducible assumption
    | intro _
    | extract_lets
    | with_reducible apply kept_moveTargets
    | with_reducible apply kept_updateRollback
    | with_reducible apply kept_coreOn
    | with_reducible apply kept_fault
    | with_reducible apply kept_loadVec
    | with_reducible apply kept_updateDone
    | with_reducible apply kept_ite
    | split
    | with_reducible apply kept_with

theorem kept_execFwCoreRestart (n : CoreN) (pass : Bool) {s : State} (hs : Kept q p s) :
    KeptOut q p (execFwCoreRestart n pass s) := by
  unfold execFwCoreRestart
  repeat' first
    | with_reducible assumption
    | intro _
    | with_reducible apply keptOut_next
    | exact keptOut_fault _
    | with_reducible apply kept_when
    | with_reducible apply kept_coreUpdated
    | with_reducible apply kept_when
    | split

theorem kept_wrCoreCtrl {s : State} (hs : Kept q p s) (n : CoreN) (v : Reg32) :
    Kept q p (wrCoreCtrl s n v) := by
  unfold wrCoreCtrl
  repeat' first
    | with_reducible assumption
    | intro _
    | extract_lets
    | with_reducible apply kept_coreStart
    | with_reducible apply kept_ite
    | split
    | with_reducible apply kept_with

theorem kept_execCoreRestart (n : CoreN) (v : Reg32) {s : State} (hs : Kept q p s) :
    KeptOut q p (execCoreRestart n v s) := by
  unfold execCoreRestart
  repeat' first
    | with_reducible assumption
    | intro _
    | with_reducible apply keptOut_next
    | exact keptOut_fault _
    | with_reducible apply kept_atReg
    | with_reducible apply kept_wrCoreCtrl

end Sys2Proof.Machine
end

