-- ==== Sys2Proof/Laws/KeptResets.lean ====
section
/-! SUPPORT. What the operations of Machine/Resets.lean keep (Laws/Kept.lean). -/

namespace Sys2Proof.Machine

open Sys2Proof

variable {q : List Instr} {p : Part}

theorem kept_fltReset {s : State} (hs : Kept q p s) :
    Kept q p (fltReset s) := by
  unfold fltReset
  repeat' first
    | with_reducible assumption
    | intro _
    | with_reducible apply kept_setFlt
    | with_reducible apply kept_foldl
    | with_reducible apply kept_foldl_fst
    | with_reducible apply kept_foldl_snd
    | split

theorem kept_portsReset {s : State} (hs : Kept q p s) :
    Kept q p (portsReset s) := by
  unfold portsReset
  repeat' first
    | with_reducible assumption
    | intro _
    | with_reducible apply kept_setPort
    | with_reducible apply kept_foldUpTo

theorem kept_haspReset {s : State} (hs : Kept q p s) (x : ResetScope) :
    Kept q p (haspReset s x) := by
  unfold haspReset
  repeat' first
    | with_reducible assumption
    | intro _
    | extract_lets
    | with_reducible apply kept_fltReset
    | with_reducible apply kept_resetRegs
    | with_reducible apply kept_modTum
    | with_reducible apply kept_portsReset
    | with_reducible apply kept_setF
    | with_reducible apply kept_ite
    | with_reducible apply kept_foldUpTo
    | with_reducible apply kept_foldUpTo_fst
    | with_reducible apply kept_foldUpTo_snd
    | split
    | with_reducible apply kept_with

theorem kept_setCause {s : State} (hs : Kept q p s) (c : Nat) :
    Kept q p (setCause s c) := by
  unfold setCause
  repeat' first
    | with_reducible assumption
    | intro _
    | with_reducible apply kept_setF

theorem kept_powerOn {s : State} (hs : Kept q p s) (c : Nat) : Kept q p (powerOn s c) := by
  unfold powerOn
  extract_lets
  refine kept_setCause (kept_wr ?_ _ _) _
  exact ⟨hs.1, hs.2.1, rfl, hs.2.2.2.1, rfl⟩

theorem kept_powerOff {s : State} (hs : Kept q p s) :
    Kept q p (powerOff s) := by
  unfold powerOff
  repeat' first
    | with_reducible assumption
    | intro _
    | extract_lets
    | with_reducible apply kept_powerOn
    | with_reducible apply kept_with

theorem kept_execPorstN {s : State} (hs : Kept q p s) :
    KeptOut q p (execPorstN s) := by
  unfold execPorstN
  repeat' first
    | with_reducible assumption
    | intro _
    | extract_lets
    | with_reducible apply keptOut_next
    | exact keptOut_fault _
    | with_reducible apply keptOut_ite
    | with_reducible apply kept_when
    | with_reducible apply kept_powerOn
    | with_reducible apply kept_powerOff
    | with_reducible apply kept_when
    | with_reducible apply kept_ite
    | split
    | with_reducible apply kept_with

theorem kept_alertNow {s : State} (hs : Kept q p s) :
    Kept q p (alertNow s) := by
  unfold alertNow
  repeat' first
    | with_reducible assumption
    | intro _
    | with_reducible apply kept_setAlert

theorem kept_countWarm {s : State} (hs : Kept q p s) :
    Kept q p (countWarm s) := by
  unfold countWarm
  repeat' first
    | with_reducible assumption
    | intro _
    | with_reducible apply kept_setF

theorem kept_warmBoot {s : State} (hs : Kept q p s) :
    Kept q p (warmBoot s) := by
  unfold warmBoot
  repeat' first
    | with_reducible assumption
    | intro _
    | extract_lets
    | with_reducible apply kept_setCause
    | with_reducible apply kept_setF
    | with_reducible apply kept_ite
    | split
    | with_reducible apply kept_with

theorem kept_warmReset {s : State} (hs : Kept q p s) :
    Kept q p (warmReset s) := by
  unfold warmReset
  repeat' first
    | with_reducible assumption
    | intro _
    | extract_lets
    | with_reducible apply kept_portReset
    | with_reducible apply kept_countWarm
    | with_reducible apply kept_haspReset
    | with_reducible apply kept_alertNow
    | with_reducible apply kept_warmBoot
    | with_reducible apply kept_ite
    | with_reducible apply kept_foldl
    | with_reducible apply kept_foldl_fst
    | with_reducible apply kept_foldl_snd
    | split
    | with_reducible apply kept_with

theorem kept_evalRefLoss {s : State} (hs : Kept q p s) :
    Kept q p (evalRefLoss s) := by
  unfold evalRefLoss
  repeat' first
    | with_reducible assumption
    | intro _
    | with_reducible apply kept_fault
    | with_reducible apply kept_condEnd
    | with_reducible apply kept_ite

theorem kept_leaveHold {s : State} (hs : Kept q p s) :
    Kept q p (leaveHold s) := by
  unfold leaveHold
  repeat' first
    | with_reducible assumption
    | intro _
    | extract_lets
    | with_reducible apply kept_setF
    | with_reducible apply kept_evalRefLoss
    | with_reducible apply kept_with

theorem kept_warmExit {s : State} (hs : Kept q p s) :
    Kept q p (warmExit s) := by
  unfold warmExit
  repeat' first
    | with_reducible assumption
    | intro _
    | with_reducible apply kept_warmReset
    | with_reducible apply kept_leaveHold
    | with_reducible apply kept_ite

theorem kept_execWrstN {s : State} (hs : Kept q p s) :
    KeptOut q p (execWrstN s) := by
  unfold execWrstN
  repeat' first
    | with_reducible assumption
    | intro _
    | extract_lets
    | with_reducible apply keptOut_next
    | exact keptOut_fault _
    | with_reducible apply keptOut_ite
    | with_reducible apply kept_when
    | with_reducible apply kept_warmExit
    | with_reducible apply kept_warmReset
    | with_reducible apply kept_when
    | with_reducible apply kept_ite
    | split
    | with_reducible apply kept_with

theorem kept_execWrstNRise {s : State} (hs : Kept q p s) :
    KeptOut q p (execWrstNRise s) := by
  unfold execWrstNRise
  repeat' first
    | with_reducible assumption
    | intro _
    | extract_lets
    | with_reducible apply keptOut_next
    | exact keptOut_fault _
    | with_reducible apply keptOut_ite
    | with_reducible apply kept_when
    | with_reducible apply kept_warmBoot
    | with_reducible apply kept_when
    | with_reducible apply kept_ite
    | split
    | with_reducible apply kept_with

theorem kept_execPortLogicReset (p0 : PortN) {s : State} (hs : Kept q p s) :
    KeptOut q p (execPortLogicReset p0 s) := by
  unfold execPortLogicReset
  repeat' first
    | with_reducible assumption
    | intro _
    | with_reducible apply keptOut_next
    | exact keptOut_fault _
    | with_reducible apply kept_when
    | with_reducible apply kept_fromOff
    | with_reducible apply kept_portReset

end Sys2Proof.Machine
end

