-- ==== Sys2Proof/Laws/KeptPower.lean ====
section
/-! SUPPORT. What the operations of Machine/Power.lean keep (Laws/Kept.lean). -/

namespace Sys2Proof.Machine

open Sys2Proof

variable {q : List Instr} {p : Part}

theorem kept_execFrontStageStart {s : State} (hs : Kept q p s) :
    KeptOut q p (execFrontStageStart s) := by
  unfold execFrontStageStart
  repeat' first
    | with_reducible assumption
    | intro _
    | extract_lets
    | with_reducible apply keptOut_next
    | exact keptOut_fault _
    | with_reducible apply keptOut_ite
    | with_reducible apply kept_powerOn
    | with_reducible apply kept_ite
    | split
    | with_reducible apply kept_with

theorem kept_execFrontStageStop {s : State} (hs : Kept q p s) :
    KeptOut q p (execFrontStageStop s) := by
  unfold execFrontStageStop
  repeat' first
    | with_reducible assumption
    | intro _
    | with_reducible apply keptOut_next
    | exact keptOut_fault _
    | with_reducible apply kept_powerOff
    | split
    | with_reducible apply kept_with

theorem kept_railUp {s : State} (hs : Kept q p s) (r : Nat) :
    Kept q p (railUp s r) := by
  unfold railUp
  repeat' first
    | with_reducible assumption
    | intro _
    | extract_lets
    | with_reducible apply kept_setF
    | with_reducible apply kept_ite
    | split
    | with_reducible apply kept_with

theorem kept_railsComplete {s : State} (hs : Kept q p s) :
    Kept q p (railsComplete s) := by
  unfold railsComplete
  repeat' first
    | with_reducible assumption
    | intro _
    | extract_lets
    | with_reducible apply kept_setF
    | with_reducible apply kept_with

theorem kept_railStep {s : State} (hs : Kept q p s) :
    Kept q p (railStep s) := by
  unfold railStep
  repeat' first
    | with_reducible assumption
    | intro _
    | extract_lets
    | with_reducible apply kept_railUp
    | with_reducible apply kept_railsComplete
    | with_reducible apply kept_ite
    | with_reducible apply kept_foldl
    | with_reducible apply kept_foldl_fst
    | with_reducible apply kept_foldl_snd
    | split
    | with_reducible apply kept_with

theorem kept_execRailSequenceStep {s : State} (hs : Kept q p s) :
    KeptOut q p (execRailSequenceStep s) := by
  unfold execRailSequenceStep
  repeat' first
    | with_reducible assumption
    | intro _
    | with_reducible apply keptOut_next
    | exact keptOut_fault _
    | with_reducible apply kept_when
    | with_reducible apply kept_railStep

theorem kept_execIvrRampStep (r : Fin 8) {s : State} (hs : Kept q p s) :
    KeptOut q p (execIvrRampStep r s) := by
  unfold execIvrRampStep
  repeat' first
    | with_reducible assumption
    | intro _
    | extract_lets
    | with_reducible apply keptOut_next
    | exact keptOut_fault _
    | with_reducible apply kept_when
    | with_reducible apply kept_setF

theorem kept_wrTarget {s : State} (hs : Kept q p s) (r : Nat) (v : Reg32) :
    Kept q p (wrTarget s r v) := by
  unfold wrTarget
  repeat' first
    | with_reducible assumption
    | intro _
    | extract_lets
    | with_reducible apply kept_putReg

theorem kept_execSenIvrTargetWrite (r : Fin 8) (v : Reg32) {s : State} (hs : Kept q p s) :
    KeptOut q p (execSenIvrTargetWrite r v s) := by
  unfold execSenIvrTargetWrite
  repeat' first
    | with_reducible assumption
    | intro _
    | with_reducible apply keptOut_next
    | exact keptOut_fault _
    | with_reducible apply kept_atReg
    | with_reducible apply kept_wrTarget

theorem kept_wrQuiet {s : State} (hs : Kept q p s) (w : Nat) (v : Reg32) :
    Kept q p (wrQuiet s w v) := by
  unfold wrQuiet
  repeat' first
    | with_reducible assumption
    | intro _
    | with_reducible apply kept_quietWake
    | with_reducible apply kept_putReg

theorem kept_execQuietBitWrite (w : Fin 3) (v : Reg32) {s : State} (hs : Kept q p s) :
    KeptOut q p (execQuietBitWrite w v s) := by
  unfold execQuietBitWrite
  repeat' first
    | with_reducible assumption
    | intro _
    | with_reducible apply keptOut_next
    | exact keptOut_fault _
    | with_reducible apply kept_atReg
    | with_reducible apply kept_wrQuiet

theorem kept_evalHoldLow {s : State} (hs : Kept q p s) :
    Kept q p (evalHoldLow s) := by
  unfold evalHoldLow
  repeat' first
    | with_reducible assumption
    | intro _
    | with_reducible apply kept_fault
    | with_reducible apply kept_condEnd
    | with_reducible apply kept_ite

theorem kept_execHoldOkChange (ok : Bool) {s : State} (hs : Kept q p s) :
    KeptOut q p (execHoldOkChange ok s) := by
  unfold execHoldOkChange
  repeat' first
    | with_reducible assumption
    | intro _
    | with_reducible apply keptOut_next
    | exact keptOut_fault _
    | with_reducible apply kept_when
    | with_reducible apply kept_evalHoldLow
    | with_reducible apply kept_setF

theorem kept_brownOutSeen {s : State} (hs : Kept q p s) (slope : Bool) :
    Kept q p (brownOutSeen s slope) := by
  unfold brownOutSeen
  repeat' first
    | with_reducible assumption
    | intro _
    | extract_lets
    | with_reducible apply kept_setF
    | with_reducible apply kept_wr
    | with_reducible apply kept_fault
    | with_reducible apply kept_ibi
    | with_reducible apply kept_count

theorem kept_execBrownOut (slope : Bool) {s : State} (hs : Kept q p s) :
    KeptOut q p (execBrownOut slope s) := by
  unfold execBrownOut
  repeat' first
    | with_reducible assumption
    | intro _
    | extract_lets
    | with_reducible apply keptOut_next
    | exact keptOut_fault _
    | with_reducible apply keptOut_ite
    | with_reducible apply kept_when
    | with_reducible apply kept_brownOutSeen
    | with_reducible apply kept_beginDrain
    | with_reducible apply kept_when
    | with_reducible apply kept_ite

theorem kept_execVinHigh {s : State} (hs : Kept q p s) :
    KeptOut q p (execVinHigh s) := by
  unfold execVinHigh
  repeat' first
    | with_reducible assumption
    | intro _
    | with_reducible apply keptOut_next
    | exact keptOut_fault _
    | with_reducible apply kept_when
    | with_reducible apply kept_fault

theorem kept_drainEnd {s : State} (hs : Kept q p s) (t : Tum) :
    Kept q p (drainEnd s t) := by
  unfold drainEnd
  repeat' first
    | with_reducible assumption
    | intro _
    | extract_lets
    | with_reducible apply kept_setQ
    | with_reducible apply kept_selfEntry
    | with_reducible apply kept_ite
    | split
    | with_reducible apply kept_with

theorem kept_execDrainComplete (t : Tum) {s : State} (hs : Kept q p s) :
    KeptOut q p (execDrainComplete t s) := by
  unfold execDrainComplete
  repeat' first
    | with_reducible assumption
    | intro _
    | with_reducible apply keptOut_next
    | exact keptOut_fault _
    | with_reducible apply kept_when
    | with_reducible apply kept_drainEnd

theorem kept_commitWrites {s : State} (hs : Kept q p s) (c : DrainCause) (recorded : Bool) :
    Kept q p (commitWrites s c recorded) := by
  unfold commitWrites
  repeat' first
    | with_reducible assumption
    | intro _
    | extract_lets
    | with_reducible apply kept_flushTail
    | with_reducible apply kept_commitDiverged
    | with_reducible apply kept_fresh
    | with_reducible apply kept_mramPut
    | with_reducible apply kept_ite

theorem kept_railsOff {s : State} (hs : Kept q p s) (c : DrainCause) :
    Kept q p (railsOff s c) := by
  unfold railsOff
  repeat' first
    | with_reducible assumption
    | intro _
    | extract_lets
    | with_reducible apply kept_haspReset
    | with_reducible apply kept_ite
    | split
    | with_reducible apply kept_with

theorem kept_commitDone {s : State} (hs : Kept q p s) (c : DrainCause) :
    Kept q p (commitDone s c) := by
  unfold commitDone
  repeat' first
    | with_reducible assumption
    | intro _
    | extract_lets
    | with_reducible apply kept_setF
    | with_reducible apply kept_commitWrites
    | with_reducible apply kept_railsOff
    | with_reducible apply kept_ibi
    | with_reducible apply kept_warmExit
    | with_reducible apply kept_ite
    | split
    | with_reducible apply kept_with

theorem kept_execMramCommitDone {s : State} (hs : Kept q p s) :
    KeptOut q p (execMramCommitDone s) := by
  unfold execMramCommitDone
  repeat' first
    | with_reducible assumption
    | intro _
    | with_reducible apply keptOut_next
    | exact keptOut_fault _
    | with_reducible apply kept_when
    | with_reducible apply kept_commitDone
    | with_reducible apply kept_flushTail
    | with_reducible apply kept_when
    | split

theorem kept_resume {s : State} (hs : Kept q p s) (c : Nat) :
    Kept q p (resume s c) := by
  unfold resume
  repeat' first
    | with_reducible assumption
    | intro _
    | with_reducible apply kept_setCause
    | with_reducible apply kept_leaveHold

theorem kept_execVinRecovery {s : State} (hs : Kept q p s) :
    KeptOut q p (execVinRecovery s) := by
  unfold execVinRecovery
  repeat' first
    | with_reducible assumption
    | intro _
    | with_reducible apply keptOut_next
    | exact keptOut_fault _
    | with_reducible apply kept_when
    | with_reducible apply kept_resume
    | with_reducible apply kept_setF

theorem kept_execHoldExitVin {s : State} (hs : Kept q p s) :
    KeptOut q p (execHoldExitVin s) := by
  unfold execHoldExitVin
  repeat' first
    | with_reducible assumption
    | intro _
    | with_reducible apply keptOut_next
    | exact keptOut_fault _
    | with_reducible apply kept_when
    | with_reducible apply kept_resume

theorem kept_execHoldVinLow {s : State} (hs : Kept q p s) :
    KeptOut q p (execHoldVinLow s) := by
  unfold execHoldVinLow
  repeat' first
    | with_reducible assumption
    | intro _
    | with_reducible apply keptOut_next
    | exact keptOut_fault _
    | split
    | with_reducible apply kept_with

theorem kept_refLost {s : State} (hs : Kept q p s) :
    Kept q p (refLost s) := by
  unfold refLost
  repeat' first
    | with_reducible assumption
    | intro _
    | extract_lets
    | with_reducible apply kept_setF
    | with_reducible apply kept_count
    | with_reducible apply kept_raise
    | with_reducible apply kept_evalRefLoss
    | with_reducible apply kept_ite

theorem kept_execRefclkLoss {s : State} (hs : Kept q p s) :
    KeptOut q p (execRefclkLoss s) := by
  unfold execRefclkLoss
  repeat' first
    | with_reducible assumption
    | intro _
    | with_reducible apply keptOut_next
    | exact keptOut_fault _
    | with_reducible apply kept_when
    | with_reducible apply kept_refLost

theorem kept_execRefclkReturn {s : State} (hs : Kept q p s) :
    KeptOut q p (execRefclkReturn s) := by
  unfold execRefclkReturn
  repeat' first
    | with_reducible assumption
    | intro _
    | with_reducible apply keptOut_next
    | exact keptOut_fault _
    | with_reducible apply kept_when
    | with_reducible apply kept_evalRefLoss
    | with_reducible apply kept_setF

end Sys2Proof.Machine
end

