-- ==== Sys2Proof/Laws/KeptBoot.lean ====
section
/-! SUPPORT. What the operations of Machine/Boot.lean keep (Laws/Kept.lean). -/

namespace Sys2Proof.Machine

open Sys2Proof

variable {q : List Instr} {p : Part}

theorem kept_setStage {s : State} (hs : Kept q p s) (n : Nat) :
    Kept q p (setStage s n) := by
  unfold setStage
  repeat' first
    | with_reducible assumption
    | intro _
    | with_reducible apply kept_setF

theorem kept_againSuspect {s : State} (hs : Kept q p s) :
    Kept q p (againSuspect s) := by
  unfold againSuspect
  repeat' first
    | with_reducible assumption
    | intro _
    | with_reducible apply kept_fault
    | with_reducible apply kept_foldl

theorem kept_checkStores {s : State} (hs : Kept q p s) :
    Kept q p (checkStores s) := by
  unfold checkStores
  repeat' first
    | with_reducible assumption
    | intro _
    | extract_lets
    | with_reducible apply kept_setF
    | with_reducible apply kept_fault
    | with_reducible apply kept_setStage
    | with_reducible apply kept_againSuspect
    | with_reducible apply kept_ite

theorem kept_loadLeaf {s : State} (hs : Kept q p s) (t : Nat) :
    Kept q p (loadLeaf s t) := by
  unfold loadLeaf
  repeat' first
    | with_reducible assumption
    | intro _
    | extract_lets
    | with_reducible apply kept_wr
    | with_reducible apply kept_ite
    | with_reducible apply kept_foldUpTo
    | with_reducible apply kept_foldUpTo_fst
    | with_reducible apply kept_foldUpTo_snd
    | split

theorem kept_loadRemap {s : State} (hs : Kept q p s) (i : Nat) :
    Kept q p (loadRemap s i) := by
  unfold loadRemap
  repeat' first
    | with_reducible assumption
    | intro _
    | extract_lets
    | with_reducible apply kept_mramPut
    | with_reducible apply kept_wr
    | with_reducible apply kept_ite

theorem kept_putRegion {s : State} (hs : Kept q p s) (r : Nat) (epoch : Nat) (sweep : Nat) (mode : Nat) (home : Nat) :
    Kept q p (putRegion s r epoch sweep mode home) := by
  unfold putRegion
  repeat' first
    | with_reducible assumption
    | intro _
    | extract_lets
    | with_reducible apply kept_wr

theorem kept_loadRegions {s : State} (hs : Kept q p s) (paired : Bool) :
    Kept q p (loadRegions s paired) := by
  unfold loadRegions
  repeat' first
    | with_reducible assumption
    | intro _
    | extract_lets
    | with_reducible apply kept_putRegion
    | with_reducible apply kept_setF
    | with_reducible apply kept_ite
    | with_reducible apply kept_foldUpTo

theorem kept_restartSweeps {s : State} (hs : Kept q p s) :
    Kept q p (restartSweeps s) := by
  unfold restartSweeps
  repeat' first
    | with_reducible assumption
    | intro _
    | extract_lets
    | with_reducible apply kept_oweSweeps
    | with_reducible apply kept_ite
    | with_reducible apply kept_foldUpTo
    | with_reducible apply kept_foldUpTo_fst
    | with_reducible apply kept_foldUpTo_snd
    | split
    | with_reducible apply kept_with

theorem kept_loadPair {s : State} (hs : Kept q p s) :
    Kept q p (loadPair s) := by
  unfold loadPair
  repeat' first
    | with_reducible assumption
    | intro _
    | extract_lets
    | with_reducible apply kept_wr
    | with_reducible apply kept_setF
    | with_reducible apply kept_ite
    | with_reducible apply kept_foldUpTo
    | with_reducible apply kept_foldUpTo_fst
    | with_reducible apply kept_foldUpTo_snd
    | split
    | with_reducible apply kept_with

theorem kept_loadPreserved {s : State} (hs : Kept q p s) :
    Kept q p (loadPreserved s) := by
  unfold loadPreserved
  repeat' first
    | with_reducible assumption
    | intro _
    | extract_lets
    | with_reducible apply kept_loadPair
    | with_reducible apply kept_setF
    | with_reducible apply kept_restartSweeps
    | with_reducible apply kept_loadRegions

theorem kept_startCores {s : State} (hs : Kept q p s) : Kept q p (startCores s) := by
  unfold startCores
  extract_lets s1
  have h1 : Kept q p s1 := by
    unfold s1
    split
    · exact kept_foldUpTo _ _ (fun u n hu => kept_loadVec hu _ _) (kept_setF (kept_setF hs _ _ _ _) _ _ _ _)
    · have h := kept_fresh hs
      generalize fresh s = f at h
      obtain ⟨f, u⟩ := f
      exact kept_foldUpTo _ _ (fun u n hu => kept_setF hu _ _ _ _) (kept_setF (kept_setF h _ _ _ _) _ _ _ _)
  exact kept_foldUpTo _ _ (fun u n hu => kept_coreStart hu _) h1

theorem kept_haspOn {s : State} (hs : Kept q p s) :
    Kept q p (haspOn s) := by
  unfold haspOn
  repeat' first
    | with_reducible assumption
    | intro _
    | with_reducible apply kept_with

theorem kept_loadStores {s : State} (hs : Kept q p s) : Kept q p (loadStores s) := by
  unfold loadStores
  extract_lets pw s1 s2 s3 s4
  have h1 : Kept q p s1 := hs
  have h2 : Kept q p s2 := by
    unfold s2
    split
    · exact kept_loadCal h1 _
    · exact h1
  have h3 : Kept q p s3 := kept_foldUpTo _ loadRemap (fun u i hu => kept_loadRemap hu _)
    (kept_foldUpTo _ loadLeaf (fun u t hu => kept_loadLeaf hu _) h2)
  have h4 : Kept q p s4 := kept_ite (kept_loadPreserved h3) (kept_setF h3 _ _ _ _)
  exact kept_setStage (kept_startCores (kept_againSuspect (kept_haspOn h4))) _

theorem kept_trainSets {s : State} (hs : Kept q p s) (t : Nat) :
    Kept q p (trainSets s t) := by
  unfold trainSets
  repeat' first
    | with_reducible assumption
    | intro _
    | extract_lets
    | with_reducible apply kept_fresh
    | with_reducible apply kept_setF
    | with_reducible apply kept_foldUpTo

theorem kept_trainLevels {s : State} (hs : Kept q p s) (t : Nat) (r : Nat) :
    Kept q p (trainLevels s t r) := by
  unfold trainLevels
  repeat' first
    | with_reducible assumption
    | intro _
    | extract_lets
    | with_reducible apply kept_setF
    | with_reducible apply kept_count
    | with_reducible apply kept_fresh
    | with_reducible apply kept_wr
    | with_reducible apply kept_foldUpTo

theorem kept_bringRate {s : State} (hs : Kept q p s) (t : Nat) (r : Nat) :
    Kept q p (bringRate s t r) := by
  unfold bringRate
  repeat' first
    | with_reducible assumption
    | intro _
    | extract_lets
    | with_reducible apply kept_count
    | with_reducible apply kept_setF
    | with_reducible apply kept_ite

theorem kept_bringTrain {s : State} (hs : Kept q p s) (t : Nat) :
    Kept q p (bringTrain s t).1 := by
  unfold bringTrain
  repeat' first
    | with_reducible assumption
    | intro _
    | extract_lets
    | with_reducible apply kept_fresh
    | with_reducible apply kept_count
    | with_reducible apply kept_setF
    | with_reducible apply kept_trainSets
    | with_reducible apply kept_ite
    | split

theorem kept_bringFails {s : State} (hs : Kept q p s) (t : Tum) :
    Kept q p (bringFails s t) := by
  unfold bringFails
  repeat' first
    | with_reducible assumption
    | intro _
    | extract_lets
    | with_reducible apply kept_fresh
    | with_reducible apply kept_openShadow
    | with_reducible apply kept_recordQuiet
    | with_reducible apply kept_selfEntry
    | with_reducible apply kept_releaseRegions
    | with_reducible apply kept_setMode
    | with_reducible apply kept_ite

theorem kept_bringOnline {s : State} (hs : Kept q p s) (t : Nat) :
    Kept q p (bringOnline s t) := by
  unfold bringOnline
  repeat' first
    | with_reducible assumption
    | intro _
    | extract_lets
    | with_reducible apply kept_leaveSelf
    | with_reducible apply kept_restartRefresh
    | with_reducible apply kept_setMode
    | with_reducible apply kept_ite

theorem kept_bringUp {s : State} (hs : Kept q p s) (t : Tum) :
    Kept q p (bringUp s t) := by
  unfold bringUp
  repeat' first
    | with_reducible assumption
    | intro _
    | with_reducible apply kept_bringTrain
    | with_reducible apply kept_bringFails
    | with_reducible apply kept_bringOnline
    | with_reducible apply kept_loadSet
    | with_reducible apply kept_trainLevels
    | with_reducible apply kept_bringRate
    | split
    | (with_reducible refine kept_fst (by assumption) ?_)

theorem kept_groupStart {s : State} (hs : Kept q p s) (g : Nat) :
    Kept q p (groupStart s g) := by
  unfold groupStart
  repeat' first
    | with_reducible assumption
    | intro _
    | extract_lets
    | with_reducible apply kept_bringUp
    | with_reducible apply kept_ite
    | with_reducible apply kept_foldl
    | with_reducible apply kept_foldl_fst
    | with_reducible apply kept_foldl_snd
    | split
    | with_reducible apply kept_with

theorem kept_execTumblerGroupStart (g : Fin 4) {s : State} (hs : Kept q p s) :
    KeptOut q p (execTumblerGroupStart g s) := by
  unfold execTumblerGroupStart
  repeat' first
    | with_reducible assumption
    | intro _
    | with_reducible apply keptOut_next
    | exact keptOut_fault _
    | with_reducible apply kept_when
    | with_reducible apply kept_groupStart

theorem kept_firmwareUp {s : State} (hs : Kept q p s) :
    Kept q p (firmwareUp s) := by
  unfold firmwareUp
  repeat' first
    | with_reducible assumption
    | intro _
    | extract_lets
    | with_reducible apply kept_setCore
    | with_reducible apply kept_fromOff
    | with_reducible apply kept_setF
    | with_reducible apply kept_groupStart
    | with_reducible apply kept_setStage
    | with_reducible apply kept_ite
    | with_reducible apply kept_foldUpTo
    | with_reducible apply kept_foldUpTo_fst
    | with_reducible apply kept_foldUpTo_snd
    | split
    | with_reducible apply kept_with

theorem kept_bootDone {s : State} (hs : Kept q p s) :
    Kept q p (bootDone s) := by
  unfold bootDone
  repeat' first
    | with_reducible assumption
    | intro _
    | extract_lets
    | with_reducible apply kept_setF
    | with_reducible apply kept_setStage
    | with_reducible apply kept_with

theorem kept_nextStage {s : State} (hs : Kept q p s) :
    Kept q p (nextStage s) := by
  unfold nextStage
  repeat' first
    | with_reducible assumption
    | intro _
    | with_reducible apply kept_setStage
    | with_reducible apply kept_checkStores
    | with_reducible apply kept_loadStores
    | with_reducible apply kept_firmwareUp
    | with_reducible apply kept_bootDone
    | with_reducible apply kept_ite
    | split
    | with_reducible apply kept_with

theorem kept_execBootStage {s : State} (hs : Kept q p s) :
    KeptOut q p (execBootStage s) := by
  unfold execBootStage
  repeat' first
    | with_reducible assumption
    | intro _
    | with_reducible apply keptOut_next
    | exact keptOut_fault _
    | with_reducible apply kept_when
    | with_reducible apply kept_nextStage

end Sys2Proof.Machine
end

