-- ==== Sys2Proof/Laws/KeptThermalRows.lean ====
section
/-! SUPPORT. What the operations of Machine/ThermalRows.lean keep (Laws/Kept.lean). -/

namespace Sys2Proof.Machine

open Sys2Proof

variable {q : List Instr} {p : Part}

theorem kept_takeReadings {s : State} (hs : Kept q p s) (i : ThermIn) :
    Kept q p (takeReadings s i) := by
  unfold takeReadings
  repeat' first
    | with_reducible assumption
    | intro _
    | extract_lets
    | with_reducible apply kept_wr
    | with_reducible apply kept_foldUpTo
    | with_reducible apply kept_foldUpTo_fst
    | with_reducible apply kept_foldUpTo_snd
    | with_reducible apply kept_with

theorem kept_stepModel {s : State} (hs : Kept q p s) (cur : List (BitVec 16)) :
    Kept q p (stepModel s cur) := by
  unfold stepModel
  repeat' first
    | with_reducible assumption
    | intro _
    | extract_lets
    | with_reducible apply kept_ite
    | with_reducible apply kept_foldUpTo
    | with_reducible apply kept_foldUpTo_fst
    | with_reducible apply kept_foldUpTo_snd
    | split
    | with_reducible apply kept_with

theorem kept_stepSuspect {s : State} (hs : Kept q p s) (l : LeafN) :
    Kept q p (stepSuspect s l) := by
  unfold stepSuspect
  repeat' first
    | with_reducible assumption
    | intro _
    | extract_lets
    | with_reducible apply kept_fault
    | with_reducible apply kept_count
    | with_reducible apply kept_ite
    | split
    | with_reducible apply kept_with

theorem kept_stepModelLow {s : State} (hs : Kept q p s) :
    Kept q p (stepModelLow s) := by
  unfold stepModelLow
  repeat' first
    | with_reducible assumption
    | intro _
    | extract_lets
    | with_reducible apply kept_fault
    | with_reducible apply kept_ite
    | with_reducible apply kept_foldUpTo
    | with_reducible apply kept_foldUpTo_fst
    | with_reducible apply kept_foldUpTo_snd
    | split
    | with_reducible apply kept_with

theorem kept_stepFail {s : State} (hs : Kept q p s) (l : LeafN) :
    Kept q p (stepFail s l) := by
  unfold stepFail
  repeat' first
    | with_reducible assumption
    | intro _
    | extract_lets
    | with_reducible apply kept_fault
    | with_reducible apply kept_condEnd
    | with_reducible apply kept_ite

theorem kept_formUsed {s : State} (hs : Kept q p s) :
    Kept q p (formUsed s) := by
  unfold formUsed
  repeat' first
    | with_reducible assumption
    | intro _
    | extract_lets
    | with_reducible apply kept_stepFail
    | with_reducible apply kept_stepModelLow
    | with_reducible apply kept_stepSuspect
    | with_reducible apply kept_ite
    | with_reducible apply kept_foldUpTo
    | with_reducible apply kept_foldUpTo_fst
    | with_reducible apply kept_foldUpTo_snd
    | with_reducible apply kept_foldl
    | with_reducible apply kept_foldl_fst
    | with_reducible apply kept_foldl_snd
    | split
    | with_reducible apply kept_with

theorem kept_sendBand {s : State} (hs : Kept q p s) (l : Nat) (z : Nat) (b : Nat) :
    Kept q p (sendBand s l z b) := by
  unfold sendBand
  repeat' first
    | with_reducible assumption
    | intro _
    | extract_lets
    | with_reducible apply kept_ite
    | with_reducible apply kept_foldUpTo
    | with_reducible apply kept_foldUpTo_fst
    | with_reducible apply kept_foldUpTo_snd
    | split
    | with_reducible apply kept_with

theorem kept_bandChanged {s : State} (hs : Kept q p s) (l : Nat) (z : Nat) (old : Nat) (new : Nat) :
    Kept q p (bandChanged s l z old new) := by
  unfold bandChanged
  repeat' first
    | with_reducible assumption
    | intro _
    | extract_lets
    | with_reducible apply kept_raise
    | with_reducible apply kept_ibi
    | with_reducible apply kept_count
    | with_reducible apply kept_checkExcess
    | with_reducible apply kept_sendBand
    | with_reducible apply kept_endExcess
    | with_reducible apply kept_ite
    | with_reducible apply kept_foldUpTo

theorem kept_stepZone {s : State} (hs : Kept q p s) (k : Nat) :
    Kept q p (stepZone s k) := by
  unfold stepZone
  repeat' first
    | with_reducible assumption
    | intro _
    | extract_lets
    | with_reducible apply kept_bandChanged
    | with_reducible apply kept_ite
    | split
    | with_reducible apply kept_with

theorem kept_stepEmergency {s : State} (hs : Kept q p s) (t : Tum) :
    Kept q p (stepEmergency s t) := by
  unfold stepEmergency
  repeat' first
    | with_reducible assumption
    | intro _
    | extract_lets
    | with_reducible apply kept_setMode
    | with_reducible apply kept_fault
    | with_reducible apply kept_condEnd
    | with_reducible apply kept_wakeFor
    | with_reducible apply kept_ite

theorem kept_stepBands {s : State} (hs : Kept q p s) :
    Kept q p (stepBands s) := by
  unfold stepBands
  repeat' first
    | with_reducible assumption
    | intro _
    | with_reducible apply kept_stepEmergency
    | with_reducible apply kept_stepZone
    | with_reducible apply kept_foldUpTo
    | with_reducible apply kept_foldUpTo_fst
    | with_reducible apply kept_foldUpTo_snd
    | with_reducible apply kept_foldl

theorem kept_hotStep {s : State} (hs : Kept q p s) (c : Nat) (l : List Rat) (hi : Rat) (lo : Rat) (since : Option Nat) :
    Kept q p (hotStep s c l hi lo since).1 := by
  unfold hotStep
  repeat' first
    | with_reducible assumption
    | intro _
    | extract_lets
    | with_reducible apply kept_fault
    | with_reducible apply kept_condEnd
    | with_reducible apply kept_ite

theorem kept_tripStep {s : State} (hs : Kept q p s) (c : Nat) (l : List Rat) (hi : Rat) :
    Kept q p (tripStep s c l hi) := by
  unfold tripStep
  repeat' first
    | with_reducible assumption
    | intro _
    | with_reducible apply kept_fault
    | with_reducible apply kept_ite

theorem kept_stepThresholds {s : State} (hs : Kept q p s) :
    Kept q p (stepThresholds s) := by
  unfold stepThresholds
  repeat' first
    | with_reducible assumption
    | intro _
    | extract_lets
    | with_reducible apply kept_hotStep
    | with_reducible apply kept_tripStep
    | split
    | with_reducible apply kept_with

theorem kept_evaluate {s : State} (hs : Kept q p s) (i : ThermIn) :
    Kept q p (evaluate s i) := by
  unfold evaluate
  repeat' first
    | with_reducible assumption
    | intro _
    | with_reducible apply kept_stepThresholds
    | with_reducible apply kept_stepBands
    | with_reducible apply kept_formUsed
    | with_reducible apply kept_stepModel
    | with_reducible apply kept_takeReadings

theorem kept_execThermalEvaluation (i : ThermIn) {s : State} (hs : Kept q p s) :
    KeptOut q p (execThermalEvaluation i s) := by
  unfold execThermalEvaluation
  repeat' first
    | with_reducible assumption
    | intro _
    | with_reducible apply keptOut_next
    | exact keptOut_fault _
    | with_reducible apply kept_when
    | with_reducible apply kept_evaluate

theorem kept_sliceSelf {s : State} (hs : Kept q p s) (l : Nat) (t : Nat) (temp : Rat) :
    Kept q p (sliceSelf s l t temp) := by
  unfold sliceSelf
  repeat' first
    | with_reducible assumption
    | intro _
    | extract_lets
    | with_reducible apply kept_count
    | with_reducible apply kept_putSet
    | with_reducible apply kept_refreshRows
    | with_reducible apply kept_ite
    | with_reducible apply kept_foldUpTo
    | with_reducible apply kept_foldUpTo_fst
    | with_reducible apply kept_foldUpTo_snd
    | split
    | with_reducible apply kept_with

theorem kept_execLeafSelfRefresh (l : LeafN) (z : Fin 16) (temp : Int) {s : State} (hs : Kept q p s) :
    KeptOut q p (execLeafSelfRefresh l z temp s) := by
  unfold execLeafSelfRefresh
  repeat' first
    | with_reducible assumption
    | intro _
    | extract_lets
    | with_reducible apply keptOut_next
    | exact keptOut_fault _
    | with_reducible apply keptOut_ite
    | with_reducible apply kept_fault
    | with_reducible apply kept_sliceSelf
    | with_reducible apply kept_ite
    | with_reducible apply kept_foldUpTo

end Sys2Proof.Machine
end

