-- ==== Sys2Proof/Laws/KeptCsrRead.lean ====
section
/-! SUPPORT. What the operations of Machine/CsrRead.lean keep (Laws/Kept.lean). -/

namespace Sys2Proof.Machine

open Sys2Proof

variable {q : List Instr} {p : Part}

theorem kept_latchHi {s : State} (hs : Kept q p s) (path : Nat) (off : Nat) :
    Kept q p (latchHi s path off) := by
  unfold latchHi
  repeat' first
    | with_reducible assumption
    | intro _
    | split
    | with_reducible apply kept_with

theorem kept_clearRc {s : State} (hs : Kept q p s) (off : Nat) :
    Kept q p (clearRc s off) := by
  unfold clearRc
  repeat' first
    | with_reducible assumption
    | intro _
    | with_reducible apply kept_wr
    | with_reducible apply kept_ite
    | split

theorem kept_latchFail {s : State} (hs : Kept q p s) (path : Nat) (st : BitVec 16) :
    Kept q p (latchFail s path st) := by
  unfold latchFail
  repeat' first
    | with_reducible assumption
    | intro _
    | extract_lets
    | with_reducible apply kept_wr
    | with_reducible apply kept_fault
    | with_reducible apply kept_ite

theorem kept_readCsr {s : State} (hs : Kept q p s) (path : Nat) (off : Nat) :
    Kept q p (readCsr s path off).1 := by
  unfold readCsr
  repeat' first
    | with_reducible assumption
    | intro _
    | extract_lets
    | with_reducible apply kept_latchFail
    | with_reducible apply kept_clearRc
    | with_reducible apply kept_latchHi
    | with_reducible apply kept_ite
    | split

theorem kept_readOne {s : State} (hs : Kept q p s) (path off : Nat) : Kept q p (readOne s path off) := by
  have h := kept_readCsr hs path off
  unfold readOne
  generalize readCsr s path off = u at h
  exact h

theorem kept_execTimeLoRead (path : Path) {s : State} (hs : Kept q p s) :
    KeptOut q p (execTimeLoRead path s) := by
  unfold execTimeLoRead
  repeat' first
    | with_reducible assumption
    | intro _
    | with_reducible apply keptOut_next
    | exact keptOut_fault _
    | with_reducible apply kept_when
    | with_reducible apply kept_readOne

theorem kept_execReadClear (path : Path) (off : BitVec 26) {s : State} (hs : Kept q p s) :
    KeptOut q p (execReadClear path off s) := by
  unfold execReadClear
  repeat' first
    | with_reducible assumption
    | intro _
    | with_reducible apply keptOut_next
    | exact keptOut_fault _
    | with_reducible apply kept_when
    | with_reducible apply kept_readOne

end Sys2Proof.Machine
end

