-- ==== Sys2Proof/Laws/KeptPattern.lean ====
section
/-! SUPPORT. What the operations of Machine/Pattern.lean keep (Laws/Kept.lean). -/

namespace Sys2Proof.Machine

open Sys2Proof

variable {q : List Instr} {p : Part}

theorem kept_startPatterns {s : State} (hs : Kept q p s) (p0 : Nat) :
    Kept q p (startPatterns s p0) := by
  unfold startPatterns
  repeat' first
    | with_reducible assumption
    | intro _
    | extract_lets
    | with_reducible apply kept_wr
    | with_reducible apply kept_setPhy

theorem kept_moveGens {s : State} (hs : Kept q p s) (p0 : Nat) :
    Kept q p (moveGens s p0) := by
  unfold moveGens
  repeat' first
    | with_reducible assumption
    | intro _
    | extract_lets
    | with_reducible apply kept_setPhy

theorem kept_addBits {s : State} (hs : Kept q p s) (p0 : Nat) (n : Nat) :
    Kept q p (addBits s p0 n) := by
  unfold addBits
  repeat' first
    | with_reducible assumption
    | intro _
    | extract_lets
    | with_reducible apply kept_wr

theorem kept_addErrors {s : State} (hs : Kept q p s) (p0 : Nat) (l : Nat) (n : Nat) :
    Kept q p (addErrors s p0 l n) := by
  unfold addErrors
  repeat' first
    | with_reducible assumption
    | intro _
    | extract_lets
    | with_reducible apply kept_wr
    | with_reducible apply kept_ite

theorem kept_showSync {s : State} (hs : Kept q p s) (p0 : Nat) (l : Nat) (c : Checker) :
    Kept q p (showSync s p0 l c) := by
  unfold showSync
  repeat' first
    | with_reducible assumption
    | intro _
    | with_reducible apply kept_setF

theorem kept_checkLane (f p0 : Nat) {u : State × Nat} (hu : Kept q p u.1) (l : Nat) :
    Kept q p (checkLane f p0 u l).1 := by
  unfold checkLane
  extract_lets s
  split
  · exact hu
  · split
    extract_lets s1
    have h1 : Kept q p s1 := kept_setPhy hu _ _
    exact kept_showSync (kept_addErrors h1 _ _ _) _ _ _

theorem kept_checkPatterns {s : State} (hs : Kept q p s) (p0 f : Nat) : Kept q p (checkPatterns s p0 f) :=
  kept_addBits (kept_foldUpTo_fst _ _ (fun _ _ hu => kept_checkLane _ _ hu _) hs) _ _

theorem kept_dropCheckers {s : State} (hs : Kept q p s) (p0 : Nat) :
    Kept q p (dropCheckers s p0) := by
  unfold dropCheckers
  repeat' first
    | with_reducible assumption
    | intro _
    | extract_lets
    | with_reducible apply kept_showSync
    | with_reducible apply kept_setPhy
    | with_reducible apply kept_ite
    | with_reducible apply kept_foldUpTo

end Sys2Proof.Machine
end

