-- ==== Sys2Proof/Laws/KeptLaneRows.lean ====
section
/-! SUPPORT. What the operations of Machine/LaneRows.lean keep (Laws/Kept.lean). -/

namespace Sys2Proof.Machine

open Sys2Proof

variable {q : List Instr} {p : Part}

theorem kept_eqMove {s : State} (hs : Kept q p s) (p0 : Nat) (l : Nat) :
    Kept q p (eqMove s p0 l) := by
  unfold eqMove
  repeat' first
    | with_reducible assumption
    | intro _
    | extract_lets
    | with_reducible apply kept_count
    | with_reducible apply kept_setF
    | with_reducible apply kept_ite
    | split

theorem kept_execEqCodeMove (p0 : PortN) (l : LaneN) {s : State} (hs : Kept q p s) :
    KeptOut q p (execEqCodeMove p0 l s) := by
  unfold execEqCodeMove
  repeat' first
    | with_reducible assumption
    | intro _
    | with_reducible apply keptOut_next
    | exact keptOut_fault _
    | with_reducible apply kept_when
    | with_reducible apply kept_eqMove

theorem kept_startWaiting {s : State} (hs : Kept q p s) (p0 : Nat) (l : Nat) :
    Kept q p (startWaiting s p0 l) := by
  unfold startWaiting
  repeat' first
    | with_reducible assumption
    | intro _
    | with_reducible apply kept_setF
    | with_reducible apply kept_ite

theorem kept_wrEqOvr {s : State} (hs : Kept q p s) (p0 : PortN) (l : Nat) (v : Reg32) :
    Kept q p (wrEqOvr s p0 l v) := by
  unfold wrEqOvr
  repeat' first
    | with_reducible assumption
    | intro _
    | extract_lets
    | with_reducible apply kept_startWaiting
    | with_reducible apply kept_wrReg
    | with_reducible apply kept_setPhy

theorem kept_execEqOvrWrite (p0 : PortN) (l : LaneN) (v : Reg32) {s : State} (hs : Kept q p s) :
    KeptOut q p (execEqOvrWrite p0 l v s) := by
  unfold execEqOvrWrite
  repeat' first
    | with_reducible assumption
    | intro _
    | with_reducible apply keptOut_next
    | exact keptOut_fault _
    | with_reducible apply kept_atReg
    | with_reducible apply kept_wrEqOvr

theorem kept_adaptLane {s : State} (hs : Kept q p s) (p0 : Nat) (l : Nat) (m : BitVec 9 × BitVec 9 × BitVec 9 × BitVec 6 × BitVec 12) :
    Kept q p (adaptLane s p0 l m) := by
  unfold adaptLane
  repeat' first
    | with_reducible assumption
    | intro _
    | extract_lets
    | with_reducible apply kept_count
    | with_reducible apply kept_setF
    | with_reducible apply kept_setPhy
    | with_reducible apply kept_ite

theorem kept_adaptStep {s : State} (hs : Kept q p s) (p0 : Nat) (meas : List (BitVec 9 × BitVec 9 × BitVec 9 × BitVec 6 × BitVec 12)) :
    Kept q p (adaptStep s p0 meas) := by
  unfold adaptStep
  repeat' first
    | with_reducible assumption
    | intro _
    | extract_lets
    | with_reducible apply kept_adaptLane
    | with_reducible apply kept_setF
    | with_reducible apply kept_setPhy
    | with_reducible apply kept_foldUpTo
    | with_reducible apply kept_foldUpTo_fst
    | with_reducible apply kept_foldUpTo_snd
    | split

theorem kept_execAdaptationStep (p0 : PortN) (meas : List (BitVec 9 × BitVec 9 × BitVec 9 × BitVec 6 × BitVec 12)) {s : State} (hs : Kept q p s) :
    KeptOut q p (execAdaptationStep p0 meas s) := by
  unfold execAdaptationStep
  repeat' first
    | with_reducible assumption
    | intro _
    | with_reducible apply keptOut_next
    | exact keptOut_fault _
    | with_reducible apply kept_when
    | with_reducible apply kept_adaptStep

theorem kept_upwidthNow {s : State} (hs : Kept q p s) (p0 : PortN) :
    Kept q p (upwidthNow s p0) := by
  unfold upwidthNow
  repeat' first
    | with_reducible assumption
    | intro _
    | with_reducible apply kept_toRetrain
    | with_reducible apply kept_clearExclusions
    | with_reducible apply kept_setPhy
    | with_reducible apply kept_paramFault
    | with_reducible apply kept_ite

theorem kept_enterTest {s : State} (hs : Kept q p s) (p0 : Nat) :
    Kept q p (enterTest s p0) := by
  unfold enterTest
  repeat' first
    | with_reducible assumption
    | intro _
    | extract_lets
    | with_reducible apply kept_setF
    | with_reducible apply kept_startPatterns
    | with_reducible apply kept_modPort

theorem kept_leaveTest {s : State} (hs : Kept q p s) (p0 : Nat) :
    Kept q p (leaveTest s p0) := by
  unfold leaveTest
  repeat' first
    | with_reducible assumption
    | intro _
    | extract_lets
    | with_reducible apply kept_setF
    | with_reducible apply kept_setLocks
    | with_reducible apply kept_leaveLink
    | with_reducible apply kept_dropCheckers
    | with_reducible apply kept_modPort

theorem kept_wrPhyCtrl {s : State} (hs : Kept q p s) (p0 : PortN) (v : Reg32) :
    Kept q p (wrPhyCtrl s p0 v) := by
  unfold wrPhyCtrl
  repeat' first
    | with_reducible assumption
    | intro _
    | extract_lets
    | with_reducible apply kept_upwidthNow
    | with_reducible apply kept_setPhy
    | with_reducible apply kept_enterTest
    | with_reducible apply kept_wrReg
    | with_reducible apply kept_putReg
    | with_reducible apply kept_fromOff
    | with_reducible apply kept_leaveTest
    | with_reducible apply kept_ite

theorem kept_execUpwidth (p0 : PortN) (v : Reg32) {s : State} (hs : Kept q p s) :
    KeptOut q p (execUpwidth p0 v s) := by
  unfold execUpwidth
  repeat' first
    | with_reducible assumption
    | intro _
    | with_reducible apply keptOut_next
    | exact keptOut_fault _
    | with_reducible apply kept_atReg
    | with_reducible apply kept_wrPhyCtrl

theorem kept_execAdaptNow (p0 : PortN) (v : Reg32) {s : State} (hs : Kept q p s) :
    KeptOut q p (execAdaptNow p0 v s) := by
  unfold execAdaptNow
  repeat' first
    | with_reducible assumption
    | intro _
    | with_reducible apply keptOut_next
    | exact keptOut_fault _
    | with_reducible apply kept_atReg
    | with_reducible apply kept_wrPhyCtrl

theorem kept_execTestModeWrite (p0 : PortN) (v : Reg32) {s : State} (hs : Kept q p s) :
    KeptOut q p (execTestModeWrite p0 v s) := by
  unfold execTestModeWrite
  repeat' first
    | with_reducible assumption
    | intro _
    | with_reducible apply keptOut_next
    | exact keptOut_fault _
    | with_reducible apply kept_atReg
    | with_reducible apply kept_wrPhyCtrl

theorem kept_wrEsCtrl {s : State} (hs : Kept q p s) (p0 : PortN) (v : Reg32) :
    Kept q p (wrEsCtrl s p0 v) := by
  unfold wrEsCtrl
  repeat' first
    | with_reducible assumption
    | intro _
    | extract_lets
    | with_reducible apply kept_wrReg
    | with_reducible apply kept_endEye
    | with_reducible apply kept_paramFault
    | with_reducible apply kept_setPhy
    | with_reducible apply kept_setF
    | with_reducible apply kept_ite

theorem kept_execEyeScanStart (p0 : PortN) (v : Reg32) {s : State} (hs : Kept q p s) :
    KeptOut q p (execEyeScanStart p0 v s) := by
  unfold execEyeScanStart
  repeat' first
    | with_reducible assumption
    | intro _
    | with_reducible apply keptOut_next
    | exact keptOut_fault _
    | with_reducible apply kept_atReg
    | with_reducible apply kept_wrEsCtrl

theorem kept_execEyeScanAbort (p0 : PortN) (v : Reg32) {s : State} (hs : Kept q p s) :
    KeptOut q p (execEyeScanAbort p0 v s) := by
  unfold execEyeScanAbort
  repeat' first
    | with_reducible assumption
    | intro _
    | with_reducible apply keptOut_next
    | exact keptOut_fault _
    | with_reducible apply kept_atReg
    | with_reducible apply kept_wrEsCtrl

theorem kept_storeEye {s : State} (hs : Kept q p s) (p0 : Nat) (v : Reg32) (counts : List Nat) :
    Kept q p (storeEye s p0 v counts) := by
  unfold storeEye
  repeat' first
    | with_reducible assumption
    | intro _
    | extract_lets
    | with_reducible apply kept_wr
    | with_reducible apply kept_ite
    | with_reducible apply kept_foldl

theorem kept_finishEye {s : State} (hs : Kept q p s) (p0 : Nat) (v : Reg32) (counts : List Nat) (low : Bool) :
    Kept q p (finishEye s p0 v counts low) := by
  unfold finishEye
  repeat' first
    | with_reducible assumption
    | intro _
    | extract_lets
    | with_reducible apply kept_setF
    | with_reducible apply kept_storeEye
    | with_reducible apply kept_setPhy
    | with_reducible apply kept_ite

theorem kept_execEyeScanDone (p0 : PortN) (counts : List Nat) (low : Bool) {s : State} (hs : Kept q p s) :
    KeptOut q p (execEyeScanDone p0 counts low s) := by
  unfold execEyeScanDone
  repeat' first
    | with_reducible assumption
    | intro _
    | with_reducible apply keptOut_next
    | exact keptOut_fault _
    | with_reducible apply kept_when
    | with_reducible apply kept_finishEye
    | with_reducible apply kept_when
    | split

theorem kept_clearChecks {s : State} (hs : Kept q p s) (p0 : Nat) :
    Kept q p (clearChecks s p0) := by
  unfold clearChecks
  repeat' first
    | with_reducible assumption
    | intro _
    | extract_lets
    | with_reducible apply kept_wr
    | with_reducible apply kept_foldUpTo

theorem kept_pgLanesChanged {s : State} (hs : Kept q p s) (p0 : Nat) :
    Kept q p (pgLanesChanged s p0) := by
  unfold pgLanesChanged
  repeat' first
    | with_reducible assumption
    | intro _
    | extract_lets
    | with_reducible apply kept_dropIdle
    | with_reducible apply kept_dropCheckers
    | with_reducible apply kept_endEye
    | with_reducible apply kept_ite

theorem kept_wrPgCfg {s : State} (hs : Kept q p s) (p0 : PortN) (v : Reg32) :
    Kept q p (wrPgCfg s p0 v) := by
  unfold wrPgCfg
  repeat' first
    | with_reducible assumption
    | intro _
    | extract_lets
    | with_reducible apply kept_putReg
    | with_reducible apply kept_clearChecks
    | with_reducible apply kept_startPatterns
    | with_reducible apply kept_pgLanesChanged
    | with_reducible apply kept_ite

theorem kept_wrPgLanes {s : State} (hs : Kept q p s) (p0 : PortN) (v : Reg32) :
    Kept q p (wrPgLanes s p0 v) := by
  unfold wrPgLanes
  repeat' first
    | with_reducible assumption
    | intro _
    | extract_lets
    | with_reducible apply kept_wrReg
    | with_reducible apply kept_pgLanesChanged
    | with_reducible apply kept_ite

theorem kept_execPgClear (p0 : PortN) (v : Reg32) {s : State} (hs : Kept q p s) :
    KeptOut q p (execPgClear p0 v s) := by
  unfold execPgClear
  repeat' first
    | with_reducible assumption
    | intro _
    | with_reducible apply keptOut_next
    | exact keptOut_fault _
    | with_reducible apply kept_atReg
    | with_reducible apply kept_wrPgCfg

theorem kept_wrInj {s : State} (hs : Kept q p s) (p0 : PortN) (v : Reg32) :
    Kept q p (wrInj s p0 v) := by
  unfold wrInj
  repeat' first
    | with_reducible assumption
    | intro _
    | extract_lets
    | with_reducible apply kept_putReg
    | with_reducible apply kept_paramFault
    | with_reducible apply kept_setF
    | with_reducible apply kept_ite

theorem kept_execInjectionGo (p0 : PortN) (v : Reg32) {s : State} (hs : Kept q p s) :
    KeptOut q p (execInjectionGo p0 v s) := by
  unfold execInjectionGo
  repeat' first
    | with_reducible assumption
    | intro _
    | with_reducible apply keptOut_next
    | exact keptOut_fault _
    | with_reducible apply kept_atReg
    | with_reducible apply kept_wrInj

theorem kept_inject {s : State} (hs : Kept q p s) (p0 : Nat) :
    Kept q p (inject s p0) := by
  unfold inject
  repeat' first
    | with_reducible assumption
    | intro _
    | extract_lets
    | with_reducible apply kept_setPhy
    | with_reducible apply kept_count
    | with_reducible apply kept_setF

theorem kept_execInjectionMade (p0 : PortN) {s : State} (hs : Kept q p s) :
    KeptOut q p (execInjectionMade p0 s) := by
  unfold execInjectionMade
  repeat' first
    | with_reducible assumption
    | intro _
    | with_reducible apply keptOut_next
    | exact keptOut_fault _
    | with_reducible apply kept_when
    | with_reducible apply kept_inject

end Sys2Proof.Machine
end

