-- ==== Sys2Proof/Laws/KeptCsrWrite.lean ====
section
/-! SUPPORT. What the operations of Machine/CsrWrite.lean keep (Laws/Kept.lean). -/

namespace Sys2Proof.Machine

open Sys2Proof

variable {q : List Instr} {p : Part}

theorem kept_putWhole {s : State} (hs : Kept q p s) (off : Nat) (v : Reg32) (bad : Bool) :
    Kept q p (putWhole s off v bad) := by
  unfold putWhole
  repeat' first
    | with_reducible assumption
    | intro _
    | with_reducible apply kept_paramFault
    | with_reducible apply kept_wrReg
    | with_reducible apply kept_ite

theorem kept_putField {s : State} (hs : Kept q p s) (off : Nat) (v : Reg32) (bad : Bool) (m : Nat) :
    Kept q p (putField s off v bad m) := by
  unfold putField
  repeat' first
    | with_reducible assumption
    | intro _
    | with_reducible apply kept_putReg

theorem kept_wrSen {s : State} (hs : Kept q p s) (off : Nat) (v : Reg32) :
    Kept q p (wrSen s off v) := by
  unfold wrSen
  repeat' first
    | with_reducible assumption
    | intro _
    | extract_lets
    | with_reducible apply kept_evalHoldLow
    | with_reducible apply kept_putField
    | with_reducible apply kept_wrQuiet
    | with_reducible apply kept_wrTarget
    | with_reducible apply kept_wrReg
    | with_reducible apply kept_ite

theorem kept_wrEvc {s : State} (hs : Kept q p s) (off : Nat) (v : Reg32) :
    Kept q p (wrEvc s off v) := by
  unfold wrEvc
  repeat' first
    | with_reducible assumption
    | intro _
    | extract_lets
    | with_reducible apply kept_wrEoi
    | with_reducible apply kept_wrSwRaise
    | with_reducible apply kept_wrSrcCfg
    | with_reducible apply kept_wrSrcStat
    | with_reducible apply kept_putField
    | with_reducible apply kept_wrReg
    | with_reducible apply kept_ite
    | split

theorem kept_wrWrd {s : State} (hs : Kept q p s) (off : Nat) (v : Reg32) :
    Kept q p (wrWrd s off v) := by
  unfold wrWrd
  repeat' first
    | with_reducible assumption
    | intro _
    | extract_lets
    | with_reducible apply kept_putField
    | with_reducible apply kept_putWhole
    | with_reducible apply kept_wrReg
    | with_reducible apply kept_putReg
    | with_reducible apply kept_ite

theorem kept_wrTum {s : State} (hs : Kept q p s) (off : Nat) (v : Reg32) :
    Kept q p (wrTum s off v) := by
  unfold wrTum
  repeat' first
    | with_reducible assumption
    | intro _
    | extract_lets
    | with_reducible apply kept_wrRate
    | with_reducible apply kept_wrPwrCfg
    | with_reducible apply kept_wrRefCfg
    | with_reducible apply kept_wrTrnCtrl
    | with_reducible apply kept_beginMove
    | with_reducible apply kept_wrReg
    | with_reducible apply kept_paramFault
    | with_reducible apply kept_putReg
    | with_reducible apply kept_ite

theorem kept_wrScn {s : State} (hs : Kept q p s) (off : Nat) (v : Reg32) :
    Kept q p (wrScn s off v) := by
  unfold wrScn
  repeat' first
    | with_reducible assumption
    | intro _
    | extract_lets
    | with_reducible apply kept_putField
    | with_reducible apply kept_wrReg
    | with_reducible apply kept_ite

theorem kept_wrPort {s : State} (hs : Kept q p s) (off : Nat) (v : Reg32) :
    Kept q p (wrPort s off v) := by
  unfold wrPort
  repeat' first
    | with_reducible assumption
    | intro _
    | extract_lets
    | with_reducible apply kept_wrPhyCtrl
    | with_reducible apply kept_wrPhyRate
    | with_reducible apply kept_wrEqOvr
    | with_reducible apply kept_wrEsCtrl
    | with_reducible apply kept_wrPgCfg
    | with_reducible apply kept_wrPgLanes
    | with_reducible apply kept_wrInj
    | with_reducible apply kept_wrLinkCtrl
    | with_reducible apply kept_putWhole
    | with_reducible apply kept_ite

theorem kept_wrLeaf {s : State} (hs : Kept q p s) (off : Nat) (v : Reg32) :
    Kept q p (wrLeaf s off v) := by
  unfold wrLeaf
  repeat' first
    | with_reducible assumption
    | intro _
    | extract_lets
    | with_reducible apply kept_putReg

theorem kept_wrCores {s : State} (hs : Kept q p s) (off : Nat) (v : Reg32) :
    Kept q p (wrCores s off v) := by
  unfold wrCores
  repeat' first
    | with_reducible assumption
    | intro _
    | extract_lets
    | with_reducible apply kept_wrCoreCtrl
    | with_reducible apply kept_wrRingCtl
    | with_reducible apply kept_wrRingBase
    | with_reducible apply kept_wrReg
    | with_reducible apply kept_ite
    | split

theorem kept_writeReg {s : State} (hs : Kept q p s) (off : Nat) (v : Reg32) :
    Kept q p (writeReg s off v) := by
  unfold writeReg
  repeat' first
    | with_reducible assumption
    | intro _
    | with_reducible apply kept_wrFltStat
    | with_reducible apply kept_wrReg
    | with_reducible apply kept_wrSen
    | with_reducible apply kept_wrEvc
    | with_reducible apply kept_wrWrd
    | with_reducible apply kept_wrTum
    | with_reducible apply kept_wrScn
    | with_reducible apply kept_wrPort
    | with_reducible apply kept_wrLeaf
    | with_reducible apply kept_putField
    | with_reducible apply kept_wrCores
    | with_reducible apply kept_ite
    | split

theorem kept_writeCsr {s : State} (hs : Kept q p s) (path : Nat) (off : Nat) (v : Reg32) :
    Kept q p (writeCsr s path off v).1 := by
  unfold writeCsr
  repeat' first
    | with_reducible assumption
    | intro _
    | extract_lets
    | with_reducible apply kept_latchFail
    | with_reducible apply kept_writeReg
    | with_reducible apply kept_ite
    | split

theorem kept_execRegisterWrite (path : Path) (off : BitVec 26) (v : Reg32) {s : State} (hs : Kept q p s) :
    KeptOut q p (execRegisterWrite path off v s) := by
  unfold execRegisterWrite
  repeat' first
    | with_reducible assumption
    | intro _
    | with_reducible apply keptOut_next
    | exact keptOut_fault _
    | with_reducible apply kept_when
    | with_reducible apply kept_writeCsr

theorem kept_execGblLockSet (v : Reg32) {s : State} (hs : Kept q p s) :
    KeptOut q p (execGblLockSet v s) := by
  unfold execGblLockSet
  repeat' first
    | with_reducible assumption
    | intro _
    | with_reducible apply keptOut_next
    | exact keptOut_fault _
    | with_reducible apply kept_when
    | with_reducible apply kept_writeReg

end Sys2Proof.Machine
end

