-- ==== Sys2Proof/Laws/KeptCsrRows.lean ====
section
/-! SUPPORT. What the operations of Machine/CsrRows.lean keep (Laws/Kept.lean). -/

namespace Sys2Proof.Machine

open Sys2Proof

variable {q : List Instr} {p : Part}

theorem kept_csrReply (c : Cmd) (u : CsrRun) (hu : Kept q p u.st) : Kept q p (csrReply c u) := by
  unfold csrReply
  split
  · exact kept_reply hu _ _ _ _
  · exact kept_reply hu _ _ _ _

theorem kept_readNth (path off : Nat) {u : CsrRun} (hu : Kept q p u.st) (i : Nat) : Kept q p (readNth path off u i).st := by
  unfold readNth
  split
  rename_i s v st he
  exact kept_mid he (kept_readCsr hu _ _)

theorem kept_writeNth (path off : Nat) (c : Cmd) {u : CsrRun} (hu : Kept q p u.st) (i : Nat) :
    Kept q p (writeNth path off c u i).st := by
  unfold writeNth
  split
  rename_i s st he
  exact kept_fst he (kept_writeCsr hu _ _ _)

theorem kept_csrRun {f : CsrRun → Nat → CsrRun} (hf : ∀ u i, Kept q p u.st → Kept q p (f u i).st) (l : List Nat)
    {u : CsrRun} (hu : Kept q p u.st) : Kept q p (l.foldl f u).st := by
  induction l generalizing u with
  | nil => exact hu
  | cons i r ih => exact ih (hf u i hu)

theorem kept_csrReadDone (c : Cmd) {s : State} (hs : Kept q p s) : Kept q p (csrReadDone c s) :=
  kept_orFail hs _ _ (kept_csrReply _ _ (kept_csrRun (fun _ i hu => kept_readNth _ _ hu i) _ hs))

theorem kept_execCsrRead (c : Cmd) {s : State} (hs : Kept q p s) :
    KeptOut q p (execCsrRead c s) := by
  unfold execCsrRead
  repeat' first
    | with_reducible assumption
    | intro _
    | with_reducible apply keptOut_next
    | exact keptOut_fault _
    | with_reducible apply kept_runCmd
    | with_reducible apply kept_csrReadDone

theorem kept_csrWriteDone (c : Cmd) {s : State} (hs : Kept q p s) : Kept q p (csrWriteDone c s) :=
  kept_orFail hs _ _ (kept_csrReply _ _ (kept_csrRun (fun _ i hu => kept_writeNth _ _ _ hu i) _ hs))

theorem kept_execCsrWrite (c : Cmd) {s : State} (hs : Kept q p s) :
    KeptOut q p (execCsrWrite c s) := by
  unfold execCsrWrite
  repeat' first
    | with_reducible assumption
    | intro _
    | with_reducible apply keptOut_next
    | exact keptOut_fault _
    | with_reducible apply kept_runCmd
    | with_reducible apply kept_csrWriteDone

theorem kept_bar0Fail {s : State} (hs : Kept q p s) (st : BitVec 16) :
    Kept q p (bar0Fail s st).1 := by
  unfold bar0Fail
  repeat' first
    | with_reducible assumption
    | intro _
    | with_reducible apply kept_latchFail

theorem kept_bar0Word {s : State} (hs : Kept q p s) (off : Nat) (size : Nat) (i : Nat) (v : Option Reg32) :
    Kept q p (bar0Word s off size i v).1 := by
  unfold bar0Word
  repeat' first
    | with_reducible assumption
    | intro _
    | extract_lets
    | with_reducible apply kept_bar0Fail
    | with_reducible apply kept_writeCsr
    | with_reducible apply kept_readCsr
    | with_reducible apply kept_ite
    | split

theorem kept_bar0Done {s : State} (hs : Kept q p s) (off : Nat) (size : Nat) (data : Option (List Reg32)) :
    Kept q p (bar0Done s off size data) := by
  unfold bar0Done
  repeat' first
    | with_reducible assumption
    | intro _
    | extract_lets
    | with_reducible apply kept_count
    | with_reducible apply kept_bar0Word
    | with_reducible apply kept_ite
    | with_reducible apply kept_foldl
    | with_reducible apply kept_foldl_fst
    | with_reducible apply kept_foldl_snd
    | split
    | with_reducible apply kept_with

theorem kept_execBar0Access (off : BitVec 26) (size : Nat) (data : Option (List Reg32)) {s : State} (hs : Kept q p s) :
    KeptOut q p (execBar0Access off size data s) := by
  unfold execBar0Access
  repeat' first
    | with_reducible assumption
    | intro _
    | with_reducible apply keptOut_next
    | exact keptOut_fault _
    | with_reducible apply kept_when
    | with_reducible apply kept_bar0Done

end Sys2Proof.Machine
end

