-- ==== Sys2Proof/Laws/KeptFlitRows.lean ====
section
/-! SUPPORT. What the operations of Machine/FlitRows.lean keep (Laws/Kept.lean). -/

namespace Sys2Proof.Machine

open Sys2Proof

variable {q : List Instr} {p : Part}

theorem kept_overrun {s : State} (hs : Kept q p s) (p0 : PortN) :
    Kept q p (overrun s p0) := by
  unfold overrun
  repeat' first
    | with_reducible assumption
    | intro _
    | with_reducible apply kept_fault
    | with_reducible apply kept_setF
    | with_reducible apply kept_skipPacket

theorem kept_keepPacket {s : State} (hs : Kept q p s) (p0 : PortN) (k : Nat) (pkt : List (BitVec 16)) :
    Kept q p (keepPacket s p0 k pkt) := by
  unfold keepPacket
  repeat' first
    | with_reducible assumption
    | intro _
    | with_reducible apply kept_overrun
    | with_reducible apply kept_storePkt
    | with_reducible apply kept_modPort
    | with_reducible apply kept_ite

theorem kept_oddReq {s : State} (hs : Kept q p s) (p0 : PortN) (n : Nat) :
    Kept q p (oddReq s p0 n) := by
  unfold oddReq
  repeat' first
    | with_reducible assumption
    | intro _
    | extract_lets
    | with_reducible apply kept_overrun
    | with_reducible apply kept_modPort
    | with_reducible apply kept_count
    | with_reducible apply kept_leaveStore
    | with_reducible apply kept_skipPacket
    | with_reducible apply kept_rejectReq
    | with_reducible apply kept_ite

theorem kept_packetIn {s : State} (hs : Kept q p s) (p0 : PortN) (pkt : List (BitVec 16)) :
    Kept q p (packetIn s p0 pkt) := by
  unfold packetIn
  repeat' first
    | with_reducible assumption
    | intro _
    | extract_lets
    | with_reducible apply kept_storePkt
    | with_reducible apply kept_skipPacket
    | with_reducible apply kept_count
    | with_reducible apply kept_oddReq
    | with_reducible apply kept_keepPacket
    | with_reducible apply kept_badPair
    | with_reducible apply kept_modPort
    | with_reducible apply kept_ite

theorem kept_framingError {s : State} (hs : Kept q p s) (p0 : PortN) :
    Kept q p (framingError s p0) := by
  unfold framingError
  repeat' first
    | with_reducible assumption
    | intro _
    | extract_lets
    | with_reducible apply kept_modPort
    | with_reducible apply kept_fault
    | with_reducible apply kept_count
    | with_reducible apply kept_setF

theorem kept_chunksIn (n : PortN) (l : List (BitVec 16)) {s : State} (hs : Kept q p s) : Kept q p (chunksIn s n l) := by
  induction l generalizing s with
  | nil => exact hs
  | cons c r ih =>
    rw [chunksIn]
    refine kept_ite hs ?_
    split
    · refine kept_ite (ih hs) (kept_ite (kept_framingError hs _) (kept_ite (ih (kept_packetIn hs _ _)) (ih (kept_modPort hs _ _))))
    · dsimp only
      exact kept_ite (ih (kept_packetIn (kept_modPort hs _ _) _ _)) (ih (kept_modPort hs _ _))

theorem kept_payloadIn {s : State} (hs : Kept q p s) (n : PortN) (flit : Nat) : Kept q p (payloadIn s n flit) := by
  unfold payloadIn
  extract_lets start chunks x
  exact kept_ite (kept_framingError hs _) (kept_ite (kept_ite hs (kept_chunksIn _ _ (kept_modPort hs _ _)))
    (kept_ite (kept_framingError hs _) (kept_chunksIn _ _ hs)))

theorem kept_rxMask {s : State} (hs : Kept q p s) (p0 : Nat) :
    Kept q p (rxMask s p0).2 := by
  unfold rxMask
  repeat' first
    | with_reducible assumption
    | intro _
    | extract_lets
    | with_reducible apply kept_modPort

theorem kept_dataBad {s : State} (hs : Kept q p s) (p0 : PortN) :
    Kept q p (dataBad s p0) := by
  unfold dataBad
  repeat' first
    | with_reducible assumption
    | intro _
    | extract_lets
    | with_reducible apply kept_count
    | with_reducible apply kept_modPort
    | with_reducible apply kept_ite

theorem kept_dataGood {s : State} (hs : Kept q p s) (p0 : PortN) (flit : Nat) :
    Kept q p (dataGood s p0 flit) := by
  unfold dataGood
  repeat' first
    | with_reducible assumption
    | intro _
    | extract_lets
    | with_reducible apply kept_modPort
    | with_reducible apply kept_payloadIn
    | with_reducible apply kept_count
    | with_reducible apply kept_applyAck

theorem kept_lowPowerCtl {s : State} (hs : Kept q p s) (p0 : Nat) (ctype : Nat) :
    Kept q p (lowPowerCtl s p0 ctype) := by
  unfold lowPowerCtl
  repeat' first
    | with_reducible assumption
    | intro _
    | extract_lets
    | with_reducible apply kept_modPort
    | with_reducible apply kept_ite

theorem kept_ctlFields {s : State} (hs : Kept q p s) (p0 : PortN) (c : CtlFlit) :
    Kept q p (ctlFields s p0 c) := by
  unfold ctlFields
  repeat' first
    | with_reducible assumption
    | intro _
    | extract_lets
    | with_reducible apply kept_applyLimits
    | with_reducible apply kept_applyAck
    | with_reducible apply kept_count
    | with_reducible apply kept_modPort
    | with_reducible apply kept_setF
    | with_reducible apply kept_ite

theorem kept_ctlType {s : State} (hs : Kept q p s) (p0 : PortN) (ctype : Nat) :
    Kept q p (ctlType s p0 ctype) := by
  unfold ctlType
  repeat' first
    | with_reducible assumption
    | intro _
    | with_reducible apply kept_replayHeld
    | with_reducible apply kept_count
    | with_reducible apply kept_lowPowerCtl
    | with_reducible apply kept_protocolError
    | with_reducible apply kept_ite

theorem kept_ctlBody {s : State} (hs : Kept q p s) (p0 : PortN) (ctype : Nat) (c : CtlFlit) :
    Kept q p (ctlBody s p0 ctype c) := by
  unfold ctlBody
  repeat' first
    | with_reducible assumption
    | intro _
    | extract_lets
    | with_reducible apply kept_count
    | with_reducible apply kept_ctlType
    | with_reducible apply kept_ctlFields
    | with_reducible apply kept_ite

theorem kept_ctlIn {s : State} (hs : Kept q p s) (p0 : PortN) (ctype : Nat) (c : CtlFlit) :
    Kept q p (ctlIn s p0 ctype c) := by
  unfold ctlIn
  repeat' first
    | with_reducible assumption
    | intro _
    | with_reducible apply kept_ctlBody
    | with_reducible apply kept_rxMask

theorem kept_execFc (p0 : PortN) (ctype : BitVec 5) (c : CtlFlit) {s : State} (hs : Kept q p s) :
    KeptOut q p (execFc p0 ctype c s) := by
  unfold execFc
  repeat' first
    | with_reducible assumption
    | intro _
    | with_reducible apply keptOut_next
    | exact keptOut_fault _
    | with_reducible apply kept_when
    | with_reducible apply kept_ctlIn

theorem kept_execNak (p0 : PortN) (c : CtlFlit) {s : State} (hs : Kept q p s) :
    KeptOut q p (execNak p0 c s) := by
  unfold execNak
  repeat' first
    | with_reducible assumption
    | intro _
    | with_reducible apply keptOut_next
    | exact keptOut_fault _
    | with_reducible apply kept_when
    | with_reducible apply kept_ctlIn

theorem kept_execLpReq (p0 : PortN) (c : CtlFlit) {s : State} (hs : Kept q p s) :
    KeptOut q p (execLpReq p0 c s) := by
  unfold execLpReq
  repeat' first
    | with_reducible assumption
    | intro _
    | with_reducible apply keptOut_next
    | exact keptOut_fault _
    | with_reducible apply kept_when
    | with_reducible apply kept_ctlIn

theorem kept_execLpAck (p0 : PortN) (c : CtlFlit) {s : State} (hs : Kept q p s) :
    KeptOut q p (execLpAck p0 c s) := by
  unfold execLpAck
  repeat' first
    | with_reducible assumption
    | intro _
    | with_reducible apply keptOut_next
    | exact keptOut_fault _
    | with_reducible apply kept_when
    | with_reducible apply kept_ctlIn

theorem kept_execLpDeny (p0 : PortN) (c : CtlFlit) {s : State} (hs : Kept q p s) :
    KeptOut q p (execLpDeny p0 c s) := by
  unfold execLpDeny
  repeat' first
    | with_reducible assumption
    | intro _
    | with_reducible apply keptOut_next
    | exact keptOut_fault _
    | with_reducible apply kept_when
    | with_reducible apply kept_ctlIn

theorem kept_flitIn {s : State} (hs : Kept q p s) (p0 : PortN) (raw : Flit) :
    Kept q p (flitIn s p0 raw) := by
  unfold flitIn
  repeat' first
    | with_reducible assumption
    | intro _
    | extract_lets
    | with_reducible apply kept_rxMask
    | with_reducible apply kept_ctlBody
    | with_reducible apply kept_dataGood
    | with_reducible apply kept_dataBad
    | with_reducible apply kept_ite

theorem kept_execDataFlitReceived (p0 : PortN) (raw : Flit) {s : State} (hs : Kept q p s) :
    KeptOut q p (execDataFlitReceived p0 raw s) := by
  unfold execDataFlitReceived
  repeat' first
    | with_reducible assumption
    | intro _
    | with_reducible apply keptOut_next
    | exact keptOut_fault _
    | with_reducible apply keptOut_ite
    | with_reducible apply kept_flitIn
    | with_reducible apply kept_checkPatterns
    | with_reducible apply kept_ite

theorem kept_execKs1InActive (p0 : PortN) (lanes : BitVec 16) {s : State} (hs : Kept q p s) :
    KeptOut q p (execKs1InActive p0 lanes s) := by
  unfold execKs1InActive
  repeat' first
    | with_reducible assumption
    | intro _
    | with_reducible apply keptOut_next
    | exact keptOut_fault _
    | with_reducible apply kept_when
    | with_reducible apply kept_toRetrain

theorem kept_execNakTimeout (p0 : PortN) {s : State} (hs : Kept q p s) :
    KeptOut q p (execNakTimeout p0 s) := by
  unfold execNakTimeout
  repeat' first
    | with_reducible assumption
    | intro _
    | with_reducible apply keptOut_next
    | exact keptOut_fault _
    | with_reducible apply kept_when
    | with_reducible apply kept_modPort

theorem kept_execAckTimeout (p0 : PortN) {s : State} (hs : Kept q p s) :
    KeptOut q p (execAckTimeout p0 s) := by
  unfold execAckTimeout
  repeat' first
    | with_reducible assumption
    | intro _
    | with_reducible apply keptOut_next
    | exact keptOut_fault _
    | with_reducible apply kept_when
    | with_reducible apply kept_replayHeld

theorem kept_execLpIdleTimeout (p0 : PortN) {s : State} (hs : Kept q p s) :
    KeptOut q p (execLpIdleTimeout p0 s) := by
  unfold execLpIdleTimeout
  repeat' first
    | with_reducible assumption
    | intro _
    | with_reducible apply keptOut_next
    | exact keptOut_fault _
    | with_reducible apply kept_when
    | with_reducible apply kept_modPort

theorem kept_execLpReqNoAnswer (p0 : PortN) {s : State} (hs : Kept q p s) :
    KeptOut q p (execLpReqNoAnswer p0 s) := by
  unfold execLpReqNoAnswer
  repeat' first
    | with_reducible assumption
    | intro _
    | with_reducible apply keptOut_next
    | exact keptOut_fault _
    | with_reducible apply kept_when
    | with_reducible apply kept_modPort

theorem kept_takeCredit {s : State} (hs : Kept q p s) (p0 : PortN) (c0 : BitVec 12) (c1 : BitVec 12) (c2 : BitVec 12) :
    Kept q p (takeCredit s p0 c0 c1 c2) := by
  unfold takeCredit
  repeat' first
    | with_reducible assumption
    | intro _
    | extract_lets
    | with_reducible apply kept_received
    | with_reducible apply kept_applyLimits
    | with_reducible apply kept_dropPkt
    | with_reducible apply kept_ite
    | split

theorem kept_execCredit (p0 : PortN) (c0 : BitVec 12) (c1 : BitVec 12) (c2 : BitVec 12) {s : State} (hs : Kept q p s) :
    KeptOut q p (execCredit p0 c0 c1 c2 s) := by
  unfold execCredit
  repeat' first
    | with_reducible assumption
    | intro _
    | with_reducible apply keptOut_next
    | exact keptOut_fault _
    | with_reducible apply kept_when
    | with_reducible apply kept_takeCredit

theorem kept_execCreditPacketInsert (p0 : PortN) {s : State} (hs : Kept q p s) :
    KeptOut q p (execCreditPacketInsert p0 s) := by
  unfold execCreditPacketInsert
  repeat' first
    | with_reducible assumption
    | intro _
    | with_reducible apply keptOut_next
    | exact keptOut_fault _
    | with_reducible apply kept_when
    | with_reducible apply kept_modPort

theorem kept_execUrgencyUpdate (p0 : PortN) {s : State} (hs : Kept q p s) :
    KeptOut q p (execUrgencyUpdate p0 s) := by
  unfold execUrgencyUpdate
  repeat' first
    | with_reducible assumption
    | intro _
    | with_reducible apply keptOut_next
    | exact keptOut_fault _
    | with_reducible apply kept_when
    | with_reducible apply kept_modPort

theorem kept_putFlit {s : State} (hs : Kept q p s) (p0 : Nat) (f : Flit) :
    Kept q p (putFlit s p0 f) := by
  unfold putFlit
  repeat' first
    | with_reducible assumption
    | intro _
    | extract_lets
    | with_reducible apply kept_modPort

theorem kept_sendCtl {s : State} (hs : Kept q p s) (p0 : Nat) (ctype : Nat) :
    Kept q p (sendCtl s p0 ctype) := by
  unfold sendCtl
  repeat' first
    | with_reducible assumption
    | intro _
    | extract_lets
    | with_reducible apply kept_putFlit
    | with_reducible apply kept_modPort
    | with_reducible apply kept_count

theorem kept_sendData {s : State} (hs : Kept q p s) (p0 : Nat) (f : Flit) (n : BitVec 10) :
    Kept q p (sendData s p0 f n) := by
  unfold sendData
  repeat' first
    | with_reducible assumption
    | intro _
    | extract_lets
    | with_reducible apply kept_putFlit

theorem kept_sendAgain {s : State} (hs : Kept q p s) (p0 : Nat) (n : BitVec 10) :
    Kept q p (sendAgain s p0 n) := by
  unfold sendAgain
  repeat' first
    | with_reducible assumption
    | intro _
    | extract_lets
    | with_reducible apply kept_modPort
    | with_reducible apply kept_sendData
    | with_reducible apply kept_count
    | with_reducible apply kept_ite
    | split

theorem kept_nextPacket {s t : State} (hs : Kept q p s) (n : Nat) (k : List (BitVec 16)) (h : nextPacket s n = some (k, t)) :
    Kept q p t := by
  unfold nextPacket at h
  dsimp only at h
  repeat' split at h
  all_goals first
    | (cases h; done)
    | (cases h; exact kept_setPort hs _ _)
    | (cases h; exact kept_count (kept_setPort hs _ _) _ _)

theorem kept_anyPacket {s t : State} (hs : Kept q p s) (n : Nat) (k : List (BitVec 16)) (h : anyPacket s n = some (k, t)) :
    Kept q p t := by
  unfold anyPacket at h
  split at h
  · rename_i x hx
    cases h
    exact kept_nextPacket hs n k hx
  · dsimp only at h
    split at h
    · rename_i k1 t1 hx
      cases h
      exact kept_modPort (kept_nextPacket (kept_setPort hs _ _) n k hx) _ _
    · cases h

theorem kept_fillFlit (n m i : Nat) {s : State} (hs : Kept q p s) : Kept q p (fillFlit n m i s).2.2 := by
  induction m generalizing s i with
  | zero => exact hs
  | succ m ih =>
    rw [fillFlit]
    split
    · exact ih _ (kept_modPort hs _ _)
    · split
      · rename_i k t hk
        exact ih _ (kept_modPort (kept_anyPacket hs n k hk) _ _)
      · exact ih _ hs

theorem kept_sendNew {s : State} (hs : Kept q p s) (n : Nat) : Kept q p (sendNew s n) := by
  unfold sendNew
  split
  rename_i l start t he
  have h1 : Kept q p t := kept_end he (kept_fillFlit _ _ _ hs)
  dsimp only
  exact kept_count (kept_modPort (kept_sendData h1 _ _ _) _ _) _ _

theorem kept_flitOut {s : State} (hs : Kept q p s) (p0 : Nat) :
    Kept q p (flitOut s p0) := by
  unfold flitOut
  repeat' first
    | with_reducible assumption
    | intro _
    | extract_lets
    | with_reducible apply kept_count
    | with_reducible apply kept_sendCtl
    | with_reducible apply kept_modPort
    | with_reducible apply kept_sendAgain
    | with_reducible apply kept_sendNew
    | with_reducible apply kept_ite
    | split

theorem kept_keysOut {s : State} (hs : Kept q p s) (p0 : Nat) :
    Kept q p (keysOut s p0) := by
  unfold keysOut
  repeat' first
    | with_reducible assumption
    | intro _
    | with_reducible apply kept_modPort

theorem kept_patternOut {s : State} (hs : Kept q p s) (p0 : Nat) :
    Kept q p (patternOut s p0) := by
  unfold patternOut
  repeat' first
    | with_reducible assumption
    | intro _
    | extract_lets
    | with_reducible apply kept_moveGens
    | with_reducible apply kept_modPort

theorem kept_execFlitSlot (p0 : PortN) {s : State} (hs : Kept q p s) :
    KeptOut q p (execFlitSlot p0 s) := by
  unfold execFlitSlot
  repeat' first
    | with_reducible assumption
    | intro _
    | with_reducible apply keptOut_next
    | exact keptOut_fault _
    | with_reducible apply keptOut_ite
    | with_reducible apply kept_when
    | with_reducible apply kept_flitOut
    | with_reducible apply kept_keysOut
    | with_reducible apply kept_patternOut
    | with_reducible apply kept_when
    | with_reducible apply kept_ite

end Sys2Proof.Machine
end

