-- ==== Sys2Proof/Laws/KeptSideBand.lean ====
section
/-! SUPPORT. What the operations of Machine/SideBand.lean keep (Laws/Kept.lean). -/

namespace Sys2Proof.Machine

open Sys2Proof

variable {q : List Instr} {p : Part}

theorem kept_setI3c {s : State} (hs : Kept q p s) (f : I3c → I3c) :
    Kept q p (setI3c s f) := by
  unfold setI3c
  repeat' first
    | with_reducible assumption
    | intro _
    | with_reducible apply kept_with

theorem kept_onI3c {s : State} (hs : Kept q p s) {t : State} (ht : Kept q p t) :
    KeptOut q p (onI3c s t) := by
  unfold onI3c
  repeat' first
    | with_reducible assumption
    | intro _
    | with_reducible apply keptOut_next
    | exact keptOut_fault _
    | with_reducible apply kept_when

theorem kept_privateWrite {s : State} (hs : Kept q p s) (b : List Byte) :
    Kept q p (privateWrite s b) := by
  unfold privateWrite
  repeat' first
    | with_reducible assumption
    | intro _
    | extract_lets
    | with_reducible apply kept_setI3c
    | with_reducible apply kept_wrReg
    | with_reducible apply kept_paramFault
    | with_reducible apply kept_ite

theorem kept_execI3cPrivateWrite (bytes : List Byte) {s : State} (hs : Kept q p s) :
    KeptOut q p (execI3cPrivateWrite bytes s) := by
  unfold execI3cPrivateWrite
  repeat' first
    | with_reducible assumption
    | intro _
    | with_reducible apply keptOut_next
    | exact keptOut_fault _
    | with_reducible apply kept_onI3c
    | with_reducible apply kept_privateWrite

theorem kept_privateRead {s : State} (hs : Kept q p s) (n : Nat) :
    Kept q p (privateRead s n) := by
  unfold privateRead
  repeat' first
    | with_reducible assumption
    | intro _
    | extract_lets
    | with_reducible apply kept_setI3c

theorem kept_execI3cPrivateRead (n : Nat) {s : State} (hs : Kept q p s) :
    KeptOut q p (execI3cPrivateRead n s) := by
  unfold execI3cPrivateRead
  repeat' first
    | with_reducible assumption
    | intro _
    | with_reducible apply keptOut_next
    | exact keptOut_fault _
    | with_reducible apply kept_onI3c
    | with_reducible apply kept_privateRead

theorem kept_ccc {s : State} (hs : Kept q p s) (f : I3c → I3c) :
    KeptOut q p (ccc s f) := by
  unfold ccc
  repeat' first
    | with_reducible assumption
    | intro _
    | with_reducible apply keptOut_next
    | exact keptOut_fault _
    | with_reducible apply kept_onI3c
    | with_reducible apply kept_setI3c

theorem kept_cccGet {s : State} (hs : Kept q p s) (b : List Byte) :
    KeptOut q p (cccGet s b) := by
  unfold cccGet
  repeat' first
    | with_reducible assumption
    | intro _
    | with_reducible apply keptOut_next
    | exact keptOut_fault _
    | with_reducible apply kept_ccc

theorem kept_nack {s : State} (hs : Kept q p s) :
    Kept q p (nack s) := by
  unfold nack
  repeat' first
    | with_reducible assumption
    | intro _
    | with_reducible apply kept_setI3c

theorem kept_execEnec (events : BitVec 8) {s : State} (hs : Kept q p s) :
    KeptOut q p (execEnec events s) := by
  unfold execEnec
  repeat' first
    | with_reducible assumption
    | intro _
    | with_reducible apply keptOut_next
    | exact keptOut_fault _
    | with_reducible apply kept_ccc

theorem kept_execDisec (events : BitVec 8) {s : State} (hs : Kept q p s) :
    KeptOut q p (execDisec events s) := by
  unfold execDisec
  repeat' first
    | with_reducible assumption
    | intro _
    | with_reducible apply keptOut_next
    | exact keptOut_fault _
    | with_reducible apply kept_ccc

theorem kept_execRstdaa {s : State} (hs : Kept q p s) :
    KeptOut q p (execRstdaa s) := by
  unfold execRstdaa
  repeat' first
    | with_reducible assumption
    | intro _
    | with_reducible apply keptOut_next
    | exact keptOut_fault _
    | with_reducible apply kept_ccc

theorem kept_execEntdaa (addr : BitVec 7) {s : State} (hs : Kept q p s) :
    KeptOut q p (execEntdaa addr s) := by
  unfold execEntdaa
  repeat' first
    | with_reducible assumption
    | intro _
    | with_reducible apply keptOut_next
    | exact keptOut_fault _
    | with_reducible apply kept_onI3c
    | with_reducible apply kept_when
    | with_reducible apply kept_setI3c

theorem kept_execSetdasa (static : BitVec 7) (addr : BitVec 7) {s : State} (hs : Kept q p s) :
    KeptOut q p (execSetdasa static addr s) := by
  unfold execSetdasa
  repeat' first
    | with_reducible assumption
    | intro _
    | with_reducible apply keptOut_next
    | exact keptOut_fault _
    | with_reducible apply kept_onI3c
    | with_reducible apply kept_setI3c
    | with_reducible apply kept_nack
    | with_reducible apply kept_ite

theorem kept_execSetnewda (addr : BitVec 7) {s : State} (hs : Kept q p s) :
    KeptOut q p (execSetnewda addr s) := by
  unfold execSetnewda
  repeat' first
    | with_reducible assumption
    | intro _
    | with_reducible apply keptOut_next
    | exact keptOut_fault _
    | with_reducible apply kept_onI3c
    | with_reducible apply kept_setI3c
    | with_reducible apply kept_nack
    | with_reducible apply kept_ite

theorem kept_execSetmwl (n : BitVec 16) {s : State} (hs : Kept q p s) :
    KeptOut q p (execSetmwl n s) := by
  unfold execSetmwl
  repeat' first
    | with_reducible assumption
    | intro _
    | with_reducible apply keptOut_next
    | exact keptOut_fault _
    | with_reducible apply kept_ccc

theorem kept_execSetmrl (n : BitVec 16) {s : State} (hs : Kept q p s) :
    KeptOut q p (execSetmrl n s) := by
  unfold execSetmrl
  repeat' first
    | with_reducible assumption
    | intro _
    | with_reducible apply keptOut_next
    | exact keptOut_fault _
    | with_reducible apply kept_ccc

theorem kept_execGetpid {s : State} (hs : Kept q p s) :
    KeptOut q p (execGetpid s) := by
  unfold execGetpid
  repeat' first
    | with_reducible assumption
    | intro _
    | with_reducible apply keptOut_next
    | exact keptOut_fault _
    | with_reducible apply kept_cccGet

theorem kept_execGetbcr {s : State} (hs : Kept q p s) :
    KeptOut q p (execGetbcr s) := by
  unfold execGetbcr
  repeat' first
    | with_reducible assumption
    | intro _
    | with_reducible apply keptOut_next
    | exact keptOut_fault _
    | with_reducible apply kept_cccGet

theorem kept_execGetdcr {s : State} (hs : Kept q p s) :
    KeptOut q p (execGetdcr s) := by
  unfold execGetdcr
  repeat' first
    | with_reducible assumption
    | intro _
    | with_reducible apply keptOut_next
    | exact keptOut_fault _
    | with_reducible apply kept_cccGet

theorem kept_execGetstatus {s : State} (hs : Kept q p s) :
    KeptOut q p (execGetstatus s) := by
  unfold execGetstatus
  repeat' first
    | with_reducible assumption
    | intro _
    | extract_lets
    | with_reducible apply keptOut_next
    | exact keptOut_fault _
    | with_reducible apply kept_fresh
    | with_reducible apply kept_onI3c
    | with_reducible apply kept_setI3c

theorem kept_execGetmwl {s : State} (hs : Kept q p s) :
    KeptOut q p (execGetmwl s) := by
  unfold execGetmwl
  repeat' first
    | with_reducible assumption
    | intro _
    | with_reducible apply keptOut_next
    | exact keptOut_fault _
    | with_reducible apply kept_cccGet

theorem kept_execGetmrl {s : State} (hs : Kept q p s) :
    KeptOut q p (execGetmrl s) := by
  unfold execGetmrl
  repeat' first
    | with_reducible assumption
    | intro _
    | extract_lets
    | with_reducible apply keptOut_next
    | exact keptOut_fault _
    | with_reducible apply kept_fresh
    | with_reducible apply kept_onI3c
    | with_reducible apply kept_setI3c

theorem kept_execUnsupportedCcc (direct : Bool) {s : State} (hs : Kept q p s) :
    KeptOut q p (execUnsupportedCcc direct s) := by
  unfold execUnsupportedCcc
  repeat' first
    | with_reducible assumption
    | intro _
    | with_reducible apply keptOut_next
    | exact keptOut_fault _
    | with_reducible apply kept_onI3c
    | with_reducible apply kept_nack
    | with_reducible apply kept_ite

theorem kept_setJtag {s : State} (hs : Kept q p s) (f : Jtag → Jtag) :
    Kept q p (setJtag s f) := by
  unfold setJtag
  repeat' first
    | with_reducible assumption
    | intro _
    | with_reducible apply kept_with

theorem kept_onTest {s : State} (hs : Kept q p s) {t : State} (ht : Kept q p t) :
    KeptOut q p (onTest s t) := by
  unfold onTest
  repeat' first
    | with_reducible assumption
    | intro _
    | with_reducible apply keptOut_next
    | exact keptOut_fault _
    | with_reducible apply kept_when

theorem kept_bypassed {s : State} (hs : Kept q p s) :
    Kept q p (bypassed s) := by
  unfold bypassed
  repeat' first
    | with_reducible assumption
    | intro _
    | with_reducible apply kept_setJtag

theorem kept_execBypass {s : State} (hs : Kept q p s) :
    KeptOut q p (execBypass s) := by
  unfold execBypass
  repeat' first
    | with_reducible assumption
    | intro _
    | with_reducible apply keptOut_next
    | exact keptOut_fault _
    | with_reducible apply kept_onTest
    | with_reducible apply kept_bypassed

theorem kept_execIdcode {s : State} (hs : Kept q p s) :
    KeptOut q p (execIdcode s) := by
  unfold execIdcode
  repeat' first
    | with_reducible assumption
    | intro _
    | with_reducible apply keptOut_next
    | exact keptOut_fault _
    | with_reducible apply kept_onTest
    | with_reducible apply kept_setJtag

theorem kept_boundaryScan {s : State} (hs : Kept q p s) (i : TestInstr) (drive : Bool) (shift : BitVec 13) :
    Kept q p (boundaryScan s i drive shift) := by
  unfold boundaryScan
  repeat' first
    | with_reducible assumption
    | intro _
    | extract_lets
    | with_reducible apply kept_fresh
    | with_reducible apply kept_setJtag

theorem kept_execSamplePreload (shift : BitVec 13) {s : State} (hs : Kept q p s) :
    KeptOut q p (execSamplePreload shift s) := by
  unfold execSamplePreload
  repeat' first
    | with_reducible assumption
    | intro _
    | with_reducible apply keptOut_next
    | exact keptOut_fault _
    | with_reducible apply kept_onTest
    | with_reducible apply kept_boundaryScan

theorem kept_execExtest (shift : BitVec 13) {s : State} (hs : Kept q p s) :
    KeptOut q p (execExtest shift s) := by
  unfold execExtest
  repeat' first
    | with_reducible assumption
    | intro _
    | with_reducible apply keptOut_next
    | exact keptOut_fault _
    | with_reducible apply kept_onTest
    | with_reducible apply kept_bypassed
    | with_reducible apply kept_boundaryScan
    | with_reducible apply kept_ite

end Sys2Proof.Machine
end

