-- ==== Sys2Proof/Laws/KeptTick.lean ====
section
/-! SUPPORT. What the operations of Machine/Tick.lean keep (Laws/Kept.lean). -/

namespace Sys2Proof.Machine

open Sys2Proof

variable {q : List Instr} {p : Part}

theorem kept_tick {s : State} (hs : Kept q p s) :
    Kept q p (tick s) := by
  unfold tick
  repeat' first
    | with_reducible assumption
    | intro _
    | with_reducible apply kept_dumpTick
    | with_reducible apply kept_wardTick
    | with_reducible apply kept_with

end Sys2Proof.Machine
end

