-- ==== Sys2Proof/Laws/State.lean ====
section
/-! SUPPORT. What each named update of the state leaves unchanged: one law per field and update. -/

namespace Sys2Proof.Machine

open Sys2Proof

/-! ## wr -/

@[simp] theorem wr_part (s : State) (off : Nat) (v : Reg32) : (wr s off v).part = s.part := rfl
@[simp] theorem wr_pending (s : State) (off : Nat) (v : Reg32) : (wr s off v).pending = s.pending := rfl
@[simp] theorem wr_now (s : State) (off : Nat) (v : Reg32) : (wr s off v).now = s.now := rfl
@[simp] theorem wr_free (s : State) (off : Nat) (v : Reg32) : (wr s off v).free = s.free := rfl
@[simp] theorem wr_shadow (s : State) (off : Nat) (v : Reg32) : (wr s off v).shadow = s.shadow := rfl
@[simp] theorem wr_readOut (s : State) (off : Nat) (v : Reg32) : (wr s off v).readOut = s.readOut := rfl
@[simp] theorem wr_dram (s : State) (off : Nat) (v : Reg32) : (wr s off v).dram = s.dram := rfl
@[simp] theorem wr_sram (s : State) (off : Nat) (v : Reg32) : (wr s off v).sram = s.sram := rfl
@[simp] theorem wr_mram (s : State) (off : Nat) (v : Reg32) : (wr s off v).mram = s.mram := rfl
@[simp] theorem wr_mramFenced (s : State) (off : Nat) (v : Reg32) : (wr s off v).mramFenced = s.mramFenced := rfl
@[simp] theorem wr_tums (s : State) (off : Nat) (v : Reg32) : (wr s off v).tums = s.tums := rfl
@[simp] theorem wr_leaves (s : State) (off : Nat) (v : Reg32) : (wr s off v).leaves = s.leaves := rfl
@[simp] theorem wr_waiting (s : State) (off : Nat) (v : Reg32) : (wr s off v).waiting = s.waiting := rfl
@[simp] theorem wr_live (s : State) (off : Nat) (v : Reg32) : (wr s off v).live = s.live := rfl
@[simp] theorem wr_nextId (s : State) (off : Nat) (v : Reg32) : (wr s off v).nextId = s.nextId := rfl
@[simp] theorem wr_sweeps (s : State) (off : Nat) (v : Reg32) : (wr s off v).sweeps = s.sweeps := rfl
@[simp] theorem wr_clears (s : State) (off : Nat) (v : Reg32) : (wr s off v).clears = s.clears := rfl
@[simp] theorem wr_reinits (s : State) (off : Nat) (v : Reg32) : (wr s off v).reinits = s.reinits := rfl
@[simp] theorem wr_engines (s : State) (off : Nat) (v : Reg32) : (wr s off v).engines = s.engines := rfl
@[simp] theorem wr_scans (s : State) (off : Nat) (v : Reg32) : (wr s off v).scans = s.scans := rfl
@[simp] theorem wr_ward (s : State) (off : Nat) (v : Reg32) : (wr s off v).ward = s.ward := rfl
@[simp] theorem wr_ports (s : State) (off : Nat) (v : Reg32) : (wr s off v).ports = s.ports := rfl
@[simp] theorem wr_pair (s : State) (off : Nat) (v : Reg32) : (wr s off v).pair = s.pair := rfl
@[simp] theorem wr_cmds (s : State) (off : Nat) (v : Reg32) : (wr s off v).cmds = s.cmds := rfl
@[simp] theorem wr_rings (s : State) (off : Nat) (v : Reg32) : (wr s off v).rings = s.rings := rfl
@[simp] theorem wr_dmas (s : State) (off : Nat) (v : Reg32) : (wr s off v).dmas = s.dmas := rfl
@[simp] theorem wr_usb (s : State) (off : Nat) (v : Reg32) : (wr s off v).usb = s.usb := rfl
@[simp] theorem wr_cores (s : State) (off : Nat) (v : Reg32) : (wr s off v).cores = s.cores := rfl
@[simp] theorem wr_update (s : State) (off : Nat) (v : Reg32) : (wr s off v).update = s.update := rfl
@[simp] theorem wr_pulses (s : State) (off : Nat) (v : Reg32) : (wr s off v).pulses = s.pulses := rfl
@[simp] theorem wr_flts (s : State) (off : Nat) (v : Reg32) : (wr s off v).flts = s.flts := rfl
@[simp] theorem wr_shadows (s : State) (off : Nat) (v : Reg32) : (wr s off v).shadows = s.shadows := rfl
@[simp] theorem wr_logTail (s : State) (off : Nat) (v : Reg32) : (wr s off v).logTail = s.logTail := rfl
@[simp] theorem wr_logSeq (s : State) (off : Nat) (v : Reg32) : (wr s off v).logSeq = s.logSeq := rfl
@[simp] theorem wr_counts (s : State) (off : Nat) (v : Reg32) : (wr s off v).counts = s.counts := rfl
@[simp] theorem wr_dump (s : State) (off : Nat) (v : Reg32) : (wr s off v).dump = s.dump := rfl
@[simp] theorem wr_power (s : State) (off : Nat) (v : Reg32) : (wr s off v).power = s.power := rfl
@[simp] theorem wr_thermal (s : State) (off : Nat) (v : Reg32) : (wr s off v).thermal = s.thermal := rfl
@[simp] theorem wr_calib (s : State) (off : Nat) (v : Reg32) : (wr s off v).calib = s.calib := rfl
@[simp] theorem wr_i3c (s : State) (off : Nat) (v : Reg32) : (wr s off v).i3c = s.i3c := rfl
@[simp] theorem wr_jtag (s : State) (off : Nat) (v : Reg32) : (wr s off v).jtag = s.jtag := rfl

/-! ## setF -/

@[simp] theorem setF_part (s : State) (off hi lo v : Nat) : (setF s off hi lo v).part = s.part := rfl
@[simp] theorem setF_pending (s : State) (off hi lo v : Nat) : (setF s off hi lo v).pending = s.pending := rfl
@[simp] theorem setF_now (s : State) (off hi lo v : Nat) : (setF s off hi lo v).now = s.now := rfl
@[simp] theorem setF_free (s : State) (off hi lo v : Nat) : (setF s off hi lo v).free = s.free := rfl
@[simp] theorem setF_shadow (s : State) (off hi lo v : Nat) : (setF s off hi lo v).shadow = s.shadow := rfl
@[simp] theorem setF_readOut (s : State) (off hi lo v : Nat) : (setF s off hi lo v).readOut = s.readOut := rfl
@[simp] theorem setF_dram (s : State) (off hi lo v : Nat) : (setF s off hi lo v).dram = s.dram := rfl
@[simp] theorem setF_sram (s : State) (off hi lo v : Nat) : (setF s off hi lo v).sram = s.sram := rfl
@[simp] theorem setF_mram (s : State) (off hi lo v : Nat) : (setF s off hi lo v).mram = s.mram := rfl
@[simp] theorem setF_mramFenced (s : State) (off hi lo v : Nat) : (setF s off hi lo v).mramFenced = s.mramFenced := rfl
@[simp] theorem setF_tums (s : State) (off hi lo v : Nat) : (setF s off hi lo v).tums = s.tums := rfl
@[simp] theorem setF_leaves (s : State) (off hi lo v : Nat) : (setF s off hi lo v).leaves = s.leaves := rfl
@[simp] theorem setF_waiting (s : State) (off hi lo v : Nat) : (setF s off hi lo v).waiting = s.waiting := rfl
@[simp] theorem setF_live (s : State) (off hi lo v : Nat) : (setF s off hi lo v).live = s.live := rfl
@[simp] theorem setF_nextId (s : State) (off hi lo v : Nat) : (setF s off hi lo v).nextId = s.nextId := rfl
@[simp] theorem setF_sweeps (s : State) (off hi lo v : Nat) : (setF s off hi lo v).sweeps = s.sweeps := rfl
@[simp] theorem setF_clears (s : State) (off hi lo v : Nat) : (setF s off hi lo v).clears = s.clears := rfl
@[simp] theorem setF_reinits (s : State) (off hi lo v : Nat) : (setF s off hi lo v).reinits = s.reinits := rfl
@[simp] theorem setF_engines (s : State) (off hi lo v : Nat) : (setF s off hi lo v).engines = s.engines := rfl
@[simp] theorem setF_scans (s : State) (off hi lo v : Nat) : (setF s off hi lo v).scans = s.scans := rfl
@[simp] theorem setF_ward (s : State) (off hi lo v : Nat) : (setF s off hi lo v).ward = s.ward := rfl
@[simp] theorem setF_ports (s : State) (off hi lo v : Nat) : (setF s off hi lo v).ports = s.ports := rfl
@[simp] theorem setF_pair (s : State) (off hi lo v : Nat) : (setF s off hi lo v).pair = s.pair := rfl
@[simp] theorem setF_cmds (s : State) (off hi lo v : Nat) : (setF s off hi lo v).cmds = s.cmds := rfl
@[simp] theorem setF_rings (s : State) (off hi lo v : Nat) : (setF s off hi lo v).rings = s.rings := rfl
@[simp] theorem setF_dmas (s : State) (off hi lo v : Nat) : (setF s off hi lo v).dmas = s.dmas := rfl
@[simp] theorem setF_usb (s : State) (off hi lo v : Nat) : (setF s off hi lo v).usb = s.usb := rfl
@[simp] theorem setF_cores (s : State) (off hi lo v : Nat) : (setF s off hi lo v).cores = s.cores := rfl
@[simp] theorem setF_update (s : State) (off hi lo v : Nat) : (setF s off hi lo v).update = s.update := rfl
@[simp] theorem setF_pulses (s : State) (off hi lo v : Nat) : (setF s off hi lo v).pulses = s.pulses := rfl
@[simp] theorem setF_flts (s : State) (off hi lo v : Nat) : (setF s off hi lo v).flts = s.flts := rfl
@[simp] theorem setF_shadows (s : State) (off hi lo v : Nat) : (setF s off hi lo v).shadows = s.shadows := rfl
@[simp] theorem setF_logTail (s : State) (off hi lo v : Nat) : (setF s off hi lo v).logTail = s.logTail := rfl
@[simp] theorem setF_logSeq (s : State) (off hi lo v : Nat) : (setF s off hi lo v).logSeq = s.logSeq := rfl
@[simp] theorem setF_counts (s : State) (off hi lo v : Nat) : (setF s off hi lo v).counts = s.counts := rfl
@[simp] theorem setF_dump (s : State) (off hi lo v : Nat) : (setF s off hi lo v).dump = s.dump := rfl
@[simp] theorem setF_power (s : State) (off hi lo v : Nat) : (setF s off hi lo v).power = s.power := rfl
@[simp] theorem setF_thermal (s : State) (off hi lo v : Nat) : (setF s off hi lo v).thermal = s.thermal := rfl
@[simp] theorem setF_calib (s : State) (off hi lo v : Nat) : (setF s off hi lo v).calib = s.calib := rfl
@[simp] theorem setF_i3c (s : State) (off hi lo v : Nat) : (setF s off hi lo v).i3c = s.i3c := rfl
@[simp] theorem setF_jtag (s : State) (off hi lo v : Nat) : (setF s off hi lo v).jtag = s.jtag := rfl

/-! ## resetRegs -/

@[simp] theorem resetRegs_part (s : State) (p : Nat → Bool) : (resetRegs s p).part = s.part := rfl
@[simp] theorem resetRegs_pending (s : State) (p : Nat → Bool) : (resetRegs s p).pending = s.pending := rfl
@[simp] theorem resetRegs_now (s : State) (p : Nat → Bool) : (resetRegs s p).now = s.now := rfl
@[simp] theorem resetRegs_free (s : State) (p : Nat → Bool) : (resetRegs s p).free = s.free := rfl
@[simp] theorem resetRegs_shadow (s : State) (p : Nat → Bool) : (resetRegs s p).shadow = s.shadow := rfl
@[simp] theorem resetRegs_readOut (s : State) (p : Nat → Bool) : (resetRegs s p).readOut = s.readOut := rfl
@[simp] theorem resetRegs_dram (s : State) (p : Nat → Bool) : (resetRegs s p).dram = s.dram := rfl
@[simp] theorem resetRegs_sram (s : State) (p : Nat → Bool) : (resetRegs s p).sram = s.sram := rfl
@[simp] theorem resetRegs_mram (s : State) (p : Nat → Bool) : (resetRegs s p).mram = s.mram := rfl
@[simp] theorem resetRegs_mramFenced (s : State) (p : Nat → Bool) : (resetRegs s p).mramFenced = s.mramFenced := rfl
@[simp] theorem resetRegs_tums (s : State) (p : Nat → Bool) : (resetRegs s p).tums = s.tums := rfl
@[simp] theorem resetRegs_leaves (s : State) (p : Nat → Bool) : (resetRegs s p).leaves = s.leaves := rfl
@[simp] theorem resetRegs_waiting (s : State) (p : Nat → Bool) : (resetRegs s p).waiting = s.waiting := rfl
@[simp] theorem resetRegs_live (s : State) (p : Nat → Bool) : (resetRegs s p).live = s.live := rfl
@[simp] theorem resetRegs_nextId (s : State) (p : Nat → Bool) : (resetRegs s p).nextId = s.nextId := rfl
@[simp] theorem resetRegs_sweeps (s : State) (p : Nat → Bool) : (resetRegs s p).sweeps = s.sweeps := rfl
@[simp] theorem resetRegs_clears (s : State) (p : Nat → Bool) : (resetRegs s p).clears = s.clears := rfl
@[simp] theorem resetRegs_reinits (s : State) (p : Nat → Bool) : (resetRegs s p).reinits = s.reinits := rfl
@[simp] theorem resetRegs_engines (s : State) (p : Nat → Bool) : (resetRegs s p).engines = s.engines := rfl
@[simp] theorem resetRegs_scans (s : State) (p : Nat → Bool) : (resetRegs s p).scans = s.scans := rfl
@[simp] theorem resetRegs_ward (s : State) (p : Nat → Bool) : (resetRegs s p).ward = s.ward := rfl
@[simp] theorem resetRegs_ports (s : State) (p : Nat → Bool) : (resetRegs s p).ports = s.ports := rfl
@[simp] theorem resetRegs_pair (s : State) (p : Nat → Bool) : (resetRegs s p).pair = s.pair := rfl
@[simp] theorem resetRegs_cmds (s : State) (p : Nat → Bool) : (resetRegs s p).cmds = s.cmds := rfl
@[simp] theorem resetRegs_rings (s : State) (p : Nat → Bool) : (resetRegs s p).rings = s.rings := rfl
@[simp] theorem resetRegs_dmas (s : State) (p : Nat → Bool) : (resetRegs s p).dmas = s.dmas := rfl
@[simp] theorem resetRegs_usb (s : State) (p : Nat → Bool) : (resetRegs s p).usb = s.usb := rfl
@[simp] theorem resetRegs_cores (s : State) (p : Nat → Bool) : (resetRegs s p).cores = s.cores := rfl
@[simp] theorem resetRegs_update (s : State) (p : Nat → Bool) : (resetRegs s p).update = s.update := rfl
@[simp] theorem resetRegs_pulses (s : State) (p : Nat → Bool) : (resetRegs s p).pulses = s.pulses := rfl
@[simp] theorem resetRegs_flts (s : State) (p : Nat → Bool) : (resetRegs s p).flts = s.flts := rfl
@[simp] theorem resetRegs_shadows (s : State) (p : Nat → Bool) : (resetRegs s p).shadows = s.shadows := rfl
@[simp] theorem resetRegs_logTail (s : State) (p : Nat → Bool) : (resetRegs s p).logTail = s.logTail := rfl
@[simp] theorem resetRegs_logSeq (s : State) (p : Nat → Bool) : (resetRegs s p).logSeq = s.logSeq := rfl
@[simp] theorem resetRegs_counts (s : State) (p : Nat → Bool) : (resetRegs s p).counts = s.counts := rfl
@[simp] theorem resetRegs_dump (s : State) (p : Nat → Bool) : (resetRegs s p).dump = s.dump := rfl
@[simp] theorem resetRegs_power (s : State) (p : Nat → Bool) : (resetRegs s p).power = s.power := rfl
@[simp] theorem resetRegs_thermal (s : State) (p : Nat → Bool) : (resetRegs s p).thermal = s.thermal := rfl
@[simp] theorem resetRegs_calib (s : State) (p : Nat → Bool) : (resetRegs s p).calib = s.calib := rfl
@[simp] theorem resetRegs_i3c (s : State) (p : Nat → Bool) : (resetRegs s p).i3c = s.i3c := rfl
@[simp] theorem resetRegs_jtag (s : State) (p : Nat → Bool) : (resetRegs s p).jtag = s.jtag := rfl

/-! ## setTum -/

@[simp] theorem setTum_part (s : State) (t : Nat) (x : Tumbler) : (s.setTum t x).part = s.part := rfl
@[simp] theorem setTum_pending (s : State) (t : Nat) (x : Tumbler) : (s.setTum t x).pending = s.pending := rfl
@[simp] theorem setTum_now (s : State) (t : Nat) (x : Tumbler) : (s.setTum t x).now = s.now := rfl
@[simp] theorem setTum_free (s : State) (t : Nat) (x : Tumbler) : (s.setTum t x).free = s.free := rfl
@[simp] theorem setTum_csr (s : State) (t : Nat) (x : Tumbler) : (s.setTum t x).csr = s.csr := rfl
@[simp] theorem setTum_shadow (s : State) (t : Nat) (x : Tumbler) : (s.setTum t x).shadow = s.shadow := rfl
@[simp] theorem setTum_readOut (s : State) (t : Nat) (x : Tumbler) : (s.setTum t x).readOut = s.readOut := rfl
@[simp] theorem setTum_dram (s : State) (t : Nat) (x : Tumbler) : (s.setTum t x).dram = s.dram := rfl
@[simp] theorem setTum_sram (s : State) (t : Nat) (x : Tumbler) : (s.setTum t x).sram = s.sram := rfl
@[simp] theorem setTum_mram (s : State) (t : Nat) (x : Tumbler) : (s.setTum t x).mram = s.mram := rfl
@[simp] theorem setTum_mramFenced (s : State) (t : Nat) (x : Tumbler) : (s.setTum t x).mramFenced = s.mramFenced := rfl
@[simp] theorem setTum_leaves (s : State) (t : Nat) (x : Tumbler) : (s.setTum t x).leaves = s.leaves := rfl
@[simp] theorem setTum_waiting (s : State) (t : Nat) (x : Tumbler) : (s.setTum t x).waiting = s.waiting := rfl
@[simp] theorem setTum_live (s : State) (t : Nat) (x : Tumbler) : (s.setTum t x).live = s.live := rfl
@[simp] theorem setTum_nextId (s : State) (t : Nat) (x : Tumbler) : (s.setTum t x).nextId = s.nextId := rfl
@[simp] theorem setTum_sweeps (s : State) (t : Nat) (x : Tumbler) : (s.setTum t x).sweeps = s.sweeps := rfl
@[simp] theorem setTum_clears (s : State) (t : Nat) (x : Tumbler) : (s.setTum t x).clears = s.clears := rfl
@[simp] theorem setTum_reinits (s : State) (t : Nat) (x : Tumbler) : (s.setTum t x).reinits = s.reinits := rfl
@[simp] theorem setTum_engines (s : State) (t : Nat) (x : Tumbler) : (s.setTum t x).engines = s.engines := rfl
@[simp] theorem setTum_scans (s : State) (t : Nat) (x : Tumbler) : (s.setTum t x).scans = s.scans := rfl
@[simp] theorem setTum_ward (s : State) (t : Nat) (x : Tumbler) : (s.setTum t x).ward = s.ward := rfl
@[simp] theorem setTum_ports (s : State) (t : Nat) (x : Tumbler) : (s.setTum t x).ports = s.ports := rfl
@[simp] theorem setTum_pair (s : State) (t : Nat) (x : Tumbler) : (s.setTum t x).pair = s.pair := rfl
@[simp] theorem setTum_cmds (s : State) (t : Nat) (x : Tumbler) : (s.setTum t x).cmds = s.cmds := rfl
@[simp] theorem setTum_rings (s : State) (t : Nat) (x : Tumbler) : (s.setTum t x).rings = s.rings := rfl
@[simp] theorem setTum_dmas (s : State) (t : Nat) (x : Tumbler) : (s.setTum t x).dmas = s.dmas := rfl
@[simp] theorem setTum_usb (s : State) (t : Nat) (x : Tumbler) : (s.setTum t x).usb = s.usb := rfl
@[simp] theorem setTum_cores (s : State) (t : Nat) (x : Tumbler) : (s.setTum t x).cores = s.cores := rfl
@[simp] theorem setTum_update (s : State) (t : Nat) (x : Tumbler) : (s.setTum t x).update = s.update := rfl
@[simp] theorem setTum_pulses (s : State) (t : Nat) (x : Tumbler) : (s.setTum t x).pulses = s.pulses := rfl
@[simp] theorem setTum_flts (s : State) (t : Nat) (x : Tumbler) : (s.setTum t x).flts = s.flts := rfl
@[simp] theorem setTum_shadows (s : State) (t : Nat) (x : Tumbler) : (s.setTum t x).shadows = s.shadows := rfl
@[simp] theorem setTum_logTail (s : State) (t : Nat) (x : Tumbler) : (s.setTum t x).logTail = s.logTail := rfl
@[simp] theorem setTum_logSeq (s : State) (t : Nat) (x : Tumbler) : (s.setTum t x).logSeq = s.logSeq := rfl
@[simp] theorem setTum_counts (s : State) (t : Nat) (x : Tumbler) : (s.setTum t x).counts = s.counts := rfl
@[simp] theorem setTum_dump (s : State) (t : Nat) (x : Tumbler) : (s.setTum t x).dump = s.dump := rfl
@[simp] theorem setTum_power (s : State) (t : Nat) (x : Tumbler) : (s.setTum t x).power = s.power := rfl
@[simp] theorem setTum_thermal (s : State) (t : Nat) (x : Tumbler) : (s.setTum t x).thermal = s.thermal := rfl
@[simp] theorem setTum_calib (s : State) (t : Nat) (x : Tumbler) : (s.setTum t x).calib = s.calib := rfl
@[simp] theorem setTum_i3c (s : State) (t : Nat) (x : Tumbler) : (s.setTum t x).i3c = s.i3c := rfl
@[simp] theorem setTum_jtag (s : State) (t : Nat) (x : Tumbler) : (s.setTum t x).jtag = s.jtag := rfl

/-! ## modTum -/

@[simp] theorem modTum_part (s : State) (t : Nat) (f : Tumbler → Tumbler) : (s.modTum t f).part = s.part := rfl
@[simp] theorem modTum_pending (s : State) (t : Nat) (f : Tumbler → Tumbler) : (s.modTum t f).pending = s.pending := rfl
@[simp] theorem modTum_now (s : State) (t : Nat) (f : Tumbler → Tumbler) : (s.modTum t f).now = s.now := rfl
@[simp] theorem modTum_free (s : State) (t : Nat) (f : Tumbler → Tumbler) : (s.modTum t f).free = s.free := rfl
@[simp] theorem modTum_csr (s : State) (t : Nat) (f : Tumbler → Tumbler) : (s.modTum t f).csr = s.csr := rfl
@[simp] theorem modTum_shadow (s : State) (t : Nat) (f : Tumbler → Tumbler) : (s.modTum t f).shadow = s.shadow := rfl
@[simp] theorem modTum_readOut (s : State) (t : Nat) (f : Tumbler → Tumbler) : (s.modTum t f).readOut = s.readOut := rfl
@[simp] theorem modTum_dram (s : State) (t : Nat) (f : Tumbler → Tumbler) : (s.modTum t f).dram = s.dram := rfl
@[simp] theorem modTum_sram (s : State) (t : Nat) (f : Tumbler → Tumbler) : (s.modTum t f).sram = s.sram := rfl
@[simp] theorem modTum_mram (s : State) (t : Nat) (f : Tumbler → Tumbler) : (s.modTum t f).mram = s.mram := rfl
@[simp] theorem modTum_mramFenced (s : State) (t : Nat) (f : Tumbler → Tumbler) : (s.modTum t f).mramFenced = s.mramFenced := rfl
@[simp] theorem modTum_leaves (s : State) (t : Nat) (f : Tumbler → Tumbler) : (s.modTum t f).leaves = s.leaves := rfl
@[simp] theorem modTum_waiting (s : State) (t : Nat) (f : Tumbler → Tumbler) : (s.modTum t f).waiting = s.waiting := rfl
@[simp] theorem modTum_live (s : State) (t : Nat) (f : Tumbler → Tumbler) : (s.modTum t f).live = s.live := rfl
@[simp] theorem modTum_nextId (s : State) (t : Nat) (f : Tumbler → Tumbler) : (s.modTum t f).nextId = s.nextId := rfl
@[simp] theorem modTum_sweeps (s : State) (t : Nat) (f : Tumbler → Tumbler) : (s.modTum t f).sweeps = s.sweeps := rfl
@[simp] theorem modTum_clears (s : State) (t : Nat) (f : Tumbler → Tumbler) : (s.modTum t f).clears = s.clears := rfl
@[simp] theorem modTum_reinits (s : State) (t : Nat) (f : Tumbler → Tumbler) : (s.modTum t f).reinits = s.reinits := rfl
@[simp] theorem modTum_engines (s : State) (t : Nat) (f : Tumbler → Tumbler) : (s.modTum t f).engines = s.engines := rfl
@[simp] theorem modTum_scans (s : State) (t : Nat) (f : Tumbler → Tumbler) : (s.modTum t f).scans = s.scans := rfl
@[simp] theorem modTum_ward (s : State) (t : Nat) (f : Tumbler → Tumbler) : (s.modTum t f).ward = s.ward := rfl
@[simp] theorem modTum_ports (s : State) (t : Nat) (f : Tumbler → Tumbler) : (s.modTum t f).ports = s.ports := rfl
@[simp] theorem modTum_pair (s : State) (t : Nat) (f : Tumbler → Tumbler) : (s.modTum t f).pair = s.pair := rfl
@[simp] theorem modTum_cmds (s : State) (t : Nat) (f : Tumbler → Tumbler) : (s.modTum t f).cmds = s.cmds := rfl
@[simp] theorem modTum_rings (s : State) (t : Nat) (f : Tumbler → Tumbler) : (s.modTum t f).rings = s.rings := rfl
@[simp] theorem modTum_dmas (s : State) (t : Nat) (f : Tumbler → Tumbler) : (s.modTum t f).dmas = s.dmas := rfl
@[simp] theorem modTum_usb (s : State) (t : Nat) (f : Tumbler → Tumbler) : (s.modTum t f).usb = s.usb := rfl
@[simp] theorem modTum_cores (s : State) (t : Nat) (f : Tumbler → Tumbler) : (s.modTum t f).cores = s.cores := rfl
@[simp] theorem modTum_update (s : State) (t : Nat) (f : Tumbler → Tumbler) : (s.modTum t f).update = s.update := rfl
@[simp] theorem modTum_pulses (s : State) (t : Nat) (f : Tumbler → Tumbler) : (s.modTum t f).pulses = s.pulses := rfl
@[simp] theorem modTum_flts (s : State) (t : Nat) (f : Tumbler → Tumbler) : (s.modTum t f).flts = s.flts := rfl
@[simp] theorem modTum_shadows (s : State) (t : Nat) (f : Tumbler → Tumbler) : (s.modTum t f).shadows = s.shadows := rfl
@[simp] theorem modTum_logTail (s : State) (t : Nat) (f : Tumbler → Tumbler) : (s.modTum t f).logTail = s.logTail := rfl
@[simp] theorem modTum_logSeq (s : State) (t : Nat) (f : Tumbler → Tumbler) : (s.modTum t f).logSeq = s.logSeq := rfl
@[simp] theorem modTum_counts (s : State) (t : Nat) (f : Tumbler → Tumbler) : (s.modTum t f).counts = s.counts := rfl
@[simp] theorem modTum_dump (s : State) (t : Nat) (f : Tumbler → Tumbler) : (s.modTum t f).dump = s.dump := rfl
@[simp] theorem modTum_power (s : State) (t : Nat) (f : Tumbler → Tumbler) : (s.modTum t f).power = s.power := rfl
@[simp] theorem modTum_thermal (s : State) (t : Nat) (f : Tumbler → Tumbler) : (s.modTum t f).thermal = s.thermal := rfl
@[simp] theorem modTum_calib (s : State) (t : Nat) (f : Tumbler → Tumbler) : (s.modTum t f).calib = s.calib := rfl
@[simp] theorem modTum_i3c (s : State) (t : Nat) (f : Tumbler → Tumbler) : (s.modTum t f).i3c = s.i3c := rfl
@[simp] theorem modTum_jtag (s : State) (t : Nat) (f : Tumbler → Tumbler) : (s.modTum t f).jtag = s.jtag := rfl

/-! ## setMode -/

@[simp] theorem setMode_part (s : State) (t : Nat) (f : TMode → TMode) : (setMode s t f).part = s.part := rfl
@[simp] theorem setMode_pending (s : State) (t : Nat) (f : TMode → TMode) : (setMode s t f).pending = s.pending := rfl
@[simp] theorem setMode_now (s : State) (t : Nat) (f : TMode → TMode) : (setMode s t f).now = s.now := rfl
@[simp] theorem setMode_free (s : State) (t : Nat) (f : TMode → TMode) : (setMode s t f).free = s.free := rfl
@[simp] theorem setMode_csr (s : State) (t : Nat) (f : TMode → TMode) : (setMode s t f).csr = s.csr := rfl
@[simp] theorem setMode_shadow (s : State) (t : Nat) (f : TMode → TMode) : (setMode s t f).shadow = s.shadow := rfl
@[simp] theorem setMode_readOut (s : State) (t : Nat) (f : TMode → TMode) : (setMode s t f).readOut = s.readOut := rfl
@[simp] theorem setMode_dram (s : State) (t : Nat) (f : TMode → TMode) : (setMode s t f).dram = s.dram := rfl
@[simp] theorem setMode_sram (s : State) (t : Nat) (f : TMode → TMode) : (setMode s t f).sram = s.sram := rfl
@[simp] theorem setMode_mram (s : State) (t : Nat) (f : TMode → TMode) : (setMode s t f).mram = s.mram := rfl
@[simp] theorem setMode_mramFenced (s : State) (t : Nat) (f : TMode → TMode) : (setMode s t f).mramFenced = s.mramFenced := rfl
@[simp] theorem setMode_leaves (s : State) (t : Nat) (f : TMode → TMode) : (setMode s t f).leaves = s.leaves := rfl
@[simp] theorem setMode_waiting (s : State) (t : Nat) (f : TMode → TMode) : (setMode s t f).waiting = s.waiting := rfl
@[simp] theorem setMode_live (s : State) (t : Nat) (f : TMode → TMode) : (setMode s t f).live = s.live := rfl
@[simp] theorem setMode_nextId (s : State) (t : Nat) (f : TMode → TMode) : (setMode s t f).nextId = s.nextId := rfl
@[simp] theorem setMode_sweeps (s : State) (t : Nat) (f : TMode → TMode) : (setMode s t f).sweeps = s.sweeps := rfl
@[simp] theorem setMode_clears (s : State) (t : Nat) (f : TMode → TMode) : (setMode s t f).clears = s.clears := rfl
@[simp] theorem setMode_reinits (s : State) (t : Nat) (f : TMode → TMode) : (setMode s t f).reinits = s.reinits := rfl
@[simp] theorem setMode_engines (s : State) (t : Nat) (f : TMode → TMode) : (setMode s t f).engines = s.engines := rfl
@[simp] theorem setMode_scans (s : State) (t : Nat) (f : TMode → TMode) : (setMode s t f).scans = s.scans := rfl
@[simp] theorem setMode_ward (s : State) (t : Nat) (f : TMode → TMode) : (setMode s t f).ward = s.ward := rfl
@[simp] theorem setMode_ports (s : State) (t : Nat) (f : TMode → TMode) : (setMode s t f).ports = s.ports := rfl
@[simp] theorem setMode_pair (s : State) (t : Nat) (f : TMode → TMode) : (setMode s t f).pair = s.pair := rfl
@[simp] theorem setMode_cmds (s : State) (t : Nat) (f : TMode → TMode) : (setMode s t f).cmds = s.cmds := rfl
@[simp] theorem setMode_rings (s : State) (t : Nat) (f : TMode → TMode) : (setMode s t f).rings = s.rings := rfl
@[simp] theorem setMode_dmas (s : State) (t : Nat) (f : TMode → TMode) : (setMode s t f).dmas = s.dmas := rfl
@[simp] theorem setMode_usb (s : State) (t : Nat) (f : TMode → TMode) : (setMode s t f).usb = s.usb := rfl
@[simp] theorem setMode_cores (s : State) (t : Nat) (f : TMode → TMode) : (setMode s t f).cores = s.cores := rfl
@[simp] theorem setMode_update (s : State) (t : Nat) (f : TMode → TMode) : (setMode s t f).update = s.update := rfl
@[simp] theorem setMode_pulses (s : State) (t : Nat) (f : TMode → TMode) : (setMode s t f).pulses = s.pulses := rfl
@[simp] theorem setMode_flts (s : State) (t : Nat) (f : TMode → TMode) : (setMode s t f).flts = s.flts := rfl
@[simp] theorem setMode_shadows (s : State) (t : Nat) (f : TMode → TMode) : (setMode s t f).shadows = s.shadows := rfl
@[simp] theorem setMode_logTail (s : State) (t : Nat) (f : TMode → TMode) : (setMode s t f).logTail = s.logTail := rfl
@[simp] theorem setMode_logSeq (s : State) (t : Nat) (f : TMode → TMode) : (setMode s t f).logSeq = s.logSeq := rfl
@[simp] theorem setMode_counts (s : State) (t : Nat) (f : TMode → TMode) : (setMode s t f).counts = s.counts := rfl
@[simp] theorem setMode_dump (s : State) (t : Nat) (f : TMode → TMode) : (setMode s t f).dump = s.dump := rfl
@[simp] theorem setMode_power (s : State) (t : Nat) (f : TMode → TMode) : (setMode s t f).power = s.power := rfl
@[simp] theorem setMode_thermal (s : State) (t : Nat) (f : TMode → TMode) : (setMode s t f).thermal = s.thermal := rfl
@[simp] theorem setMode_calib (s : State) (t : Nat) (f : TMode → TMode) : (setMode s t f).calib = s.calib := rfl
@[simp] theorem setMode_i3c (s : State) (t : Nat) (f : TMode → TMode) : (setMode s t f).i3c = s.i3c := rfl
@[simp] theorem setMode_jtag (s : State) (t : Nat) (f : TMode → TMode) : (setMode s t f).jtag = s.jtag := rfl

/-! ## setQ -/

@[simp] theorem setQ_part (s : State) (t : Nat) (f : TQueue → TQueue) : (setQ s t f).part = s.part := rfl
@[simp] theorem setQ_pending (s : State) (t : Nat) (f : TQueue → TQueue) : (setQ s t f).pending = s.pending := rfl
@[simp] theorem setQ_now (s : State) (t : Nat) (f : TQueue → TQueue) : (setQ s t f).now = s.now := rfl
@[simp] theorem setQ_free (s : State) (t : Nat) (f : TQueue → TQueue) : (setQ s t f).free = s.free := rfl
@[simp] theorem setQ_csr (s : State) (t : Nat) (f : TQueue → TQueue) : (setQ s t f).csr = s.csr := rfl
@[simp] theorem setQ_shadow (s : State) (t : Nat) (f : TQueue → TQueue) : (setQ s t f).shadow = s.shadow := rfl
@[simp] theorem setQ_readOut (s : State) (t : Nat) (f : TQueue → TQueue) : (setQ s t f).readOut = s.readOut := rfl
@[simp] theorem setQ_dram (s : State) (t : Nat) (f : TQueue → TQueue) : (setQ s t f).dram = s.dram := rfl
@[simp] theorem setQ_sram (s : State) (t : Nat) (f : TQueue → TQueue) : (setQ s t f).sram = s.sram := rfl
@[simp] theorem setQ_mram (s : State) (t : Nat) (f : TQueue → TQueue) : (setQ s t f).mram = s.mram := rfl
@[simp] theorem setQ_mramFenced (s : State) (t : Nat) (f : TQueue → TQueue) : (setQ s t f).mramFenced = s.mramFenced := rfl
@[simp] theorem setQ_leaves (s : State) (t : Nat) (f : TQueue → TQueue) : (setQ s t f).leaves = s.leaves := rfl
@[simp] theorem setQ_waiting (s : State) (t : Nat) (f : TQueue → TQueue) : (setQ s t f).waiting = s.waiting := rfl
@[simp] theorem setQ_live (s : State) (t : Nat) (f : TQueue → TQueue) : (setQ s t f).live = s.live := rfl
@[simp] theorem setQ_nextId (s : State) (t : Nat) (f : TQueue → TQueue) : (setQ s t f).nextId = s.nextId := rfl
@[simp] theorem setQ_sweeps (s : State) (t : Nat) (f : TQueue → TQueue) : (setQ s t f).sweeps = s.sweeps := rfl
@[simp] theorem setQ_clears (s : State) (t : Nat) (f : TQueue → TQueue) : (setQ s t f).clears = s.clears := rfl
@[simp] theorem setQ_reinits (s : State) (t : Nat) (f : TQueue → TQueue) : (setQ s t f).reinits = s.reinits := rfl
@[simp] theorem setQ_engines (s : State) (t : Nat) (f : TQueue → TQueue) : (setQ s t f).engines = s.engines := rfl
@[simp] theorem setQ_scans (s : State) (t : Nat) (f : TQueue → TQueue) : (setQ s t f).scans = s.scans := rfl
@[simp] theorem setQ_ward (s : State) (t : Nat) (f : TQueue → TQueue) : (setQ s t f).ward = s.ward := rfl
@[simp] theorem setQ_ports (s : State) (t : Nat) (f : TQueue → TQueue) : (setQ s t f).ports = s.ports := rfl
@[simp] theorem setQ_pair (s : State) (t : Nat) (f : TQueue → TQueue) : (setQ s t f).pair = s.pair := rfl
@[simp] theorem setQ_cmds (s : State) (t : Nat) (f : TQueue → TQueue) : (setQ s t f).cmds = s.cmds := rfl
@[simp] theorem setQ_rings (s : State) (t : Nat) (f : TQueue → TQueue) : (setQ s t f).rings = s.rings := rfl
@[simp] theorem setQ_dmas (s : State) (t : Nat) (f : TQueue → TQueue) : (setQ s t f).dmas = s.dmas := rfl
@[simp] theorem setQ_usb (s : State) (t : Nat) (f : TQueue → TQueue) : (setQ s t f).usb = s.usb := rfl
@[simp] theorem setQ_cores (s : State) (t : Nat) (f : TQueue → TQueue) : (setQ s t f).cores = s.cores := rfl
@[simp] theorem setQ_update (s : State) (t : Nat) (f : TQueue → TQueue) : (setQ s t f).update = s.update := rfl
@[simp] theorem setQ_pulses (s : State) (t : Nat) (f : TQueue → TQueue) : (setQ s t f).pulses = s.pulses := rfl
@[simp] theorem setQ_flts (s : State) (t : Nat) (f : TQueue → TQueue) : (setQ s t f).flts = s.flts := rfl
@[simp] theorem setQ_shadows (s : State) (t : Nat) (f : TQueue → TQueue) : (setQ s t f).shadows = s.shadows := rfl
@[simp] theorem setQ_logTail (s : State) (t : Nat) (f : TQueue → TQueue) : (setQ s t f).logTail = s.logTail := rfl
@[simp] theorem setQ_logSeq (s : State) (t : Nat) (f : TQueue → TQueue) : (setQ s t f).logSeq = s.logSeq := rfl
@[simp] theorem setQ_counts (s : State) (t : Nat) (f : TQueue → TQueue) : (setQ s t f).counts = s.counts := rfl
@[simp] theorem setQ_dump (s : State) (t : Nat) (f : TQueue → TQueue) : (setQ s t f).dump = s.dump := rfl
@[simp] theorem setQ_power (s : State) (t : Nat) (f : TQueue → TQueue) : (setQ s t f).power = s.power := rfl
@[simp] theorem setQ_thermal (s : State) (t : Nat) (f : TQueue → TQueue) : (setQ s t f).thermal = s.thermal := rfl
@[simp] theorem setQ_calib (s : State) (t : Nat) (f : TQueue → TQueue) : (setQ s t f).calib = s.calib := rfl
@[simp] theorem setQ_i3c (s : State) (t : Nat) (f : TQueue → TQueue) : (setQ s t f).i3c = s.i3c := rfl
@[simp] theorem setQ_jtag (s : State) (t : Nat) (f : TQueue → TQueue) : (setQ s t f).jtag = s.jtag := rfl

/-! ## setDram -/

@[simp] theorem setDram_part (s : State) (t : Nat) (f : TDram → TDram) : (setDram s t f).part = s.part := rfl
@[simp] theorem setDram_pending (s : State) (t : Nat) (f : TDram → TDram) : (setDram s t f).pending = s.pending := rfl
@[simp] theorem setDram_now (s : State) (t : Nat) (f : TDram → TDram) : (setDram s t f).now = s.now := rfl
@[simp] theorem setDram_free (s : State) (t : Nat) (f : TDram → TDram) : (setDram s t f).free = s.free := rfl
@[simp] theorem setDram_csr (s : State) (t : Nat) (f : TDram → TDram) : (setDram s t f).csr = s.csr := rfl
@[simp] theorem setDram_shadow (s : State) (t : Nat) (f : TDram → TDram) : (setDram s t f).shadow = s.shadow := rfl
@[simp] theorem setDram_readOut (s : State) (t : Nat) (f : TDram → TDram) : (setDram s t f).readOut = s.readOut := rfl
@[simp] theorem setDram_dram (s : State) (t : Nat) (f : TDram → TDram) : (setDram s t f).dram = s.dram := rfl
@[simp] theorem setDram_sram (s : State) (t : Nat) (f : TDram → TDram) : (setDram s t f).sram = s.sram := rfl
@[simp] theorem setDram_mram (s : State) (t : Nat) (f : TDram → TDram) : (setDram s t f).mram = s.mram := rfl
@[simp] theorem setDram_mramFenced (s : State) (t : Nat) (f : TDram → TDram) : (setDram s t f).mramFenced = s.mramFenced := rfl
@[simp] theorem setDram_leaves (s : State) (t : Nat) (f : TDram → TDram) : (setDram s t f).leaves = s.leaves := rfl
@[simp] theorem setDram_waiting (s : State) (t : Nat) (f : TDram → TDram) : (setDram s t f).waiting = s.waiting := rfl
@[simp] theorem setDram_live (s : State) (t : Nat) (f : TDram → TDram) : (setDram s t f).live = s.live := rfl
@[simp] theorem setDram_nextId (s : State) (t : Nat) (f : TDram → TDram) : (setDram s t f).nextId = s.nextId := rfl
@[simp] theorem setDram_sweeps (s : State) (t : Nat) (f : TDram → TDram) : (setDram s t f).sweeps = s.sweeps := rfl
@[simp] theorem setDram_clears (s : State) (t : Nat) (f : TDram → TDram) : (setDram s t f).clears = s.clears := rfl
@[simp] theorem setDram_reinits (s : State) (t : Nat) (f : TDram → TDram) : (setDram s t f).reinits = s.reinits := rfl
@[simp] theorem setDram_engines (s : State) (t : Nat) (f : TDram → TDram) : (setDram s t f).engines = s.engines := rfl
@[simp] theorem setDram_scans (s : State) (t : Nat) (f : TDram → TDram) : (setDram s t f).scans = s.scans := rfl
@[simp] theorem setDram_ward (s : State) (t : Nat) (f : TDram → TDram) : (setDram s t f).ward = s.ward := rfl
@[simp] theorem setDram_ports (s : State) (t : Nat) (f : TDram → TDram) : (setDram s t f).ports = s.ports := rfl
@[simp] theorem setDram_pair (s : State) (t : Nat) (f : TDram → TDram) : (setDram s t f).pair = s.pair := rfl
@[simp] theorem setDram_cmds (s : State) (t : Nat) (f : TDram → TDram) : (setDram s t f).cmds = s.cmds := rfl
@[simp] theorem setDram_rings (s : State) (t : Nat) (f : TDram → TDram) : (setDram s t f).rings = s.rings := rfl
@[simp] theorem setDram_dmas (s : State) (t : Nat) (f : TDram → TDram) : (setDram s t f).dmas = s.dmas := rfl
@[simp] theorem setDram_usb (s : State) (t : Nat) (f : TDram → TDram) : (setDram s t f).usb = s.usb := rfl
@[simp] theorem setDram_cores (s : State) (t : Nat) (f : TDram → TDram) : (setDram s t f).cores = s.cores := rfl
@[simp] theorem setDram_update (s : State) (t : Nat) (f : TDram → TDram) : (setDram s t f).update = s.update := rfl
@[simp] theorem setDram_pulses (s : State) (t : Nat) (f : TDram → TDram) : (setDram s t f).pulses = s.pulses := rfl
@[simp] theorem setDram_flts (s : State) (t : Nat) (f : TDram → TDram) : (setDram s t f).flts = s.flts := rfl
@[simp] theorem setDram_shadows (s : State) (t : Nat) (f : TDram → TDram) : (setDram s t f).shadows = s.shadows := rfl
@[simp] theorem setDram_logTail (s : State) (t : Nat) (f : TDram → TDram) : (setDram s t f).logTail = s.logTail := rfl
@[simp] theorem setDram_logSeq (s : State) (t : Nat) (f : TDram → TDram) : (setDram s t f).logSeq = s.logSeq := rfl
@[simp] theorem setDram_counts (s : State) (t : Nat) (f : TDram → TDram) : (setDram s t f).counts = s.counts := rfl
@[simp] theorem setDram_dump (s : State) (t : Nat) (f : TDram → TDram) : (setDram s t f).dump = s.dump := rfl
@[simp] theorem setDram_power (s : State) (t : Nat) (f : TDram → TDram) : (setDram s t f).power = s.power := rfl
@[simp] theorem setDram_thermal (s : State) (t : Nat) (f : TDram → TDram) : (setDram s t f).thermal = s.thermal := rfl
@[simp] theorem setDram_calib (s : State) (t : Nat) (f : TDram → TDram) : (setDram s t f).calib = s.calib := rfl
@[simp] theorem setDram_i3c (s : State) (t : Nat) (f : TDram → TDram) : (setDram s t f).i3c = s.i3c := rfl
@[simp] theorem setDram_jtag (s : State) (t : Nat) (f : TDram → TDram) : (setDram s t f).jtag = s.jtag := rfl

/-! ## setPort -/

@[simp] theorem setPort_part (s : State) (p : Nat) (x : Port) : (s.setPort p x).part = s.part := rfl
@[simp] theorem setPort_pending (s : State) (p : Nat) (x : Port) : (s.setPort p x).pending = s.pending := rfl
@[simp] theorem setPort_now (s : State) (p : Nat) (x : Port) : (s.setPort p x).now = s.now := rfl
@[simp] theorem setPort_free (s : State) (p : Nat) (x : Port) : (s.setPort p x).free = s.free := rfl
@[simp] theorem setPort_csr (s : State) (p : Nat) (x : Port) : (s.setPort p x).csr = s.csr := rfl
@[simp] theorem setPort_shadow (s : State) (p : Nat) (x : Port) : (s.setPort p x).shadow = s.shadow := rfl
@[simp] theorem setPort_readOut (s : State) (p : Nat) (x : Port) : (s.setPort p x).readOut = s.readOut := rfl
@[simp] theorem setPort_dram (s : State) (p : Nat) (x : Port) : (s.setPort p x).dram = s.dram := rfl
@[simp] theorem setPort_sram (s : State) (p : Nat) (x : Port) : (s.setPort p x).sram = s.sram := rfl
@[simp] theorem setPort_mram (s : State) (p : Nat) (x : Port) : (s.setPort p x).mram = s.mram := rfl
@[simp] theorem setPort_mramFenced (s : State) (p : Nat) (x : Port) : (s.setPort p x).mramFenced = s.mramFenced := rfl
@[simp] theorem setPort_tums (s : State) (p : Nat) (x : Port) : (s.setPort p x).tums = s.tums := rfl
@[simp] theorem setPort_leaves (s : State) (p : Nat) (x : Port) : (s.setPort p x).leaves = s.leaves := rfl
@[simp] theorem setPort_waiting (s : State) (p : Nat) (x : Port) : (s.setPort p x).waiting = s.waiting := rfl
@[simp] theorem setPort_live (s : State) (p : Nat) (x : Port) : (s.setPort p x).live = s.live := rfl
@[simp] theorem setPort_nextId (s : State) (p : Nat) (x : Port) : (s.setPort p x).nextId = s.nextId := rfl
@[simp] theorem setPort_sweeps (s : State) (p : Nat) (x : Port) : (s.setPort p x).sweeps = s.sweeps := rfl
@[simp] theorem setPort_clears (s : State) (p : Nat) (x : Port) : (s.setPort p x).clears = s.clears := rfl
@[simp] theorem setPort_reinits (s : State) (p : Nat) (x : Port) : (s.setPort p x).reinits = s.reinits := rfl
@[simp] theorem setPort_engines (s : State) (p : Nat) (x : Port) : (s.setPort p x).engines = s.engines := rfl
@[simp] theorem setPort_scans (s : State) (p : Nat) (x : Port) : (s.setPort p x).scans = s.scans := rfl
@[simp] theorem setPort_ward (s : State) (p : Nat) (x : Port) : (s.setPort p x).ward = s.ward := rfl
@[simp] theorem setPort_pair (s : State) (p : Nat) (x : Port) : (s.setPort p x).pair = s.pair := rfl
@[simp] theorem setPort_cmds (s : State) (p : Nat) (x : Port) : (s.setPort p x).cmds = s.cmds := rfl
@[simp] theorem setPort_rings (s : State) (p : Nat) (x : Port) : (s.setPort p x).rings = s.rings := rfl
@[simp] theorem setPort_dmas (s : State) (p : Nat) (x : Port) : (s.setPort p x).dmas = s.dmas := rfl
@[simp] theorem setPort_usb (s : State) (p : Nat) (x : Port) : (s.setPort p x).usb = s.usb := rfl
@[simp] theorem setPort_cores (s : State) (p : Nat) (x : Port) : (s.setPort p x).cores = s.cores := rfl
@[simp] theorem setPort_update (s : State) (p : Nat) (x : Port) : (s.setPort p x).update = s.update := rfl
@[simp] theorem setPort_pulses (s : State) (p : Nat) (x : Port) : (s.setPort p x).pulses = s.pulses := rfl
@[simp] theorem setPort_flts (s : State) (p : Nat) (x : Port) : (s.setPort p x).flts = s.flts := rfl
@[simp] theorem setPort_shadows (s : State) (p : Nat) (x : Port) : (s.setPort p x).shadows = s.shadows := rfl
@[simp] theorem setPort_logTail (s : State) (p : Nat) (x : Port) : (s.setPort p x).logTail = s.logTail := rfl
@[simp] theorem setPort_logSeq (s : State) (p : Nat) (x : Port) : (s.setPort p x).logSeq = s.logSeq := rfl
@[simp] theorem setPort_counts (s : State) (p : Nat) (x : Port) : (s.setPort p x).counts = s.counts := rfl
@[simp] theorem setPort_dump (s : State) (p : Nat) (x : Port) : (s.setPort p x).dump = s.dump := rfl
@[simp] theorem setPort_power (s : State) (p : Nat) (x : Port) : (s.setPort p x).power = s.power := rfl
@[simp] theorem setPort_thermal (s : State) (p : Nat) (x : Port) : (s.setPort p x).thermal = s.thermal := rfl
@[simp] theorem setPort_calib (s : State) (p : Nat) (x : Port) : (s.setPort p x).calib = s.calib := rfl
@[simp] theorem setPort_i3c (s : State) (p : Nat) (x : Port) : (s.setPort p x).i3c = s.i3c := rfl
@[simp] theorem setPort_jtag (s : State) (p : Nat) (x : Port) : (s.setPort p x).jtag = s.jtag := rfl

/-! ## modPort -/

@[simp] theorem modPort_part (s : State) (p : Nat) (f : Port → Port) : (s.modPort p f).part = s.part := rfl
@[simp] theorem modPort_pending (s : State) (p : Nat) (f : Port → Port) : (s.modPort p f).pending = s.pending := rfl
@[simp] theorem modPort_now (s : State) (p : Nat) (f : Port → Port) : (s.modPort p f).now = s.now := rfl
@[simp] theorem modPort_free (s : State) (p : Nat) (f : Port → Port) : (s.modPort p f).free = s.free := rfl
@[simp] theorem modPort_csr (s : State) (p : Nat) (f : Port → Port) : (s.modPort p f).csr = s.csr := rfl
@[simp] theorem modPort_shadow (s : State) (p : Nat) (f : Port → Port) : (s.modPort p f).shadow = s.shadow := rfl
@[simp] theorem modPort_readOut (s : State) (p : Nat) (f : Port → Port) : (s.modPort p f).readOut = s.readOut := rfl
@[simp] theorem modPort_dram (s : State) (p : Nat) (f : Port → Port) : (s.modPort p f).dram = s.dram := rfl
@[simp] theorem modPort_sram (s : State) (p : Nat) (f : Port → Port) : (s.modPort p f).sram = s.sram := rfl
@[simp] theorem modPort_mram (s : State) (p : Nat) (f : Port → Port) : (s.modPort p f).mram = s.mram := rfl
@[simp] theorem modPort_mramFenced (s : State) (p : Nat) (f : Port → Port) : (s.modPort p f).mramFenced = s.mramFenced := rfl
@[simp] theorem modPort_tums (s : State) (p : Nat) (f : Port → Port) : (s.modPort p f).tums = s.tums := rfl
@[simp] theorem modPort_leaves (s : State) (p : Nat) (f : Port → Port) : (s.modPort p f).leaves = s.leaves := rfl
@[simp] theorem modPort_waiting (s : State) (p : Nat) (f : Port → Port) : (s.modPort p f).waiting = s.waiting := rfl
@[simp] theorem modPort_live (s : State) (p : Nat) (f : Port → Port) : (s.modPort p f).live = s.live := rfl
@[simp] theorem modPort_nextId (s : State) (p : Nat) (f : Port → Port) : (s.modPort p f).nextId = s.nextId := rfl
@[simp] theorem modPort_sweeps (s : State) (p : Nat) (f : Port → Port) : (s.modPort p f).sweeps = s.sweeps := rfl
@[simp] theorem modPort_clears (s : State) (p : Nat) (f : Port → Port) : (s.modPort p f).clears = s.clears := rfl
@[simp] theorem modPort_reinits (s : State) (p : Nat) (f : Port → Port) : (s.modPort p f).reinits = s.reinits := rfl
@[simp] theorem modPort_engines (s : State) (p : Nat) (f : Port → Port) : (s.modPort p f).engines = s.engines := rfl
@[simp] theorem modPort_scans (s : State) (p : Nat) (f : Port → Port) : (s.modPort p f).scans = s.scans := rfl
@[simp] theorem modPort_ward (s : State) (p : Nat) (f : Port → Port) : (s.modPort p f).ward = s.ward := rfl
@[simp] theorem modPort_pair (s : State) (p : Nat) (f : Port → Port) : (s.modPort p f).pair = s.pair := rfl
@[simp] theorem modPort_cmds (s : State) (p : Nat) (f : Port → Port) : (s.modPort p f).cmds = s.cmds := rfl
@[simp] theorem modPort_rings (s : State) (p : Nat) (f : Port → Port) : (s.modPort p f).rings = s.rings := rfl
@[simp] theorem modPort_dmas (s : State) (p : Nat) (f : Port → Port) : (s.modPort p f).dmas = s.dmas := rfl
@[simp] theorem modPort_usb (s : State) (p : Nat) (f : Port → Port) : (s.modPort p f).usb = s.usb := rfl
@[simp] theorem modPort_cores (s : State) (p : Nat) (f : Port → Port) : (s.modPort p f).cores = s.cores := rfl
@[simp] theorem modPort_update (s : State) (p : Nat) (f : Port → Port) : (s.modPort p f).update = s.update := rfl
@[simp] theorem modPort_pulses (s : State) (p : Nat) (f : Port → Port) : (s.modPort p f).pulses = s.pulses := rfl
@[simp] theorem modPort_flts (s : State) (p : Nat) (f : Port → Port) : (s.modPort p f).flts = s.flts := rfl
@[simp] theorem modPort_shadows (s : State) (p : Nat) (f : Port → Port) : (s.modPort p f).shadows = s.shadows := rfl
@[simp] theorem modPort_logTail (s : State) (p : Nat) (f : Port → Port) : (s.modPort p f).logTail = s.logTail := rfl
@[simp] theorem modPort_logSeq (s : State) (p : Nat) (f : Port → Port) : (s.modPort p f).logSeq = s.logSeq := rfl
@[simp] theorem modPort_counts (s : State) (p : Nat) (f : Port → Port) : (s.modPort p f).counts = s.counts := rfl
@[simp] theorem modPort_dump (s : State) (p : Nat) (f : Port → Port) : (s.modPort p f).dump = s.dump := rfl
@[simp] theorem modPort_power (s : State) (p : Nat) (f : Port → Port) : (s.modPort p f).power = s.power := rfl
@[simp] theorem modPort_thermal (s : State) (p : Nat) (f : Port → Port) : (s.modPort p f).thermal = s.thermal := rfl
@[simp] theorem modPort_calib (s : State) (p : Nat) (f : Port → Port) : (s.modPort p f).calib = s.calib := rfl
@[simp] theorem modPort_i3c (s : State) (p : Nat) (f : Port → Port) : (s.modPort p f).i3c = s.i3c := rfl
@[simp] theorem modPort_jtag (s : State) (p : Nat) (f : Port → Port) : (s.modPort p f).jtag = s.jtag := rfl

/-! ## setPhy -/

@[simp] theorem setPhy_part (s : State) (p : Nat) (f : PhyS → PhyS) : (setPhy s p f).part = s.part := rfl
@[simp] theorem setPhy_pending (s : State) (p : Nat) (f : PhyS → PhyS) : (setPhy s p f).pending = s.pending := rfl
@[simp] theorem setPhy_now (s : State) (p : Nat) (f : PhyS → PhyS) : (setPhy s p f).now = s.now := rfl
@[simp] theorem setPhy_free (s : State) (p : Nat) (f : PhyS → PhyS) : (setPhy s p f).free = s.free := rfl
@[simp] theorem setPhy_csr (s : State) (p : Nat) (f : PhyS → PhyS) : (setPhy s p f).csr = s.csr := rfl
@[simp] theorem setPhy_shadow (s : State) (p : Nat) (f : PhyS → PhyS) : (setPhy s p f).shadow = s.shadow := rfl
@[simp] theorem setPhy_readOut (s : State) (p : Nat) (f : PhyS → PhyS) : (setPhy s p f).readOut = s.readOut := rfl
@[simp] theorem setPhy_dram (s : State) (p : Nat) (f : PhyS → PhyS) : (setPhy s p f).dram = s.dram := rfl
@[simp] theorem setPhy_sram (s : State) (p : Nat) (f : PhyS → PhyS) : (setPhy s p f).sram = s.sram := rfl
@[simp] theorem setPhy_mram (s : State) (p : Nat) (f : PhyS → PhyS) : (setPhy s p f).mram = s.mram := rfl
@[simp] theorem setPhy_mramFenced (s : State) (p : Nat) (f : PhyS → PhyS) : (setPhy s p f).mramFenced = s.mramFenced := rfl
@[simp] theorem setPhy_tums (s : State) (p : Nat) (f : PhyS → PhyS) : (setPhy s p f).tums = s.tums := rfl
@[simp] theorem setPhy_leaves (s : State) (p : Nat) (f : PhyS → PhyS) : (setPhy s p f).leaves = s.leaves := rfl
@[simp] theorem setPhy_waiting (s : State) (p : Nat) (f : PhyS → PhyS) : (setPhy s p f).waiting = s.waiting := rfl
@[simp] theorem setPhy_live (s : State) (p : Nat) (f : PhyS → PhyS) : (setPhy s p f).live = s.live := rfl
@[simp] theorem setPhy_nextId (s : State) (p : Nat) (f : PhyS → PhyS) : (setPhy s p f).nextId = s.nextId := rfl
@[simp] theorem setPhy_sweeps (s : State) (p : Nat) (f : PhyS → PhyS) : (setPhy s p f).sweeps = s.sweeps := rfl
@[simp] theorem setPhy_clears (s : State) (p : Nat) (f : PhyS → PhyS) : (setPhy s p f).clears = s.clears := rfl
@[simp] theorem setPhy_reinits (s : State) (p : Nat) (f : PhyS → PhyS) : (setPhy s p f).reinits = s.reinits := rfl
@[simp] theorem setPhy_engines (s : State) (p : Nat) (f : PhyS → PhyS) : (setPhy s p f).engines = s.engines := rfl
@[simp] theorem setPhy_scans (s : State) (p : Nat) (f : PhyS → PhyS) : (setPhy s p f).scans = s.scans := rfl
@[simp] theorem setPhy_ward (s : State) (p : Nat) (f : PhyS → PhyS) : (setPhy s p f).ward = s.ward := rfl
@[simp] theorem setPhy_pair (s : State) (p : Nat) (f : PhyS → PhyS) : (setPhy s p f).pair = s.pair := rfl
@[simp] theorem setPhy_cmds (s : State) (p : Nat) (f : PhyS → PhyS) : (setPhy s p f).cmds = s.cmds := rfl
@[simp] theorem setPhy_rings (s : State) (p : Nat) (f : PhyS → PhyS) : (setPhy s p f).rings = s.rings := rfl
@[simp] theorem setPhy_dmas (s : State) (p : Nat) (f : PhyS → PhyS) : (setPhy s p f).dmas = s.dmas := rfl
@[simp] theorem setPhy_usb (s : State) (p : Nat) (f : PhyS → PhyS) : (setPhy s p f).usb = s.usb := rfl
@[simp] theorem setPhy_cores (s : State) (p : Nat) (f : PhyS → PhyS) : (setPhy s p f).cores = s.cores := rfl
@[simp] theorem setPhy_update (s : State) (p : Nat) (f : PhyS → PhyS) : (setPhy s p f).update = s.update := rfl
@[simp] theorem setPhy_pulses (s : State) (p : Nat) (f : PhyS → PhyS) : (setPhy s p f).pulses = s.pulses := rfl
@[simp] theorem setPhy_flts (s : State) (p : Nat) (f : PhyS → PhyS) : (setPhy s p f).flts = s.flts := rfl
@[simp] theorem setPhy_shadows (s : State) (p : Nat) (f : PhyS → PhyS) : (setPhy s p f).shadows = s.shadows := rfl
@[simp] theorem setPhy_logTail (s : State) (p : Nat) (f : PhyS → PhyS) : (setPhy s p f).logTail = s.logTail := rfl
@[simp] theorem setPhy_logSeq (s : State) (p : Nat) (f : PhyS → PhyS) : (setPhy s p f).logSeq = s.logSeq := rfl
@[simp] theorem setPhy_counts (s : State) (p : Nat) (f : PhyS → PhyS) : (setPhy s p f).counts = s.counts := rfl
@[simp] theorem setPhy_dump (s : State) (p : Nat) (f : PhyS → PhyS) : (setPhy s p f).dump = s.dump := rfl
@[simp] theorem setPhy_power (s : State) (p : Nat) (f : PhyS → PhyS) : (setPhy s p f).power = s.power := rfl
@[simp] theorem setPhy_thermal (s : State) (p : Nat) (f : PhyS → PhyS) : (setPhy s p f).thermal = s.thermal := rfl
@[simp] theorem setPhy_calib (s : State) (p : Nat) (f : PhyS → PhyS) : (setPhy s p f).calib = s.calib := rfl
@[simp] theorem setPhy_i3c (s : State) (p : Nat) (f : PhyS → PhyS) : (setPhy s p f).i3c = s.i3c := rfl
@[simp] theorem setPhy_jtag (s : State) (p : Nat) (f : PhyS → PhyS) : (setPhy s p f).jtag = s.jtag := rfl

/-! ## setCore -/

@[simp] theorem setCore_part (s : State) (c : Nat) (x : Core) : (s.setCore c x).part = s.part := rfl
@[simp] theorem setCore_pending (s : State) (c : Nat) (x : Core) : (s.setCore c x).pending = s.pending := rfl
@[simp] theorem setCore_now (s : State) (c : Nat) (x : Core) : (s.setCore c x).now = s.now := rfl
@[simp] theorem setCore_free (s : State) (c : Nat) (x : Core) : (s.setCore c x).free = s.free := rfl
@[simp] theorem setCore_csr (s : State) (c : Nat) (x : Core) : (s.setCore c x).csr = s.csr := rfl
@[simp] theorem setCore_shadow (s : State) (c : Nat) (x : Core) : (s.setCore c x).shadow = s.shadow := rfl
@[simp] theorem setCore_readOut (s : State) (c : Nat) (x : Core) : (s.setCore c x).readOut = s.readOut := rfl
@[simp] theorem setCore_dram (s : State) (c : Nat) (x : Core) : (s.setCore c x).dram = s.dram := rfl
@[simp] theorem setCore_sram (s : State) (c : Nat) (x : Core) : (s.setCore c x).sram = s.sram := rfl
@[simp] theorem setCore_mram (s : State) (c : Nat) (x : Core) : (s.setCore c x).mram = s.mram := rfl
@[simp] theorem setCore_mramFenced (s : State) (c : Nat) (x : Core) : (s.setCore c x).mramFenced = s.mramFenced := rfl
@[simp] theorem setCore_tums (s : State) (c : Nat) (x : Core) : (s.setCore c x).tums = s.tums := rfl
@[simp] theorem setCore_leaves (s : State) (c : Nat) (x : Core) : (s.setCore c x).leaves = s.leaves := rfl
@[simp] theorem setCore_waiting (s : State) (c : Nat) (x : Core) : (s.setCore c x).waiting = s.waiting := rfl
@[simp] theorem setCore_live (s : State) (c : Nat) (x : Core) : (s.setCore c x).live = s.live := rfl
@[simp] theorem setCore_nextId (s : State) (c : Nat) (x : Core) : (s.setCore c x).nextId = s.nextId := rfl
@[simp] theorem setCore_sweeps (s : State) (c : Nat) (x : Core) : (s.setCore c x).sweeps = s.sweeps := rfl
@[simp] theorem setCore_clears (s : State) (c : Nat) (x : Core) : (s.setCore c x).clears = s.clears := rfl
@[simp] theorem setCore_reinits (s : State) (c : Nat) (x : Core) : (s.setCore c x).reinits = s.reinits := rfl
@[simp] theorem setCore_engines (s : State) (c : Nat) (x : Core) : (s.setCore c x).engines = s.engines := rfl
@[simp] theorem setCore_scans (s : State) (c : Nat) (x : Core) : (s.setCore c x).scans = s.scans := rfl
@[simp] theorem setCore_ward (s : State) (c : Nat) (x : Core) : (s.setCore c x).ward = s.ward := rfl
@[simp] theorem setCore_ports (s : State) (c : Nat) (x : Core) : (s.setCore c x).ports = s.ports := rfl
@[simp] theorem setCore_pair (s : State) (c : Nat) (x : Core) : (s.setCore c x).pair = s.pair := rfl
@[simp] theorem setCore_cmds (s : State) (c : Nat) (x : Core) : (s.setCore c x).cmds = s.cmds := rfl
@[simp] theorem setCore_rings (s : State) (c : Nat) (x : Core) : (s.setCore c x).rings = s.rings := rfl
@[simp] theorem setCore_dmas (s : State) (c : Nat) (x : Core) : (s.setCore c x).dmas = s.dmas := rfl
@[simp] theorem setCore_usb (s : State) (c : Nat) (x : Core) : (s.setCore c x).usb = s.usb := rfl
@[simp] theorem setCore_update (s : State) (c : Nat) (x : Core) : (s.setCore c x).update = s.update := rfl
@[simp] theorem setCore_pulses (s : State) (c : Nat) (x : Core) : (s.setCore c x).pulses = s.pulses := rfl
@[simp] theorem setCore_flts (s : State) (c : Nat) (x : Core) : (s.setCore c x).flts = s.flts := rfl
@[simp] theorem setCore_shadows (s : State) (c : Nat) (x : Core) : (s.setCore c x).shadows = s.shadows := rfl
@[simp] theorem setCore_logTail (s : State) (c : Nat) (x : Core) : (s.setCore c x).logTail = s.logTail := rfl
@[simp] theorem setCore_logSeq (s : State) (c : Nat) (x : Core) : (s.setCore c x).logSeq = s.logSeq := rfl
@[simp] theorem setCore_counts (s : State) (c : Nat) (x : Core) : (s.setCore c x).counts = s.counts := rfl
@[simp] theorem setCore_dump (s : State) (c : Nat) (x : Core) : (s.setCore c x).dump = s.dump := rfl
@[simp] theorem setCore_power (s : State) (c : Nat) (x : Core) : (s.setCore c x).power = s.power := rfl
@[simp] theorem setCore_thermal (s : State) (c : Nat) (x : Core) : (s.setCore c x).thermal = s.thermal := rfl
@[simp] theorem setCore_calib (s : State) (c : Nat) (x : Core) : (s.setCore c x).calib = s.calib := rfl
@[simp] theorem setCore_i3c (s : State) (c : Nat) (x : Core) : (s.setCore c x).i3c = s.i3c := rfl
@[simp] theorem setCore_jtag (s : State) (c : Nat) (x : Core) : (s.setCore c x).jtag = s.jtag := rfl

/-! ## setEng -/

@[simp] theorem setEng_part (s : State) (n : Nat) (x : Engine) : (s.setEng n x).part = s.part := rfl
@[simp] theorem setEng_pending (s : State) (n : Nat) (x : Engine) : (s.setEng n x).pending = s.pending := rfl
@[simp] theorem setEng_now (s : State) (n : Nat) (x : Engine) : (s.setEng n x).now = s.now := rfl
@[simp] theorem setEng_free (s : State) (n : Nat) (x : Engine) : (s.setEng n x).free = s.free := rfl
@[simp] theorem setEng_csr (s : State) (n : Nat) (x : Engine) : (s.setEng n x).csr = s.csr := rfl
@[simp] theorem setEng_shadow (s : State) (n : Nat) (x : Engine) : (s.setEng n x).shadow = s.shadow := rfl
@[simp] theorem setEng_readOut (s : State) (n : Nat) (x : Engine) : (s.setEng n x).readOut = s.readOut := rfl
@[simp] theorem setEng_dram (s : State) (n : Nat) (x : Engine) : (s.setEng n x).dram = s.dram := rfl
@[simp] theorem setEng_sram (s : State) (n : Nat) (x : Engine) : (s.setEng n x).sram = s.sram := rfl
@[simp] theorem setEng_mram (s : State) (n : Nat) (x : Engine) : (s.setEng n x).mram = s.mram := rfl
@[simp] theorem setEng_mramFenced (s : State) (n : Nat) (x : Engine) : (s.setEng n x).mramFenced = s.mramFenced := rfl
@[simp] theorem setEng_tums (s : State) (n : Nat) (x : Engine) : (s.setEng n x).tums = s.tums := rfl
@[simp] theorem setEng_leaves (s : State) (n : Nat) (x : Engine) : (s.setEng n x).leaves = s.leaves := rfl
@[simp] theorem setEng_waiting (s : State) (n : Nat) (x : Engine) : (s.setEng n x).waiting = s.waiting := rfl
@[simp] theorem setEng_live (s : State) (n : Nat) (x : Engine) : (s.setEng n x).live = s.live := rfl
@[simp] theorem setEng_nextId (s : State) (n : Nat) (x : Engine) : (s.setEng n x).nextId = s.nextId := rfl
@[simp] theorem setEng_sweeps (s : State) (n : Nat) (x : Engine) : (s.setEng n x).sweeps = s.sweeps := rfl
@[simp] theorem setEng_clears (s : State) (n : Nat) (x : Engine) : (s.setEng n x).clears = s.clears := rfl
@[simp] theorem setEng_reinits (s : State) (n : Nat) (x : Engine) : (s.setEng n x).reinits = s.reinits := rfl
@[simp] theorem setEng_scans (s : State) (n : Nat) (x : Engine) : (s.setEng n x).scans = s.scans := rfl
@[simp] theorem setEng_ward (s : State) (n : Nat) (x : Engine) : (s.setEng n x).ward = s.ward := rfl
@[simp] theorem setEng_ports (s : State) (n : Nat) (x : Engine) : (s.setEng n x).ports = s.ports := rfl
@[simp] theorem setEng_pair (s : State) (n : Nat) (x : Engine) : (s.setEng n x).pair = s.pair := rfl
@[simp] theorem setEng_cmds (s : State) (n : Nat) (x : Engine) : (s.setEng n x).cmds = s.cmds := rfl
@[simp] theorem setEng_rings (s : State) (n : Nat) (x : Engine) : (s.setEng n x).rings = s.rings := rfl
@[simp] theorem setEng_dmas (s : State) (n : Nat) (x : Engine) : (s.setEng n x).dmas = s.dmas := rfl
@[simp] theorem setEng_usb (s : State) (n : Nat) (x : Engine) : (s.setEng n x).usb = s.usb := rfl
@[simp] theorem setEng_cores (s : State) (n : Nat) (x : Engine) : (s.setEng n x).cores = s.cores := rfl
@[simp] theorem setEng_update (s : State) (n : Nat) (x : Engine) : (s.setEng n x).update = s.update := rfl
@[simp] theorem setEng_pulses (s : State) (n : Nat) (x : Engine) : (s.setEng n x).pulses = s.pulses := rfl
@[simp] theorem setEng_flts (s : State) (n : Nat) (x : Engine) : (s.setEng n x).flts = s.flts := rfl
@[simp] theorem setEng_shadows (s : State) (n : Nat) (x : Engine) : (s.setEng n x).shadows = s.shadows := rfl
@[simp] theorem setEng_logTail (s : State) (n : Nat) (x : Engine) : (s.setEng n x).logTail = s.logTail := rfl
@[simp] theorem setEng_logSeq (s : State) (n : Nat) (x : Engine) : (s.setEng n x).logSeq = s.logSeq := rfl
@[simp] theorem setEng_counts (s : State) (n : Nat) (x : Engine) : (s.setEng n x).counts = s.counts := rfl
@[simp] theorem setEng_dump (s : State) (n : Nat) (x : Engine) : (s.setEng n x).dump = s.dump := rfl
@[simp] theorem setEng_power (s : State) (n : Nat) (x : Engine) : (s.setEng n x).power = s.power := rfl
@[simp] theorem setEng_thermal (s : State) (n : Nat) (x : Engine) : (s.setEng n x).thermal = s.thermal := rfl
@[simp] theorem setEng_calib (s : State) (n : Nat) (x : Engine) : (s.setEng n x).calib = s.calib := rfl
@[simp] theorem setEng_i3c (s : State) (n : Nat) (x : Engine) : (s.setEng n x).i3c = s.i3c := rfl
@[simp] theorem setEng_jtag (s : State) (n : Nat) (x : Engine) : (s.setEng n x).jtag = s.jtag := rfl

/-! ## setRing -/

@[simp] theorem setRing_part (s : State) (n : Nat) (x : RingS) : (s.setRing n x).part = s.part := rfl
@[simp] theorem setRing_pending (s : State) (n : Nat) (x : RingS) : (s.setRing n x).pending = s.pending := rfl
@[simp] theorem setRing_now (s : State) (n : Nat) (x : RingS) : (s.setRing n x).now = s.now := rfl
@[simp] theorem setRing_free (s : State) (n : Nat) (x : RingS) : (s.setRing n x).free = s.free := rfl
@[simp] theorem setRing_csr (s : State) (n : Nat) (x : RingS) : (s.setRing n x).csr = s.csr := rfl
@[simp] theorem setRing_shadow (s : State) (n : Nat) (x : RingS) : (s.setRing n x).shadow = s.shadow := rfl
@[simp] theorem setRing_readOut (s : State) (n : Nat) (x : RingS) : (s.setRing n x).readOut = s.readOut := rfl
@[simp] theorem setRing_dram (s : State) (n : Nat) (x : RingS) : (s.setRing n x).dram = s.dram := rfl
@[simp] theorem setRing_sram (s : State) (n : Nat) (x : RingS) : (s.setRing n x).sram = s.sram := rfl
@[simp] theorem setRing_mram (s : State) (n : Nat) (x : RingS) : (s.setRing n x).mram = s.mram := rfl
@[simp] theorem setRing_mramFenced (s : State) (n : Nat) (x : RingS) : (s.setRing n x).mramFenced = s.mramFenced := rfl
@[simp] theorem setRing_tums (s : State) (n : Nat) (x : RingS) : (s.setRing n x).tums = s.tums := rfl
@[simp] theorem setRing_leaves (s : State) (n : Nat) (x : RingS) : (s.setRing n x).leaves = s.leaves := rfl
@[simp] theorem setRing_waiting (s : State) (n : Nat) (x : RingS) : (s.setRing n x).waiting = s.waiting := rfl
@[simp] theorem setRing_live (s : State) (n : Nat) (x : RingS) : (s.setRing n x).live = s.live := rfl
@[simp] theorem setRing_nextId (s : State) (n : Nat) (x : RingS) : (s.setRing n x).nextId = s.nextId := rfl
@[simp] theorem setRing_sweeps (s : State) (n : Nat) (x : RingS) : (s.setRing n x).sweeps = s.sweeps := rfl
@[simp] theorem setRing_clears (s : State) (n : Nat) (x : RingS) : (s.setRing n x).clears = s.clears := rfl
@[simp] theorem setRing_reinits (s : State) (n : Nat) (x : RingS) : (s.setRing n x).reinits = s.reinits := rfl
@[simp] theorem setRing_engines (s : State) (n : Nat) (x : RingS) : (s.setRing n x).engines = s.engines := rfl
@[simp] theorem setRing_scans (s : State) (n : Nat) (x : RingS) : (s.setRing n x).scans = s.scans := rfl
@[simp] theorem setRing_ward (s : State) (n : Nat) (x : RingS) : (s.setRing n x).ward = s.ward := rfl
@[simp] theorem setRing_ports (s : State) (n : Nat) (x : RingS) : (s.setRing n x).ports = s.ports := rfl
@[simp] theorem setRing_pair (s : State) (n : Nat) (x : RingS) : (s.setRing n x).pair = s.pair := rfl
@[simp] theorem setRing_cmds (s : State) (n : Nat) (x : RingS) : (s.setRing n x).cmds = s.cmds := rfl
@[simp] theorem setRing_dmas (s : State) (n : Nat) (x : RingS) : (s.setRing n x).dmas = s.dmas := rfl
@[simp] theorem setRing_usb (s : State) (n : Nat) (x : RingS) : (s.setRing n x).usb = s.usb := rfl
@[simp] theorem setRing_cores (s : State) (n : Nat) (x : RingS) : (s.setRing n x).cores = s.cores := rfl
@[simp] theorem setRing_update (s : State) (n : Nat) (x : RingS) : (s.setRing n x).update = s.update := rfl
@[simp] theorem setRing_pulses (s : State) (n : Nat) (x : RingS) : (s.setRing n x).pulses = s.pulses := rfl
@[simp] theorem setRing_flts (s : State) (n : Nat) (x : RingS) : (s.setRing n x).flts = s.flts := rfl
@[simp] theorem setRing_shadows (s : State) (n : Nat) (x : RingS) : (s.setRing n x).shadows = s.shadows := rfl
@[simp] theorem setRing_logTail (s : State) (n : Nat) (x : RingS) : (s.setRing n x).logTail = s.logTail := rfl
@[simp] theorem setRing_logSeq (s : State) (n : Nat) (x : RingS) : (s.setRing n x).logSeq = s.logSeq := rfl
@[simp] theorem setRing_counts (s : State) (n : Nat) (x : RingS) : (s.setRing n x).counts = s.counts := rfl
@[simp] theorem setRing_dump (s : State) (n : Nat) (x : RingS) : (s.setRing n x).dump = s.dump := rfl
@[simp] theorem setRing_power (s : State) (n : Nat) (x : RingS) : (s.setRing n x).power = s.power := rfl
@[simp] theorem setRing_thermal (s : State) (n : Nat) (x : RingS) : (s.setRing n x).thermal = s.thermal := rfl
@[simp] theorem setRing_calib (s : State) (n : Nat) (x : RingS) : (s.setRing n x).calib = s.calib := rfl
@[simp] theorem setRing_i3c (s : State) (n : Nat) (x : RingS) : (s.setRing n x).i3c = s.i3c := rfl
@[simp] theorem setRing_jtag (s : State) (n : Nat) (x : RingS) : (s.setRing n x).jtag = s.jtag := rfl

/-! ## setFlt -/

@[simp] theorem setFlt_part (s : State) (b : FltSet) (x : FltS) : (s.setFlt b x).part = s.part := rfl
@[simp] theorem setFlt_pending (s : State) (b : FltSet) (x : FltS) : (s.setFlt b x).pending = s.pending := rfl
@[simp] theorem setFlt_now (s : State) (b : FltSet) (x : FltS) : (s.setFlt b x).now = s.now := rfl
@[simp] theorem setFlt_free (s : State) (b : FltSet) (x : FltS) : (s.setFlt b x).free = s.free := rfl
@[simp] theorem setFlt_csr (s : State) (b : FltSet) (x : FltS) : (s.setFlt b x).csr = s.csr := rfl
@[simp] theorem setFlt_shadow (s : State) (b : FltSet) (x : FltS) : (s.setFlt b x).shadow = s.shadow := rfl
@[simp] theorem setFlt_readOut (s : State) (b : FltSet) (x : FltS) : (s.setFlt b x).readOut = s.readOut := rfl
@[simp] theorem setFlt_dram (s : State) (b : FltSet) (x : FltS) : (s.setFlt b x).dram = s.dram := rfl
@[simp] theorem setFlt_sram (s : State) (b : FltSet) (x : FltS) : (s.setFlt b x).sram = s.sram := rfl
@[simp] theorem setFlt_mram (s : State) (b : FltSet) (x : FltS) : (s.setFlt b x).mram = s.mram := rfl
@[simp] theorem setFlt_mramFenced (s : State) (b : FltSet) (x : FltS) : (s.setFlt b x).mramFenced = s.mramFenced := rfl
@[simp] theorem setFlt_tums (s : State) (b : FltSet) (x : FltS) : (s.setFlt b x).tums = s.tums := rfl
@[simp] theorem setFlt_leaves (s : State) (b : FltSet) (x : FltS) : (s.setFlt b x).leaves = s.leaves := rfl
@[simp] theorem setFlt_waiting (s : State) (b : FltSet) (x : FltS) : (s.setFlt b x).waiting = s.waiting := rfl
@[simp] theorem setFlt_live (s : State) (b : FltSet) (x : FltS) : (s.setFlt b x).live = s.live := rfl
@[simp] theorem setFlt_nextId (s : State) (b : FltSet) (x : FltS) : (s.setFlt b x).nextId = s.nextId := rfl
@[simp] theorem setFlt_sweeps (s : State) (b : FltSet) (x : FltS) : (s.setFlt b x).sweeps = s.sweeps := rfl
@[simp] theorem setFlt_clears (s : State) (b : FltSet) (x : FltS) : (s.setFlt b x).clears = s.clears := rfl
@[simp] theorem setFlt_reinits (s : State) (b : FltSet) (x : FltS) : (s.setFlt b x).reinits = s.reinits := rfl
@[simp] theorem setFlt_engines (s : State) (b : FltSet) (x : FltS) : (s.setFlt b x).engines = s.engines := rfl
@[simp] theorem setFlt_scans (s : State) (b : FltSet) (x : FltS) : (s.setFlt b x).scans = s.scans := rfl
@[simp] theorem setFlt_ward (s : State) (b : FltSet) (x : FltS) : (s.setFlt b x).ward = s.ward := rfl
@[simp] theorem setFlt_ports (s : State) (b : FltSet) (x : FltS) : (s.setFlt b x).ports = s.ports := rfl
@[simp] theorem setFlt_pair (s : State) (b : FltSet) (x : FltS) : (s.setFlt b x).pair = s.pair := rfl
@[simp] theorem setFlt_cmds (s : State) (b : FltSet) (x : FltS) : (s.setFlt b x).cmds = s.cmds := rfl
@[simp] theorem setFlt_rings (s : State) (b : FltSet) (x : FltS) : (s.setFlt b x).rings = s.rings := rfl
@[simp] theorem setFlt_dmas (s : State) (b : FltSet) (x : FltS) : (s.setFlt b x).dmas = s.dmas := rfl
@[simp] theorem setFlt_usb (s : State) (b : FltSet) (x : FltS) : (s.setFlt b x).usb = s.usb := rfl
@[simp] theorem setFlt_cores (s : State) (b : FltSet) (x : FltS) : (s.setFlt b x).cores = s.cores := rfl
@[simp] theorem setFlt_update (s : State) (b : FltSet) (x : FltS) : (s.setFlt b x).update = s.update := rfl
@[simp] theorem setFlt_pulses (s : State) (b : FltSet) (x : FltS) : (s.setFlt b x).pulses = s.pulses := rfl
@[simp] theorem setFlt_shadows (s : State) (b : FltSet) (x : FltS) : (s.setFlt b x).shadows = s.shadows := rfl
@[simp] theorem setFlt_logTail (s : State) (b : FltSet) (x : FltS) : (s.setFlt b x).logTail = s.logTail := rfl
@[simp] theorem setFlt_logSeq (s : State) (b : FltSet) (x : FltS) : (s.setFlt b x).logSeq = s.logSeq := rfl
@[simp] theorem setFlt_counts (s : State) (b : FltSet) (x : FltS) : (s.setFlt b x).counts = s.counts := rfl
@[simp] theorem setFlt_dump (s : State) (b : FltSet) (x : FltS) : (s.setFlt b x).dump = s.dump := rfl
@[simp] theorem setFlt_power (s : State) (b : FltSet) (x : FltS) : (s.setFlt b x).power = s.power := rfl
@[simp] theorem setFlt_thermal (s : State) (b : FltSet) (x : FltS) : (s.setFlt b x).thermal = s.thermal := rfl
@[simp] theorem setFlt_calib (s : State) (b : FltSet) (x : FltS) : (s.setFlt b x).calib = s.calib := rfl
@[simp] theorem setFlt_i3c (s : State) (b : FltSet) (x : FltS) : (s.setFlt b x).i3c = s.i3c := rfl
@[simp] theorem setFlt_jtag (s : State) (b : FltSet) (x : FltS) : (s.setFlt b x).jtag = s.jtag := rfl

/-! ## setScan -/

@[simp] theorem setScan_part (s : State) (n : Nat) (x : Option Scan) : (s.setScan n x).part = s.part := rfl
@[simp] theorem setScan_pending (s : State) (n : Nat) (x : Option Scan) : (s.setScan n x).pending = s.pending := rfl
@[simp] theorem setScan_now (s : State) (n : Nat) (x : Option Scan) : (s.setScan n x).now = s.now := rfl
@[simp] theorem setScan_free (s : State) (n : Nat) (x : Option Scan) : (s.setScan n x).free = s.free := rfl
@[simp] theorem setScan_csr (s : State) (n : Nat) (x : Option Scan) : (s.setScan n x).csr = s.csr := rfl
@[simp] theorem setScan_shadow (s : State) (n : Nat) (x : Option Scan) : (s.setScan n x).shadow = s.shadow := rfl
@[simp] theorem setScan_readOut (s : State) (n : Nat) (x : Option Scan) : (s.setScan n x).readOut = s.readOut := rfl
@[simp] theorem setScan_dram (s : State) (n : Nat) (x : Option Scan) : (s.setScan n x).dram = s.dram := rfl
@[simp] theorem setScan_sram (s : State) (n : Nat) (x : Option Scan) : (s.setScan n x).sram = s.sram := rfl
@[simp] theorem setScan_mram (s : State) (n : Nat) (x : Option Scan) : (s.setScan n x).mram = s.mram := rfl
@[simp] theorem setScan_mramFenced (s : State) (n : Nat) (x : Option Scan) : (s.setScan n x).mramFenced = s.mramFenced := rfl
@[simp] theorem setScan_tums (s : State) (n : Nat) (x : Option Scan) : (s.setScan n x).tums = s.tums := rfl
@[simp] theorem setScan_leaves (s : State) (n : Nat) (x : Option Scan) : (s.setScan n x).leaves = s.leaves := rfl
@[simp] theorem setScan_waiting (s : State) (n : Nat) (x : Option Scan) : (s.setScan n x).waiting = s.waiting := rfl
@[simp] theorem setScan_live (s : State) (n : Nat) (x : Option Scan) : (s.setScan n x).live = s.live := rfl
@[simp] theorem setScan_nextId (s : State) (n : Nat) (x : Option Scan) : (s.setScan n x).nextId = s.nextId := rfl
@[simp] theorem setScan_sweeps (s : State) (n : Nat) (x : Option Scan) : (s.setScan n x).sweeps = s.sweeps := rfl
@[simp] theorem setScan_clears (s : State) (n : Nat) (x : Option Scan) : (s.setScan n x).clears = s.clears := rfl
@[simp] theorem setScan_reinits (s : State) (n : Nat) (x : Option Scan) : (s.setScan n x).reinits = s.reinits := rfl
@[simp] theorem setScan_engines (s : State) (n : Nat) (x : Option Scan) : (s.setScan n x).engines = s.engines := rfl
@[simp] theorem setScan_ward (s : State) (n : Nat) (x : Option Scan) : (s.setScan n x).ward = s.ward := rfl
@[simp] theorem setScan_ports (s : State) (n : Nat) (x : Option Scan) : (s.setScan n x).ports = s.ports := rfl
@[simp] theorem setScan_pair (s : State) (n : Nat) (x : Option Scan) : (s.setScan n x).pair = s.pair := rfl
@[simp] theorem setScan_cmds (s : State) (n : Nat) (x : Option Scan) : (s.setScan n x).cmds = s.cmds := rfl
@[simp] theorem setScan_rings (s : State) (n : Nat) (x : Option Scan) : (s.setScan n x).rings = s.rings := rfl
@[simp] theorem setScan_dmas (s : State) (n : Nat) (x : Option Scan) : (s.setScan n x).dmas = s.dmas := rfl
@[simp] theorem setScan_usb (s : State) (n : Nat) (x : Option Scan) : (s.setScan n x).usb = s.usb := rfl
@[simp] theorem setScan_cores (s : State) (n : Nat) (x : Option Scan) : (s.setScan n x).cores = s.cores := rfl
@[simp] theorem setScan_update (s : State) (n : Nat) (x : Option Scan) : (s.setScan n x).update = s.update := rfl
@[simp] theorem setScan_pulses (s : State) (n : Nat) (x : Option Scan) : (s.setScan n x).pulses = s.pulses := rfl
@[simp] theorem setScan_flts (s : State) (n : Nat) (x : Option Scan) : (s.setScan n x).flts = s.flts := rfl
@[simp] theorem setScan_shadows (s : State) (n : Nat) (x : Option Scan) : (s.setScan n x).shadows = s.shadows := rfl
@[simp] theorem setScan_logTail (s : State) (n : Nat) (x : Option Scan) : (s.setScan n x).logTail = s.logTail := rfl
@[simp] theorem setScan_logSeq (s : State) (n : Nat) (x : Option Scan) : (s.setScan n x).logSeq = s.logSeq := rfl
@[simp] theorem setScan_counts (s : State) (n : Nat) (x : Option Scan) : (s.setScan n x).counts = s.counts := rfl
@[simp] theorem setScan_dump (s : State) (n : Nat) (x : Option Scan) : (s.setScan n x).dump = s.dump := rfl
@[simp] theorem setScan_power (s : State) (n : Nat) (x : Option Scan) : (s.setScan n x).power = s.power := rfl
@[simp] theorem setScan_thermal (s : State) (n : Nat) (x : Option Scan) : (s.setScan n x).thermal = s.thermal := rfl
@[simp] theorem setScan_calib (s : State) (n : Nat) (x : Option Scan) : (s.setScan n x).calib = s.calib := rfl
@[simp] theorem setScan_i3c (s : State) (n : Nat) (x : Option Scan) : (s.setScan n x).i3c = s.i3c := rfl
@[simp] theorem setScan_jtag (s : State) (n : Nat) (x : Option Scan) : (s.setScan n x).jtag = s.jtag := rfl

/-! ## raise -/

@[simp] theorem raise_part (s : State) (src data : Nat) : (raise s src data).part = s.part := rfl
@[simp] theorem raise_pending (s : State) (src data : Nat) : (raise s src data).pending = s.pending := rfl
@[simp] theorem raise_now (s : State) (src data : Nat) : (raise s src data).now = s.now := rfl
@[simp] theorem raise_free (s : State) (src data : Nat) : (raise s src data).free = s.free := rfl
@[simp] theorem raise_csr (s : State) (src data : Nat) : (raise s src data).csr = s.csr := rfl
@[simp] theorem raise_shadow (s : State) (src data : Nat) : (raise s src data).shadow = s.shadow := rfl
@[simp] theorem raise_readOut (s : State) (src data : Nat) : (raise s src data).readOut = s.readOut := rfl
@[simp] theorem raise_dram (s : State) (src data : Nat) : (raise s src data).dram = s.dram := rfl
@[simp] theorem raise_sram (s : State) (src data : Nat) : (raise s src data).sram = s.sram := rfl
@[simp] theorem raise_mram (s : State) (src data : Nat) : (raise s src data).mram = s.mram := rfl
@[simp] theorem raise_mramFenced (s : State) (src data : Nat) : (raise s src data).mramFenced = s.mramFenced := rfl
@[simp] theorem raise_tums (s : State) (src data : Nat) : (raise s src data).tums = s.tums := rfl
@[simp] theorem raise_leaves (s : State) (src data : Nat) : (raise s src data).leaves = s.leaves := rfl
@[simp] theorem raise_waiting (s : State) (src data : Nat) : (raise s src data).waiting = s.waiting := rfl
@[simp] theorem raise_live (s : State) (src data : Nat) : (raise s src data).live = s.live := rfl
@[simp] theorem raise_nextId (s : State) (src data : Nat) : (raise s src data).nextId = s.nextId := rfl
@[simp] theorem raise_sweeps (s : State) (src data : Nat) : (raise s src data).sweeps = s.sweeps := rfl
@[simp] theorem raise_clears (s : State) (src data : Nat) : (raise s src data).clears = s.clears := rfl
@[simp] theorem raise_reinits (s : State) (src data : Nat) : (raise s src data).reinits = s.reinits := rfl
@[simp] theorem raise_engines (s : State) (src data : Nat) : (raise s src data).engines = s.engines := rfl
@[simp] theorem raise_scans (s : State) (src data : Nat) : (raise s src data).scans = s.scans := rfl
@[simp] theorem raise_ward (s : State) (src data : Nat) : (raise s src data).ward = s.ward := rfl
@[simp] theorem raise_ports (s : State) (src data : Nat) : (raise s src data).ports = s.ports := rfl
@[simp] theorem raise_pair (s : State) (src data : Nat) : (raise s src data).pair = s.pair := rfl
@[simp] theorem raise_cmds (s : State) (src data : Nat) : (raise s src data).cmds = s.cmds := rfl
@[simp] theorem raise_rings (s : State) (src data : Nat) : (raise s src data).rings = s.rings := rfl
@[simp] theorem raise_dmas (s : State) (src data : Nat) : (raise s src data).dmas = s.dmas := rfl
@[simp] theorem raise_usb (s : State) (src data : Nat) : (raise s src data).usb = s.usb := rfl
@[simp] theorem raise_cores (s : State) (src data : Nat) : (raise s src data).cores = s.cores := rfl
@[simp] theorem raise_update (s : State) (src data : Nat) : (raise s src data).update = s.update := rfl
@[simp] theorem raise_flts (s : State) (src data : Nat) : (raise s src data).flts = s.flts := rfl
@[simp] theorem raise_shadows (s : State) (src data : Nat) : (raise s src data).shadows = s.shadows := rfl
@[simp] theorem raise_logTail (s : State) (src data : Nat) : (raise s src data).logTail = s.logTail := rfl
@[simp] theorem raise_logSeq (s : State) (src data : Nat) : (raise s src data).logSeq = s.logSeq := rfl
@[simp] theorem raise_counts (s : State) (src data : Nat) : (raise s src data).counts = s.counts := rfl
@[simp] theorem raise_dump (s : State) (src data : Nat) : (raise s src data).dump = s.dump := rfl
@[simp] theorem raise_power (s : State) (src data : Nat) : (raise s src data).power = s.power := rfl
@[simp] theorem raise_thermal (s : State) (src data : Nat) : (raise s src data).thermal = s.thermal := rfl
@[simp] theorem raise_calib (s : State) (src data : Nat) : (raise s src data).calib = s.calib := rfl
@[simp] theorem raise_i3c (s : State) (src data : Nat) : (raise s src data).i3c = s.i3c := rfl
@[simp] theorem raise_jtag (s : State) (src data : Nat) : (raise s src data).jtag = s.jtag := rfl

/-! ## openShadow -/

@[simp] theorem openShadow_part (s : State) (b : FltSet) (fatal : Bool) : (openShadow s b fatal).part = s.part := rfl
@[simp] theorem openShadow_pending (s : State) (b : FltSet) (fatal : Bool) : (openShadow s b fatal).pending = s.pending := rfl
@[simp] theorem openShadow_now (s : State) (b : FltSet) (fatal : Bool) : (openShadow s b fatal).now = s.now := rfl
@[simp] theorem openShadow_free (s : State) (b : FltSet) (fatal : Bool) : (openShadow s b fatal).free = s.free := rfl
@[simp] theorem openShadow_csr (s : State) (b : FltSet) (fatal : Bool) : (openShadow s b fatal).csr = s.csr := rfl
@[simp] theorem openShadow_shadow (s : State) (b : FltSet) (fatal : Bool) : (openShadow s b fatal).shadow = s.shadow := rfl
@[simp] theorem openShadow_readOut (s : State) (b : FltSet) (fatal : Bool) : (openShadow s b fatal).readOut = s.readOut := rfl
@[simp] theorem openShadow_dram (s : State) (b : FltSet) (fatal : Bool) : (openShadow s b fatal).dram = s.dram := rfl
@[simp] theorem openShadow_sram (s : State) (b : FltSet) (fatal : Bool) : (openShadow s b fatal).sram = s.sram := rfl
@[simp] theorem openShadow_mram (s : State) (b : FltSet) (fatal : Bool) : (openShadow s b fatal).mram = s.mram := rfl
@[simp] theorem openShadow_mramFenced (s : State) (b : FltSet) (fatal : Bool) : (openShadow s b fatal).mramFenced = s.mramFenced := rfl
@[simp] theorem openShadow_tums (s : State) (b : FltSet) (fatal : Bool) : (openShadow s b fatal).tums = s.tums := rfl
@[simp] theorem openShadow_leaves (s : State) (b : FltSet) (fatal : Bool) : (openShadow s b fatal).leaves = s.leaves := rfl
@[simp] theorem openShadow_waiting (s : State) (b : FltSet) (fatal : Bool) : (openShadow s b fatal).waiting = s.waiting := rfl
@[simp] theorem openShadow_live (s : State) (b : FltSet) (fatal : Bool) : (openShadow s b fatal).live = s.live := rfl
@[simp] theorem openShadow_nextId (s : State) (b : FltSet) (fatal : Bool) : (openShadow s b fatal).nextId = s.nextId := rfl
@[simp] theorem openShadow_sweeps (s : State) (b : FltSet) (fatal : Bool) : (openShadow s b fatal).sweeps = s.sweeps := rfl
@[simp] theorem openShadow_clears (s : State) (b : FltSet) (fatal : Bool) : (openShadow s b fatal).clears = s.clears := rfl
@[simp] theorem openShadow_reinits (s : State) (b : FltSet) (fatal : Bool) : (openShadow s b fatal).reinits = s.reinits := rfl
@[simp] theorem openShadow_engines (s : State) (b : FltSet) (fatal : Bool) : (openShadow s b fatal).engines = s.engines := rfl
@[simp] theorem openShadow_scans (s : State) (b : FltSet) (fatal : Bool) : (openShadow s b fatal).scans = s.scans := rfl
@[simp] theorem openShadow_ward (s : State) (b : FltSet) (fatal : Bool) : (openShadow s b fatal).ward = s.ward := rfl
@[simp] theorem openShadow_ports (s : State) (b : FltSet) (fatal : Bool) : (openShadow s b fatal).ports = s.ports := rfl
@[simp] theorem openShadow_pair (s : State) (b : FltSet) (fatal : Bool) : (openShadow s b fatal).pair = s.pair := rfl
@[simp] theorem openShadow_cmds (s : State) (b : FltSet) (fatal : Bool) : (openShadow s b fatal).cmds = s.cmds := rfl
@[simp] theorem openShadow_rings (s : State) (b : FltSet) (fatal : Bool) : (openShadow s b fatal).rings = s.rings := rfl
@[simp] theorem openShadow_dmas (s : State) (b : FltSet) (fatal : Bool) : (openShadow s b fatal).dmas = s.dmas := rfl
@[simp] theorem openShadow_usb (s : State) (b : FltSet) (fatal : Bool) : (openShadow s b fatal).usb = s.usb := rfl
@[simp] theorem openShadow_cores (s : State) (b : FltSet) (fatal : Bool) : (openShadow s b fatal).cores = s.cores := rfl
@[simp] theorem openShadow_update (s : State) (b : FltSet) (fatal : Bool) : (openShadow s b fatal).update = s.update := rfl
@[simp] theorem openShadow_pulses (s : State) (b : FltSet) (fatal : Bool) : (openShadow s b fatal).pulses = s.pulses := rfl
@[simp] theorem openShadow_flts (s : State) (b : FltSet) (fatal : Bool) : (openShadow s b fatal).flts = s.flts := rfl
@[simp] theorem openShadow_logTail (s : State) (b : FltSet) (fatal : Bool) : (openShadow s b fatal).logTail = s.logTail := rfl
@[simp] theorem openShadow_logSeq (s : State) (b : FltSet) (fatal : Bool) : (openShadow s b fatal).logSeq = s.logSeq := rfl
@[simp] theorem openShadow_counts (s : State) (b : FltSet) (fatal : Bool) : (openShadow s b fatal).counts = s.counts := rfl
@[simp] theorem openShadow_dump (s : State) (b : FltSet) (fatal : Bool) : (openShadow s b fatal).dump = s.dump := rfl
@[simp] theorem openShadow_power (s : State) (b : FltSet) (fatal : Bool) : (openShadow s b fatal).power = s.power := rfl
@[simp] theorem openShadow_thermal (s : State) (b : FltSet) (fatal : Bool) : (openShadow s b fatal).thermal = s.thermal := rfl
@[simp] theorem openShadow_calib (s : State) (b : FltSet) (fatal : Bool) : (openShadow s b fatal).calib = s.calib := rfl
@[simp] theorem openShadow_i3c (s : State) (b : FltSet) (fatal : Bool) : (openShadow s b fatal).i3c = s.i3c := rfl
@[simp] theorem openShadow_jtag (s : State) (b : FltSet) (fatal : Bool) : (openShadow s b fatal).jtag = s.jtag := rfl

/-! ## fresh -/

@[simp] theorem fresh_part (s : State) : ((fresh s).2).part = s.part := rfl
@[simp] theorem fresh_pending (s : State) : ((fresh s).2).pending = s.pending := rfl
@[simp] theorem fresh_now (s : State) : ((fresh s).2).now = s.now := rfl
@[simp] theorem fresh_csr (s : State) : ((fresh s).2).csr = s.csr := rfl
@[simp] theorem fresh_shadow (s : State) : ((fresh s).2).shadow = s.shadow := rfl
@[simp] theorem fresh_readOut (s : State) : ((fresh s).2).readOut = s.readOut := rfl
@[simp] theorem fresh_dram (s : State) : ((fresh s).2).dram = s.dram := rfl
@[simp] theorem fresh_sram (s : State) : ((fresh s).2).sram = s.sram := rfl
@[simp] theorem fresh_mram (s : State) : ((fresh s).2).mram = s.mram := rfl
@[simp] theorem fresh_mramFenced (s : State) : ((fresh s).2).mramFenced = s.mramFenced := rfl
@[simp] theorem fresh_tums (s : State) : ((fresh s).2).tums = s.tums := rfl
@[simp] theorem fresh_leaves (s : State) : ((fresh s).2).leaves = s.leaves := rfl
@[simp] theorem fresh_waiting (s : State) : ((fresh s).2).waiting = s.waiting := rfl
@[simp] theorem fresh_live (s : State) : ((fresh s).2).live = s.live := rfl
@[simp] theorem fresh_nextId (s : State) : ((fresh s).2).nextId = s.nextId := rfl
@[simp] theorem fresh_sweeps (s : State) : ((fresh s).2).sweeps = s.sweeps := rfl
@[simp] theorem fresh_clears (s : State) : ((fresh s).2).clears = s.clears := rfl
@[simp] theorem fresh_reinits (s : State) : ((fresh s).2).reinits = s.reinits := rfl
@[simp] theorem fresh_engines (s : State) : ((fresh s).2).engines = s.engines := rfl
@[simp] theorem fresh_scans (s : State) : ((fresh s).2).scans = s.scans := rfl
@[simp] theorem fresh_ward (s : State) : ((fresh s).2).ward = s.ward := rfl
@[simp] theorem fresh_ports (s : State) : ((fresh s).2).ports = s.ports := rfl
@[simp] theorem fresh_pair (s : State) : ((fresh s).2).pair = s.pair := rfl
@[simp] theorem fresh_cmds (s : State) : ((fresh s).2).cmds = s.cmds := rfl
@[simp] theorem fresh_rings (s : State) : ((fresh s).2).rings = s.rings := rfl
@[simp] theorem fresh_dmas (s : State) : ((fresh s).2).dmas = s.dmas := rfl
@[simp] theorem fresh_usb (s : State) : ((fresh s).2).usb = s.usb := rfl
@[simp] theorem fresh_cores (s : State) : ((fresh s).2).cores = s.cores := rfl
@[simp] theorem fresh_update (s : State) : ((fresh s).2).update = s.update := rfl
@[simp] theorem fresh_pulses (s : State) : ((fresh s).2).pulses = s.pulses := rfl
@[simp] theorem fresh_flts (s : State) : ((fresh s).2).flts = s.flts := rfl
@[simp] theorem fresh_shadows (s : State) : ((fresh s).2).shadows = s.shadows := rfl
@[simp] theorem fresh_logTail (s : State) : ((fresh s).2).logTail = s.logTail := rfl
@[simp] theorem fresh_logSeq (s : State) : ((fresh s).2).logSeq = s.logSeq := rfl
@[simp] theorem fresh_counts (s : State) : ((fresh s).2).counts = s.counts := rfl
@[simp] theorem fresh_dump (s : State) : ((fresh s).2).dump = s.dump := rfl
@[simp] theorem fresh_power (s : State) : ((fresh s).2).power = s.power := rfl
@[simp] theorem fresh_thermal (s : State) : ((fresh s).2).thermal = s.thermal := rfl
@[simp] theorem fresh_calib (s : State) : ((fresh s).2).calib = s.calib := rfl
@[simp] theorem fresh_i3c (s : State) : ((fresh s).2).i3c = s.i3c := rfl
@[simp] theorem fresh_jtag (s : State) : ((fresh s).2).jtag = s.jtag := rfl

/-! ## count -/

@[simp] theorem count_part (s : State) (slot n : Nat) : (count s slot n).part = s.part := by
  unfold count
  split <;> rfl
@[simp] theorem count_pending (s : State) (slot n : Nat) : (count s slot n).pending = s.pending := by
  unfold count
  split <;> rfl
@[simp] theorem count_now (s : State) (slot n : Nat) : (count s slot n).now = s.now := by
  unfold count
  split <;> rfl
@[simp] theorem count_free (s : State) (slot n : Nat) : (count s slot n).free = s.free := by
  unfold count
  split <;> rfl
@[simp] theorem count_csr (s : State) (slot n : Nat) : (count s slot n).csr = s.csr := by
  unfold count
  split <;> rfl
@[simp] theorem count_shadow (s : State) (slot n : Nat) : (count s slot n).shadow = s.shadow := by
  unfold count
  split <;> rfl
@[simp] theorem count_readOut (s : State) (slot n : Nat) : (count s slot n).readOut = s.readOut := by
  unfold count
  split <;> rfl
@[simp] theorem count_dram (s : State) (slot n : Nat) : (count s slot n).dram = s.dram := by
  unfold count
  split <;> rfl
@[simp] theorem count_sram (s : State) (slot n : Nat) : (count s slot n).sram = s.sram := by
  unfold count
  split <;> rfl
@[simp] theorem count_mram (s : State) (slot n : Nat) : (count s slot n).mram = s.mram := by
  unfold count
  split <;> rfl
@[simp] theorem count_mramFenced (s : State) (slot n : Nat) : (count s slot n).mramFenced = s.mramFenced := by
  unfold count
  split <;> rfl
@[simp] theorem count_tums (s : State) (slot n : Nat) : (count s slot n).tums = s.tums := by
  unfold count
  split <;> rfl
@[simp] theorem count_leaves (s : State) (slot n : Nat) : (count s slot n).leaves = s.leaves := by
  unfold count
  split <;> rfl
@[simp] theorem count_waiting (s : State) (slot n : Nat) : (count s slot n).waiting = s.waiting := by
  unfold count
  split <;> rfl
@[simp] theorem count_live (s : State) (slot n : Nat) : (count s slot n).live = s.live := by
  unfold count
  split <;> rfl
@[simp] theorem count_nextId (s : State) (slot n : Nat) : (count s slot n).nextId = s.nextId := by
  unfold count
  split <;> rfl
@[simp] theorem count_sweeps (s : State) (slot n : Nat) : (count s slot n).sweeps = s.sweeps := by
  unfold count
  split <;> rfl
@[simp] theorem count_clears (s : State) (slot n : Nat) : (count s slot n).clears = s.clears := by
  unfold count
  split <;> rfl
@[simp] theorem count_reinits (s : State) (slot n : Nat) : (count s slot n).reinits = s.reinits := by
  unfold count
  split <;> rfl
@[simp] theorem count_engines (s : State) (slot n : Nat) : (count s slot n).engines = s.engines := by
  unfold count
  split <;> rfl
@[simp] theorem count_scans (s : State) (slot n : Nat) : (count s slot n).scans = s.scans := by
  unfold count
  split <;> rfl
@[simp] theorem count_ward (s : State) (slot n : Nat) : (count s slot n).ward = s.ward := by
  unfold count
  split <;> rfl
@[simp] theorem count_ports (s : State) (slot n : Nat) : (count s slot n).ports = s.ports := by
  unfold count
  split <;> rfl
@[simp] theorem count_pair (s : State) (slot n : Nat) : (count s slot n).pair = s.pair := by
  unfold count
  split <;> rfl
@[simp] theorem count_cmds (s : State) (slot n : Nat) : (count s slot n).cmds = s.cmds := by
  unfold count
  split <;> rfl
@[simp] theorem count_rings (s : State) (slot n : Nat) : (count s slot n).rings = s.rings := by
  unfold count
  split <;> rfl
@[simp] theorem count_dmas (s : State) (slot n : Nat) : (count s slot n).dmas = s.dmas := by
  unfold count
  split <;> rfl
@[simp] theorem count_usb (s : State) (slot n : Nat) : (count s slot n).usb = s.usb := by
  unfold count
  split <;> rfl
@[simp] theorem count_cores (s : State) (slot n : Nat) : (count s slot n).cores = s.cores := by
  unfold count
  split <;> rfl
@[simp] theorem count_update (s : State) (slot n : Nat) : (count s slot n).update = s.update := by
  unfold count
  split <;> rfl
@[simp] theorem count_pulses (s : State) (slot n : Nat) : (count s slot n).pulses = s.pulses := by
  unfold count
  split <;> rfl
@[simp] theorem count_flts (s : State) (slot n : Nat) : (count s slot n).flts = s.flts := by
  unfold count
  split <;> rfl
@[simp] theorem count_shadows (s : State) (slot n : Nat) : (count s slot n).shadows = s.shadows := by
  unfold count
  split <;> rfl
@[simp] theorem count_logTail (s : State) (slot n : Nat) : (count s slot n).logTail = s.logTail := by
  unfold count
  split <;> rfl
@[simp] theorem count_logSeq (s : State) (slot n : Nat) : (count s slot n).logSeq = s.logSeq := by
  unfold count
  split <;> rfl
@[simp] theorem count_dump (s : State) (slot n : Nat) : (count s slot n).dump = s.dump := by
  unfold count
  split <;> rfl
@[simp] theorem count_power (s : State) (slot n : Nat) : (count s slot n).power = s.power := by
  unfold count
  split <;> rfl
@[simp] theorem count_thermal (s : State) (slot n : Nat) : (count s slot n).thermal = s.thermal := by
  unfold count
  split <;> rfl
@[simp] theorem count_calib (s : State) (slot n : Nat) : (count s slot n).calib = s.calib := by
  unfold count
  split <;> rfl
@[simp] theorem count_i3c (s : State) (slot n : Nat) : (count s slot n).i3c = s.i3c := by
  unfold count
  split <;> rfl
@[simp] theorem count_jtag (s : State) (slot n : Nat) : (count s slot n).jtag = s.jtag := by
  unfold count
  split <;> rfl

/-! ## begin -/

@[simp] theorem begin_part (s : State) (c : Cmd) : (begin s c).part = s.part := rfl
@[simp] theorem begin_pending (s : State) (c : Cmd) : (begin s c).pending = s.pending := rfl
@[simp] theorem begin_now (s : State) (c : Cmd) : (begin s c).now = s.now := rfl
@[simp] theorem begin_free (s : State) (c : Cmd) : (begin s c).free = s.free := rfl
@[simp] theorem begin_csr (s : State) (c : Cmd) : (begin s c).csr = s.csr := rfl
@[simp] theorem begin_shadow (s : State) (c : Cmd) : (begin s c).shadow = s.shadow := rfl
@[simp] theorem begin_readOut (s : State) (c : Cmd) : (begin s c).readOut = s.readOut := rfl
@[simp] theorem begin_dram (s : State) (c : Cmd) : (begin s c).dram = s.dram := rfl
@[simp] theorem begin_sram (s : State) (c : Cmd) : (begin s c).sram = s.sram := rfl
@[simp] theorem begin_mram (s : State) (c : Cmd) : (begin s c).mram = s.mram := rfl
@[simp] theorem begin_mramFenced (s : State) (c : Cmd) : (begin s c).mramFenced = s.mramFenced := rfl
@[simp] theorem begin_tums (s : State) (c : Cmd) : (begin s c).tums = s.tums := rfl
@[simp] theorem begin_leaves (s : State) (c : Cmd) : (begin s c).leaves = s.leaves := rfl
@[simp] theorem begin_waiting (s : State) (c : Cmd) : (begin s c).waiting = s.waiting := rfl
@[simp] theorem begin_live (s : State) (c : Cmd) : (begin s c).live = s.live := rfl
@[simp] theorem begin_nextId (s : State) (c : Cmd) : (begin s c).nextId = s.nextId := rfl
@[simp] theorem begin_sweeps (s : State) (c : Cmd) : (begin s c).sweeps = s.sweeps := rfl
@[simp] theorem begin_clears (s : State) (c : Cmd) : (begin s c).clears = s.clears := rfl
@[simp] theorem begin_reinits (s : State) (c : Cmd) : (begin s c).reinits = s.reinits := rfl
@[simp] theorem begin_engines (s : State) (c : Cmd) : (begin s c).engines = s.engines := rfl
@[simp] theorem begin_scans (s : State) (c : Cmd) : (begin s c).scans = s.scans := rfl
@[simp] theorem begin_ward (s : State) (c : Cmd) : (begin s c).ward = s.ward := rfl
@[simp] theorem begin_ports (s : State) (c : Cmd) : (begin s c).ports = s.ports := rfl
@[simp] theorem begin_pair (s : State) (c : Cmd) : (begin s c).pair = s.pair := rfl
@[simp] theorem begin_rings (s : State) (c : Cmd) : (begin s c).rings = s.rings := rfl
@[simp] theorem begin_dmas (s : State) (c : Cmd) : (begin s c).dmas = s.dmas := rfl
@[simp] theorem begin_usb (s : State) (c : Cmd) : (begin s c).usb = s.usb := rfl
@[simp] theorem begin_cores (s : State) (c : Cmd) : (begin s c).cores = s.cores := rfl
@[simp] theorem begin_update (s : State) (c : Cmd) : (begin s c).update = s.update := rfl
@[simp] theorem begin_pulses (s : State) (c : Cmd) : (begin s c).pulses = s.pulses := rfl
@[simp] theorem begin_flts (s : State) (c : Cmd) : (begin s c).flts = s.flts := rfl
@[simp] theorem begin_shadows (s : State) (c : Cmd) : (begin s c).shadows = s.shadows := rfl
@[simp] theorem begin_logTail (s : State) (c : Cmd) : (begin s c).logTail = s.logTail := rfl
@[simp] theorem begin_logSeq (s : State) (c : Cmd) : (begin s c).logSeq = s.logSeq := rfl
@[simp] theorem begin_counts (s : State) (c : Cmd) : (begin s c).counts = s.counts := rfl
@[simp] theorem begin_dump (s : State) (c : Cmd) : (begin s c).dump = s.dump := rfl
@[simp] theorem begin_power (s : State) (c : Cmd) : (begin s c).power = s.power := rfl
@[simp] theorem begin_thermal (s : State) (c : Cmd) : (begin s c).thermal = s.thermal := rfl
@[simp] theorem begin_calib (s : State) (c : Cmd) : (begin s c).calib = s.calib := rfl
@[simp] theorem begin_i3c (s : State) (c : Cmd) : (begin s c).i3c = s.i3c := rfl
@[simp] theorem begin_jtag (s : State) (c : Cmd) : (begin s c).jtag = s.jtag := rfl

/-! ## setI3c -/

@[simp] theorem setI3c_part (s : State) (f : I3c → I3c) : (setI3c s f).part = s.part := rfl
@[simp] theorem setI3c_pending (s : State) (f : I3c → I3c) : (setI3c s f).pending = s.pending := rfl
@[simp] theorem setI3c_now (s : State) (f : I3c → I3c) : (setI3c s f).now = s.now := rfl
@[simp] theorem setI3c_free (s : State) (f : I3c → I3c) : (setI3c s f).free = s.free := rfl
@[simp] theorem setI3c_csr (s : State) (f : I3c → I3c) : (setI3c s f).csr = s.csr := rfl
@[simp] theorem setI3c_shadow (s : State) (f : I3c → I3c) : (setI3c s f).shadow = s.shadow := rfl
@[simp] theorem setI3c_readOut (s : State) (f : I3c → I3c) : (setI3c s f).readOut = s.readOut := rfl
@[simp] theorem setI3c_dram (s : State) (f : I3c → I3c) : (setI3c s f).dram = s.dram := rfl
@[simp] theorem setI3c_sram (s : State) (f : I3c → I3c) : (setI3c s f).sram = s.sram := rfl
@[simp] theorem setI3c_mram (s : State) (f : I3c → I3c) : (setI3c s f).mram = s.mram := rfl
@[simp] theorem setI3c_mramFenced (s : State) (f : I3c → I3c) : (setI3c s f).mramFenced = s.mramFenced := rfl
@[simp] theorem setI3c_tums (s : State) (f : I3c → I3c) : (setI3c s f).tums = s.tums := rfl
@[simp] theorem setI3c_leaves (s : State) (f : I3c → I3c) : (setI3c s f).leaves = s.leaves := rfl
@[simp] theorem setI3c_waiting (s : State) (f : I3c → I3c) : (setI3c s f).waiting = s.waiting := rfl
@[simp] theorem setI3c_live (s : State) (f : I3c → I3c) : (setI3c s f).live = s.live := rfl
@[simp] theorem setI3c_nextId (s : State) (f : I3c → I3c) : (setI3c s f).nextId = s.nextId := rfl
@[simp] theorem setI3c_sweeps (s : State) (f : I3c → I3c) : (setI3c s f).sweeps = s.sweeps := rfl
@[simp] theorem setI3c_clears (s : State) (f : I3c → I3c) : (setI3c s f).clears = s.clears := rfl
@[simp] theorem setI3c_reinits (s : State) (f : I3c → I3c) : (setI3c s f).reinits = s.reinits := rfl
@[simp] theorem setI3c_engines (s : State) (f : I3c → I3c) : (setI3c s f).engines = s.engines := rfl
@[simp] theorem setI3c_scans (s : State) (f : I3c → I3c) : (setI3c s f).scans = s.scans := rfl
@[simp] theorem setI3c_ward (s : State) (f : I3c → I3c) : (setI3c s f).ward = s.ward := rfl
@[simp] theorem setI3c_ports (s : State) (f : I3c → I3c) : (setI3c s f).ports = s.ports := rfl
@[simp] theorem setI3c_pair (s : State) (f : I3c → I3c) : (setI3c s f).pair = s.pair := rfl
@[simp] theorem setI3c_cmds (s : State) (f : I3c → I3c) : (setI3c s f).cmds = s.cmds := rfl
@[simp] theorem setI3c_rings (s : State) (f : I3c → I3c) : (setI3c s f).rings = s.rings := rfl
@[simp] theorem setI3c_dmas (s : State) (f : I3c → I3c) : (setI3c s f).dmas = s.dmas := rfl
@[simp] theorem setI3c_usb (s : State) (f : I3c → I3c) : (setI3c s f).usb = s.usb := rfl
@[simp] theorem setI3c_cores (s : State) (f : I3c → I3c) : (setI3c s f).cores = s.cores := rfl
@[simp] theorem setI3c_update (s : State) (f : I3c → I3c) : (setI3c s f).update = s.update := rfl
@[simp] theorem setI3c_pulses (s : State) (f : I3c → I3c) : (setI3c s f).pulses = s.pulses := rfl
@[simp] theorem setI3c_flts (s : State) (f : I3c → I3c) : (setI3c s f).flts = s.flts := rfl
@[simp] theorem setI3c_shadows (s : State) (f : I3c → I3c) : (setI3c s f).shadows = s.shadows := rfl
@[simp] theorem setI3c_logTail (s : State) (f : I3c → I3c) : (setI3c s f).logTail = s.logTail := rfl
@[simp] theorem setI3c_logSeq (s : State) (f : I3c → I3c) : (setI3c s f).logSeq = s.logSeq := rfl
@[simp] theorem setI3c_counts (s : State) (f : I3c → I3c) : (setI3c s f).counts = s.counts := rfl
@[simp] theorem setI3c_dump (s : State) (f : I3c → I3c) : (setI3c s f).dump = s.dump := rfl
@[simp] theorem setI3c_power (s : State) (f : I3c → I3c) : (setI3c s f).power = s.power := rfl
@[simp] theorem setI3c_thermal (s : State) (f : I3c → I3c) : (setI3c s f).thermal = s.thermal := rfl
@[simp] theorem setI3c_calib (s : State) (f : I3c → I3c) : (setI3c s f).calib = s.calib := rfl
@[simp] theorem setI3c_jtag (s : State) (f : I3c → I3c) : (setI3c s f).jtag = s.jtag := rfl

/-! ## setJtag -/

@[simp] theorem setJtag_part (s : State) (f : Jtag → Jtag) : (setJtag s f).part = s.part := rfl
@[simp] theorem setJtag_pending (s : State) (f : Jtag → Jtag) : (setJtag s f).pending = s.pending := rfl
@[simp] theorem setJtag_now (s : State) (f : Jtag → Jtag) : (setJtag s f).now = s.now := rfl
@[simp] theorem setJtag_free (s : State) (f : Jtag → Jtag) : (setJtag s f).free = s.free := rfl
@[simp] theorem setJtag_csr (s : State) (f : Jtag → Jtag) : (setJtag s f).csr = s.csr := rfl
@[simp] theorem setJtag_shadow (s : State) (f : Jtag → Jtag) : (setJtag s f).shadow = s.shadow := rfl
@[simp] theorem setJtag_readOut (s : State) (f : Jtag → Jtag) : (setJtag s f).readOut = s.readOut := rfl
@[simp] theorem setJtag_dram (s : State) (f : Jtag → Jtag) : (setJtag s f).dram = s.dram := rfl
@[simp] theorem setJtag_sram (s : State) (f : Jtag → Jtag) : (setJtag s f).sram = s.sram := rfl
@[simp] theorem setJtag_mram (s : State) (f : Jtag → Jtag) : (setJtag s f).mram = s.mram := rfl
@[simp] theorem setJtag_mramFenced (s : State) (f : Jtag → Jtag) : (setJtag s f).mramFenced = s.mramFenced := rfl
@[simp] theorem setJtag_tums (s : State) (f : Jtag → Jtag) : (setJtag s f).tums = s.tums := rfl
@[simp] theorem setJtag_leaves (s : State) (f : Jtag → Jtag) : (setJtag s f).leaves = s.leaves := rfl
@[simp] theorem setJtag_waiting (s : State) (f : Jtag → Jtag) : (setJtag s f).waiting = s.waiting := rfl
@[simp] theorem setJtag_live (s : State) (f : Jtag → Jtag) : (setJtag s f).live = s.live := rfl
@[simp] theorem setJtag_nextId (s : State) (f : Jtag → Jtag) : (setJtag s f).nextId = s.nextId := rfl
@[simp] theorem setJtag_sweeps (s : State) (f : Jtag → Jtag) : (setJtag s f).sweeps = s.sweeps := rfl
@[simp] theorem setJtag_clears (s : State) (f : Jtag → Jtag) : (setJtag s f).clears = s.clears := rfl
@[simp] theorem setJtag_reinits (s : State) (f : Jtag → Jtag) : (setJtag s f).reinits = s.reinits := rfl
@[simp] theorem setJtag_engines (s : State) (f : Jtag → Jtag) : (setJtag s f).engines = s.engines := rfl
@[simp] theorem setJtag_scans (s : State) (f : Jtag → Jtag) : (setJtag s f).scans = s.scans := rfl
@[simp] theorem setJtag_ward (s : State) (f : Jtag → Jtag) : (setJtag s f).ward = s.ward := rfl
@[simp] theorem setJtag_ports (s : State) (f : Jtag → Jtag) : (setJtag s f).ports = s.ports := rfl
@[simp] theorem setJtag_pair (s : State) (f : Jtag → Jtag) : (setJtag s f).pair = s.pair := rfl
@[simp] theorem setJtag_cmds (s : State) (f : Jtag → Jtag) : (setJtag s f).cmds = s.cmds := rfl
@[simp] theorem setJtag_rings (s : State) (f : Jtag → Jtag) : (setJtag s f).rings = s.rings := rfl
@[simp] theorem setJtag_dmas (s : State) (f : Jtag → Jtag) : (setJtag s f).dmas = s.dmas := rfl
@[simp] theorem setJtag_usb (s : State) (f : Jtag → Jtag) : (setJtag s f).usb = s.usb := rfl
@[simp] theorem setJtag_cores (s : State) (f : Jtag → Jtag) : (setJtag s f).cores = s.cores := rfl
@[simp] theorem setJtag_update (s : State) (f : Jtag → Jtag) : (setJtag s f).update = s.update := rfl
@[simp] theorem setJtag_pulses (s : State) (f : Jtag → Jtag) : (setJtag s f).pulses = s.pulses := rfl
@[simp] theorem setJtag_flts (s : State) (f : Jtag → Jtag) : (setJtag s f).flts = s.flts := rfl
@[simp] theorem setJtag_shadows (s : State) (f : Jtag → Jtag) : (setJtag s f).shadows = s.shadows := rfl
@[simp] theorem setJtag_logTail (s : State) (f : Jtag → Jtag) : (setJtag s f).logTail = s.logTail := rfl
@[simp] theorem setJtag_logSeq (s : State) (f : Jtag → Jtag) : (setJtag s f).logSeq = s.logSeq := rfl
@[simp] theorem setJtag_counts (s : State) (f : Jtag → Jtag) : (setJtag s f).counts = s.counts := rfl
@[simp] theorem setJtag_dump (s : State) (f : Jtag → Jtag) : (setJtag s f).dump = s.dump := rfl
@[simp] theorem setJtag_power (s : State) (f : Jtag → Jtag) : (setJtag s f).power = s.power := rfl
@[simp] theorem setJtag_thermal (s : State) (f : Jtag → Jtag) : (setJtag s f).thermal = s.thermal := rfl
@[simp] theorem setJtag_calib (s : State) (f : Jtag → Jtag) : (setJtag s f).calib = s.calib := rfl
@[simp] theorem setJtag_i3c (s : State) (f : Jtag → Jtag) : (setJtag s f).i3c = s.i3c := rfl

end Sys2Proof.Machine
end

