-- ==== Sys2Proof/Laws/Ops.lean ====
section
/-! SUPPORT. Reading back what a named operation wrote: registers, their fields, and the units. -/

namespace Sys2Proof.Machine

open Sys2Proof

/-! ## Registers -/

@[simp] theorem rd_wr_same (s : State) (off : Nat) (v : Reg32) : rd (wr s off v) off = v := tget_tput_same _ _ _ _

theorem rd_wr_other (s : State) (v : Reg32) {off o : Nat} (h : o ≠ off) : rd (wr s off v) o = rd s o :=
  tget_tput_other _ _ _ h

theorem rd_wr (s : State) (off o : Nat) (v : Reg32) : rd (wr s off v) o = if o = off then v else rd s o :=
  tget_tput _ _ _ _ _

theorem rd_setF_other (s : State) (hi lo v : Nat) {off o : Nat} (h : o ≠ off) : rd (setF s off hi lo v) o = rd s o :=
  rd_wr_other _ _ h

theorem rd_setF_same (s : State) (off hi lo v : Nat) (h : lo ≤ hi) (h32 : hi < 32) :
    (rd (setF s off hi lo v) off).toNat = setBits (rd s off).toNat hi lo v := by
  unfold setF
  rw [rd_wr_same, BitVec.toNat_ofNat, Nat.mod_eq_of_lt (setBits_lt _ _ _ _ (rd s off).isLt h h32)]

theorem fld_setF_same (s : State) (off hi lo v : Nat) (h : lo ≤ hi) (h32 : hi < 32) :
    fld (setF s off hi lo v) off hi lo = v % 2 ^ (hi - lo + 1) := by
  unfold fld
  rw [rd_setF_same s off hi lo v h h32, bits_setBits_same]

/-- Another field of the same register. -/
theorem fld_setF_field (s : State) (off hi lo v h2 l2 : Nat) (h : lo ≤ hi) (h32 : hi < 32) (hd : h2 < lo ∨ hi < l2)
    (hl : l2 ≤ h2) : fld (setF s off hi lo v) off h2 l2 = fld s off h2 l2 := by
  unfold fld
  rw [rd_setF_same s off hi lo v h h32, bits_setBits_other _ _ _ _ _ _ h hd hl]

theorem fld_setF_other (s : State) (hi lo v h2 l2 : Nat) {off o : Nat} (h : o ≠ off) :
    fld (setF s off hi lo v) o h2 l2 = fld s o h2 l2 := by
  unfold fld
  rw [rd_setF_other s hi lo v h]

theorem flag_setF_same (s : State) (off hi lo v i : Nat) (h : lo ≤ hi) (h32 : hi < 32) :
    flag (setF s off hi lo v) off i = if lo ≤ i ∧ i ≤ hi then bit v (i - lo) else flag s off i := by
  unfold flag
  rw [rd_setF_same s off hi lo v h h32, bit_setBits _ _ _ _ _ h]

theorem flag_setF_other (s : State) (hi lo v i : Nat) {off o : Nat} (h : o ≠ off) :
    flag (setF s off hi lo v) o i = flag s o i := by
  unfold flag
  rw [rd_setF_other s hi lo v h]

/-- A set bit. -/
theorem flag_setF_one (s : State) (off i : Nat) (h : i < 32) : flag (setF s off i i 1) off i = true := by
  rw [flag_setF_same s off i i 1 i (Nat.le_refl i) h, if_pos ⟨Nat.le_refl i, Nat.le_refl i⟩, Nat.sub_self]
  rfl

/-- A cleared bit. -/
theorem flag_setF_zero (s : State) (off i : Nat) (h : i < 32) : flag (setF s off i i 0) off i = false := by
  rw [flag_setF_same s off i i 0 i (Nat.le_refl i) h, if_pos ⟨Nat.le_refl i, Nat.le_refl i⟩, Nat.sub_self]
  rfl

/-! ## Units -/

@[simp] theorem tum_setTum_same (s : State) (t : Nat) (x : Tumbler) : (s.setTum t x).tum t = x := tget_tput_same _ _ _ _

theorem tum_setTum_other (s : State) (x : Tumbler) {t j : Nat} (h : j ≠ t) : (s.setTum t x).tum j = s.tum j :=
  tget_tput_other _ _ _ h

@[simp] theorem tum_modTum_same (s : State) (t : Nat) (f : Tumbler → Tumbler) : (s.modTum t f).tum t = f (s.tum t) :=
  tget_tput_same _ _ _ _

theorem tum_modTum_other (s : State) (f : Tumbler → Tumbler) {t j : Nat} (h : j ≠ t) : (s.modTum t f).tum j = s.tum j :=
  tget_tput_other _ _ _ h

@[simp] theorem port_setPort_same (s : State) (p : Nat) (x : Port) : (s.setPort p x).port p = x := tget_tput_same _ _ _ _

theorem port_setPort_other (s : State) (x : Port) {p j : Nat} (h : j ≠ p) : (s.setPort p x).port j = s.port j :=
  tget_tput_other _ _ _ h

@[simp] theorem port_modPort_same (s : State) (p : Nat) (f : Port → Port) : (s.modPort p f).port p = f (s.port p) :=
  tget_tput_same _ _ _ _

theorem port_modPort_other (s : State) (f : Port → Port) {p j : Nat} (h : j ≠ p) : (s.modPort p f).port j = s.port j :=
  tget_tput_other _ _ _ h

@[simp] theorem core_setCore_same (s : State) (c : Nat) (x : Core) : (s.setCore c x).core c = x := tget_tput_same _ _ _ _

theorem core_setCore_other (s : State) (x : Core) {c j : Nat} (h : j ≠ c) : (s.setCore c x).core j = s.core j :=
  tget_tput_other _ _ _ h

@[simp] theorem eng_setEng_same (s : State) (n : Nat) (x : Engine) : (s.setEng n x).eng n = x := tget_tput_same _ _ _ _

theorem eng_setEng_other (s : State) (x : Engine) {n j : Nat} (h : j ≠ n) : (s.setEng n x).eng j = s.eng j :=
  tget_tput_other _ _ _ h

@[simp] theorem ring_setRing_same (s : State) (n : Nat) (x : RingS) : (s.setRing n x).ring n = x := tget_tput_same _ _ _ _

theorem ring_setRing_other (s : State) (x : RingS) {n j : Nat} (h : j ≠ n) : (s.setRing n x).ring j = s.ring j :=
  tget_tput_other _ _ _ h

@[simp] theorem scan_setScan_same (s : State) (n : Nat) (x : Option Scan) : (s.setScan n x).scan n = x := tget_tput_same _ _ _ _

theorem scan_setScan_other (s : State) (x : Option Scan) {n j : Nat} (h : j ≠ n) : (s.setScan n x).scan j = s.scan j :=
  tget_tput_other _ _ _ h

@[simp] theorem tum_setMode_same (s : State) (t : Nat) (f : TMode → TMode) :
    (setMode s t f).tum t = { s.tum t with mode := f (s.tum t).mode } := tget_tput_same _ _ _ _

theorem tum_setMode_other (s : State) (f : TMode → TMode) {t j : Nat} (h : j ≠ t) : (setMode s t f).tum j = s.tum j :=
  tget_tput_other _ _ _ h

@[simp] theorem tum_setQ_same (s : State) (t : Nat) (f : TQueue → TQueue) :
    (setQ s t f).tum t = { s.tum t with q := f (s.tum t).q } := tget_tput_same _ _ _ _

@[simp] theorem tum_setDram_same (s : State) (t : Nat) (f : TDram → TDram) :
    (setDram s t f).tum t = { s.tum t with dram := f (s.tum t).dram } := tget_tput_same _ _ _ _

@[simp] theorem port_setPhy_same (s : State) (p : Nat) (f : PhyS → PhyS) :
    (setPhy s p f).port p = { s.port p with phy := f (s.port p).phy } := tget_tput_same _ _ _ _

@[simp] theorem flt_setFlt_same (s : State) (b : FltSet) (x : FltS) : (s.setFlt b x).flt b = x := tget_tput_same _ _ _ _

/-! ## What other updates leave of the reads -/

@[simp] theorem tum_wr (s : State) (off : Nat) (v : Reg32) (j : Nat) : (wr s off v).tum j = s.tum j := rfl
@[simp] theorem tstate_wr (s : State) (off : Nat) (v : Reg32) (j : Nat) : tstate (wr s off v) j = tstate s j := rfl
@[simp] theorem port_wr (s : State) (off : Nat) (v : Reg32) (j : Nat) : (wr s off v).port j = s.port j := rfl
@[simp] theorem core_wr (s : State) (off : Nat) (v : Reg32) (j : Nat) : (wr s off v).core j = s.core j := rfl
@[simp] theorem eng_wr (s : State) (off : Nat) (v : Reg32) (j : Nat) : (wr s off v).eng j = s.eng j := rfl
@[simp] theorem ring_wr (s : State) (off : Nat) (v : Reg32) (j : Nat) : (wr s off v).ring j = s.ring j := rfl
@[simp] theorem flt_wr (s : State) (off : Nat) (v : Reg32) (e : FltSet) : (wr s off v).flt e = s.flt e := rfl
@[simp] theorem scan_wr (s : State) (off : Nat) (v : Reg32) (j : Nat) : (wr s off v).scan j = s.scan j := rfl
@[simp] theorem tum_setF (s : State) (off hi lo v : Nat) (j : Nat) : (setF s off hi lo v).tum j = s.tum j := rfl
@[simp] theorem tstate_setF (s : State) (off hi lo v : Nat) (j : Nat) : tstate (setF s off hi lo v) j = tstate s j := rfl
@[simp] theorem port_setF (s : State) (off hi lo v : Nat) (j : Nat) : (setF s off hi lo v).port j = s.port j := rfl
@[simp] theorem core_setF (s : State) (off hi lo v : Nat) (j : Nat) : (setF s off hi lo v).core j = s.core j := rfl
@[simp] theorem eng_setF (s : State) (off hi lo v : Nat) (j : Nat) : (setF s off hi lo v).eng j = s.eng j := rfl
@[simp] theorem ring_setF (s : State) (off hi lo v : Nat) (j : Nat) : (setF s off hi lo v).ring j = s.ring j := rfl
@[simp] theorem flt_setF (s : State) (off hi lo v : Nat) (e : FltSet) : (setF s off hi lo v).flt e = s.flt e := rfl
@[simp] theorem scan_setF (s : State) (off hi lo v : Nat) (j : Nat) : (setF s off hi lo v).scan j = s.scan j := rfl
@[simp] theorem tum_resetRegs (s : State) (p : Nat → Bool) (j : Nat) : (resetRegs s p).tum j = s.tum j := rfl
@[simp] theorem tstate_resetRegs (s : State) (p : Nat → Bool) (j : Nat) : tstate (resetRegs s p) j = tstate s j := rfl
@[simp] theorem port_resetRegs (s : State) (p : Nat → Bool) (j : Nat) : (resetRegs s p).port j = s.port j := rfl
@[simp] theorem core_resetRegs (s : State) (p : Nat → Bool) (j : Nat) : (resetRegs s p).core j = s.core j := rfl
@[simp] theorem eng_resetRegs (s : State) (p : Nat → Bool) (j : Nat) : (resetRegs s p).eng j = s.eng j := rfl
@[simp] theorem ring_resetRegs (s : State) (p : Nat → Bool) (j : Nat) : (resetRegs s p).ring j = s.ring j := rfl
@[simp] theorem flt_resetRegs (s : State) (p : Nat → Bool) (e : FltSet) : (resetRegs s p).flt e = s.flt e := rfl
@[simp] theorem scan_resetRegs (s : State) (p : Nat → Bool) (j : Nat) : (resetRegs s p).scan j = s.scan j := rfl
@[simp] theorem rd_setTum (s : State) (t : Nat) (x : Tumbler) (o : Nat) : rd (s.setTum t x) o = rd s o := rfl
@[simp] theorem fld_setTum (s : State) (t : Nat) (x : Tumbler) (o h l : Nat) : fld (s.setTum t x) o h l = fld s o h l := rfl
@[simp] theorem flag_setTum (s : State) (t : Nat) (x : Tumbler) (o i : Nat) : flag (s.setTum t x) o i = flag s o i := rfl
@[simp] theorem port_setTum (s : State) (t : Nat) (x : Tumbler) (j : Nat) : (s.setTum t x).port j = s.port j := rfl
@[simp] theorem core_setTum (s : State) (t : Nat) (x : Tumbler) (j : Nat) : (s.setTum t x).core j = s.core j := rfl
@[simp] theorem eng_setTum (s : State) (t : Nat) (x : Tumbler) (j : Nat) : (s.setTum t x).eng j = s.eng j := rfl
@[simp] theorem ring_setTum (s : State) (t : Nat) (x : Tumbler) (j : Nat) : (s.setTum t x).ring j = s.ring j := rfl
@[simp] theorem flt_setTum (s : State) (t : Nat) (x : Tumbler) (e : FltSet) : (s.setTum t x).flt e = s.flt e := rfl
@[simp] theorem scan_setTum (s : State) (t : Nat) (x : Tumbler) (j : Nat) : (s.setTum t x).scan j = s.scan j := rfl
@[simp] theorem rd_modTum (s : State) (t : Nat) (f : Tumbler → Tumbler) (o : Nat) : rd (s.modTum t f) o = rd s o := rfl
@[simp] theorem fld_modTum (s : State) (t : Nat) (f : Tumbler → Tumbler) (o h l : Nat) : fld (s.modTum t f) o h l = fld s o h l := rfl
@[simp] theorem flag_modTum (s : State) (t : Nat) (f : Tumbler → Tumbler) (o i : Nat) : flag (s.modTum t f) o i = flag s o i := rfl
@[simp] theorem port_modTum (s : State) (t : Nat) (f : Tumbler → Tumbler) (j : Nat) : (s.modTum t f).port j = s.port j := rfl
@[simp] theorem core_modTum (s : State) (t : Nat) (f : Tumbler → Tumbler) (j : Nat) : (s.modTum t f).core j = s.core j := rfl
@[simp] theorem eng_modTum (s : State) (t : Nat) (f : Tumbler → Tumbler) (j : Nat) : (s.modTum t f).eng j = s.eng j := rfl
@[simp] theorem ring_modTum (s : State) (t : Nat) (f : Tumbler → Tumbler) (j : Nat) : (s.modTum t f).ring j = s.ring j := rfl
@[simp] theorem flt_modTum (s : State) (t : Nat) (f : Tumbler → Tumbler) (e : FltSet) : (s.modTum t f).flt e = s.flt e := rfl
@[simp] theorem scan_modTum (s : State) (t : Nat) (f : Tumbler → Tumbler) (j : Nat) : (s.modTum t f).scan j = s.scan j := rfl
@[simp] theorem rd_setMode (s : State) (t : Nat) (f : TMode → TMode) (o : Nat) : rd (setMode s t f) o = rd s o := rfl
@[simp] theorem fld_setMode (s : State) (t : Nat) (f : TMode → TMode) (o h l : Nat) : fld (setMode s t f) o h l = fld s o h l := rfl
@[simp] theorem flag_setMode (s : State) (t : Nat) (f : TMode → TMode) (o i : Nat) : flag (setMode s t f) o i = flag s o i := rfl
@[simp] theorem port_setMode (s : State) (t : Nat) (f : TMode → TMode) (j : Nat) : (setMode s t f).port j = s.port j := rfl
@[simp] theorem core_setMode (s : State) (t : Nat) (f : TMode → TMode) (j : Nat) : (setMode s t f).core j = s.core j := rfl
@[simp] theorem eng_setMode (s : State) (t : Nat) (f : TMode → TMode) (j : Nat) : (setMode s t f).eng j = s.eng j := rfl
@[simp] theorem ring_setMode (s : State) (t : Nat) (f : TMode → TMode) (j : Nat) : (setMode s t f).ring j = s.ring j := rfl
@[simp] theorem flt_setMode (s : State) (t : Nat) (f : TMode → TMode) (e : FltSet) : (setMode s t f).flt e = s.flt e := rfl
@[simp] theorem scan_setMode (s : State) (t : Nat) (f : TMode → TMode) (j : Nat) : (setMode s t f).scan j = s.scan j := rfl
@[simp] theorem rd_setQ (s : State) (t : Nat) (f : TQueue → TQueue) (o : Nat) : rd (setQ s t f) o = rd s o := rfl
@[simp] theorem fld_setQ (s : State) (t : Nat) (f : TQueue → TQueue) (o h l : Nat) : fld (setQ s t f) o h l = fld s o h l := rfl
@[simp] theorem flag_setQ (s : State) (t : Nat) (f : TQueue → TQueue) (o i : Nat) : flag (setQ s t f) o i = flag s o i := rfl
@[simp] theorem port_setQ (s : State) (t : Nat) (f : TQueue → TQueue) (j : Nat) : (setQ s t f).port j = s.port j := rfl
@[simp] theorem core_setQ (s : State) (t : Nat) (f : TQueue → TQueue) (j : Nat) : (setQ s t f).core j = s.core j := rfl
@[simp] theorem eng_setQ (s : State) (t : Nat) (f : TQueue → TQueue) (j : Nat) : (setQ s t f).eng j = s.eng j := rfl
@[simp] theorem ring_setQ (s : State) (t : Nat) (f : TQueue → TQueue) (j : Nat) : (setQ s t f).ring j = s.ring j := rfl
@[simp] theorem flt_setQ (s : State) (t : Nat) (f : TQueue → TQueue) (e : FltSet) : (setQ s t f).flt e = s.flt e := rfl
@[simp] theorem scan_setQ (s : State) (t : Nat) (f : TQueue → TQueue) (j : Nat) : (setQ s t f).scan j = s.scan j := rfl
@[simp] theorem rd_setDram (s : State) (t : Nat) (f : TDram → TDram) (o : Nat) : rd (setDram s t f) o = rd s o := rfl
@[simp] theorem fld_setDram (s : State) (t : Nat) (f : TDram → TDram) (o h l : Nat) : fld (setDram s t f) o h l = fld s o h l := rfl
@[simp] theorem flag_setDram (s : State) (t : Nat) (f : TDram → TDram) (o i : Nat) : flag (setDram s t f) o i = flag s o i := rfl
@[simp] theorem port_setDram (s : State) (t : Nat) (f : TDram → TDram) (j : Nat) : (setDram s t f).port j = s.port j := rfl
@[simp] theorem core_setDram (s : State) (t : Nat) (f : TDram → TDram) (j : Nat) : (setDram s t f).core j = s.core j := rfl
@[simp] theorem eng_setDram (s : State) (t : Nat) (f : TDram → TDram) (j : Nat) : (setDram s t f).eng j = s.eng j := rfl
@[simp] theorem ring_setDram (s : State) (t : Nat) (f : TDram → TDram) (j : Nat) : (setDram s t f).ring j = s.ring j := rfl
@[simp] theorem flt_setDram (s : State) (t : Nat) (f : TDram → TDram) (e : FltSet) : (setDram s t f).flt e = s.flt e := rfl
@[simp] theorem scan_setDram (s : State) (t : Nat) (f : TDram → TDram) (j : Nat) : (setDram s t f).scan j = s.scan j := rfl
@[simp] theorem rd_setPort (s : State) (p : Nat) (x : Port) (o : Nat) : rd (s.setPort p x) o = rd s o := rfl
@[simp] theorem fld_setPort (s : State) (p : Nat) (x : Port) (o h l : Nat) : fld (s.setPort p x) o h l = fld s o h l := rfl
@[simp] theorem flag_setPort (s : State) (p : Nat) (x : Port) (o i : Nat) : flag (s.setPort p x) o i = flag s o i := rfl
@[simp] theorem tum_setPort (s : State) (p : Nat) (x : Port) (j : Nat) : (s.setPort p x).tum j = s.tum j := rfl
@[simp] theorem tstate_setPort (s : State) (p : Nat) (x : Port) (j : Nat) : tstate (s.setPort p x) j = tstate s j := rfl
@[simp] theorem core_setPort (s : State) (p : Nat) (x : Port) (j : Nat) : (s.setPort p x).core j = s.core j := rfl
@[simp] theorem eng_setPort (s : State) (p : Nat) (x : Port) (j : Nat) : (s.setPort p x).eng j = s.eng j := rfl
@[simp] theorem ring_setPort (s : State) (p : Nat) (x : Port) (j : Nat) : (s.setPort p x).ring j = s.ring j := rfl
@[simp] theorem flt_setPort (s : State) (p : Nat) (x : Port) (e : FltSet) : (s.setPort p x).flt e = s.flt e := rfl
@[simp] theorem scan_setPort (s : State) (p : Nat) (x : Port) (j : Nat) : (s.setPort p x).scan j = s.scan j := rfl
@[simp] theorem rd_modPort (s : State) (p : Nat) (f : Port → Port) (o : Nat) : rd (s.modPort p f) o = rd s o := rfl
@[simp] theorem fld_modPort (s : State) (p : Nat) (f : Port → Port) (o h l : Nat) : fld (s.modPort p f) o h l = fld s o h l := rfl
@[simp] theorem flag_modPort (s : State) (p : Nat) (f : Port → Port) (o i : Nat) : flag (s.modPort p f) o i = flag s o i := rfl
@[simp] theorem tum_modPort (s : State) (p : Nat) (f : Port → Port) (j : Nat) : (s.modPort p f).tum j = s.tum j := rfl
@[simp] theorem tstate_modPort (s : State) (p : Nat) (f : Port → Port) (j : Nat) : tstate (s.modPort p f) j = tstate s j := rfl
@[simp] theorem core_modPort (s : State) (p : Nat) (f : Port → Port) (j : Nat) : (s.modPort p f).core j = s.core j := rfl
@[simp] theorem eng_modPort (s : State) (p : Nat) (f : Port → Port) (j : Nat) : (s.modPort p f).eng j = s.eng j := rfl
@[simp] theorem ring_modPort (s : State) (p : Nat) (f : Port → Port) (j : Nat) : (s.modPort p f).ring j = s.ring j := rfl
@[simp] theorem flt_modPort (s : State) (p : Nat) (f : Port → Port) (e : FltSet) : (s.modPort p f).flt e = s.flt e := rfl
@[simp] theorem scan_modPort (s : State) (p : Nat) (f : Port → Port) (j : Nat) : (s.modPort p f).scan j = s.scan j := rfl
@[simp] theorem rd_setPhy (s : State) (p : Nat) (f : PhyS → PhyS) (o : Nat) : rd (setPhy s p f) o = rd s o := rfl
@[simp] theorem fld_setPhy (s : State) (p : Nat) (f : PhyS → PhyS) (o h l : Nat) : fld (setPhy s p f) o h l = fld s o h l := rfl
@[simp] theorem flag_setPhy (s : State) (p : Nat) (f : PhyS → PhyS) (o i : Nat) : flag (setPhy s p f) o i = flag s o i := rfl
@[simp] theorem tum_setPhy (s : State) (p : Nat) (f : PhyS → PhyS) (j : Nat) : (setPhy s p f).tum j = s.tum j := rfl
@[simp] theorem tstate_setPhy (s : State) (p : Nat) (f : PhyS → PhyS) (j : Nat) : tstate (setPhy s p f) j = tstate s j := rfl
@[simp] theorem core_setPhy (s : State) (p : Nat) (f : PhyS → PhyS) (j : Nat) : (setPhy s p f).core j = s.core j := rfl
@[simp] theorem eng_setPhy (s : State) (p : Nat) (f : PhyS → PhyS) (j : Nat) : (setPhy s p f).eng j = s.eng j := rfl
@[simp] theorem ring_setPhy (s : State) (p : Nat) (f : PhyS → PhyS) (j : Nat) : (setPhy s p f).ring j = s.ring j := rfl
@[simp] theorem flt_setPhy (s : State) (p : Nat) (f : PhyS → PhyS) (e : FltSet) : (setPhy s p f).flt e = s.flt e := rfl
@[simp] theorem scan_setPhy (s : State) (p : Nat) (f : PhyS → PhyS) (j : Nat) : (setPhy s p f).scan j = s.scan j := rfl
@[simp] theorem rd_setCore (s : State) (c : Nat) (x : Core) (o : Nat) : rd (s.setCore c x) o = rd s o := rfl
@[simp] theorem fld_setCore (s : State) (c : Nat) (x : Core) (o h l : Nat) : fld (s.setCore c x) o h l = fld s o h l := rfl
@[simp] theorem flag_setCore (s : State) (c : Nat) (x : Core) (o i : Nat) : flag (s.setCore c x) o i = flag s o i := rfl
@[simp] theorem tum_setCore (s : State) (c : Nat) (x : Core) (j : Nat) : (s.setCore c x).tum j = s.tum j := rfl
@[simp] theorem tstate_setCore (s : State) (c : Nat) (x : Core) (j : Nat) : tstate (s.setCore c x) j = tstate s j := rfl
@[simp] theorem port_setCore (s : State) (c : Nat) (x : Core) (j : Nat) : (s.setCore c x).port j = s.port j := rfl
@[simp] theorem eng_setCore (s : State) (c : Nat) (x : Core) (j : Nat) : (s.setCore c x).eng j = s.eng j := rfl
@[simp] theorem ring_setCore (s : State) (c : Nat) (x : Core) (j : Nat) : (s.setCore c x).ring j = s.ring j := rfl
@[simp] theorem flt_setCore (s : State) (c : Nat) (x : Core) (e : FltSet) : (s.setCore c x).flt e = s.flt e := rfl
@[simp] theorem scan_setCore (s : State) (c : Nat) (x : Core) (j : Nat) : (s.setCore c x).scan j = s.scan j := rfl
@[simp] theorem rd_setEng (s : State) (n : Nat) (x : Engine) (o : Nat) : rd (s.setEng n x) o = rd s o := rfl
@[simp] theorem fld_setEng (s : State) (n : Nat) (x : Engine) (o h l : Nat) : fld (s.setEng n x) o h l = fld s o h l := rfl
@[simp] theorem flag_setEng (s : State) (n : Nat) (x : Engine) (o i : Nat) : flag (s.setEng n x) o i = flag s o i := rfl
@[simp] theorem tum_setEng (s : State) (n : Nat) (x : Engine) (j : Nat) : (s.setEng n x).tum j = s.tum j := rfl
@[simp] theorem tstate_setEng (s : State) (n : Nat) (x : Engine) (j : Nat) : tstate (s.setEng n x) j = tstate s j := rfl
@[simp] theorem port_setEng (s : State) (n : Nat) (x : Engine) (j : Nat) : (s.setEng n x).port j = s.port j := rfl
@[simp] theorem core_setEng (s : State) (n : Nat) (x : Engine) (j : Nat) : (s.setEng n x).core j = s.core j := rfl
@[simp] theorem ring_setEng (s : State) (n : Nat) (x : Engine) (j : Nat) : (s.setEng n x).ring j = s.ring j := rfl
@[simp] theorem flt_setEng (s : State) (n : Nat) (x : Engine) (e : FltSet) : (s.setEng n x).flt e = s.flt e := rfl
@[simp] theorem scan_setEng (s : State) (n : Nat) (x : Engine) (j : Nat) : (s.setEng n x).scan j = s.scan j := rfl
@[simp] theorem rd_setRing (s : State) (n : Nat) (x : RingS) (o : Nat) : rd (s.setRing n x) o = rd s o := rfl
@[simp] theorem fld_setRing (s : State) (n : Nat) (x : RingS) (o h l : Nat) : fld (s.setRing n x) o h l = fld s o h l := rfl
@[simp] theorem flag_setRing (s : State) (n : Nat) (x : RingS) (o i : Nat) : flag (s.setRing n x) o i = flag s o i := rfl
@[simp] theorem tum_setRing (s : State) (n : Nat) (x : RingS) (j : Nat) : (s.setRing n x).tum j = s.tum j := rfl
@[simp] theorem tstate_setRing (s : State) (n : Nat) (x : RingS) (j : Nat) : tstate (s.setRing n x) j = tstate s j := rfl
@[simp] theorem port_setRing (s : State) (n : Nat) (x : RingS) (j : Nat) : (s.setRing n x).port j = s.port j := rfl
@[simp] theorem core_setRing (s : State) (n : Nat) (x : RingS) (j : Nat) : (s.setRing n x).core j = s.core j := rfl
@[simp] theorem eng_setRing (s : State) (n : Nat) (x : RingS) (j : Nat) : (s.setRing n x).eng j = s.eng j := rfl
@[simp] theorem flt_setRing (s : State) (n : Nat) (x : RingS) (e : FltSet) : (s.setRing n x).flt e = s.flt e := rfl
@[simp] theorem scan_setRing (s : State) (n : Nat) (x : RingS) (j : Nat) : (s.setRing n x).scan j = s.scan j := rfl
@[simp] theorem rd_setFlt (s : State) (b : FltSet) (x : FltS) (o : Nat) : rd (s.setFlt b x) o = rd s o := rfl
@[simp] theorem fld_setFlt (s : State) (b : FltSet) (x : FltS) (o h l : Nat) : fld (s.setFlt b x) o h l = fld s o h l := rfl
@[simp] theorem flag_setFlt (s : State) (b : FltSet) (x : FltS) (o i : Nat) : flag (s.setFlt b x) o i = flag s o i := rfl
@[simp] theorem tum_setFlt (s : State) (b : FltSet) (x : FltS) (j : Nat) : (s.setFlt b x).tum j = s.tum j := rfl
@[simp] theorem tstate_setFlt (s : State) (b : FltSet) (x : FltS) (j : Nat) : tstate (s.setFlt b x) j = tstate s j := rfl
@[simp] theorem port_setFlt (s : State) (b : FltSet) (x : FltS) (j : Nat) : (s.setFlt b x).port j = s.port j := rfl
@[simp] theorem core_setFlt (s : State) (b : FltSet) (x : FltS) (j : Nat) : (s.setFlt b x).core j = s.core j := rfl
@[simp] theorem eng_setFlt (s : State) (b : FltSet) (x : FltS) (j : Nat) : (s.setFlt b x).eng j = s.eng j := rfl
@[simp] theorem ring_setFlt (s : State) (b : FltSet) (x : FltS) (j : Nat) : (s.setFlt b x).ring j = s.ring j := rfl
@[simp] theorem scan_setFlt (s : State) (b : FltSet) (x : FltS) (j : Nat) : (s.setFlt b x).scan j = s.scan j := rfl
@[simp] theorem rd_setScan (s : State) (n : Nat) (x : Option Scan) (o : Nat) : rd (s.setScan n x) o = rd s o := rfl
@[simp] theorem fld_setScan (s : State) (n : Nat) (x : Option Scan) (o h l : Nat) : fld (s.setScan n x) o h l = fld s o h l := rfl
@[simp] theorem flag_setScan (s : State) (n : Nat) (x : Option Scan) (o i : Nat) : flag (s.setScan n x) o i = flag s o i := rfl
@[simp] theorem tum_setScan (s : State) (n : Nat) (x : Option Scan) (j : Nat) : (s.setScan n x).tum j = s.tum j := rfl
@[simp] theorem tstate_setScan (s : State) (n : Nat) (x : Option Scan) (j : Nat) : tstate (s.setScan n x) j = tstate s j := rfl
@[simp] theorem port_setScan (s : State) (n : Nat) (x : Option Scan) (j : Nat) : (s.setScan n x).port j = s.port j := rfl
@[simp] theorem core_setScan (s : State) (n : Nat) (x : Option Scan) (j : Nat) : (s.setScan n x).core j = s.core j := rfl
@[simp] theorem eng_setScan (s : State) (n : Nat) (x : Option Scan) (j : Nat) : (s.setScan n x).eng j = s.eng j := rfl
@[simp] theorem ring_setScan (s : State) (n : Nat) (x : Option Scan) (j : Nat) : (s.setScan n x).ring j = s.ring j := rfl
@[simp] theorem flt_setScan (s : State) (n : Nat) (x : Option Scan) (e : FltSet) : (s.setScan n x).flt e = s.flt e := rfl
@[simp] theorem rd_raise (s : State) (src data : Nat) (o : Nat) : rd (raise s src data) o = rd s o := rfl
@[simp] theorem fld_raise (s : State) (src data : Nat) (o h l : Nat) : fld (raise s src data) o h l = fld s o h l := rfl
@[simp] theorem flag_raise (s : State) (src data : Nat) (o i : Nat) : flag (raise s src data) o i = flag s o i := rfl
@[simp] theorem tum_raise (s : State) (src data : Nat) (j : Nat) : (raise s src data).tum j = s.tum j := rfl
@[simp] theorem tstate_raise (s : State) (src data : Nat) (j : Nat) : tstate (raise s src data) j = tstate s j := rfl
@[simp] theorem port_raise (s : State) (src data : Nat) (j : Nat) : (raise s src data).port j = s.port j := rfl
@[simp] theorem core_raise (s : State) (src data : Nat) (j : Nat) : (raise s src data).core j = s.core j := rfl
@[simp] theorem eng_raise (s : State) (src data : Nat) (j : Nat) : (raise s src data).eng j = s.eng j := rfl
@[simp] theorem ring_raise (s : State) (src data : Nat) (j : Nat) : (raise s src data).ring j = s.ring j := rfl
@[simp] theorem flt_raise (s : State) (src data : Nat) (e : FltSet) : (raise s src data).flt e = s.flt e := rfl
@[simp] theorem scan_raise (s : State) (src data : Nat) (j : Nat) : (raise s src data).scan j = s.scan j := rfl
@[simp] theorem rd_openShadow (s : State) (b : FltSet) (fatal : Bool) (o : Nat) : rd (openShadow s b fatal) o = rd s o := rfl
@[simp] theorem fld_openShadow (s : State) (b : FltSet) (fatal : Bool) (o h l : Nat) : fld (openShadow s b fatal) o h l = fld s o h l := rfl
@[simp] theorem flag_openShadow (s : State) (b : FltSet) (fatal : Bool) (o i : Nat) : flag (openShadow s b fatal) o i = flag s o i := rfl
@[simp] theorem tum_openShadow (s : State) (b : FltSet) (fatal : Bool) (j : Nat) : (openShadow s b fatal).tum j = s.tum j := rfl
@[simp] theorem tstate_openShadow (s : State) (b : FltSet) (fatal : Bool) (j : Nat) : tstate (openShadow s b fatal) j = tstate s j := rfl
@[simp] theorem port_openShadow (s : State) (b : FltSet) (fatal : Bool) (j : Nat) : (openShadow s b fatal).port j = s.port j := rfl
@[simp] theorem core_openShadow (s : State) (b : FltSet) (fatal : Bool) (j : Nat) : (openShadow s b fatal).core j = s.core j := rfl
@[simp] theorem eng_openShadow (s : State) (b : FltSet) (fatal : Bool) (j : Nat) : (openShadow s b fatal).eng j = s.eng j := rfl
@[simp] theorem ring_openShadow (s : State) (b : FltSet) (fatal : Bool) (j : Nat) : (openShadow s b fatal).ring j = s.ring j := rfl
@[simp] theorem flt_openShadow (s : State) (b : FltSet) (fatal : Bool) (e : FltSet) : (openShadow s b fatal).flt e = s.flt e := rfl
@[simp] theorem scan_openShadow (s : State) (b : FltSet) (fatal : Bool) (j : Nat) : (openShadow s b fatal).scan j = s.scan j := rfl
@[simp] theorem rd_fresh (s : State) (o : Nat) : rd ((fresh s).2) o = rd s o := rfl
@[simp] theorem fld_fresh (s : State) (o h l : Nat) : fld ((fresh s).2) o h l = fld s o h l := rfl
@[simp] theorem flag_fresh (s : State) (o i : Nat) : flag ((fresh s).2) o i = flag s o i := rfl
@[simp] theorem tum_fresh (s : State) (j : Nat) : ((fresh s).2).tum j = s.tum j := rfl
@[simp] theorem tstate_fresh (s : State) (j : Nat) : tstate ((fresh s).2) j = tstate s j := rfl
@[simp] theorem port_fresh (s : State) (j : Nat) : ((fresh s).2).port j = s.port j := rfl
@[simp] theorem core_fresh (s : State) (j : Nat) : ((fresh s).2).core j = s.core j := rfl
@[simp] theorem eng_fresh (s : State) (j : Nat) : ((fresh s).2).eng j = s.eng j := rfl
@[simp] theorem ring_fresh (s : State) (j : Nat) : ((fresh s).2).ring j = s.ring j := rfl
@[simp] theorem flt_fresh (s : State) (e : FltSet) : ((fresh s).2).flt e = s.flt e := rfl
@[simp] theorem scan_fresh (s : State) (j : Nat) : ((fresh s).2).scan j = s.scan j := rfl
@[simp] theorem rd_count (s : State) (slot n : Nat) (o : Nat) : rd (count s slot n) o = rd s o := by
  unfold count
  split <;> rfl
@[simp] theorem fld_count (s : State) (slot n : Nat) (o h l : Nat) : fld (count s slot n) o h l = fld s o h l := by
  unfold count
  split <;> rfl
@[simp] theorem flag_count (s : State) (slot n : Nat) (o i : Nat) : flag (count s slot n) o i = flag s o i := by
  unfold count
  split <;> rfl
@[simp] theorem tum_count (s : State) (slot n : Nat) (j : Nat) : (count s slot n).tum j = s.tum j := by
  unfold count
  split <;> rfl
@[simp] theorem tstate_count (s : State) (slot n : Nat) (j : Nat) : tstate (count s slot n) j = tstate s j := by
  unfold count
  split <;> rfl
@[simp] theorem port_count (s : State) (slot n : Nat) (j : Nat) : (count s slot n).port j = s.port j := by
  unfold count
  split <;> rfl
@[simp] theorem core_count (s : State) (slot n : Nat) (j : Nat) : (count s slot n).core j = s.core j := by
  unfold count
  split <;> rfl
@[simp] theorem eng_count (s : State) (slot n : Nat) (j : Nat) : (count s slot n).eng j = s.eng j := by
  unfold count
  split <;> rfl
@[simp] theorem ring_count (s : State) (slot n : Nat) (j : Nat) : (count s slot n).ring j = s.ring j := by
  unfold count
  split <;> rfl
@[simp] theorem flt_count (s : State) (slot n : Nat) (e : FltSet) : (count s slot n).flt e = s.flt e := by
  unfold count
  split <;> rfl
@[simp] theorem scan_count (s : State) (slot n : Nat) (j : Nat) : (count s slot n).scan j = s.scan j := by
  unfold count
  split <;> rfl
@[simp] theorem rd_begin (s : State) (c : Cmd) (o : Nat) : rd (begin s c) o = rd s o := rfl
@[simp] theorem fld_begin (s : State) (c : Cmd) (o h l : Nat) : fld (begin s c) o h l = fld s o h l := rfl
@[simp] theorem flag_begin (s : State) (c : Cmd) (o i : Nat) : flag (begin s c) o i = flag s o i := rfl
@[simp] theorem tum_begin (s : State) (c : Cmd) (j : Nat) : (begin s c).tum j = s.tum j := rfl
@[simp] theorem tstate_begin (s : State) (c : Cmd) (j : Nat) : tstate (begin s c) j = tstate s j := rfl
@[simp] theorem port_begin (s : State) (c : Cmd) (j : Nat) : (begin s c).port j = s.port j := rfl
@[simp] theorem core_begin (s : State) (c : Cmd) (j : Nat) : (begin s c).core j = s.core j := rfl
@[simp] theorem eng_begin (s : State) (c : Cmd) (j : Nat) : (begin s c).eng j = s.eng j := rfl
@[simp] theorem ring_begin (s : State) (c : Cmd) (j : Nat) : (begin s c).ring j = s.ring j := rfl
@[simp] theorem flt_begin (s : State) (c : Cmd) (e : FltSet) : (begin s c).flt e = s.flt e := rfl
@[simp] theorem scan_begin (s : State) (c : Cmd) (j : Nat) : (begin s c).scan j = s.scan j := rfl
@[simp] theorem rd_setI3c (s : State) (f : I3c → I3c) (o : Nat) : rd (setI3c s f) o = rd s o := rfl
@[simp] theorem fld_setI3c (s : State) (f : I3c → I3c) (o h l : Nat) : fld (setI3c s f) o h l = fld s o h l := rfl
@[simp] theorem flag_setI3c (s : State) (f : I3c → I3c) (o i : Nat) : flag (setI3c s f) o i = flag s o i := rfl
@[simp] theorem tum_setI3c (s : State) (f : I3c → I3c) (j : Nat) : (setI3c s f).tum j = s.tum j := rfl
@[simp] theorem tstate_setI3c (s : State) (f : I3c → I3c) (j : Nat) : tstate (setI3c s f) j = tstate s j := rfl
@[simp] theorem port_setI3c (s : State) (f : I3c → I3c) (j : Nat) : (setI3c s f).port j = s.port j := rfl
@[simp] theorem core_setI3c (s : State) (f : I3c → I3c) (j : Nat) : (setI3c s f).core j = s.core j := rfl
@[simp] theorem eng_setI3c (s : State) (f : I3c → I3c) (j : Nat) : (setI3c s f).eng j = s.eng j := rfl
@[simp] theorem ring_setI3c (s : State) (f : I3c → I3c) (j : Nat) : (setI3c s f).ring j = s.ring j := rfl
@[simp] theorem flt_setI3c (s : State) (f : I3c → I3c) (e : FltSet) : (setI3c s f).flt e = s.flt e := rfl
@[simp] theorem scan_setI3c (s : State) (f : I3c → I3c) (j : Nat) : (setI3c s f).scan j = s.scan j := rfl
@[simp] theorem rd_setJtag (s : State) (f : Jtag → Jtag) (o : Nat) : rd (setJtag s f) o = rd s o := rfl
@[simp] theorem fld_setJtag (s : State) (f : Jtag → Jtag) (o h l : Nat) : fld (setJtag s f) o h l = fld s o h l := rfl
@[simp] theorem flag_setJtag (s : State) (f : Jtag → Jtag) (o i : Nat) : flag (setJtag s f) o i = flag s o i := rfl
@[simp] theorem tum_setJtag (s : State) (f : Jtag → Jtag) (j : Nat) : (setJtag s f).tum j = s.tum j := rfl
@[simp] theorem tstate_setJtag (s : State) (f : Jtag → Jtag) (j : Nat) : tstate (setJtag s f) j = tstate s j := rfl
@[simp] theorem port_setJtag (s : State) (f : Jtag → Jtag) (j : Nat) : (setJtag s f).port j = s.port j := rfl
@[simp] theorem core_setJtag (s : State) (f : Jtag → Jtag) (j : Nat) : (setJtag s f).core j = s.core j := rfl
@[simp] theorem eng_setJtag (s : State) (f : Jtag → Jtag) (j : Nat) : (setJtag s f).eng j = s.eng j := rfl
@[simp] theorem ring_setJtag (s : State) (f : Jtag → Jtag) (j : Nat) : (setJtag s f).ring j = s.ring j := rfl
@[simp] theorem flt_setJtag (s : State) (f : Jtag → Jtag) (e : FltSet) : (setJtag s f).flt e = s.flt e := rfl
@[simp] theorem scan_setJtag (s : State) (f : Jtag → Jtag) (j : Nat) : (setJtag s f).scan j = s.scan j := rfl

/-- Adding to one counter leaves the others. -/
theorem counts_count_other (s : State) (n : Nat) {slot k : Nat} (h : k ≠ slot) :
    tget zero (count s slot n).counts k = tget zero s.counts k := by
  unfold count
  split
  · rfl
  · exact tget_tput_other _ _ _ h

/-- A counter rises by what is added to it, modulo 2^48, while its block is not fenced. -/
theorem counts_count_same (s : State) (slot n : Nat) (h : s.dump.fenced = false) :
    tget zero (count s slot n).counts slot = tget zero s.counts slot + BitVec.ofNat 48 n := by
  unfold count
  rw [if_neg (by simp [h])]
  exact tget_tput_same _ _ _ _

@[simp] theorem when_true (s t : State) : when true s t = t := rfl

@[simp] theorem when_false (s t : State) : when false s t = s := rfl

end Sys2Proof.Machine
end

