-- ==== Sys2Proof/WellFormed.lean ====
section
/-! DEFINITION. The commands that a sender can form: list operands of the lengths that their rows give, and fields that
belong together. The machine runs on every command; an operand that is not well formed is one that no packet, register
write or measurement of the spec carries. -/

namespace Sys2Proof

/-- A command of R359 as it stands in its CMD packet or on its ring: on a ring all LEN bytes of EXT are there; a packet
holds at most what its chunks leave after the link header and the command header. -/
def Cmd.formed (c : Cmd) : Bool :=
  match c.src, c.chunks with
  | .ring _, none => c.ext.length == c.len.toNat
  | .port _, some k => decide (c.ext.length ≤ 2 * k.toNat - 36)
  | _, _ => false

/-- The body of a pair packet is what its LEN leaves after the eight chunks of its header (R323). -/
def PairPkt.formed (k : PairPkt) : Bool := k.body.length + 8 == k.len.toNat

/-- Lost bits are given for at most `n` code words. -/
def flipsFormed (n : Nat) (l : List CodeWord) : Bool := decide (l.length ≤ n)

/-- The readings of R455: 16 zones for each leaf, 64 sensors of Hasp, 16 of Strike, and the eight rails. -/
def ThermIn.formed (i : ThermIn) : Bool :=
  i.leaf.length % 16 == 0 && decide (i.leaf.length ≤ 544) && i.hasp.length == 64 && i.strike.length == 16
    && i.ivr.length == 8

/-- The results of CAL_RUN by kind (R470): OFFSET, GAIN and raw reading of 16 zones; one target in mV; lower
end, upper end and eye width of each wire and then of each leaf's read phase and write delay. -/
def calFormed (kind : Nat) (res : List Int) : Bool :=
  if kind = 0 then res.length == 48
  else if kind = 1 then res.length == 1
  else if kind = 2 then res.length % 6 == 0 && decide (1008 < res.length) && decide (res.length ≤ 1212)
  else res.isEmpty

/-- A BAR0 request of 1, 2, 4 or 8 bytes, a write with the registers that it carries (R371). -/
def bar0Formed (size : Nat) (data : Option (List Reg32)) : Bool :=
  (size == 1 || size == 2 || size == 4 || size == 8) && data.all (fun l => l.length == (size + 3) / 4)

/-- A command that a sender can form. -/
def Instr.formed : Instr → Bool
  | .read r | .write r | .atomicAdd r | .atomicSwap r | .atomicCompareAndSwap r | .atomicAndOr r => decide (8 ≤ r.len.toNat)
  | .codeWordDecode _ f | .sweepLine _ _ f | .swapCopyLine _ f | .scanLineRead _ _ f | .resyncCopyLine _ f =>
    flipsFormed 8 f
  | .patrolScrubRow _ f => flipsFormed 256 f
  | .remapCopyDone _ f _ => flipsFormed 128 f
  | .trainSweepStep _ m => m.length == 16
  | .adaptationStep _ m => m.length == 16
  | .eyeScanDone _ n _ => n.length == 1 || n.length == 4096
  | .fc _ t _ => t == 0 || decide (5 ≤ t.toNat)
  | .cmd p c => c.formed && c.src == .port p
  | .memWrite c d => c.formed && d.length == linesOf c
  | .calRun c r => c.formed && calFormed (c.p0.toNat % 16) r
  | .nop c | .csrRead c | .csrWrite c | .memRead c | .initDefine c | .flowOpen c | .flowClose c | .keyDefine c | .keyRevoke c
  | .adminSet c | .classSet c | .guaranteeSet c | .planSet c | .regionClear c | .remapRow c | .leafSwap c | .leafSwapAbort c
  | .scanStart c | .scanAbort c | .pairForm c | .pairLeave c | .pairResync c | .pairHomeSet c | .unitDisable c
  | .unitEnable c | .powerState c | .calRestore c | .cntConfig c | .logRead c | .eventSubscribe c | .fwActivate c => c.formed
  | .calStore c _ | .fwLoad c _ | .fwCommit c _ => c.formed
  | .hello _ k | .fwd _ k | .replica _ k | .pairAck _ k | .clear _ k | .clearAck _ k | .home _ k | .homeAck _ k
  | .portmap _ k | .portmapAck _ k | .fence _ k | .unfence _ k | .map _ k | .resyncDone _ k | .resyncLine _ k
  | .resultReadData _ k | .resultReject _ k => k.formed
  | .ringCommandFetch _ b => b.length % 64 == 0
  | .bar0Access _ n d => bar0Formed n d
  | .thermalEvaluation i => i.formed
  | .i3cPrivateWrite b => decide (b.length < 65536)
  | .waitRelease _ | .commandSlot _ | .throttleEnd _ | .refreshDue .. | .refreshWake _ | .trasmaxExpiry .. | .idleClose ..
  | .cwcWindowExpiry _ | .lightEntry _ | .wakeComplete _ | .quietEntry _ | .selfRefreshEntry _ | .selfRefreshExit _
  | .pwrCfgWrite .. | .refCfgWrite .. | .rateReqWrite .. | .rateQuiesced _ | .rateRelockDone _ | .trnStart .. | .trnAbort ..
  | .trnStepBoundary .. | .regionClearDone _ | .sweepStart .. | .sweepFinish _ | .initialSweepLine _ | .initialSweepFinish _
  | .groupReinitDone _ | .swapSwitchPoint _ | .swapRetire _ | .swapAbandonDone _ | .scanOutputWrite .. | .scanEnd _
  | .scanCompletionEvent _ | .wardWindowStart | .windowEvaluation => true
  | .linkEnWrite .. | .retrain .. | .detectPoll .. | .clockLock _ | .clocklockTimeout _ | .keySetReceived ..
  | .keySetExchangeComplete _ | .trainRateRelock _ | .ks1Timeout _ | .ks2Timeout _ | .phyRateReqWrite .. | .laneLoss ..
  | .clockLaneLoss _ | .retrainLaneTestEnd .. | .retrainTimeout _ | .upwidth .. | .adaptNow .. | .eqCodeMove ..
  | .eqOvrWrite .. | .eyeScanStart .. | .eyeScanAbort .. | .lowpowerEntry _ | .wakeRequest _ | .lowpowerExitDone ..
  | .testModeWrite .. | .pgClear .. | .injectionGo .. | .injectionMade _ | .dataFlitReceived .. | .ks1InActive ..
  | .nakTimeout _ | .ackTimeout _ | .nak .. | .lpReq .. | .lpAck .. | .lpDeny .. | .lpIdleTimeout _ | .lpReqNoAnswer _
  | .credit .. | .creditPacketInsert _ | .urgencyUpdate _ | .flitSlot _ => true
  | .commandTake _ | .flowCloseDone _ | .keyChangeDone _ | .pairFormTimeout | .helloHeartbeat | .mirrorPortLoss _
  | .partnerLossTimeout | .divergedCommit _ | .shutdownComplete _ | .unitStartDone _ | .holdStopPoint | .fwCoreRestart ..
  | .coreRestart .. | .ringEnWrite .. | .replyWrite _ | .dmaError _ | .usb4LinkLoss | .usb4Reset | .sourceAccept _
  | .eventClaim .. | .wfi _ | .evcSrcCfgWrite .. | .evcEoi _ | .evcSwRaise _ | .cntClr .. | .faultDetected ..
  | .fltStatAck .. | .shadowEnd _ | .logFlush _ | .latchTick | .dumpComplete => true
  | .brownOut _ | .drainComplete _ | .mramCommitDone | .vinRecovery | .holdExitVin | .holdVinLow | .vinHigh
  | .railSequenceStep | .ivrRampStep _ | .senIvrTargetWrite .. | .quietBitWrite .. | .speedMonitorRead .. | .busDelayStep _
  | .refclkLoss | .refclkReturn | .timeLoRead _ | .gblLockSet _ | .registerWrite .. | .readClear .. | .porstN | .wrstN
  | .wrstNRise | .portLogicReset _ | .bootStage | .tumblerGroupStart _ | .frontStageStart | .frontStageStop
  | .holdOkChange _ | .leafSelfRefresh .. => true
  | .i3cPrivateRead _ | .enec _ | .disec _ | .rstdaa | .entdaa _ | .setdasa .. | .setnewda _ | .setmwl _ | .setmrl _
  | .getpid | .getbcr | .getdcr | .getstatus | .getmwl | .getmrl | .unsupportedCcc _ | .bypass | .idcode
  | .samplePreload _ | .extest _ => true
where
  /-- Lines of the byte count of MEM_WRITE (R366). -/
  linesOf (c : Cmd) : Nat := c.p0.toNat / 2 ^ 32 % 2 ^ 25 / 64

end Sys2Proof
end

