-- ==== Sys2Proof/Tests/Slice0.lean ====
section
/-! SUPPORT. Tests: an ill-formed command for each check of WellFormed, and small states that meet the hypotheses of the
statements of Certificates/Slice0/Obligations.lean, clause by clause, many of them with the outcome of the one command.
Each expected value is computed by hand from the rule that the statement names. -/

namespace Sys2Proof.Tests

open Sys2Proof Sys2Proof.Machine

set_option Elab.async false

/-! ## Small states -/

/-- The next state of a command, or the state itself where it stops. -/
def after (i : Instr) (s : State) : State := match exec i s with
  | .next t => t
  | _ => s

/-- The next state of a step. -/
def afterStep (s : State) : State := match step s with
  | .next t => t
  | _ => s

/-- The outcome is a next state. -/
def goes (i : Instr) (s : State) : Bool := match exec i s with
  | .next _ => true
  | _ => false

/-- Out of reset and booted: every domain up, firmware taking commands. -/
def up : State :=
  { State.reset with power := { Power.init with
      haspUp := true, strikeUp := true, railRow := 7, railsOn := 0xFF, groups := 0xF, taking := true } }

/-- `up` with a command taken. -/
def took (c : Cmd) : State := { up with cmds := { Cmds.init with taken := [c] } }

/-- A command of ring 0. -/
def ringC (op : BitVec 16) (p0 p1 p2 : Word64) : Cmd :=
  { src := .ring 0, initiator := 0, chunks := none, opcode := op, tag := 7, len := 0, reserved := 0, p0 := p0, p1 := p1,
    p2 := p2, ext := [] }

/-- A command of ring 0 with EXT. -/
def ringX (op : BitVec 16) (p0 p1 : Word64) (x : List Byte) : Cmd :=
  { ringC op p0 p1 0 with len := BitVec.ofNat 16 x.length, ext := x }

/-- Tumbler 3 online, with its mode changed. -/
def tum3 (f : TMode → TMode) : State := setMode up 3 (fun m => f { m with state := .online, everOnline := true })

def online : State := tum3 id

/-- Port 2 in a link state. -/
def link2 (l : LinkState) : State := up.modPort 2 (fun x => { x with link := l })

/-- Port 2 carries flits in full width. -/
def active2 : State := link2 .active

/-- Registers written one by one. -/
def regs (s : State) (l : List (Nat × Reg32)) : State := l.foldl (fun s e => wr s e.1 e.2) s

/-- Flow 1 of initiator 5 is open on port 2 under key 0, which grants region 0; tumbler 0 is online. -/
def flow1 : State :=
  regs (setMode active2 0 (fun m => { m with state := .online, everOnline := true }))
    [(rgnReg 0, 0x00000001), (flwReg 1 0, 0x42005000), (keyHdr 0, 0x80000000), (keyHi 0 0, 0x1F000001), (keyInit 5, 0x80000004)]

/-- A command among the taken ones of a state. -/
def tookIn (s : State) (c : Cmd) : State := { s with cmds := { s.cmds with taken := [c] } }

/-- Every tumbler is online. -/
def onlineTum : Tumbler := { Tumbler.init with mode := { TMode.init with state := .online, everOnline := true } }
def allOnline : State := { up with tums := (List.range 64).map (fun t => (t, onlineTum)) }

/-! ## WellFormed -/

theorem test_wf_cmd : (Instr.nop (ringC 0 0 0 0)).formed = true ∧
    (Instr.nop { ringC 0 0 0 0 with chunks := some 18 }).formed = false ∧
    (Instr.nop { ringC 0 0 0 0 with len := 8 }).formed = false := by decide +kernel
theorem test_wf_packet : (Instr.cmd 2 { ringC 0 0 0 0 with src := .port 2, chunks := some 18 }).formed = true ∧
    (Instr.cmd 3 { ringC 0 0 0 0 with src := .port 2, chunks := some 18 }).formed = false ∧
    (Instr.cmd 2 { ringC 0 0 0 0 with src := .port 2, chunks := some 18, ext := [0] }).formed = false := by decide +kernel
theorem test_wf_flips : (Instr.sweepLine 0 0 (List.replicate 8 0)).formed = true ∧
    (Instr.sweepLine 0 0 (List.replicate 9 0)).formed = false ∧
    (Instr.remapCopyDone 0 (List.replicate 129 0) true).formed = false := by decide +kernel
theorem test_wf_scrub_flips : (Instr.patrolScrubRow 0 (List.replicate 256 0)).formed = true ∧
    (Instr.patrolScrubRow 0 (List.replicate 257 0)).formed = false := by decide +kernel
theorem test_wf_lanes : (Instr.trainSweepStep 0 (List.replicate 15 0)).formed = false ∧
    (Instr.adaptationStep 0 []).formed = false ∧ (Instr.eyeScanDone 0 [1, 2] false).formed = false := by decide +kernel
theorem test_wf_ctype : (Instr.fc 0 0 ⟨0, 0, 0, 0, 0, true⟩).formed = true ∧
    (Instr.fc 0 1 ⟨0, 0, 0, 0, 0, true⟩).formed = false := by decide +kernel
theorem test_wf_lines : (Instr.memWrite (ringC 4 (64 * 0x100000000) 0 0) [0]).formed = true ∧
    (Instr.memWrite (ringC 4 (64 * 0x100000000) 0 0) []).formed = false := by decide +kernel
theorem test_wf_cal : (Instr.calRun (ringC 0x0503 1 0 0) [750]).formed = true ∧
    (Instr.calRun (ringC 0x0503 1 0 0) []).formed = false ∧
    (Instr.calRun (ringC 0x0503 0 0 0) [750]).formed = false ∧
    (Instr.calRun (ringC 0x0503 2 0 0) [750]).formed = false ∧
    (Instr.calRun (ringC 0x0503 3 0 0) [750]).formed = false := by decide +kernel
theorem test_wf_pair_body : (Instr.fence 0 ⟨12, 6, 0, 0, 0, 0, 0, [0, 0, 0, 0]⟩).formed = true ∧
    (Instr.fence 0 ⟨12, 6, 0, 0, 0, 0, 0, []⟩).formed = false := by decide +kernel
theorem test_wf_fetch : (Instr.ringCommandFetch 0 [1]).formed = false := by decide +kernel
theorem test_wf_bar0 : (Instr.bar0Access 0 8 (some [1, 2])).formed = true ∧
    (Instr.bar0Access 0 3 none).formed = false ∧ (Instr.bar0Access 0 4 (some [])).formed = false := by decide +kernel
theorem test_wf_thermal : (Instr.thermalEvaluation
    ⟨List.replicate 16 none, List.replicate 64 none, List.replicate 16 none, 0, 0, List.replicate 8 (0, 0)⟩).formed = true ∧
    (Instr.thermalEvaluation ⟨[], List.replicate 63 none, List.replicate 16 none, 0, 0, List.replicate 8 (0, 0)⟩).formed
      = false := by decide +kernel
theorem test_wf_req : (Instr.read ⟨0, 1, 0, 0, 1, 0, 0, 0, 8, 0, 0, 0, 0⟩).formed = true ∧
    (Instr.read ⟨0, 1, 0, 0, 1, 0, 0, 0, 7, 0, 0, 0, 0⟩).formed = false := by decide +kernel

/-! ## The queue and the whole machine -/

theorem test_idle_tick : State.reset.pending = [] ∧ sentinelUp State.reset = true ∧
    afterStep State.reset = { State.reset with now := 1 } := by decide +kernel
/-- The window and the latch tick of the dump end with the next tick. -/
theorem test_idle_window : let s : State := { regs up [(cntReg 0, 0x8001FFFF), (cntReg 4, 625)] with now := 624 }
    s.ward.winStart + s.ward.winLen = 625 ∧ dumpOn s = true ∧ (s.now + 1).toNat % max 1 (rd s (cntReg 4)).toNat = 0 ∧
    (tick s).ward.winStart = 625 ∧ (tick s).ward.winLen = 625 ∧ (tick s).dump.edges.map (·.1) = [625] := by decide +kernel
theorem test_idle_in_reset : sentinelUp { up with power := { Power.init with porst := true } } = false := by decide +kernel
theorem test_canonical_state :
    Canonical { up with dram := [(5, 1)], mram := [(0, 2), (9, 1)], pending := [.pairFormTimeout] } := ⟨by decide +kernel, by decide +kernel, by decide +kernel⟩
theorem test_not_canonical : Memory.wf [(5, 0)] = false ∧ Memory.wf [(5, 1), (5, 2)] = false ∧
    Memory.wf [(5, 1), (4, 2)] = false := by decide +kernel
theorem test_leaf_fitted : namedLeaf (.refreshDue 0 33 0) = some 33 ∧ (33 : Nat) < up.part.leaves ∧
    goes (.refreshDue 0 33 0) up = true := by decide +kernel
theorem test_leaf_absent : (17 : Nat) = Part.dq0512.leaves ∧
    goes (.refreshDue 0 17 0) { up with part := .dq0512 } = false ∧
    goes (.leafSelfRefresh 17 0 0) { up with part := .dq0512 } = false := by decide +kernel

/-! ## Code words, addresses -/

theorem test_ecc_single_at_ends : decodeWord (encodeWord 5 1 ^^^ 1) = ⟨.single, 5, 1, encodeWord 5 1⟩ ∧
    decodeWord (encodeWord 5 1 ^^^ BitVec.ofNat 80 (2 ^ 79)) = ⟨.single, 5, 1, encodeWord 5 1⟩ := by decide +kernel
theorem test_ecc_double_at_ends :
    decodeWord (encodeWord 5 1 ^^^ 1 ^^^ BitVec.ofNat 80 (2 ^ 79)) = ⟨.double, 5, 1, encodeWord 5 1⟩ := by decide +kernel
theorem test_poison_word : (decodeWord (poisonWord 3)).cls = .poisoned ∧ (decodeWord (poisonWord 3)).epoch = 3 := by decide +kernel
theorem test_map_line0 : mapAddr 0 0 = (0, 0) ∧ (mapAddr 0 (2 ^ Part.dq1024.addrWidth - 1)).1 < 64 := by decide +kernel
theorem test_word_ranges : (63 : Nat) < 64 ∧ (33 : Nat) < 34 ∧ (16399 : Nat) < 16400 ∧
    getWord (putWord up 63 ⟨33, 7, 3, 16399⟩ 15 7 9) 63 ⟨33, 7, 3, 16399⟩ 15 7 = 9 ∧
    getWord (putWord up 63 ⟨33, 7, 3, 16399⟩ 15 7 9) 63 ⟨33, 7, 3, 16399⟩ 15 6 = 0 := by decide +kernel

/-! ## Requests -/

def rdReq (flow : BitVec 18) : Req :=
  { port := 2, flow := flow, initiator := 5, tag := 9, size := 1, urgency := 0, hint := 0, addr := 0, len := 8, be := 0,
    data := 0, op1 := 0, op2 := 0 }

theorem test_read_accepted : takesReq flow1 2 (encodeReq 0 (rdReq 1)) = true ∧
    nextPkt (received flow1 2 (encodeReq 0 (rdReq 1))) 2 4 = some (0, usedBits (encodeReq 0 (rdReq 1))) ∧
    checkReq flow1 0 (rdReq 1) = none ∧ ((after (.read (rdReq 1)) flow1).tum 0).q.queue.length = 1 ∧
    fld (after (.read (rdReq 1)) flow1) (flwReg 1 2) 15 0 = 1 := by decide +kernel
theorem test_read_closed_flow : checkReq flow1 0 (rdReq 2) = some stFlow ∧
    (((after (.read (rdReq 2)) flow1).port 2).cmpBuf.map (·.status)) = [stFlow] ∧
    fld (after (.read (rdReq 2)) flow1) (flwReg 2 3) 31 0 = 1 := by decide +kernel
/-- An older request of port 2 waits, and the completion buffer is full. -/
theorem test_read_behind : let s := storePkt flow1 2 (encodeReq 0 (rdReq 2))
    takesReq s 2 (encodeReq 0 (rdReq 1)) = true ∧
    (nextPkt (received s 2 (encodeReq 0 (rdReq 1))) 2 4).all (fun e => e.2 != usedBits (encodeReq 0 (rdReq 1))) = true ∧
    after (.read (rdReq 1)) s = received s 2 (encodeReq 0 (rdReq 1)) := by decide +kernel
theorem test_read_full : let c : Cmp := mkCmp (newAccess flow1 .read64 (.flow 1) 0) 0 false false false 0 0 0
    let s := flow1.modPort 2 (fun x => { x with cmpBuf := List.replicate 512 c })
    512 ≤ (s.port 2).cmpBuf.length ∧ checkReq s 0 (rdReq 2) = some stFlow ∧
    after (.read (rdReq 2)) s = received s 2 (encodeReq 0 (rdReq 2)) := by decide +kernel
theorem test_read_flow0 : checkReq flow1 0 (rdReq 0) ≠ none := by decide +kernel
theorem test_write_no_permission :
    checkReq (wr flow1 (keyHi 0 0) 0x01000001) 1 { rdReq 1 with len := 44 } = some stPermission := by decide +kernel
theorem test_atomics_accepted : checkReq flow1 2 { rdReq 1 with size := 0, len := 12 } = none ∧
    checkReq flow1 3 { rdReq 1 with size := 0, len := 12 } = none ∧
    checkReq flow1 4 { rdReq 1 with size := 0, len := 16 } = none ∧
    checkReq flow1 5 { rdReq 1 with size := 0, len := 16 } = none ∧
    checkReq flow1 1 { rdReq 1 with len := 44 } = none := by decide +kernel

/-- An access of flow 1 to line 0. -/
def acc (k : AccKind) : Access := { newAccess flow1 k (.flow 1) 0 with flow := 1, cls := 0 }
def waits1 : State := { flow1 with waiting := [acc .read64] }

theorem test_best_waiting : bestWaiting waits1 0 = some (acc .read64) ∧ accOrder waits1 (acc .read64) = .local ∧
    ((after (.waitRelease 0) waits1).tum 0).q.queue.map (·.stage) = [.needRd 1] ∧
    (after (.waitRelease 0) waits1).waiting = [] := by decide +kernel
/-- Two accesses of flow 1 wait, the second of greater urgency. -/
theorem test_arrive_waits : (bestWaiting { flow1 with
      waiting := [{ acc .read64 with urg := 3, id := 4 }, acc .read64] } 0).map (·.id) = some 4 := by decide +kernel

/-! ## Tumbler slots -/

/-- Tumbler 0 is online with a 64-byte read in its queue. -/
def queued : State := after (.waitRelease 0) waits1

theorem test_slot_activates : clocked queued 0 = true ∧ (queued.tum 0).mode.rate = .idle ∧ (queued.tum 0).training = none ∧
    (refreshStep (slotPrepared queued 0) 0).2 = false ∧ closeStep (slotPrepared queued 0) 0 = none ∧
    (accessStep (slotPrepared queued 0) 0).isSome = true ∧
    (bankAt (after (.commandSlot 0) queued) 0 0).openRow = some 0 ∧
    ((after (.commandSlot 0) queued).tum 0).dram.slot = 1 := by decide +kernel
theorem test_slot_idle : accessStep (slotPrepared online 3) 3 = none ∧ closeStep (slotPrepared online 3) 3 = none ∧
    (refreshStep (slotPrepared online 3) 3).2 = false := by decide +kernel
theorem test_slot_relock : clocked (tum3 (fun m => { m with rate := .relocking })) 3 = true := by decide +kernel
theorem test_slot_refresh : (refreshStep (slotPrepared (putSet online 3 0 0 { RefSet.init with debt := 8 }) 3) 3).2 = true
    := by decide +kernel
theorem test_slot_closes : (closeStep (putBank online 3 0 { Bank.init with openRow := some 4, closing := true }) 3).isSome
    = true := by decide +kernel
theorem test_candidates : (∀ a ∈ (queued.tum 0).q.queue, a.tum.val = 0) ∧ candidates queued 0 ≠ [] ∧
    candidates online 3 = [] := by decide +kernel
theorem test_candidates_aged : (candidates (setDram (setQ queued 0 (fun q => { q with
      queue := q.queue.map (fun a => { a with urg := 3 }) })) 0 (fun d => { d with slot := 100000 })) 0).all
        (fun c => aged queued { c.1 with urg := 3 }) = true := by decide +kernel

theorem test_refresh_due : scheduled online 3 = true ∧ refreshed online 3 0 = true ∧ (0 : Nat) + 1 ≤ limitOf online 3 0 ∧
    (setOf (after (.refreshDue 3 0 1) online) 3 0 1).debt = 1 ∧
    (setOf (after (.refreshDue 3 0 1) online) 3 0 1).due = 1872000 := by decide +kernel
theorem test_refresh_late : limitOf online 3 0 < 8 + 1 ∧ (online.tum 3).mode.paying = false ∧
    statBit (after (.refreshDue 3 0 0) (putSet online 3 0 0 { RefSet.init with debt := 8 })) (.tum 3) 5 = true := by
  decide +kernel
theorem test_refresh_wake :
    let s := putSet (tum3 (fun m => { m with state := .light })) 3 0 0 { RefSet.init with debt := 7 }
    tstate s 3 = .light ∧ (s.tum 3).mode.wake = .no ∧ (0, 0) ∈ setsOf s 3 ∧
    limitOf s 3 0 ≤ (setOf s 3 0 0).debt + 1 ∧ tstate (after (.refreshWake 3) s) 3 = .online := by decide +kernel
theorem test_row_limit :
    let s := putBank online 3 5 { Bank.init with openRow := some 9 }
    bankOf 0 1 1 = 5 ∧ (bankAt s 3 5).openRow.isSome = true ∧ idleRow s 3 0 1 1 = true ∧
    (bankAt (after (.trasmaxExpiry 3 0 1 1) s) 3 5).closing = true ∧
    (bankAt (after (.idleClose 3 0 1 1) s) 3 5).closing = true := by decide +kernel
theorem test_throttle_end :
    let e : Throttle := { src := .flow 1, bank := 0, gap := 0, lastAct := 0, alertWin := 5 }
    let s (n : Nat) : State := { online.modTum 3 (fun x => { x with throttle := [e] }) with now := BitVec.ofNat 64 (200000 * n) }
    ((after (.throttleEnd 3) (s 6)).tum 3).throttle = [e] ∧ ((after (.throttleEnd 3) (s 7)).tum 3).throttle = [] := by
  decide +kernel
theorem test_cwc_expiry :
    let e : CwcEntry := { word := 0, count := 1, first := 10, watch := none }
    let s (n : Nat) : State := { online.modTum 3 (fun x => { x with cwc := [e] }) with now := BitVec.ofNat 64 n }
    ((after (.cwcWindowExpiry 3) (s (9 + cwcWindow))).tum 3).cwc = [e] ∧
    ((after (.cwcWindowExpiry 3) (s (10 + cwcWindow))).tum 3).cwc = [] := by decide +kernel

theorem test_light_entry :
    let s := setF online (tumReg 3 0x10) 16 16 1
    running s = true ∧ tstate s 3 = .online ∧ flag s (tumReg 3 0x10) 16 = true ∧ quietBit s 3 = false ∧ idleNow s 3 = true ∧
    debtPaid s 3 = true ∧ tstate (after (.lightEntry 3) s) 3 = .light := by decide +kernel
theorem test_wake_complete :
    let s := setMode online 3 (fun m => { m with state := .quiet, self := true, wake := .quiet })
    (s.tum 3).mode.wake ≠ .no ∧ (s.tum 3).mode.rate = .idle ∧ ((after (.wakeComplete 3) s).tum 3).mode.self = false ∧
    tstate (after (.wakeComplete 3) s) 3 = .online := by decide +kernel
theorem test_quiet_entry :
    let s := setF online (senReg 0x20) 3 3 1
    quietBit s 3 = true ∧ idleNow s 3 = true ∧ (s.tum 3).mode.wake = .no ∧
    tstate (after (.quietEntry 3) s) 3 = .quiet ∧ ((after (.quietEntry 3) s).tum 3).mode.self = true := by decide +kernel
theorem test_emergency_entry :
    let s := tum3 (fun m => { m with emergency := true })
    noWrites s 3 = true ∧ ((after (.selfRefreshEntry 3) s).tum 3).mode.self = true := by decide +kernel
theorem test_emergency_exit :
    let s := tum3 (fun m => { m with self := true })
    mayExit s 3 = true ∧ ((after (.selfRefreshExit 3) s).tum 3).mode.self = false := by decide +kernel
theorem test_pwr_cfg : reaches online (tumReg 3 0x10) = true ∧
    fld (after (.pwrCfgWrite 3 0x10001) online) (tumReg 3 0x10) 16 0 = 0x10001 ∧
    fld (after (.pwrCfgWrite 3 0x10000) online) (tumReg 3 0x10) 15 0 = fld online (tumReg 3 0x10) 15 0 := by decide +kernel
theorem test_ref_cfg : reaches online (tumReg 3 0x20) = true ∧
    fld (after (.refCfgWrite 3 0x82) online) (tumReg 3 0x20) 7 4 = 8 ∧
    (tget zero (tget noLeaf (after (.refCfgWrite 3 0x582) (tum3 (fun m => { m with self := true }))).leaves 33).guard 3 : Nat) = 5 ∧
    fld (after (.refCfgWrite 3 0x82) online) (tumReg 3 0x20) 1 0 = 2 ∧
    fld (after (.refCfgWrite 3 0x93) online) (tumReg 3 0x20) 1 0 = fld online (tumReg 3 0x20) 1 0 ∧
    fld (after (.refCfgWrite 3 0x92) online) (tumReg 3 0x20) 7 4 = fld online (tumReg 3 0x20) 7 4 := by decide +kernel

/-! ## Bus rate and training -/

theorem test_rate_request :
    let s := setF online (tumReg 3 8) 8 8 1
    let r := rateOf s 3
    r ≠ 0 ∧ reaches s (tumReg 3 8) = true ∧ tstate (after (.rateReqWrite 3 0x100) s) 3 = .busy ∧
    ((after (.rateReqWrite 3 0x100) s).tum 3).mode.rate = .quiescing ∧ rateOf (after (.rateReqWrite 3 0x100) s) 3 = r := by
  decide +kernel
theorem test_rate_relock :
    let s := tum3 (fun m => { m with rate := .quiescing })
    quiet s 3 = true ∧ ((after (.rateQuiesced 3) s).tum 3).mode.rate = .relocking := by decide +kernel
theorem test_rate_done :
    let s := setF (setF (tum3 (fun m => { m with rate := .relocking })) (tumReg 3 8) 4 4 1)
      (tumReg 3 8) 1 0 1
    rateOf (after (.rateRelockDone 3) s) 3 = 1 ∧ ((after (.rateRelockDone 3) s).tum 3).mode.rate = .idle ∧
    flag (after (.rateRelockDone 3) s) (tumReg 3 8) 4 = false := by decide +kernel

/-- TRN_CTRL: D 8, operation 0, leaf 0. -/
def trn : Reg32 := 0x10001
def training : State := after (.trnStart 3 trn) online

theorem test_training_starts : reaches online (tumReg 3 0x100) = true ∧ bits trn.toNat 17 13 = 8 ∧
    (training.tum 3).training.isSome = true ∧ tstate training 3 = .busy ∧ flag training (tumReg 3 0x108) 0 = true := by
  decide +kernel
theorem test_training_offline_16 : tstate up 3 = .offline ∧
    ((after (.trnStart 3 0x20001) up).tum 3).training.isSome = true := by decide +kernel
theorem test_training_abort :
    let s := after (.trnAbort 3 0x10002) training
    (s.tum 3).training.map (·.abort) = some true ∧ quiet s 3 = true ∧ (s.tum 3).mode.rate = .idle ∧
    flag s (tumReg 3 8) 4 = false ∧ flag (after (.trnStepBoundary 3 0) s) (tumReg 3 0x108) 3 = true := by decide +kernel
theorem test_training_step :
    let s := wr training (tumReg 3 0x104) 0x10100
    ((after (.trnStepBoundary 3 0) s).tum 3).training.map (·.d) = some 1 := by decide +kernel
theorem test_training_end :
    let s := wr training (tumReg 3 0x104) 0x10000
    ((after (.trnStepBoundary 3 0) s).tum 3).training = none ∧
    flag (after (.trnStepBoundary 3 0) s) (tumReg 3 0x108) 1 = true := by decide +kernel

/-! ## Clears and sweeps -/

/-- REGION_CLEAR of the last region, keeping its MODE, and naming MODE 2. -/
def clr1 : Cmd := ringC 0x0200 0x1FFFF 0 0
def clrLocal : Cmd := ringC 0x0200 0x40FFC0 5 0

theorem test_clear_last : let s := regs (took clr1) [(rgnReg 65535, 0x7)]
    ready s clr1 0x0200 = true ∧ pairUp s = false ∧ clrFirst clr1 + clrCount clr1 = s.part.regions ∧ clrMode clr1 = none ∧
    partialGroup s 65535 1 none = false ∧ clearBusy s 65535 none = false ∧ localChange s 65535 none = false ∧
    rgnSweep s 65535 < 2 ∧ rgnEpoch (after (.regionClear clr1) s) 65535 = 1 ∧
    rgnSweep (after (.regionClear clr1) s) 65535 = 2 ∧ (after (.regionClear clr1) s).cmds.begun = [clr1] := by decide +kernel
theorem test_clear_owed : let s := regs (took clr1) [(rgnReg 65535, 0xB)]
    clearBusy s 65535 none = false ∧ rgnSweep s 65535 = 2 ∧ rgnEpoch (after (.regionClear clr1) s) 65535 = 3 ∧
    rgnSweep (after (.regionClear clr1) s) 65535 = 2 := by decide +kernel
theorem test_clear_group : let s := regs (took clrLocal) ((List.range 64).map (fun i => (rgnReg (65472 + i), 1)))
    ready s clrLocal 0x0200 = true ∧ clrMode clrLocal = some 2 ∧ partialGroup s 65472 64 (some 2) = false ∧
    (∀ i, i < 64 → clearBusy s (65472 + i) (some 2) = false) ∧ localChange s 65472 (some 2) = true ∧
    partialGroup s 65472 63 (some 2) = true := by decide +kernel
theorem test_clear_group_effect :
    let s := regs (took clrLocal) ((List.range 64).map (fun i => (rgnReg (65472 + i), 1)))
    (fld (after (.regionClear clrLocal) s) (rgnReg 65535) 9 0) = 0x20C := by decide +kernel

/-- A clear whose last region has passed its clear point. -/
def cleared (held : List Nat) : State :=
  { took clr1 with clears := [{ cmd := some clr1, held := held, passed := [65535], mode := none, refused := false }] }

theorem test_clear_done : (after (.regionClearDone 65535) (cleared [])).clears = [] ∧
    (after (.regionClearDone 65535) (cleared [])).cmds.taken = [] ∧
    (after (.regionClearDone 65535) (cleared [7])).clears.map (·.passed) = [[]] := by decide +kernel

/-- Region 5 is swept in tumbler 3. -/
def sweep5 (x : SweepT → SweepT) (sweep : Reg32) : State :=
  { regs online [(rgnReg 5, 0x2 ||| (sweep <<< 2))] with
      sweeps := [x { region := 5, tum := 3, started := true, ptr := 0, finished := false, late := false, startTime := 0, before := [] }] }

theorem test_sweep_start : let s := sweep5 (fun x => { x with started := false }) 1
    sweepIdx s 3 5 = some 0 ∧ s.sweeps.all (maySweep s 3) = true ∧
    ((after (.sweepStart 3 5) s).sweeps.map (·.started)) = [true] := by decide +kernel
theorem test_sweep_line : lineOpOk (sweep5 id 1) 3 = true ∧ lineBusy (sweep5 id 1) 3 20480 = false ∧ (sweepNext (sweep5 id 1)
    { region := 5, tum := 3, started := true, ptr := 0, finished := false, late := false, startTime := 0, before := [] }) = some (20480, false) ∧
    (sweepNext (sweep5 id 1)
    { region := 5, tum := 3, started := true, ptr := 4095, finished := false, late := false, startTime := 0, before := [] }) = some (24575, true) ∧
    sweepIdx (sweep5 id 1) 3 5 = some 0 ∧ wholeSlot (sweep5 id 1) 3 20480 = none ∧
    lineMay (sweep5 id 1) (lineAccess (sweep5 id 1) 3 20480 (placeOf (sweep5 id 1) 3 20480) .sweep false) = true := by
  decide +kernel
/-- A slot that holds line `x` whole. -/
def slotFor (x : Nat) : Slot :=
  { line := x, be := BitVec.allOnes 64, data := 7, epochs := 0, poison := 0, half := false, loc := ⟨0, 0, 0, 0⟩,
    src := .flow 1, cls := 0 }
theorem test_sweep_in_slot : let s := setQ (sweep5 id 1) 3 (fun q => { q with slots := [slotFor 20480] })
    lineBusy s 3 20480 = false ∧ wholeSlot s 3 20480 = some (slotFor 20480) ∧
    lineMay s (lineAccess s 3 20480 (placeOf s 3 20480) .sweep false) = true ∧
    (after (.sweepLine 3 5 []) s).sweeps.map (·.ptr) = [1] ∧ (after (.sweepLine 3 5 []) s).dram = s.dram := by decide +kernel
theorem test_sweep_wakes : let s := setMode (sweep5 id 1) 3 (fun m => { m with state := .light })
    lineOpOk s 3 = false ∧ after (.sweepLine 3 5 []) s = wakeTum s 3 := by decide +kernel
theorem test_sweep_finish : let s := sweep5 (fun x => { x with finished := true }) 1
    sweepOver s 5 = true ∧ rgnSweep s 5 = 1 ∧ rgnSweep (after (.sweepFinish 5) s) 5 = 0 ∧
    (after (.sweepFinish 5) s).sweeps = [] := by decide +kernel
theorem test_sweep_owed : let s := sweep5 (fun x => { x with finished := true }) 2
    sweepOver s 5 = true ∧ rgnSweep s 5 = 2 ∧ heldClear s 5 = false ∧ rgnSweep (after (.sweepFinish 5) s) 5 = 1 ∧
    (after (.sweepFinish 5) s).sweeps.length = 64 := by decide +kernel

theorem test_initial_sweep_line : let s := tum3 (fun m => { m with state := .initSweep })
    initOk s 3 = true ∧ (s.tum 3).mode.sweepPtr < tumLines s ∧ lineMay s (initAccess s 3) = true ∧ wholeSlot s 3 0 = none ∧
    ((after (.initialSweepLine 3) s).tum 3).mode.sweepPtr = 1 := by decide +kernel
theorem test_initial_sweep_end :
    let s := tum3 (fun m => { m with state := .initSweep, reinitPoison := true, sweepPtr := 268435456 })
    haspLive s = true ∧ s.power.fatal = false ∧ initOver s 3 = true ∧ (s.tum 3).mode.sweepPtr = tumLines s := by decide +kernel
theorem test_group_reinit :
    let x : Reinit := { group := 1023, regions := [65535], before := [], boot := false }
    let s : State := { allOnline with reinits := [x] }
    s.reinits.find? (fun x => x.group = (1023 : BitVec 10).toNat) = some x ∧ reinitReady s x = true ∧
    (∀ r ∈ x.regions, r < 65536) ∧ (after (.groupReinitDone 1023) s).reinits = [] ∧
    rgnEpoch (after (.groupReinitDone 1023) s) 65535 = 1 ∧ rgnSweep (after (.groupReinitDone 1023) s) 65535 = 0 := by
  decide +kernel

/-! ## Scrub, remap, leaf swap -/

theorem test_scrub_row : scrubAt online 3 0 = some (0, 0) ∧ lineOpOk online 3 = true ∧ scrubMay online 3 0 0 = true ∧
    running online = true ∧ lineOpOk (tum3 (fun m => { m with state := .light })) 3 = false ∧
    flag (setF online (tumReg 3 0x40) 8 8 1) (tumReg 3 0x40) 8 = true ∧
    (∀ c, c < 16 → lineBusy online 3 (rowLine (logicalOf online 3 0) 0 c) = false) ∧
    (activeSlices online 3).length * sliceRows = 2 ^ 24 := by decide +kernel
theorem test_scrub_last_row : scrubAt online 3 (2 ^ 24 - 1) = some (31, 524287) := by decide +kernel

/-- REMAP_ROW of row 5 in bank 3 of group 7 of leaf 31 in tumbler 3. -/
def rmp5 : Cmd := ringC 0x0202 0x500371F03 0 0

theorem test_remap_row : let s := tookIn online rmp5
    ready s rmp5 0x0202 = true ∧ rrLeaf rmp5 < s.part.leaves ∧ inSwap s (rrTum rmp5) (rrLeaf rmp5) = false ∧
    roleOf s (rrTum rmp5) (rrLeaf rmp5) = 0 ∧ serves s (rrTum rmp5) = true ∧
    remapFind s (rrTum rmp5) (rrLeaf rmp5) (rrGroup rmp5) (rrBank rmp5) (rrRow rmp5) 1 = none ∧ freeEntry s = some 0 ∧
    freeSpare s (rrTum rmp5) (rrLeaf rmp5) (rrGroup rmp5) (rrBank rmp5) = some 0 ∧
    rmpRow (after (.remapRow rmp5) s) 0 = 5 ∧ rmpState (after (.remapRow rmp5) s) 0 = 1 ∧
    rrGroup rmp5 = 7 ∧ rrBank rmp5 = 3 := by decide +kernel
/-- Its entry is in the copying state. -/
def copying : State := after (.remapRow rmp5) (tookIn online rmp5)
theorem test_remap_copy : running copying = true ∧ flag copying (rmpHi 0) 31 = true ∧ rmpState copying 0 = 1 ∧
    tstate copying (rmpTum copying 0) ≠ .latchOut ∧ copying.mramFenced = false ∧
    (∀ w, w < 8 → (decodeWord (getWord copying 3 ⟨31, 7, 3, 5⟩ 15 w)).cls = .clean) ∧
    physRow copying 3 31 7 3 5 = 5 ∧ lineOpOk copying 3 = true ∧
    remapMay copying 3 (remapLine copying 0) (remapSrc copying 0) (remapDst copying 0) = true ∧
    remapSrc copying 0 = ⟨31, 7, 3, 5⟩ ∧ remapDst copying 0 = ⟨31, 7, 3, 16384⟩ := by decide +kernel
/-- LEAF_SWAP of leaf 0 to leaf 32 in tumbler 3. -/
def lsw : Cmd := ringC 0x0203 0x2000 8 0
def swap3 (f : Swap → Swap) (state : Nat) : State :=
  let s := after (.leafSwap lsw) (tookIn online lsw)
  setSwapState (s.modTum 3 (fun x => { x with swap := x.swap.map f })) 3 state

theorem test_leaf_swap : let s := tookIn online lsw
    ready s lsw 0x0203 = true ∧ lsSrc lsw = 0 ∧ lsDst lsw = 32 ∧ lsMask lsw = [3] ∧
    (∀ k ∈ lsMask lsw, (swapChecks s (lsSrc lsw) (lsDst lsw) k).all (fun e => !e.1) = true) ∧
    roleOf (after (.leafSwap lsw) s) 3 32 = 2 ∧ swapState (after (.leafSwap lsw) s) 3 = 1 := by decide +kernel
theorem test_swap_copy : let s := swap3 id 1
    (s.tum 3).swap.isSome = true ∧ lineOpOk s 3 = true ∧ swapState s 3 = 1 ∧ copyBudget s 3 = true ∧
    (s.tum 3).swap.map (swapMay s 3) = some true ∧ (s.tum 3).swap.map swapNext = some 0 ∧ wholeSlot s 3 0 = none ∧
    (∀ k, k < 8 → (decodeWord (getWord s 3 (placeOn s 3 0 0) 0 k)).cls = .clean) := by decide +kernel
theorem test_swap_copy_slot : let s := setQ (swap3 id 1) 3 (fun q => { q with slots := [slotFor 0] })
    copyBudget s 3 = true ∧ (s.tum 3).swap.map (swapMay s 3) = some true ∧ wholeSlot s 3 0 = some (slotFor 0) ∧
    getWord (after (.swapCopyLine 3 []) s) 3 (placeRaw 32 0) 0 0 = encodeWord 7 0 := by decide +kernel
theorem test_swap_switch : let s := swap3 (fun w => { w with ptr := 8388608 }) 1
    running s = true ∧ serves s 3 = true ∧ swapState s 3 = 1 ∧ s.mramFenced = false ∧ leafMap (after (.swapSwitchPoint 3) s) 3 0 = 32 ∧
    roleOf (after (.swapSwitchPoint 3) s) 3 32 = 0 := by decide +kernel
theorem test_swap_retire : let s := swap3 id 2
    (∀ w, (s.tum 3).swap = some w → swapQuiet s 3 w = true) ∧ (s.tum 3).q.slots = [] ∧
    roleOf (after (.swapRetire 3) s) 3 0 = 3 ∧ (after (.swapRetire 3) s).pulses = [(0x83, 0)] := by
  refine ⟨?_, by decide +kernel⟩
  have : (swap3 id 2 |>.tum 3).swap.all (fun w => swapQuiet (swap3 id 2) 3 w) = true := by decide +kernel
  intro w h; rw [h] at this; exact this
/-- LEAF_SWAP_ABORT in tumbler 3. -/
def lsa : Cmd := ringC 0x0204 3 0 0
theorem test_swap_abort : let s := tookIn (swap3 id 1) lsa
    ready s lsa 0x0204 = true ∧ swapState s 3 = 1 ∧ swapState (after (.leafSwapAbort lsa) s) 3 = 3 ∧
    ((after (.leafSwapAbort lsa) s).tum 3).swap.map (·.aborts) = some [lsa] := by decide +kernel
theorem test_swap_abandoned : let s := swap3 id 3
    swapState s 3 = 3 ∧ roleOf (after (.swapAbandonDone 3) s) 3 32 = 1 ∧
    ((after (.swapAbandonDone 3) s).tum 3).swap = none := by decide +kernel

/-! ## Scans -/

/-- SCAN_START over bytes 0 to 63: elements equal to 5, all three outputs. -/
def scn : Cmd := ringX 0x0205 0 0 (leBytes 8 0 ++ leBytes 4 64 ++ [0, 7, 9, 0] ++ leBytes 4 1 ++ [1, 0, 0, 0] ++
  leBytes 8 0x40 ++ leBytes 8 0x80 ++ leBytes 4 16 ++ leBytes 4 0 ++ leBytes 8 0xC0 ++ leBytes 8 1 ++ leBytes 64 0 ++
  leBytes 8 5)

theorem test_scan_start : let s := tookIn flow1 scn
    let x := scanOf scn s.nextId
    ready s scn 0x0205 = true ∧ freeSlot s = some 0 ∧ isAdmin s scn = true ∧ scn.ext.length = 128 + 8 * pay scn 0x14 1 ∧
    scanReserved scn x = false ∧ x.count = 64 ∧ x.flow = 1 ∧ scanMisaligned x = false ∧
    (∀ r ∈ scanRanges x, r.1 + r.2 ≤ 2 ^ s.part.addrWidth) ∧ badPredicate x = false ∧ scanOverlap x = false ∧
    flowValid s 1 = true ∧ (∀ r ∈ regionsOf (x.base.toNat, colBytes x), scanPermitted s 0 r true = true) ∧
    (∀ r ∈ (outRanges x).flatMap regionsOf, scanPermitted s 0 r false = true) ∧ scanUnits s x = false := by decide +kernel
theorem test_scan_start_slot : ((after (.scanStart scn) (tookIn flow1 scn)).scan 0).map (·.phase) = some .running ∧
    (after (.scanStart scn) (tookIn flow1 scn)).cmds.taken = [] := by decide +kernel

/-- Scan 0 as it starts, changed by `f`. -/
def scan0 (f : Scan → Scan) : State :=
  flow1.setScan 0 (some (f { scanOf scn 0 with engines := [(0, { next := 0, done := false, begun := false })] }))
/-- SCAN_ABORT of slot 0. -/
def sca : Cmd := ringC 0x0206 0 0 0

theorem test_scan_abort : let s := tookIn (scan0 id) sca
    ready s sca 0x0206 = true ∧ (s.scan 0).map (·.phase) = some .running ∧ isAdmin s sca = true ∧
    ((after (.scanAbort sca) s).scan 0).map (·.status) = some 5 := by decide +kernel
theorem test_scan_line : (scan0 id).scan 0 = some { scanOf scn 0 with engines := [(0, { next := 0, done := false, begun := false })] } ∧
    nextLine (scan0 id) { scanOf scn 0 with engines := [(0, { next := 0, done := false, begun := false })] } 0 = some 0 ∧
    running (scan0 id) = true ∧ scanTurn (scan0 id) 0 = some 0 ∧ lineMay (scan0 id) (scanAccess (scan0 id) (scanOf scn 0) 0 0) = true ∧
    orderedOk (scan0 id) { scanOf scn 0 with engines := [(0, { next := 0, done := false, begun := false })] } 0 = true ∧
    rgnSweep (scan0 id) 0 ≠ 3 ∧ scanCheck (scan0 id) (scanOf scn 0) 0 true = none ∧ lineOpOk (scan0 id) 0 = true ∧
    lineBusy (scan0 id) 0 0 = false := by decide +kernel
theorem test_scan_line_latched : let s := setMode (scan0 id) 0 (fun m => { m with state := .latchOut })
    tstate s 0 = .latchOut ∧ ((after (.scanLineRead 0 0 []) s).scan 0).map (·.status) = some 4 := by decide +kernel
theorem test_scan_line_denied : let s := wr (scan0 id) (keyHi 0 0) 0x02000001
    scanCheck s (scanOf scn 0) 0 true = some 2 ∧ ((after (.scanLineRead 0 0 []) s).scan 0).map (·.status) = some 2 := by
  decide +kernel
/-- Every element has been looked at, number 63 is selected. -/
def scanned (f : Scan → Scan) : State := scan0 (fun x => f { x with
  engines := [(0, { next := 1, done := true, begun := true })], known := [(0, 0xFFFFFFFFFFFFFFFF)],
  selected := [(0, 0x8000000000000000)], idxQueue := [63], total := 1, sum := 5, min := some (5, 63), max := some (5, 63) })
theorem test_scan_bitmap : ((scanned id).scan 0).bind nextBitmap = some 0 ∧
    scanCheck (scanned id) (scanOf scn 0) (regionOf 0x40) false = none ∧
    ((after (.scanOutputWrite 0 true) (scanned id)).scan 0).map (·.bitmapDone) = some [0] := by decide +kernel
theorem test_scan_index : ((scanned id).scan 0).map (nextIndex (scanned id)) = some [63] := by decide +kernel
theorem test_scan_end : let s := scanned (fun x => { x with bitmapDone := [0], idxWritten := 1, idxQueue := [] })
    (s.scan 0).map scanComplete = some true ∧ (s.scan 0).map (·.outBusy) = some 0 ∧
    scanCheck s (scanOf scn 0) (regionOf 0xC0) false = none ∧
    ((after (.scanEnd 0) s).scan 0).map (·.phase) = some .recorded := by decide +kernel
theorem test_scan_end_denied : let s := wr (scanned (fun x => { x with phase := .ending, status := 5 })) (keyHi 0 0) 0x08000001
    scanCheck s (scanOf scn 0) (regionOf 0xC0) false ≠ none ∧
    ((after (.scanEnd 0) s).scan 0).map (·.noRecord) = some true := by decide +kernel
theorem test_scan_event : let s := scanned (fun x => { x with phase := .recorded })
    running s = true ∧ ((after (.scanCompletionEvent 0) s).scan 0).isNone = true ∧
    (after (.scanCompletionEvent 0) s).pulses.map (·.1) = [0x100] := by decide +kernel

/-! ## Ward -/

theorem test_window_start : haspLive online = true ∧ (online.tum 3).mode.everOnline = true ∧
    (online.tum 2).mode.everOnline = false ∧ fld up (wrdReg 0) 15 0 ≠ 0 := by decide +kernel
/-- The previous window had no guaranteed class; and one whose class 255 missed its floor in tumbler 3. -/
def evaluates (l : Tab Admitted) (r : List WardRec) : State := { online with ward := { Ward.init with
  dues := [{ start := 0, len := 1000, admitted := l, eff := [], pauses := [], waits := [], recs := r }] } }
theorem test_window_evaluation : haspLive (evaluates [] []) = true ∧ (after .windowEvaluation (evaluates [] [])).pulses = [] ∧
    (after .windowEvaluation (evaluates [] [])).ward.dues = [] := by decide +kernel
theorem test_window_begins : up.ward.begun = false ∧ (after .wardWindowStart up).ward.begun = true ∧
    after .wardWindowStart (after .wardWindowStart up) = after .wardWindowStart up := by decide +kernel

/-! ## Commands -/

/-- Class 255 had a floor of 100 and one access of 10 units that was not served in tumbler 3. -/
def missed : State := evaluates [(255, ⟨1, 0, 100, 0⟩)] [⟨0, 3, 255, 0, 10, none, false⟩]
theorem test_window_missed : (missed.ward.dues.all (fun d => missedIn missed d 3 255 ⟨1, 0, 100, 0⟩)) = true ∧
    flag (after .windowEvaluation missed) (wrdReg 0x301C) 31 = true ∧
    (after .windowEvaluation missed).pulses = [(0x283, 0)] := by decide +kernel

/-- NOP of initiator 5 on port 2. -/
def nopP : Cmd := { ringC 0 0 0 0 with src := .port 2, initiator := 5, chunks := some 18 }

theorem test_reply_ring : let s := { setF (took (ringC 0 0 0 0)) (ringReg 0 0) 0 0 1 with usb := { link := true, fenced := false, out := [], bar0 := [] } }
    s.cmds.dropped.contains (ringC 0 0 0 0) = false ∧ flag s (ringReg 0 0) 0 = true ∧ (s.ring 0).stopped = false ∧
    ((after (.nop (ringC 0 0 0 0)) s).ring 0).replies.map (fun r => (r.opcode, r.tag, r.status)) = [(0, 7, rcSuccess)] := by
  decide +kernel
theorem test_reply_port : (active2.port 2).link ≠ .off ∧ (active2.port 2).link ≠ .latchOut ∧
    ((reply (tookIn active2 nopP) nopP rcSuccess 0 []).port 2).rplQ.map (·.status) = [rcSuccess] := by decide +kernel
theorem test_reply_dropped : let s := { tookIn active2 nopP with cmds := { Cmds.init with taken := [nopP], dropped := [nopP] } }
    s.cmds.dropped.contains nopP = true ∧ ((reply s nopP rcSuccess 0 []).port 2).rplQ = [] := by decide +kernel
theorem test_cmd_packet : takesReq flow1 2 (encodeCmd nopP) = true ∧ 4 ≤ (nopP.chunks.getD 0).toNat ∧
    ((after (.cmd 2 nopP) flow1).port 2).cmdQ = [nopP] := by decide +kernel
theorem test_take : let s := up.setRing 0 { RingS.init with cmdQ := [ringC 0 0 0 0, ringC 0x55 0 0 0] }
    headOf s (.ring 0) = some (ringC 0 0 0 0) ∧ mayTake s (.ring 0) = true ∧ checkCommand s (ringC 0 0 0 0) = none ∧
    (after (.commandTake (.ring 0)) s).cmds.taken = [ringC 0 0 0 0] ∧
    checkCommand s (ringC 0x55 0 0 0) = some rcUnknownOpcode := by decide +kernel
theorem test_take_port : let s := flow1.modPort 2 (fun x => { x with cmdQ := [nopP] })
    headOf s (.port 2) = some nopP ∧ mayTake s (.port 2) = true ∧ checkCommand s nopP = none := by decide +kernel

/-- INIT_DEFINE of initiator 5 for ports 2 and 3, and for port 3 only. -/
def ini (ports : Word64) : Cmd := ringC 0x0100 (ports * 0x100000000 + 0x10005) 0 0
theorem test_init_define : ready (tookIn flow1 (ini 12)) (ini 12) 0x0100 = true ∧ openFlows flow1 = [1] ∧
    flwInit flow1 1 = p0 (ini 12) 11 0 ∧ bit (p0 (ini 12) 47 32) (flwPort flow1 1) = true ∧
    rd (after (.initDefine (ini 12)) (tookIn flow1 (ini 12))) (keyInit 5) = 0x8000000C := by decide +kernel
theorem test_init_in_use : bit (p0 (ini 8) 47 32) (flwPort flow1 1) = false ∧
    rd (after (.initDefine (ini 8)) (tookIn flow1 (ini 8))) (keyInit 5) = 0x80000004 := by decide +kernel
def adm : Cmd := ringC 0x0105 0x10FFF 0 0
theorem test_admin_set : ready (took adm) adm 0x0105 = true ∧ p0 adm 11 0 = 4095 ∧
    flag (after (.adminSet adm) (took adm)) (adminReg 127) 31 = true := by decide +kernel
/-- FLOW_OPEN of flow 262143 for initiator 5 on port 2 under key 0 in class 255. -/
def flo : Cmd := ringC 0x0101 0x0000000502000000 0xFF 0
def floMax : Cmd := ringC 0x0101 0x000000050203FFFF 0xFF 0
theorem test_flow_open : let s := tookIn flow1 floMax
    ready s floMax 0x0101 = true ∧ p0 floMax 17 0 = 262143 ∧ flwState s 262143 = 0 ∧
    initOn s (p0 floMax 43 32) (p0 floMax 27 24) = true ∧ flag s (keyHdr (p0 floMax 59 48)) 31 = true ∧
    flwState (after (.flowOpen floMax) s) 262143 = 1 ∧ flwClass (after (.flowOpen floMax) s) 262143 = 255 ∧
    p0 flo 17 0 = 0 := by decide +kernel
def flc : Cmd := ringC 0x0102 1 0 0
/-- Flow 1 closes with a request outstanding. -/
def closing : State := after (.flowClose flc) (setF (tookIn flow1 flc) (flwReg 1 2) 15 0 1)
theorem test_flow_close : ready (tookIn flow1 flc) flc 0x0102 = true ∧ flwState (tookIn flow1 flc) 1 ≠ 0 ∧
    flwState (after (.flowClose flc) (tookIn flow1 flc)) 1 = 0 ∧ flwState closing 1 = 2 ∧ closing.cmds.begun = [flc] := by
  decide +kernel
theorem test_flow_closed : let s := setF closing (flwReg 1 2) 15 0 0
    running s = true ∧ s.cmds.closing.find? (fun x => x.1.toNat == (1 : BitVec 18).toNat) = some (1, flc) ∧
    flwState (after (.flowCloseDone 1) s) 1 = 0 ∧ (after (.flowCloseDone 1) s).cmds.taken = [] := by decide +kernel

/-- KEY_DEFINE of key 4095: extent 7 is region 65535 with every permission. -/
def kdf : Cmd := ringX 0x0103 0xFFF 0 (List.replicate 56 0 ++ leBytes 8 0x3E0001FFFF)
theorem test_key_define : let s := tookIn flow1 kdf
    ready s kdf 0x0103 = true ∧ (∀ n, n < 8 → badExtent s (extWord kdf n) = false) ∧
    keyPerm (after (.keyDefine kdf) s) 4095 65535 = 31 ∧ keyPerm (after (.keyDefine kdf) s) 4095 65534 = 0 ∧
    fld (after (.keyDefine kdf) s) (keyHdr 4095) 7 0 = 1 := by decide +kernel
def krv : Cmd := ringC 0x0104 0 0 0
theorem test_key_revoke : let s : State := { tookIn flow1 krv with live := [(5, 1, 0)] }
    ready s krv 0x0104 = true ∧ (∃ x ∈ s.live, x.2.2.toNat = 0) ∧ keyPerm (after (.keyRevoke krv) s) 0 0 = 0 ∧
    (after (.keyRevoke krv) s).cmds.begun = [krv] := by decide +kernel
theorem test_key_done : let s : State := { after (.keyRevoke krv) { tookIn flow1 krv with live := [(5, 1, 0)] } with live := [] }
    (s.cmds.keyWait.find? (fun x => x.1.toNat == (0 : BitVec 12).toNat)).map (·.2.2) = some [5] ∧
    (after (.keyChangeDone 0) s).cmds.taken = [] := by decide +kernel

/-- CLASS_SET of class 1: priority 2, a reservation of 8 and a maximum of 512 in both. -/
def cls1 : Cmd := ringC 0x0300 0x201 0x0200000802000008 0
theorem test_class_set : let s := took cls1
    ready s cls1 0x0300 = true ∧ shareOk s 1 0 8 512 0 = true ∧ p1 cls1 25 16 = 512 ∧ p1 cls1 57 48 = 512 ∧
    shareOk s 1 4 8 513 0 = false ∧ fld (after (.classSet cls1) s) (wrdReg 0x1010) 1 0 = 2 ∧
    fld (after (.classSet cls1) s) (shareReg 1 0) 25 16 = 512 := by decide +kernel
/-- GUARANTEE_SET of class 1: a floor of 4, and of 4095. -/
def gar (f : Word64) : Cmd := ringC 0x0301 0x101 f 0
def shares : State := regs online [(shareReg 1 0, 0x02000008), (shareReg 1 4, 0x02000008)]
theorem test_guarantee : let s := tookIn shares (gar 4)
    ready s (gar 4) 0x0301 = true ∧ fld s (shareReg 1 0) 8 0 = 8 ∧ fld s (shareReg 1 4) 8 0 = 8 ∧
    fld (after (.guaranteeSet (gar 4)) s) (wrdReg 0x1010) 3 2 = 1 ∧ (after (.guaranteeSet (gar 4)) s).cmds.taken = [] := by
  decide +kernel
theorem test_guarantee_too_much : let s := tookIn shares (gar 4095)
    ready s (gar 4095) 0x0301 = true ∧ fld (after (.guaranteeSet (gar 4095)) s) (wrdReg 0x1010) 3 2 = 0 := by decide +kernel
def pln : Cmd := ringC 0x0302 0x00100000 0 0
theorem test_plan_set : ready (took pln) pln 0x0302 = true ∧ planBad (p0 pln 27 0) = false ∧
    mirrorLow (took pln) (p0 pln 27 0) = false ∧ planMirror (after (.planSet pln) (took pln)) = 16 ∧
    planBad (p0 (ringC 0x0302 0xCC 0 0) 27 0) = true := by decide +kernel

/-- MEM_READ and MEM_WRITE of two lines by flow 1. -/
def mem (op : BitVec 16) : Cmd := ringC op (0x8000000001) 0x40 0x1000
theorem test_mem_read : let s := tookIn flow1 (mem 3)
    ready s (mem 3) 0x0003 = true ∧ (memFails (mem 3)).all (fun e => !e.1) = true ∧ p0 (mem 3) 56 32 = 128 ∧
    (after (.memRead (mem 3)) s).waiting.map (fun a => (a.addr, a.kind)) = [(0x40, .read64), (0x80, .read64)] := by
  decide +kernel
theorem test_mem_write : let s := tookIn flow1 (mem 4)
    ready s (mem 4) 0x0004 = true ∧ (memFails (mem 4)).all (fun e => !e.1) = true ∧
    (after (.memWrite (mem 4) [5, 6]) s).waiting.map (fun a => (a.addr, a.kind, a.data)) = [(0x40, .write, 5), (0x80, .write, 6)] := by
  decide +kernel
/-- CSR_READ and CSR_WRITE of one register of the window of tumbler 3. -/
def csrR : Cmd := ringC 1 (BitVec.ofNat 64 (tumReg 3 0x10)) 1 0
def csrW : Cmd := ringX 2 (BitVec.ofNat 64 (tumReg 3 0x10)) 1 [5, 0, 1, 0, 0, 0, 0, 0]
theorem test_csr_read : ready (took csrR) csrR 0x0001 = true ∧ csrCountBad (p1 csrR 6 0) = false ∧
    csrRangeBad (p0 csrR 25 0) (p1 csrR 6 0) = false ∧ accessStatus up (tumReg 3 0x10) = 0 ∧
    inAperture (tumReg 3 0x10) = false ∧ (regDef up.part (tumReg 3 0x10)).isSome = true ∧ csrCountBad 65 = true ∧
    csrRangeBad 0x3FFFFFC 1 = false ∧ csrRangeBad 0x3FFFFFC 2 = true := by decide +kernel
theorem test_csr_write : ready (took csrW) csrW 0x0002 = true ∧ csrW.ext.length = 8 * ((p1 csrW 6 0 + 1) / 2) ∧
    fld (after (.csrWrite csrW) (took csrW)) (tumReg 3 0x10) 16 0 = 0x10005 := by decide +kernel

theorem test_latch_tick : let s := regs up [(cntReg 0, 0x8001FFFF)]
    running s = true ∧ flag s (cntReg 0) 31 = true ∧ s.dump.fenced = false ∧ s.dump.running = false := by decide +kernel
theorem test_latch_skipped : let s := { regs up [(cntReg 0, 0x8001FFFF)] with dump := { Dump.init with running := true, edges := [(625, [])] } }
    (after .latchTick s).dump.skipped = 1 := by decide +kernel
theorem test_dump_complete : let s := { up with dump := { Dump.init with running := true, n := 64 } }
    dumpQuiet s = true ∧ (after .dumpComplete s).dump.running = false ∧
    (after .dumpComplete s).pulses = [(0x288, 64)] := by decide +kernel
def cnc : Cmd := ringC 0x0600 0x1FFFF 1250 0
theorem test_cnt_config : ready (took cnc) cnc 0x0600 = true ∧ p0 cnc 15 0 < up.part.regions ∧ p1 cnc 31 0 = 1250 ∧
    dumpRegion (after (.cntConfig cnc) (took cnc)) = some 65535 ∧
    (after (.cntConfig cnc) { took cnc with dump := { Dump.init with running := true } }).dump.config = [cnc] := by
  decide +kernel
def tail1 : State := { up with logTail := [⟨1, 1, 0, 2, 2, false, false, false, 0, 1⟩] }
theorem test_log_flush : mramUp tail1 = true ∧ tail1.mramFenced = false ∧ tail1.logTail ≠ [] ∧
    (after (.logFlush true) tail1).logTail = [] ∧ (after (.logFlush true) tail1).logSeq = 1 ∧
    (after (.logFlush false) tail1).mram = [] := by decide +kernel
def lgr (n : Word64) : Cmd := ringC 0x0601 n 63 0
theorem test_log_read : let s := { took (lgr 0) with logSeq := 1 }
    ready s (lgr 0) 0x0601 = true ∧ p1 (lgr 0) 5 0 ≠ 0 ∧ min (p1 (lgr 0) 5 0) (s.logSeq.toNat - logHeld s 0) = 1 ∧
    (after (.logRead (lgr 0)) s).cmds.taken = [] ∧ ready (took (lgr 0)) (lgr 0) 0x0601 = true ∧
    (up.logSeq.toNat - logHeld up 0) = 0 := by decide +kernel
/-- EVENT_SUBSCRIBE for initiator 5 on port 2 to source 0x1FF. -/
def sub (on : Word64) : Cmd := ringC 0x0602 (on * 0x10000000000 + 0x2000501FF) 0 0
theorem test_subscribe : let s := tookIn flow1 (sub 1)
    ready s (sub 1) 0x0602 = true ∧ isAdmin s (sub 1) = true ∧ (adminSub s 0x1FF 5 2).all (fun e => !e.1) = true ∧
    subOf s 0x1FF 5 2 = none ∧ freeSub s = some 0 ∧ bit (sub 1).p0.toNat 40 = true ∧
    subOf (after (.eventSubscribe (sub 1)) s) 0x1FF 5 2 = some 0 := by decide +kernel
theorem test_unsubscribe : let s := tookIn (after (.eventSubscribe (sub 1)) (tookIn flow1 (sub 1))) (sub 0)
    ready s (sub 0) 0x0602 = true ∧ subOf s 0x1FF 5 2 = some 0 ∧ bit (sub 0).p0.toNat 40 = false ∧
    subOf (after (.eventSubscribe (sub 0)) s) 0x1FF 5 2 = none := by decide +kernel
theorem test_subscribe_user : userSub { sub 1 with src := .port 2, initiator := 5 } 0x1FF 5 2 = true ∧
    userSub { sub 1 with src := .port 2, initiator := 5 } 0x200 5 2 = false := by decide +kernel

/-! ## Units and power states -/

/-- A command of ring 0 for tumbler 3. -/
def unit3 (op : BitVec 16) (pre : Word64) : Cmd := ringC op (pre * 0x10000 + 0x300) 0 0

theorem test_disable : let c := unit3 0x0500 0
    let s := tookIn online c
    unitOf c = some (.tum 3) ∧ ready s c 0x0500 = true ∧ lastCore s (.tum 3) = false ∧ unitLatched s (.tum 3) = false ∧
    unitShutting s (.tum 3) = false ∧ inStart s (.tum 3) = false ∧ reenPend s (.tum 3) = false ∧
    unitShutting (after (.unitDisable c) s) (.tum 3) = true ∧ (after (.unitDisable c) s).cmds.begun = [c] := by decide +kernel
theorem test_disable_latched : let c := unit3 0x0500 0
    let s := tookIn (tum3 (fun m => { m with state := .latchOut })) c
    unitLatched s (.tum 3) = true ∧ lastCore s (.tum 3) = false ∧ (after (.unitDisable c) s).cmds.taken = [] := by decide +kernel
theorem test_enable : let c := unit3 0x0501 0
    let s := tookIn (tum3 (fun m => { m with state := .latchOut })) c
    ready s c 0x0501 = true ∧ unitFaulty s (.tum 3) = false ∧ inStart s (.tum 3) = false ∧
    mayNotPreserve s (.tum 3) false = false ∧ (after (.unitEnable c) s).cmds.starting = [(.tum 3, false)] := by decide +kernel
theorem test_enable_pending : let c := unit3 0x0501 1
    let s := tookIn (tum3 (fun m => { m with state := .shutting })) c
    unitShutting s (.tum 3) = true ∧ reenPend (after (.unitEnable c) s) (.tum 3) = true := by decide +kernel
theorem test_enable_faulty : let c := unit3 0x0501 0
    let s := tookIn (fault online (.tum 3) 5 0 1) c
    unitFaulty (setMode s 3 (fun m => { m with state := .latchOut })) (.tum 3) = true ∧ unitFaulty s (.tum 3) = true := by
  decide +kernel
theorem test_enable_running : let c := unit3 0x0501 0
    let s := tookIn online c
    unitLatched s (.tum 3) = false ∧ unitShutting s (.tum 3) = false ∧ unitFaulty s (.tum 3) = false ∧
    (after (.unitEnable c) s).cmds.taken = [] := by decide +kernel
theorem test_shutdown_ends : let s := after (.unitDisable (unit3 0x0500 0)) (tookIn online (unit3 0x0500 0))
    unitShutting s (.tum 3) = true ∧ shutOver s (.tum 3) = true ∧ reenPend s (.tum 3) = false := by decide +kernel
/-- UNIT_ENABLE of core 7 with its start in progress. -/
def enab : Cmd := ringC 0x0501 0x703 0 0
theorem test_start_done : let s := { up.setCore 7 { Core.init with state := .booting } with
      cmds := { Cmds.init with taken := [enab], begun := [enab], enabling := [(.core 7, false, enab)], starting := [(.core 7, false)] } }
    s.cmds.starting.find? (fun x => x.1 = .core 7) = some (.core 7, false) ∧ startOver s (.core 7) false = true ∧
    (∀ x ∈ s.cmds.disabling, x.1 ≠ .core 7) ∧ s.cmds.enabling.filter (fun x => x.1 = .core 7) = [(.core 7, false, enab)] ∧
    ((after (.unitStartDone (.core 7)) s).core 7).state = .running ∧ (after (.unitStartDone (.core 7)) s).cmds.taken = [] := by
  decide +kernel

def pws (code t p : Word64) : Cmd := ringC 0x0502 code t p
theorem test_power_state : let c := pws 2 0x8000000000000000 0x8000
    ready (took c) c 0x0502 = true ∧ p0 c 2 0 = 2 ∧ quietBit (after (.powerState c) (took c)) 63 = true ∧
    quietBit (after (.powerState c) (took c)) 62 = false ∧ flag (after (.powerState c) (took c)) (senReg 0x28) 15 = true := by
  decide +kernel
theorem test_power_hold : let c := pws 3 0xFFFFFFFFFFFFFFFF 0xFFFF
    let s := setF (took c) (senReg 0) 5 5 1
    ready s c 0x0502 = true ∧ bits c.p2.toNat 15 0 = 0xFFFF ∧ flag s (senReg 0) 5 = true ∧
    (after (.powerState c) s).power.holdAsked = true ∧ flag (took c) (senReg 0) 5 = false ∧
    (after (.powerState c) (took c)).power.holdAsked = false := by decide +kernel
theorem test_hold_stop : let s := { up with power := { up.power with holdAsked := true } }
    running s = true ∧ (after .holdStopPoint s).power.mode = .draining .powerState ∧
    flag (after .holdStopPoint s) (senReg 0) 6 = true ∧ ((after .holdStopPoint s).port 15).stopped = true := by decide +kernel

/-! ## Calibration -/

/-- CAL_RUN of a kind for a unit at a rate. -/
def cal (k u r : Word64) : Cmd := ringC 0x0503 (r * 0x10000 + u * 0x100 + k) 0 0

theorem test_cal_trim : let c := cal 0 33 0
    ready (took c) c 0x0503 = true ∧ p0 c 13 8 = 33 ∧ (calFails up 0 33 0).all (fun e => !e.1) = true ∧
    (List.range 16).all (zoneOk up 33 (List.replicate 48 0)) = true ∧
    (List.range 16).all (zoneOk up 33 (65 :: List.replicate 47 0)) = false := by decide +kernel
theorem test_cal_setpoint : let c := cal 1 7 0
    (calFails up 1 7 0).all (fun e => !e.1) = true ∧ setpointOk (setF up (senReg 0x11C) 27 16 925) 7 950 = true ∧
    setpointOk (setF up (senReg 0x11C) 27 16 924) 7 950 = false ∧
    fld (after (.calRun c [950]) (setF (took c) (senReg 0x11C) 27 16 925)) (senReg 0x11C) 11 0 = 950 := by decide +kernel
theorem test_cal_bus : let c := cal 2 3 2
    ready (tookIn online c) c 0x0503 = true ∧ p0 c 17 16 = 2 ∧ (calFails online 2 3 2).all (fun e => !e.1) = true := by decide +kernel
theorem test_cal_bus_limit : busOk online (List.replicate 1212 12) = true := by
  have e : ∀ k n, n < k → (List.replicate k (12 : Int)).getD n 0 = 12 := by
    intro k n h; simp [List.getD, h]
  simp only [busOk, List.all_eq_true, List.mem_range, decide_eq_true_eq]
  intro i h
  have h : i < 404 := h
  show 12 ≤ ((List.replicate 1212 (12 : Int)).getD (3 * i + 2) 0).toNat
  rw [e 1212 (3 * i + 2) (by omega)]
  decide
theorem test_cal_port : let c := cal 3 2 0
    let s := regs (tookIn active2 c) [(fpReg 2 8, 0), (fpReg 2 0x10, 0x80000000), (fpReg 2 0x23C, 8)]
    (calFails s 3 2 0).all (fun e => !e.1) = true ∧ bit (rxLanes s 2) 15 = true ∧
    (∀ l, l < 16 → bit (rxLanes s 2) l = true → eqDefOk s 2 0 l (calEqCode s 2 l) = true) ∧ calEqCode s 2 15 = 8 ∧
    eqDefOk s 2 0 15 (fld s (fpReg 2 0x33C) 4 0 + 9) = false := by decide +kernel
def cst : Cmd := ringC 0x0504 0 0 0
def crs : Cmd := ringC 0x0505 0 0 0
theorem test_cal_store : ready (took cst) cst 0x0504 = true ∧ (took cst).mramFenced = false := by decide +kernel
theorem test_cal_restore_none : ready (took crs) crs 0x0505 = true ∧ bestCal (took crs) = none ∧
    (after (.calRestore crs) (took crs)).cmds.taken = [] := by decide +kernel
theorem test_bus_delay_step : let s := { online with calib := { Calib.init with busMoving := [3] } }
    haspLive s = true ∧ s.calib.busMoving.contains 3 = true := by decide +kernel
theorem test_speed_monitor : let s := { up with calib := { Calib.init with speed := [(63, 100), (2255, 100)] } }
    haspLive s = true ∧ 97 * 100 ≤ 100 * 103 ∧ 100 * 103 ≤ 103 * 100 ∧ 103 * 100 < 100 * 104 ∧
    after (.speedMonitorRead 63 103) s = s ∧
    rd (after (.speedMonitorRead 2255 104) s) (senReg 0x2C) = BitVec.ofNat 32 (2 ^ 31 + 2255) ∧
    after (.speedMonitorRead 64 104) s = s := by decide +kernel

/-! ## Firmware and rings -/

/-- An image of 20 bytes, loaded and committed in the slot that does not run. -/
def img : List Byte := leBytes 4 0x4F4B5351 ++ leBytes 4 7 ++ leBytes 4 20 ++ leBytes 4 0xFFFF ++ leBytes 4 0
def fwl : Cmd := ringX 0x0700 0 0 img
def fwc (n : Word64) : Cmd := ringC 0x0701 n (BitVec.ofNat 64 (byteCrc img)) 0
def fwa : Cmd := ringC 0x0702 0 0 0
def loaded : State := mramPut up (imgBase 1) img
def committed : State := after (.fwCommit (fwc 20) true) (tookIn loaded (fwc 20))

theorem test_fw_load : ready (took fwl) fwl 0x0700 = true ∧ p0 fwl 21 0 + fwl.ext.length ≤ 0x400000 ∧
    slotOther (took fwl) = 1 ∧ fld (after (.fwLoad fwl true) (took fwl)) fwStat 1 0 = 1 ∧
    cellGet (after (.fwLoad fwl true) (took fwl)).mram 0x400000 20 = img := by decide +kernel
theorem test_fw_commit : ready (tookIn loaded (fwc 20)) (fwc 20) 0x0701 = true ∧
    commitOk loaded 1 (p0 (fwc 20) 22 0) (p1 (fwc 20) 31 0) = true ∧ commitSeq loaded = 1 ∧
    commitOk loaded 1 (p0 (fwc 19) 22 0) (p1 (fwc 19) 31 0) = false ∧ imgSeq committed 1 = some 1 ∧
    committed.cmds.taken = [] := by decide +kernel
theorem test_fw_activate : let s := tookIn committed fwa
    ready s fwa 0x0702 = true ∧ newerImage s = true ∧ newerImage up = false ∧
    (after (.fwActivate fwa) s).update.map (·.next) = some 7 ∧ ready (took fwa) fwa 0x0702 = true := by decide +kernel
/-- The update has come to core `n`. -/
def updating (n : Nat) : State :=
  { committed with update := some { cmd := fwa, next := n, failed := 0, slot := true }, cmds := { Cmds.init with taken := [fwa], begun := [fwa] } }
theorem test_fw_core : running (updating 1) = true ∧ updatable (updating 1) 1 = true ∧
    ((after (.fwCoreRestart 1 true) (updating 1)).core 1).state = .running ∧
    (after (.fwCoreRestart 1 true) (updating 1)).update.map (·.next) = some 0 := by decide +kernel
theorem test_fw_core_last : updatable (updating 0) 0 = true ∧ (after (.fwCoreRestart 0 true) (updating 0)).update = none ∧
    fld (after (.fwCoreRestart 0 true) (updating 0)) fwStat 8 8 = 1 := by decide +kernel
theorem test_fw_rollback : updatable (updating 7) 7 = true := by decide +kernel
theorem test_core_restart : let s := wr (up.setCore 7 { Core.init with state := .running }) (coreReg 7 0) 0x1001
    reaches s (coreReg 7 4) = true ∧ takesSources s 7 = true := by decide +kernel

/-- Ring 0 of 64 slots runs, with `n` slots filled. -/
def ring0 (n : Reg32) : State :=
  { regs up [(ringReg 0 0, 0x601), (ringReg 0 0x14, n)] with usb := { link := true, fenced := false, out := [], bar0 := [] } }
theorem test_ring_enable : reaches up (ringReg 0 0) = true ∧ flag up (ringReg 0 0) 0 = false ∧
    bits (0x601 : Reg32).toNat 12 8 = 6 ∧ bits (0x1001 : Reg32).toNat 12 8 = 16 ∧
    flag (after (.ringEnWrite 0 0x601) up) (ringReg 0 0) 0 = true ∧
    rd (after (.ringEnWrite 0 0x1001) (wr up (ringReg 0 0x14) 9)) (ringReg 0 0x14) = 0 := by decide +kernel
theorem test_ring_disable : reaches (ring0 0) (ringReg 0 0) = true ∧ flag (ring0 0) (ringReg 0 0) 0 = true ∧
    bits (0x600 : Reg32).toNat 12 8 = fld (ring0 0) (ringReg 0 0) 12 8 ∧
    flag (after (.ringEnWrite 0 0x600) (ring0 0)) (ringReg 0 0) 0 = false := by decide +kernel
/-- The bytes of a command whose EXT has `n` bytes. -/
def cmdOf (n : Nat) : List Byte := [0, 0, 7, 0] ++ leBytes 2 n ++ [0, 0] ++ List.replicate 24 0 ++ List.replicate n 1
theorem test_ring_fetch : ringLive (ring0 1) 0 = true ∧ running (ring0 1) = true ∧ ringFilled (ring0 1) 0 = 1 ∧
    ringSlots (ringCmd 0 (cmdOf 32)).len.toNat = 1 ∧ ringSlots (ringCmd 0 (cmdOf 40)).len.toNat = 2 ∧
    ((after (.ringCommandFetch 0 (cmdOf 32)) (ring0 1)).ring 0).cmdQ.length = 1 ∧
    after (.ringCommandFetch 0 (cmdOf 40)) (ring0 1) = ring0 1 ∧
    64 < ringSlots (ringCmd 0 [0, 0, 7, 0, 0xFF, 0xFF]).len.toNat := by decide +kernel
theorem test_reply_write : let r := replyOf (ringC 0 0 0 0) rcSuccess 5 []
    let s := (ring0 0).setRing 0 { RingS.init with replies := [r] }
    ringLive s 0 = true ∧ replyRoom s 0 r.data.length = true ∧ ((after (.replyWrite 0) s).ring 0).replies = [] ∧
    fld (after (.replyWrite 0) s) (ringReg 0 0x1C) 16 0 = 1 := by decide +kernel
theorem test_dma_error : flag (after (.dmaError 0) (ring0 0)) (ringReg 0 0) 2 = true ∧
    flag (after (.dmaError 0) (ring0 0)) (ringReg 0 0) 0 = false := by decide +kernel
theorem test_usb4_loss : strikeLive (ring0 0) = true ∧ ((after .usb4LinkLoss (ring0 0)).ring 3).stopped = true ∧
    rd (after .usb4Reset (ring0 0)) (ringReg 0 0) = regReset .dq1024 (ringReg 0 0) := by decide +kernel

/-! ## Events -/

theorem test_accept_pulse : let s : State := { up with pulses := [(0x800, 5)] }
    haspLive s = true ∧ s.pulses.find? (fun e => e.1 = (0x800 : BitVec 12)) = some (0x800, 5) ∧
    isPending (after (.sourceAccept 0x800) s) 0x800 = true ∧ (after (.sourceAccept 0x800) s).pulses = [] ∧
    fld (after (.sourceAccept 0x800) s) (evcSrc 0x800 4) 15 8 = 1 := by decide +kernel
/-- A fault of severity 2 in tumbler 3 asserts its source. -/
def asserted : State := fault online (.tum 3) 3 0 1
theorem test_accept_level : asserted.pulses.find? (fun e => e.1 = (3 : BitVec 12)) = none ∧
    levelReady asserted 3 = true ∧ isPending (after (.sourceAccept 3) asserted) 3 = true := by decide +kernel
theorem test_event_packet : let s : State := { active2 with
      pulses := [(0x800, 5)], cmds := { Cmds.init with subs := [(0, some ⟨0x800, 5, 2, 9⟩)] } }
    (s.port 2).evtQ.length < 64 ∧
    ((after (.sourceAccept 0x800) s).port 2).evtQ.map (fun e => (e.source, e.count, e.data, e.seq)) = [(0x800, 1, 5, 9)] := by
  decide +kernel
theorem test_claim_core : let s := up.setCore 2 { Core.init with state := .asleep }
    haspLive s = true ∧ takesSources s 2 = true ∧ takesSources up 2 = false ∧
    (srcKind .dq1024 0x800).1 ≠ .level ∧ (srcKind .dq1024 3).1 = .level := by decide +kernel

theorem test_src_cfg : reaches up (evcSrc 3 0) = true ∧ bits (0x138 : Reg32).toNat 15 10 = 0 ∧
    (srcKind .dq1024 0x205).2 = true ∧ reaches up (evcSrc 0x205 0) = true ∧
    srcPrio (after (.evcSrcCfgWrite 3 0x138) up) 3 = 8 ∧ targetOf (after (.evcSrcCfgWrite 3 0x138) up) 3 = 3 ∧
    srcMasked (after (.evcSrcCfgWrite 3 0x138) up) 3 = true ∧
    fld (after (.evcSrcCfgWrite 0x205 0xFC00) up) (evcSrc 0x205 0) 15 10 = 63 := by decide +kernel
theorem test_eoi : let s := setF up (evcSrc 3 4) 1 1 1
    reaches s (evcReg 0) = true ∧ inService s 3 = true ∧ sourceLevel s 3 = false ∧
    inService (after (.evcEoi 3) s) 3 = false ∧ after (.evcEoi 0x800) s = s ∧ after (.evcEoi 4) s = s := by decide +kernel
theorem test_eoi_again : let s := setF asserted (evcSrc 3 4) 1 1 1
    inService s 3 = true ∧ sourceLevel s 3 = true ∧ isPending s 3 = false ∧ isPending (after (.evcEoi 3) s) 3 = true := by
  decide +kernel
theorem test_raise : reaches up (evcReg 4) = true ∧ (after (.evcSwRaise 0x800) up).pulses = [(0x800, 0)] ∧
    (after (.evcSwRaise 0x7FF) up).pulses = [] ∧ statBit (after (.evcSwRaise 0x7FF) up) .evc 0 = true := by decide +kernel
theorem test_cnt_clr : let s := setF up (evcSrc 3 4) 15 8 255
    reaches s (evcSrc 3 4) = true ∧ fld (after (.cntClr 3 0x80000000) s) (evcSrc 3 4) 15 8 = 0 := by decide +kernel

/-! ## Faults -/

theorem test_record : (3 : Nat) < classCount (.tum 3) ∧ shadowOf online (.tum 3) 3 = none ∧
    (record online (.tum 3) 3 0 1).2 = 2 ∧ (record (record online (.tum 3) 3 0 1).1 (.tum 3) 3 0 1).2 = 3 ∧
    (record online (.tum 3) 3 0 1).1.logTail.map (·.bseq) = [1] := by decide +kernel
/-- The shadow of a Fatal stop, with nothing seen and with class 3 of tumbler 3. -/
def shadowed (l : List (FltSet × Nat)) : State := { online with shadows := [{ owner := .xbar, seen := l, fatal := true }] }
theorem test_record_consequential : shadowOf (shadowed []) (.tum 3) 3 = some (0, false) ∧
    shadowOf (shadowed [(.tum 3, 3)]) (.tum 3) 3 = some (0, true) ∧ (record (shadowed []) (.tum 3) 3 0 1).2 = 0 ∧
    (record (shadowed []) (.tum 3) 3 0 1).1.logTail.map (·.conseq) = [true] ∧
    (record (shadowed [(.tum 3, 3)]) (.tum 3) 3 0 1).1.logTail = [] := by decide +kernel
theorem test_react : tstate online 3 ≠ .shutting ∧ tstate online 3 ≠ .latchOut ∧
    tstate (react online (.tum 3) 5 3) 3 = .shutting ∧ react online (.tum 3) 3 2 = online ∧
    (up.eng 3).state = .up ∧ ((react up (.scan 3) 2 3).eng 3).state = .shutting := by decide +kernel
theorem test_react_core : let s := up.setCore 2 { Core.init with state := .running }
    (s.core 2).state ≠ .shutting ∧ (s.core 2).state ≠ .latchOut ∧ s.power.mode = .on ∧ s.power.fatal = false := by decide +kernel
theorem test_detected : setLive online (.tum 3) = true ∧ alreadyHeld online (.tum 3) 4 = false ∧
    alreadyHeld (fault online (.tum 3) 4 0 1) (.tum 3) 4 = true ∧
    statBit (after (.faultDetected (.tum 3) 3 0 1) online) (.tum 3) 3 = true := by decide +kernel
theorem test_ack : reaches asserted (fltBase (.tum 3)) = true ∧ statBit asserted (.tum 3) 3 = true ∧
    alreadyHeld asserted (.tum 3) 3 = false ∧ statBit (after (.fltStatAck (.tum 3) 8) asserted) (.tum 3) 3 = false ∧
    statBit (after (.fltStatAck (.tum 3) 4) asserted) (.tum 3) 3 = true := by decide +kernel
theorem test_ack_condition : let s := fault online (.tum 3) 4 0 1
    statBit (after (.fltStatAck (.tum 3) 16) s) (.tum 3) 4 = true := by decide +kernel
theorem test_shadow_end : let s : State := { online with shadows := [{ owner := .tum 3, seen := [(.tum 3, 3)], fatal := false }] }
    (s.shadows.find? (fun e => e.owner = .tum 3 && !e.fatal)).isSome = true ∧ shadowOver s (.tum 3) = true ∧
    (∀ e ∈ [((FltSet.tum 3), 3)], alreadyHeld s e.1 e.2 = false) ∧ (after (.shadowEnd (.tum 3)) s).shadows = [] ∧
    shadowOver (setMode s 3 (fun m => { m with state := .shutting })) (.tum 3) = false := by decide +kernel

/-! ## Register accesses -/

theorem test_reserved_offset : (0x3FFFFFC : Nat) % 4 = 0 ∧ inAperture 0x3FFFFFC = false ∧
    regDef .dq1024 0x3FFFFFC = none ∧ readCsr up 0 0x3FFFFFC = (up, 0, rcSuccess) := by decide +kernel
theorem test_reg_bits : let d := (regDef .dq1024 0x10).getD {}
    (d.rw ||| d.rwl ||| d.w1c ||| d.w1s) < 2 ^ 32 ∧ (d.rw ||| d.rwl) &&& d.w1c = 0 ∧ (d.rw ||| d.rwl) &&& d.w1s = 0 ∧
    d.w1c &&& d.w1s = 0 ∧ d.rw &&& d.rwl = 0 ∧ written { rw := 1, w1c := 2, w1s := 4, rwl := 8 } true 0xA 0xF 0 = 0xD := by
  decide +kernel
theorem test_time_lo : let s : State := { up with now := 0x0000000500000007 }
    sentinelUp s = true ∧ tget zero (after (.timeLoRead 8) s).readOut 8 = 7 ∧
    shownOn (after (.timeLoRead 8) s) 8 0x24 = 5 ∧ tget noShadow s.shadow (shadowKey 8 0x20) = none := by decide +kernel
theorem test_register_write : accessStatus online (tumReg 3 0x20) = rcSuccess ∧ inAperture (tumReg 3 0x20) = false ∧
    (regDef online.part (tumReg 3 0x20)).isSome = true ∧ accessStatus online 2 = rcBadAlign ∧
    fld (after (.registerWrite 8 0x2 5) online) (accStat 8) 15 0 = rcBadAlign.toNat := by decide +kernel
theorem test_gbl_lock : locked (after (.gblLockSet 1) up) = true ∧
    rd (writeReg (after (.gblLockSet 1) up) (coreReg 2 0) 8) (coreReg 2 0) = rd up (coreReg 2 0) ∧
    fltAt .dq1024 0x10 = none ∧ (regDef .dq1024 0x10).isSome = true := by decide +kernel
theorem test_bar0 : strikeLive up = true ∧ up.usb.fenced = false ∧ accessStatus up 0x40 = rcSuccess ∧
    (regDef up.part 0x40).isSome = true ∧ (regDef up.part 0x44).isSome = true ∧
    (after (.bar0Access 0x40 4 none) up).usb.bar0 = [rd up 0x40] ∧ (after (.bar0Access 0x40 8 none) up).usb.bar0 = [rd up 0x40, rd up 0x44] ∧
    (after (.bar0Access 0 2 none) up).usb.bar0 = [0] ∧
    rd (after (.bar0Access 0 2 none) up) (accStat 8) = BitVec.ofNat 32 (2 ^ 31 + 0x104) := by decide +kernel
theorem test_bar0_fenced : let s : State := { up with usb := { up.usb with fenced := true } }
    (after (.bar0Access 0 4 none) s).usb.bar0 = [0] ∧ rd (after (.bar0Access 0 4 none) s) (accStat 8) = 0x80000500 := by
  decide +kernel

/-! ## Power, resets, bring-up -/

/-- `up` with its power changed. -/
def pow (f : Power → Power) : State := { up with power := f up.power }

theorem test_brown_out : sentinelUp up = true ∧ up.power.mode = .on ∧ slopeOn up = true ∧
    (after (.brownOut true) up).power.mode = .draining .brownOut ∧ flag (after (.brownOut true) up) (senReg 0xC) 1 = true ∧
    flag (after (.brownOut false) up) (senReg 0xC) 0 = true := by decide +kernel
theorem test_vin_high : shadowOf up .sen 2 = none ∧ statBit up .sen 2 = false ∧
    (after .vinHigh up).power.mode = .draining .vinHigh := by decide +kernel
theorem test_drain_tumbler : let s := pow (fun p => { p with mode := .draining .brownOut })
    draining s = true ∧ haspLive s = true ∧ noWrites s 63 = true ∧
    bit (after (.drainComplete 63) s).power.drained.toNat 63 = true := by decide +kernel
theorem test_commit : let s := pow (fun p => { p with mode := .draining .brownOut, drained := BitVec.allOnes 64 })
    haspLive s = true ∧ drainOver s = true ∧ s.power.wrstHeld = false ∧ entersHold s .brownOut = false ∧
    entersHold s .powerState = true := by decide +kernel
theorem test_vin_recovery : let s := pow (fun p => { p with mode := .retained .brownOut, haspUp := false, strikeUp := false })
    afterBrownOut s = true ∧ s.power.front = true ∧ flag s 0x28 2 = false ∧ (after .vinRecovery s).power.mode = .on ∧
    fld (after .vinRecovery s) 0x40 3 0 = 5 := by decide +kernel
theorem test_hold_exit : let s := pow (fun p => { p with mode := .hold .powerState true, haspUp := false, strikeUp := false })
    s.power.front = true ∧ s.power.fatal = false ∧ fld (after .holdExitVin s) 0x40 3 0 = 4 ∧
    (after .holdVinLow { s with power := { s.power with retain := true } }).power.retain = false ∧
    (after .frontStageStop s).power.mode = .hold .powerState true := by decide +kernel
theorem test_hold_ok : flag up (senReg 8) 8 = true ∧ condHolds up .sen 3 = false ∧
    flag (after (.holdOkChange true) up) (senReg 0) 5 = true ∧ statBit (after (.holdOkChange false) up) .sen 3 = true := by
  decide +kernel
theorem test_front_stage : (pow (fun p => { p with mode := .off })).power.mode = .off ∧
    (after .frontStageStart (pow (fun p => { p with mode := .off }))).power.mode = .on ∧
    (after .frontStageStop up).power.mode = .off ∧ (after .frontStageStart up).power.front = true := by decide +kernel
theorem test_rail_first : railReady State.reset = true ∧ railRowOf 0 = [7, 5] ∧
    (after .railSequenceStep State.reset).power.railsOn = 0xA0 := by decide +kernel
theorem test_rail_last : let s := pow (fun p => { p with railRow := 6, railsOn := 0xFE, strikeUp := false })
    railReady s = true ∧ (after .railSequenceStep s).power.strikeUp = true ∧
    flag (after .railSequenceStep s) (senReg 0) 7 = true ∧ railReady up = false := by decide +kernel
theorem test_ramp : let s := setF up (senReg 0x100) 27 16 797
    bit s.power.railsOn.toNat 0 = true ∧
    fld (after (.ivrRampStep 0) s) (senReg 0x100) 27 16 = rampTo 797 (fld s (senReg 0x100) 11 0) := by decide +kernel
theorem test_target : reaches up (senReg 0x100) = true ∧ railFrozen up 0 = false ∧ railLow 0 = 700 ∧ railHigh 0 = 850 ∧
    fld (after (.senIvrTargetWrite 0 700) up) (senReg 0x100) 11 0 = 700 ∧
    fld (after (.senIvrTargetWrite 0 850) up) (senReg 0x100) 11 0 = 850 ∧
    fld (after (.senIvrTargetWrite 0 851) up) (senReg 0x100) 11 0 = fld up (senReg 0x100) 11 0 := by decide +kernel
theorem test_refclk : flag up 0x28 2 = false ∧ (after .refclkLoss up).pulses = [(0x289, 0)] ∧
    flag (after .refclkLoss up) 0x28 2 = true ∧ flag (after .refclkReturn (after .refclkLoss up)) 0x28 2 = false := by
  decide +kernel
theorem test_quiet_bits : let s := setF (tum3 (fun m => { m with state := .quiet, self := true })) (senReg 0x20) 3 3 1
    reaches s (senReg 0x20) = true ∧ reaches s (senReg 0x28) = true ∧ tstate s 3 = .quiet ∧ (s.tum 3).mode.wake = .no ∧
    ((after (.quietBitWrite 0 0) s).tum 3).mode.wake = .quiet ∧
    fld (after (.quietBitWrite 2 0x8000) s) (senReg 0x28) 15 0 = 0x8000 := by decide +kernel

theorem test_porst : up.power.mode ≠ .off ∧ up.power.front = true ∧ (after .porstN up).power.porst = true ∧
    fld (after .porstN up) 0x40 3 0 = 1 := by decide +kernel
theorem test_wrst : up.power.wrstLow = false ∧ up.power.porst = false ∧ draining up = false ∧ retaining up = false ∧
    keptReg (senReg 0x20) = true ∧ keptReg (tumReg 0 0x10) = false ∧ counterReg (tumReg 0 0x10) = false := by decide +kernel
theorem test_wrst_held : let s := pow (fun p => { p with mode := .draining .brownOut })
    draining s = true ∧ (after .wrstN s).power.wrstHeld = true := by decide +kernel
theorem test_wrst_rise : let s := pow (fun p => { p with wrst := true, wrstLow := true })
    (after .wrstNRise s).power.wrst = false ∧ fld (after .wrstNRise s) 0x40 3 0 = 2 ∧
    fld (after .wrstNRise s) 0x44 3 0 = 1 ∧ s.power.railRow = 7 ∧
    (after .wrstNRise (pow (fun p => { p with wrstLow := true }))).power.wrstLow = false := by decide +kernel
theorem test_port_reset : strikeLive active2 = true ∧ (active2.port 2).link ≠ .latchOut ∧
    flag active2 (fpReg 2 0x8000) 0 = false ∧ flag (setF active2 (fpReg 2 0x8000) 0 0 1) (fpReg 2 0x8000) 0 = true ∧
    ((after (.portLogicReset 2) active2).port 2).link = .off ∧
    ((after (.portLogicReset 2) (setF active2 (fpReg 2 0x8000) 0 0 1)).port 2).link = .detect ∧
    ((after (.portLogicReset 2) active2).port 2).gen = 1 := by decide +kernel

/-- The boot is at stage `n`. -/
def atStage (n : Nat) : State := setF (pow (fun p => { p with haspUp := decide (1 < n), taking := false, groups := 0 })) 0x44 3 0 n
theorem test_boot_stages : booting (atStage 0) = true ∧ stage (atStage 0) = 0 ∧ booting (atStage 1) = true ∧
    stage (atStage 1) = 1 ∧ booting (atStage 2) = true ∧ stage (atStage 2) = 2 ∧ booting (atStage 3) = true ∧
    stage (atStage 3) = 3 ∧ (after .bootStage (atStage 0)).usb.link = true ∧ stage (after .bootStage (atStage 0)) = 1 := by
  decide +kernel
/-- Every region is usable and every tumbler online. -/
def bootedPower : Power := { up.power with groups := 15 }
def booted : State := { up with
  power := bootedPower
  tums := (List.range 64).map (fun t => (t, onlineTum))
  csr := (0x44, 4) :: (List.range 65536).map (fun r => (rgnReg r, 1)) }
theorem tget_map {α : Type} (d : Nat → α) (f : Nat → Nat) (v : α) (l : List Nat) (r : Nat) (h : r ∈ l) :
    tget d (l.map (fun r => (f r, v))) (f r) = v := by
  induction l with
  | nil => cases h
  | cons a l ih =>
    simp only [List.map_cons, tget]
    split
    · rfl
    · rename_i n
      exact ih (by
        cases h with
        | head => exact absurd rfl n
        | tail _ h => exact h)
theorem booted_power : booted.power = bootedPower := by rw [booted]
theorem booted_csr : booted.csr = (0x44, 4) :: (List.range 65536).map (fun r => (rgnReg r, 1)) := by rw [booted]
theorem booted_part : booted.part = .dq1024 := by rw [booted]; rfl
theorem booted_tums : booted.tums = (List.range 64).map (fun t => (t, onlineTum)) := by rw [booted]
theorem test_boot_over : stage booted = 4 ∧ booting booted = true ∧ bootOver booted = true := by
  have h : ∀ r, r < 65536 → rgnSweep booted r = 0 := by
    intro r h
    have e : rd booted (rgnReg r) = 1 := by
      unfold rd
      rw [booted_csr, tget, if_neg (by unfold rgnReg; omega)]
      exact tget_map _ rgnReg _ _ r (List.mem_range.2 h)
    unfold rgnSweep fld; rw [e]; decide
  have t : ∀ t, t < 64 → tstate booted t = .online := by
    intro t h
    have e : booted.tum t = onlineTum := by
      unfold State.tum
      rw [booted_tums]
      exact tget_map _ id _ _ t (List.mem_range.2 h)
    unfold tstate; rw [e]; rfl
  refine ⟨?_, ?_, ?_⟩
  · unfold stage fld rd
    rw [booted_csr, tget, if_pos rfl]; decide
  · unfold booting
    rw [booted_power]; decide +kernel
  · unfold bootOver
    rw [booted_power, booted_part]
    simp only [Bool.and_eq_true, List.all_eq_true, List.mem_range]
    refine ⟨⟨by decide +kernel, ?_⟩, ?_⟩
    · intro k hk
      rw [t k hk]; decide
    · intro r k
      rw [h r k]; decide
theorem test_group_start : let s := setF (pow (fun p => { p with groups := 1 })) 0x44 3 0 4
    running s = true ∧ stage s = 4 ∧ bit s.power.groups.toNat 0 = true ∧ bit s.power.groups.toNat 1 = false := by decide +kernel

/-- A zone of band 2 at 60 °C. -/
def zone60 (low : Option Nat) : Zone := { Zone.init with used := 60, band := 2, lowSince := low }
theorem test_band_falls : bandFor (zone60 none).used ≤ 2 ∧ bandLow 2 (zone60 none).used = true ∧
    (bandStep 7 (zone60 none)).lowSince = some 7 ∧ (bandStep 6256 (zone60 (some 7))).band = 2 ∧
    (bandStep 6257 (zone60 (some 7))).band = 1 ∧ bandFor 100 > 0 ∧
    (bandStep 7 { zone60 none with used := 100, band := 0 }).band = BitVec.ofNat 2 (bandFor 100) ∧
    bandLow 2 200 = false := by decide +kernel
theorem test_leaf_self : let s := (tum3 (fun m => { m with self := true })).modTum 3 (fun x => { x with sre := [33] })
    (33 : Nat) < s.part.leaves ∧ (s.tum 3).mode.self = true ∧ (s.tum 3).sre.contains 33 = true ∧
    (setOf (after (.leafSelfRefresh 33 0 0) s) 3 33 0).away = 1 := by decide +kernel

/-! ## Links -/

/-- Port 2 in a link state, with its physical part changed. -/
def phy2 (l : LinkState) (f : PhyS → PhyS) : State := up.modPort 2 (fun x => { x with link := l, phy := f x.phy })
def all16 (x : PhyS) : PhyS := { x with sensed := 0xFFFF, tested := 0xFFFF, rxHealthy := 0xFFFF, txHealthy := 0xFFFF }
/-- Port 2 carries flits on all lanes of both directions. -/
def wide2 : State := wr (phy2 .active all16) (fpReg 2 0x10) 0xFFFF0000

theorem test_link_enable : reaches up (fpReg 2 0x8000) = true ∧ (up.port 2).link = .off ∧ flag up (fpReg 2 4) 8 = false ∧
    ((after (.linkEnWrite 2 1) up).port 2).link = .detect ∧ (active2.port 2).link ≠ .latchOut ∧
    ((after (.linkEnWrite 2 0) active2).port 2).link = .off := by decide +kernel
theorem test_clock_lane_test : ((after (.clockLaneLoss 2) (link2 .test)).port 2).link = .test ∧
    flag (after (.clockLaneLoss 2) (link2 .test)) (fpReg 2 0x140) 4 = true := by decide +kernel
theorem test_retrain : bit (3 : Reg32).toNat 0 = true ∧ carries wide2 2 = true ∧
    ((after (.retrain 2 3) wide2).port 2).link = .retrain ∧ ((after (.retrain 2 3) wide2).port 2).phy.tested = 0xFFFF := by
  decide +kernel
theorem test_detect : strikeLive up = true ∧ ((after (.detectPoll 2 true 0x8001) (link2 .detect)).port 2).link = .clockLock ∧
    ((after (.detectPoll 2 false 0x8001) (link2 .detect)).port 2).link = .detect ∧
    ((after (.clockLock 2) (link2 .clockLock)).port 2).link = .trainKs1 ∧
    ((after (.clocklockTimeout 2) (link2 .clockLock)).port 2).link = .detect ∧
    ((after (.ks1Timeout 2) (link2 .trainKs1)).port 2).link = .detect := by decide +kernel
theorem test_ks2_timeout : let s (n : Nat) (r : BitVec 2) : State := phy2 .trainKs2 (fun x => { x with fails := n, rate := r })
    ((after (.ks2Timeout 2) (s 1 2)).port 2).phy.fails = 2 ∧ ((after (.ks2Timeout 2) (s 2 1)).port 2).phy.floor = 2 ∧
    ((after (.ks2Timeout 2) (s 2 1)).port 2).link = .trainKs1 ∧ ((after (.ks2Timeout 2) (s 2 2)).port 2).link = .detect := by
  decide +kernel
theorem test_lane_loss : bit (rxLanes wide2 2) 15 = true ∧ statBit wide2 (.port 2) 2 = false ∧
    ((after (.laneLoss 2 15) wide2).port 2).link = .retrain ∧ flag (after (.laneLoss 2 15) wide2) (laneStat wide2 2 15) 5 = true ∧
    ((after (.clockLaneLoss 2) wide2).port 2).link = .latchOut := by decide +kernel
theorem test_lane_test : let s := phy2 .retrain all16
    (s.port 2).phy.testEnded = false ∧ widthFrom s 2 0xFFFF ≠ 3 ∧ widthFrom s 2 0 = 3 ∧
    ((after (.retrainLaneTestEnd 2 0xFFFF 0xFFFF) s).port 2).phy.testEnded = true ∧
    ((after (.retrainLaneTestEnd 2 0 0xFFFF) s).port 2).link = .latchOut := by decide +kernel
theorem test_retrain_timeout : ((after (.retrainTimeout 2) (phy2 .retrain all16)).port 2).phy.second = true ∧
    ((after (.retrainTimeout 2) (phy2 .retrain (fun x => { x with second := true }))).port 2).link = .latchOut := by
  decide +kernel
/-- `s` with the LowPower step of port 2 changed. -/
def lp2 (s : State) (l : LpState) : State := s.modPort 2 (fun x => { x with lp := l })
theorem test_low_power : carries (lp2 wide2 .entering) 2 = true ∧
    ((after (.lowpowerEntry 2) (lp2 wide2 .entering)).port 2).link = .lowPower ∧
    ((after (.wakeRequest 2) (lp2 wide2 .entering)).port 2).lp = .none ∧
    ((after (.wakeRequest 2) (link2 .lowPower)).port 2).lp = .waking ∧
    ((after (.wakeRequest 2) ((lp2 wide2 .entering).modPort 2 (fun x => { x with ctlDue := some 3 }))).port 2).ctlDue = some 4 := by
  decide +kernel
theorem test_low_power_exit : let s := lp2 (wr (phy2 .lowPower all16) (fpReg 2 0x10) 0xFFFF0000) .waking
    rxCount s 2 = 16 ∧ txCount s 2 = 16 ∧ flag s (fpReg 2 8) 4 = false ∧ bit (rxLanes s 2) 15 = true ∧
    ((after (.lowpowerExitDone 2 0) s).port 2).link = .active ∧
    ((after (.lowpowerExitDone 2 0x8000) s).port 2).link = .retrain := by decide +kernel

/-- A KS1 whose fields are `b`, as lane 0 of port 2 receives it. -/
def ks1 (b : Nat) : KeySetBits := mkKeySet ks1Id b 0
theorem test_key_set_bad : let s := phy2 .trainKs1 all16
    inKeys s 2 = true ∧ bits (5 : KeySetBits).toNat 31 0 ≠ 2 ^ 32 - 1 - ks1Id ∧ readKeySet s 2 0 5 = none ∧
    bits (BitVec.ofNat 256 (2 ^ 32 - 1 - ks1Id)).toNat 31 0 = 2 ^ 32 - 1 - ks1Id ∧
    ((after (.keySetReceived 2 0 (BitVec.ofNat 256 (2 ^ 32 - 1 - ks1Id))) s).port 2).polInv = 1 := by decide +kernel
/-- A port role of 0 and version 1, as R283 asks of a partner. -/
theorem test_key_set : let s := phy2 .trainKs1 all16
    let k := ks1 (fld s (fpReg 2 0x8004) 1 0 * 2 ^ 36 + 2 ^ 44)
    (readKeySet s 2 0 k.toNat).map (·.1) = some 1 ∧ bits k.toNat 31 0 ≠ 2 ^ 32 - 1 - ks1Id ∧
    (readKeySet s 2 0 k.toNat).map (fun e => (bits e.2 37 36, bits e.2 47 44)) = some (fld s (fpReg 2 0x8004) 1 0, 1) ∧
    (tget (fun _ => LaneKs.init) ((after (.keySetReceived 2 0 k) s).port 2).ks 0).run = 1 := by decide +kernel
/-- Every lane of port 2 has received eight equal key sets of a kind with fields `d`. -/
def keyed (l : LinkState) (kind : Nat) (d : BitVec 256) (f : PhyS → PhyS) : State :=
  (phy2 l (fun x => f (all16 x))).modPort 2 (fun x => { x with ksSent := 16
                                                               ks := (List.range 16).map (fun i => (i, { kind := kind, fields := d, run := 8 })) })
theorem test_exchange_ks1 : let s := keyed .trainKs1 1 (BitVec.ofNat 256 (7 * 2 ^ 38)) id
    posMask s 2 0xFFFF = 0xFFFF ∧ keysDone s 2 1 0xFFFF = true ∧
    chooseRate s 2 (bits (firstKeys s 2 0xFFFF) 40 38) = some (max (fld s (fpReg 2 8) 1 0) (fld s (fpReg 2 0) 1 0)) ∧
    ((after (.keySetExchangeComplete 2) s).port 2).link = .trainSweep := by decide +kernel
theorem test_exchange_ks2 : let s := keyed .trainKs2 2 (BitVec.ofNat 256 (0xFFFF * 2 ^ 52)) id
    ks2Lanes s 2 = 0xFFFF ∧ keysDone s 2 2 (posMask s 2 (ks2Lanes s 2)) = true ∧
    widthFrom s 2 (bits (firstKeys s 2 0xFFFF) 67 52) = 0 ∧ bits (firstKeys s 2 0xFFFF) 69 68 = 0 ∧
    ((after (.keySetExchangeComplete 2) s).port 2).link = .active := by decide +kernel
/-- A training sweep of port 2 after its relock. -/
def sweep2 (f : PhyS → PhyS) : State := phy2 .trainSweep (fun x => f { all16 x with rated := true, relocked := true })
theorem test_train_relock : let s := sweep2 (fun x => { x with relocked := false })
    sweeping s 2 = true ∧ ((after (.trainRateRelock 2) s).port 2).phy.relocked = true := by decide +kernel
theorem test_train_step : sweeping (sweep2 id) 2 = true ∧ flag (sweep2 id) (fpReg 2 8) 4 = false ∧ 0 < sweepSteps (sweep2 id) 2 ∧
    ((after (.trainSweepStep 2 (List.replicate 16 5)) (sweep2 id)).port 2).phy.sweepStep = 1 ∧
    tget noBest ((after (.trainSweepStep 2 (List.replicate 16 5)) (sweep2 id)).port 2).phy.sweepBest 15 =
      (5, BitVec.ofNat 5 (sweepRange (sweep2 id) 2 15).1) := by decide +kernel
theorem test_train_pend : let s := setF (sweep2 id) (fpReg 2 8) 4 4 1
    flag s (fpReg 2 8) 4 = true ∧ ((after (.trainSweepStep 2 (List.replicate 16 5)) s).port 2).link = .trainKs1 := by
  decide +kernel
theorem test_train_end : let s := sweep2 (fun x => { x with
      sweepStep := 32
      sweepBest := (List.range 16).map (fun l => (l, (if l = 15 then 0 else 9, 3))) })
    sweepSteps s 2 ≤ 32 ∧ widthFrom s 2 0x7FFF ≠ 3 ∧
    ((after (.trainSweepStep 2 (List.replicate 16 5)) s).port 2).link = .trainKs2 ∧
    ((after (.trainSweepStep 2 (List.replicate 16 5)) s).port 2).phy.rxHealthy = 0x7FFF := by decide +kernel
theorem test_phy_rate : reaches wide2 (fpReg 2 8) = true ∧ ((after (.phyRateReqWrite 2 2) wide2).port 2).link = .retrain ∧
    fld (after (.phyRateReqWrite 2 2) up) (fpReg 2 8) 1 0 = 2 ∧ carries up 2 = false ∧
    fld (after (.phyRateReqWrite 2 3) up) (fpReg 2 8) 1 0 = fld up (fpReg 2 8) 1 0 := by decide +kernel

/-- Lane 15 of port 2 moves to code 31; the override of lane 14 holds code 0. -/
def eq2 : State := wr (phy2 .active (fun x => { x with eqTarget := [(15, some 31)] })) (fpReg 2 0x2B8) 0x100
theorem test_eq_move : eqGoal eq2 2 15 = some 31 ∧ 31 ≠ eqCode eq2 2 15 ∧ eqGoal eq2 2 13 = none ∧ eqGoal eq2 2 14 = some 0 ∧
    eqCode (after (.eqCodeMove 2 15) eq2) 2 15 = eqCode eq2 2 15 + 1 ∧ after (.eqCodeMove 2 13) eq2 = eq2 := by decide +kernel
theorem test_eq_override : reaches up (fpReg 2 0x2BC) = true ∧ eqHold (after (.eqOvrWrite 2 15 0x11F) up) 2 15 = true ∧
    fld (after (.eqOvrWrite 2 15 0x11F) up) (fpReg 2 0x2BC) 4 0 = 31 := by decide +kernel
theorem test_eq_override_test : let s := phy2 .test (fun x => { x with eqTarget := [(15, some 31)] })
    (after (.eqOvrWrite 2 15 0x11F) s).port 2 = s.port 2 := by decide +kernel
theorem test_eq_override_step : let s := setF (phy2 .active (fun x => { x with adapting := true, es := some (.active, 15) })) (fpReg 2 0x404) 4 0 17
    bit ((after (.eqOvrWrite 2 15 0x11F) s).port 2).phy.adaptSkip.toNat 15 = true ∧
    flag (after (.eqOvrWrite 2 15 0x11F) s) (fpReg 2 0x404) 4 = false := by decide +kernel
theorem test_adaptation : let s := wr (phy2 .active (fun x => { all16 x with adapting := true })) (fpReg 2 0x10) 0x80000000
    let m := fun n => List.replicate 16 ((0 : BitVec 9), (0 : BitVec 9), (300 : BitVec 9), (0 : BitVec 6), (n : BitVec 12))
    carries s 2 = true ∧ adapts s 2 15 = true ∧ adapts s 2 14 = false ∧
    eqCode (after (.adaptationStep 2 (m 1229)) s) 2 15 = eqCode s 2 15 + 1 ∧
    flag (after (.adaptationStep 2 (m 1228)) s) (laneStat s 2 15) 3 = true ∧
    eqCode (after (.adaptationStep 2 (m 1228)) s) 2 15 = eqCode s 2 15 := by decide +kernel
theorem test_upwidth : reaches wide2 (fpReg 2 4) = true ∧ ((after (.upwidth 2 1) wide2).port 2).link = .retrain ∧
    ((after (.upwidth 2 1) (phy2 .retrain all16)).port 2).phy.again = true ∧
    ((after (.adaptNow 2 2) wide2).port 2).phy.adapting = true ∧ ((after (.testModeWrite 2 0x100) up).port 2).link = .test ∧
    ((after (.testModeWrite 2 0) (link2 .test)).port 2).link = .off := by decide +kernel
/-- An aborted scan takes a free LOWDENS, so its state is not evaluated. -/
theorem test_eye_scan : reaches wide2 (fpReg 2 0x400) = true ∧ mayScan wide2 2 15 = true ∧
    flag wide2 (fpReg 2 0x404) 0 = false ∧ flag (after (.eyeScanStart 2 0x8A00000F) wide2) (fpReg 2 0x404) 0 = true ∧
    bits (0x8A00000F : Reg32).toNat 27 24 = 10 ∧ bit (0x40000000 : Reg32).toNat 31 = false ∧
    flag (after (.eyeScanStart 2 0x8A00000F) wide2) (fpReg 2 0x404) 4 = false := by decide +kernel
theorem test_eye_done : let s := after (.eyeScanStart 2 0x8A00000F) wide2
    (s.port 2).phy.es = some (.active, 0x8A00000F) ∧ flag s (fpReg 2 0x404) 4 = false ∧
    bits (0x8A00000F : Reg32).toNat 21 16 ≠ 32 ∧ rd (after (.eyeScanDone 2 [7] false) s) (fpReg 2 0x408) = 7 := by decide +kernel
theorem test_checker : reaches up (fpReg 2 0x500) = true ∧ bits (4 : Reg32).toNat 2 0 = 4 ∧
    rd (after (.pgClear 2 4) (wr (link2 .test) (fpReg 2 0x63C) 9)) (fpReg 2 0x63C) = 0 ∧
    rd (after (.pgClear 2 4) (wr up (fpReg 2 0x63C) 9)) (fpReg 2 0x63C) = 9 ∧
    fld (after (.pgClear 2 5) up) (fpReg 2 0x500) 2 0 = fld up (fpReg 2 0x500) 2 0 := by decide +kernel
/-- PRBS7 from all ones: x^7 + x^6 + 1 gives the bits 0, 0, 0, 0, 0, 0, 1, 0 of R286's register first. -/
theorem test_pattern : genStart 0 0 = 127 ∧ (genRun 0 0 8 127).1 = 0x40 ∧ (genBit 4 2 1) = (true, 2) ∧
    (checkRun 4 2 0 1 0 { sync := some false, direct := ⟨256, 1, 0, 0⟩, inverse := Search.init }).2 = (1, 1) := by decide +kernel
/-- Lanes 0 and 15 of port 2 drive PRBS7 in test mode. -/
def test2 : State := after (.testModeWrite 2 0x100) (regs up [(fpReg 2 0x500, 0x100), (fpReg 2 0x504, 0x8001)])
theorem test_pattern_slot : carries test2 2 = false ∧ inKeys test2 2 = false ∧ patternRuns test2 2 = true ∧ txLive test2 2 15 = true ∧
    txLive test2 2 14 = false ∧ bit ((after (.flitSlot 2) test2).port 2).lastTx.toNat (16 * 6) = true ∧
    bit ((after (.flitSlot 2) test2).port 2).lastTx.toNat (16 * 5) = false := by decide +kernel
theorem test_injection : reaches wide2 (fpReg 2 0x700) = true ∧ txLive wide2 2 15 = true ∧
    flag wide2 (fpReg 2 0x700) 16 = false ∧ flag (after (.injectionGo 2 0x1FF0F) wide2) (fpReg 2 0x700) 16 = true ∧
    ((after (.injectionMade 2) (after (.injectionGo 2 0x1FF0F) wide2)).port 2).phy.injLeft = 255 := by decide +kernel

/-! ## Flits -/

/-- A data flit for port 2 with header `h` and payload `pay` under number `n`, as it comes in. -/
def dflit (s : State) (h pay n : Nat) : Flit := BitVec.ofNat 512 ((mkFlit h pay n).toNat ^^^ (rxMask s 2).1)
theorem test_data_flit : takesFlits wide2 2 = true ∧
    ((after (.dataFlitReceived 2 (dflit wide2 0 0 ((wide2.port 2).rxLast + 1).toNat)) wide2).port 2).rxLast =
      (wide2.port 2).rxLast + 1 := by decide +kernel
theorem test_data_flit_bad : let s := wide2
    ((after (.dataFlitReceived 2 (dflit s 0 0 (((s.port 2).rxLast + 2).toNat))) s).port 2).discarding = true ∧
    ((after (.dataFlitReceived 2 (dflit s 0 0 (((s.port 2).rxLast + 2).toNat))) s).port 2).nakDue = true := by decide +kernel
/-- Class 0 of port 2 has been granted its last packet. -/
def granted2 : State := wide2.modPort 2 (fun x => { x with granted := [(0, 1)], got := [] })
theorem test_req_packet : let n := 4 + 8 * 2 ^ 6
    let pkt : List (BitVec 16) := toChunks 8 n
    withinGrant granted2 2 0 = true ∧ withinGrant wide2 2 0 = false ∧ mirrorRole granted2 2 = false ∧
    toChunks 29 n = pkt ++ List.replicate 21 0 ∧ bits (chunkNat pkt) 15 6 = 8 ∧ bits (chunkNat pkt) 65 62 ≤ 5 ∧
    ((after (.dataFlitReceived 2 (dflit granted2 0 n ((granted2.port 2).rxLast + 1).toNat)) granted2).port 2).rxPkts = [(0, usedBits pkt)] := by
  decide +kernel
/-- Port 2 holds flits 0 and 1. -/
def holding : State := wide2.modPort 2 (fun x => { x with replay := [⟨0, 0, 1⟩, ⟨1, 0, 1⟩], txNext := 2 })
def ctl (ok : Bool) : CtlFlit := ⟨0, 2047, 2048, 5, 2, ok⟩
theorem test_fc : ((holding.port 2).replay.map (·.seq)).Nodup ∧ mirrorRole holding 2 = false ∧
    ((after (.fc 2 0 (ctl true)) holding).port 2).replay = [⟨1, 0, 1⟩] ∧
    tget zero ((after (.fc 2 0 (ctl true)) holding).port 2).limit 0 = 2047 ∧
    tget zero ((after (.fc 2 0 (ctl true)) holding).port 2).limit 1 = tget zero (holding.port 2).limit 1 ∧
    after (.fc 2 0 (ctl false)) holding ≠ after (.fc 2 0 (ctl true)) holding := by decide +kernel
theorem test_fc_mirror : let s := setF holding (fpReg 2 0x8004) 1 0 1
    mirrorRole s 2 = true ∧ tget zero ((after (.fc 2 0 (ctl true)) s).port 2).limit 2 = 5 := by decide +kernel
theorem test_nak : (∀ h ∈ (holding.port 2).replay, h.sends < 4) ∧
    ((after (.nak 2 (ctl true)) holding).port 2).resend = [1] := by decide +kernel
theorem test_lp_answers : ((after (.lpAck 2 (ctl true)) (lp2 holding .asked)).port 2).lp = .entering ∧
    ((after (.lpDeny 2 (ctl true)) (lp2 holding .asked)).port 2).lp = .none ∧
    ((after (.lpReq 2 (ctl true)) wide2).port 2).ctlDue = some 3 ∧ linkQuiet (ctlFields (rxMask wide2 2).2 2 (ctl true)) 2 = true ∧
    linkQuiet (ctlFields (rxMask holding 2).2 2 (ctl true)) 2 = false ∧
    ((after (.lpReq 2 (ctl true)) (wide2.modPort 2 (fun x => { x with creditPkt := true }))).port 2).ctlDue = some 4 := by
  decide +kernel
theorem test_credit : tget zero ((after (.credit 2 2047 5 9) wide2).port 2).limit 0 = 2047 ∧
    tget zero ((after (.credit 2 2047 5 9) wide2).port 2).limit 1 = 5 ∧ nextPkt wide2 2 1 = none := by decide +kernel
theorem test_ks1_active : rxCount wide2 2 = 16 ∧ ((after (.ks1InActive 2 0xFF) wide2).port 2).link = .retrain ∧
    after (.ks1InActive 2 0x7F) wide2 = wide2 := by decide +kernel
theorem test_timers : let d := wide2.modPort 2 (fun x => { x with discarding := true })
    ((after (.nakTimeout 2) d).port 2).nakDue = true ∧ after (.nakTimeout 2) wide2 = wide2 ∧
    ((after (.ackTimeout 2) holding).port 2).resend = [0, 1] ∧
    ((after (.lpReqNoAnswer 2) (lp2 wide2 .asked)).port 2).lp = .none := by decide +kernel
theorem test_ack_gives_up : let s := wide2.modPort 2 (fun x => { x with replay := [⟨0, 0, 4⟩] })
    statBit s (.port 2) 7 = false ∧ ((after (.ackTimeout 2) s).port 2).link = .retrain := by decide +kernel
theorem test_lp_idle : let s := setF wide2 (senReg 0x28) 2 2 1
    linkQuiet s 2 = true ∧ flag s (senReg 0x28) 2 = true ∧ ((after (.lpIdleTimeout 2) s).port 2).lp = .asked ∧
    ((after (.creditPacketInsert 2) (wide2.modPort 2 (fun x => { x with creditDue := true }))).port 2).creditPkt = true ∧
    ((after (.urgencyUpdate 2) wide2).port 2).creditDue = true := by decide +kernel
theorem test_slot_nak : let s := wide2.modPort 2 (fun x => { x with nakDue := true })
    carries s 2 = true ∧ ((after (.flitSlot 2) s).port 2).nakDue = false := by decide +kernel
theorem test_slot_control : let s := lp2 (wide2.modPort 2 (fun x => { x with ctlDue := some 3 })) .acking
    ((after (.flitSlot 2) s).port 2).ctlDue = none ∧ ((after (.flitSlot 2) s).port 2).lp = .entering := by decide +kernel
theorem test_slot_replay : let s := holding.modPort 2 (fun x => { x with resend := [1] })
    ((after (.flitSlot 2) s).port 2).resend = [] ∧
    ((after (.flitSlot 2) s).port 2).replay.map (·.sends) = [1, 2] := by decide +kernel
theorem test_slot_data : let s := wide2.modPort 2 (fun x => { x with creditPkt := true })
    dataReady s 2 = true ∧ (s.port 2).replay.length < 512 ∧ ((after (.flitSlot 2) s).port 2).txNext = 1 ∧
    ((after (.flitSlot 2) s).port 2).replay.length = 1 := by decide +kernel
theorem test_slot_fc : dataReady wide2 2 = false ∧ ((after (.flitSlot 2) wide2).port 2).txNext = (wide2.port 2).txNext := by
  decide +kernel
theorem test_slot_keys : let s := phy2 .trainKs1 all16
    carries s 2 = false ∧ inKeys s 2 = true ∧ carries up 2 = false ∧ inKeys up 2 = false ∧ after (.flitSlot 2) up = up := by
  decide +kernel

/-! ## Pair -/

/-- Port 2 is a mirror port in use, MIRROR is 16, region 5 has EPOCH 2 and the pair engine is in a state. -/
def pair2 (st : PairState) (f : Pair → Pair) : State :=
  { regs active2 [(rgnReg 5, 2), (wrdReg 4, 0x100000), (fpReg 2 0x8004, 1), (pairReg 8, 0x40004)] with
      pair := f { Pair.init with state := st } }
def cmdIn (c : Cmd) (s : State) : State := { s with cmds := { Cmds.init with taken := [c] } }
def pfm : Cmd := ringC 0x0400 0x70003 0x8000 0

theorem test_pair_form : let s := wr (took pfm) (wrdReg 4) 0x100000
    ready s pfm 0x0400 = true ∧ s.pair.state = .unpaired ∧ popNat 16 (p1 pfm 15 0) = 1 ∧ planMirror s = 16 ∧
    (after (.pairForm pfm) s).pair.state = .forming ∧ flag (after (.pairForm pfm) s) (fpReg 15 0x8000) 0 = true := by
  decide +kernel
theorem test_pair_form_bad : (after (.pairForm pfm) (cmdIn pfm (pair2 .paired id))).cmds.taken = [] := by decide +kernel
theorem test_pair_form_timeout : let s := cmdIn pfm (pair2 .forming (fun x => { x with form := some pfm }))
    running s = true ∧ (after .pairFormTimeout s).pair.state = .unpaired ∧ rd (after .pairFormTimeout s) (pairReg 8) = 0 := by
  decide +kernel
def plv : Cmd := ringC 0x0401 0 0 0
/-- A packet that is held for its acknowledgement. -/
def heldP (ty : Nat) (sub : BitVec 4) (r : Nat) (n : BitVec 32) : HeldPkt :=
  { port := 2, ty := ty, pkt := ⟨8, sub, 0, n, BitVec.ofNat 40 (r * 2 ^ 24), 0, 0, []⟩, region := r, done := none }
theorem test_pair_leave : let s := cmdIn plv (pair2 .paired (fun x => { x with held := [heldP 0x14 6 0 1] }))
    ready s plv 0x0401 = true ∧ pairUp s = true ∧ s.pair.held ≠ [] ∧ owedByPartner s = false ∧
    owedByPartner (pair2 .paired (fun x => { x with holdHome := [(5, 2, plv)] })) = true ∧ (after (.pairLeave plv) s).pair.leave = some plv ∧
    pairUp (pair2 .solo id) = false ∧ (pair2 .solo id).pair.state ≠ .resyncTarget := by decide +kernel
def prs (one : Word64) : Cmd := ringC 0x0402 (0xFFFF00000000 * one + 0x10000 * one) 0 0
theorem test_resync : let s := cmdIn (prs 1) (pair2 .paired id)
    ready s (prs 1) 0x0402 = true ∧ resyncState s (prs 1) = true ∧ planMirror s = 16 ∧ p0 (prs 1) 47 32 = 65535 ∧
    65535 < s.part.regions ∧ dumpRegion s = none ∧ 65535 ∈ (after (.pairResync (prs 1)) s).pair.pending ∧
    (after (.pairResync (prs 1)) s).pair.state = .resyncSource ∧ resyncState (pair2 .unpaired id) (prs 1) = false := by
  decide +kernel
theorem test_rejoin : let s := cmdIn (prs 0) (pair2 .solo id)
    resyncState s (prs 0) = true ∧ p0 (prs 0) 16 16 = 0 ∧ s.pair.maps = [] ∧ 31 < s.part.regions / 2048 := by decide +kernel
def phs : Cmd := ringC 0x0201 0x2FFFF 0 0
theorem test_home_set : ready (took phs) phs 0x0201 = true ∧ p0 phs 15 0 = 65535 ∧ p0 phs 17 16 = 2 ∧
    fld (after (.pairHomeSet phs) (took phs)) (rgnReg 65535) 6 5 = 2 ∧
    fld (after (.pairHomeSet phs) (took phs)) (rgnReg 65535) 10 10 = 1 := by decide +kernel
theorem test_home_set_paired : let s := cmdIn phs (setF (pair2 .paired id) (rgnReg 65535) 10 10 0)
    rgnHomeEff s 65535 = pairMember s ∧ (after (.pairHomeSet phs) s).pair.holdHome = [(65535, 2, phs)] ∧
    (after (.pairHomeSet phs) (cmdIn phs (setF (pair2 .paired id) (rgnReg 65535) 10 10 1))).cmds.taken = [] := by decide +kernel
theorem test_heartbeat : let s := pair2 .paired id
    pairUp s = true ∧ bit (mirrorMask s) 2 = true ∧ carries s 2 = true ∧ ((after .helloHeartbeat s).port 2).pairQ.length = 1 := by
  decide +kernel
theorem test_partner_loss : let s := pair2 .paired (fun x => { x with held := [heldP 0x12 0 5 1] })
    s.pair.leave = none ∧ dumpRegion s = none ∧ (after .partnerLossTimeout s).pair.state = .solo ∧
    rgnDiverged (after .partnerLossTimeout s) 5 = true := by decide +kernel
theorem test_port_loss : let s := wr ((pair2 .paired id).modPort 2 (fun x => { x with link := .off })) (pairReg 8) 0xC000C
    flag s (pairReg 8) 18 = true ∧ mapPorts s = [2, 3] ∧ mirrorPorts s = [] ∧ (after (.mirrorPortLoss 2) s).pair.state = .solo := by
  decide +kernel
theorem test_port_loss_one : let u := ((pair2 .paired id).modPort 2 (fun x => { x with link := .off })).modPort 3 (fun x => { x with link := .active })
    let s := wr u (pairReg 8) 0xC000C
    mirrorPorts s = [3] ∧ (after (.mirrorPortLoss 2) s).pair.mapWait = some 2 ∧ mapPorts (after (.mirrorPortLoss 2) s) = [3] := by
  decide +kernel

/-- A packet in its turn on port 2, for region 5. -/
def pkt (len : BitVec 10) (sub : BitVec 4) (body : List (BitVec 16)) : PairPkt := ⟨len, sub, 0, 0, 0x5000000, 0, 0, body⟩
def inOrder (s : State) (k : PairPkt) : PairPkt := { k with pseq := tget noSeq s.pair.rxSeq 2 + 1 }

theorem test_fwd : let s := pair2 .paired id
    let k := inOrder s (pkt 10 2 [0x410, 0])
    takesPair s 2 = true ∧ inTurn s 2 k = true ∧ pairShape 0x11 k = true ∧
    (after (.fwd 2 k) s).pair.hands = [{ port := 2, ty := 0x11, pkt := k, done := false }] ∧ pairShape 0x11 (pkt 11 2 [0, 0, 0]) = false ∧
    flag (after (.fwd 2 (pkt 11 2 [0, 0, 0])) s) (fpReg 2 0x800C) 6 = true ∧
    after (.fwd 2 { k with pseq := k.pseq + 1 }) s = s := by decide +kernel
theorem test_fwd_unpaired : let s := pair2 .unpaired id
    takesPair s 2 = true ∧ after (.fwd 2 (pkt 10 2 [0x410, 0])) s = takePair s 2 0x11 (pkt 10 2 [0x410, 0]) := by decide +kernel
theorem test_replica : let s := pair2 .paired id
    let k := inOrder s { pkt 9 1 [0] with wmask := 0 }
    pairShape 0x12 k = true ∧ inTurn s 2 k = true ∧ dumpRegion s = none ∧
    (after (.replica 2 k) s).pair.hands = [{ port := 2, ty := 0x12, pkt := k, done := false }] := by decide +kernel
/-- The dump destination is left as it is. -/
theorem test_replica_dump : let s := wr (pair2 .paired id) (cntReg 0) 0x10005
    let k := inOrder s { pkt 9 1 [0] with wmask := 0 }
    pairShape 0x12 k = true ∧ dumpRegion s = some 5 ∧ (after (.replica 2 k) s).pair.hands = [] ∧
    tget noSeq (after (.replica 2 k) s).pair.rxSeq 2 = k.pseq := by decide +kernel
/-- A line of region 5 for tumbler 17, online: word 0 with data, word 1 not live. -/
def line5 (s : State) : PairPkt := inOrder s { pkt 41 0 (1 :: 9 :: List.replicate 31 0) with addr := 0x5000000 }
def target5 : State := setMode (pair2 .resyncTarget (fun x => { x with pending := [5] })) 17 (fun m => { m with state := .online, everOnline := true })
theorem test_resync_line : pairShape 0x15 (line5 target5) = true ∧ inTurn target5 2 (line5 target5) = true ∧
    lineOf target5 0x5000000 = (17, 20480) ∧ fencedHere target5 17 = false ∧ lineOpOk target5 17 = true ∧
    resyncMay target5 17 20480 true = true ∧ wholeSlot target5 17 20480 = none ∧ settledRegion target5 2 5 = true ∧
    dumpRegion target5 = none ∧ getWord (after (.resyncLine 2 (line5 target5)) target5) 17 (placeOf target5 17 20480) 0 0 = encodeWord 9 2 := by
  decide +kernel
theorem test_resync_wakes : let s := setMode target5 17 (fun m => { m with state := .light })
    lineOpOk s 17 = false ∧ after (.resyncLine 2 (line5 s)) s = wakeTum s 17 := by decide +kernel
theorem test_pair_ack : let s := pair2 .paired (fun x => { x with held := [heldP 0x14 6 0 1, heldP 0x14 6 0 2] })
    let k := { pkt 8 0 [] with pseq := 1 }
    pairShape 0x13 k = true ∧ seqLe 1 1 = true ∧ seqLe 2 1 = false ∧ (after (.pairAck 2 k) s).pair.held.map (·.pkt.pseq) = [2] := by
  decide +kernel
/-- HELLO of a partner: member 1, source 0. -/
def hello (s : State) (sub : BitVec 4) (leave : BitVec 16) (ids : BitVec 16) : PairPkt :=
  let v := fld s 0 31 4 * 16
  pkt 13 sub [BitVec.ofNat 16 v, BitVec.ofNat 16 (v / 65536), BitVec.ofNat 16 (fld s (pairReg 0) 31 16), ids, leave]
theorem test_hello_forms : let s := cmdIn pfm (pair2 .forming (fun x => { x with form := some pfm }))
    pairShape 0x10 (hello s 1 0 1) = true ∧ helloMatches s (hello s 1 0 1) = true ∧ helloMatches s (hello s 1 0 0) = false ∧
    (after (.hello 2 (hello s 1 0 0)) s).pair.state = .unpaired := by decide +kernel
theorem test_hello_paired : let s := pair2 .paired id
    pairShape 0x10 (hello s 0 1 1) = true ∧ (after (.hello 2 (hello s 0 1 1)) s).pair.state = .solo ∧
    pairShape 0x10 (hello s 0 0 1) = true ∧
    flag (after (.hello 2 (hello s 0 0 1)) (pair2 .solo id)) (pairReg 0x18) 1 = true := by decide +kernel
theorem test_clear_packet : let s := pair2 .paired (fun x => x)
    let k := inOrder s (pkt 9 0 [BitVec.ofNat 16 (rgnMode s 5)])
    let s := setF s (rgnReg 5) 10 10 1
    pairShape 0x14 k = true ∧ inTurn s 2 k = true ∧ clearsHere s 5 = false ∧
    localChange s 5 (some (BitVec.ofNat 2 (rgnMode s 5))) = false ∧ rgnSweep s 5 < 2 ∧ pktRegion k = 5 ∧ settledRegion s 2 5 = true ∧
    rgnEpoch (after (.clear 2 k) s) 5 = 3 ∧ (after (.clear 2 k) s).pair.held.map (·.pkt.sub) = [1] := by decide +kernel
theorem test_clear_ack : let s : State := { pair2 .paired id with
      clears := [{ cmd := some clr1, held := [5, 6], passed := [], mode := none, refused := false }] }
    let k := inOrder s (pkt 8 1 [])
    pairShape 0x14 k = true ∧ s.pair.leave = none ∧ (after (.clearAck 2 k) s).clears.map (fun x => (x.held, x.passed)) = [([6], [5])] := by decide +kernel
theorem test_home_packet : let s := pair2 .paired id
    pairShape 0x14 (inOrder s (pkt 9 2 [2])) = true ∧ fld (after (.home 2 (inOrder s (pkt 9 2 [2]))) s) (rgnReg 5) 6 5 = 2 := by
  decide +kernel
theorem test_home_ack : let s := cmdIn phs (pair2 .paired (fun x => { x with holdHome := [(5, 2, phs)] }))
    pairShape 0x14 (inOrder s (pkt 8 3 [])) = true ∧ (after (.homeAck 2 (inOrder s (pkt 8 3 []))) s).pair.holdHome = [] ∧
    (after (.homeAck 2 (inOrder s (pkt 8 3 []))) s).cmds.taken = [] := by decide +kernel
theorem test_resync_done : let s := pair2 .resyncTarget (fun x => { x with pending := [5] })
    s.pair.resync = none ∧ pairShape 0x14 (inOrder s (pkt 8 9 [])) = true ∧
    (after (.resyncDone 2 (inOrder s (pkt 8 9 []))) s).pair.state = .paired := by decide +kernel
theorem test_portmap : let s := pair2 .paired id
    pairShape 0x14 (inOrder s (pkt 8 4 [])) = true ∧ lostPortsClear s = true ∧
    pairShape 0x14 (inOrder s (pkt 24 5 (List.replicate 16 0))) = true ∧
    (after (.portmapAck 2 (inOrder s (pkt 24 5 (List.replicate 16 0)))) (pair2 .paired (fun x => { x with mapWait := some 3 }))).pair.mapWait
      = none := by decide +kernel
theorem test_fence : let s := pair2 .paired id
    pairShape 0x14 (inOrder s (pkt 12 6 [1, 0, 0, 0x8000])) = true ∧
    (after (.fence 2 (inOrder s (pkt 12 6 [1, 0, 0, 0x8000]))) s).pair.partnerFenced = 0x8000000000000001 := by decide +kernel
theorem test_unfence : let s := setF (pair2 .paired (fun x => { x with partnerFenced := 1 })) (rgnReg 5) 7 7 1
    pairShape 0x14 (inOrder s (pkt 13 7 [1, 0, 0, 0, 0])) = true ∧ rgnDiverged s 5 = true ∧ dumpRegion s = none := by decide +kernel
theorem test_map : let k := pkt 136 8 (1 :: List.replicate 127 0)
    let s := pair2 .solo id
    let k := inOrder s { k with addr := 0 }
    pairShape 0x14 k = true ∧ inTurn s 2 k = true ∧ bit (chunkNat k.body) 0 = true := by decide +kernel
theorem test_result : let a := newAccess (pair2 .paired id) .read64 (.flow 1) 0
    let s := pair2 .paired (fun x => { x with fwds := [(0, a)] })
    pairShape 0x16 (pkt 41 0 (4 :: List.replicate 32 0)) = true ∧ s.pair.fwds.find? (fun f => f.1 = 0) = some (0, a) ∧
    bits (4 : BitVec 16).toNat 3 0 = 4 ∧ (after (.resultReadData 2 (pkt 41 0 (4 :: List.replicate 32 0))) s).pair.fwds = [] := by decide +kernel
theorem test_result_reject : let s := pair2 .paired (fun x => { x with held := [heldP 0x12 0 5 1] })
    pairShape 0x16 (pkt 9 1 [4]) = true ∧ dumpRegion s = none ∧
    rgnDiverged (after (.resultReject 2 (pkt 9 1 [4])) s) 5 = true := by decide +kernel
def source5 : State := setMode (pair2 .resyncSource (fun x => { x with pending := [5] })) 0 (fun m => { m with state := .online, everOnline := true })
theorem test_resync_copy : (copyLeft source5 5 0).take 2 = [20480, 20481] ∧ lineOpOk source5 0 = true ∧
    resyncMay source5 0 20480 false = true ∧ pairRoom source5 5 = true ∧ wholeSlot source5 0 20480 = none ∧ source5.pair.mapWait = none ∧
    after (.resyncCopyLine 0 []) (pair2 .resyncSource id) = pair2 .resyncSource id := by decide +kernel

/-! ## I3C, the test port, and reads -/

theorem test_i3c_write : sentinelUp up = true ∧ (4 : Nat) ≤ up.i3c.mwl.toNat ∧ up.i3c.mwl.toNat = 8 ∧
    (after (.i3cPrivateWrite [0x40, 0, 0, 0]) up).i3c.pointer = 0x40 ∧
    fld (after (.i3cPrivateWrite [0x4C, 0, 0, 0, 5, 0, 0, 0]) up) 0x4C 2 0 = 5 ∧
    rd (after (.i3cPrivateWrite [0x10, 0, 0, 0, 1, 0, 0, 0]) up) 0x10 = rd up 0x10 := by decide +kernel
theorem test_i3c_read : let s := after (.i3cPrivateRead 8) (after (.i3cPrivateWrite [0x40, 0, 0, 0]) up)
    (8 : Nat) ≤ up.i3c.mrl.toNat ∧ s.i3c.out = leBytes 4 (rd up 0x40).toNat ++ leBytes 4 (rd up 0x44).toNat ∧
    s.i3c.pointer = 0x48 := by decide +kernel
theorem test_ccc : bit (1 : BitVec 8).toNat 0 = true ∧ (after (.enec 1) up).i3c.enabled = true ∧
    (after (.disec 1) (after (.enec 1) up)).i3c.enabled = false ∧
    (after (.setdasa (staticAddr up) 9) up).i3c.dynAddr = some 9 ∧ (after (.setdasa (staticAddr up + 1) 9) up).i3c.acked = false ∧
    (after (.setnewda 9) up).i3c.acked = false ∧ (after .rstdaa (after (.entdaa 9) up)).i3c.dynAddr = none ∧
    (after .getbcr up).i3c.out = [6] ∧ (after .getmwl (after (.setmwl 0x102) up)).i3c.out = [1, 2] := by decide +kernel
theorem test_test_port : up.power.mode ≠ .off ∧ (after .bypass up).jtag.instr = .bypass ∧
    (after (.extest 5) up).jtag.driving = true ∧ (after (.extest 5) (after (.gblLockSet 1) up)).jtag.driving = false ∧
    (after (.samplePreload 0x1FFF) up).jtag.boundary = 0x1FFF := by decide +kernel
/-- A 64-byte read of tumbler 0 whose line is on its way. -/
def reading : State := setQ flow1 0 (fun q => { q with
  flight := [{ acc := { newAccess flow1 .read64 (.flow 1) 0 with tum := 0, flow := 1, epoch := 1 }, sub := 0, loc := ⟨0, 0, 0, 0⟩,
               words := List.replicate 8 (encodeWord 5 1) }] })
theorem test_read_returns : ((reading.tum 0).q.flight.map (fun f => (f.sub, isRead f.acc, f.acc.tum, lineCount f.acc))) = [(0, true, 0, 1)] ∧
    (reading.tum 1).q.flight = [] := by decide +kernel
theorem test_read_clean : (reading.tum 0).q.flight.all (fun f => (List.range 8).all (fun w =>
    (decodeWord (f.words.getD w 0)).cls = .clean)) = true ∧ (after (.codeWordDecode 0 []) reading |>.port 2).cmpBuf = [] := by decide +kernel

end Sys2Proof.Tests
end

section
/-! PROOF. Registers: what a write makes of each bit, what reads and writes change, reserved offsets, the timebase, the
global lock and BAR0 (O10, O46, O47). -/

namespace Sys2Proof.Machine

open Sys2Proof

/-! ## Bits of a written register (R12, R13) -/

theorem testBit_allOnes {i : Nat} (hi : i < 32) : Nat.testBit 0xFFFFFFFF i = true := by
  rw [show 0xFFFFFFFF = 2 ^ 32 - 1 from rfl, Nat.testBit_two_pow_sub_one]
  exact decide_eq_true hi

/-- Bit by bit, a write takes `v` in the writable bits that are not rejected, clears W1C bits and sets W1S bits
(R12, R13). -/
theorem bit_written (d : RegDef) (lock : Bool) (old v rej i : Nat) (hi : i < 32) :
    bit (written d lock old v rej) i =
      ((if (bit d.rw i || (!lock && bit d.rwl i)) && !bit rej i then bit v i else bit old i) && !(bit v i && bit d.w1c i)
        || (bit v i && bit d.w1s i)) := by
  have hlock : (if lock then 0 else d.rwl).testBit i = (!lock && d.rwl.testBit i) := by cases lock <;> simp
  unfold written bit
  simp only [Nat.testBit_or, Nat.testBit_and, Nat.testBit_xor, testBit_allOnes hi, hlock]
  cases (d.rw.testBit i || !lock && d.rwl.testBit i) <;> cases rej.testBit i <;> simp

/-- A bit that `x` and `y` do not share is clear in `y` where it is set in `x`. -/
theorem bit_clear_of_and {x y i : Nat} (h : x &&& y = 0) (hx : bit x i = true) : bit y i = false := by
  have hxy := congrArg (fun n => bit n i) h
  unfold bit at *
  simpa [Nat.testBit_and, hx] using hxy

theorem bit_or (x y i : Nat) : bit (x ||| y) i = (bit x i || bit y i) := Nat.testBit_or ..

/-- Settles O10: each clause is `bit_written` at a bit of one type, where the masks of the other types are clear. -/
theorem registerBitsFollowTheirTypes : Obligations.RegisterBitsFollowTheirTypes := by
  intro d lock old v rej i hi _ hc hs hcs hl
  have hrw : bit d.rw i = true → bit (d.rw ||| d.rwl) i = true := fun h => by rw [bit_or, h, Bool.true_or]
  have hrwl : bit d.rwl i = true → bit (d.rw ||| d.rwl) i = true := fun h => by rw [bit_or, h, Bool.or_true]
  have off {x y : Nat} (h : y &&& x = 0) (hx : bit x i = true) : bit y i = false :=
    bit_clear_of_and (Nat.and_comm y x ▸ h) hx
  simp only [bit_written d lock old v rej i hi]
  refine ⟨fun h => ?_, fun h => ?_, fun h => ?_, fun h => ?_, fun h => ?_⟩
  · -- RW
    cases bit rej i <;> simp [h, bit_clear_of_and hc (hrw h), bit_clear_of_and hs (hrw h)]
  · -- RWL
    cases lock <;> cases bit rej i <;> simp [h, off hl h, bit_clear_of_and hc (hrwl h), bit_clear_of_and hs (hrwl h)]
  · -- W1C
    have := off hc h
    rw [bit_or, Bool.or_eq_false_iff] at this
    simp [h, this, bit_clear_of_and hcs h]
  · -- W1S
    have := off hs h
    rw [bit_or, Bool.or_eq_false_iff] at this
    simp [h, this, off hcs h]
  · -- RO, RC, WO and reserved bits
    simp only [bit_or, Bool.or_eq_false_iff] at h
    obtain ⟨⟨⟨h1, h2⟩, h3⟩, h4⟩ := h
    simp [h1, h2, h3, h4]

/-! ## Frames -/

theorem sameMemory_of_eq {s u : State} (hd : u.dram = s.dram) (hm : u.mram = s.mram) : SameMemory s u :=
  fun a => ⟨by rw [dramByte, hd, dramByte], by rw [mramByte, hm, mramByte]⟩

theorem sameMemory_trans {s u v : State} (h : SameMemory s u) (h' : SameMemory u v) : SameMemory s v := fun a =>
  ⟨(h' a).1.trans (h a).1, (h' a).2.trans (h a).2⟩

/-- Registers read alike where the register file and the part are the same. -/
theorem rd_of_csr_eq {s u : State} (hc : u.csr = s.csr) (hp : u.part = s.part) (o : Nat) : rd u o = rd s o := by
  rw [rd, hc, hp, rd]

theorem regsBut_of_csr_eq {s u : State} (l : List Nat) (hc : u.csr = s.csr) (hp : u.part = s.part) : RegsBut l s u :=
  fun o _ => rd_of_csr_eq hc hp o

theorem regsBut_wr (s : State) (off : Nat) (v : Reg32) : RegsBut [off] s (wr s off v) :=
  fun _ ho => rd_wr_other s v (List.ne_of_not_mem_cons ho)

/-! ## Reads of a register -/

theorem readCsr_of_reached {s : State} {path off : Nat} (hs : accessStatus s off = rcSuccess)
    (hm : inAperture off = false) (hd : (regDef s.part off).isSome = true) :
    readCsr s path off = (clearRc (latchHi s path off) off, shownOn s path off, rcSuccess) := by
  rw [Option.isSome_iff_ne_none] at hd
  simp [readCsr, hs, hm, hd]

/-- A read latches the HI half of a pair for its path and changes nothing else. -/
theorem latchHi_eq (s : State) (path off : Nat) : ∃ x, latchHi s path off = { s with shadow := x } := by
  unfold latchHi
  split
  · exact ⟨_, rfl⟩
  · exact ⟨s.shadow, rfl⟩

theorem rd_latchHi (s : State) (path off o : Nat) : rd (latchHi s path off) o = rd s o := by
  obtain ⟨x, hx⟩ := latchHi_eq s path off
  rw [hx]
  rfl

/-- RC bits are cleared by a read, and no other register changes (R12). -/
theorem clearRc_eq (s : State) (off : Nat) : clearRc s off = s ∨ ∃ v, clearRc s off = wr s off v := by
  unfold clearRc
  split
  · split
    · exact .inl rfl
    · exact .inr ⟨_, rfl⟩
  · exact .inl rfl

theorem regsBut_clearRc (s : State) (off : Nat) : RegsBut [off] s (clearRc s off) := by
  obtain h | ⟨v, h⟩ := clearRc_eq s off
  · rw [h]
    exact fun _ _ => rfl
  · rw [h]
    exact regsBut_wr s off v

theorem flag_clearRc {s : State} {off : Nat} {d : RegDef} (hd : regDef s.part off = some d) (i : Nat) (hi : i < 32) :
    flag (clearRc s off) off i = (flag s off i && !bit d.rc i) := by
  unfold clearRc
  rw [hd]
  dsimp only
  split
  next h => simp [h, bit]
  next =>
    rw [flag, rd_wr_same, BitVec.toNat_ofNat, bit, Nat.testBit_mod_two_pow, Nat.testBit_and, Nat.testBit_xor, allBits,
      testBit_allOnes hi]
    simp [hi, flag, bit]

/-- What a read of a reached register leaves: no memory, no register but the RC bits of its own, no unit. -/
theorem readOne_of_reached {s : State} {path off : Nat} (hs : accessStatus s off = rcSuccess)
    (hm : inAperture off = false) (hd : (regDef s.part off).isSome = true) :
    readOne s path off = { clearRc (latchHi s path off) off with
      readOut := tput zero s.readOut path (shownOn s path off) } := by
  rw [readOne, readCsr_of_reached hs hm hd]
  obtain ⟨x, hx⟩ := latchHi_eq s path off
  obtain h | ⟨v, h⟩ := clearRc_eq (latchHi s path off) off
  · rw [h, hx]
  · rw [h, hx]
    rfl

/-- A read changes the latched halves and the register file, nothing else. -/
theorem read_eq (s : State) (path off : Nat) :
    ∃ x c, clearRc (latchHi s path off) off = { s with shadow := x, csr := c } := by
  obtain ⟨x, hx⟩ := latchHi_eq s path off
  obtain h | ⟨v, h⟩ := clearRc_eq (latchHi s path off) off
  · exact ⟨x, s.csr, by rw [h, hx]⟩
  · exact ⟨x, _, by rw [h, hx]; rfl⟩

theorem regsBut_read (s : State) (path off : Nat) : RegsBut [off] s (clearRc (latchHi s path off) off) :=
  fun o ho => (regsBut_clearRc _ off o ho).trans (rd_latchHi s path off o)

theorem sameMemory_read (s : State) (path off : Nat) : SameMemory s (clearRc (latchHi s path off) off) := by
  obtain ⟨x, c, h⟩ := read_eq s path off
  rw [h]
  exact sameMemory_of_eq rfl rfl

/-! ## The timebase (R35) -/

theorem regDef_timeLo (p : Part) : regDef p 0x20 = some {} := rfl

theorem accessStatus_timeLo (s : State) : accessStatus s 0x20 = rcSuccess := rfl

theorem shown_timeLo (s : State) : shown s 0x20 = s.now.toNat % 2 ^ 32 := rfl

theorem shown_timeHi (s : State) : shown s 0x24 = s.now.toNat / 2 ^ 32 := rfl

/-- Without a latched half, a path reads bits [63:32] of the timebase. -/
theorem shownOn_timeHi (s : State) (path : Nat) : shownOn s path 0x24 =
    (tget noShadow s.shadow (shadowKey path 0x24)).getD (s.now.extractLsb' 32 32) := by
  rw [shownOn, shown_timeHi]
  congr 1
  apply BitVec.eq_of_toNat_eq
  simp [Nat.shiftRight_eq_div_pow]

theorem clearRc_timeLo (s : State) : clearRc s 0x20 = s := rfl

theorem latchHi_timeLo (s : State) (path : Nat) : latchHi s path 0x20 = { s with
    shadow := tput noShadow s.shadow (shadowKey path 0x24) (some (BitVec.ofNat 32 (s.now.toNat / 2 ^ 32))) } := rfl

theorem shadowKey_ne {p q : Path} (h : q ≠ p) (off : Nat) : shadowKey q.val off ≠ shadowKey p.val off := by
  have := Fin.val_ne_of_ne h
  unfold shadowKey
  omega

theorem timeLoRead_latches (s : State) (hs : sentinelUp s = true) (p : Path) :
    Completes (.timeLoRead p) s (fun u =>
      (tget noShadow s.shadow (shadowKey p.val 0x20) = none → tget zero u.readOut p.val = s.now.extractLsb' 0 32) ∧
      shownOn u p.val 0x24 = s.now.extractLsb' 32 32 ∧
      (∀ q : Path, q ≠ p → shownOn u q.val 0x24 = shownOn s q.val 0x24) ∧ RegsBut [] s u ∧ SameMemory s u) := by
  have hr := readOne_of_reached (path := p.val) (accessStatus_timeLo s) rfl (by rw [regDef_timeLo]; rfl)
  rw [clearRc_timeLo, latchHi_timeLo] at hr
  refine ⟨_, rfl, ?_⟩
  rw [hs, when_true, hr]
  refine ⟨fun h => ?_, ?_, fun q hq => ?_, fun _ _ => rfl, sameMemory_of_eq rfl rfl⟩
  · rw [tget_tput_same, shownOn, h, Option.getD_none, shown_timeLo]
    apply BitVec.eq_of_toNat_eq
    simp
  · rw [shownOn_timeHi, tget_tput_same, Option.getD_some]
    apply BitVec.eq_of_toNat_eq
    simp [Nat.shiftRight_eq_div_pow]
  · rw [shownOn_timeHi, tget_tput_other _ _ _ (shadowKey_ne hq 0x24), shownOn_timeHi]

/-! ## Reads that clear, and writes -/

theorem readClear_clears (s : State) (hs : sentinelUp s = true) (p : Path) (o : BitVec 26) (d : RegDef)
    (ha : accessStatus s o.toNat = rcSuccess) (hm : inAperture o.toNat = false) (hd : regDef s.part o.toNat = some d) :
    Completes (.readClear p o) s (fun u => tget zero u.readOut p.val = shownOn s p.val o.toNat ∧
      (∀ i, i < 32 → flag u o.toNat i = (flag s o.toNat i && !bit d.rc i)) ∧ RegsBut [o.toNat] s u ∧ SameMemory s u) := by
  have hr := readOne_of_reached (path := p.val) ha hm (by rw [hd]; rfl)
  refine ⟨_, rfl, ?_⟩
  rw [hs, when_true, hr]
  refine ⟨tget_tput_same .., fun i hi => ?_, regsBut_read s p.val o.toNat, sameMemory_read s p.val o.toNat⟩
  have hpart : (latchHi s p.val o.toNat).part = s.part := by
    obtain ⟨x, hx⟩ := latchHi_eq s p.val o.toNat
    rw [hx]
  have hflag : flag (latchHi s p.val o.toNat) o.toNat i = flag s o.toNat i := by rw [flag, rd_latchHi, flag]
  rw [← hflag]
  exact flag_clearRc (by rw [hpart]; exact hd) i hi

theorem writeCsr_of_reached {s : State} {path off : Nat} (v : Reg32) (hs : accessStatus s off = rcSuccess)
    (hm : inAperture off = false) (hd : (regDef s.part off).isSome = true) :
    writeCsr s path off v = (writeReg s off v, rcSuccess) := by
  rw [Option.isSome_iff_ne_none] at hd
  simp [writeCsr, hs, hm, hd]

theorem writeCsr_of_failed {s : State} {path off : Nat} (v : Reg32) (hs : accessStatus s off ≠ rcSuccess) :
    writeCsr s path off v = (latchFail s path (accessStatus s off), accessStatus s off) := by
  simp [writeCsr, hs]

/-- Outside the cores' paths a failing access changes the failure latch of its path, where it has one (R371, R376). -/
theorem latchFail_eq (s : State) {path : Nat} (hp : 8 ≤ path) (st : BitVec 16) :
    latchFail s path st = s ∨ latchFail s path st = wr s (accStat path) (BitVec.ofNat 32 (2 ^ 31 + st.toNat)) := by
  unfold latchFail
  split
  · exact .inl rfl
  · exact .inr (if_neg (Nat.not_lt.2 hp))

theorem latchFail_first {s : State} {st : BitVec 16} (hst : st ≠ rcSuccess) (hf : flag s (accStat 8) 31 = false) :
    latchFail s 8 st = wr s (accStat 8) (BitVec.ofNat 32 (2 ^ 31 + st.toNat)) := by
  simp [latchFail, hst, hf]

theorem registerWrite_of_failed (s : State) (hs : sentinelUp s = true) (p : Path) (o : BitVec 26) (v : Reg32)
    (ha : accessStatus s o.toNat ≠ rcSuccess) (hp : 8 ≤ p.val) : Completes (.registerWrite p o v) s (fun u =>
      RegsBut [accStat p.val] s u ∧ u.tums = s.tums ∧ u.ports = s.ports ∧ SameMemory s u) := by
  refine ⟨_, rfl, ?_⟩
  rw [hs, when_true, writeCsr_of_failed v ha]
  obtain h | h := latchFail_eq s hp (accessStatus s o.toNat)
  · rw [h]
    exact ⟨fun _ _ => rfl, rfl, rfl, sameMemory_of_eq rfl rfl⟩
  · rw [h]
    exact ⟨regsBut_wr s _ _, rfl, rfl, sameMemory_of_eq rfl rfl⟩

theorem writeReg_global {s : State} {off : Nat} (v : Reg32) (ho : off < 0x100000) (hf : fltAt s.part off = none) :
    writeReg s off v = wrReg s off (if off = 0x28 ∧ flag s 0x28 2 then v &&& 0xFFFFFFFD else v) 0 := by
  simp only [writeReg, hf, if_pos ho]

theorem wrReg_of_def {s : State} {off : Nat} {d : RegDef} (hd : regDef s.part off = some d) (v : Reg32) (rej : Nat) :
    wrReg s off v rej = wr s off (BitVec.ofNat 32 (written d (locked s) (rd s off).toNat v.toNat rej)) := by
  simp only [wrReg, hd]

theorem registerWrite_of_reached {s : State} (hs : sentinelUp s = true) (p : Path) (o : BitVec 26) (v : Reg32)
    (ha : accessStatus s o.toNat = rcSuccess) (hm : inAperture o.toNat = false)
    (hd : (regDef s.part o.toNat).isSome = true) : exec (.registerWrite p o v) s = .next (writeReg s o.toNat v) := by
  change Host.Outcome.next (when (sentinelUp s) s (writeCsr s p.val o.toNat v).1) = _
  rw [hs, when_true, writeCsr_of_reached v ha hm hd]

theorem writeReg_gblLock (s : State) (v : Reg32) : writeReg s 0x10 v =
    wr s 0x10 (BitVec.ofNat 32 (written { w1s := 1 } (locked s) (rd s 0x10).toNat v.toNat 0)) := by
  rw [writeReg_global v (by decide) rfl, if_neg (fun h => absurd h.1 (by decide)), wrReg_of_def (d := { w1s := 1 }) rfl]

/-- A write of GBL_LOCK that carries LOCK sets it (R14). -/
theorem locked_gblLock (s : State) (v : Reg32) : locked (writeReg s 0x10 (v ||| 1)) = true := by
  have h := bit_written { w1s := 1 } (locked s) (rd s 0x10).toNat (v ||| 1).toNat 0 0 (by decide)
  rw [writeReg_gblLock, locked, flag, rd_wr_same, BitVec.toNat_ofNat, bit, Nat.testBit_mod_two_pow]
  rw [bit] at h
  rw [h]
  simp [bit]

/-! ## Reserved offsets (R16) -/

theorem accessStatus_of_reserved (s : State) (off : Nat) (ha : off % 4 = 0) (hm : inAperture off = false)
    (hd : regDef s.part off = none) : accessStatus s off = rcSuccess := by
  simp [accessStatus, ha, hm, regStatus, hd]

/-- Settles O46: no domain, fence or reset is asked about an offset without a register. -/
theorem reservedOffsetsReadZero : Obligations.ReservedOffsetsReadZero := by
  intro s path off v ha hm hd
  have hst := accessStatus_of_reserved s off ha hm hd
  constructor
  · simp [readCsr, hst, hm, hd]
  · simp [writeCsr, hst, hm, hd]

/-! ## A locked register -/

/-- Below its last 512 bytes the window of a core holds no fault set. -/
theorem fltAt_core (p : Part) (k : CoreN) {o : Nat} (ho : o < 0xFE00) : fltAt p (coreReg k o) = none := by
  have hk := k.isLt
  unfold fltAt coreReg
  dsimp only
  rw [if_neg (by omega), if_neg (by omega), if_neg (by omega), if_neg (by omega), if_pos (by omega), dif_pos (by omega),
    if_neg (by omega)]

theorem regDef_cores {p : Part} {off : Nat} (hf : fltAt p off = none) (hlo : 0x2B00000 ≤ off) (hhi : off < 0x3000000) :
    regDef p off = coresRegDef (off - 0x2B00000) := by
  have h {n : Nat} (hn : n ≤ 0x2B00000) : ¬ off < n := Nat.not_lt.2 (hn.trans hlo)
  simp only [regDef, hf, h, Nat.reduceLeDiff, if_false, if_pos hhi]

theorem writeReg_cores {s : State} {off : Nat} (hf : fltAt s.part off = none) (hlo : 0x2B00000 ≤ off) (v : Reg32) :
    writeReg s off v = wrCores s off v := by
  have h {n : Nat} (hn : n ≤ 0x2B00000) : ¬ off < n := Nat.not_lt.2 (hn.trans hlo)
  have hp : ¬ off = pairReg 4 := by
    unfold pairReg
    omega
  simp only [writeReg, hf, h, Nat.reduceLeDiff, if_false, if_neg hp, if_pos hlo]

theorem regDef_coreEntry (p : Part) (k : CoreN) : regDef p (coreReg k 0) = some { rwl := 0xFFFFFFFE } := by
  have hk := k.isLt
  rw [regDef_cores (fltAt_core p k (by decide)) (by unfold coreReg; omega) (by unfold coreReg; omega), coresRegDef,
    if_pos (by unfold coreReg; omega), if_pos (by unfold coreReg; omega)]

theorem writeReg_coreEntry (s : State) (k : CoreN) (v : Reg32) :
    writeReg s (coreReg k 0) v = wrReg s (coreReg k 0) v 0 := by
  have hk := k.isLt
  rw [writeReg_cores (fltAt_core s.part k (by decide)) (by unfold coreReg; omega)]
  unfold wrCores
  dsimp only
  rw [if_neg (by unfold coreReg; omega), if_neg (by unfold coreReg; omega)]

/-- A write leaves a register whose bits are all RWL as it is while the registers are locked (R14). -/
theorem written_locked (x old v rej : Nat) (hold : old < 2 ^ 32) : written { rwl := x } true old v rej = old := by
  apply Nat.eq_of_testBit_eq
  intro i
  by_cases hi : i < 32
  · have h := bit_written { rwl := x } true old v rej i hi
    simpa [bit] using h
  · have hlt {n : Nat} (hn : n < 2 ^ 32) : n.testBit i = false :=
      Nat.testBit_lt_two_pow (lt_of_lt_of_le hn (Nat.pow_le_pow_right (by decide) (Nat.not_lt.1 hi)))
    simp [written, hlt hold]

theorem writeReg_coreEntry_locked {s : State} (hs : locked s = true) (k : CoreN) (v : Reg32) :
    rd (writeReg s (coreReg k 0) v) (coreReg k 0) = rd s (coreReg k 0) := by
  rw [writeReg_coreEntry, wrReg_of_def (regDef_coreEntry s.part k), rd_wr_same, hs, written_locked _ _ _ _ (rd _ _).isLt,
    BitVec.ofNat_toNat, BitVec.setWidth_eq]

/-! ## BAR0 (R371, R400) -/

/-- What a request of BAR0 shows and counts before its accesses. -/
def bar0Seen (s : State) : State := count { s with usb := { s.usb with link := true } } (cUsb 0) 1

theorem bar0Seen_fenced (s : State) : (bar0Seen s).usb.fenced = s.usb.fenced := by simp [bar0Seen]

theorem regsBut_bar0Seen (s : State) (l : List Nat) : RegsBut l s (bar0Seen s) := by
  intro o _
  rw [bar0Seen, rd_count]
  rfl

theorem sameMemory_bar0Seen (s : State) : SameMemory s (bar0Seen s) := sameMemory_of_eq (count_dram ..) (count_mram ..)

theorem exec_bar0 {s : State} (hs : strikeLive s = true) (o : BitVec 26) (n : Nat) (data : Option (List Reg32)) :
    exec (.bar0Access o n data) s = .next (bar0Done s o.toNat n data) := by
  change Host.Outcome.next (when (strikeLive s) s (bar0Done s o.toNat n data)) = _
  rw [hs, when_true]

/-- The completion of a BAR0 request carries `l`. -/
def bar0Out (s : State) (l : List Reg32) : State := { s with usb := { s.usb with bar0 := l } }

theorem rd_bar0Out (s : State) (l : List Reg32) (o : Nat) : rd (bar0Out s l) o = rd s o := rfl

/-- A request of at most 4 bytes is one access. -/
theorem bar0Done_one (s : State) (off : Nat) {n : Nat} (hn : 0 < n) (hn' : n ≤ 4) (data : Option (List Reg32)) :
    bar0Done s off n data =
      let u := bar0Word (bar0Seen s) off n 0 (data.map (fun l => l.getD 0 0))
      bar0Out u.1 (if data.isSome then [] else [u.2]) := by
  have h1 : (n + 3) / 4 = 1 := by omega
  unfold bar0Done
  rw [h1]
  rfl

/-- A read of 8 bytes is two accesses. -/
theorem bar0Done_two (s : State) (off : Nat) :
    bar0Done s off 8 none =
      let u := bar0Word (bar0Seen s) off 8 0 none
      let w := bar0Word u.1 off 8 1 none
      bar0Out w.1 [u.2, w.2] := rfl

theorem bar0Word_fenced {s : State} (hf : s.usb.fenced = true) (off n i : Nat) (v : Option Reg32) :
    bar0Word s off n i v = (latchFail s 8 rcUnitFenced, 0) := by
  rw [bar0Word.eq_def, if_pos hf, bar0Fail]

theorem bar0Word_narrow {s : State} (hf : s.usb.fenced = false) {off n i : Nat} (hn : n < 4 * i + 4) (v : Option Reg32) :
    bar0Word s off n i v = (latchFail s 8 rcBadAlign, 0) := by
  rw [bar0Word.eq_def, if_neg (by simp [hf]), if_pos hn, bar0Fail]

theorem bar0Word_read {s : State} (hf : s.usb.fenced = false) {off n i : Nat} (hn : 4 * i + 4 ≤ n)
    (ha : accessStatus s (off + 4 * i) = rcSuccess) (hm : inAperture (off + 4 * i) = false)
    (hd : (regDef s.part (off + 4 * i)).isSome = true) :
    bar0Word s off n i none =
      (clearRc (latchHi s 8 (off + 4 * i)) (off + 4 * i), shownOn s 8 (off + 4 * i)) := by
  rw [bar0Word.eq_def, if_neg (by simp [hf]), if_neg (Nat.not_lt.2 hn)]
  dsimp only
  rw [readCsr_of_reached ha hm hd]

theorem bar0Word_write {s : State} (hf : s.usb.fenced = false) {off n i : Nat} (hn : 4 * i + 4 ≤ n) (v : Reg32)
    (ha : accessStatus s (off + 4 * i) = rcSuccess) (hm : inAperture (off + 4 * i) = false)
    (hd : (regDef s.part (off + 4 * i)).isSome = true) :
    bar0Word s off n i (some v) = (writeReg s (off + 4 * i) v, 0) := by
  rw [bar0Word.eq_def, if_neg (by simp [hf]), if_neg (Nat.not_lt.2 hn)]
  dsimp only
  rw [writeCsr_of_reached v ha hm hd]

/-- A failing request of at most 4 bytes reads 0 and latches its status in the failure latch of BAR0. -/
theorem bar0_fails {s : State} (hs : strikeLive s = true) (o : BitVec 26) {n : Nat} (hn : 0 < n) (hn' : n ≤ 4)
    {st : BitVec 16} (hst : st ≠ rcSuccess)
    (hw : bar0Word (bar0Seen s) o.toNat n 0 none = (latchFail (bar0Seen s) 8 st, 0)) :
    Completes (.bar0Access o n none) s (fun u => u.usb.bar0 = [0] ∧
      (flag s (accStat 8) 31 = false → rd u (accStat 8) = BitVec.ofNat 32 (2 ^ 31 + st.toNat)) ∧
      RegsBut [accStat 8] s u ∧ SameMemory s u) := by
  refine ⟨_, exec_bar0 hs o n none, ?_⟩
  rw [bar0Done_one s _ hn hn', Option.map_none, hw]
  refine ⟨rfl, fun hf => ?_, fun r hr => ?_, ?_⟩
  · have hb : flag (bar0Seen s) (accStat 8) 31 = false := by
      rw [flag, regsBut_bar0Seen s [] _ List.not_mem_nil]
      exact hf
    rw [latchFail_first hst hb, rd_bar0Out, rd_wr_same]
  · obtain h | h := latchFail_eq (bar0Seen s) (Nat.le_refl 8) st
    · rw [h]
      exact regsBut_bar0Seen s _ r hr
    · rw [h]
      exact (regsBut_wr _ _ _ r hr).trans (regsBut_bar0Seen s _ r hr)
  · obtain h | h := latchFail_eq (bar0Seen s) (Nat.le_refl 8) st
    · rw [h]
      exact sameMemory_bar0Seen s
    · rw [h]
      exact sameMemory_bar0Seen s

/-- An offset that a register access reaches. -/
def Reached (s : State) (n : Nat) : Prop :=
  accessStatus s n = rcSuccess ∧ inAperture n = false ∧ (regDef s.part n).isSome = true

theorem bar0_reads4 {s : State} (hs : strikeLive s = true) (hf : s.usb.fenced = false) (o : BitVec 26)
    (ho : Reached (bar0Seen s) o.toNat) :
    let r := clearRc (latchHi (bar0Seen s) 8 o.toNat) o.toNat
    exec (.bar0Access o 4 none) s = .next (bar0Out r [shownOn (bar0Seen s) 8 o.toNat]) := by
  obtain ⟨ha, hm, hd⟩ := ho
  intro r
  rw [exec_bar0 hs, bar0Done_one s _ (by decide) (by decide), Option.map_none,
    bar0Word_read ((bar0Seen_fenced s).trans hf) (by decide) ha hm hd]
  rfl

theorem bar0_writes4 {s : State} (hs : strikeLive s = true) (hf : s.usb.fenced = false) (o : BitVec 26)
    (ho : Reached (bar0Seen s) o.toNat) (v : Reg32) : exec (.bar0Access o 4 (some [v])) s =
      .next (bar0Out (writeReg (bar0Seen s) o.toNat v) []) := by
  obtain ⟨ha, hm, hd⟩ := ho
  rw [exec_bar0 hs, bar0Done_one s _ (by decide) (by decide), Option.map_some,
    bar0Word_write ((bar0Seen_fenced s).trans hf) (by decide) _ ha hm hd]
  rfl

theorem bar0_reads8 {s : State} (hs : strikeLive s = true) (hf : s.usb.fenced = false) (o : BitVec 26)
    (ho : Reached (bar0Seen s) o.toNat) :
    let r := clearRc (latchHi (bar0Seen s) 8 o.toNat) o.toNat
    Reached r (o.toNat + 4) → ∃ x, exec (.bar0Access o 8 none) s = .next x ∧
      x.usb.bar0 = [shownOn (bar0Seen s) 8 o.toNat, shownOn r 8 (o.toNat + 4)] ∧ SameMemory s x := by
  obtain ⟨ha, hm, hd⟩ := ho
  rintro r ⟨ha', hm', hd'⟩
  have hrf : r.usb.fenced = false := by
    obtain ⟨x, c, hr⟩ := read_eq (bar0Seen s) 8 o.toNat
    rw [show r = _ from hr]
    exact (bar0Seen_fenced s).trans hf
  have h0 : bar0Word (bar0Seen s) o.toNat 8 0 none = (r, shownOn (bar0Seen s) 8 o.toNat) :=
    bar0Word_read ((bar0Seen_fenced s).trans hf) (by decide) ha hm hd
  have h1 : bar0Word r o.toNat 8 1 none =
      (clearRc (latchHi r 8 (o.toNat + 4)) (o.toNat + 4), shownOn r 8 (o.toNat + 4)) :=
    bar0Word_read hrf (by decide) ha' hm' hd'
  refine ⟨_, exec_bar0 hs o 8 none, ?_⟩
  rw [bar0Done_two, h0]
  dsimp only
  rw [h1]
  exact ⟨rfl, sameMemory_trans (sameMemory_trans (sameMemory_bar0Seen s) (sameMemory_read _ 8 o.toNat))
    (sameMemory_read r 8 (o.toNat + 4))⟩

/-- Settles O47: the clauses in their order, each by the lemma about its access. -/
theorem registerAccesses : Obligations.RegisterAccesses := by
  refine ⟨fun s hs => ⟨timeLoRead_latches s hs, fun p o d => readClear_clears s hs p o d, fun p o v => ⟨?_, ?_, ?_⟩,
      fun v => ?_, fun hl k v => writeReg_coreEntry_locked hl k v⟩,
    fun s o hs => ⟨fun hf ho => ⟨?_, ?_, ?_⟩, fun hf => ?_, fun n hn hn' hf => ?_⟩⟩
  · exact registerWrite_of_reached hs p o v
  · exact registerWrite_of_failed s hs p o v
  · intro d ho hf hd w
    rw [writeReg_global v ho hf, wrReg_of_def hd, rd_wr_same]
    exact ⟨rfl, regsBut_wr s _ _⟩
  · refine ⟨_, rfl, ?_⟩
    rw [hs, when_true]
    exact ⟨locked_gblLock s v, by rw [writeReg_gblLock]; exact regsBut_wr s _ _,
      by rw [writeReg_gblLock]; exact sameMemory_of_eq rfl rfl⟩
  · exact bar0_reads4 hs hf o ho
  · exact bar0_reads8 hs hf o ho
  · exact bar0_writes4 hs hf o ho
  · exact bar0_fails hs o (by decide) (by decide) (by decide) (bar0Word_fenced ((bar0Seen_fenced s).trans hf) ..)
  · exact bar0_fails hs o hn (by omega) (by decide) (bar0Word_narrow ((bar0Seen_fenced s).trans hf) (by omega) _)

end Sys2Proof.Machine
end

section
/-! PROOF. One tumbler: what its operations leave unchanged, its power modes, and the writes of its power and refresh
configuration (O17). -/

namespace Sys2Proof.Machine

open Sys2Proof

/-! ## Operations on one tumbler -/

/-- What an operation on tumbler `t` keeps: the part, the registers, the memories and the other tumblers. -/
structure InTum (t : Nat) (s u : State) : Prop where
  part : u.part = s.part
  csr : u.csr = s.csr
  dram : u.dram = s.dram
  mram : u.mram = s.mram
  tums : TumsBut t s u

namespace InTum

theorem refl (t : Nat) (s : State) : InTum t s s := ⟨rfl, rfl, rfl, rfl, fun _ _ => rfl⟩

variable {t : Nat} {s u v : State}

theorem rd_eq (h : InTum t s u) (o : Nat) : rd u o = rd s o := rd_of_csr_eq h.csr h.part o

theorem fld_eq (h : InTum t s u) (o hi lo : Nat) : fld u o hi lo = fld s o hi lo := by rw [fld, h.rd_eq, fld]

theorem flag_eq (h : InTum t s u) (o i : Nat) : flag u o i = flag s o i := by rw [flag, h.rd_eq, flag]

theorem regsBut (h : InTum t s u) (l : List Nat) : RegsBut l s u := fun o _ => h.rd_eq o

theorem sameMemory (h : InTum t s u) : SameMemory s u := sameMemory_of_eq h.dram h.mram

/-- The frame that statements about one tumbler ask for. -/
theorem frame (h : InTum t s u) : TumsBut t s u ∧ RegsBut [] s u ∧ SameMemory s u := ⟨h.tums, h.regsBut [], h.sameMemory⟩

theorem of_eq (h : InTum t s u) (hp : v.part = u.part) (hc : v.csr = u.csr) (hd : v.dram = u.dram)
    (hm : v.mram = u.mram) (ht : v.tums = u.tums) : InTum t s v where
  part := hp.trans h.part
  csr := hc.trans h.csr
  dram := hd.trans h.dram
  mram := hm.trans h.mram
  tums k hk := by rw [State.tum, ht]; exact h.tums k hk

theorem setTum (h : InTum t s u) (x : Tumbler) : InTum t s (u.setTum t x) where
  part := h.part
  csr := h.csr
  dram := h.dram
  mram := h.mram
  tums k hk := (tum_setTum_other u x hk).trans (h.tums k hk)

theorem count (h : InTum t s u) (slot n : Nat) : InTum t s (count u slot n) :=
  h.of_eq (count_part ..) (count_csr ..) (count_dram ..) (count_mram ..) (count_tums ..)

theorem withSweeps (h : InTum t s u) (x : List SweepT) : InTum t s { u with sweeps := x } :=
  h.of_eq rfl rfl rfl rfl rfl

theorem withThermal (h : InTum t s u) (x : Thermal) : InTum t s { u with thermal := x } :=
  h.of_eq rfl rfl rfl rfl rfl

theorem withWard (h : InTum t s u) (x : Ward) : InTum t s { u with ward := x } := h.of_eq rfl rfl rfl rfl rfl

theorem withLeaves (h : InTum t s u) (x : Tab LeafS) : InTum t s { u with leaves := x } := h.of_eq rfl rfl rfl rfl rfl

theorem foldl {β : Type} {f : State → β → State} (hf : ∀ u b, InTum t s u → InTum t s (f u b)) (l : List β)
    (h : InTum t s u) : InTum t s (l.foldl f u) := by
  induction l generalizing u with
  | nil => exact h
  | cons b r ih => exact ih (hf u b h)

theorem ite {c : Prop} [Decidable c] (hu : InTum t s u) (hv : InTum t s v) : InTum t s (if c then u else v) := by
  split
  · exact hu
  · exact hv

/-! ### Command slots and banks -/

theorem modTum (h : InTum t s u) (f : Tumbler → Tumbler) : InTum t s (u.modTum t f) := h.setTum _

theorem setMode (h : InTum t s u) (f : TMode → TMode) : InTum t s (setMode u t f) := h.setTum _

theorem setQ (h : InTum t s u) (f : TQueue → TQueue) : InTum t s (setQ u t f) := h.setTum _

theorem setDram (h : InTum t s u) (f : TDram → TDram) : InTum t s (setDram u t f) := h.setTum _

theorem putBank (h : InTum t s u) (n : Nat) (b : Bank) : InTum t s (putBank u t n b) := h.setTum _

theorem putSlice (h : InTum t s u) (l : Nat) (x : SliceTim) : InTum t s (putSlice u t l x) := h.setTum _

theorem putSet (h : InTum t s u) (l k : Nat) (x : RefSet) : InTum t s (putSet u t l k x) := h.setTum _

theorem advance (h : InTum t s u) (n : Nat) : InTum t s (advance u t n) := by
  unfold Machine.advance
  exact (ite (h.withSweeps _) h).setDram _

theorem issuePre (h : InTum t s u) (n : Nat) : InTum t s (issuePre u t n) :=
  ((h.putBank _ _).setDram _).count _ _

theorem issueNrr (h : InTum t s u) (n : Nat) : InTum t s (issueNrr u t n) := by
  unfold Machine.issueNrr
  dsimp only
  split
  · exact h
  · apply count
    apply count
    apply withThermal
    exact (((h.putBank _ _).putSlice _ _).setDram _).modTum _

theorem preNext (h : InTum t s u) (n : Nat) : InTum t s (preNext u t n) := ((h.advance _).issuePre n).advance 1

theorem nrrNext (h : InTum t s u) (n : Nat) : InTum t s (nrrNext u t n) :=
  (((ite (h.preNext n) h).advance _).issueNrr n).advance 1

theorem settleBanks (h : InTum t s u) : InTum t s (settleBanks u t) :=
  foldl (fun _ n hu => hu.preNext n) _ (foldl (fun _ n hu => hu.nrrNext n) _ h)

/-! ### Refresh and self-refresh -/

theorem hammerRef (h : InTum t s u) (l : Loc) : InTum t s (hammerRef u t l) := by
  unfold Machine.hammerRef
  exact ite h (h.modTum _)

theorem refreshRows (h : InTum t s u) (l k p n : Nat) : InTum t s (refreshRows u t l k p n) :=
  foldl (fun _ _ hu => foldl (fun _ _ hv => (hv.hammerRef _).hammerRef _) _ hu) _ h

theorem enterSelf (h : InTum t s u) : InTum t s (enterSelf u t) := by
  unfold Machine.enterSelf
  apply setMode
  apply count
  refine foldl (fun _ _ hv => hv.withLeaves _) _ ?_
  apply modTum
  refine foldl (fun _ _ hv => hv.count _ _) _ ?_
  exact foldl (fun _ _ hv => (hv.refreshRows ..).putSet _ _ _) _ h

theorem selfEntry (h : InTum t s u) : InTum t s (selfEntry u t) := by
  unfold Machine.selfEntry
  exact h.settleBanks.enterSelf

theorem restartRefresh (h : InTum t s u) : InTum t s (restartRefresh u t) := foldl (fun _ _ hv => hv.putSet _ _ _) _ h

theorem leaveSelf (h : InTum t s u) : InTum t s (leaveSelf u t) := ite (h.setMode _).restartRefresh h

/-! ### Pauses -/

theorem excludeQueued (h : InTum t s u) : InTum t s (excludeQueued u t) := (h.setQ _).withWard _

theorem pauseOn (h : InTum t s u) : InTum t s (pauseOn u t) := by
  unfold Machine.pauseOn
  split
  · exact ite (h.excludeQueued.modTum _) h
  · exact h.excludeQueued.modTum _

theorem pauseHotOn (h : InTum t s u) : InTum t s (pauseHotOn u t) := ite h (h.modTum _)

theorem pauseOff (h : InTum t s u) : InTum t s (pauseOff u t) := by
  unfold Machine.pauseOff
  split
  · exact h
  · exact (ite h h.excludeQueued).modTum _

theorem checkExcess (h : InTum t s u) : InTum t s (checkExcess u t) :=
  ite h (ite (((h.setMode _).count _ _).pauseOn) h)

theorem endExcess (h : InTum t s u) : InTum t s (endExcess u t) := ite (h.setMode _).pauseOff h

end InTum

/-! ## Modes of a tumbler -/

@[simp] theorem mode_setMode (s : State) (t : Nat) (f : TMode → TMode) :
    ((setMode s t f).tum t).mode = f (s.tum t).mode := by rw [tum_setMode_same]

theorem mode_restartRefresh (s : State) (t : Nat) : ((restartRefresh s t).tum t).mode = (s.tum t).mode := by
  unfold restartRefresh
  dsimp only
  generalize (setsOf s t).length = n
  generalize (setsOf s t).zipIdx = l
  induction l generalizing s with
  | nil => rfl
  | cons e r ih =>
    rw [List.foldl_cons, ih, putSet, tum_modTum_same]

/-- The slices leave self-refresh and nothing else of the mode changes. -/
theorem mode_leaveSelf (s : State) (t : Nat) :
    ((leaveSelf s t).tum t).mode = { (s.tum t).mode with self := false } := by
  unfold leaveSelf
  split
  next => rw [mode_restartRefresh, tum_setMode_same]
  next h =>
    cases hm : (s.tum t).mode
    simp_all

theorem mode_excludeQueued (s : State) (t : Nat) : ((excludeQueued s t).tum t).mode = (s.tum t).mode := by
  have h : (excludeQueued s t).tum t = (setQ s t (fun q => { q with
      queue := q.queue.map (fun a => { a with excluded := true }) })).tum t := rfl
  rw [h, tum_setQ_same]

theorem mode_pauseOff (s : State) (t : Nat) : ((pauseOff s t).tum t).mode = (s.tum t).mode := by
  unfold pauseOff
  split
  · rfl
  · rw [tum_modTum_same]
    split <;> split <;> simp [mode_excludeQueued]

theorem self_selfEntry (s : State) (t : Nat) : ((selfEntry s t).tum t).mode.self = true := by
  unfold selfEntry enterSelf
  rw [tum_setMode_same]

/-! ## Power modes (R87, R120 to R123, R443) -/

theorem lightEntry_enters (s : State) (t : Tum) (hr : running s = true) (ho : tstate s t = .online)
    (hg : flag s (tumReg t 0x10) 16 = true) (hq : quietBit s t = false) (hi : idleNow s t = true)
    (hp : debtPaid s t = true) : exec (.lightEntry t) s =
      .next (count (setMode s t (fun m => { m with state := .light, refreshWake := false })) (cTum t 12) 1) := by
  change execLightEntry t s = _
  simp [execLightEntry, hr, ho, hg, hq, hi, hp]

theorem inTum_wakeDone (s : State) (t : Nat) : InTum t s (wakeDone s t) := by
  unfold wakeDone
  exact (InTum.ite (InTum.refl t s).leaveSelf.excludeQueued (InTum.refl t s)).setMode _

theorem self_wakeDone (s : State) (t : Nat) (hq : tstate s t = .quiet) : ((wakeDone s t).tum t).mode.self = false := by
  unfold wakeDone
  rw [tum_setMode_same, if_pos (show (s.tum t).mode.state = .quiet from hq)]
  simp only [mode_excludeQueued, mode_leaveSelf]

theorem wakeComplete_wakes (s : State) (t : Tum) (hw : (s.tum t).mode.wake ≠ .no) (hr : (s.tum t).mode.rate = .idle)
    (he : tstate s t = .quiet → (s.tum t).mode.emergency = false) :
    Completes (.wakeComplete t) s (fun u => (u.tum t).mode.state = .online ∧ (u.tum t).mode.wake = .no ∧
      (tstate s t = .quiet → (u.tum t).mode.self = false) ∧ TumsBut t s u ∧ RegsBut [] s u ∧ SameMemory s u) := by
  have hgo : exec (.wakeComplete t) s = .next (wakeDone s t) := by
    change execWakeComplete t s = _
    have hk : ((s.tum t).mode.state = .quiet && (s.tum t).mode.emergency) = false := by
      by_cases hq : (s.tum t).mode.state = .quiet
      · simp [he hq]
      · simp [hq]
    have hc : ((s.tum t).mode.wake != .no && (s.tum t).mode.rate = .idle
        && !((s.tum t).mode.state = .quiet && (s.tum t).mode.emergency)) = true := by simp [hw, hr, hk]
    rw [execWakeComplete, hc, when_true]
  refine ⟨_, hgo, ?_, ?_, self_wakeDone s t, (inTum_wakeDone s t).frame⟩
  · rw [wakeDone, tum_setMode_same]
  · rw [wakeDone, tum_setMode_same]

theorem quietEntry_enters (s : State) (t : Tum) (hr : running s = true) (ho : tstate s t = .online ∨ tstate s t = .light)
    (hw : (s.tum t).mode.wake = .no) (hq : quietBit s t = true) (hi : idleNow s t = true) :
    Completes (.quietEntry t) s (fun u => (u.tum t).mode.state = .quiet ∧ (u.tum t).mode.self = true ∧
      TumsBut t s u ∧ RegsBut [] s u ∧ SameMemory s u) := by
  have hgo : exec (.quietEntry t) s =
      .next (setMode (selfEntry s t) t (fun m => { m with state := .quiet, refreshWake := false })) := by
    change execQuietEntry t s = _
    have hc : (running s && (tstate s t = .online || tstate s t = .light) && (s.tum t).mode.wake = .no && quietBit s t
        && idleNow s t) = true := by
      rcases ho with ho | ho <;> simp [hr, ho, hw, hq, hi]
    rw [execQuietEntry, hc, when_true]
  refine ⟨_, hgo, ?_, ?_, ((InTum.refl t s).selfEntry.setMode _).frame⟩
  · simp only [mode_setMode]
  · simp only [mode_setMode, self_selfEntry]

theorem selfRefreshEntry_enters (s : State) (t : Tum) (he : (s.tum t).mode.emergency = true)
    (hs : (s.tum t).mode.self = false) (hl : tstate s t ≠ .latchOut) (ho : tstate s t ≠ .offline)
    (hn : noWrites s t = true) :
    Completes (.selfRefreshEntry t) s (fun u => (u.tum t).mode.self = true ∧ (u.tum t).pauseSince.isSome = true ∧
      TumsBut t s u ∧ RegsBut [] s u ∧ SameMemory s u) := by
  have hgo : exec (.selfRefreshEntry t) s = .next (pauseHotOn (selfEntry s t) t) := by
    change execSelfRefreshEntry t s = _
    have hc : ((s.tum t).mode.emergency && !(s.tum t).mode.self && tstate s t != .latchOut && tstate s t != .offline
        && noWrites s t) = true := by
      simp [he, hs, bne_iff_ne.2 hl, bne_iff_ne.2 ho, hn]
    rw [execSelfRefreshEntry, hc, when_true]
  refine ⟨_, hgo, ?_, ?_, (InTum.refl t s).selfEntry.pauseHotOn.frame⟩
  · unfold pauseHotOn
    split
    · exact self_selfEntry s t
    · simp only [tum_modTum_same, self_selfEntry]
  · unfold pauseHotOn
    split
    next h => exact h
    next => simp only [tum_modTum_same, Option.isSome_some]

theorem inTum_selfExit (s : State) (t : Nat) : InTum t s (selfExit s t) := by
  unfold selfExit
  exact (InTum.ite (InTum.refl t s).leaveSelf.excludeQueued (InTum.refl t s).leaveSelf).pauseOff.setMode _

theorem mode_selfExit (s : State) (t : Nat) : ((selfExit s t).tum t).mode =
    { (s.tum t).mode with
      self := false, wake := .no
      state := if tstate s t = .shutting ∨ tstate s t = .initSweep then tstate s t else .online } := by
  unfold selfExit
  rw [tum_setMode_same]
  dsimp only
  split <;> simp only [mode_pauseOff, mode_excludeQueued, mode_leaveSelf] <;> rfl

theorem selfRefreshExit_leaves (s : State) (t : Tum) (hm : mayExit s t = true) :
    Completes (.selfRefreshExit t) s (fun u => (u.tum t).mode.self = false ∧ (u.tum t).mode.wake = .no ∧
      (u.tum t).mode.state =
        (if tstate s t = .shutting ∨ tstate s t = .initSweep then tstate s t else .online) ∧
      TumsBut t s u ∧ RegsBut [] s u ∧ SameMemory s u) := by
  have hgo : exec (.selfRefreshExit t) s = .next (selfExit s t) := by
    change execSelfRefreshExit t s = _
    rw [execSelfRefreshExit, hm, when_true]
  refine ⟨_, hgo, ?_, ?_, ?_, (inTum_selfExit s t).frame⟩ <;> rw [mode_selfExit]

/-! ## Fields of a written register -/

theorem bits_congr {x y hi lo : Nat} (h : ∀ i ≤ hi, lo ≤ i → bit x i = bit y i) (hlo : lo ≤ hi) :
    bits x hi lo = bits y hi lo := by
  apply Nat.eq_of_testBit_eq
  intro i
  change bit _ i = bit _ i
  rw [bit_bits, bit_bits]
  by_cases hi' : i < hi - lo + 1
  · rw [h (lo + i) (by omega) (by omega)]
  · simp [hi']

theorem bit_rd_wrReg {s : State} {off : Nat} {d : RegDef} (hd : regDef s.part off = some d) (v : Reg32) (rej : Nat)
    {i : Nat} (hi : i < 32) :
    bit (rd (wrReg s off v rej) off).toNat i = bit (written d (locked s) (rd s off).toNat v.toNat rej) i := by
  rw [wrReg_of_def hd, rd_wr_same, BitVec.toNat_ofNat, bit, Nat.testBit_mod_two_pow]
  simp [hi, bit]

/-- A field of RW bits takes what is written, where it is not rejected. -/
theorem fld_wrReg {s : State} {off : Nat} {d : RegDef} (hd : regDef s.part off = some d) (v : Reg32) {rej hi lo : Nat}
    (h32 : hi < 32) (hlo : lo ≤ hi) (hrw : ∀ i ≤ hi, lo ≤ i → bit d.rw i = true)
    (hrej : ∀ i ≤ hi, lo ≤ i → bit rej i = false)
    (hc : d.w1c = 0) (hs : d.w1s = 0) : fld (wrReg s off v rej) off hi lo = bits v.toNat hi lo := by
  refine bits_congr (fun i hi hl => ?_) hlo
  rw [bit_rd_wrReg hd v rej (by omega), bit_written _ _ _ _ _ _ (by omega), hrw i hi hl, hrej i hi hl, hc, hs]
  simp [bit]

/-- A rejected field keeps what it holds (R17). -/
theorem fld_wrReg_rejected {s : State} {off : Nat} {d : RegDef} (hd : regDef s.part off = some d) (v : Reg32)
    {rej hi lo : Nat} (h32 : hi < 32) (hlo : lo ≤ hi) (hrej : ∀ i ≤ hi, lo ≤ i → bit rej i = true) (hc : d.w1c = 0)
    (hs : d.w1s = 0) : fld (wrReg s off v rej) off hi lo = fld s off hi lo := by
  refine bits_congr (fun i hi hl => ?_) hlo
  rw [bit_rd_wrReg hd v rej (by omega), bit_written _ _ _ _ _ _ (by omega), hrej i hi hl, hc, hs]
  simp [bit]

/-- One bit is a field of its own. -/
theorem flag_eq_of_fld {s : State} {off i x : Nat} (h : fld s off i i = bits x i i) : flag s off i = bit x i := by
  have hb := congrArg (fun n => bit n 0) h
  simpa [fld, flag, bit_bits] using hb

/-! ## The window of a tumbler -/

/-- Below its last 512 bytes the window of a tumbler holds no fault set. -/
theorem fltAt_tum (p : Part) (t : Tum) {o : Nat} (ho : o < 0xFE00) : fltAt p (tumReg t o) = none := by
  have ht := t.isLt
  unfold fltAt tumReg
  dsimp only
  rw [if_pos (by omega), dif_pos (by omega), if_neg (by omega)]

theorem regDef_tum (p : Part) (t : Tum) {o : Nat} (ho : o < 0xFE00) : regDef p (tumReg t o) = tumRegDef p o := by
  have ht := t.isLt
  have hoff : (tumReg t o - 0x2000000) % 0x10000 = o := by
    unfold tumReg
    omega
  have hlo : 0x2000000 ≤ tumReg t o := by
    unfold tumReg
    omega
  have hhi : tumReg t o < 0x2400000 := by
    unfold tumReg
    omega
  have h {n : Nat} (hn : n ≤ 0x2000000) : ¬ tumReg t o < n := Nat.not_lt.2 (hn.trans hlo)
  simp only [regDef, fltAt_tum p t ho, h, Nat.reduceLeDiff, if_false, if_pos hhi, hoff]

theorem ownerSet_tum (t : Tum) {o : Nat} (ho : o < 0x10000) : ownerSet (tumReg t o) = .tum t := by
  have ht := t.isLt
  have hlo : 0x2000000 ≤ tumReg t o := by
    unfold tumReg
    omega
  have hhi : tumReg t o < 0x2400000 := by
    unfold tumReg
    omega
  have hdiv : (tumReg t o - 0x2000000) / 0x10000 = t.val := by
    unfold tumReg
    omega
  have h {n : Nat} (hn : n ≤ 0x2000000) : ¬ tumReg t o < n := Nat.not_lt.2 (hn.trans hlo)
  have hfin : Fin.ofNat 64 t.val = t := Fin.ext (Nat.mod_eq_of_lt ht)
  simp only [ownerSet, h, Nat.reduceLeDiff, if_false, if_pos hhi, hdiv, hfin]

/-! ## Registers that a fault of a tumbler changes -/

theorem regsBut_trans {l : List Nat} {s u v : State} (h : RegsBut l s u) (h' : RegsBut l u v) : RegsBut l s v :=
  fun o ho => (h' o ho).trans (h o ho)

theorem rd_setAlert (s : State) (a : Bool) (o : Nat) : rd (setAlert s a) o = rd s o := by
  unfold setAlert ibi
  dsimp only
  split
  · split <;> rfl
  · rfl

theorem rd_ite {c : Prop} [Decidable c] (u v : State) (o : Nat) :
    rd (if c then u else v) o = if c then rd u o else rd v o := apply_ite (rd · o) c u v

theorem rd_pushEntry (s : State) (b : FltSet) (c sev : Nat) (conseq esc : Bool) (detail : BitVec 96) (n o : Nat) :
    rd (pushEntry s b c sev conseq esc detail n) o = rd s o := rfl

theorem rd_withShadows (s : State) (x : List Shadow) (o : Nat) : rd { s with shadows := x } o = rd s o := rfl

theorem rd_setSev (s : State) (b : FltSet) (c sev : Nat) (cons : Bool) {o : Nat} (h : o ≠ sevReg b c) :
    rd (setSev s b c sev cons) o = rd s o := rd_setF_other _ _ _ _ h

/-- Recording a fault changes FLT_STAT and FLT_SEV of the class, and PAIR_STAT for the pair engine. -/
theorem regsBut_record (s : State) (b : FltSet) (c : Nat) (detail : BitVec 96) (n : Nat) :
    RegsBut [fltBase b, sevReg b c, pairReg 0x18] s (record s b c detail n).1 := by
  intro o ho
  simp only [List.mem_cons, List.not_mem_nil, or_false, not_or] at ho
  obtain ⟨hstat, hsev, hpair⟩ := ho
  have hcond (u : State) : rd (if (faultClass b c).1 = true then
      u.setFlt b { u.flt b with cond := (u.flt b).cond ||| BitVec.ofNat 24 (2 ^ c) } else u) o = rd u o := by
    rw [rd_ite, rd_setFlt, ite_self]
  unfold record
  dsimp only
  split <;>
    simp only [rd_ite, ↓rd_setAlert, ↓rd_setF_other _ _ _ _ hpair, ↓rd_setF_other _ _ _ _ hstat, ↓rd_setSev _ _ _ _ _ hsev,
      ↓rd_count, ↓rd_withShadows, ↓rd_pushEntry, ↓hcond, ite_self]

/-- The shutdown of a tumbler changes TUMnn_RATE and TUMnn_TRN_STAT. -/
theorem regsBut_tumShutdown (s : State) (t : Tum) (f : Bool) :
    RegsBut [tumReg t 8, tumReg t 0x108] s (tumShutdown s t f) := by
  intro o ho
  simp only [List.mem_cons, List.not_mem_nil, or_false, not_or] at ho
  obtain ⟨hrate, htrn⟩ := ho
  unfold tumShutdown
  dsimp only
  rw [rd_setTum, rd_setF_other _ _ _ _ hrate]
  split
  · rw [rd_setF_other _ _ _ _ htrn, rd_setF_other _ _ _ _ htrn, rd_openShadow]
  · rfl

/-- A PARAM fault of a tumbler leaves its configuration as it is, whatever reaction it brings (R17, R410). -/
theorem rd_paramFault_tum (s : State) (t : Tum) {o : Nat} (h8 : o ≠ 8) (ht : o ≠ 0x108) (ho : o < 0xFE00) :
    rd (paramFault s (.tum t)) (tumReg t o) = rd s (tumReg t o) := by
  have hrec : rd (record s (.tum t) 0 0 1).1 (tumReg t o) = rd s (tumReg t o) := by
    refine regsBut_record s (.tum t) 0 0 1 (tumReg t o) ?_
    have := t.isLt
    simp only [List.mem_cons, List.not_mem_nil, or_false, not_or, sevReg, fltBase, tumReg, pairReg]
    omega
  have hshut (u : State) (f : Bool) : rd (tumShutdown u t f) (tumReg t o) = rd u (tumReg t o) := by
    refine regsBut_tumShutdown u t f (tumReg t o) ?_
    simp only [List.mem_cons, List.not_mem_nil, or_false, not_or, tumReg]
    omega
  unfold paramFault fault react
  dsimp only
  rw [rd_ite, rd_ite, hshut, ite_self, ite_self, hrec]

/-! ## Writes of TUMnn_PWR_CFG (R87, R99) -/

theorem regDef_pwrCfg (p : Part) (t : Tum) : regDef p (tumReg t 0x10) = some { reset := 0x100, rw := 0x1FFFF } := by
  rw [regDef_tum p t (by decide)]
  rfl

theorem inTum_gateOff (s : State) (t : Nat) : InTum t s (gateOff s t) := by
  unfold gateOff
  exact InTum.ite (InTum.refl t s) (InTum.ite ((InTum.refl t s).setMode _) (InTum.refl t s))

theorem wake_gateOff (s : State) (t : Nat) (hg : flag s (tumReg t 0x10) 16 = false) (hl : tstate s t = .light)
    (hw : (s.tum t).mode.wake = .no) : ((gateOff s t).tum t).mode.wake = .light := by
  unfold gateOff
  rw [if_neg (by simp [hg]), if_pos (by simp [hl, hw]), mode_setMode]

theorem exec_pwrCfgWrite {s : State} {t : Tum} (hr : reaches s (tumReg t 0x10) = true) (v : Reg32) :
    exec (.pwrCfgWrite t v) s = .next (wrPwrCfg s t v) := by
  change execPwrCfgWrite t v s = _
  rw [execPwrCfgWrite, atReg, hr, when_true]

theorem putReg_zero (s : State) (off : Nat) (v : Reg32) : putReg s off v 0 = wrReg s off v 0 := rfl

theorem putReg_tum (s : State) (t : Tum) {o : Nat} (ho : o < 0x10000) (v : Reg32) {rej : Nat} (hrej : rej ≠ 0) :
    putReg s (tumReg t o) v rej = paramFault (wrReg s (tumReg t o) v rej) (.tum t) := by
  rw [putReg, if_neg hrej, ownerSet_tum t ho]

theorem regsBut_wrReg (s : State) (off : Nat) (v : Reg32) (rej : Nat) : RegsBut [off] s (wrReg s off v rej) := by
  unfold wrReg
  split
  · exact regsBut_wr s off _
  · exact fun _ _ => rfl

theorem wrReg_units (s : State) (off : Nat) (v : Reg32) (rej : Nat) : (wrReg s off v rej).tums = s.tums ∧
    (wrReg s off v rej).part = s.part ∧ SameMemory s (wrReg s off v rej) := by
  unfold wrReg
  split <;> exact ⟨rfl, rfl, sameMemory_of_eq rfl rfl⟩

theorem pwrCfgWrite_taken (s : State) (t : Tum) (v : Reg32) (hr : reaches s (tumReg t 0x10) = true)
    (hv : bits v.toNat 15 0 ≠ 0) :
    Completes (.pwrCfgWrite t v) s (fun u => fld u (tumReg t 0x10) 16 0 = bits v.toNat 16 0 ∧
      (bit v.toNat 16 = false → tstate s t = .light → (s.tum t).mode.wake = .no → (u.tum t).mode.wake = .light) ∧
      RegsBut [tumReg t 0x10] s u ∧ TumsBut t s u ∧ SameMemory s u) := by
  have hwr : wrPwrCfg s t v = gateOff (wrReg s (tumReg t 0x10) v 0) t := by rw [wrPwrCfg, if_neg hv, putReg_zero]
  have hfld (hi lo : Nat) (h : hi < 17) (hlo : lo ≤ hi) :
      fld (wrReg s (tumReg t 0x10) v 0) (tumReg t 0x10) hi lo = bits v.toNat hi lo := by
    have hrw : ∀ i < 17, bit 0x1FFFF i = true := by decide
    exact fld_wrReg (regDef_pwrCfg s.part t) v (by omega) hlo (fun i hi _ => hrw i (by omega))
      (fun i _ _ => Nat.zero_testBit i) rfl rfl
  have hin := inTum_gateOff (wrReg s (tumReg t 0x10) v 0) t
  obtain ⟨htums, -, hmem⟩ := wrReg_units s (tumReg t 0x10) v 0
  have htum (k : Nat) : (wrReg s (tumReg t 0x10) v 0).tum k = s.tum k := by rw [State.tum, htums, State.tum]
  refine ⟨_, exec_pwrCfgWrite hr v, ?_⟩
  rw [hwr]
  refine ⟨(hin.fld_eq ..).trans (hfld 16 0 (by decide) (by decide)), fun hb hl hw => ?_, 
    regsBut_trans (regsBut_wrReg s _ v 0) (hin.regsBut _), fun k hk => (hin.tums k hk).trans (htum k),
    sameMemory_trans hmem hin.sameMemory⟩
  refine wake_gateOff _ t ?_ ?_ ?_
  · rw [flag_eq_of_fld (hfld 16 16 (by decide) (by decide)), hb]
  · rw [tstate, htum]
    exact hl
  · rw [htum]
    exact hw

theorem pwrCfgWrite_rejected (s : State) (t : Tum) (v : Reg32) (hr : reaches s (tumReg t 0x10) = true)
    (hv : bits v.toNat 15 0 = 0) :
    Completes (.pwrCfgWrite t v) s (fun u => fld u (tumReg t 0x10) 15 0 = fld s (tumReg t 0x10) 15 0 ∧
      flag u (tumReg t 0x10) 16 = bit v.toNat 16) := by
  have hwr : wrPwrCfg s t v = gateOff (paramFault (wrReg s (tumReg t 0x10) v (mask 15 0)) (.tum t)) t := by
    rw [wrPwrCfg, if_pos hv, putReg_tum s t (by decide) v (by decide)]
  have hrd : rd (wrPwrCfg s t v) (tumReg t 0x10) = rd (wrReg s (tumReg t 0x10) v (mask 15 0)) (tumReg t 0x10) := by
    rw [hwr, (inTum_gateOff _ t).rd_eq, rd_paramFault_tum _ t (by decide) (by decide) (by decide)]
  have hrej : ∀ i ≤ 15, 0 ≤ i → bit (mask 15 0) i = true := by decide
  have hkept : ∀ i ≤ 16, 16 ≤ i → bit (mask 15 0) i = false := by decide
  have hrw : ∀ i ≤ 16, 16 ≤ i → bit 0x1FFFF i = true := by decide
  refine ⟨_, exec_pwrCfgWrite hr v, ?_, ?_⟩
  · rw [fld, hrd]
    exact fld_wrReg_rejected (regDef_pwrCfg s.part t) v (by decide) (by decide) hrej rfl rfl
  · rw [flag, hrd]
    exact flag_eq_of_fld (fld_wrReg (regDef_pwrCfg s.part t) v (by decide) (by decide) hrw hkept rfl rfl)

/-! ## Writes of TUMnn_REF_CFG (R110, R121, R132) -/

theorem regDef_refCfg (p : Part) (t : Tum) : regDef p (tumReg t 0x20) = some { reset := 0x880, rw := 0xFF3 } := by
  rw [regDef_tum p t (by decide)]
  rfl

theorem exec_refCfgWrite {s : State} {t : Tum} (hr : reaches s (tumReg t 0x20) = true) (v : Reg32) :
    exec (.refCfgWrite t v) s = .next (wrRefCfg s t v) := by
  change execRefCfgWrite t v s = _
  rw [execRefCfgWrite, atReg, hr, when_true]

theorem inTum_sendGuard (s : State) (t : Nat) : InTum t s (sendGuard s t) :=
  InTum.foldl (fun _ _ h => h.withLeaves _) _ (InTum.refl t s)

theorem leaves_excludeQueued (s : State) (t : Nat) : (excludeQueued s t).leaves = s.leaves := rfl

theorem leaves_pauseOn (s : State) (t : Nat) : (pauseOn s t).leaves = s.leaves := by
  unfold pauseOn
  split
  · split <;> rfl
  · rfl

theorem leaves_pauseOff (s : State) (t : Nat) : (pauseOff s t).leaves = s.leaves := by
  unfold pauseOff
  split
  · rfl
  · dsimp only
    split <;> rfl

theorem leaves_checkExcess (s : State) (t : Nat) : (checkExcess s t).leaves = s.leaves := by
  unfold checkExcess
  split
  · rfl
  · split
    · rw [leaves_pauseOn, count_leaves]
      rfl
    · rfl

theorem leaves_endExcess (s : State) (t : Nat) : (endExcess s t).leaves = s.leaves := by
  unfold endExcess
  split
  · rw [leaves_pauseOff]
    rfl
  · rfl

theorem foldUpTo_succ {α : Type} (n : Nat) (f : α → Nat → α) (a : α) : foldUpTo (n + 1) f a = f (foldUpTo n f a) n := by
  simp [foldUpTo, List.range_succ]

/-- Leaf `l` takes the guard that TUMnn_REF_CFG holds. -/
def sendGuardTo (t : Nat) (s : State) (l : Nat) : State :=
  let x := tget noLeaf s.leaves l
  { s with leaves := tput noLeaf s.leaves l { x with guard := tput zero x.guard t (fld s (tumReg t 0x20) 11 8) } }

theorem guard_foldUpTo_sendGuardTo (s : State) (t n l : Nat) (hl : l < n) :
    (tget zero (tget noLeaf (foldUpTo n (sendGuardTo t) s).leaves l).guard t : Nat) = fld s (tumReg t 0x20) 11 8 := by
  induction n with
  | zero => exact absurd hl (Nat.not_lt_zero l)
  | succ n ih =>
    have hin : InTum t s (foldUpTo n (sendGuardTo t) s) := InTum.foldl (fun _ _ h => h.withLeaves _) _ (InTum.refl t s)
    rw [foldUpTo_succ]
    by_cases hn : l = n
    · simp only [sendGuardTo, hn, tget_tput_same, hin.fld_eq]
    · simp only [sendGuardTo, tget_tput_other _ _ _ hn]
      exact ih (by omega)

theorem guard_sendGuard (s : State) (t l : Nat) (hl : l < s.part.leaves) :
    (tget zero (tget noLeaf (sendGuard s t).leaves l).guard t : Nat) = fld s (tumReg t 0x20) 11 8 :=
  guard_foldUpTo_sendGuardTo s t _ l hl

/-- The part of a write of TUMnn_REF_CFG that is not the register: guards, and the payment of R116. -/
def refCfgEffects (s : State) (t : Nat) : State :=
  endExcess (checkExcess (if (s.tum t).mode.self then sendGuard s t else s) t) t

theorem inTum_refCfgEffects (s : State) (t : Nat) : InTum t s (refCfgEffects s t) :=
  (InTum.ite (inTum_sendGuard s t) (InTum.refl t s)).checkExcess.endExcess

theorem guard_refCfgEffects (s : State) (t l : Nat) (hself : (s.tum t).mode.self = true) (hl : l < s.part.leaves) :
    (tget zero (tget noLeaf (refCfgEffects s t).leaves l).guard t : Nat) = fld s (tumReg t 0x20) 11 8 := by
  rw [refCfgEffects, leaves_endExcess, leaves_checkExcess, if_pos hself, guard_sendGuard s t l hl]

theorem refCfgWrite_taken (s : State) (t : Tum) (v : Reg32) (hr : reaches s (tumReg t 0x20) = true)
    (hm : bits v.toNat 1 0 ≠ 3) (hp : bits v.toNat 7 4 ≤ 8) :
    Completes (.refCfgWrite t v) s (fun u => fld u (tumReg t 0x20) 1 0 = bits v.toNat 1 0 ∧
      fld u (tumReg t 0x20) 11 4 = bits v.toNat 11 4 ∧
      ((s.tum t).mode.self = true → ∀ l, l < s.part.leaves →
        (tget zero (tget noLeaf u.leaves l).guard t : Nat) = bits v.toNat 11 8) ∧
      RegsBut [tumReg t 0x20] s u ∧ TumsBut t s u ∧ SameMemory s u) := by
  have hwr : wrRefCfg s t v = refCfgEffects (wrReg s (tumReg t 0x20) v 0) t := by
    rw [wrRefCfg, if_neg hm, if_neg (Nat.not_lt.2 hp), putReg_zero]
    rfl
  have hfld (hi lo : Nat) (h : hi < 32) (hlo : lo ≤ hi) (hrw : ∀ i ≤ hi, lo ≤ i → bit 0xFF3 i = true) :
      fld (wrReg s (tumReg t 0x20) v 0) (tumReg t 0x20) hi lo = bits v.toNat hi lo :=
    fld_wrReg (regDef_refCfg s.part t) v h hlo hrw (fun i _ _ => Nat.zero_testBit i) rfl rfl
  have hin := inTum_refCfgEffects (wrReg s (tumReg t 0x20) v 0) t
  obtain ⟨htums, hpart, hmem⟩ := wrReg_units s (tumReg t 0x20) v 0
  have htum (k : Nat) : (wrReg s (tumReg t 0x20) v 0).tum k = s.tum k := by rw [State.tum, htums, State.tum]
  refine ⟨_, exec_refCfgWrite hr v, ?_⟩
  rw [hwr]
  refine ⟨(hin.fld_eq ..).trans (hfld 1 0 (by decide) (by decide) (by decide)),
    (hin.fld_eq ..).trans (hfld 11 4 (by decide) (by decide) (by decide)), fun hself l hl => ?_,
    regsBut_trans (regsBut_wrReg s _ v 0) (hin.regsBut _), fun k hk => (hin.tums k hk).trans (htum k),
    sameMemory_trans hmem hin.sameMemory⟩
  rw [guard_refCfgEffects _ t l (by rw [htum]; exact hself) (by rw [hpart]; exact hl)]
  exact hfld 11 8 (by decide) (by decide) (by decide)

theorem refCfgWrite_rejected (s : State) (t : Tum) (v : Reg32) (hr : reaches s (tumReg t 0x20) = true)
    (hm : bits v.toNat 1 0 = 3) :
    Completes (.refCfgWrite t v) s (fun u => fld u (tumReg t 0x20) 1 0 = fld s (tumReg t 0x20) 1 0) := by
  have hwr (rej : Nat) (hrej : rej ≠ 0) (hmult : ∀ i ≤ 1, 0 ≤ i → bit rej i = true) :
      fld (refCfgEffects (putReg s (tumReg t 0x20) v rej) t) (tumReg t 0x20) 1 0 = fld s (tumReg t 0x20) 1 0 := by
    rw [(inTum_refCfgEffects _ t).fld_eq, putReg_tum s t (by decide) v hrej, fld,
      rd_paramFault_tum _ t (by decide) (by decide) (by decide)]
    exact fld_wrReg_rejected (regDef_refCfg s.part t) v (by decide) (by decide) hmult rfl rfl
  refine ⟨_, exec_refCfgWrite hr v, ?_⟩
  rw [wrRefCfg, if_pos hm]
  by_cases hp : 8 < bits v.toNat 7 4
  · rw [if_pos hp]
    exact hwr _ (by decide) (by decide)
  · rw [if_neg hp]
    exact hwr _ (by decide) (by decide)

/-- Settles O17: the power modes and the configuration writes in their order, each by the lemma about its row. -/
theorem tumblerPowerAndConfiguration : Obligations.TumblerPowerAndConfiguration :=
  ⟨fun s t => ⟨lightEntry_enters s t, wakeComplete_wakes s t, quietEntry_enters s t, selfRefreshEntry_enters s t,
    selfRefreshExit_leaves s t⟩,
   fun s t v => ⟨pwrCfgWrite_taken s t v, pwrCfgWrite_rejected s t v, refCfgWrite_taken s t v, refCfgWrite_rejected s t v⟩⟩

end Sys2Proof.Machine
end
section
/-! PROOF. Every command goes on, but for one that names a leaf that the part does not have (O6). -/

namespace Sys2Proof.Machine

open Sys2Proof

theorem continues_next (t : State) : Continues (.next t) := ⟨t, rfl⟩

theorem continues_ite {c : Prop} [Decidable c] {a b : Out} (ha : Continues a) (hb : Continues b) :
    Continues (if c then a else b) := by
  split
  · exact ha
  · exact hb

/-- A row that names leaf `l`: it goes on where the part has the leaf, and faults where it has not (R1). -/
theorem leafRow_stops (s t : State) (l : LeafN) :
    ((∀ k : LeafN, some l = some k → k.val < s.part.leaves) →
      Continues (if s.part.leaves ≤ l.val then .fault .leafNotFitted else .next t)) ∧
    (∀ k : LeafN, some l = some k → s.part.leaves ≤ k.val →
      (if s.part.leaves ≤ l.val then (.fault .leafNotFitted : Out) else .next t) = .fault .leafNotFitted) := by
  refine ⟨fun h => ?_, fun k hk hn => ?_⟩
  · rw [if_neg (Nat.not_le.2 (h l rfl))]
    exact continues_next t
  · cases hk
    exact if_pos hn

/-! ## Rows that look for something first -/

theorem continues_waitRelease (t : Tum) (s : State) : Continues (execWaitRelease t s) := by
  unfold execWaitRelease
  split <;> exact continues_next _

theorem continues_codeWordDecode (t : Tum) (f : List CodeWord) (s : State) : Continues (execCodeWordDecode t f s) := by
  unfold execCodeWordDecode
  split <;> exact continues_next _

theorem continues_trnStepBoundary (t : Tum) (m : BitVec 336) (s : State) : Continues (execTrnStepBoundary t m s) := by
  unfold execTrnStepBoundary
  split <;> exact continues_next _

theorem continues_windowEvaluation (s : State) : Continues (execWindowEvaluation s) := by
  unfold execWindowEvaluation
  split <;> exact continues_next _

theorem continues_eyeScanDone (p : PortN) (n : List Nat) (low : Bool) (s : State) :
    Continues (execEyeScanDone p n low s) := by
  unfold execEyeScanDone
  split <;> exact continues_next _

theorem continues_commandTake (c : CmdSrc) (s : State) : Continues (execCommandTake c s) := by
  unfold execCommandTake
  split <;> exact continues_next _

theorem continues_latchTick (s : State) : Continues (execLatchTick s) := by
  unfold execLatchTick
  split <;> exact continues_next _

theorem continues_resyncLine (p : PortN) (k : PairPkt) (s : State) : Continues (execResyncLine p k s) :=
  continues_ite (continues_next _) (continues_next _)

/-- Settles O6. -/
theorem onlyAnAbsentLeafStops : Obligations.OnlyAnAbsentLeafStops := by
  intro i s
  have noLeaf {P : LeafN → Prop} : ∀ l, (none : Option LeafN) = some l → P l := fun _ h => nomatch h
  cases i
  case refreshDue t l k => exact leafRow_stops s _ l
  case trasmaxExpiry t l g b => exact leafRow_stops s _ l
  case idleClose t l g b => exact leafRow_stops s _ l
  case leafSelfRefresh l z x => exact leafRow_stops s _ l
  case waitRelease t => exact ⟨fun _ => continues_waitRelease t s, noLeaf⟩
  case codeWordDecode t f => exact ⟨fun _ => continues_codeWordDecode t f s, noLeaf⟩
  case trnStepBoundary t m => exact ⟨fun _ => continues_trnStepBoundary t m s, noLeaf⟩
  case windowEvaluation => exact ⟨fun _ => continues_windowEvaluation s, noLeaf⟩
  case eyeScanDone p n low => exact ⟨fun _ => continues_eyeScanDone p n low s, noLeaf⟩
  case commandTake c => exact ⟨fun _ => continues_commandTake c s, noLeaf⟩
  case latchTick => exact ⟨fun _ => continues_latchTick s, noLeaf⟩
  case resyncLine p k => exact ⟨fun _ => continues_resyncLine p k s, noLeaf⟩
  all_goals exact ⟨fun _ => continues_next _, noLeaf⟩

end Sys2Proof.Machine
end
section
/-! PROOF. No command changes the queue behind it or the part fitted (O5): the rules.

The `Kept` laws say this of a state in canonical form only, and O5 supposes no form. `Queued` is the same frame without
it: one rule for each operation, each proved from the rules of the operations it calls. -/

namespace Sys2Proof.Machine

open Sys2Proof

/-- State `s` holds the queue `q` of waiting commands and the part `p`. -/
structure Queued (q : List Instr) (p : Part) (s : State) : Prop where
  pending : s.pending = q
  part : s.part = p

/-- The next state of outcome `o`, where there is one, holds the queue `q` and the part `p`. -/
structure QueuedOut (q : List Instr) (p : Part) (o : Out) : Prop where
  queued : ∀ t, o = .next t → Queued q p t

variable {q : List Instr} {p : Part}

/-- An update of other fields. -/
theorem Queued.update {s : State} (h : Queued q p s)
    (now : BitVec 64) (free : Nat) (csr : Tab Reg32) (shadow : Tab (Option Reg32)) (readOut : Tab Reg32)
    (dram sram mram : List Host.Cell) (mramFenced : Bool) (tums : Tab Tumbler) (leaves : Tab LeafS)
    (waiting : List Access) (live : List (Nat × BitVec 18 × BitVec 12)) (nextId : Nat) (sweeps : List SweepT)
    (clears : List ClearCmd) (reinits : List Reinit) (engines : Tab Engine) (scans : Tab (Option Scan)) (ward : Ward)
    (ports : Tab Port) (pair : Pair) (cmds : Cmds) (rings : Tab RingS) (dmas : List Dma) (usb : Usb)
    (cores : Tab Core) (update : Option Update) (pulses : List (BitVec 12 × Word64)) (flts : Tab FltS)
    (shadows : List Shadow) (logTail : List Entry) (logSeq : BitVec 32) (counts : Tab (BitVec 48)) (dump : Dump)
    (power : Power) (thermal : Thermal) (calib : Calib) (i3c : I3c) (jtag : Jtag) :
    Queued q p (State.mk s.part s.pending now free csr shadow readOut dram sram mram mramFenced tums leaves waiting
      live nextId sweeps clears reinits engines scans ward ports pair cmds rings dmas usb cores update pulses flts
      shadows logTail logSeq counts dump power thermal calib i3c jtag) := ⟨h.pending, h.part⟩

theorem Queued.ite {s t : State} {c : Prop} [Decidable c] (hs : Queued q p s) (ht : Queued q p t) :
    Queued q p (if c then s else t) := by
  split
  · exact hs
  · exact ht

/-- An operation that is done where a condition holds. -/
theorem Queued.ifThen {s t : State} {c : Prop} [Decidable c] (hs : Queued q p s)
    (ht : Queued q p s → Queued q p t) : Queued q p (if c then t else s) := (ht hs).ite hs

/-- An operation that is done where a condition fails. -/
theorem Queued.ifElse {s t : State} {c : Prop} [Decidable c] (hs : Queued q p s)
    (ht : Queued q p s → Queued q p t) : Queued q p (if c then s else t) := hs.ite (ht hs)

/-- One of two operations on the same state. -/
theorem Queued.branch {s t u : State} {c : Prop} [Decidable c] (hs : Queued q p s)
    (ht : Queued q p s → Queued q p t) (hu : Queued q p s → Queued q p u) :
    Queued q p (if c then t else u) := (ht hs).ite (hu hs)

theorem Queued.ite_fst {α : Type} {c : Prop} [Decidable c] {u v : State × α} (hu : Queued q p u.1)
    (hv : Queued q p v.1) : Queued q p (if c then u else v).1 := by
  split
  · exact hu
  · exact hv

theorem Queued.when {s t : State} (hs : Queued q p s) (ht : Queued q p t) (c : Bool) :
    Queued q p (when c s t) := by
  unfold Machine.when
  exact ht.ite hs

/-- What a choice of a result, or of none, gives where it gives one. -/
theorem Queued.ofIfSome {α : Type} {c : Prop} [Decidable c] {s t : State} {x y : α} (hs : Queued q p s)
    (h : (if c then none else some (x, s)) = some (y, t)) : Queued q p t := by
  split at h
  · cases h
  · cases h
    exact hs

/-! Loops: over the states, and over states paired with a result. -/

theorem Queued.foldl {β : Type} {s : State} {f : State → β → State} (h : Queued q p s)
    (hf : ∀ s b, Queued q p s → Queued q p (f s b)) (l : List β) : Queued q p (l.foldl f s) := by
  induction l generalizing s with
  | nil => exact h
  | cons b r ih => exact ih (hf s b h)

theorem Queued.foldUpTo {s : State} {f : State → Nat → State} (h : Queued q p s)
    (hf : ∀ s b, Queued q p s → Queued q p (f s b)) (n : Nat) : Queued q p (foldUpTo n f s) :=
  h.foldl hf _

theorem Queued.foldl_fst {β γ : Type} {u : State × γ} {f : State × γ → β → State × γ} (h : Queued q p u.1)
    (hf : ∀ u b, Queued q p u.1 → Queued q p (f u b).1) (l : List β) : Queued q p (l.foldl f u).1 := by
  induction l generalizing u with
  | nil => exact h
  | cons b r ih => exact ih (hf u b h)

theorem Queued.foldUpTo_fst {γ : Type} {u : State × γ} {f : State × γ → Nat → State × γ} (h : Queued q p u.1)
    (hf : ∀ u b, Queued q p u.1 → Queued q p (f u b).1) (n : Nat) : Queued q p (Machine.foldUpTo n f u).1 :=
  h.foldl_fst hf _

theorem Queued.foldl_snd {β γ : Type} {u : γ × State} {f : γ × State → β → γ × State} (h : Queued q p u.2)
    (hf : ∀ u b, Queued q p u.2 → Queued q p (f u b).2) (l : List β) : Queued q p (l.foldl f u).2 := by
  induction l generalizing u with
  | nil => exact h
  | cons b r ih => exact ih (hf u b h)

theorem Queued.foldUpTo_snd {γ : Type} {u : γ × State} {f : γ × State → Nat → γ × State} (h : Queued q p u.2)
    (hf : ∀ u b, Queued q p u.2 → Queued q p (f u b).2) (n : Nat) : Queued q p (Machine.foldUpTo n f u).2 :=
  h.foldl_snd hf _

theorem Queued.csrRun {u : CsrRun} {f : CsrRun → Nat → CsrRun} (h : Queued q p u.st)
    (hf : ∀ u i, Queued q p u.st → Queued q p (f u i).st) (l : List Nat) : Queued q p (l.foldl f u).st := by
  induction l generalizing u with
  | nil => exact h
  | cons i r ih => exact ih (hf u i h)

/-! Outcomes. -/

theorem Queued.next {s : State} (h : Queued q p s) : QueuedOut q p (.next s) where
  queued t ht := by
    cases ht
    exact h

theorem QueuedOut.fault (f : Fault) : QueuedOut q p (.fault f) where
  queued t ht := by cases ht

theorem QueuedOut.ite {a b : Out} {c : Prop} [Decidable c] (ha : QueuedOut q p a) (hb : QueuedOut q p b) :
    QueuedOut q p (if c then a else b) := by
  split
  · exact ha
  · exact hb

variable {s : State}

/-! ## Registers -/

theorem Queued.wr (h : Queued q p s) (off : Nat) (v : Reg32) : Queued q p (wr s off v) := by
  unfold Machine.wr
  exact h.update ..

theorem Queued.resetRegs (h : Queued q p s) (f : Nat → Bool) : Queued q p (resetRegs s f) := by
  unfold Machine.resetRegs
  exact h.update ..

/-! ## Fields -/

theorem Queued.setF (hs : Queued q p s) (off hi lo v : Nat) : Queued q p (setF s off hi lo v) := by
  unfold Machine.setF
  exact hs.wr ..

theorem Queued.wrReg (hs : Queued q p s) (off : Nat) (v : Reg32) (rej : Nat) :
    Queued q p (wrReg s off v rej) := by
  unfold Machine.wrReg
  split
  · exact hs.wr ..
  · exact hs

/-! ## The parts of the state and the operations on them -/

theorem Queued.setTum (hs : Queued q p s) (t : Nat) (x : Tumbler) : Queued q p (State.setTum s t x) := by
  unfold State.setTum
  exact hs.update ..

theorem Queued.modTum (hs : Queued q p s) (t : Nat) (f : Tumbler → Tumbler) :
    Queued q p (State.modTum s t f) := by
  unfold State.modTum
  exact hs.setTum ..

theorem Queued.setPort (hs : Queued q p s) (p0 : Nat) (x : Port) : Queued q p (State.setPort s p0 x) := by
  unfold State.setPort
  exact hs.update ..

theorem Queued.modPort (hs : Queued q p s) (p0 : Nat) (f : Port → Port) : Queued q p (State.modPort s p0 f) := by
  unfold State.modPort
  exact hs.setPort ..

theorem Queued.setCore (hs : Queued q p s) (c : Nat) (x : Core) : Queued q p (State.setCore s c x) := by
  unfold State.setCore
  exact hs.update ..

theorem Queued.setEng (hs : Queued q p s) (n : Nat) (x : Engine) : Queued q p (State.setEng s n x) := by
  unfold State.setEng
  exact hs.update ..

theorem Queued.setRing (hs : Queued q p s) (n : Nat) (x : RingS) : Queued q p (State.setRing s n x) := by
  unfold State.setRing
  exact hs.update ..

theorem Queued.setFlt (hs : Queued q p s) (b : FltSet) (x : FltS) : Queued q p (State.setFlt s b x) := by
  unfold State.setFlt
  exact hs.update ..

theorem Queued.setScan (hs : Queued q p s) (n : Nat) (x : Option Scan) : Queued q p (State.setScan s n x) := by
  unfold State.setScan
  exact hs.update ..

theorem Queued.setMode (hs : Queued q p s) (t : Nat) (f : TMode → TMode) : Queued q p (setMode s t f) := by
  unfold Machine.setMode
  exact hs.modTum ..

theorem Queued.setQ (hs : Queued q p s) (t : Nat) (f : TQueue → TQueue) : Queued q p (setQ s t f) := by
  unfold Machine.setQ
  exact hs.modTum ..

theorem Queued.setDram (hs : Queued q p s) (t : Nat) (f : TDram → TDram) : Queued q p (setDram s t f) := by
  unfold Machine.setDram
  exact hs.modTum ..

theorem Queued.setPhy (hs : Queued q p s) (p0 : Nat) (f : PhyS → PhyS) : Queued q p (setPhy s p0 f) := by
  unfold Machine.setPhy
  exact hs.modPort ..

theorem Queued.fresh (hs : Queued q p s) : Queued q p (fresh s).2 := by
  unfold Machine.fresh
  exact hs.update ..

theorem Queued.count (hs : Queued q p s) (slot n : Nat) : Queued q p (count s slot n) := by
  unfold Machine.count
  exact hs.ite (hs.update ..)

theorem Queued.raise (hs : Queued q p s) (src data : Nat) : Queued q p (raise s src data) := by
  unfold Machine.raise
  exact hs.update ..

theorem Queued.ibi (hs : Queued q p s) (b : Byte) (i : Nat) : Queued q p (ibi s b i) := by
  unfold Machine.ibi
  exact (hs.update ..).ite hs

theorem Queued.mramPut (hs : Queued q p s) (a : Nat) (l : List Byte) : Queued q p (mramPut s a l) := by
  unfold Machine.mramPut
  exact hs.ite ((hs.update ..).count ..)

theorem Queued.setSev (hs : Queued q p s) (b : FltSet) (c sev : Nat) (cons : Bool) :
    Queued q p (setSev s b c sev cons) := by
  unfold Machine.setSev
  exact hs.setF ..

theorem Queued.setAlert (hs : Queued q p s) (a : Bool) : Queued q p (setAlert s a) := by
  unfold Machine.setAlert
  exact ((hs.update ..).ibi ..).ite (hs.update ..)

theorem Queued.openShadow (hs : Queued q p s) (b : FltSet) (fatal : Bool) :
    Queued q p (openShadow s b fatal) := by
  unfold Machine.openShadow
  exact hs.update ..

theorem Queued.pushEntry (hs : Queued q p s) (b : FltSet) (c sev : Nat) (conseq esc : Bool) (detail : BitVec 96)
    (n : Nat) :
    Queued q p (pushEntry s b c sev conseq esc detail n) := by
  unfold Machine.pushEntry
  exact (hs.setFlt ..).update ..

theorem Queued.record (hs : Queued q p s) (b : FltSet) (c : Nat) (detail : BitVec 96) (n : Nat) :
    Queued q p (record s b c detail n).1 := by
  unfold Machine.record
  dsimp only
  split
  · exact ((hs.setFlt ..).ite hs).count ..
  · exact (((((((hs.setFlt ..).ite hs).pushEntry ..).setF ..).setSev ..).update ..).ifThen
      (·.setAlert ..)).ifThen (·.setF ..)
  · exact ((((((hs.setFlt ..).ite hs).pushEntry ..).setF ..).setSev ..).ifThen (·.setF ..)).ifThen
      (·.setAlert ..)

theorem Queued.recordQuiet (hs : Queued q p s) (b : FltSet) (c : Nat) (detail : BitVec 96) (n : Nat) :
    Queued q p (recordQuiet s b c detail n) := by
  unfold Machine.recordQuiet
  exact hs.record ..

theorem Queued.condEnd (hs : Queued q p s) (b : FltSet) (c : Nat) : Queued q p (condEnd s b c) := by
  unfold Machine.condEnd
  exact hs.setFlt ..

theorem Queued.dropTaken (hs : Queued q p s) (src : CmdSrc) : Queued q p (dropTaken s src) := by
  unfold Machine.dropTaken
  exact hs.update ..

theorem Queued.discardReply (hs : Queued q p s) (n : Nat) : Queued q p (discardReply s n) := by
  unfold Machine.discardReply
  exact (hs.setF ..).count ..

theorem Queued.sendReply (hs : Queued q p s) (r : Reply) : Queued q p (sendReply s r) := by
  unfold Machine.sendReply
  dsimp only
  split
  · exact ((hs.count ..).setRing ..).ite ((hs.count ..).discardReply ..)
  · exact ((hs.count ..).count ..).ite ((hs.count ..).modPort ..)

theorem Queued.reply (hs : Queued q p s) (c : Cmd) (status : BitVec 16) (result : Nat) (data : List Byte) :
    Queued q p (reply s c status result data) := by
  unfold Machine.reply
  dsimp only
  refine Queued.ite ?_ ((hs.update ..).sendReply ..)
  split
  · exact (hs.update ..).count ..
  · exact (hs.update ..).discardReply ..

theorem Queued.answer (hs : Queued q p s) (c : Cmd) (status : BitVec 16) : Queued q p (answer s c status) := by
  unfold Machine.answer
  exact hs.reply ..

theorem Queued.answerOpt (hs : Queued q p s) (c : Option Cmd) (status : BitVec 16) :
    Queued q p (answerOpt s c status) := by
  unfold Machine.answerOpt
  split
  · exact hs.answer ..
  · exact hs

/-! ## Faults and completions -/

theorem Queued.leaveStore (hs : Queued q p s) (p0 : Nat) : Queued q p (leaveStore s p0) := by
  unfold Machine.leaveStore
  exact hs.modPort ..

theorem Queued.doneLive (hs : Queued q p s) (id : Nat) (f : BitVec 18) : Queued q p (doneLive s id f) := by
  unfold Machine.doneLive
  exact (hs.update ..).setF ..

theorem Queued.histogram (hs : Queued q p s) (t c l : Nat) : Queued q p (histogram s t c l) := by
  unfold Machine.histogram
  exact (hs.count ..).count ..

theorem Queued.wardDone (hs : Queued q p s) (id lat : Nat) (fenced : Bool) :
    Queued q p (wardDone s id lat fenced) := by
  unfold Machine.wardDone
  exact hs.update ..

theorem Queued.pushCmp (hs : Queued q p s) (port : Option PortN) (gen : BitVec 2) (c : Cmp) :
    Queued q p (pushCmp s port gen c).1 := by
  unfold Machine.pushCmp
  dsimp only
  split
  · exact hs
  · split
    · exact hs.setPort ..
    · exact hs.count ..

theorem Queued.countCmp (hs : Queued q p s) (c : Cmp) : Queued q p (countCmp s c) := by
  unfold Machine.countCmp
  exact ((((hs.count ..).ite hs).ifThen (·.count ..)).ifThen (·.count ..)).ifThen (·.count ..)

theorem Queued.scanWriteDone (hs : Queued q p s) (k : Nat) (st : BitVec 4) :
    Queued q p (scanWriteDone s k st) := by
  unfold Machine.scanWriteDone
  split
  · exact hs
  · exact (hs.setScan ..).ite ((hs.setScan ..).ite ((hs.setScan ..).ite ((hs.setScan ..).ite
      ((hs.fresh ..).setScan ..))))

theorem Queued.dmaStatus (hs : Queued q p s) (st : BitVec 4) : Queued q p (dmaStatus s st).2 := by
  unfold Machine.dmaStatus
  split
  · exact hs
  · split
    · exact hs
    · split
      · exact hs
      · split
        · exact hs
        · exact hs.fresh ..

theorem Queued.dmaEnd (hs : Queued q p s) (d : Dma) (st : BitVec 16) : Queued q p (dmaEnd s d st) := by
  unfold Machine.dmaEnd
  exact (hs.update ..).reply ..

theorem Queued.dmaLine (hs : Queued q p s) (a : Access) (c : Cmp) : Queued q p (dmaLine s a c) := by
  unfold Machine.dmaLine
  split
  · exact hs
  · exact (((hs.update ..).branch (fun h => (h.update ..).count ..) (·.count ..)).ifThen (·.dmaEnd ..)).ite
      ((hs.dmaStatus ..).dmaEnd ..)

theorem Queued.cntFence (hs : Queued q p s) : Queued q p (cntFence s) := by
  unfold Machine.cntFence
  exact (hs.update ..).setF ..

theorem Queued.dumpLine (hs : Queued q p s) (st : BitVec 4) : Queued q p (dumpLine s st) := by
  unfold Machine.dumpLine
  exact hs.ite ((((hs.update ..).count ..).record ..).ifThen (·.cntFence ..))

theorem Queued.masterDone (hs : Queued q p s) (m : Master) (a : Access) (c : Cmp) (queued : Bool) :
    Queued q p (masterDone s m a c queued) := by
  unfold Machine.masterDone
  split
  · exact ((hs.doneLive ..).ifThen (fun h => (h.histogram ..).wardDone ..)).scanWriteDone ..
  · exact (((hs.doneLive ..).histogram ..).ite (hs.doneLive ..)).dmaLine ..
  · exact hs.dumpLine ..
  · exact hs

theorem Queued.completeCore (hs : Queued q p s) (a : Access) (c : Cmp) (queued : Bool) :
    Queued q p (completeCore s a c queued).1 := by
  unfold Machine.completeCore
  split
  · exact hs.masterDone ..
  · exact ((((hs.doneLive ..).countCmp ..).ifThen (fun h => (h.histogram ..).wardDone ..)).ifThen
      (·.count ..)).pushCmp ..

theorem Queued.completeQuiet (hs : Queued q p s) (a : Access) (c : Cmp) (queued : Bool) :
    Queued q p (completeQuiet s a c queued) := by
  unfold Machine.completeQuiet
  have h1 := hs.completeCore a c queued
  split
  · rename_i he
    rw [he] at h1
    exact h1
  · rename_i he
    rw [he] at h1
    exact h1.recordQuiet ..

theorem Queued.sendPair (hs : Queued q p s) (p0 ty : Nat) (k : PairPkt) : Queued q p (sendPair s p0 ty k) := by
  unfold Machine.sendPair
  exact hs.ite ((hs.modPort ..).update ..)

theorem Queued.helloAll (hs : Queued q p s) (sub reason : Nat) : Queued q p (helloAll s sub reason) := by
  unfold Machine.helloAll
  exact hs.foldl (fun _ _ hu => hu.sendPair ..) ..

theorem Queued.endEye (hs : Queued q p s) (p0 : Nat) : Queued q p (endEye s p0) := by
  unfold Machine.endEye
  dsimp only
  refine hs.ite (Queued.setPhy (Queued.ifThen (Queued.setF (Queued.setF (Queued.setF ?_ ..) ..) ..) (·.setF ..)) ..)
  split
  · exact hs
  · exact hs.fresh

theorem Queued.dropInjection (hs : Queued q p s) (p0 : Nat) : Queued q p (dropInjection s p0) := by
  unfold Machine.dropInjection
  exact (hs.setF ..).ite hs

theorem Queued.portRegsOff (hs : Queued q p s) (p0 : Nat) : Queued q p (portRegsOff s p0) := by
  unfold Machine.portRegsOff
  exact ((((hs.wr ..).foldUpTo (fun _ _ hu => hu.setF ..) ..).wr ..).endEye ..).dropInjection ..

theorem Queued.portReset (hs : Queued q p s) (p0 : PortN) (dest : LinkState) :
    Queued q p (portReset s p0 dest) := by
  unfold Machine.portReset
  exact ((((((hs.openShadow ..).count ..).count ..).dropTaken ..).ifElse (fun h =>
    (h.count ..).recordQuiet ..)).portRegsOff ..).setPort ..

theorem Queued.portLatch (hs : Queued q p s) (p0 : PortN) : Queued q p (portLatch s p0) := by
  unfold Machine.portLatch
  exact ((hs.setF ..).modPort ..).portReset ..

theorem Queued.retarget (hs : Queued q p s) (c : Nat) : Queued q p (retarget s c) := by
  unfold Machine.retarget
  dsimp only
  split
  · exact hs.foldl (fun _ _ hu => hu.setF ..) ..
  · exact hs.ite ((hs.recordQuiet ..).count ..)

theorem Queued.coreShutdown (hs : Queued q p s) (c : CoreN) : Queued q p (coreShutdown s c) := by
  unfold Machine.coreShutdown
  exact ((hs.openShadow ..).setCore ..).retarget ..

theorem Queued.endScans (hs : Queued q p s) (f : Scan → Bool) (status : BitVec 8) :
    Queued q p (endScans s f status) := by
  unfold Machine.endScans
  refine Queued.foldUpTo hs (fun _ _ hu => ?_) ..
  split
  · exact (hu.setScan ..).ite hu
  · exact hu

theorem Queued.engShutdown (hs : Queued q p s) (n : Tum) : Queued q p (engShutdown s n) := by
  unfold Machine.engShutdown
  exact ((hs.openShadow ..).setEng ..).endScans ..

theorem Queued.tumShutdown (hs : Queued q p s) (t : Tum) (fault : Bool) :
    Queued q p (tumShutdown s t fault) := by
  unfold Machine.tumShutdown
  dsimp only
  refine ((Queued.setF ?_ ..).setTum ..)
  split
  · exact ((hs.openShadow ..).setF ..).setF ..
  · exact hs.openShadow ..

theorem Queued.leafReset (hs : Queued q p s) (l : LeafN) : Queued q p (leafReset s l) := by
  unfold Machine.leafReset
  exact ((hs.openShadow ..).count ..).foldl (fun _ _ hu => ((((hu.count ..).setF ..).setF ..).ite
    (hu.count ..)).setTum ..) ..

theorem Queued.setDiverged (hs : Queued q p s) (r : Nat) : Queued q p (setDiverged s r) := by
  unfold Machine.setDiverged
  exact hs.ite (((hs.setF ..).count ..).update ..)

theorem Queued.abortUnsent (hs : Queued q p s) (queued : Bool) (a : Access) :
    Queued q p (abortUnsent s queued a) := by
  unfold Machine.abortUnsent
  dsimp only
  refine Queued.completeQuiet ?_ ..
  split
  · exact hs.ite (hs.leaveStore ..)
  · exact hs

theorem Queued.freeDead (hs : Queued q p s) (h : HeldPkt) : Queued q p (freeDead s h) := by
  unfold Machine.freeDead
  dsimp only
  split
  · exact ((hs.setDiverged ..).ite hs).completeQuiet ..
  · exact (hs.setDiverged ..).ite hs

theorem Queued.pairLatch (hs : Queued q p s) : Queued q p (pairLatch s) := by
  unfold Machine.pairLatch
  refine Queued.ifElse ((((hs.foldl (fun _ _ hu => hu.answer ..) ..).update ..).update ..).openShadow ..) (fun h => ?_)
  exact (((h.foldl (fun _ _ hu => hu.freeDead ..) ..).update ..).foldl (fun _ _ hu => hu.abortUnsent ..) ..).foldl
    (fun _ _ hu => (hu.setQ ..).foldl (fun _ _ hv => hv.abortUnsent ..) ..) ..

theorem Queued.beginDrain (hs : Queued q p s) (c : DrainCause) : Queued q p (beginDrain s c) := by
  unfold Machine.beginDrain
  exact ((((hs.setF ..).setF ..).helloAll ..).foldl (fun _ _ hu => hu.modPort ..) ..).update ..

theorem Queued.stopRing (hs : Queued q p s) (n : RingN) : Queued q p (stopRing s n) := by
  unfold Machine.stopRing
  exact ((hs.setRing ..).dropTaken ..).ifElse (fun h => (h.setF ..).count ..)

theorem Queued.stopRings (hs : Queued q p s) : Queued q p (stopRings s) := by
  unfold Machine.stopRings
  exact hs.foldl (fun _ _ hu => (hu.stopRing ..).setRing ..) ..

theorem Queued.fatalStop (hs : Queued q p s) (b : FltSet) : Queued q p (fatalStop s b) := by
  unfold Machine.fatalStop
  exact ((((((hs.openShadow ..).update ..).wr ..).foldl (fun _ _ hu => hu.portReset ..) ..).stopRings ..).foldl
    (fun _ _ hu => hu.setCore ..) ..).setAlert ..

theorem Queued.react (hs : Queued q p s) (b : FltSet) (c sev : Nat) : Queued q p (react s b c sev) := by
  unfold Machine.react
  refine Queued.ite hs ?_
  split
  · exact hs.ite (hs.tumShutdown ..)
  · exact hs.ite (hs.engShutdown ..)
  · exact hs.ite (hs.portLatch ..)
  · exact hs.ite (hs.coreShutdown ..)
  · exact hs.leafReset ..
  · exact hs.ite (hs.pairLatch ..)
  · exact hs.cntFence ..
  · exact (hs.update ..).stopRings ..
  · exact (hs.update ..).ite (hs.ite (hs.fatalStop ..))
  · exact ((hs.foldl (fun _ _ hu => hu.setF ..) ..).update ..).ite (hs.ite (hs.fatalStop ..))
  · exact ((hs.beginDrain ..).ite hs).ite (hs.ite (hs.fatalStop ..))
  · exact (hs.update ..).ite (hs.ite ((hs.fatalStop ..).ifThen (fun h => (h.update ..).setF ..)))
  · exact hs.ite (hs.fatalStop ..)

theorem Queued.fault (hs : Queued q p s) (b : FltSet) (c : Nat) (detail : BitVec 96) (n : Nat) :
    Queued q p (fault s b c detail n) := by
  unfold Machine.fault
  exact (hs.record ..).react ..

theorem Queued.paramFault (hs : Queued q p s) (b : FltSet) : Queued q p (paramFault s b) := by
  unfold Machine.paramFault
  exact hs.fault ..

theorem Queued.complete (hs : Queued q p s) (a : Access) (c : Cmp) (queued : Bool) :
    Queued q p (complete s a c queued) := by
  unfold Machine.complete
  have h1 := hs.completeCore a c queued
  split
  · rename_i he
    rw [he] at h1
    exact h1
  · rename_i he
    rw [he] at h1
    exact h1.fault ..

theorem Queued.mramStore (hs : Queued q p s) (a : Nat) (l : List Byte) (ok : Bool) :
    Queued q p (mramStore s a l ok).1 := by
  unfold Machine.mramStore
  split
  · exact hs
  · split
    · exact hs.mramPut ..
    · exact ((hs.count ..).count ..).fault ..

theorem Queued.storeRegion (hs : Queued q p s) (r : Nat) : Queued q p (storeRegion s r) := by
  unfold Machine.storeRegion
  exact hs.mramPut ..

theorem Queued.storeRemap (hs : Queued q p s) (i : Nat) : Queued q p (storeRemap s i) := by
  unfold Machine.storeRemap
  exact hs.mramPut ..

theorem Queued.storeLeaf (hs : Queued q p s) (t : Nat) : Queued q p (storeLeaf s t) := by
  unfold Machine.storeLeaf
  exact hs.mramPut ..

end Sys2Proof.Machine
end

section
/-! PROOF. No command changes the queue behind it or the part fitted (O5): the rules.
The memory: addresses, the queue and the command slots of a tumbler, and its rows. -/

namespace Sys2Proof.Machine

open Sys2Proof

variable {q : List Instr} {p : Part} {s : State}

/-! ## Code words and their repair -/

theorem Queued.setRole (hs : Queued q p s) (t l role logical : Nat) :
    Queued q p (setRole s t l role logical) := by
  unfold Machine.setRole
  exact (hs.setF ..).setF ..

theorem Queued.putWordRaw (hs : Queued q p s) (t : Nat) (l : Loc) (col w : Nat) (v : CodeWord) :
    Queued q p (putWordRaw s t l col w v) := by
  unfold Machine.putWordRaw
  exact hs.update ..

theorem Queued.putWord (hs : Queued q p s) (t : Nat) (l : Loc) (col w : Nat) (v : CodeWord) :
    Queued q p (putWord s t l col w v) := by
  unfold Machine.putWord
  exact (hs.putWordRaw ..).modTum ..

theorem Queued.putBoth (hs : Queued q p s) (t : Nat) (l : Loc) (x w : Nat) (v : CodeWord) :
    Queued q p (putBoth s t l x w v) := by
  unfold Machine.putBoth
  dsimp only
  split
  · exact (hs.putWord ..).putWord ..
  · exact hs.putWord ..

theorem Queued.writeBack (hs : Queued q p s) (t : Nat) (l : Loc) (x w : Nat) (v : CodeWord) :
    Queued q p (writeBack s t l x w v) := by
  unfold Machine.writeBack
  dsimp only
  split
  · exact (hs.putWordRaw ..).putWordRaw ..
  · exact hs.putWordRaw ..

theorem Queued.loseBits (hs : Queued q p s) (t : Nat) (l : Loc) (col w : Nat) (f : CodeWord) :
    Queued q p (loseBits s t l col w f) := by
  unfold Machine.loseBits
  exact hs.ite (hs.putWordRaw ..)

theorem Queued.wordRecord (hs : Queued q p s) (t : Nat) (l : Loc) (x w : Nat) (hard : Bool) :
    Queued q p (wordRecord s t l x w hard) := by
  unfold Machine.wordRecord
  exact (hs.wr ..).setF ..

theorem Queued.classHard (hs : Queued q p s) (t : Nat) (l : Loc) (x w : Nat) :
    Queued q p (classHard s t l x w) := by
  unfold Machine.classHard
  exact (((hs.wordRecord ..).count ..).fault ..).raise ..

theorem Queued.cwcDrop (hs : Queued q p s) (t k : Nat) : Queued q p (cwcDrop s t k) := by
  unfold Machine.cwcDrop
  exact hs.modTum ..

theorem Queued.cwcPut (hs : Queued q p s) (t : Nat) (e : CwcEntry) : Queued q p (cwcPut s t e).1 := by
  unfold Machine.cwcPut
  refine Queued.ite_fst ?_ (Queued.ite_fst ?_ ?_)
  · dsimp only
    exact hs.modTum ..
  · dsimp only
    exact hs.modTum ..
  · split
    · dsimp only
      exact hs.modTum ..
    · exact hs.count ..

theorem Queued.corrected (hs : Queued q p s) (t : Nat) (l : Loc) (x w : Nat) (double : Bool) :
    Queued q p (corrected s t l x w double).1 := by
  unfold Machine.corrected
  have h1 : Queued q p (Machine.count s (cTum t (if double then 17 else 16)) 1) := hs.count ..
  exact Queued.ite_fst ((h1.cwcDrop ..).classHard ..)
    (Queued.ite_fst (h1.cwcPut ..) (Queued.ite_fst (h1.cwcPut ..) (h1.cwcPut ..)))

theorem Queued.decodeAt (hs : Queued q p s) (t : Nat) (l : Loc) (x w e : Nat) (v : CodeWord) :
    Queued q p (decodeAt s t l x w e v).1 := by
  unfold Machine.decodeAt
  extract_lets d still
  clear_value d still
  split
  · exact hs
  · exact hs
  · exact ((((hs.putBoth ..).ite hs).wordRecord ..).count ..).fault ..
  · have h1 := hs.corrected t l x w (d.cls == .double)
    exact ((h1.writeBack ..).count ..).ite h1

theorem Queued.decodeRead (hs : Queued q p s) (t : Nat) (l : Loc) (x e : Nat) (ws flips : List CodeWord)
    (pick : Nat → Bool) :
    Queued q p (decodeRead s t l x e ws flips pick).1 := by
  unfold Machine.decodeRead
  dsimp only
  refine Queued.foldUpTo_fst (hs.foldUpTo (fun _ _ hu => (hu.loseBits ..).ite hu) ..) (fun _ _ hu => ?_) ..
  split
  · exact hu.decodeAt ..
  · exact hu

theorem Queued.decodeLine (hs : Queued q p s) (t : Nat) (l : Loc) (x e : Nat) (flips : List CodeWord)
    (pick : Nat → Bool) :
    Queued q p (decodeLine s t l x e flips pick).1 := by
  unfold Machine.decodeLine
  exact hs.decodeRead ..

theorem Queued.flowStart (hs : Queued q p s) (id : Nat) (f : BitVec 18) : Queued q p (flowStart s id f) := by
  unfold Machine.flowStart
  exact (hs.update ..).setF ..

/-! ## Pair packets sent -/

theorem Queued.clearDiverged (hs : Queued q p s) (r : Nat) : Queued q p (clearDiverged s r) := by
  unfold Machine.clearDiverged
  exact ((hs.setF ..).update ..).ite hs

theorem Queued.sendHeld (hs : Queued q p s) (h : HeldPkt) : Queued q p (sendHeld s h).1 := by
  unfold Machine.sendHeld
  exact (hs.update ..).sendPair ..

theorem Queued.sendSeq (hs : Queued q p s) (ty r : Nat) (k : PairPkt) (done : Option (Access × Cmp)) :
    Queued q p (sendSeq s ty r k done) := by
  unfold Machine.sendSeq
  dsimp only
  refine Queued.update ?_ ..
  split
  · exact hs.sendHeld ..
  · exact hs

theorem Queued.pump (hs : Queued q p s) : Queued q p (pump s) := by
  unfold Machine.pump
  refine Queued.foldUpTo hs (fun _ _ hu => ?_) ..
  split
  · exact ((hu.sendHeld ..).update ..).ite hu
  · exact hu

theorem Queued.badPair (hs : Queued q p s) (p0 : Nat) : Queued q p (badPair s p0) := by
  unfold Machine.badPair
  exact ((hs.setF ..).count ..).fault ..

theorem Queued.sendFwd (hs : Queued q p s) (a : Access) : Queued q p (sendFwd s a) := by
  unfold Machine.sendFwd
  exact ((hs.update ..).count ..).sendSeq ..

theorem Queued.fwdMeasured (hs : Queued q p s) (a : Access) (fenced : Bool) :
    Queued q p (fwdMeasured s a fenced) := by
  unfold Machine.fwdMeasured
  exact (hs.histogram ..).wardDone ..

theorem Queued.sendAck (hs : Queued q p s) (p0 n : Nat) : Queued q p (sendAck s p0 n) := by
  unfold Machine.sendAck
  exact hs.sendPair ..

theorem Queued.ackHands (hs : Queued q p s) (p0 : Nat) : Queued q p (ackHands s p0) := by
  unfold Machine.ackHands
  exact hs.ite ((hs.update ..).sendAck ..)

theorem Queued.takeHand (hs : Queued q p s) (p0 ty : Nat) (k : PairPkt) (done : Bool) :
    Queued q p (takeHand s p0 ty k done) := by
  unfold Machine.takeHand
  exact hs.update ..

theorem Queued.handDone (hs : Queued q p s) (p0 : Nat) (seq : BitVec 32) : Queued q p (handDone s p0 seq) := by
  unfold Machine.handDone
  exact (hs.update ..).ackHands ..

theorem Queued.fwdDone (hs : Queued q p s) (tag : BitVec 16) (v : Nat) (partner : Bool) (bytes data : Nat) :
    Queued q p (fwdDone s tag v partner bytes data) := by
  unfold Machine.fwdDone
  split
  · exact (hs.update ..).complete ..
  · exact hs

theorem Queued.answerFwd (hs : Queued q p s) (k : PairPkt) (partner : Bool) :
    Queued q p (answerFwd s k partner) := by
  unfold Machine.answerFwd
  exact hs.fwdDone ..

theorem Queued.replicaDone (hs : Queued q p s) (p0 : Nat) (k : PairPkt) : Queued q p (replicaDone s p0 k) := by
  unfold Machine.replicaDone
  exact ((hs.answerFwd ..).ite hs).handDone ..

theorem Queued.replicaStored (hs : Queued q p s) (a : Access) : Queued q p (replicaStored s a) := by
  unfold Machine.replicaStored
  split
  · exact hs.replicaDone ..
  · exact hs

theorem Queued.replicaRejected (hs : Queued q p s) (a : Access) : Queued q p (replicaRejected s a) := by
  unfold Machine.replicaRejected
  split
  · exact ((hs.answerFwd ..).ite (hs.sendPair ..)).handDone ..
  · exact hs

theorem Queued.fwdServed (hs : Queued q p s) (tag : BitVec 16) : Queued q p (fwdServed s tag) := by
  unfold Machine.fwdServed
  split
  · exact hs.handDone ..
  · exact hs

theorem Queued.writeSafe (hs : Queued q p s) (a : Access) (c : Cmp) (m d : Nat) :
    Queued q p (writeSafe s a c m d) := by
  unfold Machine.writeSafe
  dsimp only
  split
  · exact hs.replicaStored ..
  · exact hs.masterDone ..
  · exact ((hs.fwdMeasured ..).ifThen (·.setDiverged ..)).ifElse (fun h =>
      ((h.count ..).sendSeq ..).fwdServed ..)
  · split
    · exact (hs.complete ..).ite ((hs.count ..).sendSeq ..)
    · exact (hs.ite (hs.setDiverged ..)).complete ..
    · exact hs.complete ..

theorem Queued.readServed (hs : Queued q p s) (a : Access) (c : Cmp) : Queued q p (readServed s a c) := by
  unfold Machine.readServed
  split
  · exact (((hs.fwdMeasured ..).sendPair ..).fwdServed ..).ite (hs.fwdMeasured ..)
  · exact hs.complete ..

/-! ## The queue of a tumbler -/

theorem Queued.chargeMaster (hs : Queued q p s) (t m n : Nat) : Queued q p (chargeMaster s t m n) := by
  unfold Machine.chargeMaster
  exact hs.update ..

theorem Queued.charge (hs : Queued q p s) (a : Access) (n : Nat) : Queued q p (charge s a n) := by
  unfold Machine.charge
  dsimp only
  split
  · exact (hs.update ..).count ..
  · exact (hs.update ..).count ..
  · exact hs.update ..
  · exact hs
  · exact hs.chargeMaster ..

theorem Queued.excludeQueued (hs : Queued q p s) (t : Nat) : Queued q p (excludeQueued s t) := by
  unfold Machine.excludeQueued
  exact (hs.setQ ..).update ..

theorem Queued.pauseOn (hs : Queued q p s) (t : Nat) : Queued q p (pauseOn s t) := by
  unfold Machine.pauseOn
  split
  · exact ((hs.excludeQueued ..).modTum ..).ite hs
  · exact (hs.excludeQueued ..).modTum ..

theorem Queued.pauseHotOn (hs : Queued q p s) (t : Nat) : Queued q p (pauseHotOn s t) := by
  unfold Machine.pauseHotOn
  exact hs.ite (hs.modTum ..)

theorem Queued.pauseOff (hs : Queued q p s) (t : Nat) : Queued q p (pauseOff s t) := by
  unfold Machine.pauseOff
  split
  · exact hs
  · exact (hs.ite (hs.excludeQueued ..)).modTum ..

theorem Queued.storePkt (hs : Queued q p s) (p0 : Nat) (pkt : List (BitVec 16)) :
    Queued q p (storePkt s p0 pkt) := by
  unfold Machine.storePkt
  exact hs.modPort ..

theorem Queued.received (hs : Queued q p s) (p0 : Nat) (pkt : List (BitVec 16)) :
    Queued q p (received s p0 pkt) := by
  unfold Machine.received
  exact hs.ite (hs.storePkt ..)

theorem Queued.dropPkt (hs : Queued q p s) (p0 : Nat) (pkt : List (BitVec 16)) :
    Queued q p (dropPkt s p0 pkt) := by
  unfold Machine.dropPkt
  exact hs.modPort ..

theorem Queued.asmPut (hs : Queued q p s) (a : Access) (x : Assembly) : Queued q p (asmPut s a x) := by
  unfold Machine.asmPut
  exact (((hs.setQ ..).count ..).readServed ..).ite ((hs.setQ ..).setQ ..)

theorem Queued.slotDone (hs : Queued q p s) (a : Access) (k : Slot) (c : Cmp) (m : Nat) :
    Queued q p (slotDone s a k c m) := by
  unfold Machine.slotDone
  exact ((((hs.setQ ..).count ..).count ..).ite (hs.setQ ..)).writeSafe ..

theorem Queued.settleOne (hs : Queued q p s) (t id x : Nat) : Queued q p (settleOne s t id x) := by
  unfold Machine.settleOne
  dsimp only
  split
  · exact hs
  · refine Queued.ite hs ?_
    split
    · split
      · exact hs
      · split
        · exact (hs.slotDone ..).ite (((hs.count ..).slotDone ..).ite ((hs.setQ ..).ite hs))
        · exact hs
        · exact hs
        · exact (hs.slotDone ..).ite ((hs.setQ ..).ite hs)
    · refine Queued.ite ?_ hs
      split
      · exact ((hs.setQ ..).asmPut ..).ite hs
      · exact hs
    · exact hs

theorem Queued.settle (hs : Queued q p s) (t x : Nat) : Queued q p (settle s t x) := by
  unfold Machine.settle
  exact hs.foldUpTo (fun _ _ hu => hu.foldl (fun _ _ hv => hv.settleOne ..) ..) ..

theorem Queued.wakeFor (hs : Queued q p s) (t : Nat) : Queued q p (wakeFor s t) := by
  unfold Machine.wakeFor
  exact (hs.setMode ..).ite (hs.ite ((hs.setMode ..).ite ((hs.setMode ..).ite hs)))

theorem Queued.enterQueue (hs : Queued q p s) (a : Access) : Queued q p (enterQueue s a) := by
  unfold Machine.enterQueue
  exact ((((hs.wakeFor ..).ifThen (·.count ..)).ifThen (·.update ..)).setQ ..).settle ..

theorem Queued.failAccess (hs : Queued q p s) (a : Access) (st : BitVec 4) : Queued q p (failAccess s a st) := by
  unfold Machine.failAccess
  dsimp only
  split
  · exact hs.replicaRejected ..
  · exact hs.ite (((hs.sendPair ..).ite ((hs.count ..).sendSeq ..)).fwdServed ..)
  · exact hs.complete ..

theorem Queued.dmaBegin (hs : Queued q p s) (a : Access) : Queued q p (dmaBegin s a).1 := by
  unfold Machine.dmaBegin
  split
  · exact (hs.flowStart ..).update ..
  · exact hs

theorem Queued.replaceWaiting (hs : Queued q p s) (r : Nat) : Queued q p (replaceWaiting s r) := by
  unfold Machine.replaceWaiting
  exact hs.update ..

theorem Queued.release (hs : Queued q p s) (a : Access) : Queued q p (release s a) := by
  unfold Machine.release
  split
  · cases s.dmas.find? (fun d => d.id == a.op1.toNat) with
    | none => exact hs
    | some d => exact hs.dmaEnd ..
  · extract_lets o
    have h1 := hs.dmaBegin a
    split
    rename_i s1 a1 he
    rw [he] at h1
    extract_lets s2 s3
    have h2 : Queued q p s2 := h1.update ..
    have h3 : Queued q p s3 := by
      unfold s3
      split
      · exact h2.ite (h2.leaveStore ..)
      · exact h2
    clear_value o
    split
    · exact h3.failAccess ..
    · exact h3.failAccess ..
    · exact h3.sendFwd ..
    · exact (h3.writeSafe ..).ite (h3.enterQueue ..)

theorem Queued.arrive (hs : Queued q p s) (a : Access) : Queued q p (arrive s a) := by
  unfold Machine.arrive
  dsimp only
  split
  · exact ((hs.update ..).release ..).ite ((hs.update ..).count ..)
  · exact (hs.update ..).count ..

/-! ## Refresh and the command bus -/

theorem Queued.putSet (hs : Queued q p s) (t l k : Nat) (x : RefSet) : Queued q p (putSet s t l k x) := by
  unfold Machine.putSet
  exact hs.modTum ..

theorem Queued.restartRefresh (hs : Queued q p s) (t : Nat) : Queued q p (restartRefresh s t) := by
  unfold Machine.restartRefresh
  exact hs.foldl (fun _ _ hu => hu.putSet ..) ..

theorem Queued.stopSlice (hs : Queued q p s) (t l : Nat) : Queued q p (stopSlice s t l) := by
  unfold Machine.stopSlice
  exact hs.foldUpTo (fun _ _ hu => hu.putSet ..) ..

theorem Queued.startSlice (hs : Queued q p s) (t l : Nat) : Queued q p (startSlice s t l) := by
  unfold Machine.startSlice
  exact hs.foldUpTo (fun _ _ hu => hu.putSet ..) ..

theorem Queued.hammerRef (hs : Queued q p s) (t : Nat) (l : Loc) : Queued q p (hammerRef s t l) := by
  unfold Machine.hammerRef
  exact hs.ite (hs.modTum ..)

theorem Queued.refreshRows (hs : Queued q p s) (t l k p0 n : Nat) : Queued q p (refreshRows s t l k p0 n) := by
  unfold Machine.refreshRows
  exact hs.foldUpTo (fun _ _ hu => hu.foldUpTo (fun _ _ hv => (hv.hammerRef ..).hammerRef ..) ..) ..

theorem Queued.advance (hs : Queued q p s) (t n : Nat) : Queued q p (advance s t n) := by
  unfold Machine.advance
  exact ((hs.update ..).ite hs).setDram ..

theorem Queued.goTo (hs : Queued q p s) (t m : Nat) : Queued q p (goTo s t m) := by
  unfold Machine.goTo
  exact hs.advance ..

theorem Queued.enterSelf (hs : Queued q p s) (t : Nat) : Queued q p (enterSelf s t) := by
  unfold Machine.enterSelf
  exact (((((hs.foldl (fun _ _ hu => (hu.refreshRows ..).putSet ..) ..).foldl (fun _ _ hu =>
    hu.count ..) ..).modTum ..).foldl (fun _ _ hu => hu.update ..) ..).count ..).setMode ..

theorem Queued.leaveSelf (hs : Queued q p s) (t : Nat) : Queued q p (leaveSelf s t) := by
  unfold Machine.leaveSelf
  exact ((hs.setMode ..).restartRefresh ..).ite hs

theorem Queued.putBank (hs : Queued q p s) (t n : Nat) (b : Bank) : Queued q p (putBank s t n b) := by
  unfold Machine.putBank
  exact hs.setDram ..

theorem Queued.putSlice (hs : Queued q p s) (t l : Nat) (x : SliceTim) : Queued q p (putSlice s t l x) := by
  unfold Machine.putSlice
  exact hs.setDram ..

theorem Queued.issuePre (hs : Queued q p s) (t n : Nat) : Queued q p (issuePre s t n) := by
  unfold Machine.issuePre
  exact ((hs.putBank ..).setDram ..).count ..

theorem Queued.throttle (hs : Queued q p s) (t n : Nat) (src : Src) : Queued q p (throttle s t n src) := by
  unfold Machine.throttle
  exact hs.ite ((hs.setTum ..).ite ((hs.setTum ..).ite ((hs.setTum ..).count ..)))

theorem Queued.alertRow (hs : Queued q p s) (t : Nat) (l : Loc) (src : Src) :
    Queued q p (alertRow s t l src) := by
  unfold Machine.alertRow
  exact (((((hs.putBank ..).wr ..).wr ..).count ..).foldl (fun _ _ hu => hu.throttle ..) ..).ite
    ((((hs.putBank ..).wr ..).wr ..).count ..)

theorem Queued.hammerAct (hs : Queued q p s) (t : Nat) (l : Loc) (src : Src) :
    Queued q p (hammerAct s t l src) := by
  unfold Machine.hammerAct
  exact (((hs.putBank ..).modTum ..).alertRow ..).ite ((hs.putBank ..).modTum ..)

theorem Queued.issueAct (hs : Queued q p s) (t : Nat) (l : Loc) (src : Src) (id : Option Nat) :
    Queued q p (issueAct s t l src id) := by
  unfold Machine.issueAct
  exact (((((((hs.setDram ..).putBank ..).putSlice ..).setDram ..).update ..).count ..).count ..).hammerAct ..

theorem Queued.autoPre (hs : Queued q p s) (t : Nat) (l : Loc) : Queued q p (autoPre s t l) := by
  unfold Machine.autoPre
  exact hs.putBank ..

theorem Queued.issueCol (hs : Queued q p s) (t : Nat) (l : Loc) (w : Bool) (id : Nat) :
    Queued q p (issueCol s t l w id) := by
  unfold Machine.issueCol
  exact ((((hs.ite (hs.count ..)).putBank ..).putSlice ..).setDram ..).count ..

theorem Queued.issueRef (hs : Queued q p s) (t l k : Nat) : Queued q p (issueRef s t l k) := by
  unfold Machine.issueRef
  exact ((((((hs.refreshRows ..).foldl (fun _ _ hu =>
    hu.putBank ..) ..).putSet ..).update ..).setDram ..).count ..).count ..

theorem Queued.issueNrr (hs : Queued q p s) (t n : Nat) : Queued q p (issueNrr s t n) := by
  unfold Machine.issueNrr
  dsimp only
  split
  · exact hs
  · exact ((((((hs.putBank ..).putSlice ..).setDram ..).modTum ..).update ..).count ..).count ..

theorem Queued.preNext (hs : Queued q p s) (t n : Nat) : Queued q p (preNext s t n) := by
  unfold Machine.preNext
  exact ((hs.goTo ..).issuePre ..).advance ..

theorem Queued.nrrNext (hs : Queued q p s) (t n : Nat) : Queued q p (nrrNext s t n) := by
  unfold Machine.nrrNext
  exact ((((hs.preNext ..).ite hs).goTo ..).issueNrr ..).advance ..

theorem Queued.refNext (hs : Queued q p s) (t l k : Nat) : Queued q p (refNext s t l k) := by
  unfold Machine.refNext
  exact (((hs.foldl (fun _ _ hu => (hu.preNext ..).ite hu) ..).goTo ..).issueRef ..).advance ..

theorem Queued.settleBanks (hs : Queued q p s) (t : Nat) : Queued q p (settleBanks s t) := by
  unfold Machine.settleBanks
  exact (hs.foldl (fun _ _ hu => hu.nrrNext ..) ..).foldl (fun _ _ hu => hu.preNext ..) ..

/-! ## Command slots -/

theorem Queued.checkExcess (hs : Queued q p s) (t : Nat) : Queued q p (checkExcess s t) := by
  unfold Machine.checkExcess
  exact hs.ite ((((hs.setMode ..).count ..).pauseOn ..).ite hs)

theorem Queued.endExcess (hs : Queued q p s) (t : Nat) : Queued q p (endExcess s t) := by
  unfold Machine.endExcess
  exact ((hs.setMode ..).pauseOff ..).ite hs

theorem Queued.stepSet {u : State} {t : Nat} {e : Nat × Nat} (hs : Queued q p s) (h : stepSet s t e = some u) :
    Queued q p u := by
  unfold Machine.stepSet at h
  split at h
  · cases h
    exact hs.issueRef ..
  · obtain ⟨n, -, rfl⟩ := Option.map_eq_some_iff.1 h
    exact hs.issuePre ..

theorem Queued.limitStep {t : Nat} {u : State} (hs : Queued q p s)
    (h : (limitSet s t).bind (Machine.stepSet s t) = some u) : Queued q p u := by
  obtain ⟨e, -, he⟩ := Option.bind_eq_some_iff.1 h
  exact hs.stepSet he

theorem Queued.refreshStep (hs : Queued q p s) (t : Nat) : Queued q p (refreshStep s t).1 := by
  unfold Machine.refreshStep
  extract_lets ex
  split
  · split
    · rename_i u h
      obtain ⟨e, -, he⟩ := List.exists_of_findSome?_eq_some h
      exact hs.stepSet he
    · cases h : (limitSet s t).bind (Machine.stepSet s t) with
      | none => exact hs
      | some u => exact hs.limitStep h
  · split
    · rename_i u h
      exact hs.limitStep h
    · split
      · exact hs.issueNrr ..
      · exact hs

theorem Queued.idleRef (hs : Queued q p s) (t : Nat) : Queued q p (idleRef s t) := by
  unfold Machine.idleRef
  dsimp only
  split
  · exact hs.issueRef ..
  · exact hs

theorem Queued.afterCol (hs : Queued q p s) (t : Nat) (a : Access) (l : Loc) : Queued q p (afterCol s t a l) := by
  unfold Machine.afterCol
  exact (hs.autoPre ..).ite (hs.putBank ..)

theorem Queued.doRd (hs : Queued q p s) (a : Access) (x : Nat) (l : Loc) : Queued q p (doRd s a x l) := by
  unfold Machine.doRd
  exact ((((hs.issueCol ..).charge ..).setQ ..).ifThen (·.afterCol ..)).settle ..

theorem Queued.storeSlot (hs : Queued q p s) (t : Nat) (k : Slot) (l : Loc) : Queued q p (storeSlot s t k l) := by
  unfold Machine.storeSlot
  exact hs.foldUpTo (fun _ _ hu => (hu.putWord ..).ite hu) ..

theorem Queued.slotWritten (hs : Queued q p s) (t : Nat) (k : Slot) : Queued q p (slotWritten s t k) := by
  unfold Machine.slotWritten
  exact hs.setQ ..

theorem Queued.doWr (hs : Queued q p s) (a : Access) (k : Slot) (l : Loc) : Queued q p (doWr s a k l) := by
  unfold Machine.doWr
  exact ((((hs.issueCol ..).charge ..).storeSlot ..).afterCol ..).branch (·.setQ ..) (fun h =>
    (h.slotWritten ..).settle ..)

theorem Queued.doAct (hs : Queued q p s) (a : Access) (l : Loc) : Queued q p (doAct s a l) := by
  unfold Machine.doAct
  exact ((hs.issueAct ..).setQ ..).charge ..

theorem Queued.issueNeed (hs : Queued q p s) (e : Access × Need × Nat × Loc) : Queued q p (issueNeed s e) := by
  unfold Machine.issueNeed
  dsimp only
  split
  · exact hs.doAct ..
  · exact hs.issuePre ..
  · exact hs.doRd ..
  · split
    · exact hs.doWr ..
    · exact hs

theorem Queued.setPhase (hs : Queued q p s) (t : Nat) : Queued q p (setPhase s t) := by
  unfold Machine.setPhase
  exact hs.setQ ..

theorem Queued.markThrottled (hs : Queued q p s) (t : Nat) : Queued q p (markThrottled s t) := by
  unfold Machine.markThrottled
  exact hs.ite ((hs.setQ ..).update ..)

theorem Queued.fenceUnstarted (hs : Queued q p s) (t : Nat) : Queued q p (fenceUnstarted s t) := by
  unfold Machine.fenceUnstarted
  dsimp only
  refine Queued.foldl (hs.setQ ..) (fun _ _ hu => ?_) ..
  refine Queued.settle ?_ ..
  refine Queued.ite (hu.sendFwd ..) ?_
  split
  · exact hu.failAccess ..
  · exact hu.complete ..

theorem Queued.quiesceStep (hs : Queued q p s) (t : Nat) : Queued q p (quiesceStep s t) := by
  unfold Machine.quiesceStep
  split
  · exact hs.issuePre ..
  · exact hs

theorem Queued.countAged (hs : Queued q p s) (t : Nat) : Queued q p (countAged s t) := by
  unfold Machine.countAged
  exact hs.ite (hs.count ..)

theorem Queued.closeStep {u : State} {t : Nat} (hs : Queued q p s) (h : closeStep s t = some u) :
    Queued q p u := by
  unfold Machine.closeStep at h
  obtain ⟨n, -, rfl⟩ := Option.map_eq_some_iff.1 h
  exact hs.issuePre ..

theorem Queued.accessStep {u : State} {t : Nat} (hs : Queued q p s) (h : accessStep s t = some u) :
    Queued q p u := by
  unfold Machine.accessStep at h
  split at h
  · cases h
  · cases h
    exact hs.issueNeed ..

theorem Queued.slotCommand (hs : Queued q p s) (t : Nat) : Queued q p (slotCommand s t) := by
  unfold Machine.slotCommand
  extract_lets m
  split
  · exact hs.ite (hs.quiesceStep ..)
  · have h1 := hs.refreshStep t
    split
    rename_i s1 used he
    rw [he] at h1
    split
    · exact h1.endExcess ..
    · extract_lets s2
      have h2 : Queued q p s2 := h1.setPhase ..
      split
      · rename_i u h
        exact h2.closeStep h
      · split
        · rename_i u h
          exact h2.accessStep h
        · exact (h2.idleRef ..).ite h2

theorem Queued.commandSlot (hs : Queued q p s) (t : Nat) : Queued q p (commandSlot s t) := by
  unfold Machine.commandSlot
  exact (((((hs.fenceUnstarted ..).ite hs).markThrottled ..).countAged ..).slotCommand ..).advance ..

theorem Queued.lineReturns (hs : Queued q p s) (t : Nat) (f : Flight) (flips : List CodeWord) :
    Queued q p (lineReturns s t f flips) := by
  unfold Machine.lineReturns
  extract_lets a x e s1 pick
  have h1 : Queued q p (Machine.decodeRead s1 t f.loc x e f.words flips pick).1 := (hs.setQ ..).decodeRead ..
  exact (h1.asmPut ..).ite ((((h1.count ..).slotDone ..).settle ..).ite ((h1.slotDone ..).settle ..))

/-! ## Lines that return -/

theorem Queued.atReg {t : State} (hs : Queued q p s) (ht : Queued q p t) (off : Nat) :
    Queued q p (atReg s off t) := by
  unfold Machine.atReg
  exact hs.when ht ..

theorem Queued.putReg (hs : Queued q p s) (off : Nat) (v : Reg32) (rej : Nat) :
    Queued q p (putReg s off v rej) := by
  unfold Machine.putReg
  exact (hs.wrReg ..).ite ((hs.wrReg ..).paramFault ..)

/-! ## Rows of a tumbler -/

theorem Queued.execCommandSlot (hs : Queued q p s) (t : Tum) : QueuedOut q p (execCommandSlot t s) := by
  unfold Machine.execCommandSlot
  exact (hs.when (hs.commandSlot ..) ..).next

theorem Queued.execThrottleEnd (hs : Queued q p s) (t : Tum) : QueuedOut q p (execThrottleEnd t s) := by
  unfold Machine.execThrottleEnd
  exact (hs.modTum ..).next

theorem Queued.setDue (hs : Queued q p s) (t : Tum) (l k : Nat) : Queued q p (setDue s t l k) := by
  unfold Machine.setDue
  exact ((hs.putSet ..).fault ..).ite (hs.putSet ..)

theorem Queued.execRefreshDue (hs : Queued q p s) (t : Tum) (l : LeafN) (k : Fin 4) :
    QueuedOut q p (execRefreshDue t l k s) := by
  unfold Machine.execRefreshDue
  exact (QueuedOut.fault _).ite ((hs.when (hs.setDue ..) ..).next)

theorem Queued.execRefreshWake (hs : Queued q p s) (t : Tum) : QueuedOut q p (execRefreshWake t s) := by
  unfold Machine.execRefreshWake
  exact (hs.when (hs.setMode ..) ..).next

theorem Queued.closeBank (hs : Queued q p s) (t n : Nat) : Queued q p (closeBank s t n) := by
  unfold Machine.closeBank
  exact hs.putBank ..

theorem Queued.execTrasmaxExpiry (hs : Queued q p s) (t : Tum) (l : LeafN) (g : Fin 8) (b : Fin 4) :
    QueuedOut q p (execTrasmaxExpiry t l g b s) := by
  unfold Machine.execTrasmaxExpiry
  exact (QueuedOut.fault _).ite ((hs.when (hs.closeBank ..) ..).next)

theorem Queued.execIdleClose (hs : Queued q p s) (t : Tum) (l : LeafN) (g : Fin 8) (b : Fin 4) :
    QueuedOut q p (execIdleClose t l g b s) := by
  unfold Machine.execIdleClose
  exact (QueuedOut.fault _).ite ((hs.when (hs.closeBank ..) ..).next)

theorem Queued.execCodeWordDecode (hs : Queued q p s) (t : Tum) (flips : List CodeWord) :
    QueuedOut q p (execCodeWordDecode t flips s) := by
  unfold Machine.execCodeWordDecode
  split
  · exact hs.next
  · exact (hs.lineReturns ..).next

theorem Queued.execCwcWindowExpiry (hs : Queued q p s) (t : Tum) : QueuedOut q p (execCwcWindowExpiry t s) := by
  unfold Machine.execCwcWindowExpiry
  exact (hs.modTum ..).next

theorem Queued.execLightEntry (hs : Queued q p s) (t : Tum) : QueuedOut q p (execLightEntry t s) := by
  unfold Machine.execLightEntry
  exact (hs.when ((hs.setMode ..).count ..) ..).next

theorem Queued.wakeDone (hs : Queued q p s) (t : Nat) : Queued q p (wakeDone s t) := by
  unfold Machine.wakeDone
  exact (((hs.leaveSelf ..).excludeQueued ..).ite hs).setMode ..

theorem Queued.execWakeComplete (hs : Queued q p s) (t : Tum) : QueuedOut q p (execWakeComplete t s) := by
  unfold Machine.execWakeComplete
  exact (hs.when (hs.wakeDone ..) ..).next

theorem Queued.selfEntry (hs : Queued q p s) (t : Nat) : Queued q p (selfEntry s t) := by
  unfold Machine.selfEntry
  exact (hs.settleBanks ..).enterSelf ..

theorem Queued.execQuietEntry (hs : Queued q p s) (t : Tum) : QueuedOut q p (execQuietEntry t s) := by
  unfold Machine.execQuietEntry
  exact (hs.when ((hs.selfEntry ..).setMode ..) ..).next

theorem Queued.execSelfRefreshEntry (hs : Queued q p s) (t : Tum) : QueuedOut q p (execSelfRefreshEntry t s) := by
  unfold Machine.execSelfRefreshEntry
  exact (hs.when ((hs.selfEntry ..).pauseHotOn ..) ..).next

theorem Queued.selfExit (hs : Queued q p s) (t : Nat) : Queued q p (selfExit s t) := by
  unfold Machine.selfExit
  exact (((hs.leaveSelf ..).ifThen (·.excludeQueued ..)).pauseOff ..).setMode ..

theorem Queued.execSelfRefreshExit (hs : Queued q p s) (t : Tum) : QueuedOut q p (execSelfRefreshExit t s) := by
  unfold Machine.execSelfRefreshExit
  exact (hs.when (hs.selfExit ..) ..).next

theorem Queued.gateOff (hs : Queued q p s) (t : Nat) : Queued q p (gateOff s t) := by
  unfold Machine.gateOff
  exact hs.ite ((hs.setMode ..).ite hs)

theorem Queued.wrPwrCfg (hs : Queued q p s) (t : Tum) (v : Reg32) : Queued q p (wrPwrCfg s t v) := by
  unfold Machine.wrPwrCfg
  exact (hs.putReg ..).gateOff ..

theorem Queued.execPwrCfgWrite (hs : Queued q p s) (t : Tum) (v : Reg32) :
    QueuedOut q p (execPwrCfgWrite t v s) := by
  unfold Machine.execPwrCfgWrite
  exact (hs.atReg (hs.wrPwrCfg ..) ..).next

theorem Queued.sendGuard (hs : Queued q p s) (t : Nat) : Queued q p (sendGuard s t) := by
  unfold Machine.sendGuard
  exact hs.foldUpTo (fun _ _ hu => hu.update ..) ..

theorem Queued.wrRefCfg (hs : Queued q p s) (t : Tum) (v : Reg32) : Queued q p (wrRefCfg s t v) := by
  unfold Machine.wrRefCfg
  exact ((((hs.putReg ..).sendGuard ..).ite (hs.putReg ..)).checkExcess ..).endExcess ..

theorem Queued.execRefCfgWrite (hs : Queued q p s) (t : Tum) (v : Reg32) :
    QueuedOut q p (execRefCfgWrite t v s) := by
  unfold Machine.execRefCfgWrite
  exact (hs.atReg (hs.wrRefCfg ..) ..).next

/-! ## The bus rate and training -/

theorem Queued.loadSet (hs : Queued q p s) (t r : Nat) : Queued q p (loadSet s t r) := by
  unfold Machine.loadSet
  exact hs.modTum ..

theorem Queued.beginRate (hs : Queued q p s) (t : Nat) : Queued q p (beginRate s t) := by
  unfold Machine.beginRate
  exact ((hs.setMode ..).pauseOn ..).ite (hs.setMode ..)

theorem Queued.cancelRate (hs : Queued q p s) (t : Nat) : Queued q p (cancelRate s t) := by
  unfold Machine.cancelRate
  exact ((hs.setMode ..).pauseOff ..).ite hs

theorem Queued.wrRate (hs : Queued q p s) (t : Tum) (v : Reg32) : Queued q p (wrRate s t v) := by
  unfold Machine.wrRate
  refine Queued.branch (hs.wrReg ..) (·.paramFault ..) (fun h => ?_)
  refine Queued.ite (((h.setF ..).setF ..).cancelRate ..) (Queued.ite ((h.setF ..).paramFault ..) ?_)
  exact ((h.setF ..).setF ..).ifElse (·.beginRate ..)

theorem Queued.execRateReqWrite (hs : Queued q p s) (t : Tum) (v : Reg32) :
    QueuedOut q p (execRateReqWrite t v s) := by
  unfold Machine.execRateReqWrite
  exact (hs.atReg (hs.wrRate ..) ..).next

theorem Queued.beginRelock (hs : Queued q p s) (t : Nat) : Queued q p (beginRelock s t) := by
  unfold Machine.beginRelock
  exact ((hs.selfEntry ..).ite hs).setMode ..

theorem Queued.execRateQuiesced (hs : Queued q p s) (t : Tum) : QueuedOut q p (execRateQuiesced t s) := by
  unfold Machine.execRateQuiesced
  exact (hs.when (hs.beginRelock ..) ..).next

theorem Queued.relockExit (hs : Queued q p s) (t : Nat) : Queued q p (relockExit s t) := by
  unfold Machine.relockExit
  exact hs.ite (hs.leaveSelf ..)

theorem Queued.relockDone (hs : Queued q p s) (t : Nat) : Queued q p (relockDone s t) := by
  unfold Machine.relockDone
  dsimp only
  split
  · exact ((((((((hs.setF ..).setF ..).ifThen (fun h =>
      (h.loadSet ..).count ..)).setMode ..).relockExit ..).setF ..).setF ..).setF ..).modTum ..
  · exact ((((((hs.setF ..).setF ..).ifThen (fun h =>
      (h.loadSet ..).count ..)).setMode ..).relockExit ..).setMode ..).pauseOff ..

theorem Queued.execRateRelockDone (hs : Queued q p s) (t : Tum) : QueuedOut q p (execRateRelockDone t s) := by
  unfold Machine.execRateRelockDone
  exact (hs.when (hs.relockDone ..) ..).next

theorem Queued.startSweep (hs : Queued q p s) (t : Nat) : Queued q p (startSweep s t) := by
  unfold Machine.startSweep
  exact (((((hs.setF ..).setF ..).setF ..).count ..).modTum ..).ifThen (fun h => (h.setMode ..).pauseOn ..)

theorem Queued.wrTrnCtrl (hs : Queued q p s) (t : Tum) (v : Reg32) : Queued q p (wrTrnCtrl s t v) := by
  unfold Machine.wrTrnCtrl
  exact ((hs.putReg ..).ifThen (fun h => (h.startSweep ..).ite (h.paramFault ..))).ifThen (·.modTum ..)

theorem Queued.execTrnStart (hs : Queued q p s) (t : Tum) (v : Reg32) : QueuedOut q p (execTrnStart t v s) := by
  unfold Machine.execTrnStart
  exact (hs.atReg (hs.wrTrnCtrl ..) ..).next

theorem Queued.execTrnAbort (hs : Queued q p s) (t : Tum) (v : Reg32) : QueuedOut q p (execTrnAbort t v s) := by
  unfold Machine.execTrnAbort
  exact (hs.atReg (hs.wrTrnCtrl ..) ..).next

theorem Queued.endSweep (hs : Queued q p s) (t : Nat) (x : Training) : Queued q p (endSweep s t x) := by
  unfold Machine.endSweep
  exact (((hs.setF ..).modTum ..).ifThen (fun h => (h.setMode ..).pauseOff ..)).ifThen (·.beginRate ..)

theorem Queued.payDue (hs : Queued q p s) (t n : Nat) : Queued q p (payDue t n s) := by
  induction n generalizing s with
  | zero => exact hs
  | succ n ih =>
    unfold Machine.payDue
    split
    · exact ih (hs.refNext ..)
    · exact hs

theorem Queued.boundaryRefresh (hs : Queued q p s) (t : Nat) : Queued q p (boundaryRefresh s t) := by
  unfold Machine.boundaryRefresh
  exact hs.ite ((hs.payDue ..).endExcess ..)

theorem Queued.stepEnd (hs : Queued q p s) (t : Nat) (x : Training) (pass : BitVec 336) :
    Queued q p (stepEnd s t x pass) := by
  unfold Machine.stepEnd
  refine Queued.branch ((hs.count ..).setF ..) (fun h => (h.setF ..).endSweep ..) (fun h => ?_)
  refine Queued.ite ((h.modTum ..).beginRelock ..) (Queued.ite ?_ ((h.modTum ..).boundaryRefresh ..))
  exact ((h.foldl (fun _ _ hu => hu.wr ..) ..).setF ..).endSweep ..

theorem Queued.execTrnStepBoundary (hs : Queued q p s) (t : Tum) (pass : BitVec 336) :
    QueuedOut q p (execTrnStepBoundary t pass s) := by
  unfold Machine.execTrnStepBoundary
  split
  · exact (hs.when (hs.stepEnd ..) ..).next
  · exact hs.next

end Sys2Proof.Machine
end

section
/-! PROOF. No command changes the queue behind it or the part fitted (O5): the rules.
Requests, the commands of the command table, and the ports. -/

namespace Sys2Proof.Machine

open Sys2Proof

variable {q : List Instr} {p : Part} {s : State}

/-! ## Links -/

theorem Queued.clearExclusions (hs : Queued q p s) (p0 : Nat) : Queued q p (clearExclusions s p0) := by
  unfold Machine.clearExclusions
  exact hs.foldUpTo (fun _ _ hu => hu.setF ..) ..

theorem Queued.takeMinWidth (hs : Queued q p s) (p0 : Nat) : Queued q p (takeMinWidth s p0) := by
  unfold Machine.takeMinWidth
  exact hs.setPhy ..

theorem Queued.setLocks (hs : Queued q p s) (p0 m : Nat) : Queued q p (setLocks s p0 m) := by
  unfold Machine.setLocks
  exact hs.foldUpTo (fun _ _ hu => hu.setF ..) ..

theorem Queued.setHealthy (hs : Queued q p s) (p0 m : Nat) : Queued q p (setHealthy s p0 m) := by
  unfold Machine.setHealthy
  exact hs.foldUpTo (fun _ _ hu => hu.setF ..) ..

theorem Queued.leaveLink (hs : Queued q p s) (p0 : Nat) : Queued q p (leaveLink s p0) := by
  unfold Machine.leaveLink
  exact ((hs.endEye ..).dropInjection ..).setPhy ..

theorem Queued.startKeys (hs : Queued q p s) (p0 : Nat) : Queued q p (startKeys s p0) := by
  unfold Machine.startKeys
  exact hs.modPort ..

theorem Queued.toDetect (hs : Queued q p s) (p0 : Nat) : Queued q p (toDetect s p0) := by
  unfold Machine.toDetect
  exact (((((hs.leaveLink ..).wr ..).foldUpTo (fun _ _ hu =>
    (hu.setF ..).setF ..) ..).setF ..).startKeys ..).modPort ..

theorem Queued.fromOff (hs : Queued q p s) (p0 : Nat) : Queued q p (fromOff s p0) := by
  unfold Machine.fromOff
  exact (hs.toDetect ..).ite hs

theorem Queued.at16 (hs : Queued q p s) (p0 : Nat) : Queued q p (at16 s p0) := by
  unfold Machine.at16
  exact hs.setF ..

theorem Queued.toKs1 (hs : Queued q p s) (p0 : Nat) : Queued q p (toKs1 s p0) := by
  unfold Machine.toKs1
  exact (((hs.leaveLink ..).startKeys ..).at16 ..).modPort ..

theorem Queued.trainGivesUp (hs : Queued q p s) (p0 : PortN) : Queued q p (trainGivesUp s p0) := by
  unfold Machine.trainGivesUp
  exact ((hs.setF ..).toDetect ..).fault ..

theorem Queued.trainFails (hs : Queued q p s) (p0 : PortN) : Queued q p (trainFails s p0) := by
  unfold Machine.trainFails
  exact ((hs.setPhy ..).toKs1 ..).ite ((hs.trainGivesUp ..).ite ((hs.setPhy ..).toKs1 ..))

theorem Queued.portDown (hs : Queued q p s) (p0 : PortN) : Queued q p (portDown s p0) := by
  unfold Machine.portDown
  exact ((hs.leaveLink ..).fault ..).ite (((hs.leaveLink ..).fault ..).portLatch ..)

theorem Queued.toRetrain (hs : Queued q p s) (p0 : Nat) : Queued q p (toRetrain s p0) := by
  unfold Machine.toRetrain
  exact ((((hs.leaveLink ..).startKeys ..).takeMinWidth ..).modPort ..).count ..

theorem Queued.markLost (hs : Queued q p s) (p0 l : Nat) : Queued q p (markLost s p0 l) := by
  unfold Machine.markLost
  exact ((hs.setF ..).setF ..).setF ..

theorem Queued.loseLanes (hs : Queued q p s) (p0 : PortN) (l : List Nat) : Queued q p (loseLanes s p0 l) := by
  unfold Machine.loseLanes
  exact ((hs.foldl (fun _ _ hu => hu.markLost ..) ..).count ..).fault ..

theorem Queued.protocolError (hs : Queued q p s) (p0 : Nat) : Queued q p (protocolError s p0) := by
  unfold Machine.protocolError
  exact (hs.setF ..).count ..

theorem Queued.applyLimit (hs : Queued q p s) (p0 k : Nat) (v : BitVec 12) :
    Queued q p (applyLimit s p0 k v) := by
  unfold Machine.applyLimit
  exact (hs.protocolError ..).ite (hs.setPort ..)

theorem Queued.applyLimits (hs : Queued q p s) (p0 : Nat) (c0 c1 c2 : BitVec 12) :
    Queued q p (applyLimits s p0 c0 c1 c2) := by
  unfold Machine.applyLimits
  exact (hs.applyLimit ..).ite ((hs.applyLimit ..).applyLimit ..)

theorem Queued.applyAck (hs : Queued q p s) (p0 : Nat) (a : BitVec 10) : Queued q p (applyAck s p0 a) := by
  unfold Machine.applyAck
  exact (hs.setPort ..).ite hs

theorem Queued.resendAll (hs : Queued q p s) (p0 : Nat) : Queued q p (resendAll s p0) := by
  unfold Machine.resendAll
  exact hs.modPort ..

theorem Queued.replayHeld (hs : Queued q p s) (p0 : PortN) : Queued q p (replayHeld s p0) := by
  unfold Machine.replayHeld
  exact (((hs.setF ..).fault ..).ifThen (·.toRetrain ..)).ite (hs.resendAll ..)

theorem Queued.dropIdle (hs : Queued q p s) (p0 : Nat) : Queued q p (dropIdle s p0) := by
  unfold Machine.dropIdle
  exact hs.ite (hs.dropInjection ..)

/-! ## Requests -/

theorem Queued.skipPacket (hs : Queued q p s) (p0 : Nat) : Queued q p (skipPacket s p0) := by
  unfold Machine.skipPacket
  exact (hs.setF ..).count ..

theorem Queued.rejectReq (hs : Queued q p s) (r : Req) (st : BitVec 4) : Queued q p (rejectReq s r st) := by
  unfold Machine.rejectReq
  exact (((hs.ite (hs.setF ..)).count ..).leaveStore ..).pushCmp ..

theorem Queued.acceptReq (hs : Queued q p s) (ty : Nat) (r : Req) (stamp : BitVec 64) :
    Queued q p (acceptReq s ty r stamp) := by
  unfold Machine.acceptReq
  exact (((((hs.setF ..).wr ..).wr ..).count ..).update ..).arrive ..

theorem Queued.checkedReq (hs : Queued q p s) (ty : Nat) (r : Req) (stamp : BitVec 64) :
    Queued q p (checkedReq s ty r stamp) := by
  unfold Machine.checkedReq
  dsimp only
  refine Queued.ite ((((hs.dropPkt ..).count ..).skipPacket ..).leaveStore ..) ?_
  split
  · exact (((hs.dropPkt ..).count ..).rejectReq ..).ite hs
  · exact ((hs.dropPkt ..).count ..).acceptReq ..

theorem Queued.takeReq (hs : Queued q p s) (ty : Nat) (r : Req) : Queued q p (takeReq s ty r) := by
  unfold Machine.takeReq
  dsimp only
  split
  · exact ((hs.received ..).checkedReq ..).ite (hs.received ..)
  · exact hs.received ..

theorem Queued.takeRow (hs : Queued q p s) (ty : Nat) (r : Req) : QueuedOut q p (takeRow s ty r) := by
  unfold Machine.takeRow
  exact (hs.when (hs.takeReq ..) ..).next

theorem Queued.execRead (hs : Queued q p s) (r : Req) : QueuedOut q p (execRead r s) := by
  unfold Machine.execRead
  exact hs.takeRow ..

theorem Queued.execWrite (hs : Queued q p s) (r : Req) : QueuedOut q p (execWrite r s) := by
  unfold Machine.execWrite
  exact hs.takeRow ..

theorem Queued.execAtomicAdd (hs : Queued q p s) (r : Req) : QueuedOut q p (execAtomicAdd r s) := by
  unfold Machine.execAtomicAdd
  exact hs.takeRow ..

theorem Queued.execAtomicSwap (hs : Queued q p s) (r : Req) : QueuedOut q p (execAtomicSwap r s) := by
  unfold Machine.execAtomicSwap
  exact hs.takeRow ..

theorem Queued.execAtomicCompareAndSwap (hs : Queued q p s) (r : Req) :
    QueuedOut q p (execAtomicCompareAndSwap r s) := by
  unfold Machine.execAtomicCompareAndSwap
  exact hs.takeRow ..

theorem Queued.execAtomicAndOr (hs : Queued q p s) (r : Req) : QueuedOut q p (execAtomicAndOr r s) := by
  unfold Machine.execAtomicAndOr
  exact hs.takeRow ..

theorem Queued.execWaitRelease (hs : Queued q p s) (t : Tum) : QueuedOut q p (execWaitRelease t s) := by
  unfold Machine.execWaitRelease
  split
  · exact (hs.release ..).next
  · exact hs.next

/-! ## Commands -/

theorem Queued.begin (hs : Queued q p s) (c : Cmd) : Queued q p (begin s c) := by
  unfold Machine.begin
  exact hs.update ..

theorem Queued.runCmd {f : State → State} (hs : Queued q p s) (hf : ∀ u, Queued q p u → Queued q p (f u))
    (c : Cmd) (op : BitVec 16) :
    QueuedOut q p (runCmd s c op f) := by
  unfold Machine.runCmd
  exact (hs.when (hf _ hs) ..).next

theorem Queued.orFail {t : State} (hs : Queued q p s) (ht : Queued q p t) (c : Cmd) (l : List (Bool × BitVec 16))
    :
    Queued q p (orFail s c l t) := by
  unfold Machine.orFail
  split
  · exact hs.answer ..
  · exact ht

theorem Queued.popHead (hs : Queued q p s) (src : CmdSrc) (c : Cmd) : Queued q p (popHead s src c) := by
  unfold Machine.popHead
  split
  · exact ((hs.setRing ..).setF ..).count ..
  · exact (hs.modPort ..).count ..

theorem Queued.takeCommand (hs : Queued q p s) (src : CmdSrc) (c : Cmd) : Queued q p (takeCommand s src c) := by
  unfold Machine.takeCommand
  dsimp only
  split
  · exact ((hs.popHead ..).update ..).answer ..
  · exact (hs.popHead ..).update ..

theorem Queued.execCommandTake (hs : Queued q p s) (src : CmdSrc) : QueuedOut q p (execCommandTake src s) := by
  unfold Machine.execCommandTake
  split
  · exact (hs.when (hs.takeCommand ..) ..).next
  · exact hs.next

theorem Queued.cmdEnters (hs : Queued q p s) (p0 : PortN) (c : Cmd) : Queued q p (cmdEnters s p0 c) := by
  unfold Machine.cmdEnters
  exact ((hs.dropPkt ..).count ..).branch (fun h => (h.skipPacket ..).modPort ..) (·.modPort ..)

theorem Queued.cmdArrives (hs : Queued q p s) (p0 : PortN) (c : Cmd) : Queued q p (cmdArrives s p0 c) := by
  unfold Machine.cmdArrives
  dsimp only
  split
  · exact ((hs.received ..).cmdEnters ..).ite (hs.received ..)
  · exact hs.received ..

theorem Queued.execCmd (hs : Queued q p s) (p0 : PortN) (c : Cmd) : QueuedOut q p (execCmd p0 c s) := by
  unfold Machine.execCmd
  exact (hs.when (hs.cmdArrives ..) ..).next

/-! ## Classes and windows -/

theorem Queued.wardTum (hs : Queued q p s) (t mir : Nat) (cut : Bool) : Queued q p (wardTum s t mir cut) := by
  unfold Machine.wardTum
  exact (hs.wr ..).ite (hs.wr ..)

theorem Queued.applyCuts (hs : Queued q p s) : Queued q p (applyCuts s) := by
  unfold Machine.applyCuts
  exact hs.foldUpTo (fun _ _ hu => ((hu.update ..).wardTum ..).ite (((hu.update ..).count ..).wardTum ..)) ..

theorem Queued.classBit (hs : Queued q p s) (base c : Nat) (b : Bool) : Queued q p (classBit s base c b) := by
  unfold Machine.classBit
  exact hs.setF ..

theorem Queued.wardEvent (hs : Queued q p s) (l : List Nat) (src i : Nat) : Queued q p (wardEvent s l src i) := by
  unfold Machine.wardEvent
  exact hs.ite ((hs.raise ..).setF ..)

theorem Queued.effMin (hs : Queued q p s) (c : Nat) : Queued q p (effMin s c).2 := by
  unfold Machine.effMin
  dsimp only
  split
  · exact hs.fresh ..
  · exact hs

theorem Queued.classStat (hs : Queued q p s) (c : Nat) : Queued q p (classStat s c) := by
  unfold Machine.classStat
  exact ((hs.effMin ..).setF ..).setF ..

theorem Queued.wardReports (hs : Queued q p s) (p0 : WardWin) : Queued q p (wardReports s p0) := by
  unfold Machine.wardReports
  exact hs.wardEvent .. |>.wardEvent .. |>.wardEvent ..
    |>.foldl (fun _ _ hu => hu.classBit ..) .. |>.foldl (fun _ _ hu => hu.classBit ..) ..
    |>.foldl (fun _ _ hu => hu.count ..) .. |>.foldl (fun _ _ hu => hu.count ..) ..
    |>.foldl (fun _ _ hu => hu.setF ..) .. |>.foldl (fun _ _ hu => hu.classStat ..) ..

theorem Queued.windowStart (hs : Queued q p s) : Queued q p (windowStart s) := by
  unfold Machine.windowStart
  exact ((hs.applyCuts ..).update ..).wardReports ..

theorem Queued.execWardWindowStart (hs : Queued q p s) : QueuedOut q p (execWardWindowStart s) := by
  unfold Machine.execWardWindowStart
  exact (hs.when (hs.windowStart ..) ..).next

theorem Queued.missClass (hs : Queued q p s) (c : Nat) : Queued q p (missClass s c) := by
  unfold Machine.missClass
  exact ((hs.setF ..).classBit ..).count ..

theorem Queued.evaluateWindow (hs : Queued q p s) (d : WardWin) : Queued q p (evaluateWindow s d) := by
  unfold Machine.evaluateWindow
  exact (hs.wardEvent ..).foldl (fun _ _ hu => hu.missClass ..) ..

theorem Queued.execWindowEvaluation (hs : Queued q p s) : QueuedOut q p (execWindowEvaluation s) := by
  unfold Machine.execWindowEvaluation
  split
  · exact (hs.when ((hs.update ..).evaluateWindow ..) ..).next
  · exact hs.next

/-! ## Commands of the table -/

theorem Queued.execNop (hs : Queued q p s) (c : Cmd) : QueuedOut q p (execNop c s) := by
  unfold Machine.execNop
  exact hs.runCmd (fun _ hu => hu.reply ..) ..

theorem Queued.startDma (hs : Queued q p s) (c : Cmd) (write : Bool) (data : List Line) :
    Queued q p (startDma s c write data) := by
  unfold Machine.startDma
  exact ((hs.begin ..).update ..).foldUpTo (fun _ _ hu => hu.update ..) ..

theorem Queued.execMemRead (hs : Queued q p s) (c : Cmd) : QueuedOut q p (execMemRead c s) := by
  unfold Machine.execMemRead
  exact hs.runCmd (fun _ hu => hu.orFail (hu.startDma ..) ..) ..

theorem Queued.execMemWrite (hs : Queued q p s) (c : Cmd) (data : List Line) :
    QueuedOut q p (execMemWrite c data s) := by
  unfold Machine.execMemWrite
  exact hs.runCmd (fun _ hu => hu.orFail (hu.startDma ..) ..) ..

theorem Queued.endSubs (hs : Queued q p s) (i keep : Nat) : Queued q p (endSubs s i keep) := by
  unfold Machine.endSubs
  exact hs.update ..

theorem Queued.initDefined (hs : Queued q p s) (c : Cmd) : Queued q p (initDefined s c) := by
  unfold Machine.initDefined
  exact hs.orFail (((hs.wr ..).endSubs ..).answer ..) ..

theorem Queued.execInitDefine (hs : Queued q p s) (c : Cmd) : QueuedOut q p (execInitDefine c s) := by
  unfold Machine.execInitDefine
  exact hs.runCmd (fun _ hu => hu.initDefined ..) ..

theorem Queued.openFlow (hs : Queued q p s) (f port init key cls : Nat) :
    Queued q p (openFlow s f port init key cls) := by
  unfold Machine.openFlow
  exact ((((hs.wr ..).wr ..).wr ..).wr ..).wr ..

theorem Queued.flowOpened (hs : Queued q p s) (c : Cmd) : Queued q p (flowOpened s c) := by
  unfold Machine.flowOpened
  exact hs.orFail ((hs.openFlow ..).answer ..) ..

theorem Queued.execFlowOpen (hs : Queued q p s) (c : Cmd) : QueuedOut q p (execFlowOpen c s) := by
  unfold Machine.execFlowOpen
  exact hs.runCmd (fun _ hu => hu.flowOpened ..) ..

theorem Queued.closeFlow (hs : Queued q p s) (f : Nat) : Queued q p (closeFlow s f) := by
  unfold Machine.closeFlow
  split
  · exact hs
  · exact hs.ite (((hs.update ..).setF ..).answer ..)

theorem Queued.flowClosed (hs : Queued q p s) (c : Cmd) : Queued q p (flowClosed s c) := by
  unfold Machine.flowClosed
  exact (hs.answer ..).ite ((hs.answer ..).ite ((((hs.begin ..).setF ..).update ..).closeFlow ..))

theorem Queued.execFlowClose (hs : Queued q p s) (c : Cmd) : QueuedOut q p (execFlowClose c s) := by
  unfold Machine.execFlowClose
  exact hs.runCmd (fun _ hu => hu.flowClosed ..) ..

theorem Queued.execFlowCloseDone (hs : Queued q p s) (f : BitVec 18) : QueuedOut q p (execFlowCloseDone f s) := by
  unfold Machine.execFlowCloseDone
  exact (hs.when (hs.closeFlow ..) ..).next

theorem Queued.keySettled (hs : Queued q p s) (k : Nat) : Queued q p (keySettled s k) := by
  unfold Machine.keySettled
  split
  · exact hs
  · exact hs.ite ((hs.update ..).reply ..)

theorem Queued.changeKey (hs : Queued q p s) (c : Cmd) (k : Nat) (valid : Bool) (ext : Nat → Nat × Nat) :
    Queued q p (changeKey s c k valid ext) := by
  unfold Machine.changeKey
  exact ((((hs.begin ..).wr ..).foldUpTo (fun _ _ hu => (hu.wr ..).wr ..) ..).update ..).keySettled ..

theorem Queued.keyDefined (hs : Queued q p s) (c : Cmd) : Queued q p (keyDefined s c) := by
  unfold Machine.keyDefined
  exact hs.orFail (hs.changeKey ..) ..

theorem Queued.execKeyDefine (hs : Queued q p s) (c : Cmd) : QueuedOut q p (execKeyDefine c s) := by
  unfold Machine.execKeyDefine
  exact hs.runCmd (fun _ hu => hu.keyDefined ..) ..

theorem Queued.execKeyRevoke (hs : Queued q p s) (c : Cmd) : QueuedOut q p (execKeyRevoke c s) := by
  unfold Machine.execKeyRevoke
  exact hs.runCmd (fun _ hu => hu.changeKey ..) ..

theorem Queued.execKeyChangeDone (hs : Queued q p s) (k : BitVec 12) : QueuedOut q p (execKeyChangeDone k s) := by
  unfold Machine.execKeyChangeDone
  exact (hs.when (hs.keySettled ..) ..).next

theorem Queued.execAdminSet (hs : Queued q p s) (c : Cmd) : QueuedOut q p (execAdminSet c s) := by
  unfold Machine.execAdminSet
  exact hs.runCmd (fun _ hu => (hu.setF ..).answer ..) ..

theorem Queued.wardChange {t : State} (hs : Queued q p s) (ht : Queued q p t) (c : Cmd) :
    Queued q p (wardChange s t c) := by
  unfold Machine.wardChange
  exact (ht.answer ..).ite (hs.answer ..)

theorem Queued.classDefined (hs : Queued q p s) (c : Cmd) : Queued q p (classDefined s c) := by
  unfold Machine.classDefined
  exact hs.orFail (hs.wardChange ((((hs.setF ..).setF ..).wr ..).wr ..) ..) ..

theorem Queued.execClassSet (hs : Queued q p s) (c : Cmd) : QueuedOut q p (execClassSet c s) := by
  unfold Machine.execClassSet
  exact hs.runCmd (fun _ hu => hu.classDefined ..) ..

theorem Queued.guaranteeDefined (hs : Queued q p s) (c : Cmd) : Queued q p (guaranteeDefined s c) := by
  unfold Machine.guaranteeDefined
  exact hs.orFail (hs.wardChange ((hs.setF ..).branch (·.setF ..) (fun h => (h.wr ..).ite h)) ..) ..

theorem Queued.execGuaranteeSet (hs : Queued q p s) (c : Cmd) : QueuedOut q p (execGuaranteeSet c s) := by
  unfold Machine.execGuaranteeSet
  exact hs.runCmd (fun _ hu => hu.guaranteeDefined ..) ..

theorem Queued.planDefined (hs : Queued q p s) (c : Cmd) : Queued q p (planDefined s c) := by
  unfold Machine.planDefined
  exact hs.orFail (hs.wardChange (hs.wrReg ..) ..) ..

theorem Queued.execPlanSet (hs : Queued q p s) (c : Cmd) : QueuedOut q p (execPlanSet c s) := by
  unfold Machine.execPlanSet
  exact hs.runCmd (fun _ hu => hu.planDefined ..) ..

/-! ## The calibration set -/

theorem Queued.coefBytes (hs : Queued q p s) : Queued q p (coefBytes s).2 := by
  unfold Machine.coefBytes
  refine Queued.foldUpTo_snd (u := ([], s)) hs (fun _ _ hu => ?_) ..
  exact hu.fresh

theorem Queued.calBody (hs : Queued q p s) : Queued q p (calBody s).2 := by
  unfold Machine.calBody
  dsimp only
  exact hs.coefBytes

/-! ## Calibration -/

theorem Queued.applyTrims (hs : Queued q p s) (l : LeafN) (res : List Int) : Queued q p (applyTrims s l res) := by
  unfold Machine.applyTrims
  exact (((hs.foldUpTo (fun _ _ hu => (hu.wr ..).update ..) ..).update ..).condEnd ..).condEnd ..

theorem Queued.calRejects (hs : Queued q p s) (c : Cmd) (b : FltSet) (cls : Nat) :
    Queued q p (calRejects s c b cls) := by
  unfold Machine.calRejects
  exact (hs.fault ..).answer ..

theorem Queued.calLeaf (hs : Queued q p s) (c : Cmd) (l : Nat) (res : List Int) :
    Queued q p (calLeaf s c l res) := by
  unfold Machine.calLeaf
  exact ((hs.applyTrims ..).answer ..).ite (hs.calRejects ..)

theorem Queued.calRail (hs : Queued q p s) (c : Cmd) (r : Nat) (res : List Int) :
    Queued q p (calRail s c r res) := by
  unfold Machine.calRail
  exact ((hs.setF ..).answer ..).ite (hs.calRejects ..)

theorem Queued.applyBus (hs : Queued q p s) (t r : Nat) (res : List Int) : Queued q p (applyBus s t r res) := by
  unfold Machine.applyBus
  exact ((hs.fresh ..).foldUpTo (fun _ _ hu => hu.setF ..) ..).foldUpTo (fun _ _ hu => (hu.setF ..).setF ..) ..

theorem Queued.trainedRegs (hs : Queued q p s) (t r : Nat) (res : List Int) :
    Queued q p (trainedRegs s t r res) := by
  unfold Machine.trainedRegs
  exact ((((((hs.setF ..).setF ..).setF ..).foldUpTo (fun _ _ hu => (hu.fresh ..).wr ..) ..).foldUpTo
    (fun _ _ hu => hu.wr ..) ..).count ..).foldUpTo (fun _ _ hu => hu.count ..) ..

theorem Queued.beginMove (hs : Queued q p s) (t r : Nat) : Queued q p (beginMove s t r) := by
  unfold Machine.beginMove
  exact (hs.update ..).ite hs

theorem Queued.calBus (hs : Queued q p s) (c : Cmd) (t r : Nat) (res : List Int) :
    Queued q p (calBus s c t r res) := by
  unfold Machine.calBus
  exact (hs.trainedRegs ..).branch (fun h => (((h.applyBus ..).setF ..).beginMove ..).answer ..)
    (·.calRejects ..)

theorem Queued.calPort (hs : Queued q p s) (c : Cmd) (p0 r : Nat) : Queued q p (calPort s c p0 r) := by
  unfold Machine.calPort
  exact ((hs.foldl (fun _ _ hu => hu.setF ..) ..).answer ..).ite (hs.calRejects ..)

theorem Queued.execCalRun (hs : Queued q p s) (c : Cmd) (res : List Int) :
    QueuedOut q p (execCalRun c res s) := by
  unfold Machine.execCalRun
  exact hs.runCmd (fun _ hu => hu.orFail ((hu.calLeaf ..).ite ((hu.calRail ..).ite ((hu.calBus ..).ite
    (hu.calPort ..)))) ..) ..

theorem Queued.storeCal (hs : Queued q p s) (ok : Bool) : Queued q p (storeCal s ok).1 := by
  unfold Machine.storeCal
  dsimp only
  exact (hs.calBody.mramPut ..).mramStore ..

theorem Queued.execCalStore (hs : Queued q p s) (c : Cmd) (mramOk : Bool) :
    QueuedOut q p (execCalStore c mramOk s) := by
  unfold Machine.execCalStore
  refine hs.runCmd (fun _ hu => hu.orFail ?_ ..) ..
  dsimp only
  exact (hu.storeCal ..).answer ..

theorem Queued.loadTrims {u : State × Nat} (hu : Queued q p u.1) (b : Nat) : Queued q p (loadTrims b u).1 := by
  unfold Machine.loadTrims
  dsimp only
  refine Queued.foldUpTo_fst hu (fun _ _ hu => ?_) ..
  split
  · exact hu
  · split
    · exact hu
    · split
      · exact hu.wr ..
      · exact hu.update ..

theorem Queued.loadCoefs {u : State × Nat} (hu : Queued q p u.1) (b : Nat) : Queued q p (loadCoefs b u).1 := by
  unfold Machine.loadCoefs
  dsimp only
  refine Queued.foldUpTo_fst hu (fun _ _ hu => ?_) ..
  split
  · exact hu
  · exact (((hu.update ..).ite hu).update ..).ite ((hu.update ..).ite hu)

theorem Queued.loadIvr {u : State × Nat} (hu : Queued q p u.1) (b : Nat) : Queued q p (loadIvr b u).1 := by
  unfold Machine.loadIvr
  generalize 8 = n
  refine Queued.foldUpTo_fst hu (fun _ _ hu => ?_) ..
  dsimp only
  split
  · exact hu.setF ..
  · exact hu.fault (railSet _) 3 0 1

theorem Queued.loadBus (hs : Queued q p s) (b : Nat) : Queued q p (loadBus s b) := by
  unfold Machine.loadBus
  exact hs.foldUpTo (fun _ _ hu => ((hu.foldUpTo (fun _ _ hv => (hv.foldUpTo (fun _ _ hw =>
    hw.setF ..) ..).foldUpTo (fun _ _ hw => hw.wr ..) ..) ..).setF ..).beginMove ..) ..

theorem Queued.loadEq {u : State × Nat} (hu : Queued q p u.1) (b : Nat) : Queued q p (loadEq b u).1 := by
  unfold Machine.loadEq
  dsimp only
  refine Queued.foldUpTo_fst hu (fun _ _ hu => ?_) ..
  split
  · exact hu.setF ..
  · exact hu

theorem Queued.loadStart {u : State × Nat} (hu : Queued q p u.1) (b : Nat) : Queued q p (loadStart b u).1 := by
  unfold Machine.loadStart
  dsimp only
  split
  · exact hu.update ..
  · exact hu

theorem Queued.loadSpeed {u : State × Nat} (hu : Queued q p u.1) (b : Nat) : Queued q p (loadSpeed b u).1 := by
  unfold Machine.loadSpeed
  dsimp only
  refine Queued.foldUpTo_fst hu (fun _ _ hu => ?_) ..
  split
  · exact hu.update ..
  · exact hu

theorem Queued.calLoaded {u : State × Nat} (hu : Queued q p u.1) (f : Bool) : Queued q p (calLoaded f u).1 := by
  unfold Machine.calLoaded
  exact hu.ite (hu.fault ..)

theorem Queued.loadCal (hs : Queued q p s) (k : Nat) : Queued q p (loadCal s k).1 := by
  unfold Machine.loadCal
  exact
    (((((((hs.loadBus ..).loadTrims ..).loadCoefs ..).loadIvr ..).loadEq ..).loadStart ..).loadSpeed ..).calLoaded ..

theorem Queued.execCalRestore (hs : Queued q p s) (c : Cmd) : QueuedOut q p (execCalRestore c s) := by
  unfold Machine.execCalRestore
  refine hs.runCmd (fun _ hu => hu.orFail ?_ ..) ..
  dsimp only
  exact (hu.loadCal ..).answer ..

theorem Queued.busStep (hs : Queued q p s) (t : Nat) : Queued q p (busStep s t) := by
  unfold Machine.busStep
  exact ((hs.setTum ..).update ..).ite (hs.setTum ..)

theorem Queued.execBusDelayStep (hs : Queued q p s) (t : Tum) : QueuedOut q p (execBusDelayStep t s) := by
  unfold Machine.execBusDelayStep
  exact (hs.when (hs.busStep ..) ..).next

theorem Queued.execSpeedMonitorRead (hs : Queued q p s) (m : Fin 2256) (freq : Nat) :
    QueuedOut q p (execSpeedMonitorRead m freq s) := by
  unfold Machine.execSpeedMonitorRead
  exact (hs.when ((hs.wr ..).fault ..) ..).next

/-! ## Counters, dumps and logs -/

theorem Queued.applyConfig (hs : Queued q p s) (c : Cmd) : Queued q p (applyConfig s c) := by
  unfold Machine.applyConfig
  exact ((hs.wr ..).wr ..).answer ..

theorem Queued.execCntConfig (hs : Queued q p s) (c : Cmd) : QueuedOut q p (execCntConfig c s) := by
  unfold Machine.execCntConfig
  exact hs.runCmd (fun _ hu => hu.orFail (((hu.update ..).begin ..).ite (hu.applyConfig ..)) ..) ..

theorem Queued.queueDump (hs : Queued q p s) : Queued q p (queueDump s) := by
  unfold Machine.queueDump
  exact hs.foldUpTo (fun _ _ hu => hu.update ..) ..

theorem Queued.latchDump (hs : Queued q p s) (t : Nat) (counts : Tab (BitVec 48)) :
    Queued q p (latchDump s t counts) := by
  unfold Machine.latchDump
  exact ((hs.update ..).wr ..).queueDump ..

theorem Queued.skipTick (hs : Queued q p s) : Queued q p (skipTick s) := by
  unfold Machine.skipTick
  exact (hs.update ..).count ..

theorem Queued.execLatchTick (hs : Queued q p s) : QueuedOut q p (execLatchTick s) := by
  unfold Machine.execLatchTick
  split
  · exact hs.next
  · exact ((hs.update ..).when ((hs.update ..).branch (·.skipTick ..) (·.latchDump ..)) ..).next

theorem Queued.configNow (hs : Queued q p s) : Queued q p (configNow s) := by
  unfold Machine.configNow
  exact (hs.update ..).foldl (fun _ _ hu => hu.applyConfig ..) ..

theorem Queued.dumpDone (hs : Queued q p s) : Queued q p (dumpDone s) := by
  unfold Machine.dumpDone
  exact ((((((hs.wr ..).setF ..).setF ..).update ..).count ..).raise ..).configNow ..

theorem Queued.execDumpComplete (hs : Queued q p s) : QueuedOut q p (execDumpComplete s) := by
  unfold Machine.execDumpComplete
  exact (hs.when ((hs.dumpDone ..).ite ((hs.configNow ..).ite hs)) ..).next

theorem Queued.flushTail (hs : Queued q p s) : Queued q p (flushTail s) := by
  unfold Machine.flushTail
  exact (hs.update ..).foldl (fun _ _ hu => (hu.mramPut ..).update ..) ..

theorem Queued.execLogFlush (hs : Queued q p s) (mramOk : Bool) : QueuedOut q p (execLogFlush mramOk s) := by
  unfold Machine.execLogFlush
  exact (hs.when ((hs.flushTail ..).ite (hs.mramStore ..)) ..).next

theorem Queued.execLogRead (hs : Queued q p s) (c : Cmd) : QueuedOut q p (execLogRead c s) := by
  unfold Machine.execLogRead
  exact hs.runCmd (fun _ hu => hu.orFail (((hu.fresh ..).reply ..).ite (hu.reply ..)) ..) ..

theorem Queued.putSub (hs : Queued q p s) (i : Nat) (x : Option Sub) : Queued q p (putSub s i x) := by
  unfold Machine.putSub
  exact hs.update ..

theorem Queued.subscribe (hs : Queued q p s) (c : Cmd) (src init port : Nat) (on : Bool) :
    Queued q p (subscribe s c src init port on) := by
  unfold Machine.subscribe
  split
  · exact hs.answer ..
  · exact (hs.putSub ..).answer ..
  · exact hs.answer ..
  · split
    · exact (hs.putSub ..).answer ..
    · exact hs.answer ..

theorem Queued.execEventSubscribe (hs : Queued q p s) (c : Cmd) : QueuedOut q p (execEventSubscribe c s) := by
  unfold Machine.execEventSubscribe
  exact hs.runCmd (fun _ hu => hu.orFail (hu.subscribe ..) ..) ..

/-! ## Link rows -/

theorem Queued.wrLinkCtrl (hs : Queued q p s) (p0 : PortN) (v : Reg32) : Queued q p (wrLinkCtrl s p0 v) := by
  unfold Machine.wrLinkCtrl
  exact ((hs.wrReg ..).ifThen (fun h => (h.toRetrain ..).ite (h.paramFault ..))).ifElse (fun h =>
    (h.fromOff ..).ite (h.portReset ..))

theorem Queued.execLinkEnWrite (hs : Queued q p s) (p0 : PortN) (v : Reg32) :
    QueuedOut q p (execLinkEnWrite p0 v s) := by
  unfold Machine.execLinkEnWrite
  exact (hs.atReg (hs.wrLinkCtrl ..) ..).next

theorem Queued.execRetrain (hs : Queued q p s) (p0 : PortN) (v : Reg32) : QueuedOut q p (execRetrain p0 v s) := by
  unfold Machine.execRetrain
  exact (hs.atReg (hs.wrLinkCtrl ..) ..).next

theorem Queued.execDetectPoll (hs : Queued q p s) (p0 : PortN) (clk : Bool) (lanes : BitVec 16) :
    QueuedOut q p (execDetectPoll p0 clk lanes s) := by
  unfold Machine.execDetectPoll
  exact (hs.when ((((hs.at16 ..).modPort ..).ite hs).setPhy ..) ..).next

theorem Queued.startLane (hs : Queued q p s) (p0 l : Nat) : Queued q p (startLane s p0 l) := by
  unfold Machine.startLane
  exact (hs.setF ..).setPhy ..

theorem Queued.lockLanes (hs : Queued q p s) (p0 m : Nat) : Queued q p (lockLanes s p0 m) := by
  unfold Machine.lockLanes
  exact (hs.setF ..).foldUpTo (fun _ _ hu => ((hu.startLane ..).setF ..).ite hu) ..

theorem Queued.clockLocked (hs : Queued q p s) (p0 : PortN) : Queued q p (clockLocked s p0) := by
  unfold Machine.clockLocked
  exact (hs.lockLanes ..).toKs1 ..

theorem Queued.execClockLock (hs : Queued q p s) (p0 : PortN) : QueuedOut q p (execClockLock p0 s) := by
  unfold Machine.execClockLock
  exact ((hs.clockLocked ..).ite ((hs.lockLanes ..).ite hs)).next

theorem Queued.execClocklockTimeout (hs : Queued q p s) (p0 : PortN) :
    QueuedOut q p (execClocklockTimeout p0 s) := by
  unfold Machine.execClocklockTimeout
  exact (hs.when (hs.toDetect ..) ..).next

theorem Queued.countKeySet (hs : Queued q p s) (p0 l kind k : Nat) : Queued q p (countKeySet s p0 l kind k) := by
  unfold Machine.countKeySet
  exact hs.modPort ..

theorem Queued.breakKeySet (hs : Queued q p s) (p0 l : Nat) : Queued q p (breakKeySet s p0 l) := by
  unfold Machine.breakKeySet
  exact hs.modPort ..

theorem Queued.mismatch (hs : Queued q p s) (p0 : PortN) (role vers : Bool) :
    Queued q p (mismatch s p0 role vers) := by
  unfold Machine.mismatch
  exact ((((hs.setF ..).ite hs).ifThen (·.setF ..)).toDetect ..).fault ..

theorem Queued.keySetIn (hs : Queued q p s) (p0 : PortN) (l : LaneN) (raw : KeySetBits) :
    Queued q p (keySetIn s p0 l raw) := by
  unfold Machine.keySetIn
  dsimp only
  refine Queued.ite (((hs.modPort ..).breakKeySet ..).setF ..) ?_
  split
  · exact hs.breakKeySet ..
  · exact (hs.mismatch ..).ite (hs.countKeySet ..)

theorem Queued.execKeySetReceived (hs : Queued q p s) (p0 : PortN) (l : LaneN) (raw : KeySetBits) :
    QueuedOut q p (execKeySetReceived p0 l raw s) := by
  unfold Machine.execKeySetReceived
  exact (hs.when (hs.keySetIn ..) ..).next

theorem Queued.recordPartner (hs : Queued q p s) (p0 k : Nat) : Queued q p (recordPartner s p0 k) := by
  unfold Machine.recordPartner
  exact (hs.wr ..).wr ..

theorem Queued.takeRate (hs : Queued q p s) (p0 r : Nat) : Queued q p (takeRate s p0 r) := by
  unfold Machine.takeRate
  exact ((hs.setF ..).setPhy ..).startKeys ..

theorem Queued.orderLanes (hs : Queued q p s) (p0 m : Nat) : Queued q p (orderLanes s p0 m) := by
  unfold Machine.orderLanes
  exact ((hs.setF ..).foldUpTo (fun _ _ hu => hu.setF ..) ..).setPhy ..

theorem Queued.ks1Done (hs : Queued q p s) (p0 : PortN) : Queued q p (ks1Done s p0) := by
  unfold Machine.ks1Done
  dsimp only
  refine Queued.ite hs ?_
  split
  · exact hs
  · exact (((((hs.leaveLink ..).recordPartner ..).orderLanes ..).takeRate ..).takeMinWidth ..).modPort ..

theorem Queued.ks1Seen (hs : Queued q p s) (p0 tested : Nat) : Queued q p (ks1Seen s p0 tested) := by
  unfold Machine.ks1Seen
  exact (hs.recordPartner ..).ite hs

theorem Queued.ks1Again (hs : Queued q p s) (p0 : PortN) : Queued q p (ks1Again s p0) := by
  unfold Machine.ks1Again
  dsimp only
  refine Queued.ite hs ?_
  split
  · exact hs
  · exact (hs.recordPartner ..).takeRate ..

theorem Queued.deskewLane (hs : Queued q p s) (p0 l : Nat) : Queued q p (deskewLane s p0 l) := by
  unfold Machine.deskewLane
  exact (hs.fresh ..).setPhy ..

theorem Queued.deskewLanes (hs : Queued q p s) (p0 m : Nat) : Queued q p (deskewLanes s p0 m) := by
  unfold Machine.deskewLanes
  exact hs.foldUpTo (fun _ _ hu => (hu.deskewLane ..).ite hu) ..

theorem Queued.goActive (hs : Queued q p s) (p0 rx tx : Nat) : Queued q p (goActive s p0 rx tx) := by
  unfold Machine.goActive
  exact ((((((hs.leaveLink ..).setLocks ..).deskewLanes ..).wr ..).setHealthy ..).ifThen
    (·.count ..)).modPort ..

theorem Queued.startNumbers (hs : Queued q p s) (p0 k : Nat) : Queued q p (startNumbers s p0 k) := by
  unfold Machine.startNumbers
  exact (hs.modPort ..).applyLimits ..

theorem Queued.ks2Done (hs : Queued q p s) (p0 : PortN) : Queued q p (ks2Done s p0) := by
  unfold Machine.ks2Done
  refine hs.ite (((hs.portDown ..).ite (hs.trainFails ..)).ite (hs.ite ?_))
  exact (hs.goActive ..).branch (fun h => (h.startNumbers ..).ifThen (·.sendPair ..))
    (fun h => (((h.applyAck ..).resendAll ..).applyLimits ..).ifThen (fun h1 => (h1.setPhy ..).toRetrain ..))

theorem Queued.exchangeDone (hs : Queued q p s) (p0 : PortN) : Queued q p (exchangeDone s p0) := by
  unfold Machine.exchangeDone
  exact (hs.ks1Done ..).ite ((hs.ks2Done ..).ite ((hs.ks1Again ..).ite ((hs.ks1Seen ..).ite hs)))

theorem Queued.execKeySetExchangeComplete (hs : Queued q p s) (p0 : PortN) :
    QueuedOut q p (execKeySetExchangeComplete p0 s) := by
  unfold Machine.execKeySetExchangeComplete
  exact (hs.when (hs.exchangeDone ..) ..).next

theorem Queued.execKs1Timeout (hs : Queued q p s) (p0 : PortN) : QueuedOut q p (execKs1Timeout p0 s) := by
  unfold Machine.execKs1Timeout
  exact (hs.when (hs.trainGivesUp ..) ..).next

theorem Queued.execKs2Timeout (hs : Queued q p s) (p0 : PortN) : QueuedOut q p (execKs2Timeout p0 s) := by
  unfold Machine.execKs2Timeout
  exact (hs.when (hs.trainFails ..) ..).next

theorem Queued.execTrainRateRelock (hs : Queued q p s) (p0 : PortN) :
    QueuedOut q p (execTrainRateRelock p0 s) := by
  unfold Machine.execTrainRateRelock
  exact (hs.when ((hs.setF ..).setPhy ..) ..).next

theorem Queued.sweepCode (hs : Queued q p s) (p0 : Nat) (meas : List (BitVec 9)) :
    Queued q p (sweepCode s p0 meas) := by
  unfold Machine.sweepCode
  exact (hs.foldUpTo (fun _ _ hu => hu.ite (hu.setPhy ..)) ..).setPhy ..

theorem Queued.sweepPhase (hs : Queued q p s) (p0 : Nat) (meas : List (BitVec 9)) :
    Queued q p (sweepPhase s p0 meas) := by
  unfold Machine.sweepPhase
  exact hs.foldUpTo (fun _ _ hu => (hu.setF ..).ifElse (fun h => (h.setF ..).ifElse (·.setPhy ..))) ..

theorem Queued.sweepEnd (hs : Queued q p s) (p0 : PortN) : Queued q p (sweepEnd s p0) := by
  unfold Machine.sweepEnd
  exact (((hs.setPhy ..).startKeys ..).setHealthy ..).branch (fun h => (h.portDown ..).ite (h.trainFails ..))
    (fun h => (h.dropIdle ..).ite ((h.leaveLink ..).modPort ..))

theorem Queued.sweepRestart (hs : Queued q p s) (p0 : PortN) : Queued q p (sweepRestart s p0) := by
  unfold Machine.sweepRestart
  exact ((hs.setF ..).setF ..).branch (fun h => ((h.at16 ..).setPhy ..).startKeys ..) (·.toKs1 ..)

theorem Queued.sweepStepEnd (hs : Queued q p s) (p0 : PortN) (meas : List (BitVec 9)) :
    Queued q p (sweepStepEnd s p0 meas) := by
  unfold Machine.sweepStepEnd
  exact (hs.sweepRestart ..).ite ((hs.sweepCode ..).ite ((hs.sweepPhase ..).sweepEnd ..))

theorem Queued.execTrainSweepStep (hs : Queued q p s) (p0 : PortN) (meas : List (BitVec 9)) :
    QueuedOut q p (execTrainSweepStep p0 meas s) := by
  unfold Machine.execTrainSweepStep
  exact (hs.when (hs.sweepStepEnd ..) ..).next

theorem Queued.wrPhyRate (hs : Queued q p s) (p0 : PortN) (v : Reg32) : Queued q p (wrPhyRate s p0 v) := by
  unfold Machine.wrPhyRate
  exact (hs.putReg ..).ite (((hs.wrReg ..).setF ..).ifThen (·.toRetrain ..))

theorem Queued.execPhyRateReqWrite (hs : Queued q p s) (p0 : PortN) (v : Reg32) :
    QueuedOut q p (execPhyRateReqWrite p0 v s) := by
  unfold Machine.execPhyRateReqWrite
  exact (hs.atReg (hs.wrPhyRate ..) ..).next

theorem Queued.laneLost (hs : Queued q p s) (p0 : PortN) (l : LaneN) : Queued q p (laneLost s p0 l) := by
  unfold Machine.laneLost
  exact ((hs.loseLanes ..).toRetrain ..).ite (hs.loseLanes ..)

theorem Queued.execLaneLoss (hs : Queued q p s) (p0 : PortN) (l : LaneN) :
    QueuedOut q p (execLaneLoss p0 l s) := by
  unfold Machine.execLaneLoss
  exact (hs.when (hs.laneLost ..) ..).next

theorem Queued.clockLost (hs : Queued q p s) (p0 : PortN) : Queued q p (clockLost s p0) := by
  unfold Machine.clockLost
  exact ((hs.setF ..).setF ..).ite (((hs.setF ..).setF ..).portDown ..)

theorem Queued.execClockLaneLoss (hs : Queued q p s) (p0 : PortN) : QueuedOut q p (execClockLaneLoss p0 s) := by
  unfold Machine.execClockLaneLoss
  exact (hs.when (hs.clockLost ..) ..).next

theorem Queued.laneTestEnd (hs : Queued q p s) (p0 : PortN) (rx tx : BitVec 16) :
    Queued q p (laneTestEnd s p0 rx tx) := by
  unfold Machine.laneTestEnd
  exact (((((hs.ks1Seen ..).setPhy ..).startKeys ..).setHealthy ..).setLocks ..).branch (·.portDown ..)
    (·.dropIdle ..)

theorem Queued.execRetrainLaneTestEnd (hs : Queued q p s) (p0 : PortN) (rx tx : BitVec 16) :
    QueuedOut q p (execRetrainLaneTestEnd p0 rx tx s) := by
  unfold Machine.execRetrainLaneTestEnd
  exact (hs.when (hs.laneTestEnd ..) ..).next

theorem Queued.retrainAgain (hs : Queued q p s) (p0 : PortN) : Queued q p (retrainAgain s p0) := by
  unfold Machine.retrainAgain
  exact ((hs.takeMinWidth ..).setPhy ..).startKeys ..

theorem Queued.execRetrainTimeout (hs : Queued q p s) (p0 : PortN) : QueuedOut q p (execRetrainTimeout p0 s) := by
  unfold Machine.execRetrainTimeout
  exact (hs.when ((hs.portDown ..).ite (hs.retrainAgain ..)) ..).next

theorem Queued.enterLowPower (hs : Queued q p s) (p0 : PortN) : Queued q p (enterLowPower s p0) := by
  unfold Machine.enterLowPower
  exact ((((hs.leaveLink ..).setLocks ..).setF ..).modPort ..).count ..

theorem Queued.execLowpowerEntry (hs : Queued q p s) (p0 : PortN) : QueuedOut q p (execLowpowerEntry p0 s) := by
  unfold Machine.execLowpowerEntry
  exact (hs.when (hs.enterLowPower ..) ..).next

theorem Queued.abandonEntry (hs : Queued q p s) (p0 : Nat) : Queued q p (abandonEntry s p0) := by
  unfold Machine.abandonEntry
  exact hs.modPort ..

theorem Queued.execWakeRequest (hs : Queued q p s) (p0 : PortN) : QueuedOut q p (execWakeRequest p0 s) := by
  unfold Machine.execWakeRequest
  exact (hs.when ((hs.ite (hs.abandonEntry ..)).ite ((hs.modPort ..).ite hs)) ..).next

theorem Queued.exitLowPower (hs : Queued q p s) (p0 : PortN) (failed : BitVec 16) :
    Queued q p (exitLowPower s p0 failed) := by
  unfold Machine.exitLowPower
  exact (((hs.modPort ..).setLocks ..).setF ..).branch (fun h => (h.loseLanes ..).ifThen (·.toRetrain ..))
    (fun h => (h.toRetrain ..).ite (h.modPort ..))

theorem Queued.execLowpowerExitDone (hs : Queued q p s) (p0 : PortN) (failed : BitVec 16) :
    QueuedOut q p (execLowpowerExitDone p0 failed s) := by
  unfold Machine.execLowpowerExitDone
  exact (hs.when (hs.exitLowPower ..) ..).next

end Sys2Proof.Machine
end

section
/-! PROOF. No command changes the queue behind it or the part fitted (O5): the rules.
Regions, the pair, repair and scans. -/

namespace Sys2Proof.Machine

open Sys2Proof

variable {q : List Instr} {p : Part} {s : State}

/-! ## Single lines -/

theorem Queued.wakeTum (hs : Queued q p s) (t : Nat) : Queued q p (wakeTum s t) := by
  unfold Machine.wakeTum
  exact hs.wakeFor ..

theorem Queued.actNext (hs : Queued q p s) (a : Access) (l : Loc) : Queued q p (actNext s a l) := by
  unfold Machine.actNext
  exact ((hs.goTo ..).doAct ..).advance ..

theorem Queued.openLine (hs : Queued q p s) (a : Access) (l : Loc) : Queued q p (openLine s a l) := by
  unfold Machine.openLine
  exact hs.ite (((hs.preNext ..).ite hs).actNext ..)

theorem Queued.colNext (hs : Queued q p s) (a : Access) (l : Loc) (w : Bool) : Queued q p (colNext s a l w) := by
  unfold Machine.colNext
  exact (((hs.goTo ..).issueCol ..).charge ..).advance ..

theorem Queued.lineRead (hs : Queued q p s) (a : Access) (e : Nat) (flips : List CodeWord) :
    Queued q p (lineRead s a e flips).1 := by
  unfold Machine.lineRead
  dsimp only
  split
  · exact hs
  · exact ((hs.openLine ..).colNext ..).decodeLine ..

theorem Queued.lineWr (hs : Queued q p s) (a : Access) (l : Loc) : Queued q p (lineWr s a l) := by
  unfold Machine.lineWr
  exact (hs.openLine ..).colNext ..

theorem Queued.lineWrAll (hs : Queued q p s) (a : Access) : Queued q p (lineWrAll s a) := by
  unfold Machine.lineWrAll
  dsimp only
  split
  · exact ((hs.lineWr ..).lineWr ..).afterCol ..
  · exact hs.lineWr ..

theorem Queued.lineStore (hs : Queued q p s) (a : Access) (m : Nat) (f : Nat → CodeWord) :
    Queued q p (lineStore s a m f) := by
  unfold Machine.lineStore
  dsimp only
  split
  · exact hs.setQ ..
  · exact (hs.lineWrAll ..).foldUpTo (fun _ _ hu => (hu.putBoth ..).ite hu) ..

theorem Queued.afterRead (hs : Queued q p s) (a : Access) : Queued q p (afterRead s a) := by
  unfold Machine.afterRead
  exact hs.ite (hs.goTo ..)

theorem Queued.lineEnter (hs : Queued q p s) (a : Access) : Queued q p (lineEnter s a) := by
  unfold Machine.lineEnter
  exact (((hs.count ..).ite hs).update ..).ite ((hs.count ..).ite hs)

theorem Queued.lineEnd (hs : Queued q p s) (a : Access) : Queued q p (lineEnd s a) := by
  unfold Machine.lineEnd
  exact (hs.ite (hs.afterCol ..)).update ..

theorem Queued.writeBacks (hs : Queued q p s) (a : Access) (g : List Got) : Queued q p (writeBacks s a g) := by
  unfold Machine.writeBacks
  exact ((hs.afterRead ..).lineWrAll ..).ite hs

/-! ## Regions -/

theorem Queued.oweSweeps (hs : Queued q p s) (r : Nat) : Queued q p (oweSweeps s r) := by
  unfold Machine.oweSweeps
  exact hs.update ..

theorem Queued.noteCleared (hs : Queued q p s) (r : Nat) : Queued q p (noteCleared s r) := by
  unfold Machine.noteCleared
  exact hs.foldl (fun _ _ hu => (hu.setMode ..).ite hu) ..

theorem Queued.clearPoint (hs : Queued q p s) (r : Nat) (m : Option (BitVec 2)) :
    Queued q p (clearPoint s r m) := by
  unfold Machine.clearPoint
  dsimp only
  refine Queued.ifElse (Queued.ifThen ?_ (·.setDiverged ..)) (·.oweSweeps ..)
  refine Queued.update (Queued.storeRegion ?_ ..) ..
  have h := hs.noteCleared r
  split
  · exact ((((h.setF ..).setF ..).ite ((h.setF ..).setF ..)).setF ..).replaceWaiting ..
  · exact ((h.setF ..).setF ..).ite ((h.setF ..).setF ..)

theorem Queued.sendCtrl (hs : Queued q p s) (sub r : Nat) (body : List (BitVec 16)) :
    Queued q p (sendCtrl s sub r body) := by
  unfold Machine.sendCtrl
  exact hs.sendSeq ..

theorem Queued.sendClear (hs : Queued q p s) (r : Nat) (m : Option (BitVec 2)) :
    Queued q p (sendClear s r m) := by
  unfold Machine.sendClear
  exact hs.sendCtrl ..

theorem Queued.startPairClear (hs : Queued q p s) (r : Nat) (m : Option (BitVec 2)) (c : Option Cmd) :
    Queued q p (startPairClear s r m c) := by
  unfold Machine.startPairClear
  exact (hs.update ..).sendClear ..

theorem Queued.modClear (hs : Queued q p s) (r : Nat) (f : ClearCmd → ClearCmd) :
    Queued q p (modClear s r f) := by
  unfold Machine.modClear
  split
  · exact hs.update ..
  · exact hs

theorem Queued.settleClears (hs : Queued q p s) : Queued q p (settleClears s) := by
  unfold Machine.settleClears
  exact (hs.update ..).foldl (fun _ _ hu => hu.answerOpt ..) ..

theorem Queued.startReinit (hs : Queued q p s) (g : Nat) : Queued q p (startReinit s g) := by
  unfold Machine.startReinit
  exact ((hs.update ..).foldUpTo (fun _ _ hu => hu.wakeTum ..) ..).ite hs

theorem Queued.clearEffect (hs : Queued q p s) (r : Nat) : Queued q p (clearEffect s r) := by
  unfold Machine.clearEffect
  split
  · exact hs
  · exact (hs.clearPoint ..).branch (·.startReinit ..) (fun h => (h.modClear ..).ifElse (fun h1 =>
      (h1.sendCtrl ..).settleClears ..))

theorem Queued.advanceClear (hs : Queued q p s) (r : Nat) : Queued q p (advanceClear s r) := by
  unfold Machine.advanceClear
  split
  · exact hs
  · exact hs.ite ((hs.clearEffect ..).ite ((hs.startPairClear ..).ite hs))

theorem Queued.startClears (hs : Queued q p s) (c : Cmd) : Queued q p (startClears s c) := by
  unfold Machine.startClears
  exact (((hs.begin ..).update ..).foldl (fun _ _ hu => (hu.sendClear ..).ite (hu.advanceClear ..)) ..).foldl
    (fun _ _ hu => hu.startReinit ..) ..

theorem Queued.execRegionClear (hs : Queued q p s) (c : Cmd) : QueuedOut q p (execRegionClear c s) := by
  unfold Machine.execRegionClear
  exact hs.runCmd (fun _ hu => hu.orFail (hu.startClears ..) ..) ..

theorem Queued.execRegionClearDone (hs : Queued q p s) (r : BitVec 16) :
    QueuedOut q p (execRegionClearDone r s) := by
  unfold Machine.execRegionClearDone
  refine Queued.next ?_
  split
  · exact (hs.update ..).settleClears ..
  · exact hs

theorem Queued.modSweep (hs : Queued q p s) (i : Nat) (f : SweepT → SweepT) : Queued q p (modSweep s i f) := by
  unfold Machine.modSweep
  exact hs.update ..

theorem Queued.execSweepStart (hs : Queued q p s) (t : Tum) (r : BitVec 16) :
    QueuedOut q p (execSweepStart t r s) := by
  unfold Machine.execSweepStart
  refine Queued.next ?_
  split
  · exact hs.when ((hs.modSweep ..).wakeTum ..) ..
  · exact hs

theorem Queued.sweepOne (hs : Queued q p s) (t x r : Nat) (flips : List CodeWord) :
    Queued q p (sweepOne s t x r flips) := by
  unfold Machine.sweepOne
  exact (((((hs.lineEnter ..).lineRead ..).branch (·.writeBacks ..) (fun h =>
    (h.afterRead ..).lineStore ..)).lineEnd ..).count ..).ifElse (·.count ..)

theorem Queued.sweepStep (hs : Queued q p s) (i : Nat) (x : SweepT) (flips : List CodeWord) :
    Queued q p (sweepStep s i x flips) := by
  unfold Machine.sweepStep
  split
  · exact hs.when ((hs.sweepOne ..).modSweep ..) ..
  · exact hs

theorem Queued.sweepGo (hs : Queued q p s) (t r : Nat) (flips : List CodeWord) :
    Queued q p (sweepGo s t r flips) := by
  unfold Machine.sweepGo
  split
  · split
    · exact hs.when ((hs.sweepStep ..).ite (hs.wakeTum ..)) ..
    · exact hs
  · exact hs

theorem Queued.execSweepLine (hs : Queued q p s) (t : Tum) (r : BitVec 16) (flips : List CodeWord) :
    QueuedOut q p (execSweepLine t r flips s) := by
  unfold Machine.execSweepLine
  exact (hs.sweepGo ..).next

theorem Queued.peerEffect (hs : Queued q p s) (r : Nat) (m : BitVec 2) : Queued q p (peerEffect s r m) := by
  unfold Machine.peerEffect
  exact (hs.clearPoint ..).sendCtrl ..

theorem Queued.finishSweep (hs : Queued q p s) (r : Nat) : Queued q p (finishSweep s r) := by
  unfold Machine.finishSweep
  dsimp only
  refine Queued.ite (((hs.update ..).setF ..).storeRegion ..) ?_
  split
  · exact (((((hs.update ..).setF ..).storeRegion ..).oweSweeps ..).update ..).peerEffect ..
  · exact ((((hs.update ..).setF ..).storeRegion ..).oweSweeps ..).advanceClear ..

theorem Queued.sweepRest (hs : Queued q p s) (r : Nat) : Queued q p (sweepRest s r) := by
  unfold Machine.sweepRest
  exact hs.ite (hs.foldUpTo (fun _ _ hu => hu.foldUpTo (fun _ _ hv => hv.sweepGo ..) ..) ..)

theorem Queued.execSweepFinish (hs : Queued q p s) (r : BitVec 16) : QueuedOut q p (execSweepFinish r s) := by
  unfold Machine.execSweepFinish
  exact (hs.when ((hs.sweepRest ..).finishSweep ..) ..).next

theorem Queued.initLine (hs : Queued q p s) (t : Nat) : Queued q p (initLine s t) := by
  unfold Machine.initLine
  exact (((hs.lineStore ..).lineEnd ..).setMode ..).count ..

theorem Queued.execInitialSweepLine (hs : Queued q p s) (t : Tum) : QueuedOut q p (execInitialSweepLine t s) := by
  unfold Machine.execInitialSweepLine
  exact (hs.when (hs.initLine ..) ..).next

theorem Queued.releaseRegions (hs : Queued q p s) : Queued q p (releaseRegions s) := by
  unfold Machine.releaseRegions
  exact hs.foldUpTo (fun _ _ hu => (((hu.setF ..).setF ..).storeRegion ..).ite hu) ..

theorem Queued.initFinish (hs : Queued q p s) (t : Nat) : Queued q p (initFinish s t) := by
  unfold Machine.initFinish
  exact ((hs.update ..).setMode ..).releaseRegions ..

theorem Queued.zeroLines (hs : Queued q p s) (f : Nat → Nat → Bool) : Queued q p (zeroLines s f) := by
  unfold Machine.zeroLines
  exact (hs.update ..).foldUpTo (fun _ _ hu => hu.modTum ..) ..

theorem Queued.chargeLines (hs : Queued q p s) (t n : Nat) : Queued q p (chargeLines s t n) := by
  unfold Machine.chargeLines
  exact hs.chargeMaster ..

theorem Queued.initRest (hs : Queued q p s) (t : Nat) : Queued q p (initRest s t) := by
  unfold Machine.initRest
  exact hs.ite ((((hs.zeroLines ..).chargeLines ..).count ..).setMode ..)

theorem Queued.execInitialSweepFinish (hs : Queued q p s) (t : Tum) :
    QueuedOut q p (execInitialSweepFinish t s) := by
  unfold Machine.execInitialSweepFinish
  exact (hs.when ((hs.initRest ..).initFinish ..) ..).next

theorem Queued.finishReinit (hs : Queued q p s) (x : Reinit) : Queued q p (finishReinit s x) := by
  unfold Machine.finishReinit
  exact ((((hs.zeroLines ..).foldUpTo (fun _ _ hu => (hu.chargeLines ..).count ..) ..).update ..).foldl
    (fun _ _ hu => ((((hu.setF ..).setF ..).storeRegion ..).modClear ..).ifThen
    (·.sendCtrl ..)) ..).settleClears ..

theorem Queued.execGroupReinitDone (hs : Queued q p s) (g : BitVec 10) :
    QueuedOut q p (execGroupReinitDone g s) := by
  unfold Machine.execGroupReinitDone
  refine Queued.next ?_
  split
  · exact hs.when (hs.finishReinit ..) ..
  · exact hs

/-! ## The pair -/

theorem Queued.pairEvt (hs : Queued q p s) (i : Nat) : Queued q p (pairEvt s i) := by
  unfold Machine.pairEvt
  exact (hs.raise ..).setF ..

theorem Queued.answerFree (hs : Queued q p s) (c : Option Cmd) : Queued q p (answerFree s c) := by
  unfold Machine.answerFree
  split
  · exact (hs.fresh ..).answer ..
  · exact hs

theorem Queued.portToHost (hs : Queued q p s) (p0 : PortN) (en : Bool) : Queued q p (portToHost s p0 en) := by
  unfold Machine.portToHost
  exact (((hs.ite (hs.portReset ..)).setF ..).setF ..).fromOff ..

theorem Queued.portToMirror (hs : Queued q p s) (p0 : PortN) : Queued q p (portToMirror s p0) := by
  unfold Machine.portToMirror
  exact hs.ite ((((hs.ite (hs.portReset ..)).setF ..).setF ..).fromOff ..)

theorem Queued.startForm (hs : Queued q p s) (c : Cmd) : Queued q p (startForm s c) := by
  unfold Machine.startForm
  exact ((((hs.begin ..).wr ..).wr ..).update ..).foldl (fun _ _ hu => (hu.portToMirror ..).ite hu) ..

theorem Queued.execPairForm (hs : Queued q p s) (c : Cmd) : QueuedOut q p (execPairForm c s) := by
  unfold Machine.execPairForm
  exact hs.runCmd (fun _ hu => hu.orFail (hu.startForm ..) ..) ..

theorem Queued.formFails (hs : Queued q p s) (st : BitVec 16) : Queued q p (formFails s st) := by
  unfold Machine.formFails
  exact ((((hs.update ..).wr ..).wr ..).foldl (fun _ _ hu => (hu.portToHost ..).ite hu) ..).answerOpt ..

theorem Queued.execPairFormTimeout (hs : Queued q p s) : QueuedOut q p (execPairFormTimeout s) := by
  unfold Machine.execPairFormTimeout
  exact (hs.when (hs.formFails ..) ..).next

theorem Queued.takeMap (hs : Queued q p s) : Queued q p (takeMap s) := by
  unfold Machine.takeMap
  exact hs.setF ..

theorem Queued.resyncOver (hs : Queued q p s) : Queued q p (resyncOver s) := by
  unfold Machine.resyncOver
  exact (((hs.update ..).pairEvt ..).answerOpt ..).ite hs

theorem Queued.enterResync (hs : Queued q p s) (source : Bool) (l : List Nat) :
    Queued q p (enterResync s source l) := by
  unfold Machine.enterResync
  exact (hs.update ..).resyncOver ..

theorem Queued.formed (hs : Queued q p s) : Queued q p (formed s) := by
  unfold Machine.formed
  exact (((hs.update ..).takeMap ..).enterResync ..).answerOpt ..

theorem Queued.leavePair (hs : Queued q p s) (c : Cmd) : Queued q p (leavePair s c) := by
  unfold Machine.leavePair
  exact ((((((hs.wr ..).wr ..).foldl (fun _ _ hu => hu.setF ..) ..).mramPut ..).update ..).foldl (fun _ _ hu =>
    (hu.portToHost ..).ite hu) ..).answer ..

theorem Queued.tryLeave (hs : Queued q p s) : Queued q p (tryLeave s) := by
  unfold Machine.tryLeave
  split
  · exact hs
  · exact (hs.leavePair ..).ite hs

theorem Queued.execPairLeave (hs : Queued q p s) (c : Cmd) : QueuedOut q p (execPairLeave c s) := by
  unfold Machine.execPairLeave
  exact hs.runCmd (fun _ hu => hu.orFail (((hu.begin ..).update ..).tryLeave ..) ..) ..

theorem Queued.sendMap (hs : Queued q p s) (b : Nat) (l : List Nat) : Queued q p (sendMap s b l) := by
  unfold Machine.sendMap
  exact hs.sendSeq ..

theorem Queued.tryRejoin (hs : Queued q p s) : Queued q p (tryRejoin s) := by
  unfold Machine.tryRejoin
  split
  · exact hs
  · exact (hs.enterResync ..).ite hs

theorem Queued.startRejoin (hs : Queued q p s) (c : Cmd) : Queued q p (startRejoin s c) := by
  unfold Machine.startRejoin
  exact ((((hs.begin ..).update ..).takeMap ..).foldl (fun _ _ hu => hu.sendMap ..) ..).tryRejoin ..

theorem Queued.startOne (hs : Queued q p s) (c : Cmd) : Queued q p (startOne s c) := by
  unfold Machine.startOne
  exact (((hs.begin ..).update ..).ifThen (·.sendMap ..)).enterResync ..

theorem Queued.execPairResync (hs : Queued q p s) (c : Cmd) : QueuedOut q p (execPairResync c s) := by
  unfold Machine.execPairResync
  exact hs.runCmd (fun _ hu => hu.orFail ((hu.startOne ..).ite (hu.startRejoin ..)) ..) ..

theorem Queued.setHome (hs : Queued q p s) (r h : Nat) : Queued q p (setHome s r h) := by
  unfold Machine.setHome
  exact ((hs.setF ..).setF ..).storeRegion ..

theorem Queued.tryHome (hs : Queued q p s) : Queued q p (tryHome s) := by
  unfold Machine.tryHome
  exact hs.foldl (fun _ _ hu => hu.ite ((hu.update ..).sendCtrl ..)) ..

theorem Queued.homeSet (hs : Queued q p s) (c : Cmd) : Queued q p (homeSet s c) := by
  unfold Machine.homeSet
  exact hs.orFail (((hs.setHome ..).answer ..).ite (((hs.begin ..).update ..).tryHome ..)) ..

theorem Queued.execPairHomeSet (hs : Queued q p s) (c : Cmd) : QueuedOut q p (execPairHomeSet c s) := by
  unfold Machine.execPairHomeSet
  exact hs.runCmd (fun _ hu => hu.homeSet ..) ..

theorem Queued.takePair (hs : Queued q p s) (p0 ty : Nat) (k : PairPkt) : Queued q p (takePair s p0 ty k) := by
  unfold Machine.takePair
  exact (hs.dropPkt ..).modPort ..

theorem Queued.pairRow {f : State → State} (hs : Queued q p s) (hf : ∀ u, Queued q p u → Queued q p (f u))
    (n : PortN) (ty sub : Nat) (k : PairPkt) (may : State → Bool) :
    QueuedOut q p (pairRow s n ty sub k may f) := by
  unfold Machine.pairRow
  have ht := hs.takePair n ty k
  refine (hs.when ?_ ..).next
  exact (ht.badPair ..).ite (ht.ite (hs.when (hf _ ht) ..))

theorem Queued.seqDone (hs : Queued q p s) (p0 ty : Nat) (k : PairPkt) : Queued q p (seqDone s p0 ty k) := by
  unfold Machine.seqDone
  exact (hs.takeHand ..).ackHands ..

theorem Queued.ctrlRow {f : State → State} (hs : Queued q p s) (hf : ∀ u, Queued q p u → Queued q p (f u))
    (n : PortN) (sub : Nat) (k : PairPkt) :
    QueuedOut q p (ctrlRow s n sub k f) := by
  unfold Machine.ctrlRow
  exact hs.pairRow (fun _ hu => (hf _ hu).seqDone ..) ..

theorem Queued.answerRow {f : State → State} (hs : Queued q p s) (hf : ∀ u, Queued q p u → Queued q p (f u))
    (n : PortN) (sub : Nat) (k : PairPkt) :
    QueuedOut q p (answerRow s n sub k f) := by
  unfold Machine.answerRow
  exact hs.pairRow (fun _ hu => ((hf _ hu).seqDone ..).tryLeave ..) ..

theorem Queued.execFwd (hs : Queued q p s) (p0 : PortN) (k : PairPkt) : QueuedOut q p (execFwd p0 k s) := by
  unfold Machine.execFwd
  exact hs.pairRow (fun _ hu => ((hu.count ..).takeHand ..).arrive ..) ..

theorem Queued.execReplica (hs : Queued q p s) (p0 : PortN) (k : PairPkt) :
    QueuedOut q p (execReplica p0 k s) := by
  unfold Machine.execReplica
  exact hs.pairRow (fun _ hu => ((hu.count ..).takeHand ..).branch (·.replicaDone ..) (·.arrive ..)) ..

theorem Queued.heldDone (hs : Queued q p s) (h : HeldPkt) : Queued q p (heldDone s h) := by
  unfold Machine.heldDone
  split
  · exact hs.complete ..
  · exact hs

theorem Queued.ackEffects (hs : Queued q p s) : Queued q p (ackEffects s) := by
  unfold Machine.ackEffects
  exact ((hs.pump ..).tryHome ..).tryLeave ..

theorem Queued.freeHeld (hs : Queued q p s) (f : HeldPkt → Bool) : Queued q p (freeHeld s f) := by
  unfold Machine.freeHeld
  exact (hs.update ..).foldl (fun _ _ hu => hu.heldDone ..) ..

theorem Queued.execPairAck (hs : Queued q p s) (p0 : PortN) (k : PairPkt) :
    QueuedOut q p (execPairAck p0 k s) := by
  unfold Machine.execPairAck
  exact hs.pairRow (fun _ hu => (hu.freeHeld ..).ackEffects ..) ..

theorem Queued.redoForwards (hs : Queued q p s) : Queued q p (redoForwards s) := by
  unfold Machine.redoForwards
  exact hs.update ..

theorem Queued.freeUnacked (hs : Queued q p s) : Queued q p (freeUnacked s) := by
  unfold Machine.freeUnacked
  exact (hs.update ..).foldl (fun _ _ hu => ((hu.setDiverged ..).ite hu).heldDone ..) ..

theorem Queued.clearsAlone (hs : Queued q p s) : Queued q p (clearsAlone s) := by
  unfold Machine.clearsAlone
  exact ((hs.update ..).foldl (fun _ _ hu => hu.clearEffect ..) ..).foldl (fun _ _ hu => hu.advanceClear ..) ..

theorem Queued.pairCmdsEnd (hs : Queued q p s) : Queued q p (pairCmdsEnd s) := by
  unfold Machine.pairCmdsEnd
  exact (hs.update ..).foldl (fun _ _ hu => hu.answerFree ..) ..

theorem Queued.partnerLost (hs : Queued q p s) : Queued q p (partnerLost s) := by
  unfold Machine.partnerLost
  exact (((((((((hs.update ..).pairEvt ..).count ..).foldl (fun _ _ hu => hu.setDiverged ..) ..).ite
    (((hs.update ..).pairEvt ..).count ..)).freeUnacked ..).redoForwards ..).clearsAlone ..).pairCmdsEnd ..).tryLeave ..

theorem Queued.helloIn (hs : Queued q p s) (k : PairPkt) : Queued q p (helloIn s k) := by
  unfold Machine.helloIn
  exact (((hs.formed ..).ite (hs.formFails ..)).ite hs).ite (((hs.partnerLost ..).ite hs).ite
    ((hs.pairEvt ..).ite hs))

theorem Queued.execHello (hs : Queued q p s) (p0 : PortN) (k : PairPkt) : QueuedOut q p (execHello p0 k s) := by
  unfold Machine.execHello
  exact hs.pairRow (fun _ hu => hu.helloIn ..) ..

theorem Queued.heartbeat (hs : Queued q p s) : Queued q p (heartbeat s) := by
  unfold Machine.heartbeat
  exact (hs.foldl (fun _ _ hu => hu.ite (hu.sendPair ..)) ..).update ..

theorem Queued.execHelloHeartbeat (hs : Queued q p s) : QueuedOut q p (execHelloHeartbeat s) := by
  unfold Machine.execHelloHeartbeat
  exact (hs.when (hs.heartbeat ..) ..).next

theorem Queued.execPartnerLossTimeout (hs : Queued q p s) : QueuedOut q p (execPartnerLossTimeout s) := by
  unfold Machine.execPartnerLossTimeout
  exact (hs.when (hs.partnerLost ..) ..).next

theorem Queued.sendOn (hs : Queued q p s) (p0 ty : Nat) (k : PairPkt) : Queued q p (sendOn s p0 ty k) := by
  unfold Machine.sendOn
  exact (hs.update ..).sendPair ..

theorem Queued.mapChanged (hs : Queued q p s) : Queued q p (mapChanged s) := by
  unfold Machine.mapChanged
  exact (hs.pairEvt ..).count ..

theorem Queued.portLost (hs : Queued q p s) (p0 : Nat) : Queued q p (portLost s p0) := by
  unfold Machine.portLost
  exact ((((hs.takeMap ..).mapChanged ..).update ..).partnerLost ..).ite
    ((((hs.takeMap ..).mapChanged ..).update ..).foldl (fun _ _ hu => hu.sendOn ..) ..)

theorem Queued.execMirrorPortLoss (hs : Queued q p s) (p0 : PortN) : QueuedOut q p (execMirrorPortLoss p0 s) := by
  unfold Machine.execMirrorPortLoss
  exact (hs.when (hs.portLost ..) ..).next

theorem Queued.portmapIn (hs : Queued q p s) (k : PairPkt) : Queued q p (portmapIn s k) := by
  unfold Machine.portmapIn
  exact (((hs.takeMap ..).mapChanged ..).update ..).foldl (fun _ _ hu => hu.sendOn ..) ..

theorem Queued.execPortmap (hs : Queued q p s) (p0 : PortN) (k : PairPkt) :
    QueuedOut q p (execPortmap p0 k s) := by
  unfold Machine.execPortmap
  exact hs.pairRow (fun _ hu => (hu.portmapIn ..).seqDone ..) ..

theorem Queued.portmapAckIn (hs : Queued q p s) (k : PairPkt) : Queued q p (portmapAckIn s k) := by
  unfold Machine.portmapAckIn
  exact hs.ite (((hs.freeHeld ..).update ..).ackEffects ..)

theorem Queued.execPortmapAck (hs : Queued q p s) (p0 : PortN) (k : PairPkt) :
    QueuedOut q p (execPortmapAck p0 k s) := by
  unfold Machine.execPortmapAck
  exact hs.ctrlRow (fun _ hu => hu.portmapAckIn ..) ..

theorem Queued.sendReject (hs : Queued q p s) (p0 r : Nat) : Queued q p (sendReject s p0 r) := by
  unfold Machine.sendReject
  exact hs.sendPair ..

theorem Queued.clearAsked (hs : Queued q p s) (p0 r : Nat) (m : BitVec 2) : Queued q p (clearAsked s p0 r m) := by
  unfold Machine.clearAsked
  exact (hs.sendReject ..).ite (((hs.update ..).advanceClear ..).startReinit ..)

theorem Queued.clearOrdered (hs : Queued q p s) (p0 r : Nat) (m : BitVec 2) :
    Queued q p (clearOrdered s p0 r m) := by
  unfold Machine.clearOrdered
  exact (hs.sendReject ..).ite ((hs.update ..).ite ((hs.peerEffect ..).ifThen (·.startReinit ..)))

theorem Queued.execClear (hs : Queued q p s) (p0 : PortN) (k : PairPkt) : QueuedOut q p (execClear p0 k s) := by
  unfold Machine.execClear
  exact hs.pairRow (fun _ hu => (hu.ite ((hu.clearAsked ..).ite (hu.clearOrdered ..))).seqDone ..) ..

theorem Queued.clearAckIn (hs : Queued q p s) (r : Nat) : Queued q p (clearAckIn s r) := by
  unfold Machine.clearAckIn
  exact ((hs.update ..).clearEffect ..).ite (hs.modClear ..)

theorem Queued.execClearAck (hs : Queued q p s) (p0 : PortN) (k : PairPkt) :
    QueuedOut q p (execClearAck p0 k s) := by
  unfold Machine.execClearAck
  exact hs.answerRow (fun _ hu => hu.clearAckIn ..) ..

theorem Queued.clearRejected (hs : Queued q p s) (r : Nat) : Queued q p (clearRejected s r) := by
  unfold Machine.clearRejected
  exact (((hs.update ..).modClear ..).ifThen (·.sendReject ..)).settleClears ..

theorem Queued.rejectIn (hs : Queued q p s) (k : PairPkt) : Queued q p (rejectIn s k) := by
  unfold Machine.rejectIn
  dsimp only
  split
  · exact ((hs.count ..).setDiverged ..).ite ((hs.count ..).clearRejected ..)
  · exact ((hs.count ..).clearRejected ..).ite ((hs.count ..).setDiverged ..)

theorem Queued.execResultReject (hs : Queued q p s) (p0 : PortN) (k : PairPkt) :
    QueuedOut q p (execResultReject p0 k s) := by
  unfold Machine.execResultReject
  exact hs.pairRow (fun _ hu => (hu.rejectIn ..).tryLeave ..) ..

theorem Queued.execResultReadData (hs : Queued q p s) (p0 : PortN) (k : PairPkt) :
    QueuedOut q p (execResultReadData p0 k s) := by
  unfold Machine.execResultReadData
  exact hs.pairRow (fun _ hu => hu.fwdDone ..) ..

theorem Queued.execHome (hs : Queued q p s) (p0 : PortN) (k : PairPkt) : QueuedOut q p (execHome p0 k s) := by
  unfold Machine.execHome
  exact hs.pairRow (fun _ hu => ((hu.ite (hu.setHome ..)).sendCtrl ..).seqDone ..) ..

theorem Queued.homeAcked (hs : Queued q p s) (r : Nat) : Queued q p (homeAcked s r) := by
  unfold Machine.homeAcked
  split
  · exact hs
  · exact ((hs.update ..).setHome ..).answer ..

theorem Queued.execHomeAck (hs : Queued q p s) (p0 : PortN) (k : PairPkt) :
    QueuedOut q p (execHomeAck p0 k s) := by
  unfold Machine.execHomeAck
  exact hs.answerRow (fun _ hu => hu.homeAcked ..) ..

theorem Queued.execFence (hs : Queued q p s) (p0 : PortN) (k : PairPkt) : QueuedOut q p (execFence p0 k s) := by
  unfold Machine.execFence
  exact hs.ctrlRow (fun _ hu => hu.update ..) ..

theorem Queued.divergeTums (hs : Queued q p s) (m : Nat) : Queued q p (divergeTums s m) := by
  unfold Machine.divergeTums
  exact hs.foldUpTo (fun _ _ hu => (hu.setDiverged ..).ite hu) ..

theorem Queued.unfenceIn (hs : Queued q p s) (m : Nat) (again : Bool) : Queued q p (unfenceIn s m again) := by
  unfold Machine.unfenceIn
  exact ((((hs.update ..).ifThen (·.divergeTums ..)).foldl (fun _ _ hu => hu.sendMap ..) ..).ifElse
    (·.enterResync ..)).ite ((hs.update ..).ifThen (·.divergeTums ..))

theorem Queued.execUnfence (hs : Queued q p s) (p0 : PortN) (k : PairPkt) :
    QueuedOut q p (execUnfence p0 k s) := by
  unfold Machine.execUnfence
  exact hs.ctrlRow (fun _ hu => hu.unfenceIn ..) ..

theorem Queued.mapIn (hs : Queued q p s) (k : PairPkt) : Queued q p (mapIn s k) := by
  unfold Machine.mapIn
  exact (hs.ite (hs.enterResync ..)).ite ((hs.update ..).ifThen (fun h => (h.update ..).tryRejoin ..))

theorem Queued.execMap (hs : Queued q p s) (p0 : PortN) (k : PairPkt) : QueuedOut q p (execMap p0 k s) := by
  unfold Machine.execMap
  exact hs.ctrlRow (fun _ hu => hu.mapIn ..) ..

theorem Queued.regionCopied (hs : Queued q p s) (r : Nat) : Queued q p (regionCopied s r) := by
  unfold Machine.regionCopied
  exact ((hs.ite (hs.clearDiverged ..)).update ..).resyncOver ..

theorem Queued.execResyncDone (hs : Queued q p s) (p0 : PortN) (k : PairPkt) :
    QueuedOut q p (execResyncDone p0 k s) := by
  unfold Machine.execResyncDone
  exact hs.pairRow (fun _ hu => (hu.regionCopied ..).seqDone ..) ..

theorem Queued.copyLine (hs : Queued q p s) (r t x : Nat) (flips : List CodeWord) :
    Queued q p (copyLine s r t x flips) := by
  unfold Machine.copyLine
  exact ((((((hs.lineEnter ..).lineRead ..).writeBacks ..).lineEnd ..).update ..).count ..).sendSeq ..

theorem Queued.copyEnd (hs : Queued q p s) (r : Nat) : Queued q p (copyEnd s r) := by
  unfold Machine.copyEnd
  exact ((((hs.update ..).sendCtrl ..).count ..).regionCopied ..).ite hs

theorem Queued.copyStep (hs : Queued q p s) (t : Nat) (flips : List CodeWord) :
    Queued q p (copyStep s t flips) := by
  unfold Machine.copyStep
  split
  · exact hs
  · split
    · exact hs.copyEnd ..
    · exact hs.ite ((hs.wakeTum ..).ite ((((hs.update ..).copyLine ..).copyEnd ..).ite hs))

theorem Queued.execResyncCopyLine (hs : Queued q p s) (t : Tum) (flips : List CodeWord) :
    QueuedOut q p (execResyncCopyLine t flips s) := by
  unfold Machine.execResyncCopyLine
  exact (hs.when (hs.copyStep ..) ..).next

theorem Queued.storeCopy (hs : Queued q p s) (t x r : Nat) (k : PairPkt) : Queued q p (storeCopy s t x r k) := by
  unfold Machine.storeCopy
  exact ((hs.lineEnter ..).lineStore ..).lineEnd ..

theorem Queued.resyncLineIn (hs : Queued q p s) (p0 : Nat) (k : PairPkt) : Queued q p (resyncLineIn s p0 k) := by
  unfold Machine.resyncLineIn
  exact (hs.count ..).ite (((hs.count ..).sendPair ..).ite ((hs.count ..).storeCopy ..))

theorem Queued.execResyncLine (hs : Queued q p s) (p0 : PortN) (k : PairPkt) :
    QueuedOut q p (execResyncLine p0 k s) := by
  unfold Machine.execResyncLine
  exact ((hs.wakeTum ..).next).ite (hs.pairRow (fun _ hu => (hu.resyncLineIn ..).seqDone ..) ..)

theorem Queued.commitDiverged (hs : Queued q p s) (ok : Bool) : Queued q p (commitDiverged s ok) := by
  unfold Machine.commitDiverged
  split
  · exact hs
  · exact (((hs.foldl (fun _ _ hu => hu.mramPut ..) ..).mramStore ..).update ..).ite ((((hs.foldl (fun _ _ hu =>
      hu.mramPut ..) ..).mramStore ..).update ..).fault ..)

theorem Queued.execDivergedCommit (hs : Queued q p s) (ok : Bool) : QueuedOut q p (execDivergedCommit ok s) := by
  unfold Machine.execDivergedCommit
  exact (hs.when (hs.commitDiverged ..) ..).next

/-! ## Repair and swaps -/

theorem Queued.scrubLine (hs : Queued q p s) (t x : Nat) (l : Loc) (flips : List CodeWord) :
    Queued q p (scrubLine s t x l flips) := by
  unfold Machine.scrubLine
  exact (((hs.lineEnter ..).lineRead ..).writeBacks ..).count ..

theorem Queued.scrubLines16 (hs : Queued q p s) (t n k : Nat) (f : Nat → Loc) (flips : List CodeWord) :
    Queued q p (scrubLines16 s t n k f flips) := by
  unfold Machine.scrubLines16
  exact (hs.foldUpTo (fun _ _ hu => hu.scrubLine ..) ..).lineEnd ..

theorem Queued.scrubTarget (hs : Queued q p s) (t l k : Nat) (flips : List CodeWord) :
    Queued q p (scrubTarget s t l k flips) := by
  unfold Machine.scrubTarget
  split
  · exact (hs.scrubLines16 ..).ite hs
  · exact hs

theorem Queued.scrubRow (hs : Queued q p s) (t l k : Nat) (flips : List CodeWord) :
    Queued q p (scrubRow s t l k flips) := by
  unfold Machine.scrubRow
  exact ((((hs.scrubLines16 ..).scrubTarget ..).setF ..).setF ..).ite
    (((hs.scrubLines16 ..).scrubTarget ..).setF ..)

theorem Queued.execPatrolScrubRow (hs : Queued q p s) (t : Tum) (flips : List CodeWord) :
    QueuedOut q p (execPatrolScrubRow t flips s) := by
  unfold Machine.execPatrolScrubRow
  refine Queued.next ?_
  split
  · exact hs.when ((hs.when (hs.scrubRow ..) ..).ite (hs.wakeTum ..)) ..
  · exact hs

theorem Queued.putEntry (hs : Queued q p s) (i t l g b row spare st : Nat) :
    Queued q p (putEntry s i t l g b row spare st) := by
  unfold Machine.putEntry
  exact (hs.wr ..).wr ..

theorem Queued.execRemapRow (hs : Queued q p s) (c : Cmd) : QueuedOut q p (execRemapRow c s) := by
  unfold Machine.execRemapRow
  exact hs.runCmd (fun _ hu => hu.orFail (((hu.begin ..).putEntry ..).wakeTum ..) ..) ..

theorem Queued.readRow (hs : Queued q p s) (t x0 : Nat) (a : Loc) (flips : List CodeWord) :
    Queued q p (readRow s t x0 a flips).1 := by
  unfold Machine.readRow
  refine Queued.foldUpTo_fst (u := (s, [])) hs (fun _ _ hu => ?_) ..
  exact ((hu.openLine ..).colNext ..).decodeLine ..

theorem Queued.copyRow (hs : Queued q p s) (t x0 : Nat) (a b : Loc) (flips : List CodeWord) :
    Queued q p (copyRow s t x0 a b flips) := by
  unfold Machine.copyRow
  exact (((((hs.readRow ..).goTo ..).afterCol ..).foldl (fun _ _ hu => ((hu.openLine ..).colNext ..).foldl
    (fun _ _ hv => hv.putWord ..) ..) ..).afterCol ..).update ..

theorem Queued.dropRowCwc (hs : Queued q p s) (t : Nat) (l : Loc) : Queued q p (dropRowCwc s t l) := by
  unfold Machine.dropRowCwc
  exact hs.modTum ..

theorem Queued.remapEnd (hs : Queued q p s) (i t : Nat) (src : Loc) (old : Option Nat) (c : Option Cmd)
    (stored : Bool) :
    Queued q p (remapEnd s i t src old c stored) := by
  unfold Machine.remapEnd
  dsimp only
  refine Queued.ite ?_ (((hs.wr ..).wr ..).answerOpt ..)
  refine Queued.answerOpt ?_ ..
  refine Queued.count ?_ ..
  refine Queued.dropRowCwc ?_ ..
  refine Queued.setF ?_ ..
  split
  · exact (hs.setF ..).storeRemap ..
  · exact hs

theorem Queued.remapDone (hs : Queued q p s) (i : Nat) (flips : List CodeWord) (ok : Bool) :
    Queued q p (remapDone s i flips ok) := by
  unfold Machine.remapDone
  exact ((hs.copyRow ..).mramStore ..).remapEnd ..

theorem Queued.execRemapCopyDone (hs : Queued q p s) (i : BitVec 15) (flips : List CodeWord) (mramOk : Bool) :
    QueuedOut q p (execRemapCopyDone i flips mramOk s) := by
  unfold Machine.execRemapCopyDone
  exact (hs.when ((hs.when (hs.remapDone ..) ..).ite (hs.wakeTum ..)) ..).next

theorem Queued.setSwapState (hs : Queued q p s) (t v : Nat) : Queued q p (setSwapState s t v) := by
  unfold Machine.setSwapState
  exact hs.setF ..

theorem Queued.startSwap (hs : Queued q p s) (c : Cmd) (t : Nat) : Queued q p (startSwap s c t) := by
  unfold Machine.startSwap
  exact ((((hs.setRole ..).startSlice ..).wr ..).setF ..).modTum ..

theorem Queued.execLeafSwap (hs : Queued q p s) (c : Cmd) : QueuedOut q p (execLeafSwap c s) := by
  unfold Machine.execLeafSwap
  exact hs.runCmd (fun _ hu => hu.orFail ((hu.answer ..).ite ((hu.begin ..).foldl (fun _ _ hv =>
    hv.startSwap ..) ..)) ..) ..

theorem Queued.swapLine (hs : Queued q p s) (t : Nat) (w : Swap) (flips : List CodeWord) :
    Queued q p (swapLine s t w flips) := by
  unfold Machine.swapLine
  exact
    (((((((((((hs.lineEnter ..).lineRead ..).writeBacks ..).lineEnd ..).afterRead ..).lineWr ..).afterCol ..).foldl
    (fun _ _ hu => hu.putWord ..) ..).setF ..).modTum ..).chargeMaster ..).count ..

theorem Queued.swapGo (hs : Queued q p s) (t : Nat) (cap : Bool) (flips : List CodeWord) :
    Queued q p (swapGo s t cap flips) := by
  unfold Machine.swapGo
  split
  · exact hs.when ((hs.when (hs.swapLine ..) ..).ite (hs.wakeTum ..)) ..
  · exact hs

theorem Queued.execSwapCopyLine (hs : Queued q p s) (t : Tum) (flips : List CodeWord) :
    QueuedOut q p (execSwapCopyLine t flips s) := by
  unfold Machine.execSwapCopyLine
  exact (hs.swapGo ..).next

theorem Queued.swapRest (hs : Queued q p s) (t : Nat) : Queued q p (swapRest s t) := by
  unfold Machine.swapRest
  exact hs.ite (hs.foldUpTo (fun _ _ hu => hu.swapGo ..) ..)

theorem Queued.switchPoint (hs : Queued q p s) (t : Nat) (w : Swap) : Queued q p (switchPoint s t w) := by
  unfold Machine.switchPoint
  exact ((((((hs.setF ..).setRole ..).setRole ..).storeLeaf ..).setRole ..).setSwapState ..).modTum ..

theorem Queued.execSwapSwitchPoint (hs : Queued q p s) (t : Tum) : QueuedOut q p (execSwapSwitchPoint t s) := by
  unfold Machine.execSwapSwitchPoint
  dsimp only
  refine Queued.next ?_
  split
  · exact hs.when ((hs.swapRest ..).switchPoint ..) ..
  · exact hs

theorem Queued.swapEnd (hs : Queued q p s) (t : Nat) (w : Swap) (fail : Option (BitVec 16)) :
    Queued q p (swapEnd s t w fail) := by
  unfold Machine.swapEnd
  exact (((hs.setSwapState ..).modTum ..).answerOpt ..).ite (((hs.setSwapState ..).modTum ..).foldl
    (fun _ _ hu => hu.modTum ..) ..)

theorem Queued.swapRetire (hs : Queued q p s) (t : Nat) (w : Swap) : Queued q p (swapRetire s t w) := by
  unfold Machine.swapRetire
  exact ((((((hs.setRole ..).stopSlice ..).foldl (fun _ _ hu =>
    ((hu.wr ..).wr ..).storeRemap ..) ..).modTum ..).count ..).swapEnd ..).raise ..

theorem Queued.execSwapRetire (hs : Queued q p s) (t : Tum) : QueuedOut q p (execSwapRetire t s) := by
  unfold Machine.execSwapRetire
  refine Queued.next ?_
  split
  · exact hs.when (hs.swapRetire ..) ..
  · exact hs

theorem Queued.swapAbandon (hs : Queued q p s) (t : Nat) : Queued q p (swapAbandon s t) := by
  unfold Machine.swapAbandon
  exact (hs.setSwapState ..).modTum ..

theorem Queued.execLeafSwapAbort (hs : Queued q p s) (c : Cmd) : QueuedOut q p (execLeafSwapAbort c s) := by
  unfold Machine.execLeafSwapAbort
  exact hs.runCmd (fun _ hu => hu.orFail ((((hu.swapAbandon ..).ite hu).begin ..).modTum ..) ..) ..

theorem Queued.abandonDone (hs : Queued q p s) (t : Nat) (w : Swap) : Queued q p (abandonDone s t w) := by
  unfold Machine.abandonDone
  exact ((((hs.setRole ..).stopSlice ..).fresh ..).swapEnd ..).foldl (fun _ _ hu => hu.answer ..) ..

theorem Queued.execSwapAbandonDone (hs : Queued q p s) (t : Tum) : QueuedOut q p (execSwapAbandonDone t s) := by
  unfold Machine.execSwapAbandonDone
  refine Queued.next ?_
  split
  · exact hs.when (hs.abandonDone ..) ..
  · exact hs

/-! ## Scans -/

theorem Queued.startScan (hs : Queued q p s) (x : Scan) (k : Nat) : Queued q p (startScan s x k) := by
  unfold Machine.startScan
  exact (hs.setScan ..).update ..

theorem Queued.execScanStart (hs : Queued q p s) (c : Cmd) : QueuedOut q p (execScanStart c s) := by
  unfold Machine.execScanStart
  exact hs.runCmd (fun _ hu => hu.orFail ((hu.startScan ..).reply ..) ..) ..

theorem Queued.endScan (hs : Queued q p s) (k : Nat) (x : Scan) (st : BitVec 8) :
    Queued q p (endScan s k x st) := by
  unfold Machine.endScan
  exact hs.setScan ..

theorem Queued.scanTook (hs : Queued q p s) (k : Nat) (x : Scan) (e n : Nat) (g : List Got) :
    Queued q p (scanTook s k x e n g) := by
  unfold Machine.scanTook
  dsimp only
  refine Queued.setScan ?_ ..
  split
  · exact ((((((hs.ite (hs.count ..)).count ..).count ..).count ..).count ..).wr ..).wr ..
  · exact (((((((hs.ite (hs.count ..)).count ..).count ..).count ..).count ..).wr ..).fresh ..).wr ..

theorem Queued.scanMeasured (hs : Queued q p s) (a : Access) (whole : Bool) :
    Queued q p (scanMeasured s a whole) := by
  unfold Machine.scanMeasured
  exact (hs.histogram ..).wardDone ..

theorem Queued.scanRead (hs : Queued q p s) (k : Nat) (x : Scan) (e n : Nat) (flips : List CodeWord) :
    Queued q p (scanRead s k x e n flips) := by
  unfold Machine.scanRead
  exact (((((hs.lineEnter ..).lineRead ..).writeBacks ..).lineEnd ..).scanMeasured ..).scanTook ..

theorem Queued.scanStep (hs : Queued q p s) (k : Nat) (x : Scan) (e n : Nat) (flips : List CodeWord) :
    Queued q p (scanStep s k x e n flips) := by
  unfold Machine.scanStep
  dsimp only
  refine Queued.ite (hs.endScan ..) ?_
  split
  · exact hs.endScan ..
  · exact (hs.when (hs.scanRead ..) ..).ite (hs.wakeTum ..)

theorem Queued.execScanLineRead (hs : Queued q p s) (k : BitVec 8) (e : Tum) (flips : List CodeWord) :
    QueuedOut q p (execScanLineRead k e flips s) := by
  unfold Machine.execScanLineRead
  refine Queued.next ?_
  split
  · exact hs
  · split
    · exact hs
    · exact hs.when (hs.scanStep ..) ..

theorem Queued.fenceScans (hs : Queued q p s) (t : Nat) : Queued q p (fenceScans s t) := by
  unfold Machine.fenceScans
  refine Queued.foldUpTo hs (fun _ _ hu => ?_) ..
  split
  · exact hu.when (hu.endScan ..) ..
  · exact hu

theorem Queued.scanWrite (hs : Queued q p s) (k : Nat) (x : Scan) (addr : Nat) (be : BitVec 64) (data : Line) :
    Queued q p (scanWrite s k x addr be data) := by
  unfold Machine.scanWrite
  exact (((hs.setScan ..).count ..).flowStart ..).arrive ..

theorem Queued.writeBitmap (hs : Queued q p s) (k : Nat) (x : Scan) (n : Nat) :
    Queued q p (writeBitmap s k x n) := by
  unfold Machine.writeBitmap
  exact hs.scanWrite ..

theorem Queued.writeIndex (hs : Queued q p s) (k : Nat) (x : Scan) (l : List Nat) :
    Queued q p (writeIndex s k x l) := by
  unfold Machine.writeIndex
  exact hs.scanWrite ..

theorem Queued.outputStep (hs : Queued q p s) (k : Nat) (x : Scan) (bitmap : Bool) :
    Queued q p (outputStep s k x bitmap) := by
  unfold Machine.outputStep
  refine Queued.ite ?_ ?_
  · split
    · split
      · exact hs.endScan ..
      · exact hs.writeBitmap ..
    · exact hs
  · split
    · exact hs
    · split
      · exact hs.endScan ..
      · exact hs.writeIndex ..

theorem Queued.execScanOutputWrite (hs : Queued q p s) (k : BitVec 8) (bitmap : Bool) :
    QueuedOut q p (execScanOutputWrite k bitmap s) := by
  unfold Machine.execScanOutputWrite
  refine Queued.next ?_
  split
  · exact hs.when (hs.outputStep ..) ..
  · exact hs

theorem Queued.scanFinish (hs : Queued q p s) (k : Nat) (x : Scan) : Queued q p (scanFinish s k x) := by
  unfold Machine.scanFinish
  dsimp only
  split
  · exact ((hs.foldl (fun _ _ hu => hu.count ..) ..).ite hs).setScan ..
  · exact ((hs.foldl (fun _ _ hu => hu.count ..) ..).ite hs).scanWrite ..

theorem Queued.execScanEnd (hs : Queued q p s) (k : BitVec 8) : QueuedOut q p (execScanEnd k s) := by
  unfold Machine.execScanEnd
  refine Queued.next ?_
  split
  · exact hs.when (hs.scanFinish ..) ..
  · exact hs

theorem Queued.execScanCompletionEvent (hs : Queued q p s) (k : BitVec 8) :
    QueuedOut q p (execScanCompletionEvent k s) := by
  unfold Machine.execScanCompletionEvent
  refine Queued.next ?_
  split
  · exact hs.when (((hs.setScan ..).raise ..).foldl (fun _ _ hu => hu.answer ..) ..) ..
  · exact hs

theorem Queued.execScanAbort (hs : Queued q p s) (c : Cmd) : QueuedOut q p (execScanAbort c s) := by
  unfold Machine.execScanAbort
  dsimp only
  refine Queued.runCmd hs (fun _ hu => ?_) ..
  split
  · exact hu.answer ..
  · exact hu.orFail ((hu.begin ..).setScan ..) ..

end Sys2Proof.Machine
end

section
/-! PROOF. No command changes the queue behind it or the part fitted (O5): the rules.
Units, events, faults, rings, firmware, resets, power and bring-up. -/

namespace Sys2Proof.Machine

open Sys2Proof

variable {q : List Instr} {p : Part} {s : State}

/-! ## Units -/

theorem Queued.setReen (hs : Queued q p s) (u : UnitId) (b : Bool) : Queued q p (setReen s u b) := by
  unfold Machine.setReen
  split
  · exact hs.setMode ..
  · exact hs.modPort ..
  · exact hs.setEng ..
  · exact hs.setCore ..

theorem Queued.unitShutdown (hs : Queued q p s) (u : UnitId) : Queued q p (unitShutdown s u) := by
  unfold Machine.unitShutdown
  dsimp only
  split
  · exact (hs.recordQuiet ..).tumShutdown ..
  · exact (hs.recordQuiet ..).portLatch ..
  · exact (hs.recordQuiet ..).engShutdown ..
  · exact (hs.recordQuiet ..).coreShutdown ..

theorem Queued.coreStart (hs : Queued q p s) (c : Nat) : Queued q p (coreStart s c) := by
  unfold Machine.coreStart
  exact hs.setCore ..

theorem Queued.engStart (hs : Queued q p s) (n : Nat) : Queued q p (engStart s n) := by
  unfold Machine.engStart
  exact hs.setEng ..

theorem Queued.tumStart (hs : Queued q p s) (t : Tum) (preserve : Bool) : Queued q p (tumStart s t preserve) := by
  unfold Machine.tumStart
  exact (hs.setMode ..).ite ((hs.leaveSelf ..).setMode ..)

theorem Queued.startUnit (hs : Queued q p s) (u : UnitId) (preserve : Bool) :
    Queued q p (startUnit s u preserve) := by
  unfold Machine.startUnit
  dsimp only
  split
  · exact ((hs.setReen ..).update ..).tumStart ..
  · exact (((hs.setReen ..).update ..).clearExclusions ..).toDetect ..
  · exact ((hs.setReen ..).update ..).engStart ..
  · exact ((hs.setReen ..).update ..).coreStart ..

theorem Queued.supersede (hs : Queued q p s) (u : UnitId) : Queued q p (supersede s u) := by
  unfold Machine.supersede
  exact ((hs.setReen ..).update ..).foldl (fun _ _ hu => hu.answer ..) ..

theorem Queued.disableUnit (hs : Queued q p s) (c : Cmd) (u : UnitId) : Queued q p (disableUnit s c u) := by
  unfold Machine.disableUnit
  exact (hs.answer ..).ite (((((hs.supersede ..).ite hs).update ..).begin ..).ifElse (·.unitShutdown ..))

theorem Queued.execUnitDisable (hs : Queued q p s) (c : Cmd) : QueuedOut q p (execUnitDisable c s) := by
  unfold Machine.execUnitDisable
  refine Queued.runCmd hs (fun _ hu => ?_) ..
  split
  · exact hu.answer ..
  · exact hu.orFail (hu.disableUnit ..) ..

theorem Queued.awaitStart (hs : Queued q p s) (c : Cmd) (u : UnitId) (preserve : Bool) :
    Queued q p (awaitStart s c u preserve) := by
  unfold Machine.awaitStart
  exact (hs.update ..).begin ..

theorem Queued.enableUnit (hs : Queued q p s) (c : Cmd) (u : UnitId) (preserve : Bool) :
    Queued q p (enableUnit s c u preserve) := by
  unfold Machine.enableUnit
  exact (hs.answer ..).ite (((hs.awaitStart ..).setReen ..).ite ((hs.awaitStart ..).ite ((hs.orFail
    ((hs.awaitStart ..).startUnit ..) ..).ite (hs.answer ..))))

theorem Queued.execUnitEnable (hs : Queued q p s) (c : Cmd) : QueuedOut q p (execUnitEnable c s) := by
  unfold Machine.execUnitEnable
  refine Queued.runCmd hs (fun _ hu => ?_) ..
  split
  · exact hu.answer ..
  · exact hu.enableUnit ..

theorem Queued.endSwap (hs : Queued q p s) (t : Nat) : Queued q p (endSwap s t) := by
  unfold Machine.endSwap
  split
  · exact (hs.swapRetire ..).ite (hs.abandonDone ..)
  · exact hs

theorem Queued.tumLatch (hs : Queued q p s) (t : Nat) : Queued q p (tumLatch s t) := by
  unfold Machine.tumLatch
  exact ((((((hs.endSwap ..).fenceScans ..).ifElse (·.selfEntry ..)).setMode ..).pauseOff ..).ifThen
    (·.sendCtrl ..)).releaseRegions ..

theorem Queued.fenceFirst (hs : Queued q p s) (t : Nat) : Queued q p (fenceFirst s t) := by
  unfold Machine.fenceFirst
  exact (hs.fenceUnstarted ..).ite hs

theorem Queued.latchUnit (hs : Queued q p s) (u : UnitId) : Queued q p (latchUnit s u) := by
  unfold Machine.latchUnit
  split
  · exact (hs.fenceFirst ..).tumLatch ..
  · exact hs.modPort ..
  · exact hs.setEng ..
  · exact hs.setCore ..

theorem Queued.answerDisables (hs : Queued q p s) (u : UnitId) : Queued q p (answerDisables s u) := by
  unfold Machine.answerDisables
  exact (hs.update ..).foldl (fun _ _ hu => hu.answer ..) ..

theorem Queued.answerEnables (hs : Queued q p s) (u : UnitId) (st : BitVec 16) :
    Queued q p (answerEnables s u st) := by
  unfold Machine.answerEnables
  exact (hs.update ..).foldl (fun _ _ hu => hu.answer ..) ..

theorem Queued.judgeEnable (hs : Queued q p s) (u : UnitId) : Queued q p (judgeEnable s u) := by
  unfold Machine.judgeEnable
  exact hs.ite (((hs.setReen ..).answerEnables ..).ite (hs.startUnit ..))

theorem Queued.execShutdownComplete (hs : Queued q p s) (u : UnitId) :
    QueuedOut q p (execShutdownComplete u s) := by
  unfold Machine.execShutdownComplete
  exact (hs.when (((hs.latchUnit ..).answerDisables ..).judgeEnable ..) ..).next

theorem Queued.tumStarted (hs : Queued q p s) (t : Nat) (preserve : Bool) :
    Queued q p (tumStarted s t preserve) := by
  unfold Machine.tumStarted
  exact ((((hs.leaveSelf ..).excludeQueued ..).setMode ..).ite hs).ifThen (·.sendCtrl ..)

theorem Queued.unitStarted (hs : Queued q p s) (u : UnitId) (preserve : Bool) :
    Queued q p (unitStarted s u preserve) := by
  unfold Machine.unitStarted
  split
  · exact hs.tumStarted ..
  · exact hs.setCore ..
  · exact hs

theorem Queued.lateDisable (hs : Queued q p s) (u : UnitId) : Queued q p (lateDisable s u) := by
  unfold Machine.lateDisable
  exact (hs.unitShutdown ..).ite hs

theorem Queued.startDone (hs : Queued q p s) (u : UnitId) (preserve : Bool) :
    Queued q p (startDone s u preserve) := by
  unfold Machine.startDone
  exact (((hs.update ..).unitStarted ..).answerEnables ..).lateDisable ..

theorem Queued.execUnitStartDone (hs : Queued q p s) (u : UnitId) : QueuedOut q p (execUnitStartDone u s) := by
  unfold Machine.execUnitStartDone
  refine Queued.next ?_
  split
  · exact hs.when (hs.startDone ..) ..
  · exact hs.when ((hs.answerEnables ..).lateDisable ..) ..

theorem Queued.quietWake (hs : Queued q p s) : Queued q p (quietWake s) := by
  unfold Machine.quietWake
  exact hs.foldUpTo (fun _ _ hu => (hu.setMode ..).ite hu) ..

theorem Queued.putBits (hs : Queued q p s) (off m : Nat) (b : Bool) : Queued q p (putBits s off m b) := by
  unfold Machine.putBits
  exact hs.wr ..

theorem Queued.setPower (hs : Queued q p s) (code tums ports : Nat) :
    Queued q p (setPower s code tums ports) := by
  unfold Machine.setPower
  exact ((((hs.putBits ..).putBits ..).putBits ..).ite ((((hs.putBits ..).putBits ..).putBits ..).foldUpTo
    (fun _ _ hu => ((hu.setF ..).gateOff ..).ite hu) ..)).quietWake ..

theorem Queued.powerDone (hs : Queued q p s) (code : Nat) : Queued q p (powerDone s code) := by
  unfold Machine.powerDone
  exact (hs.setF ..).count ..

theorem Queued.execPowerState (hs : Queued q p s) (c : Cmd) : QueuedOut q p (execPowerState c s) := by
  unfold Machine.execPowerState
  exact hs.runCmd (fun _ hu => hu.orFail ((((hu.powerDone ..).answer ..).update ..).ite
    (((hu.setPower ..).powerDone ..).answer ..)) ..) ..

theorem Queued.execHoldStopPoint (hs : Queued q p s) : QueuedOut q p (execHoldStopPoint s) := by
  unfold Machine.execHoldStopPoint
  exact (hs.when ((hs.update ..).beginDrain ..) ..).next

/-! ## Events -/

theorem Queued.sendEvt (hs : Queued q p s) (n data i : Nat) (x : Sub) : Queued q p (sendEvt s n data i x) := by
  unfold Machine.sendEvt
  exact ((hs.putSub ..).count ..).ite ((hs.putSub ..).ite ((hs.putSub ..).modPort ..))

theorem Queued.wakeTarget (hs : Queued q p s) (n : Nat) : Queued q p (wakeTarget s n) := by
  unfold Machine.wakeTarget
  exact (hs.setCore ..).ite hs

theorem Queued.acceptSource (hs : Queued q p s) (n data : Nat) : Queued q p (acceptSource s n data) := by
  unfold Machine.acceptSource
  dsimp only
  refine Queued.wakeTarget ?_ ..
  refine Queued.foldl ((((hs.setF ..).setF ..).wr ..).wr ..) (fun _ _ hu => ?_) ..
  split
  · exact (hu.sendEvt ..).ite hu
  · exact hu

theorem Queued.takePulse (hs : Queued q p s) (n : BitVec 12) : Queued q p (takePulse s n) := by
  unfold Machine.takePulse
  exact hs.update ..

theorem Queued.execSourceAccept (hs : Queued q p s) (src : BitVec 12) :
    QueuedOut q p (execSourceAccept src s) := by
  unfold Machine.execSourceAccept
  refine Queued.next ?_
  refine Queued.when hs ?_ ..
  split
  · exact (hs.takePulse ..).acceptSource ..
  · exact hs.when (hs.acceptSource ..) ..

theorem Queued.deliver (hs : Queued q p s) (c n : Nat) : Queued q p (deliver s c n) := by
  unfold Machine.deliver
  exact ((hs.fresh ..).setCore ..).count ..

theorem Queued.claim (hs : Queued q p s) (c n : Nat) : Queued q p (claim s c n) := by
  unfold Machine.claim
  exact ((((hs.setF ..).setF ..).setF ..).ite ((hs.setF ..).setF ..)).deliver ..

theorem Queued.execEventClaim (hs : Queued q p s) (c : CoreN) (src : BitVec 12) :
    QueuedOut q p (execEventClaim c src s) := by
  unfold Machine.execEventClaim
  exact (hs.when (hs.claim ..) ..).next

theorem Queued.execWfi (hs : Queued q p s) (c : CoreN) : QueuedOut q p (execWfi c s) := by
  unfold Machine.execWfi
  exact (hs.when (hs.setCore ..) ..).next

theorem Queued.wrSrcCfg (hs : Queued q p s) (n : Nat) (v : Reg32) : Queued q p (wrSrcCfg s n v) := by
  unfold Machine.wrSrcCfg
  exact (hs.putReg ..).wakeTarget ..

theorem Queued.execEvcSrcCfgWrite (hs : Queued q p s) (src : BitVec 12) (v : Reg32) :
    QueuedOut q p (execEvcSrcCfgWrite src v s) := by
  unfold Machine.execEvcSrcCfgWrite
  exact (hs.atReg (hs.wrSrcCfg ..) ..).next

theorem Queued.wrEoi (hs : Queued q p s) (v : Reg32) : Queued q p (wrEoi s v) := by
  unfold Machine.wrEoi
  exact (((hs.setF ..).acceptSource ..).ite (hs.setF ..)).ite hs

theorem Queued.execEvcEoi (hs : Queued q p s) (v : Reg32) : QueuedOut q p (execEvcEoi v s) := by
  unfold Machine.execEvcEoi
  exact (hs.atReg (hs.wrEoi ..) ..).next

theorem Queued.wrSwRaise (hs : Queued q p s) (v : Reg32) : Queued q p (wrSwRaise s v) := by
  unfold Machine.wrSwRaise
  exact (hs.paramFault ..).ite (hs.raise ..)

theorem Queued.execEvcSwRaise (hs : Queued q p s) (v : Reg32) : QueuedOut q p (execEvcSwRaise v s) := by
  unfold Machine.execEvcSwRaise
  exact (hs.atReg (hs.wrSwRaise ..) ..).next

theorem Queued.wrSrcStat (hs : Queued q p s) (n : Nat) (v : Reg32) : Queued q p (wrSrcStat s n v) := by
  unfold Machine.wrSrcStat
  exact (hs.setF ..).ite hs

theorem Queued.execCntClr (hs : Queued q p s) (src : BitVec 12) (v : Reg32) :
    QueuedOut q p (execCntClr src v s) := by
  unfold Machine.execCntClr
  exact (hs.atReg (hs.wrSrcStat ..) ..).next

/-! ## Fault rows -/

theorem Queued.slotLost (hs : Queued q p s) (t x m : Nat) : Queued q p (slotLost s t x m) := by
  unfold Machine.slotLost
  exact hs.setQ ..

theorem Queued.faultSide (hs : Queued q p s) (b : FltSet) (c : Nat) (d : BitVec 96) :
    Queued q p (faultSide s b c d) := by
  unfold Machine.faultSide
  split
  · exact (hs.slotLost ..).ite ((hs.setMode ..).ite hs)
  · exact (hs.count ..).ite ((hs.setF ..).ite hs)
  · exact (hs.count ..).ite hs
  · exact hs

theorem Queued.execFaultDetected (hs : Queued q p s) (b : FltSet) (cls : Fin 24) (detail : BitVec 96)
    (merged : BitVec 32) :
    QueuedOut q p (execFaultDetected b cls detail merged s) := by
  unfold Machine.execFaultDetected
  exact (hs.when ((hs.faultSide ..).fault ..) ..).next

theorem Queued.wrFltStat (hs : Queued q p s) (b : FltSet) (v : Reg32) : Queued q p (wrFltStat s b v) := by
  unfold Machine.wrFltStat
  exact (hs.foldUpTo (fun _ _ hu => ((hu.setF ..).setSev ..).ite hu) ..).setAlert ..

theorem Queued.execFltStatAck (hs : Queued q p s) (b : FltSet) (v : Reg32) :
    QueuedOut q p (execFltStatAck b v s) := by
  unfold Machine.execFltStatAck
  exact (hs.atReg (hs.wrFltStat ..) ..).next

theorem Queued.rerecord (hs : Queued q p s) (l : List (FltSet × Nat)) : Queued q p (rerecord s l) := by
  unfold Machine.rerecord
  exact hs.foldl (fun _ _ hu => (hu.fault ..).ite hu) ..

theorem Queued.endShadow (hs : Queued q p s) (b : FltSet) (x : Shadow) : Queued q p (endShadow s b x) := by
  unfold Machine.endShadow
  exact (hs.update ..).rerecord ..

theorem Queued.execShadowEnd (hs : Queued q p s) (b : FltSet) : QueuedOut q p (execShadowEnd b s) := by
  unfold Machine.execShadowEnd
  refine Queued.next ?_
  split
  · exact hs.when (hs.endShadow ..) ..
  · exact hs

/-! ## Rings -/

theorem Queued.ringError (hs : Queued q p s) (n : RingN) : Queued q p (ringError s n) := by
  unfold Machine.ringError
  exact ((((hs.stopRing ..).setF ..).setF ..).count ..).fault ..

theorem Queued.execDmaError (hs : Queued q p s) (n : RingN) : QueuedOut q p (execDmaError n s) := by
  unfold Machine.execDmaError
  exact (hs.when (hs.ringError ..) ..).next

theorem Queued.linkLost (hs : Queued q p s) : Queued q p (linkLost s) := by
  unfold Machine.linkLost
  exact (((hs.update ..).stopRings ..).count ..).fault ..

theorem Queued.execUsb4LinkLoss (hs : Queued q p s) : QueuedOut q p (execUsb4LinkLoss s) := by
  unfold Machine.execUsb4LinkLoss
  exact (hs.when (hs.linkLost ..) ..).next

theorem Queued.ringStart (hs : Queued q p s) (n : Nat) : Queued q p (ringStart s n) := by
  unfold Machine.ringStart
  exact (hs.foldl (fun _ _ hu => hu.wr ..) ..).setRing ..

theorem Queued.wrRingCtl (hs : Queued q p s) (n : RingN) (v : Reg32) : Queued q p (wrRingCtl s n v) := by
  unfold Machine.wrRingCtl
  exact (hs.putReg ..).branch (·.ringStart ..) (fun h => (h.stopRing ..).ite h)

theorem Queued.wrRingBase (hs : Queued q p s) (off : Nat) (v : Reg32) (m : Nat) :
    Queued q p (wrRingBase s off v m) := by
  unfold Machine.wrRingBase
  exact hs.putReg ..

theorem Queued.execRingEnWrite (hs : Queued q p s) (n : RingN) (v : Reg32) :
    QueuedOut q p (execRingEnWrite n v s) := by
  unfold Machine.execRingEnWrite
  exact (hs.atReg (hs.wrRingCtl ..) ..).next

theorem Queued.fetchCmd (hs : Queued q p s) (n : RingN) (bytes : List Byte) :
    Queued q p (fetchCmd s n bytes) := by
  unfold Machine.fetchCmd
  exact (hs.ringError ..).ite ((hs.setRing ..).ite hs)

theorem Queued.execRingCommandFetch (hs : Queued q p s) (n : RingN) (bytes : List Byte) :
    QueuedOut q p (execRingCommandFetch n bytes s) := by
  unfold Machine.execRingCommandFetch
  exact (hs.when (hs.fetchCmd ..) ..).next

theorem Queued.writeReply (hs : Queued q p s) (n : Nat) (r : Reply) : Queued q p (writeReply s n r) := by
  unfold Machine.writeReply
  exact ((hs.setRing ..).update ..).setF ..

theorem Queued.execReplyWrite (hs : Queued q p s) (n : RingN) : QueuedOut q p (execReplyWrite n s) := by
  unfold Machine.execReplyWrite
  refine Queued.next ?_
  split
  · exact hs
  · exact hs.when (hs.writeReply ..) ..

theorem Queued.usbDomainReset (hs : Queued q p s) : Queued q p (usbDomainReset s) := by
  unfold Machine.usbDomainReset
  exact ((hs.foldl (fun _ _ hu => hu.stopRing ..) ..).resetRegs ..).update ..

theorem Queued.execUsb4Reset (hs : Queued q p s) : QueuedOut q p (execUsb4Reset s) := by
  unfold Machine.execUsb4Reset
  exact (hs.when (hs.usbDomainReset ..) ..).next

/-! ## Firmware -/

theorem Queued.setUpd (hs : Queued q p s) (v : Nat) : Queued q p (setUpd s v) := by
  unfold Machine.setUpd
  exact hs.setF ..

theorem Queued.dropTrailer (hs : Queued q p s) (k : Nat) : Queued q p (dropTrailer s k) := by
  unfold Machine.dropTrailer
  exact (hs.mramPut ..).ite hs

theorem Queued.execFwLoad (hs : Queued q p s) (c : Cmd) (mramOk : Bool) :
    QueuedOut q p (execFwLoad c mramOk s) := by
  unfold Machine.execFwLoad
  exact hs.runCmd (fun _ hu => hu.orFail ((((hu.dropTrailer ..).setUpd ..).mramStore ..).answer ..) ..) ..

theorem Queued.execFwCommit (hs : Queued q p s) (c : Cmd) (mramOk : Bool) :
    QueuedOut q p (execFwCommit c mramOk s) := by
  unfold Machine.execFwCommit
  exact hs.runCmd (fun _ hu => hu.orFail ((hu.mramStore ..).branch (fun h => (h.setUpd ..).answer ..)
    (·.answer ..)) ..) ..

theorem Queued.execFwActivate (hs : Queued q p s) (c : Cmd) : QueuedOut q p (execFwActivate c s) := by
  unfold Machine.execFwActivate
  exact hs.runCmd (fun _ hu => hu.orFail ((((hu.count ..).setUpd ..).begin ..).update ..) ..) ..

theorem Queued.loadVec (hs : Queued q p s) (n k : Nat) : Queued q p (loadVec s n k) := by
  unfold Machine.loadVec
  exact hs.setF ..

theorem Queued.coreOn (hs : Queued q p s) (n k : Nat) : Queued q p (coreOn s n k) := by
  unfold Machine.coreOn
  exact (hs.loadVec ..).setCore ..

theorem Queued.updateDone (hs : Queued q p s) (u : Update) : Queued q p (updateDone s u) := by
  unfold Machine.updateDone
  exact ((((hs.setUpd ..).setF ..).setF ..).update ..).reply ..

theorem Queued.updateRollback (hs : Queued q p s) (u : Update) : Queued q p (updateRollback s u) := by
  unfold Machine.updateRollback
  exact ((((hs.coreOn ..).update ..).setUpd ..).count ..).answer ..

theorem Queued.moveTargets (hs : Queued q p s) (n : CoreN) : Queued q p (moveTargets s n) := by
  unfold Machine.moveTargets
  exact ((hs.setCore ..).retarget ..).ite hs

theorem Queued.coreUpdated (hs : Queued q p s) (u : Update) (n : CoreN) (pass : Bool) :
    Queued q p (coreUpdated s u n pass) := by
  unfold Machine.coreUpdated
  exact ((hs.moveTargets ..).ite hs).branch (·.updateRollback ..) (fun h => (h.ite ((h.coreOn ..).ite
    ((h.loadVec ..).fault ..))).branch (·.updateDone ..) (·.update ..))

theorem Queued.execFwCoreRestart (hs : Queued q p s) (n : CoreN) (pass : Bool) :
    QueuedOut q p (execFwCoreRestart n pass s) := by
  unfold Machine.execFwCoreRestart
  refine Queued.next ?_
  split
  · exact hs.when (hs.coreUpdated ..) ..
  · exact hs

theorem Queued.wrCoreCtrl (hs : Queued q p s) (n : CoreN) (v : Reg32) : Queued q p (wrCoreCtrl s n v) := by
  unfold Machine.wrCoreCtrl
  exact ((hs.coreStart ..).ite ((hs.coreStart ..).update ..)).ite hs

theorem Queued.execCoreRestart (hs : Queued q p s) (n : CoreN) (v : Reg32) :
    QueuedOut q p (execCoreRestart n v s) := by
  unfold Machine.execCoreRestart
  exact (hs.atReg (hs.wrCoreCtrl ..) ..).next

/-! ## Resets -/

theorem Queued.fltReset (hs : Queued q p s) : Queued q p (fltReset s) := by
  unfold Machine.fltReset
  refine Queued.foldl hs (fun _ _ hu => ?_) ..
  split
  · exact hu
  · exact hu
  · exact hu
  · exact hu.setFlt ..

theorem Queued.portsReset (hs : Queued q p s) : Queued q p (portsReset s) := by
  unfold Machine.portsReset
  exact hs.foldUpTo (fun _ _ hu => hu.setPort ..) ..

theorem Queued.haspReset (hs : Queued q p s) (x : ResetScope) : Queued q p (haspReset s x) := by
  unfold Machine.haspReset
  refine Queued.update ?_ ..
  refine Queued.branch (Queued.ifThen ?_ (fun h => (h.portsReset ..).update ..)) (·.update ..)
    (fun h => (h.update ..).setF ..)
  exact ((hs.resetRegs ..).fltReset ..).foldUpTo (fun _ _ hu => hu.modTum ..) ..

theorem Queued.setCause (hs : Queued q p s) (c : Nat) : Queued q p (setCause s c) := by
  unfold Machine.setCause
  exact hs.setF ..

theorem Queued.powerOn (hs : Queued q p s) (c : Nat) : Queued q p (powerOn s c) := by
  unfold Machine.powerOn
  exact ((hs.update ..).wr ..).setCause ..

theorem Queued.powerOff (hs : Queued q p s) : Queued q p (powerOff s) := by
  unfold Machine.powerOff
  exact (hs.powerOn ..).update ..

theorem Queued.execPorstN (hs : Queued q p s) : QueuedOut q p (execPorstN s) := by
  unfold Machine.execPorstN
  exact (hs.when (((hs.powerOn ..).update ..).ite (hs.powerOff ..)) ..).next

theorem Queued.alertNow (hs : Queued q p s) : Queued q p (alertNow s) := by
  unfold Machine.alertNow
  exact hs.setAlert ..

theorem Queued.countWarm (hs : Queued q p s) : Queued q p (countWarm s) := by
  unfold Machine.countWarm
  exact hs.setF ..

theorem Queued.warmBoot (hs : Queued q p s) : Queued q p (warmBoot s) := by
  unfold Machine.warmBoot
  exact ((hs.setCause ..).update ..).ifThen (fun h => (h.update ..).setF ..)

theorem Queued.warmReset (hs : Queued q p s) : Queued q p (warmReset s) := by
  unfold Machine.warmReset
  exact (((((hs.foldl (fun _ _ hu =>
    hu.portReset ..) ..).haspReset ..).countWarm ..).update ..).alertNow ..).ifElse (·.warmBoot ..)

theorem Queued.evalRefLoss (hs : Queued q p s) : Queued q p (evalRefLoss s) := by
  unfold Machine.evalRefLoss
  exact (hs.ite (hs.fault ..)).ite (hs.condEnd ..)

theorem Queued.leaveHold (hs : Queued q p s) : Queued q p (leaveHold s) := by
  unfold Machine.leaveHold
  exact ((hs.setF ..).update ..).evalRefLoss ..

theorem Queued.warmExit (hs : Queued q p s) : Queued q p (warmExit s) := by
  unfold Machine.warmExit
  exact ((hs.leaveHold ..).warmReset ..).ite hs

theorem Queued.execWrstN (hs : Queued q p s) : QueuedOut q p (execWrstN s) := by
  unfold Machine.execWrstN
  exact (hs.when ((hs.update ..).ifElse (fun h => (h.update ..).ite ((h.warmExit ..).ite
    (h.warmReset ..)))) ..).next

theorem Queued.execWrstNRise (hs : Queued q p s) : QueuedOut q p (execWrstNRise s) := by
  unfold Machine.execWrstNRise
  exact (hs.when (((hs.update ..).warmBoot ..).ite (hs.update ..)) ..).next

theorem Queued.execPortLogicReset (hs : Queued q p s) (p0 : PortN) : QueuedOut q p (execPortLogicReset p0 s) := by
  unfold Machine.execPortLogicReset
  exact (hs.when ((hs.portReset ..).fromOff ..) ..).next

/-! ## Power -/

theorem Queued.execFrontStageStart (hs : Queued q p s) : QueuedOut q p (execFrontStageStart s) := by
  unfold Machine.execFrontStageStart
  exact (((hs.update ..).powerOn ..).ite (hs.update ..)).next

theorem Queued.execFrontStageStop (hs : Queued q p s) : QueuedOut q p (execFrontStageStop s) := by
  unfold Machine.execFrontStageStop
  refine Queued.next ?_
  split
  · exact hs.update ..
  · exact hs.powerOff ..

theorem Queued.railUp (hs : Queued q p s) (r : Nat) : Queued q p (railUp s r) := by
  unfold Machine.railUp
  exact hs.ite ((hs.setF ..).update ..)

theorem Queued.railsComplete (hs : Queued q p s) : Queued q p (railsComplete s) := by
  unfold Machine.railsComplete
  exact (hs.setF ..).update ..

theorem Queued.railStep (hs : Queued q p s) : Queued q p (railStep s) := by
  unfold Machine.railStep
  exact ((hs.update ..).foldl (fun _ _ hu => hu.railUp ..) ..).ifThen (·.railsComplete ..)

theorem Queued.execRailSequenceStep (hs : Queued q p s) : QueuedOut q p (execRailSequenceStep s) := by
  unfold Machine.execRailSequenceStep
  exact (hs.when (hs.railStep ..) ..).next

theorem Queued.execIvrRampStep (hs : Queued q p s) (r : Fin 8) : QueuedOut q p (execIvrRampStep r s) := by
  unfold Machine.execIvrRampStep
  exact (hs.when (hs.setF ..) ..).next

theorem Queued.wrTarget (hs : Queued q p s) (r : Nat) (v : Reg32) : Queued q p (wrTarget s r v) := by
  unfold Machine.wrTarget
  exact hs.putReg ..

theorem Queued.execSenIvrTargetWrite (hs : Queued q p s) (r : Fin 8) (v : Reg32) :
    QueuedOut q p (execSenIvrTargetWrite r v s) := by
  unfold Machine.execSenIvrTargetWrite
  exact (hs.atReg (hs.wrTarget ..) ..).next

theorem Queued.wrQuiet (hs : Queued q p s) (w : Nat) (v : Reg32) : Queued q p (wrQuiet s w v) := by
  unfold Machine.wrQuiet
  exact (hs.putReg ..).quietWake ..

theorem Queued.execQuietBitWrite (hs : Queued q p s) (w : Fin 3) (v : Reg32) :
    QueuedOut q p (execQuietBitWrite w v s) := by
  unfold Machine.execQuietBitWrite
  exact (hs.atReg (hs.wrQuiet ..) ..).next

theorem Queued.evalHoldLow (hs : Queued q p s) : Queued q p (evalHoldLow s) := by
  unfold Machine.evalHoldLow
  exact (hs.ite (hs.fault ..)).ite (hs.condEnd ..)

theorem Queued.execHoldOkChange (hs : Queued q p s) (ok : Bool) : QueuedOut q p (execHoldOkChange ok s) := by
  unfold Machine.execHoldOkChange
  exact (hs.when ((hs.setF ..).evalHoldLow ..) ..).next

theorem Queued.brownOutSeen (hs : Queued q p s) (slope : Bool) : Queued q p (brownOutSeen s slope) := by
  unfold Machine.brownOutSeen
  exact (((((hs.setF ..).wr ..).wr ..).count ..).ibi ..).fault ..

theorem Queued.execBrownOut (hs : Queued q p s) (slope : Bool) : QueuedOut q p (execBrownOut slope s) := by
  unfold Machine.execBrownOut
  exact (hs.when ((hs.brownOutSeen ..).ifThen (·.beginDrain ..)) ..).next

theorem Queued.execVinHigh (hs : Queued q p s) : QueuedOut q p (execVinHigh s) := by
  unfold Machine.execVinHigh
  exact (hs.when (hs.fault ..) ..).next

theorem Queued.drainEnd (hs : Queued q p s) (t : Tum) : Queued q p (drainEnd s t) := by
  unfold Machine.drainEnd
  exact ((hs.setQ ..).ite ((hs.setQ ..).selfEntry ..)).update ..

theorem Queued.execDrainComplete (hs : Queued q p s) (t : Tum) : QueuedOut q p (execDrainComplete t s) := by
  unfold Machine.execDrainComplete
  exact (hs.when (hs.drainEnd ..) ..).next

theorem Queued.commitWrites (hs : Queued q p s) (c : DrainCause) (recorded : Bool) :
    Queued q p (commitWrites s c recorded) := by
  unfold Machine.commitWrites
  exact ((hs.commitDiverged ..).flushTail ..).ifThen (fun h => (h.fresh ..).mramPut ..)

theorem Queued.railsOff (hs : Queued q p s) (c : DrainCause) : Queued q p (railsOff s c) := by
  unfold Machine.railsOff
  exact (hs.haspReset ..).update ..

theorem Queued.commitDone (hs : Queued q p s) (c : DrainCause) : Queued q p (commitDone s c) := by
  unfold Machine.commitDone
  exact (((((hs.commitWrites ..).setF ..).railsOff ..).update ..).ifThen (fun h => (h.setF ..).ibi ..)).ifThen
    (·.warmExit ..)

theorem Queued.execMramCommitDone (hs : Queued q p s) : QueuedOut q p (execMramCommitDone s) := by
  unfold Machine.execMramCommitDone
  refine Queued.next ?_
  split
  · exact hs.when (hs.commitDone ..) ..
  · exact hs.when (hs.flushTail ..) ..

theorem Queued.resume (hs : Queued q p s) (c : Nat) : Queued q p (resume s c) := by
  unfold Machine.resume
  exact (hs.leaveHold ..).setCause ..

theorem Queued.execVinRecovery (hs : Queued q p s) : QueuedOut q p (execVinRecovery s) := by
  unfold Machine.execVinRecovery
  exact (hs.when ((hs.setF ..).resume ..) ..).next

theorem Queued.execHoldExitVin (hs : Queued q p s) : QueuedOut q p (execHoldExitVin s) := by
  unfold Machine.execHoldExitVin
  exact (hs.when (hs.resume ..) ..).next

theorem Queued.execHoldVinLow (hs : Queued q p s) : QueuedOut q p (execHoldVinLow s) := by
  unfold Machine.execHoldVinLow
  refine Queued.next ?_
  split
  · exact hs.update ..
  · exact hs

theorem Queued.refLost (hs : Queued q p s) : Queued q p (refLost s) := by
  unfold Machine.refLost
  exact (((hs.setF ..).ifThen (·.count ..)).ifThen (·.raise ..)).ifElse (·.evalRefLoss ..)

theorem Queued.execRefclkLoss (hs : Queued q p s) : QueuedOut q p (execRefclkLoss s) := by
  unfold Machine.execRefclkLoss
  exact (hs.when (hs.refLost ..) ..).next

theorem Queued.execRefclkReturn (hs : Queued q p s) : QueuedOut q p (execRefclkReturn s) := by
  unfold Machine.execRefclkReturn
  exact (hs.when ((hs.setF ..).evalRefLoss ..) ..).next

/-! ## Bring-up -/

theorem Queued.setStage (hs : Queued q p s) (n : Nat) : Queued q p (setStage s n) := by
  unfold Machine.setStage
  exact hs.setF ..

theorem Queued.againSuspect (hs : Queued q p s) : Queued q p (againSuspect s) := by
  unfold Machine.againSuspect
  exact hs.foldl (fun _ _ hu => hu.fault ..) ..

theorem Queued.checkStores (hs : Queued q p s) : Queued q p (checkStores s) := by
  unfold Machine.checkStores
  exact (((hs.setF ..).setF ..).ite (((hs.setF ..).setF ..).fault ..)).setStage ..

theorem Queued.loadLeaf (hs : Queued q p s) (t : Nat) : Queued q p (loadLeaf s t) := by
  unfold Machine.loadLeaf
  split
  · exact hs
  · exact (hs.foldUpTo (fun _ _ hu => hu.wr ..) ..).foldUpTo (fun _ _ hu => hu.wr ..) ..

theorem Queued.loadRemap (hs : Queued q p s) (i : Nat) : Queued q p (loadRemap s i) := by
  unfold Machine.loadRemap
  exact hs.ite ((hs.mramPut ..).ite ((hs.wr ..).wr ..))

theorem Queued.putRegion (hs : Queued q p s) (r epoch sweep mode home : Nat) :
    Queued q p (putRegion s r epoch sweep mode home) := by
  unfold Machine.putRegion
  exact hs.wr ..

theorem Queued.loadRegions (hs : Queued q p s) (paired : Bool) : Queued q p (loadRegions s paired) := by
  unfold Machine.loadRegions
  exact hs.foldUpTo (fun _ _ hu => (((hu.putRegion ..).ite (hu.putRegion ..)).setF ..).ite
    ((hu.putRegion ..).ite (hu.putRegion ..))) ..

theorem Queued.restartSweeps (hs : Queued q p s) : Queued q p (restartSweeps s) := by
  unfold Machine.restartSweeps
  exact (hs.foldUpTo (fun _ _ hu => (hu.oweSweeps ..).ite hu) ..).foldUpTo (fun _ _ hu => hu.ite
    (hu.update ..)) ..

theorem Queued.loadPair (hs : Queued q p s) : Queued q p (loadPair s) := by
  unfold Machine.loadPair
  exact hs.ite ((((hs.wr ..).setF ..).foldUpTo (fun _ _ hu => (hu.setF ..).ite hu) ..).update ..)

theorem Queued.loadPreserved (hs : Queued q p s) : Queued q p (loadPreserved s) := by
  unfold Machine.loadPreserved
  exact (((hs.loadPair ..).loadRegions ..).restartSweeps ..).setF ..

theorem Queued.startCores (hs : Queued q p s) : Queued q p (startCores s) := by
  unfold Machine.startCores
  dsimp only
  refine Queued.foldUpTo ?_ (fun _ _ hu => hu.coreStart ..) ..
  split
  · exact ((hs.setF ..).setF ..).foldUpTo (fun _ _ hu => hu.loadVec ..) ..
  · exact (((hs.fresh ..).setF ..).setF ..).foldUpTo (fun _ _ hu => hu.setF ..) ..

theorem Queued.haspOn (hs : Queued q p s) : Queued q p (haspOn s) := by
  unfold Machine.haspOn
  exact hs.update ..

theorem Queued.loadStores (hs : Queued q p s) : Queued q p (loadStores s) := by
  unfold Machine.loadStores
  dsimp only
  refine Queued.setStage (Queued.startCores (Queued.againSuspect (Queued.haspOn ?_ ..) ..) ..) ..
  refine Queued.branch (Queued.foldUpTo (Queued.foldUpTo ?_ (fun _ _ hu => hu.loadLeaf ..) ..)
    (fun _ _ hu => hu.loadRemap ..) ..) (·.loadPreserved ..) (·.setF ..)
  split
  · exact (hs.update ..).loadCal ..
  · exact hs.update ..

theorem Queued.trainSets (hs : Queued q p s) (t : Nat) : Queued q p (trainSets s t) := by
  unfold Machine.trainSets
  exact hs.foldUpTo (fun _ _ hu => hu.foldUpTo (fun _ _ hv => (hv.fresh ..).setF ..) ..) ..

theorem Queued.trainLevels (hs : Queued q p s) (t r : Nat) : Queued q p (trainLevels s t r) := by
  unfold Machine.trainLevels
  exact ((((((hs.setF ..).setF ..).setF ..).count ..).foldUpTo (fun _ _ hu => hu.count ..) ..).foldUpTo
    (fun _ _ hu => (hu.fresh ..).wr ..) ..).foldUpTo (fun _ _ hu => (hu.fresh ..).wr ..) ..

theorem Queued.bringRate (hs : Queued q p s) (t r : Nat) : Queued q p (bringRate s t r) := by
  unfold Machine.bringRate
  exact ((hs.ite (hs.count ..)).setF ..).setF ..

theorem Queued.bringTrain (hs : Queued q p s) (t : Nat) : Queued q p (bringTrain s t).1 := by
  unfold Machine.bringTrain
  refine Queued.ite_fst hs ?_
  split
  rename_i f s1 he
  have h1 := hs.fresh
  rw [he] at h1
  dsimp only
  exact ((h1.trainSets t).setF ..).count ..

theorem Queued.bringFails (hs : Queued q p s) (t : Tum) : Queued q p (bringFails s t) := by
  unfold Machine.bringFails
  exact (((((hs.fresh ..).recordQuiet ..).openShadow ..).ifElse (·.selfEntry ..)).setMode ..).releaseRegions ..

theorem Queued.bringOnline (hs : Queued q p s) (t : Nat) : Queued q p (bringOnline s t) := by
  unfold Machine.bringOnline
  exact (((hs.leaveSelf ..).ite (hs.restartRefresh ..)).setMode ..).ite (((hs.leaveSelf ..).ite
    (hs.restartRefresh ..)).setMode ..)

theorem Queued.bringUp (hs : Queued q p s) (t : Tum) : Queued q p (bringUp s t) := by
  unfold Machine.bringUp
  have h1 := hs.bringTrain t
  split
  · rename_i he
    rw [he] at h1
    exact h1.bringFails ..
  · rename_i he
    rw [he] at h1
    exact (((h1.bringRate ..).trainLevels ..).loadSet ..).bringOnline ..

theorem Queued.groupStart (hs : Queued q p s) (g : Nat) : Queued q p (groupStart s g) := by
  unfold Machine.groupStart
  exact (hs.update ..).foldl (fun _ _ hu => (hu.bringUp ..).ite hu) ..

theorem Queued.execTumblerGroupStart (hs : Queued q p s) (g : Fin 4) :
    QueuedOut q p (execTumblerGroupStart g s) := by
  unfold Machine.execTumblerGroupStart
  exact (hs.when (hs.groupStart ..) ..).next

theorem Queued.firmwareUp (hs : Queued q p s) : Queued q p (firmwareUp s) := by
  unfold Machine.firmwareUp
  exact ((((hs.foldUpTo (fun _ _ hu => (hu.setCore ..).ite hu) ..).update ..).foldUpTo (fun _ _ hu =>
    (hu.setF ..).fromOff ..) ..).setStage ..).groupStart ..

theorem Queued.bootDone (hs : Queued q p s) : Queued q p (bootDone s) := by
  unfold Machine.bootDone
  exact ((hs.setStage ..).setF ..).update ..

theorem Queued.nextStage (hs : Queued q p s) : Queued q p (nextStage s) := by
  unfold Machine.nextStage
  split
  · exact (hs.update ..).setStage ..
  · exact hs.checkStores ..
  · exact hs.loadStores ..
  · exact hs.firmwareUp ..
  · exact (hs.bootDone ..).ite hs
  · exact hs

theorem Queued.execBootStage (hs : Queued q p s) : QueuedOut q p (execBootStage s) := by
  unfold Machine.execBootStage
  exact (hs.when (hs.nextStage ..) ..).next

/-! ## Thermal rows -/

theorem Queued.takeReadings (hs : Queued q p s) (i : ThermIn) : Queued q p (takeReadings s i) := by
  unfold Machine.takeReadings
  exact ((hs.update ..).wr ..).foldUpTo (fun _ _ hu => hu.wr ..) ..

theorem Queued.stepModel (hs : Queued q p s) (cur : List (BitVec 16)) : Queued q p (stepModel s cur) := by
  unfold Machine.stepModel
  exact hs.update ..

theorem Queued.stepSuspect (hs : Queued q p s) (l : LeafN) : Queued q p (stepSuspect s l) := by
  unfold Machine.stepSuspect
  exact ((((hs.update ..).update ..).count ..).fault ..).ite (hs.update ..)

theorem Queued.stepModelLow (hs : Queued q p s) : Queued q p (stepModelLow s) := by
  unfold Machine.stepModelLow
  exact (hs.update ..).ite ((hs.update ..).fault ..)

theorem Queued.stepFail (hs : Queued q p s) (l : LeafN) : Queued q p (stepFail s l) := by
  unfold Machine.stepFail
  exact (hs.fault ..).ite ((hs.condEnd ..).ite hs)

theorem Queued.formUsed (hs : Queued q p s) : Queued q p (formUsed s) := by
  unfold Machine.formUsed
  exact ((hs.foldl (fun _ _ hu => (hu.stepFail ..).ite hu) ..).ite (((hs.foldl (fun _ _ hu =>
    (hu.stepFail ..).ite hu) ..).foldl (fun _ _ hu => (hu.stepSuspect ..).ite
    hu) ..).stepModelLow ..)).update ..

theorem Queued.sendBand (hs : Queued q p s) (l z b : Nat) : Queued q p (sendBand s l z b) := by
  unfold Machine.sendBand
  exact hs.foldUpTo (fun _ _ hu => (hu.update ..).ite hu) ..

theorem Queued.bandChanged (hs : Queued q p s) (l z old new : Nat) : Queued q p (bandChanged s l z old new) := by
  unfold Machine.bandChanged
  exact (((((hs.raise ..).count ..).ibi ..).sendBand ..).foldUpTo (fun _ _ hu => hu.checkExcess ..) ..).ite
    ((((hs.raise ..).count ..).ibi ..).foldUpTo (fun _ _ hu => hu.endExcess ..) ..)

theorem Queued.stepZone (hs : Queued q p s) (k : Nat) : Queued q p (stepZone s k) := by
  unfold Machine.stepZone
  exact (hs.update ..).ite ((hs.update ..).bandChanged ..)

theorem Queued.stepEmergency (hs : Queued q p s) (t : Tum) : Queued q p (stepEmergency s t) := by
  unfold Machine.stepEmergency
  exact ((hs.setMode ..).ifElse (·.fault ..)).ite ((((hs.setMode ..).ifElse (·.wakeFor ..)).condEnd ..).ite hs)

theorem Queued.stepBands (hs : Queued q p s) : Queued q p (stepBands s) := by
  unfold Machine.stepBands
  exact (hs.foldUpTo (fun _ _ hu => hu.stepZone ..) ..).foldl (fun _ _ hu => hu.stepEmergency ..) ..

theorem Queued.hotStep (hs : Queued q p s) (c : Nat) (l : List Rat) (hi lo : Rat) (since : Option Nat) :
    Queued q p (hotStep s c l hi lo since).1 := by
  unfold Machine.hotStep
  exact (hs.fault ..).ite ((hs.condEnd ..).ite hs)

theorem Queued.tripStep (hs : Queued q p s) (c : Nat) (l : List Rat) (hi : Rat) :
    Queued q p (tripStep s c l hi) := by
  unfold Machine.tripStep
  exact (hs.fault ..).ite hs

theorem Queued.stepThresholds (hs : Queued q p s) : Queued q p (stepThresholds s) := by
  unfold Machine.stepThresholds
  exact ((((hs.hotStep ..).hotStep ..).update ..).tripStep ..).tripStep ..

theorem Queued.evaluate (hs : Queued q p s) (i : ThermIn) : Queued q p (evaluate s i) := by
  unfold Machine.evaluate
  exact ((((hs.takeReadings ..).stepModel ..).formUsed ..).stepBands ..).stepThresholds ..

theorem Queued.execThermalEvaluation (hs : Queued q p s) (i : ThermIn) :
    QueuedOut q p (execThermalEvaluation i s) := by
  unfold Machine.execThermalEvaluation
  exact (hs.when (hs.evaluate ..) ..).next

theorem Queued.sliceSelf (hs : Queued q p s) (l t : Nat) (temp : Rat) : Queued q p (sliceSelf s l t temp) := by
  unfold Machine.sliceSelf
  exact (((hs.count ..).ite hs).update ..).foldUpTo (fun _ _ hu => (hu.refreshRows ..).putSet ..) ..

theorem Queued.execLeafSelfRefresh (hs : Queued q p s) (l : LeafN) (z : Fin 16) (temp : Int) :
    QueuedOut q p (execLeafSelfRefresh l z temp s) := by
  unfold Machine.execLeafSelfRefresh
  exact (QueuedOut.fault _).ite ((hs.foldUpTo (fun _ _ hu => (hu.sliceSelf ..).ite hu) ..).next)

end Sys2Proof.Machine
end

section
/-! PROOF. No command changes the queue behind it or the part fitted (O5): the rules.
Register accesses, the lanes, flits and the side-band ports. -/

namespace Sys2Proof.Machine

open Sys2Proof

variable {q : List Instr} {p : Part} {s : State}

/-! ## Register reads -/

theorem Queued.latchHi (hs : Queued q p s) (path off : Nat) : Queued q p (latchHi s path off) := by
  unfold Machine.latchHi
  split
  · exact hs.update ..
  · exact hs

theorem Queued.clearRc (hs : Queued q p s) (off : Nat) : Queued q p (clearRc s off) := by
  unfold Machine.clearRc
  split
  · exact hs.ite (hs.wr ..)
  · exact hs

theorem Queued.latchFail (hs : Queued q p s) (path : Nat) (st : BitVec 16) :
    Queued q p (latchFail s path st) := by
  unfold Machine.latchFail
  exact hs.ite (((hs.wr ..).fault ..).ite (hs.wr ..))

theorem Queued.readCsr (hs : Queued q p s) (path off : Nat) : Queued q p (readCsr s path off).1 := by
  unfold Machine.readCsr
  dsimp only
  split
  · exact hs.latchFail ..
  · split
    · exact hs
    · split
      · exact hs
      · exact (hs.latchHi ..).clearRc ..

theorem Queued.readOne (hs : Queued q p s) (path off : Nat) : Queued q p (readOne s path off) := by
  unfold Machine.readOne
  exact (hs.readCsr ..).update ..

theorem Queued.execTimeLoRead (hs : Queued q p s) (path : Path) : QueuedOut q p (execTimeLoRead path s) := by
  unfold Machine.execTimeLoRead
  exact (hs.when (hs.readOne ..) ..).next

theorem Queued.execReadClear (hs : Queued q p s) (path : Path) (off : BitVec 26) :
    QueuedOut q p (execReadClear path off s) := by
  unfold Machine.execReadClear
  exact (hs.when (hs.readOne ..) ..).next

/-! ## Patterns -/

theorem Queued.startPatterns (hs : Queued q p s) (p0 : Nat) : Queued q p (startPatterns s p0) := by
  unfold Machine.startPatterns
  exact (hs.wr ..).setPhy ..

theorem Queued.moveGens (hs : Queued q p s) (p0 : Nat) : Queued q p (moveGens s p0) := by
  unfold Machine.moveGens
  exact hs.setPhy ..

theorem Queued.addBits (hs : Queued q p s) (p0 n : Nat) : Queued q p (addBits s p0 n) := by
  unfold Machine.addBits
  exact (hs.wr ..).wr ..

theorem Queued.addErrors (hs : Queued q p s) (p0 l n : Nat) : Queued q p (addErrors s p0 l n) := by
  unfold Machine.addErrors
  exact hs.ite (hs.wr ..)

theorem Queued.showSync (hs : Queued q p s) (p0 l : Nat) (c : Checker) : Queued q p (showSync s p0 l c) := by
  unfold Machine.showSync
  exact (hs.setF ..).setF ..

theorem Queued.checkLane {u : State × Nat} (hu : Queued q p u.1) (f p0 l : Nat) :
    Queued q p (checkLane f p0 u l).1 := by
  unfold Machine.checkLane
  dsimp only
  split
  · exact hu
  · exact ((hu.setPhy ..).addErrors ..).showSync ..

theorem Queued.checkPatterns (hs : Queued q p s) (p0 f : Nat) : Queued q p (checkPatterns s p0 f) := by
  unfold Machine.checkPatterns
  exact (hs.foldUpTo_fst (fun _ _ hu => hu.checkLane ..) ..).addBits ..

theorem Queued.dropCheckers (hs : Queued q p s) (p0 : Nat) : Queued q p (dropCheckers s p0) := by
  unfold Machine.dropCheckers
  exact hs.foldUpTo (fun _ _ hu => hu.ite ((hu.setPhy ..).showSync ..)) ..

/-! ## Lanes -/

theorem Queued.eqMove (hs : Queued q p s) (p0 l : Nat) : Queued q p (eqMove s p0 l) := by
  unfold Machine.eqMove
  dsimp only
  split
  · exact hs
  · exact hs.ite ((hs.setF ..).count ..)

theorem Queued.execEqCodeMove (hs : Queued q p s) (p0 : PortN) (l : LaneN) :
    QueuedOut q p (execEqCodeMove p0 l s) := by
  unfold Machine.execEqCodeMove
  exact (hs.when (hs.eqMove ..) ..).next

theorem Queued.startWaiting (hs : Queued q p s) (p0 l : Nat) : Queued q p (startWaiting s p0 l) := by
  unfold Machine.startWaiting
  exact (hs.setF ..).ite hs

theorem Queued.wrEqOvr (hs : Queued q p s) (p0 : PortN) (l : Nat) (v : Reg32) :
    Queued q p (wrEqOvr s p0 l v) := by
  unfold Machine.wrEqOvr
  exact ((hs.wrReg ..).startWaiting ..).setPhy ..

theorem Queued.execEqOvrWrite (hs : Queued q p s) (p0 : PortN) (l : LaneN) (v : Reg32) :
    QueuedOut q p (execEqOvrWrite p0 l v s) := by
  unfold Machine.execEqOvrWrite
  exact (hs.atReg (hs.wrEqOvr ..) ..).next

theorem Queued.adaptLane (hs : Queued q p s) (p0 l : Nat)
    (m : BitVec 9 × BitVec 9 × BitVec 9 × BitVec 6 × BitVec 12) :
    Queued q p (adaptLane s p0 l m) := by
  unfold Machine.adaptLane
  exact hs.ite ((((hs.setF ..).setF ..).count ..).ite
    (((((((hs.setF ..).setF ..).count ..).setPhy ..).setF ..).count ..).ite
    ((((hs.setF ..).setF ..).count ..).setPhy ..)))

theorem Queued.adaptStep (hs : Queued q p s) (p0 : Nat)
    (meas : List (BitVec 9 × BitVec 9 × BitVec 9 × BitVec 6 × BitVec 12)) :
    Queued q p (adaptStep s p0 meas) := by
  unfold Machine.adaptStep
  dsimp only
  refine Queued.setPhy ?_ ..
  refine Queued.setF ?_ ..
  refine Queued.foldUpTo hs (fun _ _ hu => ?_) ..
  split
  · exact hu.adaptLane ..
  · exact hu

theorem Queued.execAdaptationStep (hs : Queued q p s) (p0 : PortN)
    (meas : List (BitVec 9 × BitVec 9 × BitVec 9 × BitVec 6 × BitVec 12)) :
    QueuedOut q p (execAdaptationStep p0 meas s) := by
  unfold Machine.execAdaptationStep
  exact (hs.when (hs.adaptStep ..) ..).next

theorem Queued.upwidthNow (hs : Queued q p s) (p0 : PortN) : Queued q p (upwidthNow s p0) := by
  unfold Machine.upwidthNow
  exact ((hs.clearExclusions ..).toRetrain ..).ite (((hs.clearExclusions ..).setPhy ..).ite (hs.paramFault ..))

theorem Queued.enterTest (hs : Queued q p s) (p0 : Nat) : Queued q p (enterTest s p0) := by
  unfold Machine.enterTest
  exact ((hs.setF ..).modPort ..).startPatterns ..

theorem Queued.leaveTest (hs : Queued q p s) (p0 : Nat) : Queued q p (leaveTest s p0) := by
  unfold Machine.leaveTest
  exact ((((hs.leaveLink ..).setLocks ..).setF ..).modPort ..).dropCheckers ..

theorem Queued.wrPhyCtrl (hs : Queued q p s) (p0 : PortN) (v : Reg32) : Queued q p (wrPhyCtrl s p0 v) := by
  unfold Machine.wrPhyCtrl
  exact (((hs.upwidthNow ..).ite hs).ifThen (·.setPhy ..)).branch (fun h => ((h.wrReg ..).enterTest ..).ite
    (h.putReg ..)) (fun h => (h.wrReg ..).branch (fun h1 => (h1.leaveTest ..).fromOff ..) (·.fromOff ..))

theorem Queued.execUpwidth (hs : Queued q p s) (p0 : PortN) (v : Reg32) : QueuedOut q p (execUpwidth p0 v s) := by
  unfold Machine.execUpwidth
  exact (hs.atReg (hs.wrPhyCtrl ..) ..).next

theorem Queued.execAdaptNow (hs : Queued q p s) (p0 : PortN) (v : Reg32) :
    QueuedOut q p (execAdaptNow p0 v s) := by
  unfold Machine.execAdaptNow
  exact (hs.atReg (hs.wrPhyCtrl ..) ..).next

theorem Queued.execTestModeWrite (hs : Queued q p s) (p0 : PortN) (v : Reg32) :
    QueuedOut q p (execTestModeWrite p0 v s) := by
  unfold Machine.execTestModeWrite
  exact (hs.atReg (hs.wrPhyCtrl ..) ..).next

theorem Queued.wrEsCtrl (hs : Queued q p s) (p0 : PortN) (v : Reg32) : Queued q p (wrEsCtrl s p0 v) := by
  unfold Machine.wrEsCtrl
  exact ((hs.wrReg ..).ifThen (·.endEye ..)).ifElse (fun h => (h.paramFault ..).ite
    ((((h.setF ..).setF ..).setF ..).setPhy ..))

theorem Queued.execEyeScanStart (hs : Queued q p s) (p0 : PortN) (v : Reg32) :
    QueuedOut q p (execEyeScanStart p0 v s) := by
  unfold Machine.execEyeScanStart
  exact (hs.atReg (hs.wrEsCtrl ..) ..).next

theorem Queued.execEyeScanAbort (hs : Queued q p s) (p0 : PortN) (v : Reg32) :
    QueuedOut q p (execEyeScanAbort p0 v s) := by
  unfold Machine.execEyeScanAbort
  exact (hs.atReg (hs.wrEsCtrl ..) ..).next

theorem Queued.storeEye (hs : Queued q p s) (p0 : Nat) (v : Reg32) (counts : List Nat) :
    Queued q p (storeEye s p0 v counts) := by
  unfold Machine.storeEye
  exact (hs.foldl (fun _ _ hu => hu.wr ..) ..).ite (hs.wr ..)

theorem Queued.finishEye (hs : Queued q p s) (p0 : Nat) (v : Reg32) (counts : List Nat) (low : Bool) :
    Queued q p (finishEye s p0 v counts low) := by
  unfold Machine.finishEye
  exact ((((hs.storeEye ..).setF ..).setF ..).ifThen (·.setF ..)).setPhy ..

theorem Queued.execEyeScanDone (hs : Queued q p s) (p0 : PortN) (counts : List Nat) (low : Bool) :
    QueuedOut q p (execEyeScanDone p0 counts low s) := by
  unfold Machine.execEyeScanDone
  split
  · exact (hs.when (hs.finishEye ..) ..).next
  · exact hs.next

theorem Queued.clearChecks (hs : Queued q p s) (p0 : Nat) : Queued q p (clearChecks s p0) := by
  unfold Machine.clearChecks
  exact ((hs.wr ..).wr ..).foldUpTo (fun _ _ hu => hu.wr ..) ..

theorem Queued.pgLanesChanged (hs : Queued q p s) (p0 : Nat) : Queued q p (pgLanesChanged s p0) := by
  unfold Machine.pgLanesChanged
  exact ((hs.dropCheckers ..).dropIdle ..).ifThen (·.endEye ..)

theorem Queued.wrPgCfg (hs : Queued q p s) (p0 : PortN) (v : Reg32) : Queued q p (wrPgCfg s p0 v) := by
  unfold Machine.wrPgCfg
  exact (hs.putReg ..).ifThen (fun h => (((h.clearChecks ..).ite h).ifThen
    (·.startPatterns ..)).pgLanesChanged ..)

theorem Queued.wrPgLanes (hs : Queued q p s) (p0 : PortN) (v : Reg32) : Queued q p (wrPgLanes s p0 v) := by
  unfold Machine.wrPgLanes
  exact ((hs.wrReg ..).pgLanesChanged ..).ite (hs.wrReg ..)

theorem Queued.execPgClear (hs : Queued q p s) (p0 : PortN) (v : Reg32) : QueuedOut q p (execPgClear p0 v s) := by
  unfold Machine.execPgClear
  exact (hs.atReg (hs.wrPgCfg ..) ..).next

theorem Queued.wrInj (hs : Queued q p s) (p0 : PortN) (v : Reg32) : Queued q p (wrInj s p0 v) := by
  unfold Machine.wrInj
  exact (hs.putReg ..).ite (((hs.putReg ..).paramFault ..).ite ((hs.putReg ..).setF ..))

theorem Queued.execInjectionGo (hs : Queued q p s) (p0 : PortN) (v : Reg32) :
    QueuedOut q p (execInjectionGo p0 v s) := by
  unfold Machine.execInjectionGo
  exact (hs.atReg (hs.wrInj ..) ..).next

theorem Queued.inject (hs : Queued q p s) (p0 : Nat) : Queued q p (inject s p0) := by
  unfold Machine.inject
  exact ((hs.setPhy ..).setF ..).count ..

theorem Queued.execInjectionMade (hs : Queued q p s) (p0 : PortN) : QueuedOut q p (execInjectionMade p0 s) := by
  unfold Machine.execInjectionMade
  exact (hs.when (hs.inject ..) ..).next

/-! ## Register writes -/

theorem Queued.putWhole (hs : Queued q p s) (off : Nat) (v : Reg32) (bad : Bool) :
    Queued q p (putWhole s off v bad) := by
  unfold Machine.putWhole
  exact (hs.paramFault ..).ite (hs.wrReg ..)

theorem Queued.putField (hs : Queued q p s) (off : Nat) (v : Reg32) (bad : Bool) (m : Nat) :
    Queued q p (putField s off v bad m) := by
  unfold Machine.putField
  exact hs.putReg ..

theorem Queued.wrSen (hs : Queued q p s) (off : Nat) (v : Reg32) : Queued q p (wrSen s off v) := by
  unfold Machine.wrSen
  exact ((hs.putField ..).evalHoldLow ..).ite ((hs.wrQuiet ..).ite ((hs.wrTarget ..).ite (hs.wrReg ..)))

theorem Queued.wrEvc (hs : Queued q p s) (off : Nat) (v : Reg32) : Queued q p (wrEvc s off v) := by
  unfold Machine.wrEvc
  dsimp only
  refine Queued.ite (hs.wrEoi ..) ?_
  refine Queued.ite (hs.wrSwRaise ..) ?_
  refine Queued.ite ?_ (hs.wrReg ..)
  split
  · exact hs.wrSrcCfg ..
  · exact hs.wrSrcStat ..
  · exact hs.putField ..
  · exact hs.wrReg ..

theorem Queued.wrWrd (hs : Queued q p s) (off : Nat) (v : Reg32) : Queued q p (wrWrd s off v) := by
  unfold Machine.wrWrd
  exact (hs.putField ..).ite ((hs.putWhole ..).ite (((hs.putField ..).ite ((hs.putField ..).ite
    (hs.wrReg ..))).ite ((hs.putReg ..).ite (hs.wrReg ..))))

theorem Queued.wrTum (hs : Queued q p s) (off : Nat) (v : Reg32) : Queued q p (wrTum s off v) := by
  unfold Machine.wrTum
  exact (hs.wrRate ..).ite ((hs.wrPwrCfg ..).ite ((hs.wrRefCfg ..).ite ((hs.wrTrnCtrl ..).ite
    (((hs.wrReg ..).beginMove ..).ite (((hs.wrReg ..).beginMove ..).ite ((hs.paramFault ..).ite
    (hs.putReg ..)))))))

theorem Queued.wrScn (hs : Queued q p s) (off : Nat) (v : Reg32) : Queued q p (wrScn s off v) := by
  unfold Machine.wrScn
  exact (hs.putField ..).ite (hs.wrReg ..)

theorem Queued.wrPort (hs : Queued q p s) (off : Nat) (v : Reg32) : Queued q p (wrPort s off v) := by
  unfold Machine.wrPort
  exact (hs.wrPhyCtrl ..).ite ((hs.wrPhyRate ..).ite ((hs.wrEqOvr ..).ite ((hs.wrEsCtrl ..).ite
    ((hs.wrPgCfg ..).ite ((hs.wrPgLanes ..).ite ((hs.wrInj ..).ite ((hs.wrLinkCtrl ..).ite
    (hs.putWhole ..))))))))

theorem Queued.wrLeaf (hs : Queued q p s) (off : Nat) (v : Reg32) : Queued q p (wrLeaf s off v) := by
  unfold Machine.wrLeaf
  exact hs.putReg ..

theorem Queued.wrCores (hs : Queued q p s) (off : Nat) (v : Reg32) : Queued q p (wrCores s off v) := by
  unfold Machine.wrCores
  dsimp only
  refine Queued.ite (hs.wrCoreCtrl ..) ?_
  refine Queued.ite ?_ (hs.wrReg ..)
  split
  · exact hs.wrRingCtl ..
  · exact hs.wrRingBase ..
  · exact hs.wrRingBase ..
  · exact hs.wrRingBase ..
  · exact hs.wrRingBase ..
  · exact hs.wrReg ..

theorem Queued.writeReg (hs : Queued q p s) (off : Nat) (v : Reg32) : Queued q p (writeReg s off v) := by
  unfold Machine.writeReg
  split
  · exact (hs.wrFltStat ..).ite (hs.wrReg ..)
  · exact (hs.wrReg ..).ite ((hs.wrSen ..).ite ((hs.wrReg ..).ite ((hs.wrEvc ..).ite ((hs.wrWrd ..).ite
      ((hs.wrReg ..).ite ((hs.wrTum ..).ite ((hs.wrScn ..).ite ((hs.wrPort ..).ite ((hs.wrLeaf ..).ite
      ((hs.putField ..).ite ((hs.wrCores ..).ite (hs.wrReg ..))))))))))))

theorem Queued.writeCsr (hs : Queued q p s) (path off : Nat) (v : Reg32) :
    Queued q p (writeCsr s path off v).1 := by
  unfold Machine.writeCsr
  exact Queued.ite_fst (hs.latchFail ..) (Queued.ite_fst hs (hs.writeReg ..))

theorem Queued.execRegisterWrite (hs : Queued q p s) (path : Path) (off : BitVec 26) (v : Reg32) :
    QueuedOut q p (execRegisterWrite path off v s) := by
  unfold Machine.execRegisterWrite
  exact (hs.when (hs.writeCsr ..) ..).next

theorem Queued.execGblLockSet (hs : Queued q p s) (v : Reg32) : QueuedOut q p (execGblLockSet v s) := by
  unfold Machine.execGblLockSet
  exact (hs.when (hs.writeReg ..) ..).next

/-! ## Register rows -/

theorem Queued.csrReply {u : CsrRun} (hu : Queued q p u.st) (c : Cmd) : Queued q p (csrReply c u) := by
  unfold Machine.csrReply
  split
  · exact hu.reply ..
  · exact hu.reply ..

theorem Queued.readNth {u : CsrRun} (hu : Queued q p u.st) (path off i : Nat) :
    Queued q p (readNth path off u i).st := by
  unfold Machine.readNth
  exact hu.readCsr ..

theorem Queued.writeNth {u : CsrRun} (hu : Queued q p u.st) (path off : Nat) (c : Cmd) (i : Nat) :
    Queued q p (writeNth path off c u i).st := by
  unfold Machine.writeNth
  exact hu.writeCsr ..

theorem Queued.csrReadDone (hs : Queued q p s) (c : Cmd) : Queued q p (csrReadDone c s) := by
  unfold Machine.csrReadDone
  exact hs.orFail ((hs.csrRun (fun _ _ hu => hu.readNth ..) ..).csrReply ..) ..

theorem Queued.execCsrRead (hs : Queued q p s) (c : Cmd) : QueuedOut q p (execCsrRead c s) := by
  unfold Machine.execCsrRead
  exact hs.runCmd (fun _ hu => hu.csrReadDone ..) ..

theorem Queued.csrWriteDone (hs : Queued q p s) (c : Cmd) : Queued q p (csrWriteDone c s) := by
  unfold Machine.csrWriteDone
  exact hs.orFail ((hs.csrRun (fun _ _ hu => hu.writeNth ..) ..).csrReply ..) ..

theorem Queued.execCsrWrite (hs : Queued q p s) (c : Cmd) : QueuedOut q p (execCsrWrite c s) := by
  unfold Machine.execCsrWrite
  exact hs.runCmd (fun _ hu => hu.csrWriteDone ..) ..

theorem Queued.bar0Fail (hs : Queued q p s) (st : BitVec 16) : Queued q p (bar0Fail s st).1 := by
  unfold Machine.bar0Fail
  exact hs.latchFail ..

theorem Queued.bar0Word (hs : Queued q p s) (off size i : Nat) (v : Option Reg32) :
    Queued q p (bar0Word s off size i v).1 := by
  unfold Machine.bar0Word
  split
  · exact hs.bar0Fail ..
  · split
    · exact hs.bar0Fail ..
    · split
      · exact hs.writeCsr ..
      · exact hs.readCsr ..

theorem Queued.bar0Done (hs : Queued q p s) (off size : Nat) (data : Option (List Reg32)) :
    Queued q p (bar0Done s off size data) := by
  unfold Machine.bar0Done
  dsimp only
  refine Queued.update (Queued.foldl_fst (u := (_, [])) ?_ (fun _ _ hu => ?_) ..) ..
  · exact (hs.update ..).count ..
  · exact hu.bar0Word ..

theorem Queued.execBar0Access (hs : Queued q p s) (off : BitVec 26) (size : Nat) (data : Option (List Reg32)) :
    QueuedOut q p (execBar0Access off size data s) := by
  unfold Machine.execBar0Access
  exact (hs.when (hs.bar0Done ..) ..).next

/-! ## Flits -/

theorem Queued.overrun (hs : Queued q p s) (p0 : PortN) : Queued q p (overrun s p0) := by
  unfold Machine.overrun
  exact ((hs.skipPacket ..).setF ..).fault ..

theorem Queued.keepPacket (hs : Queued q p s) (p0 : PortN) (k : Nat) (pkt : List (BitVec 16)) :
    Queued q p (keepPacket s p0 k pkt) := by
  unfold Machine.keepPacket
  exact (hs.overrun ..).ite ((hs.modPort ..).storePkt ..)

theorem Queued.oddReq (hs : Queued q p s) (p0 : PortN) (n : Nat) : Queued q p (oddReq s p0 n) := by
  unfold Machine.oddReq
  exact (hs.overrun ..).ite (((hs.modPort ..).count ..).branch (fun h => (h.skipPacket ..).leaveStore ..)
    (·.rejectReq ..))

theorem Queued.packetIn (hs : Queued q p s) (p0 : PortN) (pkt : List (BitVec 16)) :
    Queued q p (packetIn s p0 pkt) := by
  unfold Machine.packetIn
  refine hs.ite (((hs.storePkt ..).ite (hs.skipPacket ..)).ite ?_)
  refine Queued.ite ((hs.count ..).ite ((hs.oddReq ..).ite (hs.keepPacket ..))) ?_
  refine Queued.ite (hs.ite (hs.keepPacket ..)) (Queued.ite ?_ (hs.skipPacket ..))
  exact (hs.keepPacket ..).ite ((hs.modPort ..).badPair ..)

theorem Queued.framingError (hs : Queued q p s) (p0 : PortN) : Queued q p (framingError s p0) := by
  unfold Machine.framingError
  exact (((hs.modPort ..).setF ..).count ..).fault ..

theorem Queued.chunksIn (hs : Queued q p s) (n : PortN) (l : List (BitVec 16)) : Queued q p (chunksIn s n l) := by
  induction l generalizing s with
  | nil => exact hs
  | cons c r ih =>
    rw [Machine.chunksIn]
    refine hs.ite ?_
    split
    · exact (ih hs).ite ((hs.framingError ..).ite ((ih (hs.packetIn ..)).ite (ih (hs.modPort ..))))
    · dsimp only
      exact (ih ((hs.modPort ..).packetIn ..)).ite (ih (hs.modPort ..))

theorem Queued.payloadIn (hs : Queued q p s) (n : PortN) (flit : Nat) : Queued q p (payloadIn s n flit) := by
  unfold Machine.payloadIn
  exact (hs.framingError ..).ite ((hs.ite ((hs.modPort ..).chunksIn ..)).ite ((hs.framingError ..).ite
    (hs.chunksIn ..)))

theorem Queued.rxMask (hs : Queued q p s) (p0 : Nat) : Queued q p (rxMask s p0).2 := by
  unfold Machine.rxMask
  dsimp only
  exact hs.modPort ..

theorem Queued.dataBad (hs : Queued q p s) (p0 : PortN) : Queued q p (dataBad s p0) := by
  unfold Machine.dataBad
  exact (hs.count ..).ite ((hs.count ..).modPort ..)

theorem Queued.dataGood (hs : Queued q p s) (p0 : PortN) (flit : Nat) : Queued q p (dataGood s p0 flit) := by
  unfold Machine.dataGood
  exact (((hs.modPort ..).applyAck ..).count ..).payloadIn ..

theorem Queued.lowPowerCtl (hs : Queued q p s) (p0 ctype : Nat) : Queued q p (lowPowerCtl s p0 ctype) := by
  unfold Machine.lowPowerCtl
  exact ((hs.modPort ..).ite ((hs.modPort ..).ite (hs.modPort ..))).ite ((hs.modPort ..).ite (hs.modPort ..))

theorem Queued.ctlFields (hs : Queued q p s) (p0 : PortN) (c : CtlFlit) : Queued q p (ctlFields s p0 c) := by
  unfold Machine.ctlFields
  exact ((((hs.applyAck ..).applyLimits ..).ifElse (·.count ..)).modPort ..).setF ..

theorem Queued.ctlType (hs : Queued q p s) (p0 : PortN) (ctype : Nat) : Queued q p (ctlType s p0 ctype) := by
  unfold Machine.ctlType
  exact hs.ite (((hs.count ..).replayHeld ..).ite ((hs.lowPowerCtl ..).ite (hs.protocolError ..)))

theorem Queued.ctlBody (hs : Queued q p s) (p0 : PortN) (ctype : Nat) (c : CtlFlit) :
    Queued q p (ctlBody s p0 ctype c) := by
  unfold Machine.ctlBody
  exact (((hs.count ..).ctlFields ..).ctlType ..).ite ((hs.count ..).count ..)

theorem Queued.ctlIn (hs : Queued q p s) (p0 : PortN) (ctype : Nat) (c : CtlFlit) :
    Queued q p (ctlIn s p0 ctype c) := by
  unfold Machine.ctlIn
  exact (hs.rxMask ..).ctlBody ..

theorem Queued.execFc (hs : Queued q p s) (p0 : PortN) (ctype : BitVec 5) (c : CtlFlit) :
    QueuedOut q p (execFc p0 ctype c s) := by
  unfold Machine.execFc
  exact (hs.when (hs.ctlIn ..) ..).next

theorem Queued.execNak (hs : Queued q p s) (p0 : PortN) (c : CtlFlit) : QueuedOut q p (execNak p0 c s) := by
  unfold Machine.execNak
  exact (hs.when (hs.ctlIn ..) ..).next

theorem Queued.execLpReq (hs : Queued q p s) (p0 : PortN) (c : CtlFlit) : QueuedOut q p (execLpReq p0 c s) := by
  unfold Machine.execLpReq
  exact (hs.when (hs.ctlIn ..) ..).next

theorem Queued.execLpAck (hs : Queued q p s) (p0 : PortN) (c : CtlFlit) : QueuedOut q p (execLpAck p0 c s) := by
  unfold Machine.execLpAck
  exact (hs.when (hs.ctlIn ..) ..).next

theorem Queued.execLpDeny (hs : Queued q p s) (p0 : PortN) (c : CtlFlit) : QueuedOut q p (execLpDeny p0 c s) := by
  unfold Machine.execLpDeny
  exact (hs.when (hs.ctlIn ..) ..).next

theorem Queued.flitIn (hs : Queued q p s) (p0 : PortN) (raw : Flit) : Queued q p (flitIn s p0 raw) := by
  unfold Machine.flitIn
  exact (hs.rxMask ..).branch (·.ctlBody ..) (fun h => (h.dataGood ..).ite (h.dataBad ..))

theorem Queued.execDataFlitReceived (hs : Queued q p s) (p0 : PortN) (raw : Flit) :
    QueuedOut q p (execDataFlitReceived p0 raw s) := by
  unfold Machine.execDataFlitReceived
  exact ((hs.flitIn ..).ite ((hs.checkPatterns ..).ite hs)).next

theorem Queued.execKs1InActive (hs : Queued q p s) (p0 : PortN) (lanes : BitVec 16) :
    QueuedOut q p (execKs1InActive p0 lanes s) := by
  unfold Machine.execKs1InActive
  exact (hs.when (hs.toRetrain ..) ..).next

theorem Queued.execNakTimeout (hs : Queued q p s) (p0 : PortN) : QueuedOut q p (execNakTimeout p0 s) := by
  unfold Machine.execNakTimeout
  exact (hs.when (hs.modPort ..) ..).next

theorem Queued.execAckTimeout (hs : Queued q p s) (p0 : PortN) : QueuedOut q p (execAckTimeout p0 s) := by
  unfold Machine.execAckTimeout
  exact (hs.when (hs.replayHeld ..) ..).next

theorem Queued.execLpIdleTimeout (hs : Queued q p s) (p0 : PortN) : QueuedOut q p (execLpIdleTimeout p0 s) := by
  unfold Machine.execLpIdleTimeout
  exact (hs.when (hs.modPort ..) ..).next

theorem Queued.execLpReqNoAnswer (hs : Queued q p s) (p0 : PortN) : QueuedOut q p (execLpReqNoAnswer p0 s) := by
  unfold Machine.execLpReqNoAnswer
  exact (hs.when (hs.modPort ..) ..).next

theorem Queued.takeCredit (hs : Queued q p s) (p0 : PortN) (c0 c1 c2 : BitVec 12) :
    Queued q p (takeCredit s p0 c0 c1 c2) := by
  unfold Machine.takeCredit
  dsimp only
  split
  · exact (((hs.received ..).dropPkt ..).applyLimits ..).ite (hs.received ..)
  · exact hs.received ..

theorem Queued.execCredit (hs : Queued q p s) (p0 : PortN) (c0 c1 c2 : BitVec 12) :
    QueuedOut q p (execCredit p0 c0 c1 c2 s) := by
  unfold Machine.execCredit
  exact (hs.when (hs.takeCredit ..) ..).next

theorem Queued.execCreditPacketInsert (hs : Queued q p s) (p0 : PortN) :
    QueuedOut q p (execCreditPacketInsert p0 s) := by
  unfold Machine.execCreditPacketInsert
  exact (hs.when (hs.modPort ..) ..).next

theorem Queued.execUrgencyUpdate (hs : Queued q p s) (p0 : PortN) : QueuedOut q p (execUrgencyUpdate p0 s) := by
  unfold Machine.execUrgencyUpdate
  exact (hs.when (hs.modPort ..) ..).next

theorem Queued.putFlit (hs : Queued q p s) (p0 : Nat) (f : Flit) : Queued q p (putFlit s p0 f) := by
  unfold Machine.putFlit
  exact hs.modPort ..

theorem Queued.sendCtl (hs : Queued q p s) (p0 ctype : Nat) : Queued q p (sendCtl s p0 ctype) := by
  unfold Machine.sendCtl
  exact ((hs.putFlit ..).modPort ..).count ..

theorem Queued.sendData (hs : Queued q p s) (p0 : Nat) (f : Flit) (n : BitVec 10) :
    Queued q p (sendData s p0 f n) := by
  unfold Machine.sendData
  exact hs.putFlit ..

theorem Queued.sendAgain (hs : Queued q p s) (p0 : Nat) (n : BitVec 10) : Queued q p (sendAgain s p0 n) := by
  unfold Machine.sendAgain
  dsimp only
  split
  · exact hs.modPort ..
  · exact (((hs.modPort ..).sendData ..).modPort ..).count ..

theorem Queued.nextPacket {t : State} {n : Nat} {k : List (BitVec 16)} (hs : Queued q p s)
    (h : nextPacket s n = some (k, t)) :
    Queued q p t := by
  unfold Machine.nextPacket at h
  dsimp only at h
  split at h
  · cases h
    exact hs.setPort ..
  · split at h
    · exact ((hs.setPort ..).count ..).ofIfSome h
    · exact (hs.setPort ..).ofIfSome h
    · exact (hs.setPort ..).ofIfSome h
    · exact (hs.setPort ..).ofIfSome h
    · cases h

theorem Queued.anyPacket {t : State} {n : Nat} {k : List (BitVec 16)} (hs : Queued q p s)
    (h : anyPacket s n = some (k, t)) :
    Queued q p t := by
  unfold Machine.anyPacket at h
  split at h
  · rename_i x hx
    cases h
    exact hs.nextPacket hx
  · dsimp only at h
    split at h
    · rename_i k1 t1 hx
      cases h
      exact ((hs.setPort ..).nextPacket hx).modPort ..
    · cases h

theorem Queued.fillFlit (hs : Queued q p s) (n m i : Nat) : Queued q p (fillFlit n m i s).2.2 := by
  induction m generalizing s i with
  | zero => exact hs
  | succ m ih =>
    rw [Machine.fillFlit]
    split
    · exact ih (hs.modPort ..) ..
    · split
      · rename_i k t hk
        exact ih ((hs.anyPacket hk).modPort ..) ..
      · exact ih hs ..

theorem Queued.sendNew (hs : Queued q p s) (n : Nat) : Queued q p (sendNew s n) := by
  unfold Machine.sendNew
  dsimp only
  exact (((hs.fillFlit ..).sendData ..).modPort ..).count ..

theorem Queued.flitOut (hs : Queued q p s) (p0 : Nat) : Queued q p (flitOut s p0) := by
  unfold Machine.flitOut
  dsimp only
  refine Queued.ite ((((hs.count ..).modPort ..).sendCtl ..).count ..) ?_
  split
  · exact ((hs.count ..).modPort ..).sendCtl ..
  · split
    · exact (hs.count ..).sendAgain ..
    · exact ((hs.count ..).sendNew ..).ite ((hs.count ..).sendCtl ..)

theorem Queued.keysOut (hs : Queued q p s) (p0 : Nat) : Queued q p (keysOut s p0) := by
  unfold Machine.keysOut
  exact hs.modPort ..

theorem Queued.patternOut (hs : Queued q p s) (p0 : Nat) : Queued q p (patternOut s p0) := by
  unfold Machine.patternOut
  exact (hs.moveGens ..).modPort ..

theorem Queued.execFlitSlot (hs : Queued q p s) (p0 : PortN) : QueuedOut q p (execFlitSlot p0 s) := by
  unfold Machine.execFlitSlot
  exact (hs.when ((hs.flitOut ..).ite ((hs.keysOut ..).ite ((hs.patternOut ..).ite hs))) ..).next

/-! ## The management bus and the test port -/

theorem Queued.setI3c (hs : Queued q p s) (f : I3c → I3c) : Queued q p (setI3c s f) := by
  unfold Machine.setI3c
  exact hs.update ..

theorem Queued.onI3c {t : State} (hs : Queued q p s) (ht : Queued q p t) : QueuedOut q p (onI3c s t) := by
  unfold Machine.onI3c
  exact (hs.when ht ..).next

theorem Queued.privateWrite (hs : Queued q p s) (b : List Byte) : Queued q p (privateWrite s b) := by
  unfold Machine.privateWrite
  exact hs.ite ((hs.setI3c ..).ite (((hs.setI3c ..).branch (·.wrReg ..) (·.paramFault ..)).ite hs))

theorem Queued.execI3cPrivateWrite (hs : Queued q p s) (bytes : List Byte) :
    QueuedOut q p (execI3cPrivateWrite bytes s) := by
  unfold Machine.execI3cPrivateWrite
  exact hs.onI3c (hs.privateWrite ..) ..

theorem Queued.privateRead (hs : Queued q p s) (n : Nat) : Queued q p (privateRead s n) := by
  unfold Machine.privateRead
  exact hs.setI3c ..

theorem Queued.execI3cPrivateRead (hs : Queued q p s) (n : Nat) : QueuedOut q p (execI3cPrivateRead n s) := by
  unfold Machine.execI3cPrivateRead
  exact hs.onI3c (hs.privateRead ..) ..

theorem Queued.ccc (hs : Queued q p s) (f : I3c → I3c) : QueuedOut q p (ccc s f) := by
  unfold Machine.ccc
  exact hs.onI3c (hs.setI3c ..) ..

theorem Queued.cccGet (hs : Queued q p s) (b : List Byte) : QueuedOut q p (cccGet s b) := by
  unfold Machine.cccGet
  exact hs.ccc ..

theorem Queued.nack (hs : Queued q p s) : Queued q p (nack s) := by
  unfold Machine.nack
  exact hs.setI3c ..

theorem Queued.execEnec (hs : Queued q p s) (events : BitVec 8) : QueuedOut q p (execEnec events s) := by
  unfold Machine.execEnec
  exact hs.ccc ..

theorem Queued.execDisec (hs : Queued q p s) (events : BitVec 8) : QueuedOut q p (execDisec events s) := by
  unfold Machine.execDisec
  exact hs.ccc ..

theorem Queued.execRstdaa (hs : Queued q p s) : QueuedOut q p (execRstdaa s) := by
  unfold Machine.execRstdaa
  exact hs.ccc ..

theorem Queued.execEntdaa (hs : Queued q p s) (addr : BitVec 7) : QueuedOut q p (execEntdaa addr s) := by
  unfold Machine.execEntdaa
  exact hs.onI3c (hs.when (hs.setI3c ..) ..) ..

theorem Queued.execSetdasa (hs : Queued q p s) (static addr : BitVec 7) :
    QueuedOut q p (execSetdasa static addr s) := by
  unfold Machine.execSetdasa
  exact hs.onI3c ((hs.setI3c ..).ite (hs.nack ..)) ..

theorem Queued.execSetnewda (hs : Queued q p s) (addr : BitVec 7) : QueuedOut q p (execSetnewda addr s) := by
  unfold Machine.execSetnewda
  exact hs.onI3c ((hs.setI3c ..).ite (hs.nack ..)) ..

theorem Queued.execSetmwl (hs : Queued q p s) (n : BitVec 16) : QueuedOut q p (execSetmwl n s) := by
  unfold Machine.execSetmwl
  exact hs.ccc ..

theorem Queued.execSetmrl (hs : Queued q p s) (n : BitVec 16) : QueuedOut q p (execSetmrl n s) := by
  unfold Machine.execSetmrl
  exact hs.ccc ..

theorem Queued.execGetpid (hs : Queued q p s) : QueuedOut q p (execGetpid s) := by
  unfold Machine.execGetpid
  exact hs.cccGet ..

theorem Queued.execGetbcr (hs : Queued q p s) : QueuedOut q p (execGetbcr s) := by
  unfold Machine.execGetbcr
  exact hs.cccGet ..

theorem Queued.execGetdcr (hs : Queued q p s) : QueuedOut q p (execGetdcr s) := by
  unfold Machine.execGetdcr
  exact hs.cccGet ..

theorem Queued.execGetstatus (hs : Queued q p s) : QueuedOut q p (execGetstatus s) := by
  unfold Machine.execGetstatus
  exact hs.onI3c ((hs.fresh ..).setI3c ..) ..

theorem Queued.execGetmwl (hs : Queued q p s) : QueuedOut q p (execGetmwl s) := by
  unfold Machine.execGetmwl
  exact hs.cccGet ..

theorem Queued.execGetmrl (hs : Queued q p s) : QueuedOut q p (execGetmrl s) := by
  unfold Machine.execGetmrl
  exact hs.onI3c ((hs.fresh ..).setI3c ..) ..

theorem Queued.execUnsupportedCcc (hs : Queued q p s) (direct : Bool) :
    QueuedOut q p (execUnsupportedCcc direct s) := by
  unfold Machine.execUnsupportedCcc
  exact hs.onI3c ((hs.nack ..).ite hs) ..

theorem Queued.setJtag (hs : Queued q p s) (f : Jtag → Jtag) : Queued q p (setJtag s f) := by
  unfold Machine.setJtag
  exact hs.update ..

theorem Queued.onTest {t : State} (hs : Queued q p s) (ht : Queued q p t) : QueuedOut q p (onTest s t) := by
  unfold Machine.onTest
  exact (hs.when ht ..).next

theorem Queued.bypassed (hs : Queued q p s) : Queued q p (bypassed s) := by
  unfold Machine.bypassed
  exact hs.setJtag ..

theorem Queued.execBypass (hs : Queued q p s) : QueuedOut q p (execBypass s) := by
  unfold Machine.execBypass
  exact hs.onTest (hs.bypassed ..) ..

theorem Queued.execIdcode (hs : Queued q p s) : QueuedOut q p (execIdcode s) := by
  unfold Machine.execIdcode
  exact hs.onTest (hs.setJtag ..) ..

theorem Queued.boundaryScan (hs : Queued q p s) (i : TestInstr) (drive : Bool) (shift : BitVec 13) :
    Queued q p (boundaryScan s i drive shift) := by
  unfold Machine.boundaryScan
  exact (hs.fresh ..).setJtag ..

theorem Queued.execSamplePreload (hs : Queued q p s) (shift : BitVec 13) :
    QueuedOut q p (execSamplePreload shift s) := by
  unfold Machine.execSamplePreload
  exact hs.onTest (hs.boundaryScan ..) ..

theorem Queued.execExtest (hs : Queued q p s) (shift : BitVec 13) : QueuedOut q p (execExtest shift s) := by
  unfold Machine.execExtest
  exact hs.onTest ((hs.bypassed ..).ite (hs.boundaryScan ..)) ..

end Sys2Proof.Machine
end

section
/-! PROOF. No command changes the queue behind it or the part fitted (O5), from its rules. -/

namespace Sys2Proof.Machine

open Sys2Proof

variable {q : List Instr} {p : Part} {s : State}

/-- Every command leaves the queue behind it and the part as they are: a case for each. -/
theorem Queued.exec (h : Queued q p s) (i : Instr) : QueuedOut q p (exec i s) := by
  cases i with
  | read r => exact h.execRead r
  | write r => exact h.execWrite r
  | atomicAdd r => exact h.execAtomicAdd r
  | atomicSwap r => exact h.execAtomicSwap r
  | atomicCompareAndSwap r => exact h.execAtomicCompareAndSwap r
  | atomicAndOr r => exact h.execAtomicAndOr r
  | waitRelease t => exact h.execWaitRelease t
  | commandSlot t => exact h.execCommandSlot t
  | throttleEnd t => exact h.execThrottleEnd t
  | refreshDue t l k => exact h.execRefreshDue t l k
  | refreshWake t => exact h.execRefreshWake t
  | trasmaxExpiry t l g b => exact h.execTrasmaxExpiry t l g b
  | idleClose t l g b => exact h.execIdleClose t l g b
  | codeWordDecode t flips => exact h.execCodeWordDecode t flips
  | cwcWindowExpiry t => exact h.execCwcWindowExpiry t
  | lightEntry t => exact h.execLightEntry t
  | wakeComplete t => exact h.execWakeComplete t
  | quietEntry t => exact h.execQuietEntry t
  | selfRefreshEntry t => exact h.execSelfRefreshEntry t
  | selfRefreshExit t => exact h.execSelfRefreshExit t
  | pwrCfgWrite t v => exact h.execPwrCfgWrite t v
  | refCfgWrite t v => exact h.execRefCfgWrite t v
  | rateReqWrite t v => exact h.execRateReqWrite t v
  | rateQuiesced t => exact h.execRateQuiesced t
  | rateRelockDone t => exact h.execRateRelockDone t
  | trnStart t v => exact h.execTrnStart t v
  | trnAbort t v => exact h.execTrnAbort t v
  | trnStepBoundary t pass => exact h.execTrnStepBoundary t pass
  | regionClear c => exact h.execRegionClear c
  | regionClearDone r => exact h.execRegionClearDone r
  | sweepStart t r => exact h.execSweepStart t r
  | sweepLine t r flips => exact h.execSweepLine t r flips
  | sweepFinish r => exact h.execSweepFinish r
  | initialSweepLine t => exact h.execInitialSweepLine t
  | initialSweepFinish t => exact h.execInitialSweepFinish t
  | groupReinitDone g => exact h.execGroupReinitDone g
  | patrolScrubRow t flips => exact h.execPatrolScrubRow t flips
  | remapRow c => exact h.execRemapRow c
  | remapCopyDone x flips mramOk => exact h.execRemapCopyDone x flips mramOk
  | leafSwap c => exact h.execLeafSwap c
  | swapCopyLine t flips => exact h.execSwapCopyLine t flips
  | swapSwitchPoint t => exact h.execSwapSwitchPoint t
  | swapRetire t => exact h.execSwapRetire t
  | leafSwapAbort c => exact h.execLeafSwapAbort c
  | swapAbandonDone t => exact h.execSwapAbandonDone t
  | scanStart c => exact h.execScanStart c
  | scanLineRead k e flips => exact h.execScanLineRead k e flips
  | scanOutputWrite k bitmap => exact h.execScanOutputWrite k bitmap
  | scanEnd k => exact h.execScanEnd k
  | scanCompletionEvent k => exact h.execScanCompletionEvent k
  | scanAbort c => exact h.execScanAbort c
  | wardWindowStart => exact h.execWardWindowStart
  | windowEvaluation => exact h.execWindowEvaluation
  | linkEnWrite p v => exact h.execLinkEnWrite p v
  | retrain p v => exact h.execRetrain p v
  | detectPoll p clk lanes => exact h.execDetectPoll p clk lanes
  | clockLock p => exact h.execClockLock p
  | clocklockTimeout p => exact h.execClocklockTimeout p
  | keySetReceived p lane bits => exact h.execKeySetReceived p lane bits
  | keySetExchangeComplete p => exact h.execKeySetExchangeComplete p
  | trainRateRelock p => exact h.execTrainRateRelock p
  | trainSweepStep p meas => exact h.execTrainSweepStep p meas
  | ks1Timeout p => exact h.execKs1Timeout p
  | ks2Timeout p => exact h.execKs2Timeout p
  | phyRateReqWrite p v => exact h.execPhyRateReqWrite p v
  | laneLoss p lane => exact h.execLaneLoss p lane
  | clockLaneLoss p => exact h.execClockLaneLoss p
  | retrainLaneTestEnd p rx tx => exact h.execRetrainLaneTestEnd p rx tx
  | retrainTimeout p => exact h.execRetrainTimeout p
  | upwidth p v => exact h.execUpwidth p v
  | adaptationStep p meas => exact h.execAdaptationStep p meas
  | adaptNow p v => exact h.execAdaptNow p v
  | eqCodeMove p lane => exact h.execEqCodeMove p lane
  | eqOvrWrite p lane v => exact h.execEqOvrWrite p lane v
  | eyeScanStart p v => exact h.execEyeScanStart p v
  | eyeScanAbort p v => exact h.execEyeScanAbort p v
  | eyeScanDone p counts lowDens => exact h.execEyeScanDone p counts lowDens
  | lowpowerEntry p => exact h.execLowpowerEntry p
  | wakeRequest p => exact h.execWakeRequest p
  | lowpowerExitDone p failed => exact h.execLowpowerExitDone p failed
  | testModeWrite p v => exact h.execTestModeWrite p v
  | pgClear p v => exact h.execPgClear p v
  | injectionGo p v => exact h.execInjectionGo p v
  | injectionMade p => exact h.execInjectionMade p
  | dataFlitReceived p raw => exact h.execDataFlitReceived p raw
  | ks1InActive p lanes => exact h.execKs1InActive p lanes
  | nakTimeout p => exact h.execNakTimeout p
  | ackTimeout p => exact h.execAckTimeout p
  | fc p ctype c => exact h.execFc p ctype c
  | nak p c => exact h.execNak p c
  | lpReq p c => exact h.execLpReq p c
  | lpAck p c => exact h.execLpAck p c
  | lpDeny p c => exact h.execLpDeny p c
  | lpIdleTimeout p => exact h.execLpIdleTimeout p
  | lpReqNoAnswer p => exact h.execLpReqNoAnswer p
  | credit p c0 c1 c2 => exact h.execCredit p c0 c1 c2
  | creditPacketInsert p => exact h.execCreditPacketInsert p
  | urgencyUpdate p => exact h.execUrgencyUpdate p
  | cmd p c => exact h.execCmd p c
  | commandTake src => exact h.execCommandTake src
  | nop c => exact h.execNop c
  | csrRead c => exact h.execCsrRead c
  | csrWrite c => exact h.execCsrWrite c
  | memRead c => exact h.execMemRead c
  | memWrite c data => exact h.execMemWrite c data
  | initDefine c => exact h.execInitDefine c
  | flowOpen c => exact h.execFlowOpen c
  | flowClose c => exact h.execFlowClose c
  | flowCloseDone f => exact h.execFlowCloseDone f
  | keyDefine c => exact h.execKeyDefine c
  | keyRevoke c => exact h.execKeyRevoke c
  | keyChangeDone k => exact h.execKeyChangeDone k
  | adminSet c => exact h.execAdminSet c
  | classSet c => exact h.execClassSet c
  | guaranteeSet c => exact h.execGuaranteeSet c
  | planSet c => exact h.execPlanSet c
  | pairForm c => exact h.execPairForm c
  | pairFormTimeout => exact h.execPairFormTimeout
  | pairLeave c => exact h.execPairLeave c
  | pairResync c => exact h.execPairResync c
  | pairHomeSet c => exact h.execPairHomeSet c
  | hello p k => exact h.execHello p k
  | helloHeartbeat => exact h.execHelloHeartbeat
  | fwd p k => exact h.execFwd p k
  | replica p k => exact h.execReplica p k
  | pairAck p k => exact h.execPairAck p k
  | clear p k => exact h.execClear p k
  | clearAck p k => exact h.execClearAck p k
  | home p k => exact h.execHome p k
  | homeAck p k => exact h.execHomeAck p k
  | portmap p k => exact h.execPortmap p k
  | portmapAck p k => exact h.execPortmapAck p k
  | fence p k => exact h.execFence p k
  | unfence p k => exact h.execUnfence p k
  | map p k => exact h.execMap p k
  | resyncDone p k => exact h.execResyncDone p k
  | resyncLine p k => exact h.execResyncLine p k
  | resultReadData p k => exact h.execResultReadData p k
  | resultReject p k => exact h.execResultReject p k
  | resyncCopyLine t flips => exact h.execResyncCopyLine t flips
  | mirrorPortLoss p => exact h.execMirrorPortLoss p
  | partnerLossTimeout => exact h.execPartnerLossTimeout
  | divergedCommit mramOk => exact h.execDivergedCommit mramOk
  | unitDisable c => exact h.execUnitDisable c
  | unitEnable c => exact h.execUnitEnable c
  | shutdownComplete u => exact h.execShutdownComplete u
  | unitStartDone u => exact h.execUnitStartDone u
  | powerState c => exact h.execPowerState c
  | holdStopPoint => exact h.execHoldStopPoint
  | calRun c res => exact h.execCalRun c res
  | calStore c mramOk => exact h.execCalStore c mramOk
  | calRestore c => exact h.execCalRestore c
  | cntConfig c => exact h.execCntConfig c
  | logRead c => exact h.execLogRead c
  | eventSubscribe c => exact h.execEventSubscribe c
  | fwLoad c mramOk => exact h.execFwLoad c mramOk
  | fwCommit c mramOk => exact h.execFwCommit c mramOk
  | fwActivate c => exact h.execFwActivate c
  | fwCoreRestart n pass => exact h.execFwCoreRestart n pass
  | coreRestart n v => exact h.execCoreRestart n v
  | ringEnWrite n v => exact h.execRingEnWrite n v
  | ringCommandFetch n bytes => exact h.execRingCommandFetch n bytes
  | replyWrite n => exact h.execReplyWrite n
  | dmaError n => exact h.execDmaError n
  | usb4LinkLoss => exact h.execUsb4LinkLoss
  | bar0Access off size data => exact h.execBar0Access off size data
  | sourceAccept src => exact h.execSourceAccept src
  | eventClaim c src => exact h.execEventClaim c src
  | wfi c => exact h.execWfi c
  | evcSrcCfgWrite src v => exact h.execEvcSrcCfgWrite src v
  | evcEoi v => exact h.execEvcEoi v
  | evcSwRaise v => exact h.execEvcSwRaise v
  | cntClr src v => exact h.execCntClr src v
  | faultDetected b cls detail merged => exact h.execFaultDetected b cls detail merged
  | fltStatAck b v => exact h.execFltStatAck b v
  | shadowEnd b => exact h.execShadowEnd b
  | logFlush mramOk => exact h.execLogFlush mramOk
  | latchTick => exact h.execLatchTick
  | dumpComplete => exact h.execDumpComplete
  | brownOut slope => exact h.execBrownOut slope
  | drainComplete t => exact h.execDrainComplete t
  | mramCommitDone => exact h.execMramCommitDone
  | vinRecovery => exact h.execVinRecovery
  | holdExitVin => exact h.execHoldExitVin
  | holdVinLow => exact h.execHoldVinLow
  | vinHigh => exact h.execVinHigh
  | railSequenceStep => exact h.execRailSequenceStep
  | ivrRampStep r => exact h.execIvrRampStep r
  | senIvrTargetWrite r v => exact h.execSenIvrTargetWrite r v
  | quietBitWrite w v => exact h.execQuietBitWrite w v
  | thermalEvaluation x => exact h.execThermalEvaluation x
  | speedMonitorRead m freq => exact h.execSpeedMonitorRead m freq
  | busDelayStep t => exact h.execBusDelayStep t
  | refclkLoss => exact h.execRefclkLoss
  | refclkReturn => exact h.execRefclkReturn
  | timeLoRead path => exact h.execTimeLoRead path
  | gblLockSet v => exact h.execGblLockSet v
  | registerWrite path off v => exact h.execRegisterWrite path off v
  | readClear path off => exact h.execReadClear path off
  | porstN => exact h.execPorstN
  | wrstN => exact h.execWrstN
  | wrstNRise => exact h.execWrstNRise
  | portLogicReset p => exact h.execPortLogicReset p
  | bootStage => exact h.execBootStage
  | tumblerGroupStart g => exact h.execTumblerGroupStart g
  | i3cPrivateWrite bytes => exact h.execI3cPrivateWrite bytes
  | i3cPrivateRead n => exact h.execI3cPrivateRead n
  | enec events => exact h.execEnec events
  | disec events => exact h.execDisec events
  | rstdaa => exact h.execRstdaa
  | entdaa addr => exact h.execEntdaa addr
  | setdasa static addr => exact h.execSetdasa static addr
  | setnewda addr => exact h.execSetnewda addr
  | setmwl n => exact h.execSetmwl n
  | setmrl n => exact h.execSetmrl n
  | getpid => exact h.execGetpid
  | getbcr => exact h.execGetbcr
  | getdcr => exact h.execGetdcr
  | getstatus => exact h.execGetstatus
  | getmwl => exact h.execGetmwl
  | getmrl => exact h.execGetmrl
  | unsupportedCcc direct => exact h.execUnsupportedCcc direct
  | bypass => exact h.execBypass
  | idcode => exact h.execIdcode
  | samplePreload shift => exact h.execSamplePreload shift
  | extest shift => exact h.execExtest shift
  | flitSlot p => exact h.execFlitSlot p
  | frontStageStart => exact h.execFrontStageStart
  | frontStageStop => exact h.execFrontStageStop
  | holdOkChange ok => exact h.execHoldOkChange ok
  | leafSelfRefresh l z temp => exact h.execLeafSelfRefresh l z temp
  | usb4Reset => exact h.execUsb4Reset

/-- Settles O5: each command is run from a state that holds its own queue and part. -/
theorem commandsLeaveQueueAndPart : Obligations.CommandsLeaveQueueAndPart := by
  intro i s t ht
  have hs : Queued s.pending s.part s := ⟨rfl, rfl⟩
  obtain ⟨hq, hp⟩ := (hs.exec i).queued t ht
  exact ⟨hq, hp⟩

end Sys2Proof.Machine
end

section
/-! PROOF. What the named updates of registers and counters change, and writes of registers of RW and RO bits. -/

namespace Sys2Proof.Machine

open Sys2Proof

/-! ## Named updates -/

theorem wr_eq (s : State) (off : Nat) (v : Reg32) : ∃ c, wr s off v = { s with csr := c } := ⟨_, rfl⟩

theorem setF_eq (s : State) (off hi lo v : Nat) : ∃ c, setF s off hi lo v = { s with csr := c } := ⟨_, rfl⟩

theorem count_eq (s : State) (slot n : Nat) : ∃ c, count s slot n = { s with counts := c } := by
  unfold count
  split
  · exact ⟨s.counts, rfl⟩
  · exact ⟨_, rfl⟩

theorem regsBut_setF (s : State) (off hi lo v : Nat) : RegsBut [off] s (setF s off hi lo v) := regsBut_wr s off _

theorem rd_withPower (s : State) (x : Power) (o : Nat) : rd { s with power := x } o = rd s o := rfl

/-! ## Writes of a register with RW and RO bits -/

/-- A written register of RW and RO bits: each bit is the written one where it is writable and not rejected. -/
theorem bit_rd_wrReg_rw {s : State} {off x m : Nat} (hd : regDef s.part off = some { reset := x, rw := m }) (v : Reg32)
    (rej : Nat) {i : Nat} (hi : i < 32) : bit (rd (wrReg s off v rej) off).toNat i =
      if bit m i && !bit rej i then bit v.toNat i else bit (rd s off).toNat i := by
  rw [bit_rd_wrReg hd v rej hi, bit_written _ _ _ _ _ _ hi]
  simp [bit]

/-- A field of RO bits keeps what it holds. -/
theorem fld_wrReg_ro {s : State} {off x m : Nat} (hd : regDef s.part off = some { reset := x, rw := m }) (v : Reg32)
    (rej : Nat) {hi lo : Nat} (h32 : hi < 32) (hlo : lo ≤ hi) (hro : ∀ i ≤ hi, lo ≤ i → bit m i = false) :
    fld (wrReg s off v rej) off hi lo = fld s off hi lo := by
  refine bits_congr (fun i hi hl => ?_) hlo
  rw [bit_rd_wrReg_rw hd v rej (by omega), hro i hi hl]
  rfl

theorem reg_ext {x y : Reg32} (h : ∀ i, i < 32 → bit x.toNat i = bit y.toNat i) : x = y := BitVec.eq_of_getLsbD_eq h

/-- A register of which every writable bit is rejected keeps what it holds (R17). -/
theorem rd_wrReg_rejected {s : State} {off x m : Nat} (hd : regDef s.part off = some { reset := x, rw := m }) (v : Reg32) :
    rd (wrReg s off v m) off = rd s off :=
  reg_ext fun i hi => by rw [bit_rd_wrReg_rw hd v m hi, Bool.and_not_self, if_neg Bool.false_ne_true]

theorem regsBut_nil_wrReg_rejected {s : State} {off x m : Nat}
    (hd : regDef s.part off = some { reset := x, rw := m }) (v : Reg32) : RegsBut [] s (wrReg s off v m) := by
  intro o _
  by_cases ho : o = off
  · rw [ho, rd_wrReg_rejected hd v]
  · exact regsBut_wrReg s off v m o (by simp [ho])

theorem atReg_of_reaches {s : State} {off : Nat} (h : reaches s off = true) (t : State) : atReg s off t = t := by
  rw [atReg, h, when_true]

/-- A rejection records PARAM (R17). -/
theorem putReg_rejected (s : State) (off : Nat) (v : Reg32) {rej : Nat} (h : rej ≠ 0) :
    putReg s off v rej = paramFault (wrReg s off v rej) (ownerSet off) := if_neg h

end Sys2Proof.Machine
end

section
/-! PROOF. An empty queue: the tick of the timebase, and the regulation window and the latch tick that it ends (O2). -/

namespace Sys2Proof.Machine

open Sys2Proof

/-! ## Regulation windows (R37, R221) -/

/-- A loop of updates of the tumblers changes nothing else. -/
theorem foldUpTo_modTum_eq (n : Nat) (f : Tumbler → Tumbler) (s : State) :
    ∃ x, foldUpTo n (fun s t => s.modTum t f) s = { s with tums := x } := by
  induction n with
  | zero => exact ⟨s.tums, rfl⟩
  | succ n ih =>
    obtain ⟨x, hx⟩ := ih
    exact ⟨_, by rw [foldUpTo_succ, hx]; rfl⟩

/-- A table into which the values `f` of the keys of `l` are put holds `f k` at each of these keys. -/
theorem tget_foldl_tput {α : Type} [DecidableEq α] (d f : Nat → α) {k : Nat} (l : List Nat) (m : Tab α)
    (h : k ∈ l ∨ tget d m k = f k) : tget d (l.foldl (fun m j => tput d m j (f j)) m) k = f k := by
  induction l generalizing m with
  | nil => exact h.resolve_left List.not_mem_nil
  | cons j r ih =>
    refine ih _ ?_
    by_cases hk : k = j
    · exact .inr (by rw [hk, tget_tput_same])
    · rw [tget_tput_other d m _ hk]
      exact h.imp_left (fun hm => (List.mem_cons.1 hm).resolve_left hk)

/-- `w` is the window that follows the one under way in `s`, which `w` keeps as the one before it; the classes have the values
that their registers hold in `s`. -/
structure NextWindow (s : State) (w : Ward) : Prop where
  start : w.winStart = s.ward.winStart + s.ward.winLen
  len : w.winLen = max 1 (fld s (wrdReg 0) 15 0) -
    (s.ward.winStart + s.ward.winLen) % max 1 (fld s (wrdReg 0) 15 0)
  begun : w.begun = false
  served : w.served = []
  prev : ∃ p, w.prev = some p ∧ p.start = s.ward.winStart ∧ p.len = s.ward.winLen ∧ p.admitted = s.ward.admitted
  admitted : ∀ c ∈ configured s, tget (fun _ => Admitted.init) w.admitted c = classRegs s c

/-- The end of a window changes the Ward and the pauses of the tumblers. -/
theorem rotateWindow_eq (s : State) : ∃ x w, rotateWindow s = { s with tums := x, ward := w } ∧ NextWindow s w := by
  obtain ⟨x, hx⟩ := foldUpTo_modTum_eq 64 (fun x => { x with pause := 0 }) s
  refine ⟨x, (rotateWindow s).ward, ?_, rfl, rfl, rfl, rfl, ⟨_, rfl, rfl, rfl, rfl⟩, fun c hc => ?_⟩
  · unfold rotateWindow
    dsimp only
    rw [hx]
  · unfold rotateWindow
    dsimp only
    rw [hx]
    exact tget_foldl_tput _ (classRegs s) _ _ (.inl hc)

theorem wardTick_of_running {s : State} (h : s.now.toNat < s.ward.winStart + s.ward.winLen) : wardTick s = s :=
  if_neg (Nat.not_le.2 h)

theorem wardTick_of_ended {s : State} (h : s.ward.winStart + s.ward.winLen ≤ s.now.toNat) :
    wardTick s = rotateWindow s := if_pos h

/-- The timebase moves at most the window: the Ward and the pauses of the tumblers. -/
theorem wardTick_eq (s : State) : ∃ x w, wardTick s = { s with tums := x, ward := w } := by
  by_cases h : s.ward.winStart + s.ward.winLen ≤ s.now.toNat
  · obtain ⟨x, w, hw, -⟩ := rotateWindow_eq s
    exact ⟨x, w, (wardTick_of_ended h).trans hw⟩
  · exact ⟨s.tums, s.ward, wardTick_of_running (Nat.lt_of_not_le h)⟩

/-! ## Latch ticks of the dump (R37, R426) -/

/-- The timebase of `s` is at a latch tick of a dump that is on. -/
def latchDue (s : State) : Bool := dumpOn s && s.now.toNat % max 1 (rd s (cntReg 4)).toNat == 0

theorem dumpTick_of_due {s : State} (h : latchDue s = true) :
    dumpTick s = { s with dump := { s.dump with edges := s.dump.edges ++ [(s.now.toNat, s.counts)] } } := if_pos h

theorem dumpTick_of_not_due {s : State} (h : latchDue s = false) : dumpTick s = s := if_neg (by rw [latchDue] at h; simp [h])

theorem dumpTick_eq (s : State) : ∃ d, dumpTick s = { s with dump := d } := by
  cases h : latchDue s with
  | true => exact ⟨_, dumpTick_of_due h⟩
  | false => exact ⟨s.dump, dumpTick_of_not_due h⟩

/-! ## The tick -/

/-- The state with its timebase one tick on. -/
def nextTick (s : State) : State := { s with now := s.now + 1 }

theorem tick_eq (s : State) : tick s = dumpTick (wardTick (nextTick s)) := rfl

/-- A tick changes the timebase, and at most the Ward, the pauses of the tumblers and the dump. -/
theorem tick_frame (s : State) : ∃ x w d, tick s = { nextTick s with tums := x, ward := w, dump := d } := by
  obtain ⟨x, w, hw⟩ := wardTick_eq (nextTick s)
  obtain ⟨d, hd⟩ := dumpTick_eq (wardTick (nextTick s))
  exact ⟨x, w, d, by rw [tick_eq, hd, hw]⟩

theorem tick_before_end {s : State} (h : (s.now + 1).toNat < s.ward.winStart + s.ward.winLen) :
    (tick s).ward = s.ward ∧ (tick s).tums = s.tums := by
  rw [tick_eq, wardTick_of_running (s := nextTick s) h]
  obtain ⟨d, hd⟩ := dumpTick_eq (nextTick s)
  rw [hd]
  exact ⟨rfl, rfl⟩

theorem tick_at_end {s : State} (h : s.ward.winStart + s.ward.winLen ≤ (s.now + 1).toNat) : NextWindow s (tick s).ward := by
  obtain ⟨x, w, hw, hn⟩ := rotateWindow_eq (nextTick s)
  obtain ⟨d, hd⟩ := dumpTick_eq (wardTick (nextTick s))
  rw [tick_eq, hd, wardTick_of_ended (s := nextTick s) h, hw]
  exact ⟨hn.start, hn.len, hn.begun, hn.served, hn.prev, hn.admitted⟩

/-- Whether a latch tick is due does not depend on the window. -/
theorem latchDue_wardTick (s : State) : latchDue (wardTick s) = latchDue s := by
  obtain ⟨x, w, hw⟩ := wardTick_eq s
  rw [hw]
  rfl

theorem latchDue_nextTick (s : State) :
    latchDue (nextTick s) = (dumpOn s && (s.now + 1).toNat % max 1 (rd s (cntReg 4)).toNat == 0) := rfl

theorem tick_dump_due {s : State} (h : latchDue (nextTick s) = true) :
    (tick s).dump = { s.dump with edges := s.dump.edges ++ [((s.now + 1).toNat, s.counts)] } := by
  rw [tick_eq, dumpTick_of_due ((latchDue_wardTick _).trans h)]
  obtain ⟨x, w, hw⟩ := wardTick_eq (nextTick s)
  rw [hw]
  rfl

theorem tick_dump_not_due {s : State} (h : latchDue (nextTick s) = false) : (tick s).dump = s.dump := by
  rw [tick_eq, dumpTick_of_not_due ((latchDue_wardTick _).trans h)]
  obtain ⟨x, w, hw⟩ := wardTick_eq (nextTick s)
  rw [hw]
  rfl

/-- Settles O2: the tick changes the window or the dump only where one of them ends there. -/
theorem emptyQueueTicksTheTimebase : Obligations.EmptyQueueTicksTheTimebase := by
  intro s hq
  have hstep : step s = .next (idle s) := by rw [step, hq]
  refine ⟨fun hs => ?_, fun hs => ?_, ?_⟩
  · rw [hstep, idle, hs, when_false]
  · rw [hstep, idle, hs, when_true]
  · intro u now last
    have hframe : u.now = now ∧ u.counts = s.counts ∧ u.ports = s.ports ∧ u.pulses = s.pulses ∧ RegsBut [] s u ∧
        SameMemory s u := by
      obtain ⟨x, w, d, hu⟩ := tick_frame s
      rw [show u = _ from hu]
      exact ⟨rfl, rfl, rfl, rfl, fun _ _ => rfl, sameMemory_of_eq rfl rfl⟩
    obtain ⟨hnow, hcounts, hports, hpulses, hregs, hmem⟩ := hframe
    refine ⟨hnow, hcounts, hports, hpulses, hregs, hmem, tick_before_end, fun hl => ?_, fun hon hd => ?_, fun hno => ?_⟩
    · have hn := tick_at_end hl
      exact ⟨hn.start, hn.len, hn.begun, hn.served, hn.prev, hn.admitted⟩
    · exact tick_dump_due (by rw [latchDue_nextTick, hon, hd]; rfl)
    · refine tick_dump_not_due ?_
      rw [latchDue_nextTick, Bool.and_eq_false_iff, beq_eq_false_iff_ne]
      exact hno

end Sys2Proof.Machine
end

section
/-! PROOF. Requests taken from a port's store: one that fails a check (O11), one that is accepted, and the arrival of its access
(O12). -/

namespace Sys2Proof.Machine

open Sys2Proof

/-! ## Operations on one port -/

/-- What an operation on port `p` keeps: everything but that port and the counters. -/
structure InPort (p : Nat) (s u : State) : Prop where
  eq : ∃ x c, u = { s with ports := x, counts := c }
  ports : PortsBut p s u

namespace InPort

variable {p : Nat} {s u v : State}

theorem refl (p : Nat) (s : State) : InPort p s s := ⟨⟨s.ports, s.counts, rfl⟩, fun _ _ => rfl⟩

theorem setPort (h : InPort p s u) (x : Port) : InPort p s (u.setPort p x) := by
  obtain ⟨⟨y, c, hu⟩, hp⟩ := h
  exact ⟨⟨_, c, by rw [hu]; rfl⟩, fun k hk => (port_setPort_other u x hk).trans (hp k hk)⟩

theorem modPort (h : InPort p s u) (f : Port → Port) : InPort p s (u.modPort p f) := h.setPort _

theorem count (h : InPort p s u) (slot n : Nat) : InPort p s (count u slot n) := by
  refine ⟨?_, fun k hk => (port_count ..).trans (h.ports k hk)⟩
  obtain ⟨y, c, hu⟩ := h.eq
  obtain ⟨d, hd⟩ := count_eq u slot n
  exact ⟨y, d, by rw [hd, hu]⟩

theorem leaveStore (h : InPort p s u) : InPort p s (leaveStore u p) := h.modPort _

theorem dropPkt (h : InPort p s u) (pkt : List (BitVec 16)) : InPort p s (dropPkt u p pkt) := h.modPort _

theorem received (h : InPort p s u) (pkt : List (BitVec 16)) : InPort p s (received u p pkt) := by
  unfold Machine.received
  split
  · exact h
  · exact h.modPort _

theorem rd_eq (h : InPort p s u) (o : Nat) : rd u o = rd s o := by
  obtain ⟨x, c, rfl⟩ := h.eq
  rfl

/-- The checks of a request ask for registers and the part (R63). -/
theorem checkReq_eq (h : InPort p s u) (ty : Nat) (r : Req) : checkReq u ty r = checkReq s ty r := by
  obtain ⟨x, c, rfl⟩ := h.eq
  rfl

end InPort

/-! ## The port's store (R38, R288) -/

/-- The arrival of a packet changes, in its port, the stored packets. -/
theorem port_received (s : State) (p : Nat) (pkt : List (BitVec 16)) :
    ∃ l, (received s p pkt).port p = { s.port p with rxPkts := l } := by
  unfold received
  split
  · exact ⟨(s.port p).rxPkts, rfl⟩
  · exact ⟨_, port_modPort_same ..⟩

/-- The request has left its port's store, and is counted there. -/
def pktTaken (s : State) (ty : Nat) (r : Req) : State :=
  count (dropPkt s r.port (encodeReq ty r)) (cPort r.port 19) 1

theorem inPort_pktTaken (s : State) (ty : Nat) (r : Req) :
    InPort r.port s (pktTaken (received s r.port (encodeReq ty r)) ty r) :=
  (((InPort.refl r.port s).received _).dropPkt _).count _ _

theorem port_pktTaken (s : State) (ty : Nat) (r : Req) : (pktTaken s ty r).port r.port =
    { s.port r.port with rxPkts := (s.port r.port).rxPkts.eraseP (fun e => e.2 == usedBits (encodeReq ty r)) } := by
  rw [pktTaken, port_count]
  exact port_modPort_same ..

/-! ## The request rows (R61 to R69) -/

/-- The commands that take a request, with the type of their packet. -/
def requestRows (r : Req) : List (Instr × Nat) :=
  [(.read r, 0), (.write r, 1), (.atomicAdd r, 2), (.atomicSwap r, 3), (.atomicCompareAndSwap r, 4), (.atomicAndOr r, 5)]

theorem exec_requestRow {i : Instr} {ty : Nat} {r : Req} (h : (i, ty) ∈ requestRows r) (s : State) :
    exec i s = takeRow s ty r := by
  simp only [requestRows, List.mem_cons, Prod.mk.injEq, List.not_mem_nil, or_false] at h
  obtain ⟨rfl, rfl⟩ | ⟨rfl, rfl⟩ | ⟨rfl, rfl⟩ | ⟨rfl, rfl⟩ | ⟨rfl, rfl⟩ | ⟨rfl, rfl⟩ := h <;> rfl

theorem takeRow_of_takes {s : State} {ty : Nat} {r : Req} (h : takesReq s r.port (encodeReq ty r) = true) :
    takeRow s ty r = .next (takeReq s ty r) := by rw [takeRow, h, when_true]

/-- A port that requests are taken from carries flits. -/
theorem carries_of_takesReq {s : State} {p : PortN} {pkt : List (BitVec 16)} (h : takesReq s p pkt = true) :
    carries s p = true := by
  simp only [takesReq, Bool.and_eq_true] at h
  exact h.1.1.2

theorem takeReq_of_not_oldest {s : State} {ty : Nat} {r : Req}
    (h : ∀ e, nextPkt (received s r.port (encodeReq ty r)) r.port 4 = some e → e.2 ≠ usedBits (encodeReq ty r)) :
    takeReq s ty r = received s r.port (encodeReq ty r) := by
  unfold takeReq
  dsimp only
  split
  next e he => exact if_neg (h e he)
  next => rfl

theorem takeReq_of_oldest {s : State} {ty : Nat} {r : Req} {stamp : BitVec 64}
    (h : nextPkt (received s r.port (encodeReq ty r)) r.port 4 = some (stamp, usedBits (encodeReq ty r))) :
    takeReq s ty r = checkedReq (received s r.port (encodeReq ty r)) ty r stamp := by
  unfold takeReq
  dsimp only
  rw [h]
  exact if_pos rfl

theorem checkedReq_of_failed {s : State} {ty : Nat} {r : Req} {st : BitVec 4} (stamp : BitVec 64)
    (hl : 8 ≤ r.len.toNat) (h : checkReq (pktTaken s ty r) ty r = some st) : checkedReq s ty r stamp =
      if (s.port r.port).cmpBuf.length < 512 then rejectReq (pktTaken s ty r) r st else s := by
  unfold checkedReq
  dsimp only
  rw [if_neg (Nat.not_lt.2 hl), show checkReq (count _ _ _) ty r = some st from h]
  rfl

theorem checkedReq_of_passed {s : State} {ty : Nat} {r : Req} (stamp : BitVec 64) (hl : 8 ≤ r.len.toNat)
    (h : checkReq (pktTaken s ty r) ty r = none) :
    checkedReq s ty r stamp = acceptReq (pktTaken s ty r) ty r stamp := by
  unfold checkedReq
  dsimp only
  rw [if_neg (Nat.not_lt.2 hl), show checkReq (count _ _ _) ty r = none from h]
  rfl

/-! ## A request that fails a check (R69) -/

/-- The flow counts a failed request (R54 word 3). -/
def failCounted (s : State) (f : Nat) : State :=
  if f = 0 then s else setF s (flwReg f 3) 31 0 (min (fld s (flwReg f 3) 31 0 + 1) 0xFFFFFFFF)

/-- The completion of a request that fails a check. -/
def rejection (r : Req) (st : BitVec 4) : Cmp :=
  { flow := r.flow, initiator := r.initiator, tag := r.tag, status := st, unwritten := false, corrected := false,
    partner := false, poison := 0, bytes := 0, data := 0 }

theorem failCounted_eq (s : State) (f : Nat) : ∃ c, failCounted s f = { s with csr := c } := by
  unfold failCounted
  split
  · exact ⟨s.csr, rfl⟩
  · exact ⟨_, rfl⟩

theorem regsBut_failCounted (s : State) (f : BitVec 18) :
    RegsBut (if f = 0 then [] else [flwReg f.toNat 3]) s (failCounted s f.toNat) := by
  intro o ho
  unfold failCounted
  by_cases hf : f = 0
  · rw [hf]
    rfl
  · rw [if_neg hf] at ho
    have h0 : f.toNat ≠ 0 := BitVec.toNat_ne.1 hf
    rw [if_neg h0, rd_setF_other _ _ _ _ (List.ne_of_not_mem_cons ho)]

theorem fld_failCounted {f : Nat} (hf : f ≠ 0) (s : State) :
    fld (failCounted s f) (flwReg f 3) 31 0 = min (fld s (flwReg f 3) 31 0 + 1) 0xFFFFFFFF := by
  rw [failCounted, if_neg hf, fld_setF_same _ _ _ _ _ (by decide) (by decide), Nat.mod_eq_of_lt (by omega)]

/-- A completion of the present generation joins the buffer of a port that carries flits. -/
theorem pushCmp_of_carries {s : State} {p : PortN} (h : carries s p = true) (c : Cmp) :
    (pushCmp s (some p) (s.port p).gen c).1 = s.setPort p { s.port p with cmpBuf := (s.port p).cmpBuf ++ [c] } := by
  have hc : ((s.port p).gen = (s.port p).gen && (s.port p).link != .off && (s.port p).link != .latchOut) = true := by
    simp only [carries, Bool.or_eq_true, decide_eq_true_eq] at h
    obtain h | h := h <;> simp [h]
  exact congrArg Prod.fst (if_pos hc)

/-- What is left of a port whose oldest request leaves its store. -/
theorem port_leaveStore (s : State) (p : Nat) :
    ∃ g d, (leaveStore s p).port p = { s.port p with granted := g, creditDue := d } := by
  rw [leaveStore, port_modPort_same]
  split
  · exact ⟨_, _, rfl⟩
  · exact ⟨_, _, rfl⟩

/-- A request that fails a check leaves the store of its port, where it completes; its flow counts the failure. -/
theorem rejectReq_completes {s : State} {r : Req} (h : carries s r.port = true) (st : BitVec 4) :
    InPort r.port (failCounted s r.flow.toNat) (rejectReq s r st) ∧
    ((rejectReq s r st).port r.port).rxPkts = (s.port r.port).rxPkts ∧
    ((rejectReq s r st).port r.port).cmpBuf = (s.port r.port).cmpBuf ++ [rejection r st] := by
  obtain ⟨c, hc⟩ := failCounted_eq s r.flow.toNat
  have hport : (failCounted s r.flow.toNat).port r.port = s.port r.port := by rw [hc]; rfl
  let v := leaveStore (count (failCounted s r.flow.toNat) (cPort r.port (failIndex st)) 1) r.port
  obtain ⟨g, d, hv⟩ : ∃ g d, v.port r.port = { s.port r.port with granted := g, creditDue := d } := by
    rw [← hport, ← port_count (failCounted s r.flow.toNat) (cPort r.port (failIndex st)) 1]
    exact port_leaveStore ..
  have hcar : carries v r.port = true := by
    rw [carries, hv]
    exact h
  have hrej : rejectReq s r st =
      v.setPort r.port { v.port r.port with cmpBuf := (v.port r.port).cmpBuf ++ [rejection r st] } :=
    pushCmp_of_carries hcar _
  rw [hrej, port_setPort_same, hv]
  exact ⟨(((InPort.refl ..).count ..).leaveStore).setPort _, rfl, rfl⟩

theorem exec_failedRequest {i : Instr} {ty : Nat} {r : Req} {s : State} {st : BitVec 4} {stamp : BitVec 64}
    (hi : (i, ty) ∈ requestRows r) (ht : takesReq s r.port (encodeReq ty r) = true) (hl : 8 ≤ r.len.toNat)
    (hc : checkReq s ty r = some st)
    (hn : nextPkt (received s r.port (encodeReq ty r)) r.port 4 = some (stamp, usedBits (encodeReq ty r))) :
    exec i s = .next (if (s.port r.port).cmpBuf.length < 512 then
      rejectReq (pktTaken (received s r.port (encodeReq ty r)) ty r) r st else received s r.port (encodeReq ty r)) := by
  obtain ⟨l, hw⟩ := port_received s r.port (encodeReq ty r)
  rw [exec_requestRow hi s, takeRow_of_takes ht, takeReq_of_oldest hn,
    checkedReq_of_failed stamp hl (((inPort_pktTaken s ty r).checkReq_eq ty r).trans hc), hw]

/-- Settles O11: a request that is not the oldest waits, one that fails a check completes where the buffer has room. -/
theorem rejectedRequestCompletesWithItsStatus : Obligations.RejectedRequestCompletesWithItsStatus := by
  intro i ty r s hi pkt w ht
  refine ⟨fun hn => ?_, fun st stamp hn hl hc => ⟨fun hfull => ?_, fun hroom => ?_⟩⟩
  · rw [exec_requestRow hi s, takeRow_of_takes ht, takeReq_of_not_oldest hn]
  · rw [exec_failedRequest hi ht hl hc hn, if_neg (Nat.not_lt.2 hfull)]
  · obtain ⟨l, hw⟩ : ∃ l, w.port r.port = { s.port r.port with rxPkts := l } := port_received ..
    have hin : InPort r.port s (pktTaken w ty r) := inPort_pktTaken s ty r
    have hport : (pktTaken w ty r).port r.port = _ := port_pktTaken w ty r
    have hcar : carries (pktTaken w ty r) r.port = true := by
      rw [carries, hport, hw]
      exact carries_of_takesReq ht
    obtain ⟨hu, hrx, hcmp⟩ := rejectReq_completes hcar st
    obtain ⟨c, hcount⟩ := failCounted_eq (pktTaken w ty r) r.flow.toNat
    obtain ⟨x, n, hpkt⟩ := hin.eq
    obtain ⟨y, k, hrej⟩ := hu.eq
    have hall : rejectReq (pktTaken w ty r) r st = { s with csr := c, ports := y, counts := k } := by
      rw [hrej, hcount, hpkt]
    refine ⟨_, by rw [exec_failedRequest hi ht hl hc hn, if_pos hroom], ?_, ?_, fun hf => ?_, fun o ho => ?_,
      by rw [hall], by rw [hall], by rw [hall], fun j hj => ?_, ?_⟩
    · rw [hrx, hport]
    · rw [hcmp, hport, hw]
      rfl
    · have h0 : r.flow.toNat ≠ 0 := BitVec.toNat_ne.1 hf
      rw [fld, hu.rd_eq, ← fld, fld_failCounted h0, fld, hin.rd_eq, ← fld]
    · rw [hu.rd_eq, regsBut_failCounted _ _ o ho, hin.rd_eq]
    · have hcp : (failCounted (pktTaken w ty r) r.flow.toNat).port j = (pktTaken w ty r).port j := by rw [hcount]; rfl
      rw [hu.ports j hj, hcp, hin.ports j hj]
    · rw [hall]
      exact sameMemory_of_eq rfl rfl

/-! ## A request that is accepted (R36, R54, R61 to R65, R208) -/

/-- The flow counts an accepted request as outstanding and takes its receive stamp. -/
def flowTook (s : State) (f : Nat) (stamp : BitVec 64) : State :=
  let s := setF s (flwReg f 2) 15 0 (fld s (flwReg f 2) 15 0 + 1)
  count (wr (wr s (flwReg f 6) (BitVec.ofNat 32 stamp.toNat)) (flwReg f 7) (BitVec.ofNat 32 (stamp.toNat / 2 ^ 32)))
    (cXbar 0) 1

/-- The access of an accepted request. -/
def reqAccess (s : State) (ty : Nat) (r : Req) : Access :=
  { newAccess s (kindOf ty r.size) (.flow r.flow) r.addr with
    port := some r.port, gen := (s.port r.port).gen, flow := r.flow, initiator := r.initiator, tag := r.tag,
    cls := BitVec.ofNat 8 (flwClass s r.flow.toNat),
    urg := effUrgency s r.port r.urgency (flwClass s r.flow.toNat), hint := r.hint, be := r.be, data := r.data,
    op1 := r.op1, op2 := r.op2 }

/-- Access `a` is among the accepted requests that have not completed yet. -/
def reqLive (s : State) (r : Req) (a : Access) : State :=
  { s with live := s.live ++ [(a.id, r.flow, BitVec.ofNat 12 (flwKey s r.flow.toNat))] }

/-- What an accepted request leaves before its access arrives. -/
def reqAccepted (s : State) (ty : Nat) (r : Req) : State := reqLive s r (reqAccess s ty r)

theorem acceptReq_eq (s : State) (ty : Nat) (r : Req) (stamp : BitVec 64) : acceptReq s ty r stamp =
    arrive (reqAccepted (flowTook s r.flow.toNat stamp) ty r) (reqAccess (flowTook s r.flow.toNat stamp) ty r) := rfl

theorem flowTook_eq (s : State) (f : Nat) (stamp : BitVec 64) :
    ∃ c n, flowTook s f stamp = { s with csr := c, counts := n } := by
  let u := setF s (flwReg f 2) 15 0 (fld s (flwReg f 2) 15 0 + 1)
  let v := wr u (flwReg f 6) (BitVec.ofNat 32 stamp.toNat)
  let w := wr v (flwReg f 7) (BitVec.ofNat 32 (stamp.toNat / 2 ^ 32))
  obtain ⟨c, hu⟩ : ∃ c, u = { s with csr := c } := wr_eq ..
  obtain ⟨d, hv⟩ : ∃ d, v = { u with csr := d } := wr_eq ..
  obtain ⟨e, hw⟩ : ∃ e, w = { v with csr := e } := wr_eq ..
  obtain ⟨n, hn⟩ := count_eq w (cXbar 0) 1
  exact ⟨e, n, by rw [show flowTook s f stamp = count w (cXbar 0) 1 from rfl, hn, hw, hv, hu]⟩

theorem regsBut_flowTook (s : State) (f : Nat) (stamp : BitVec 64) :
    RegsBut [flwReg f 2, flwReg f 6, flwReg f 7] s (flowTook s f stamp) := by
  intro o ho
  simp only [List.mem_cons, List.not_mem_nil, or_false, not_or] at ho
  obtain ⟨h2, h6, h7⟩ := ho
  rw [flowTook, rd_count, rd_wr_other _ _ h7, rd_wr_other _ _ h6, rd_setF_other _ _ _ _ h2]

theorem flwReg_ne {f j k : Nat} (h : j ≠ k) : flwReg f j ≠ flwReg f k := by
  unfold flwReg
  omega

theorem fld_flowTook (s : State) (f : Nat) (stamp : BitVec 64) :
    fld (flowTook s f stamp) (flwReg f 2) 15 0 = (fld s (flwReg f 2) 15 0 + 1) % 65536 := by
  rw [flowTook, fld_count, fld, rd_wr_other _ _ (flwReg_ne (by decide)), rd_wr_other _ _ (flwReg_ne (by decide)), ← fld]
  exact fld_setF_same _ _ _ _ _ (by decide) (by decide)

/-- Words 6 and 7 of the flow hold the receive stamp. -/
theorem stamp_flowTook (s : State) (f : Nat) (stamp : BitVec 64) :
    rd (flowTook s f stamp) (flwReg f 6) = stamp.extractLsb' 0 32 ∧
    rd (flowTook s f stamp) (flwReg f 7) = stamp.extractLsb' 32 32 := by
  constructor
  · rw [flowTook, rd_count, rd_wr_other _ _ (flwReg_ne (by decide)), rd_wr_same]
    apply BitVec.eq_of_toNat_eq
    simp
  · rw [flowTook, rd_count, rd_wr_same]
    apply BitVec.eq_of_toNat_eq
    simp [Nat.shiftRight_eq_div_pow]

/-! ## The place of an access (R46) -/

theorem bits_field_lt (a i : Nat) : bits a (i + 5) i < 64 := by
  have h : i + 5 - i + 1 = 6 := by omega
  rw [bits, h]
  exact Nat.mod_lt _ (by decide)

theorem foldFields_lt (a n i : Nat) : foldFields a n i < 64 := by
  induction n generalizing i with
  | zero => exact Nat.zero_lt_succ _
  | succ n ih => exact Nat.xor_lt_two_pow (n := 6) (bits_field_lt a i) (ih _)

theorem mapAddr_tumbler_lt (m a : Nat) : (mapAddr m a).1 < 64 := by
  unfold mapAddr
  split
  · exact bits_field_lt a 24
  · exact Nat.xor_lt_two_pow (n := 6) (bits_field_lt ..) (foldFields_lt ..)

/-- An access is made for the tumbler and the line that its address maps to. -/
theorem newAccess_place (s : State) (k : AccKind) (src : Src) (a : BitVec 40) :
    ((newAccess s k src a).tum.val, (newAccess s k src a).line) = lineOf s a.toNat :=
  Prod.ext (Nat.mod_eq_of_lt (mapAddr_tumbler_lt ..)) rfl

theorem reqAccess_place (s : State) (ty : Nat) (r : Req) :
    ((reqAccess s ty r).tum.val, (reqAccess s ty r).line) = lineOf s r.addr.toNat :=
  newAccess_place s (kindOf ty r.size) (.flow r.flow) r.addr

theorem reqAccess_id (s : State) (ty : Nat) (r : Req) : (reqAccess s ty r).id = s.nextId := rfl

/-- Region registers and registers of the Ward are no words of flows. -/
theorem ne_flwReg_of_lt {o : Nat} (h : o < 0x1000000) (f j : Nat) : o ≠ flwReg f j := by
  unfold flwReg
  omega

/-- States that hold the same registers below the flow table map an address alike. -/
theorem lineOf_congr {s u : State} (h : ∀ o, o < 0x1000000 → rd u o = rd s o) (a : BitVec 40) :
    lineOf u a.toNat = lineOf s a.toNat := by
  have ha := a.isLt
  have hr : rd u (rgnReg (regionOf a.toNat)) = rd s (rgnReg (regionOf a.toNat)) := h _ (by unfold rgnReg regionOf; omega)
  rw [lineOf, rgnMode, fld, hr]
  rfl

theorem flwClass_lt (s : State) (f : Nat) : flwClass s f < 256 := Nat.mod_lt _ (by decide)

theorem effUrgency_congr {s u : State} {p c : Nat} (hp : portUrgency u p = portUrgency s p)
    (h : ∀ o, o < 0x1000000 → rd u o = rd s o) (hc : c < 256) (x : BitVec 2) :
    effUrgency u p x c = effUrgency s p x c := by
  have hr : rd u (wrdReg (0x1000 + 16 * c)) = rd s (wrdReg (0x1000 + 16 * c)) := h _ (by unfold wrdReg; omega)
  rw [effUrgency, hp, fld, hr]
  rfl

/-! ## Arrival before the queue (R207) -/

/-- The better of two waiting accesses: the one of higher urgency, and the first of equals. -/
def betterOf (s : State) (m : Option Access) (a : Access) : Option Access :=
  match m with
  | none => some a
  | some b => if (urgency s b).toNat < (urgency s a).toNat then some a else some b

theorem bestWaiting_eq (s : State) (t : Nat) :
    bestWaiting s t = (s.waiting.filter (fun a => a.tum.val == t && canGo s a)).foldl (betterOf s) none := rfl

/-- The better of `m` and `a` is one of them, and no less urgent than either. -/
theorem betterOf_spec {s : State} {m : Option Access} {a b : Access} (h : betterOf s m a = some b) :
    (b = a ∨ m = some b) ∧ (urgency s a).toNat ≤ (urgency s b).toNat ∧
      ∀ c, m = some c → (urgency s c).toNat ≤ (urgency s b).toNat := by
  unfold betterOf at h
  split at h
  next =>
    cases h
    exact ⟨.inl rfl, Nat.le_refl _, fun _ hc => nomatch hc⟩
  next d =>
    split at h
    next hlt =>
      cases h
      exact ⟨.inl rfl, Nat.le_refl _, fun c hc => by cases hc; exact Nat.le_of_lt hlt⟩
    next hle =>
      cases h
      exact ⟨.inr rfl, Nat.le_of_not_lt hle, fun c hc => by cases hc; exact Nat.le_refl _⟩

theorem foldl_betterOf {s : State} (l : List Access) (m : Option Access) {b : Access}
    (h : l.foldl (betterOf s) m = some b) : (b ∈ l ∨ m = some b) ∧
      (∀ c ∈ l, (urgency s c).toNat ≤ (urgency s b).toNat) ∧
      ∀ c, m = some c → (urgency s c).toNat ≤ (urgency s b).toNat := by
  induction l generalizing m with
  | nil =>
    refine ⟨.inr h, fun _ hc => absurd hc List.not_mem_nil, fun c hc => ?_⟩
    cases hc.symm.trans h
    exact Nat.le_refl _
  | cons a r ih =>
    obtain ⟨hmem, hr, hle⟩ := ih _ h
    obtain ⟨d, hd⟩ : ∃ d, betterOf s m a = some d := by
      unfold betterOf
      split
      · exact ⟨a, rfl⟩
      · split <;> exact ⟨_, rfl⟩
    obtain ⟨hfrom, ha, hm⟩ := betterOf_spec hd
    have hdb := hle d hd
    refine ⟨?_, fun c hc => ?_, fun c hc => (hm c hc).trans hdb⟩
    · obtain hb | hb := hmem
      · exact .inl (List.mem_cons_of_mem a hb)
      · cases hd.symm.trans hb
        exact hfrom.imp_left (fun he => by rw [he]; exact List.mem_cons_self)
    · obtain rfl | hc := List.mem_cons.1 hc
      · exact ha.trans hdb
      · exact hr c hc

theorem bestWaiting_spec {s : State} {t : Tum} {b : Access} (h : bestWaiting s t = some b) :
    b ∈ s.waiting ∧ canGo s b = true ∧
      ∀ c ∈ s.waiting, c.tum = t → canGo s c = true → (urgency s c).toNat ≤ (urgency s b).toNat := by
  rw [bestWaiting_eq] at h
  obtain ⟨hmem, hle, -⟩ := foldl_betterOf _ _ h
  have hb := hmem.resolve_right (fun hn => nomatch hn)
  rw [List.mem_filter, Bool.and_eq_true] at hb
  obtain ⟨hw, -, hgo⟩ := hb
  refine ⟨hw, hgo, fun c hc ht hcan => hle c (List.mem_filter.2 ⟨hc, ?_⟩)⟩
  rw [hcan, ht, beq_self_eq_true, Bool.and_self]

/-- The state in which access `a` waits before the queue. -/
def arrived (s : State) (a : Access) : State := { s with waiting := s.waiting ++ [a], nextId := s.nextId + 1 }

theorem arrive_of_best {s : State} {a b : Access} (h : bestWaiting (arrived s a) a.tum = some b) (hid : b.id = a.id) :
    arrive s a = release (arrived s a) a := by
  unfold arrived at h ⊢
  unfold arrive
  dsimp only
  rw [h]
  exact if_pos hid

theorem arrive_of_not_best {s : State} {a : Access} (h : ∀ b, bestWaiting (arrived s a) a.tum = some b → b.id ≠ a.id) :
    arrive s a = count (arrived s a) (cTum a.tum 32) 1 := by
  unfold arrive
  dsimp only
  split
  next b hb => exact if_neg (h b hb)
  next => rfl

/-! ## The state in which an accepted request's access arrives -/

/-- The request has left its port's store and its flow has taken it. -/
def reqTook (s : State) (ty : Nat) (r : Req) (stamp : BitVec 64) : State :=
  flowTook (pktTaken (received s r.port (encodeReq ty r)) ty r) r.flow.toNat stamp

theorem exec_acceptedRequest {i : Instr} {ty : Nat} {r : Req} {s : State} {stamp : BitVec 64}
    (hi : (i, ty) ∈ requestRows r) (ht : takesReq s r.port (encodeReq ty r) = true) (hl : 8 ≤ r.len.toNat)
    (hc : checkReq s ty r = none)
    (hn : nextPkt (received s r.port (encodeReq ty r)) r.port 4 = some (stamp, usedBits (encodeReq ty r))) :
    exec i s = .next (arrive (reqAccepted (reqTook s ty r stamp) ty r) (reqAccess (reqTook s ty r stamp) ty r)) := by
  rw [exec_requestRow hi s, takeRow_of_takes ht, takeReq_of_oldest hn,
    checkedReq_of_passed stamp hl (((inPort_pktTaken s ty r).checkReq_eq ty r).trans hc), acceptReq_eq, reqTook]

section

variable (s : State) (ty : Nat) (r : Req) (stamp : BitVec 64)

theorem reqTook_eq : ∃ c x n, reqTook s ty r stamp = { s with csr := c, ports := x, counts := n } := by
  obtain ⟨x, k, hv⟩ := (inPort_pktTaken s ty r).eq
  obtain ⟨c, n, hu⟩ := flowTook_eq (pktTaken (received s r.port (encodeReq ty r)) ty r) r.flow.toNat stamp
  exact ⟨c, x, n, by rw [reqTook, hu, hv]⟩

theorem port_reqTook (j : Nat) :
    (reqTook s ty r stamp).port j = (pktTaken (received s r.port (encodeReq ty r)) ty r).port j := by
  obtain ⟨c, n, hu⟩ := flowTook_eq (pktTaken (received s r.port (encodeReq ty r)) ty r) r.flow.toNat stamp
  rw [reqTook, hu]
  rfl

theorem regsBut_reqTook :
    RegsBut [flwReg r.flow.toNat 2, flwReg r.flow.toNat 6, flwReg r.flow.toNat 7] s (reqTook s ty r stamp) :=
  fun o ho => (regsBut_flowTook _ _ stamp o ho).trans ((inPort_pktTaken s ty r).rd_eq o)

theorem rd_reqTook_low (o : Nat) (ho : o < 0x1000000) : rd (reqTook s ty r stamp) o = rd s o := by
  refine regsBut_reqTook s ty r stamp o ?_
  simp [ne_flwReg_of_lt ho]

/-- The identity and the class of the flow stay. -/
theorem rd_reqTook_flow {j : Nat} (hj : j < 2) :
    rd (reqTook s ty r stamp) (flwReg r.flow.toNat j) = rd s (flwReg r.flow.toNat j) := by
  refine regsBut_reqTook s ty r stamp _ ?_
  simp [flwReg_ne (show j ≠ 2 by omega), flwReg_ne (show j ≠ 6 by omega), flwReg_ne (show j ≠ 7 by omega)]

theorem flwClass_reqTook : flwClass (reqTook s ty r stamp) r.flow.toNat = flwClass s r.flow.toNat := by
  rw [flwClass, fld, rd_reqTook_flow _ _ _ _ (by decide), flwClass, fld]

theorem flwKey_reqTook : flwKey (reqTook s ty r stamp) r.flow.toNat = flwKey s r.flow.toNat := by
  rw [flwKey, fld, rd_reqTook_flow _ _ _ _ (by decide), flwKey, fld]

theorem portUrgency_reqTook : portUrgency (reqTook s ty r stamp) r.port = portUrgency s r.port := by
  obtain ⟨l, hl⟩ := port_received s r.port (encodeReq ty r)
  rw [portUrgency, carries, port_reqTook, port_pktTaken, hl]
  rfl

theorem reqAccess_reqTook_id : (reqAccess (reqTook s ty r stamp) ty r).id = s.nextId := by
  obtain ⟨c, x, n, h⟩ := reqTook_eq s ty r stamp
  rw [reqAccess_id, h]

theorem reqAccess_reqTook_urg : (reqAccess (reqTook s ty r stamp) ty r).urg =
    effUrgency s r.port r.urgency (flwClass s r.flow.toNat) := by
  change effUrgency _ _ _ (flwClass _ _) = _
  rw [flwClass_reqTook,
    effUrgency_congr (portUrgency_reqTook ..) (rd_reqTook_low s ty r stamp) (flwClass_lt ..)]

theorem reqAccepted_reqTook_eq : ∃ c x n, reqAccepted (reqTook s ty r stamp) ty r = { s with
    csr := c, ports := x, counts := n
    live := s.live ++ [(s.nextId, r.flow, BitVec.ofNat 12 (flwKey s r.flow.toNat))] } := by
  obtain ⟨c, x, n, h⟩ := reqTook_eq s ty r stamp
  exact ⟨c, x, n, by rw [reqAccepted, reqLive, flwKey_reqTook, reqAccess_reqTook_id, h]⟩

end

/-- Settles O12: taking an accepted request leaves alone what its access and its checks read of registers and ports. -/
theorem acceptedRequestBecomesAnAccess : Obligations.AcceptedRequestBecomesAnAccess := by
  refine ⟨fun i ty r s stamp hi ht hl hc hn => ?_,
    fun s a => ⟨fun ⟨b, hb, hid⟩ => arrive_of_best hb hid, arrive_of_not_best, fun b => bestWaiting_spec⟩⟩
  obtain ⟨c, x, n, hall⟩ := reqAccepted_reqTook_eq s ty r stamp
  refine ⟨_, _, exec_acceptedRequest hi ht hl hc hn, reqAccess_reqTook_id .., rfl, rfl, rfl, rfl, rfl, rfl, rfl, rfl, rfl,
    rfl, rfl, rfl, ?_, ?_, reqAccess_reqTook_urg .., by rw [hall], ?_, ?_, ?_, ?_, by rw [hall], by rw [hall],
    fun j hj => ?_, ?_⟩
  · exact (reqAccess_place ..).trans (lineOf_congr (rd_reqTook_low s ty r stamp) r.addr)
  · exact congrArg (BitVec.ofNat 8) (flwClass_reqTook ..)
  · exact (fld_flowTook ..).trans (by rw [fld, (inPort_pktTaken s ty r).rd_eq, ← fld])
  · exact (stamp_flowTook ..).1
  · exact (stamp_flowTook ..).2
  · exact regsBut_reqTook s ty r stamp
  · exact (port_reqTook s ty r stamp j).trans ((inPort_pktTaken s ty r).ports j hj)
  · rw [hall]
    exact sameMemory_of_eq rfl rfl

end Sys2Proof.Machine
end

section
/-! PROOF. What the reaction of the Sentinel's fault set keeps of the reference clock, the event pulses and the memories. -/

namespace Sys2Proof.Machine

open Sys2Proof

/-- No fault set lies among the global registers. -/
theorem fltBase_ge (b : FltSet) : 0xFFE00 ≤ fltBase b := by
  cases b <;> simp only [fltBase, tumReg, scnReg, fpReg, lfReg, coreReg] <;> omega

/-- From `s` to `u` the event pulses, the memories and GBL_TB_STAT stay. -/
structure RefKept (s u : State) : Prop where
  pulses : u.pulses = s.pulses
  dram : u.dram = s.dram
  mram : u.mram = s.mram
  tbStat : rd u 0x28 = rd s 0x28

namespace RefKept

theorem refl (s : State) : RefKept s s := ⟨rfl, rfl, rfl, rfl⟩

variable {s u v : State}

theorem sameMemory (h : RefKept s u) : SameMemory s u := sameMemory_of_eq h.dram h.mram

theorem flag_eq (h : RefKept s u) (i : Nat) : flag u 0x28 i = flag s 0x28 i := by rw [flag, h.tbStat, flag]

/-! ## Choices and loops -/

theorem ite {c : Prop} [Decidable c] (hu : RefKept s u) (hv : RefKept s v) : RefKept s (if c then u else v) := by
  split
  · exact hu
  · exact hv

theorem ifThen {c : Prop} [Decidable c] (hu : RefKept s u) (hv : RefKept s u → RefKept s v) :
    RefKept s (if c then v else u) := (hv hu).ite hu

theorem ifElse {c : Prop} [Decidable c] (hu : RefKept s u) (hv : RefKept s u → RefKept s v) :
    RefKept s (if c then u else v) := hu.ite (hv hu)

theorem foldl {β : Type} {f : State → β → State} (h : RefKept s u) (hf : ∀ u b, RefKept s u → RefKept s (f u b))
    (l : List β) : RefKept s (l.foldl f u) := by
  induction l generalizing u with
  | nil => exact h
  | cons b r ih => exact ih (hf u b h)

theorem foldUpTo {f : State → Nat → State} (h : RefKept s u) (hf : ∀ u b, RefKept s u → RefKept s (f u b)) (n : Nat) :
    RefKept s (foldUpTo n f u) := h.foldl hf _

/-! ## Shared operations -/

/-- An operation that changes none of what is kept. -/
theorem of_eq (h : RefKept s u) (hp : v.pulses = u.pulses) (hd : v.dram = u.dram) (hm : v.mram = u.mram)
    (hr : rd v 0x28 = rd u 0x28) : RefKept s v :=
  ⟨hp.trans h.pulses, hd.trans h.dram, hm.trans h.mram, hr.trans h.tbStat⟩

/-- An update of fields that are not kept. -/
theorem update (h : RefKept s u) (pending : List Instr)
    (now : BitVec 64) (free : Nat) (shadow : Tab (Option Reg32)) (readOut : Tab Reg32)
    (sram : List Host.Cell) (mramFenced : Bool) (tums : Tab Tumbler) (leaves : Tab LeafS)
    (waiting : List Access) (live : List (Nat × BitVec 18 × BitVec 12)) (nextId : Nat) (sweeps : List SweepT)
    (clears : List ClearCmd) (reinits : List Reinit) (engines : Tab Engine) (scans : Tab (Option Scan)) (ward : Ward)
    (ports : Tab Port) (pair : Pair) (cmds : Cmds) (rings : Tab RingS) (dmas : List Dma) (usb : Usb)
    (cores : Tab Core) (update : Option Update) (flts : Tab FltS)
    (shadows : List Shadow) (logTail : List Entry) (logSeq : BitVec 32) (counts : Tab (BitVec 48)) (dump : Dump)
    (power : Power) (thermal : Thermal) (calib : Calib) (i3c : I3c) (jtag : Jtag) :
    RefKept s (State.mk u.part pending now free u.csr shadow readOut u.dram sram u.mram mramFenced tums leaves waiting
      live nextId sweeps clears reinits engines scans ward ports pair cmds rings dmas usb cores update u.pulses flts
      shadows logTail logSeq counts dump power thermal calib i3c jtag) := ⟨h.pulses, h.dram, h.mram, h.tbStat⟩

theorem wr (h : RefKept s u) {off : Nat} (v : Reg32) (ho : 0x28 ≠ off) : RefKept s (wr u off v) :=
  h.of_eq rfl rfl rfl (rd_wr_other _ _ ho)

theorem setF (h : RefKept s u) {off : Nat} (hi lo x : Nat) (ho : 0x28 ≠ off) : RefKept s (setF u off hi lo x) :=
  h.wr _ ho

theorem count (h : RefKept s u) (slot n : Nat) : RefKept s (count u slot n) :=
  h.of_eq (count_pulses ..) (count_dram ..) (count_mram ..) (rd_count ..)

theorem setPort (h : RefKept s u) (p : Nat) (x : Port) : RefKept s (u.setPort p x) := h.update ..

theorem modPort (h : RefKept s u) (p : Nat) (f : Port → Port) : RefKept s (u.modPort p f) := h.setPort ..

theorem setFlt (h : RefKept s u) (b : FltSet) (x : FltS) : RefKept s (u.setFlt b x) := h.update ..

theorem setRing (h : RefKept s u) (n : Nat) (x : RingS) : RefKept s (u.setRing n x) := h.update ..

theorem setCore (h : RefKept s u) (n : Nat) (x : Core) : RefKept s (u.setCore n x) := h.update ..

theorem setPhy (h : RefKept s u) (p : Nat) (f : PhyS → PhyS) : RefKept s (setPhy u p f) := h.modPort ..

theorem fresh (h : RefKept s u) : RefKept s (fresh u).2 := h.update ..

theorem dropTaken (h : RefKept s u) (src : CmdSrc) : RefKept s (dropTaken u src) := h.update ..

theorem openShadow (h : RefKept s u) (b : FltSet) (fatal : Bool) : RefKept s (openShadow u b fatal) :=
  h.update ..

theorem ibi (h : RefKept s u) (b : Byte) (i : Nat) : RefKept s (ibi u b i) := by
  unfold Machine.ibi
  exact (h.update ..).ite h

theorem setAlert (h : RefKept s u) (a : Bool) : RefKept s (setAlert u a) := by
  have hp : RefKept s { u with power := { u.power with alert := a } } := h.update ..
  exact (hp.ibi ..).ite hp

/-! ## Recording of a fault (R403 to R407) -/

theorem pushEntry (h : RefKept s u) (b : FltSet) (c sev : Nat) (conseq esc : Bool) (detail : BitVec 96) (n : Nat) :
    RefKept s (pushEntry u b c sev conseq esc detail n) := h.update ..

theorem setStat (h : RefKept s u) (b : FltSet) (hi lo x : Nat) : RefKept s (Machine.setF u (fltBase b) hi lo x) :=
  h.setF _ _ _ (Nat.ne_of_lt (lt_of_lt_of_le (by decide) (fltBase_ge b)))

theorem setSev (h : RefKept s u) (b : FltSet) (c sev : Nat) (cons : Bool) : RefKept s (setSev u b c sev cons) := by
  have := fltBase_ge b
  exact h.setF _ _ _ (by unfold sevReg; omega)

theorem record (h : RefKept s u) (b : FltSet) (c : Nat) (detail : BitVec 96) (n : Nat) :
    RefKept s (record u b c detail n).1 := by
  have hcond : RefKept s (if (faultClass b c).1 = true then
      u.setFlt b { u.flt b with cond := (u.flt b).cond ||| BitVec.ofNat 24 (2 ^ c) } else u) := (h.setFlt ..).ite h
  have hpair {v : State} (hv : RefKept s v) : RefKept s (Machine.setF v (pairReg 0x18) 4 4 1) :=
    hv.setF _ _ _ (by decide)
  unfold Machine.record
  dsimp only
  split
  · exact hcond.count ..
  · refine RefKept.ifThen (RefKept.ifThen ?_ (·.setAlert ..)) hpair
    exact (((hcond.pushEntry ..).setStat ..).setSev ..).update ..
  · refine RefKept.ifThen (RefKept.ifThen ?_ hpair) (·.setAlert ..)
    exact ((hcond.pushEntry ..).setStat ..).setSev ..

theorem recordQuiet (h : RefKept s u) (b : FltSet) (c : Nat) (detail : BitVec 96) (n : Nat) :
    RefKept s (recordQuiet u b c detail n) := h.record ..

/-! ## A drain (R447) -/

theorem sendPair (h : RefKept s u) (p ty : Nat) (k : PairPkt) : RefKept s (sendPair u p ty k) := by
  unfold Machine.sendPair
  exact h.ite ((h.modPort ..).update ..)

theorem helloAll (h : RefKept s u) (sub reason : Nat) : RefKept s (helloAll u sub reason) := by
  unfold Machine.helloAll
  exact h.foldl (fun _ _ hu => hu.sendPair ..) _

theorem beginDrain (h : RefKept s u) (c : DrainCause) : RefKept s (beginDrain u c) := by
  unfold Machine.beginDrain
  exact ((((h.setF _ _ _ (by decide)).setF _ _ _ (by decide)).helloAll ..).foldl (fun _ _ hu => hu.modPort ..) _).update ..

/-! ## A Fatal stop (R401) -/

theorem setPortF (h : RefKept s u) (p o hi lo x : Nat) : RefKept s (Machine.setF u (fpReg p o) hi lo x) :=
  h.setF _ _ _ (by unfold fpReg; omega)

theorem endEye (h : RefKept s u) (p : Nat) : RefKept s (endEye u p) := by
  unfold Machine.endEye
  dsimp only
  refine h.ite (RefKept.setPhy (RefKept.ifThen ?_ (·.setPortF ..)) ..)
  refine ((RefKept.setPortF ?_ ..).setPortF ..).setPortF ..
  split
  · exact h
  · exact h.fresh

theorem dropInjection (h : RefKept s u) (p : Nat) : RefKept s (dropInjection u p) := by
  unfold Machine.dropInjection
  exact (h.setPortF ..).ite h

theorem portRegsOff (h : RefKept s u) (p : Nat) : RefKept s (portRegsOff u p) := by
  have hwr {v : State} (hv : RefKept s v) (o : Nat) (x : Reg32) : RefKept s (Machine.wr v (fpReg p o) x) :=
    hv.wr _ (by unfold fpReg; omega)
  unfold Machine.portRegsOff
  exact ((hwr ((hwr h ..).foldUpTo (fun _ _ hu => hu.setPortF ..) _) ..).endEye ..).dropInjection ..

theorem portReset (h : RefKept s u) (p : PortN) (dest : LinkState) : RefKept s (portReset u p dest) := by
  unfold Machine.portReset
  exact ((((((h.openShadow ..).count ..).count ..).dropTaken ..).ifElse (fun h =>
    (h.count ..).recordQuiet ..)).portRegsOff ..).setPort ..

theorem stopRing (h : RefKept s u) (n : RingN) : RefKept s (stopRing u n) := by
  unfold Machine.stopRing
  exact ((h.setRing ..).dropTaken ..).ifElse (fun h => (h.setF _ _ _ (by unfold ringReg; omega)).count ..)

theorem stopRings (h : RefKept s u) : RefKept s (stopRings u) := by
  unfold Machine.stopRings
  exact h.foldl (fun _ _ hu => (hu.stopRing ..).setRing ..) _

theorem fatalStop (h : RefKept s u) (b : FltSet) : RefKept s (fatalStop u b) := by
  unfold Machine.fatalStop
  exact (((((((h.openShadow ..).update ..).wr _ (by decide)).foldl (fun _ _ hu => hu.portReset ..) _).stopRings).foldl
    (fun _ _ hu => hu.setCore ..) _).setAlert ..)

/-! ## Faults of the Sentinel (R459, R485) -/

theorem senFault (h : RefKept s u) (c : Nat) (detail : BitVec 96) (n : Nat) : RefKept s (fault u .sen c detail n) := by
  have hr := h.record .sen c detail n
  unfold Machine.fault react
  dsimp only
  exact hr.ite (((hr.beginDrain ..).ite hr).ite (hr.ite (hr.fatalStop ..)))

theorem condEnd (h : RefKept s u) (b : FltSet) (c : Nat) : RefKept s (condEnd u b c) := h.setFlt ..

theorem evalRefLoss (h : RefKept s u) : RefKept s (evalRefLoss u) := by
  unfold Machine.evalRefLoss
  exact (h.ite (h.senFault ..)).ite (h.condEnd ..)

end RefKept

end Sys2Proof.Machine
end

section
/-! PROOF. Front stage, rail sequence, set-points, reference clock and QUIET bits (O49). -/

namespace Sys2Proof.Machine

open Sys2Proof

/-! ## Registers of the Sentinel -/

/-- Below the fault sets of the IVR controllers the window of the Sentinel holds no fault set. -/
theorem fltAt_sen (p : Part) {o : Nat} (ho : o < 0xFE000) : fltAt p (senReg o) = none := by
  unfold fltAt senReg
  dsimp only
  rw [if_neg (by omega), if_neg (by omega), if_neg (by omega), if_neg (by omega), if_neg (by omega), if_neg (by omega)]
  refine (congrArg List.head? (List.filterMap_eq_nil_iff.2 fun b hb => if_neg ?_)).trans rfl
  simp only [List.mem_cons, List.not_mem_nil, or_false] at hb
  obtain rfl | rfl | rfl | rfl | rfl | rfl | rfl | rfl | rfl | rfl := hb <;> simp only [fltBase] <;> omega

theorem regDef_sen (p : Part) {o : Nat} (ho : o < 0xFE000) : regDef p (senReg o) = senRegDef o := by
  have hoff : senReg o - 0x100000 = o := Nat.add_sub_cancel_left ..
  rw [regDef, fltAt_sen p ho]
  dsimp only
  rw [if_neg (by unfold senReg; omega), if_pos (by unfold senReg; omega), hoff]

/-- SEN_IVR_SET of a rail: TARGET is writable, the set-point in force is not (R438). -/
theorem regDef_ivrSet (p : Part) (r : Fin 8) :
    ∃ x, regDef p (senReg (0x100 + 4 * r)) = some { reset := x, rw := 0xFFF } := by
  have hdef : ∀ r : Fin 8, senRegDef (0x100 + 4 * r) =
      some { reset := railNominal r * 0x10000 + railNominal r, rw := 0xFFF } := by decide
  exact ⟨_, (regDef_sen p (by omega)).trans (hdef r)⟩

/-- SEN_QUIET: a bit for each tumbler in two words, and one for each port (R475). -/
theorem regDef_quiet (p : Part) (w : Fin 3) :
    regDef p (senReg (0x20 + 4 * w)) = some { rw := if w.val < 2 then 0xFFFFFFFF else 0xFFFF } := by
  have hdef : ∀ w : Fin 3, senRegDef (0x20 + 4 * w) = some { rw := if w.val < 2 then 0xFFFFFFFF else 0xFFFF } := by decide
  exact (regDef_sen p (by omega)).trans (hdef w)

theorem ivrSet_ne {r k : Nat} (h : k ≠ r) : senReg (0x100 + 4 * k) ≠ senReg (0x100 + 4 * r) := by
  unfold senReg
  omega

/-! ## Front stage (R436, R440) -/

theorem frontStageStart_running {s : State} (h : s.power.mode ≠ .off) :
    exec .frontStageStart s = .next { s with power := { s.power with front := true } } :=
  congrArg Host.Outcome.next (if_neg h)

theorem frontStageStart_cold {s : State} (h : s.power.mode = .off) : Completes .frontStageStart s (fun u =>
    u.power.mode = .on ∧ u.power.front = true ∧ u.power.railRow = 0 ∧ u.now = 0 ∧ fld u 0x40 3 0 = 0 ∧
    u.mram = s.mram) :=
  ⟨_, congrArg Host.Outcome.next (if_pos h), rfl, rfl, rfl, rfl, fld_setF_same _ _ _ _ _ (by decide) (by decide), rfl⟩

theorem frontStageStop_unheld {s : State} (h : ∀ c l, s.power.mode ≠ .hold c l) :
    Completes .frontStageStop s (fun u => u.power.mode = .off ∧ u.power.front = false ∧ u.mram = s.mram ∧
      ∀ a, dramByte u a = 0) := by
  have hoff : exec .frontStageStop s = .next (powerOff s) := by
    change execFrontStageStop s = _
    unfold execFrontStageStop
    split
    next c l hm => exact absurd hm (h c l)
    next => rfl
  exact ⟨_, hoff, rfl, rfl, rfl, fun _ => rfl⟩

theorem frontStageStop_held {s : State} {c : DrainCause} {l : Bool} (h : s.power.mode = .hold c l) :
    exec .frontStageStop s = .next { s with power := { s.power with mode := .hold c true, front := false } } := by
  change execFrontStageStop s = _
  rw [execFrontStageStop, h]

/-! ## Rail sequence (R440) -/

/-- Rail `r`, whose SEN_IVR_SET is `o`, comes up with its TARGET as the set-point in force. -/
def railBrought (s : State) (r o : Nat) : State :=
  let t := setF s o 27 16 (fld s o 11 0)
  { t with power := { t.power with railsOn := t.power.railsOn ||| BitVec.ofNat 8 (2 ^ r) } }

theorem railUp_of_on {s : State} {r : Nat} (h : bit s.power.railsOn.toNat r = true) : railUp s r = s := by
  unfold railUp
  dsimp only
  rw [if_pos h]

theorem railUp_of_off {s : State} {r : Nat} (h : bit s.power.railsOn.toNat r = false) :
    railUp s r = railBrought s r (senReg (0x100 + 4 * r)) := by
  have hn : ¬ bit s.power.railsOn.toNat r = true := by simp [h]
  exact if_neg hn

theorem railBrought_eq (s : State) (r o : Nat) : ∃ c, railBrought s r o =
    { s with csr := c, power := { s.power with railsOn := s.power.railsOn ||| BitVec.ofNat 8 (2 ^ r) } } := by
  obtain ⟨c, hc⟩ := setF_eq s o 27 16 (fld s o 11 0)
  exact ⟨c, by rw [railBrought, hc]⟩

theorem rd_railBrought (s : State) (r o k : Nat) : rd (railBrought s r o) k = rd (setF s o 27 16 (fld s o 11 0)) k := by
  rw [railBrought, rd_withPower]

/-- A rail that comes up changes registers and the set of the rails that are up. -/
theorem railUp_eq (s : State) (r : Nat) :
    ∃ c x, railUp s r = { s with csr := c, power := { s.power with railsOn := x } } := by
  cases h : bit s.power.railsOn.toNat r with
  | true => exact ⟨s.csr, s.power.railsOn, railUp_of_on h⟩
  | false =>
    obtain ⟨c, hc⟩ := railBrought_eq s r (senReg (0x100 + 4 * r))
    exact ⟨c, _, (railUp_of_off h).trans hc⟩

theorem railsUp_eq (l : List Nat) (s : State) :
    ∃ c x, l.foldl railUp s = { s with csr := c, power := { s.power with railsOn := x } } := by
  induction l generalizing s with
  | nil => exact ⟨s.csr, s.power.railsOn, rfl⟩
  | cons r l ih =>
    obtain ⟨c, x, h⟩ := railUp_eq s r
    obtain ⟨c', x', h'⟩ := ih (railUp s r)
    exact ⟨c', x', by rw [List.foldl_cons, h', h]⟩

theorem railsOn_railUp (s : State) {r : Nat} (hr : r < 8) (k : Nat) :
    bit (railUp s r).power.railsOn.toNat k = (bit s.power.railsOn.toNat k || decide (r = k)) := by
  cases h : bit s.power.railsOn.toNat r with
  | true =>
    rw [railUp_of_on h]
    by_cases hk : r = k
    · simp [← hk, h]
    · simp [hk]
  | false =>
    have hp : 2 ^ r < 2 ^ 8 := Nat.pow_lt_pow_right (by decide) hr
    obtain ⟨c, hc⟩ := railBrought_eq s r (senReg (0x100 + 4 * r))
    rw [railUp_of_off h, hc, BitVec.toNat_or, BitVec.toNat_ofNat, Nat.mod_eq_of_lt hp, bit_or]
    exact congrArg _ Nat.testBit_two_pow

theorem railsOn_railsUp {l : List Nat} (hl : ∀ r ∈ l, r < 8) (s : State) (k : Nat) :
    bit (l.foldl railUp s).power.railsOn.toNat k = (bit s.power.railsOn.toNat k || decide (k ∈ l)) := by
  induction l generalizing s with
  | nil => simp
  | cons r l ih =>
    rw [List.foldl_cons, ih (fun j hj => hl j (List.mem_cons_of_mem r hj)), railsOn_railUp s (hl r List.mem_cons_self),
      Bool.or_assoc]
    simp [List.mem_cons, eq_comm]

theorem rd_railUp_other (s : State) {r k : Nat} (h : k ≠ r) :
    rd (railUp s r) (senReg (0x100 + 4 * k)) = rd s (senReg (0x100 + 4 * k)) := by
  cases hr : bit s.power.railsOn.toNat r with
  | true => rw [railUp_of_on hr]
  | false =>
    rw [railUp_of_off hr, rd_railBrought, rd_setF_other _ _ _ _ (ivrSet_ne h)]

theorem fld_railUp_of_off {s : State} {r : Nat} (h : bit s.power.railsOn.toNat r = false) :
    fld (railUp s r) (senReg (0x100 + 4 * r)) 27 16 = fld s (senReg (0x100 + 4 * r)) 11 0 := by
  have hlt : fld s (senReg (0x100 + 4 * r)) 11 0 < 2 ^ (27 - 16 + 1) := Nat.mod_lt _ (by decide)
  rw [railUp_of_off h, fld, rd_railBrought, ← fld, fld_setF_same _ _ _ _ _ (by decide) (by decide), Nat.mod_eq_of_lt hlt]

/-- A rail that is up keeps its set-point while others come up. -/
theorem rd_railsUp_of_on {l : List Nat} (hl : ∀ r ∈ l, r < 8) {s : State} {k : Nat}
    (h : bit s.power.railsOn.toNat k = true) :
    rd (l.foldl railUp s) (senReg (0x100 + 4 * k)) = rd s (senReg (0x100 + 4 * k)) := by
  induction l generalizing s with
  | nil => rfl
  | cons r l ih =>
    have hon : bit (railUp s r).power.railsOn.toNat k = true := by
      rw [railsOn_railUp s (hl r List.mem_cons_self), h, Bool.true_or]
    rw [List.foldl_cons, ih (fun j hj => hl j (List.mem_cons_of_mem r hj)) hon]
    by_cases hk : k = r
    · rw [railUp_of_on (hk ▸ h)]
    · exact rd_railUp_other s hk

/-- Each rail that comes up takes its TARGET as the set-point in force. -/
theorem fld_railsUp_of_off {l : List Nat} (hl : ∀ r ∈ l, r < 8) {s : State} {k : Nat} (hk : k ∈ l)
    (h : bit s.power.railsOn.toNat k = false) :
    fld (l.foldl railUp s) (senReg (0x100 + 4 * k)) 27 16 = fld s (senReg (0x100 + 4 * k)) 11 0 := by
  induction l generalizing s with
  | nil => exact absurd hk List.not_mem_nil
  | cons r l ih =>
    have hl' : ∀ r ∈ l, r < 8 := fun j hj => hl j (List.mem_cons_of_mem r hj)
    rw [List.foldl_cons]
    by_cases hr : k = r
    · have hon : bit (railUp s r).power.railsOn.toNat k = true := by
        rw [railsOn_railUp s (hl r List.mem_cons_self), hr, decide_eq_true rfl, Bool.or_true]
      rw [fld, rd_railsUp_of_on hl' hon, ← fld, hr]
      exact fld_railUp_of_off (hr ▸ h)
    · have hoff : bit (railUp s r).power.railsOn.toNat k = false := by
        rw [railsOn_railUp s (hl r List.mem_cons_self), h, decide_eq_false (Ne.symm hr), Bool.or_false]
      rw [ih hl' ((List.mem_cons.1 hk).resolve_left hr) hoff, fld, rd_railUp_other s hr, ← fld]

/-- The state in which the next row of rails is to come up. -/
def rowBegun (s : State) : State :=
  { s with power := { s.power with porst := false, railRow := s.power.railRow + 1 } }

/-- The next row of rails has come up; the row of the Strike logic's rail is still to be completed. -/
def rowUp (s : State) : State := (railRowOf s.power.railRow).foldl railUp (rowBegun s)

theorem railStep_eq (s : State) : railStep s = if s.power.railRow = 6 then railsComplete (rowUp s) else rowUp s := rfl

theorem rowUp_eq (s : State) : ∃ c x, rowUp s = { s with
    csr := c, power := { s.power with porst := false, railRow := s.power.railRow + 1, railsOn := x } } :=
  railsUp_eq _ (rowBegun s)

theorem railsComplete_eq (s : State) :
    ∃ c, railsComplete s = { s with csr := c, power := { s.power with strikeUp := true } } := by
  obtain ⟨c, hc⟩ := setF_eq s (senReg 0) 7 7 1
  exact ⟨c, by rw [railsComplete, hc]⟩

/-- What a completed sequence changes beside its last row: SEN_STAT and the Strike logic. -/
theorem railsComplete_frame (s : State) : (railsComplete s).power.railsOn = s.power.railsOn ∧
    (∀ r, rd (railsComplete s) (senReg (0x100 + 4 * r)) = rd s (senReg (0x100 + 4 * r))) ∧
    (railsComplete s).power.railRow = s.power.railRow ∧ (railsComplete s).power.porst = s.power.porst ∧
    (railsComplete s).dram = s.dram ∧ (railsComplete s).mram = s.mram := by
  obtain ⟨c, hc⟩ := railsComplete_eq s
  refine ⟨by rw [hc], fun r => ?_, by rw [hc], by rw [hc], by rw [hc], by rw [hc]⟩
  rw [railsComplete, rd_withPower, rd_setF_other _ _ _ _ (by unfold senReg; omega)]

theorem railStep_frame (s : State) : (railStep s).power.railsOn = (rowUp s).power.railsOn ∧
    (∀ r, rd (railStep s) (senReg (0x100 + 4 * r)) = rd (rowUp s) (senReg (0x100 + 4 * r))) ∧
    (railStep s).power.railRow = (rowUp s).power.railRow ∧ (railStep s).power.porst = (rowUp s).power.porst ∧
    (railStep s).dram = (rowUp s).dram ∧ (railStep s).mram = (rowUp s).mram := by
  rw [railStep_eq]
  split
  · exact railsComplete_frame (rowUp s)
  · exact ⟨rfl, fun _ => rfl, rfl, rfl, rfl, rfl⟩

theorem railRowOf_lt : ∀ n < 7, ∀ r ∈ railRowOf n, r < 8 := by decide

theorem railSequenceStep_completes {s : State} (h : railReady s = true) : Completes .railSequenceStep s (fun u =>
    u.power.railRow = s.power.railRow + 1 ∧ u.power.porst = false ∧
    (∀ r ∈ railRowOf s.power.railRow, bit u.power.railsOn.toNat r = true ∧
      (bit s.power.railsOn.toNat r = false →
        fld u (senReg (0x100 + 4 * r)) 27 16 = fld s (senReg (0x100 + 4 * r)) 11 0)) ∧
    (s.power.railRow = 6 → u.power.strikeUp = true ∧ flag u (senReg 0) 7 = true) ∧ SameMemory s u) := by
  have hrow : ∀ r ∈ railRowOf s.power.railRow, r < 8 := by
    refine railRowOf_lt _ ?_
    simp only [railReady, Bool.and_eq_true, decide_eq_true_eq] at h
    exact h.1.2
  have hexec : exec .railSequenceStep s = .next (railStep s) := by
    change execRailSequenceStep s = _
    rw [execRailSequenceStep, h, when_true]
  obtain ⟨hon, hset, hnum, hporst, hdram, hmram⟩ := railStep_frame s
  obtain ⟨c, x, hup⟩ := rowUp_eq s
  refine ⟨_, hexec, ?_, ?_, fun r hr => ⟨?_, fun hoff => ?_⟩, fun h6 => ?_, ?_⟩
  · rw [hnum, hup]
  · rw [hporst, hup]
  · rw [hon, rowUp, railsOn_railsUp hrow, decide_eq_true hr, Bool.or_true]
  · rw [fld, hset, ← fld]
    exact fld_railsUp_of_off hrow hr hoff
  · rw [railStep_eq, if_pos h6]
    refine ⟨rfl, ?_⟩
    rw [railsComplete, flag, rd_withPower, ← flag, flag_setF_one _ _ _ (by decide)]
  · exact sameMemory_of_eq (by rw [hdram, hup]) (by rw [hmram, hup])

/-! ## Set-points (R438, R439) -/

theorem rampTo_lt {a b n : Nat} (ha : a < n) (hb : b < n) : rampTo a b < n := by
  unfold rampTo
  split <;> omega

theorem ivrRampStep_completes {s : State} (r : Fin 8) (h : bit s.power.railsOn.toNat r = true) :
    Completes (.ivrRampStep r) s (fun u =>
      let o := senReg (0x100 + 4 * r)
      fld u o 27 16 = rampTo (fld s o 27 16) (fld s o 11 0) ∧ fld u o 11 0 = fld s o 11 0 ∧ RegsBut [o] s u ∧
      SameMemory s u) := by
  have hexec : exec (.ivrRampStep r) s = .next (setF s (senReg (0x100 + 4 * r)) 27 16
      (rampTo (fld s (senReg (0x100 + 4 * r)) 27 16) (fld s (senReg (0x100 + 4 * r)) 11 0))) := by
    change execIvrRampStep r s = _
    unfold execIvrRampStep
    dsimp only
    rw [h, when_true]
  have hlt : rampTo (fld s (senReg (0x100 + 4 * r)) 27 16) (fld s (senReg (0x100 + 4 * r)) 11 0) < 2 ^ (27 - 16 + 1) :=
    rampTo_lt (Nat.mod_lt _ (by decide)) (Nat.mod_lt _ (by decide))
  refine ⟨_, hexec, ?_, ?_, regsBut_setF _ _ _ _ _, sameMemory_of_eq (setF_dram ..) (setF_mram ..)⟩
  · rw [fld_setF_same _ _ _ _ _ (by decide) (by decide), Nat.mod_eq_of_lt hlt]
  · exact fld_setF_field _ _ _ _ _ _ _ (by decide) (by decide) (.inl (by decide)) (by decide)

theorem exec_senIvrTargetWrite {s : State} {r : Fin 8} (h : reaches s (senReg (0x100 + 4 * r)) = true) (v : Reg32) :
    exec (.senIvrTargetWrite r v) s = .next (wrTarget s r v) :=
  congrArg Host.Outcome.next (atReg_of_reaches h _)

/-- A TARGET in its window, of a rail whose controller is not frozen, is taken. -/
theorem senIvrTargetWrite_taken {s : State} {r : Fin 8} {v : Reg32} (h : reaches s (senReg (0x100 + 4 * r)) = true)
    (hlow : railLow r ≤ bits v.toNat 11 0) (hhigh : bits v.toNat 11 0 ≤ railHigh r) (hf : railFrozen s r = false) :
    Completes (.senIvrTargetWrite r v) s (fun u =>
      let o := senReg (0x100 + 4 * r)
      fld u o 11 0 = bits v.toNat 11 0 ∧ fld u o 27 16 = fld s o 27 16 ∧ RegsBut [o] s u ∧ SameMemory s u) := by
  obtain ⟨x, hd⟩ := regDef_ivrSet s.part r
  have hwr : wrTarget s r v = wrReg s (senReg (0x100 + 4 * r)) v 0 := by
    unfold wrTarget
    dsimp only
    rw [decide_eq_false (Nat.not_lt.2 hlow), decide_eq_false (Nat.not_lt.2 hhigh), hf]
    rfl
  obtain ⟨-, -, hmem⟩ := wrReg_units s (senReg (0x100 + 4 * r)) v 0
  have hrw : ∀ i ≤ 11, 0 ≤ i → bit 0xFFF i = true := by decide
  refine ⟨_, exec_senIvrTargetWrite h v, ?_⟩
  rw [hwr]
  exact ⟨fld_wrReg hd v (by decide) (by decide) hrw (fun i _ _ => Nat.zero_testBit i) rfl rfl,
    fld_wrReg_ro hd v 0 (by decide) (by decide) (by decide), regsBut_wrReg s _ v 0, hmem⟩

/-- Any other TARGET is rejected: the register keeps what it holds, and PARAM is recorded (R17). -/
theorem senIvrTargetWrite_rejected {s : State} {r : Fin 8} {v : Reg32} (h : reaches s (senReg (0x100 + 4 * r)) = true)
    (hbad : bits v.toNat 11 0 < railLow r ∨ railHigh r < bits v.toNat 11 0 ∨ railFrozen s r = true) :
    ∃ w, exec (.senIvrTargetWrite r v) s = .next (paramFault w (ownerSet (senReg (0x100 + 4 * r)))) ∧ RegsBut [] s w ∧
      SameMemory s w := by
  obtain ⟨x, hd⟩ := regDef_ivrSet s.part r
  have hbad' : (decide (bits v.toNat 11 0 < railLow r) || decide (railHigh r < bits v.toNat 11 0) || railFrozen s r) =
      true := by simpa [or_assoc] using hbad
  have hwr : wrTarget s r v =
      paramFault (wrReg s (senReg (0x100 + 4 * r)) v 0xFFF) (ownerSet (senReg (0x100 + 4 * r))) := by
    unfold wrTarget
    dsimp only
    rw [hbad', if_pos rfl, show mask 11 0 = 0xFFF from rfl, putReg_rejected s _ v (by decide)]
  obtain ⟨-, -, hmem⟩ := wrReg_units s (senReg (0x100 + 4 * r)) v 0xFFF
  exact ⟨_, by rw [exec_senIvrTargetWrite h v, hwr], regsBut_nil_wrReg_rejected hd v, hmem⟩

/-! ## Reference clock (R34, R485) -/

/-- The count and the event of a loss of the reference. -/
def refEvents (s : State) : State :=
  let s := if bit s.power.railsOn.toNat 0 then count s (cSen 4) 1 else s
  if haspLive s then raise s 0x289 0 else s

/-- What a loss of the reference shows before its condition is recorded. -/
def refSeen (s : State) : State := refEvents (setF s 0x28 2 1 3)

theorem refLost_eq (s : State) :
    refLost s = if retaining (refSeen s) then refSeen s else evalRefLoss (refSeen s) := rfl

theorem refEvents_spec (s : State) : (∀ o, rd (refEvents s) o = rd s o) ∧ SameMemory s (refEvents s) ∧
    (haspLive s = true → (refEvents s).pulses = s.pulses ++ [(0x289, 0)]) := by
  obtain ⟨n, hn⟩ : ∃ n, (if bit s.power.railsOn.toNat 0 = true then count s (cSen 4) 1 else s) =
      { s with counts := n } := by
    split
    · exact count_eq ..
    · exact ⟨s.counts, rfl⟩
  unfold refEvents
  dsimp only
  rw [hn]
  split
  next => exact ⟨fun _ => rfl, sameMemory_of_eq rfl rfl, fun _ => rfl⟩
  next hl => exact ⟨fun _ => rfl, sameMemory_of_eq rfl rfl, fun h => absurd h hl⟩

theorem refclkLoss_completes {s : State} (hs : sentinelUp s = true) (hf : flag s 0x28 2 = false) :
    Completes .refclkLoss s (fun u => flag u 0x28 2 = true ∧ flag u 0x28 1 = true ∧
      (haspLive s = true → u.pulses = s.pulses ++ [(0x289, 0)]) ∧ SameMemory s u) := by
  have hexec : exec .refclkLoss s = .next (refLost s) := by
    change execRefclkLoss s = _
    rw [execRefclkLoss, hs, hf]
    rfl
  have hkept : RefKept (refSeen s) (refLost s) := by
    rw [refLost_eq]
    exact (RefKept.refl _).ite (RefKept.refl _).evalRefLoss
  obtain ⟨hrd, hmem, hpulses⟩ := refEvents_spec (setF s 0x28 2 1 3)
  have hset : SameMemory s (setF s 0x28 2 1 3) := sameMemory_of_eq (setF_dram ..) (setF_mram ..)
  have hflag (i : Nat) (h1 : 1 ≤ i) (h2 : i ≤ 2) : flag (refLost s) 0x28 i = bit 3 (i - 1) := by
    rw [hkept.flag_eq, refSeen, flag, hrd, ← flag, flag_setF_same _ _ _ _ _ _ (by decide) (by decide), if_pos ⟨h1, h2⟩]
  exact ⟨_, hexec, hflag 2 (by decide) (by decide), hflag 1 (by decide) (by decide),
    fun h => hkept.pulses.trans (hpulses h), sameMemory_trans (sameMemory_trans hset hmem) hkept.sameMemory⟩

theorem refclkReturn_ends {s : State} (hs : sentinelUp s = true) (hf : flag s 0x28 2 = true) :
    exec .refclkReturn s = .next (condEnd (setF s 0x28 2 2 0) .sen 4) := by
  change execRefclkReturn s = _
  rw [execRefclkReturn, hs, hf, Bool.and_self, when_true, evalRefLoss, flag_setF_zero _ _ _ (by decide),
    if_neg Bool.false_ne_true]

/-! ## QUIET bits (R443, R475) -/

/-- A tumbler in self-refresh whose QUIET bit is clear starts its exit. -/
def wakeUnquiet (s : State) (t : Nat) : State :=
  if tstate s t = .quiet && !quietBit s t && (s.tum t).mode.wake = .no then
    setMode s t (fun m => { m with wake := .quiet })
  else s

theorem quietWake_eq (s : State) : quietWake s = foldUpTo 64 wakeUnquiet s := rfl

theorem wakeUnquiet_eq (s : State) (t : Nat) : ∃ x, wakeUnquiet s t = { s with tums := x } := by
  unfold wakeUnquiet
  split
  · exact ⟨_, rfl⟩
  · exact ⟨s.tums, rfl⟩

theorem wakesUnquiet_eq (n : Nat) (s : State) : ∃ x, foldUpTo n wakeUnquiet s = { s with tums := x } := by
  induction n with
  | zero => exact ⟨s.tums, rfl⟩
  | succ n ih =>
    obtain ⟨x, hx⟩ := ih
    obtain ⟨y, hy⟩ := wakeUnquiet_eq (foldUpTo n wakeUnquiet s) n
    exact ⟨y, by rw [foldUpTo_succ, hy, hx]⟩

theorem tum_wakeUnquiet_other (s : State) {t j : Nat} (h : j ≠ t) : (wakeUnquiet s t).tum j = s.tum j := by
  unfold wakeUnquiet
  split
  · exact tum_setMode_other s _ h
  · rfl

theorem tum_wakesUnquiet_later (s : State) {n t : Nat} (h : n ≤ t) : (foldUpTo n wakeUnquiet s).tum t = s.tum t := by
  induction n with
  | zero => rfl
  | succ n ih => rw [foldUpTo_succ, tum_wakeUnquiet_other _ (by omega), ih (by omega)]

theorem wake_wakeUnquiet {s : State} {t : Nat} (hq : tstate s t = .quiet) (hw : (s.tum t).mode.wake = .no)
    (hb : quietBit s t = false) : ((wakeUnquiet s t).tum t).mode.wake = .quiet := by
  unfold wakeUnquiet
  rw [if_pos (by simp [hq, hw, hb]), tum_setMode_same]

theorem wake_wakesUnquiet {s : State} {n t : Nat} (ht : t < n) (hq : tstate s t = .quiet)
    (hw : (s.tum t).mode.wake = .no) (hb : quietBit s t = false) :
    ((foldUpTo n wakeUnquiet s).tum t).mode.wake = .quiet := by
  induction n with
  | zero => exact absurd ht (Nat.not_lt_zero t)
  | succ n ih =>
    rw [foldUpTo_succ]
    by_cases hn : t = n
    · subst hn
      have htum : (foldUpTo t wakeUnquiet s).tum t = s.tum t := tum_wakesUnquiet_later s (Nat.le_refl t)
      obtain ⟨x, hx⟩ := wakesUnquiet_eq t s
      refine wake_wakeUnquiet ?_ ?_ ?_
      · rw [tstate, htum]
        exact hq
      · rw [htum]
        exact hw
      · rw [hx]
        exact hb
    · rw [tum_wakeUnquiet_other _ hn]
      exact ih (by omega)

theorem quietBitWrite_completes {s : State} (w : Fin 3) (v : Reg32) (h : reaches s (senReg (0x20 + 4 * w)) = true) :
    Completes (.quietBitWrite w v) s (fun u =>
      (w.val < 2 → rd u (senReg (0x20 + 4 * w)) = v) ∧
      (w.val = 2 → fld u (senReg 0x28) 15 0 = bits v.toNat 15 0) ∧
      (∀ t, t < 64 → tstate s t = .quiet → (s.tum t).mode.wake = .no → quietBit u t = false →
        (u.tum t).mode.wake = .quiet) ∧ RegsBut [senReg (0x20 + 4 * w)] s u ∧ SameMemory s u) := by
  have hd := regDef_quiet s.part w
  have hexec : exec (.quietBitWrite w v) s = .next (quietWake (wrReg s (senReg (0x20 + 4 * w)) v 0)) :=
    congrArg Host.Outcome.next (atReg_of_reaches h _)
  obtain ⟨htums, -, hmem⟩ := wrReg_units s (senReg (0x20 + 4 * w)) v 0
  obtain ⟨x, hx⟩ := wakesUnquiet_eq 64 (wrReg s (senReg (0x20 + 4 * w)) v 0)
  rw [← quietWake_eq] at hx
  have hrd (o : Nat) : rd (quietWake (wrReg s (senReg (0x20 + 4 * w)) v 0)) o =
      rd (wrReg s (senReg (0x20 + 4 * w)) v 0) o := by rw [hx]; rfl
  have htum (t : Nat) : (wrReg s (senReg (0x20 + 4 * w)) v 0).tum t = s.tum t := by rw [State.tum, htums, State.tum]
  refine ⟨_, hexec, fun hw => ?_, fun hw => ?_, fun t ht hq hwake hb => ?_, fun o ho => ?_, ?_⟩
  · rw [if_pos hw] at hd
    have hall : ∀ i < 32, bit 0xFFFFFFFF i = true := fun i hi => testBit_allOnes hi
    rw [hrd]
    exact reg_ext fun i hi => by rw [bit_rd_wrReg_rw hd v 0 hi, hall i hi]; simp [bit]
  · have ho : senReg (0x20 + 4 * w) = senReg 0x28 := by rw [hw]
    rw [if_neg (by omega)] at hd
    rw [fld, hrd, ← fld, ← ho]
    exact fld_wrReg hd v (by decide) (by decide) (by decide) (fun i _ _ => Nat.zero_testBit i) rfl rfl
  · rw [quietWake_eq]
    refine wake_wakesUnquiet ht ?_ ?_ ?_
    · rw [tstate, htum]
      exact hq
    · rw [htum]
      exact hwake
    · rw [quietBit, flag, ← hrd]
      exact hb
  · exact (hrd o).trans (regsBut_wrReg s _ v 0 o ho)
  · rw [hx]
    exact hmem

/-- Settles O49: the clauses in their order, each by the lemma about its command. -/
theorem railsAndClock : Obligations.RailsAndClock := fun _ =>
  ⟨frontStageStart_running, frontStageStart_cold, frontStageStop_unheld, fun _ _ => frontStageStop_held,
    railSequenceStep_completes, ivrRampStep_completes,
    fun _ _ hr => ⟨senIvrTargetWrite_taken hr, senIvrTargetWrite_rejected hr⟩,
    refclkLoss_completes, refclkReturn_ends, quietBitWrite_completes⟩

end Sys2Proof.Machine
end

section
/-! PROOF. The interleave of R46: the place of an address determines it, and every place has an address (O8). -/

namespace Sys2Proof.Machine

open Sys2Proof

/-! ## Fields and their exclusive-or -/

theorem foldl_xor_fields (a n k t : Nat) :
    (List.range n).foldl (fun t i => t ^^^ bits a (k + 6 * i + 5) (k + 6 * i)) t = t ^^^ foldFields a n k := by
  induction n generalizing k t with
  | zero => exact (Nat.xor_zero t).symm
  | succ n ih =>
    have hk (i : Nat) : k + 6 * (i + 1) = k + 6 + 6 * i := by omega
    simp only [List.range_succ_eq_map, List.foldl_cons, List.foldl_map, hk, Nat.mul_zero, Nat.add_zero, ih,
      foldFields, Nat.xor_assoc]

theorem div_two_pow_congr {a b i j : Nat} (h : a / 2 ^ i = b / 2 ^ i) (hij : i ≤ j) : a / 2 ^ j = b / 2 ^ j := by
  rw [← Nat.add_sub_of_le hij, Nat.pow_add, ← Nat.div_div_eq_div_mul, h, Nat.div_div_eq_div_mul]

/-- The exclusive-or of fields from bit `j` upward does not see the bits below. -/
theorem foldFields_congr {a b i : Nat} (h : a / 2 ^ i = b / 2 ^ i) (n : Nat) {j : Nat} (hij : i ≤ j) :
    foldFields a n j = foldFields b n j := by
  induction n generalizing j with
  | zero => rfl
  | succ n ih => rw [foldFields, foldFields, bits, bits, div_two_pow_congr h hij, ih (by omega)]

/-! ## Quotient, field and rest of an address -/

/-- The address of quotient `q`, 6-bit field `f` at bit `k`, and rest `r`. -/
def joinAddr (k q f r : Nat) : Nat := q * 2 ^ (k + 6) + f * 2 ^ k + r

theorem bits_field (a k : Nat) : bits a (k + 5) k = a / 2 ^ k % 64 := by
  have h : k + 5 - k + 1 = 6 := by omega
  exact congrArg (fun n => a / 2 ^ k % 2 ^ n) h

theorem joinAddr_split (k a : Nat) : joinAddr k (a / 2 ^ (k + 6)) (bits a (k + 5) k) (a % 2 ^ k) = a := by
  have hq : a / 2 ^ (k + 6) = a / 2 ^ k / 64 := by rw [Nat.pow_add, Nat.div_div_eq_div_mul]
  calc a / 2 ^ (k + 6) * 2 ^ (k + 6) + bits a (k + 5) k * 2 ^ k + a % 2 ^ k
      = 2 ^ k * (64 * (a / 2 ^ k / 64) + a / 2 ^ k % 64) + a % 2 ^ k := by rw [hq, bits_field, Nat.pow_add]; ring
    _ = a := by rw [Nat.div_add_mod, Nat.div_add_mod]

theorem joinAddr_eq (k q f r : Nat) : joinAddr k q f r = 2 ^ k * (64 * q + f) + r := by
  rw [joinAddr, Nat.pow_add]
  ring

theorem joinAddr_div {k q f r : Nat} (hr : r < 2 ^ k) : joinAddr k q f r / 2 ^ k = 64 * q + f := by
  rw [joinAddr_eq, Nat.mul_add_div (Nat.two_pow_pos k), Nat.div_eq_of_lt hr, Nat.add_zero]

theorem joinAddr_mod {k q f r : Nat} (hr : r < 2 ^ k) : joinAddr k q f r % 2 ^ k = r := by
  rw [joinAddr_eq, Nat.mul_add_mod, Nat.mod_eq_of_lt hr]

theorem joinAddr_quotient {k q f r : Nat} (hf : f < 64) (hr : r < 2 ^ k) : joinAddr k q f r / 2 ^ (k + 6) = q := by
  rw [Nat.pow_add, ← Nat.div_div_eq_div_mul, joinAddr_div hr]
  omega

theorem joinAddr_field {k q f r : Nat} (hf : f < 64) (hr : r < 2 ^ k) : bits (joinAddr k q f r) (k + 5) k = f := by
  rw [bits_field, joinAddr_div hr]
  omega

/-! ## The modes of R46 -/

/-- The bit at which the field that selects the tumbler begins. -/
def interleaveBit (m : Nat) : Nat := if m = 2 then 24 else if m = 0 then 8 else 12

/-- What mode `m` adds to the field: the exclusive-or of the six fields above it, or nothing in mode 2. -/
def upperFields (m a : Nat) : Nat := if m = 2 then 0 else foldFields a 6 (interleaveBit m + 6)

theorem mapAddr_eq (m a : Nat) : mapAddr m a =
    (bits a (interleaveBit m + 5) (interleaveBit m) ^^^ upperFields m a,
      a / 2 ^ (interleaveBit m + 6) * 2 ^ interleaveBit m + a % 2 ^ interleaveBit m) := by
  unfold mapAddr upperFields interleaveBit
  split
  · rw [Nat.xor_zero]
  · rfl

theorem mapAddr_eq_foldl {m : Nat} (hm : m ≠ 2) (a : Nat) : mapAddr m a =
    let k := if m = 0 then 8 else 12
    ((List.range 7).foldl (fun t i => t ^^^ bits a (k + 6 * i + 5) (k + 6 * i)) 0,
      a / 2 ^ (k + 6) * 2 ^ k + a % 2 ^ k) := by
  dsimp only
  rw [foldl_xor_fields, Nat.zero_xor, mapAddr, if_neg hm]
  rfl

theorem upperFields_congr {m a b : Nat} (h : a / 2 ^ (interleaveBit m + 6) = b / 2 ^ (interleaveBit m + 6)) :
    upperFields m a = upperFields m b := by
  rw [upperFields, upperFields, foldFields_congr h 6 le_rfl]

theorem upperFields_lt (m a : Nat) : upperFields m a < 64 := by
  unfold upperFields
  split
  · decide
  · exact foldFields_lt ..

theorem interleaveBit_le (m : Nat) : interleaveBit m ≤ 24 := by
  unfold interleaveBit
  split_ifs <;> decide

theorem addrWidth_ge (p : Part) : 38 ≤ p.addrWidth := by
  cases p <;> decide

/-- A tumbler-local space is a whole number of blocks, and the part's byte space is 64 of them. -/
theorem local_space (p : Part) (m : Nat) : ∃ n, 2 ^ (p.addrWidth - 6) = 2 ^ interleaveBit m * n ∧
    2 ^ p.addrWidth = 2 ^ (interleaveBit m + 6) * n := by
  have hk := interleaveBit_le m
  have hw := addrWidth_ge p
  refine ⟨2 ^ (p.addrWidth - 6 - interleaveBit m), ?_, ?_⟩
  · rw [← Nat.pow_add, Nat.add_sub_of_le (by omega)]
  · rw [← Nat.pow_add]
    congr 1
    omega

theorem mapAddr_local_lt {p : Part} (m : Nat) {a : Nat} (ha : a < 2 ^ p.addrWidth) :
    (mapAddr m a).2 < 2 ^ (p.addrWidth - 6) := by
  obtain ⟨n, hloc, hpart⟩ := local_space p m
  have hq : a / 2 ^ (interleaveBit m + 6) < n := Nat.div_lt_of_lt_mul (hpart ▸ ha)
  have hr : a % 2 ^ interleaveBit m < 2 ^ interleaveBit m := Nat.mod_lt _ (Nat.two_pow_pos _)
  rw [mapAddr_eq, hloc]
  calc a / 2 ^ (interleaveBit m + 6) * 2 ^ interleaveBit m + a % 2 ^ interleaveBit m
      < (a / 2 ^ (interleaveBit m + 6) + 1) * 2 ^ interleaveBit m := by rw [Nat.succ_mul]; omega
    _ ≤ 2 ^ interleaveBit m * n := by rw [Nat.mul_comm]; exact Nat.mul_le_mul_left _ hq

/-- Offset and tumbler give back quotient and rest, then the field. -/
theorem mapAddr_injective {m a b : Nat} (h : mapAddr m a = mapAddr m b) : a = b := by
  have hpos : 0 < 2 ^ interleaveBit m := Nat.two_pow_pos _
  have hlt (x : Nat) : x % 2 ^ interleaveBit m < 2 ^ interleaveBit m := Nat.mod_lt _ hpos
  rw [mapAddr_eq, mapAddr_eq] at h
  obtain ⟨htum, hloc⟩ := Prod.mk.inj h
  have hq : a / 2 ^ (interleaveBit m + 6) = b / 2 ^ (interleaveBit m + 6) := by
    have hd := congrArg (· / 2 ^ interleaveBit m) hloc
    simpa [Nat.mul_comm _ (2 ^ interleaveBit m), Nat.mul_add_div hpos, Nat.div_eq_of_lt (hlt _)] using hd
  have hr : a % 2 ^ interleaveBit m = b % 2 ^ interleaveBit m := by
    rw [hq] at hloc
    exact Nat.add_left_cancel hloc
  have hf : bits a (interleaveBit m + 5) (interleaveBit m) = bits b (interleaveBit m + 5) (interleaveBit m) := by
    rw [upperFields_congr hq] at htum
    exact Nat.xor_left_injective htum
  rw [← joinAddr_split (interleaveBit m) a, hq, hf, hr, joinAddr_split]

/-- The address of a place: the offset gives quotient and rest, and the field is the tumbler with the upper fields taken
away. -/
theorem mapAddr_surjective {p : Part} (m : Nat) {t x : Nat} (ht : t < 64) (hx : x < 2 ^ (p.addrWidth - 6)) :
    ∃ a, a < 2 ^ p.addrWidth ∧ mapAddr m a = (t, x) := by
  obtain ⟨n, hloc, hpart⟩ := local_space p m
  have hr : x % 2 ^ interleaveBit m < 2 ^ interleaveBit m := Nat.mod_lt _ (Nat.two_pow_pos _)
  have hq : x / 2 ^ interleaveBit m < n := Nat.div_lt_of_lt_mul (hloc ▸ hx)
  let top := joinAddr (interleaveBit m) (x / 2 ^ interleaveBit m) 0 0
  have hf : t ^^^ upperFields m top < 64 := Nat.xor_lt_two_pow (n := 6) ht (upperFields_lt ..)
  let a := joinAddr (interleaveBit m) (x / 2 ^ interleaveBit m) (t ^^^ upperFields m top) (x % 2 ^ interleaveBit m)
  have hquot : a / 2 ^ (interleaveBit m + 6) = x / 2 ^ interleaveBit m := joinAddr_quotient hf hr
  have hup : upperFields m a = upperFields m top :=
    upperFields_congr (hquot.trans (joinAddr_quotient (by decide) (Nat.two_pow_pos _)).symm)
  refine ⟨a, ?_, ?_⟩
  · rw [hpart, Nat.mul_comm]
    exact (Nat.div_lt_iff_lt_mul (Nat.two_pow_pos _)).1 (hquot.trans_lt hq)
  · rw [mapAddr_eq, hquot, hup, joinAddr_field hf hr, joinAddr_mod hr, Nat.xor_assoc, Nat.xor_self, Nat.xor_zero,
      Nat.div_add_mod']

/-- Settles O8: the procedure of R46 is read off the definition; quotient, field and rest make the bijection. -/
theorem interleaveIsABijection : Obligations.InterleaveIsABijection := fun _ m _ =>
  ⟨fun a _ => ⟨fun hm => by rw [mapAddr, if_pos hm], fun hm => mapAddr_eq_foldl hm a⟩,
    fun a ha => ⟨mapAddr_tumbler_lt m a, mapAddr_local_lt m ha⟩,
    fun _ _ _ _ h => mapAddr_injective h,
    fun _ _ ht hx => mapAddr_surjective m ht hx⟩

end Sys2Proof.Machine
end

section
/-! PROOF. Commands: how a ready one runs, and what its reply changes (R357, R361, R373). -/

namespace Sys2Proof.Machine

open Sys2Proof

/-! ## Frames -/

theorem rd_withCmds (s : State) (m : Cmds) (o : Nat) : rd { s with cmds := m } o = rd s o := rfl

theorem sameMemory_withCmds (s : State) (m : Cmds) : SameMemory s { s with cmds := m } := sameMemory_of_eq rfl rfl

theorem sameMemory_begin (s : State) (c : Cmd) : SameMemory s (begin s c) := sameMemory_withCmds s _

theorem sameMemory_wr (s : State) (off : Nat) (v : Reg32) : SameMemory s (wr s off v) :=
  sameMemory_of_eq (wr_dram ..) (wr_mram ..)

theorem sameMemory_setF (s : State) (off hi lo v : Nat) : SameMemory s (setF s off hi lo v) := sameMemory_wr s off _

/-! ## Running and checks -/

theorem runCmd_of_ready {s : State} {c : Cmd} {op : BitVec 16} (h : ready s c op = true) (f : State → State) :
    runCmd s c op f = .next (f s) := by
  rw [runCmd, h, when_true]

theorem orFail_of_passes {l : List (Bool × BitVec 16)} (h : Passes l) (s t : State) (c : Cmd) :
    orFail s c l t = t := by
  have hn : l.find? (·.1) = none := List.find?_eq_none.2 fun e he => by rw [h e he]; exact Bool.false_ne_true
  rw [orFail, hn]

theorem orFail_of_failed {b : Bool} (h : b = true) (s t : State) (c : Cmd) (st : BitVec 16)
    (l : List (Bool × BitVec 16)) : orFail s c ((b, st) :: l) t = answer s c st := by
  subst h
  rfl

theorem passes_cons {b : Bool} (h : b = false) (st : BitVec 16) {l : List (Bool × BitVec 16)} (hl : Passes l) :
    Passes ((b, st) :: l) :=
  List.forall_mem_cons.2 ⟨h, hl⟩

theorem passes_nil : Passes [] := List.forall_mem_nil _

/-- An entry that is added behind entries of other keys is the one found. -/
theorem find?_append_last {α : Type} {l : List α} {p : α → Bool} {x : α} (h : ∀ e ∈ l, p e = false)
    (hx : p x = true) : (l ++ [x]).find? p = some x := by
  have hn : l.find? p = none := List.find?_eq_none.2 fun e he => by rw [h e he]; exact Bool.false_ne_true
  rw [List.find?_append, hn, Option.none_or, List.find?_cons_of_pos hx]

/-! ## The way out of a reply -/

theorem discardReply_eq (s : State) (n : Nat) : ∃ x k, discardReply s n = { s with csr := x, counts := k } := by
  obtain ⟨k, hk⟩ := count_eq (setF s (ringReg n 0) 3 3 1) (cCmd 8) 1
  exact ⟨_, k, hk⟩

theorem sendReply_eq (s : State) (r : Reply) :
    ∃ x p g k, sendReply s r = { s with csr := x, ports := p, rings := g, counts := k } := by
  obtain ⟨k, hk⟩ := count_eq s (cCmd (2 + r.status.toNat / 256)) 1
  unfold sendReply
  dsimp only
  rw [hk]
  split
  next n _ =>
    split
    · exact ⟨s.csr, s.ports, _, k, rfl⟩
    · obtain ⟨x, j, hx⟩ := discardReply_eq { s with counts := k } n
      exact ⟨x, s.ports, s.rings, j, hx⟩
  next p _ =>
    split
    · obtain ⟨j, hj⟩ := count_eq { s with counts := k } (cPort p 22) 1
      exact ⟨s.csr, s.ports, s.rings, j, hj⟩
    · exact ⟨s.csr, _, s.rings, k, rfl⟩

/-- A reply changes the ring's control register, the port or the ring that takes it, the commands and the counters. -/
theorem reply_eq (s : State) (c : Cmd) (st : BitVec 16) (result : Nat) (data : List Byte) :
    ∃ x p g m k, reply s c st result data = { s with csr := x, ports := p, rings := g, cmds := m, counts := k } := by
  unfold reply
  dsimp only
  split
  · split
    next p _ =>
      obtain ⟨k, hk⟩ := count_eq { s with cmds := { answered s.cmds c with
        dropped := (answered s.cmds c).dropped.erase c } } (cPort p 22) 1
      exact ⟨s.csr, s.ports, s.rings, _, k, hk⟩
    next n _ =>
      obtain ⟨x, k, hx⟩ := discardReply_eq { s with cmds := { answered s.cmds c with
        dropped := (answered s.cmds c).dropped.erase c } } n
      exact ⟨x, s.ports, s.rings, _, k, hx⟩
  · obtain ⟨x, p, g, k, hx⟩ := sendReply_eq { s with cmds := answered s.cmds c }
      { src := c.src, initiator := c.initiator, opcode := c.opcode, tag := c.tag, status := st,
        result := BitVec.ofNat 64 result, data := data }
    exact ⟨x, p, g, _, k, hx⟩

theorem sameMemory_reply (s : State) (c : Cmd) (st : BitVec 16) (result : Nat) (data : List Byte) :
    SameMemory s (reply s c st result data) := by
  obtain ⟨x, p, g, m, k, h⟩ := reply_eq s c st result data
  rw [h]
  exact sameMemory_of_eq rfl rfl

/-- The registers of the rings begin at 0x02B81000, above every table of the crossbar. -/
theorem rd_discardReply_of_lt (s : State) (n : Nat) {o : Nat} (h : o < 0x02B81000) :
    rd (discardReply s n) o = rd s o := by
  rw [discardReply, rd_count]
  exact rd_setF_other _ _ _ _ (by unfold ringReg; omega)

theorem rd_sendReply_of_lt (s : State) (r : Reply) {o : Nat} (h : o < 0x02B81000) : rd (sendReply s r) o = rd s o := by
  unfold sendReply
  dsimp only
  split
  · rw [rd_ite, rd_discardReply_of_lt _ _ h, rd_setRing, rd_count, ite_self]
  · rw [rd_ite, rd_modPort, rd_count, rd_count, ite_self]

theorem rd_reply_of_lt (s : State) (c : Cmd) (st : BitVec 16) (result : Nat) (data : List Byte) {o : Nat}
    (h : o < 0x02B81000) : rd (reply s c st result data) o = rd s o := by
  unfold reply
  dsimp only
  split
  · split
    · exact rd_count ..
    · exact rd_discardReply_of_lt _ _ h
  · exact rd_sendReply_of_lt _ _ h

end Sys2Proof.Machine
end

section
/-! PROOF. NOP, and the commands of initiators, administrative rights and flows (O30). -/

namespace Sys2Proof.Machine

open Sys2Proof

theorem nop_answers_timebase {s : State} {c : Cmd} (h : ready s c 0x0000 = true) :
    exec (.nop c) s = .next (reply s c rcSuccess s.now.toNat []) := by
  change execNop c s = _
  exact runCmd_of_ready h _

/-! ## INIT_DEFINE (R52, R368) -/

/-- The ports on which INIT_DEFINE leaves the initiator valid. -/
def keptPorts (c : Cmd) : Nat := if p0 c 16 16 = 1 then p0 c 47 32 else 0

/-- What INIT_DEFINE leaves before its answer. -/
def initWritten (s : State) (c : Cmd) : State :=
  endSubs (wr s (keyInit (p0 c 11 0)) (BitVec.ofNat 32 (p0 c 16 16 * 2 ^ 31 + p0 c 47 32))) (p0 c 11 0) (keptPorts c)

/-- An open flow of the initiator is on a port that INIT_DEFINE takes away. -/
def losesFlow (s : State) (c : Cmd) : Bool :=
  (openFlows s).any (fun f => flwInit s f == p0 c 11 0 && !bit (keptPorts c) (flwPort s f))

theorem initDefined_eq (s : State) (c : Cmd) :
    initDefined s c = orFail s c [(losesFlow s c, rcInUse)] (answer (initWritten s c) c rcSuccess) := rfl

theorem losesFlow_iff (s : State) (c : Cmd) : losesFlow s c = true ↔
    ∃ f ∈ openFlows s, flwInit s f = p0 c 11 0 ∧ bit (keptPorts c) (flwPort s f) = false := by
  simp [losesFlow]

theorem losesFlow_eq_false_iff (s : State) (c : Cmd) : losesFlow s c = false ↔
    ∀ f ∈ openFlows s, flwInit s f = p0 c 11 0 → bit (keptPorts c) (flwPort s f) = true := by
  simp [losesFlow]

theorem rd_initWritten (s : State) (c : Cmd) (o : Nat) : rd (initWritten s c) o =
    rd (wr s (keyInit (p0 c 11 0)) (BitVec.ofNat 32 (p0 c 16 16 * 2 ^ 31 + p0 c 47 32))) o :=
  rd_withCmds ..

theorem sameMemory_initWritten (s : State) (c : Cmd) : SameMemory s (initWritten s c) :=
  sameMemory_trans (sameMemory_wr _ _ _) (sameMemory_withCmds _ _)

theorem taken_initWritten (s : State) (c : Cmd) : (initWritten s c).cmds.taken = s.cmds.taken := by
  rw [initWritten, endSubs, wr_cmds]

theorem initDefine_runs {s : State} {c : Cmd} (h : ready s c 0x0100 = true) :
    exec (.initDefine c) s = .next (initDefined s c) := by
  change execInitDefine c s = _
  exact runCmd_of_ready h _

theorem initDefine_defines {s : State} {c : Cmd} (h : ready s c 0x0100 = true)
    (hf : ∀ f ∈ openFlows s, flwInit s f = p0 c 11 0 → bit (keptPorts c) (flwPort s f) = true) :
    ∃ b, exec (.initDefine c) s = .next (answer b c rcSuccess) ∧
      rd b (keyInit (p0 c 11 0)) = BitVec.ofNat 32 (p0 c 16 16 * 2 ^ 31 + p0 c 47 32) ∧
      RegsBut [keyInit (p0 c 11 0)] s b ∧ b.cmds.taken = s.cmds.taken ∧ SameMemory s b := by
  have hpass : Passes [(losesFlow s c, rcInUse)] := passes_cons ((losesFlow_eq_false_iff s c).2 hf) _ passes_nil
  refine ⟨initWritten s c, ?_, ?_, fun o ho => ?_, taken_initWritten s c, sameMemory_initWritten s c⟩
  · rw [initDefine_runs h, initDefined_eq, orFail_of_passes hpass]
  · rw [rd_initWritten, rd_wr_same]
  · rw [rd_initWritten]
    exact regsBut_wr _ _ _ o ho

theorem initDefine_in_use {s : State} {c : Cmd} (h : ready s c 0x0100 = true)
    (hf : ∃ f ∈ openFlows s, flwInit s f = p0 c 11 0 ∧ bit (keptPorts c) (flwPort s f) = false) :
    exec (.initDefine c) s = .next (answer s c rcInUse) := by
  rw [initDefine_runs h, initDefined_eq, orFail_of_failed ((losesFlow_iff s c).2 hf)]

/-! ## ADMIN_SET (R386) -/

theorem adminSet_sets {s : State} {c : Cmd} (h : ready s c 0x0105 = true) :
    ∃ b, exec (.adminSet c) s = .next (answer b c rcSuccess) ∧
      flag b (adminReg (p0 c 11 0 / 32)) (p0 c 11 0 % 32) = bit c.p0.toNat 16 ∧
      RegsBut [adminReg (p0 c 11 0 / 32)] s b := by
  have hi : p0 c 11 0 % 32 < 32 := Nat.mod_lt _ (by decide)
  have hexec : exec (.adminSet c) s = .next (answer
      (setF s (adminReg (p0 c 11 0 / 32)) (p0 c 11 0 % 32) (p0 c 11 0 % 32) (p0 c 16 16)) c rcSuccess) := by
    change execAdminSet c s = _
    exact runCmd_of_ready h _
  refine ⟨_, hexec, ?_, regsBut_setF _ _ _ _ _⟩
  rw [flag_setF_same _ _ _ _ _ _ le_rfl hi, if_pos ⟨le_rfl, le_rfl⟩, Nat.sub_self, p0, bit_bits]
  rfl

/-! ## FLOW_OPEN (R54, R55) -/

theorem p0_lt (c : Cmd) (hi lo : Nat) : p0 c hi lo < 2 ^ (hi - lo + 1) := Nat.mod_lt _ (Nat.two_pow_pos _)

theorem p1_lt (c : Cmd) (hi lo : Nat) : p1 c hi lo < 2 ^ (hi - lo + 1) := Nat.mod_lt _ (Nat.two_pow_pos _)

/-- Word 0 of an open flow. -/
def flowWord (port init key : Nat) : Reg32 := BitVec.ofNat 32 (2 ^ 30 + port * 2 ^ 24 + init * 2 ^ 12 + key)

theorem flowWord_fields {port init key : Nat} (hp : port < 16) (hi : init < 4096) (hk : key < 4096) :
    bits (flowWord port init key).toNat 31 30 = 1 ∧ bits (flowWord port init key).toNat 27 24 = port ∧
    bits (flowWord port init key).toNat 23 12 = init ∧ bits (flowWord port init key).toNat 11 0 = key := by
  have hw : (flowWord port init key).toNat = 2 ^ 30 + port * 2 ^ 24 + init * 2 ^ 12 + key := by
    rw [flowWord, BitVec.toNat_ofNat]
    omega
  rw [hw]
  simp only [bits, Nat.reduceSub, Nat.reduceAdd, Nat.reducePow]
  omega

theorem rd_wr_flow_other (s : State) (f : Nat) (v : Reg32) {j k : Nat} (h : k ≠ j) :
    rd (wr s (flwReg f j) v) (flwReg f k) = rd s (flwReg f k) := rd_wr_other s v (flwReg_ne h)

theorem rd_openFlow_word (s : State) (f port init key cls : Nat) :
    rd (openFlow s f port init key cls) (flwReg f 0) = flowWord port init key ∧
    rd (openFlow s f port init key cls) (flwReg f 1) = BitVec.ofNat 32 cls ∧
    rd (openFlow s f port init key cls) (flwReg f 3) = 0 := by
  unfold openFlow flowWord
  refine ⟨?_, ?_, ?_⟩ <;> simp (disch := decide) only [rd_wr_flow_other, rd_wr_same]

theorem regsBut_openFlow (s : State) (f port init key cls : Nat) :
    RegsBut [flwReg f 0, flwReg f 1, flwReg f 3, flwReg f 4, flwReg f 5] s (openFlow s f port init key cls) := by
  intro o ho
  simp only [List.mem_cons, List.not_mem_nil, or_false, not_or] at ho
  obtain ⟨h0, h1, h3, h4, h5⟩ := ho
  rw [openFlow, rd_wr_other _ _ h5, rd_wr_other _ _ h4, rd_wr_other _ _ h3, rd_wr_other _ _ h1, rd_wr_other _ _ h0]

theorem cmds_openFlow (s : State) (f port init key cls : Nat) : (openFlow s f port init key cls).cmds = s.cmds := by
  rw [openFlow, wr_cmds, wr_cmds, wr_cmds, wr_cmds, wr_cmds]

theorem sameMemory_openFlow (s : State) (f port init key cls : Nat) :
    SameMemory s (openFlow s f port init key cls) := by
  unfold openFlow
  exact sameMemory_trans (sameMemory_wr _ _ _) (sameMemory_trans (sameMemory_wr _ _ _) (sameMemory_trans
    (sameMemory_wr _ _ _) (sameMemory_trans (sameMemory_wr _ _ _) (sameMemory_wr _ _ _))))

theorem flowOpen_opens {s : State} {c : Cmd} (h : ready s c 0x0101 = true) (h0 : p0 c 17 0 ≠ 0)
    (hfree : flwState s (p0 c 17 0) = 0) (hinit : initOn s (p0 c 43 32) (p0 c 27 24) = true)
    (hkey : flag s (keyHdr (p0 c 59 48)) 31 = true) :
    let f := p0 c 17 0
    ∃ b, exec (.flowOpen c) s = .next (answer b c rcSuccess) ∧ flwState b f = 1 ∧ flwPort b f = p0 c 27 24 ∧
      flwInit b f = p0 c 43 32 ∧ flwKey b f = p0 c 59 48 ∧ flwClass b f = p1 c 7 0 ∧ rd b (flwReg f 3) = 0 ∧
      RegsBut [flwReg f 0, flwReg f 1, flwReg f 3, flwReg f 4, flwReg f 5] s b ∧ b.cmds = s.cmds ∧
      SameMemory s b := by
  have hpass : Passes [(p0 c 17 0 == 0, rcBadValue), (flwState s (p0 c 17 0) != 0, rcInUse),
      (!initOn s (p0 c 43 32) (p0 c 27 24) || !flag s (keyHdr (p0 c 59 48)) 31, rcBadRef)] :=
    passes_cons (beq_false_of_ne h0) _ (passes_cons (by simp [hfree]) _
      (passes_cons (by simp [hinit, hkey]) _ passes_nil))
  have hexec : exec (.flowOpen c) s = .next (flowOpened s c) := by
    change execFlowOpen c s = _
    exact runCmd_of_ready h _
  obtain ⟨hw0, hw1, hw3⟩ := rd_openFlow_word s (p0 c 17 0) (p0 c 27 24) (p0 c 43 32) (p0 c 59 48) (p1 c 7 0)
  obtain ⟨hstate, hport, hini, hk⟩ := flowWord_fields (p0_lt c 27 24) (p0_lt c 43 32) (p0_lt c 59 48)
  have hcls := p1_lt c 7 0
  refine ⟨openFlow s (p0 c 17 0) (p0 c 27 24) (p0 c 43 32) (p0 c 59 48) (p1 c 7 0), ?_, ?_, ?_, ?_, ?_, ?_, hw3,
    regsBut_openFlow _ _ _ _ _ _, cmds_openFlow .., sameMemory_openFlow _ _ _ _ _ _⟩
  · rw [hexec]
    exact congrArg Host.Outcome.next (orFail_of_passes hpass ..)
  · rw [flwState, fld, hw0, hstate]
  · rw [flwPort, fld, hw0, hport]
  · rw [flwInit, fld, hw0, hini]
  · rw [flwKey, fld, hw0, hk]
  · rw [flwClass, fld, hw1, BitVec.toNat_ofNat, bits]
    omega

/-! ## FLOW_CLOSE (R56) -/

/-- Command `c` joins those that wait for the last completion of flow `f`. -/
def awaitClose (s : State) (f : Nat) (c : Cmd) : State :=
  { s with cmds := { s.cmds with closing := s.cmds.closing ++ [(BitVec.ofNat 18 f, c)] } }

theorem rd_awaitClose (s : State) (f : Nat) (c : Cmd) (o : Nat) : rd (awaitClose s f c) o = rd s o := rd_withCmds ..

/-- The flow is closing, and its command waits for the last completion. -/
def flowClosing (s : State) (c : Cmd) : State :=
  awaitClose (setF (begin s c) (flwReg (p0 c 17 0) 0) 31 30 2) (p0 c 17 0) c

/-- The flow is closed, and no command waits for it. -/
def flowShut (s : State) (f : Nat) : State :=
  setF { s with cmds := { s.cmds with closing := s.cmds.closing.filter (fun x => x.1.toNat != f) } }
    (flwReg f 0) 31 30 0

theorem flowClosed_of_open {s : State} {c : Cmd} (h0 : p0 c 17 0 ≠ 0) (hs : flwState s (p0 c 17 0) ≠ 0) :
    flowClosed s c = closeFlow (flowClosing s c) (p0 c 17 0) := by
  rw [flowClosed, if_neg h0, if_neg hs]
  rfl

theorem closeFlow_of_outstanding {s : State} {f : Nat} {e : BitVec 18 × Cmd}
    (he : s.cmds.closing.find? (fun x => x.1.toNat == f) = some e) (hn : fld s (flwReg f 2) 15 0 ≠ 0) :
    closeFlow s f = s := by
  rw [closeFlow, he]
  exact if_pos hn

theorem closeFlow_of_done {s : State} {f : Nat} {e : BitVec 18 × Cmd}
    (he : s.cmds.closing.find? (fun x => x.1.toNat == f) = some e) (hn : fld s (flwReg f 2) 15 0 = 0) :
    closeFlow s f = answer (flowShut s f) e.2 rcSuccess := by
  rw [closeFlow, he]
  exact if_neg (not_not_intro hn)

theorem flwState_flowShut (s : State) (f : Nat) : flwState (flowShut s f) f = 0 :=
  fld_setF_same _ _ _ _ _ (by decide) (by decide)

theorem regsBut_flowShut (s : State) (f : Nat) : RegsBut [flwReg f 0] s (flowShut s f) :=
  regsBut_trans (fun o _ => rd_withCmds s _ o) (regsBut_setF _ _ _ _ _)

theorem sameMemory_flowShut (s : State) (f : Nat) : SameMemory s (flowShut s f) :=
  sameMemory_trans (sameMemory_withCmds _ _) (sameMemory_setF _ _ _ _ _)

theorem outstanding_flowClosing (s : State) (c : Cmd) :
    fld (flowClosing s c) (flwReg (p0 c 17 0) 2) 15 0 = fld s (flwReg (p0 c 17 0) 2) 15 0 := by
  rw [fld, flowClosing, rd_awaitClose, rd_setF_other _ _ _ _ (flwReg_ne (by decide)), rd_begin, ← fld]

theorem flwState_flowClosing (s : State) (c : Cmd) : flwState (flowClosing s c) (p0 c 17 0) = 2 := by
  rw [flwState, fld, flowClosing, rd_awaitClose, ← fld]
  exact fld_setF_same _ _ _ _ _ (by decide) (by decide)

theorem cmds_flowClosing (s : State) (c : Cmd) : (flowClosing s c).cmds = { s.cmds with
    begun := s.cmds.begun ++ [c], closing := s.cmds.closing ++ [(BitVec.ofNat 18 (p0 c 17 0), c)] } := by
  rw [flowClosing, awaitClose, setF_cmds]
  rfl

theorem sameMemory_flowClosing (s : State) (c : Cmd) : SameMemory s (flowClosing s c) :=
  sameMemory_trans (sameMemory_begin s c) (sameMemory_trans (sameMemory_setF _ _ _ _ _) (sameMemory_withCmds _ _))

theorem find?_flowClosing {s : State} {c : Cmd} (h : ∀ e ∈ s.cmds.closing, e.1.toNat ≠ p0 c 17 0) :
    (flowClosing s c).cmds.closing.find? (fun x => x.1.toNat == p0 c 17 0) =
      some (BitVec.ofNat 18 (p0 c 17 0), c) := by
  rw [cmds_flowClosing]
  refine find?_append_last (fun e he => beq_false_of_ne (h e he)) ?_
  rw [BitVec.toNat_ofNat, Nat.mod_eq_of_lt (p0_lt c 17 0), beq_self_eq_true]

theorem flowClose_closes {s : State} {c : Cmd} (h : ready s c 0x0102 = true) (h0 : p0 c 17 0 ≠ 0)
    (hs : flwState s (p0 c 17 0) ≠ 0) (hc : ∀ e ∈ s.cmds.closing, e.1.toNat ≠ p0 c 17 0) :
    Completes (.flowClose c) s (fun u =>
      (fld s (flwReg (p0 c 17 0) 2) 15 0 = 0 → flwState u (p0 c 17 0) = 0) ∧
      (fld s (flwReg (p0 c 17 0) 2) 15 0 ≠ 0 → flwState u (p0 c 17 0) = 2 ∧ c ∈ u.cmds.begun) ∧
      SameMemory s u) := by
  have hexec : exec (.flowClose c) s = .next (closeFlow (flowClosing s c) (p0 c 17 0)) := by
    rw [← flowClosed_of_open h0 hs]
    change execFlowClose c s = _
    exact runCmd_of_ready h _
  have hmem := sameMemory_flowClosing s c
  refine ⟨_, hexec, ?_⟩
  by_cases hn : fld s (flwReg (p0 c 17 0) 2) 15 0 = 0
  · have hf := p0_lt c 17 0
    have hlow : flwReg (p0 c 17 0) 0 < 0x02B81000 := by
      unfold flwReg
      omega
    rw [closeFlow_of_done (find?_flowClosing hc) ((outstanding_flowClosing s c).trans hn)]
    refine ⟨fun _ => ?_, fun hn' => absurd hn hn', ?_⟩
    · rw [flwState, fld, answer, rd_reply_of_lt _ _ _ _ _ hlow]
      exact flwState_flowShut ..
    · exact sameMemory_trans hmem (sameMemory_trans (sameMemory_flowShut _ _) (sameMemory_reply _ _ _ _ _))
  · rw [closeFlow_of_outstanding (find?_flowClosing hc) (by rwa [outstanding_flowClosing])]
    refine ⟨fun hn' => absurd hn' hn, fun _ => ⟨flwState_flowClosing s c, ?_⟩, hmem⟩
    rw [cmds_flowClosing]
    exact List.mem_append_right _ (List.mem_singleton_self c)

theorem flowCloseDone_answers {s : State} {f : BitVec 18} {e : BitVec 18 × Cmd} (hr : running s = true)
    (he : s.cmds.closing.find? (fun x => x.1.toNat == f.toNat) = some e) (hn : fld s (flwReg f.toNat 2) 15 0 = 0) :
    ∃ b, exec (.flowCloseDone f) s = .next (answer b e.2 rcSuccess) ∧ flwState b f.toNat = 0 ∧
      RegsBut [flwReg f.toNat 0] s b ∧ SameMemory s b := by
  have hexec : exec (.flowCloseDone f) s = .next (closeFlow s f.toNat) := by
    change execFlowCloseDone f s = _
    rw [execFlowCloseDone, hr, when_true]
  exact ⟨flowShut s f.toNat, by rw [hexec, closeFlow_of_done he hn], flwState_flowShut ..,
    regsBut_flowShut s f.toNat, sameMemory_flowShut s f.toNat⟩

/-- Settles O30: the clauses in their order, each by the lemma about its command. -/
theorem flowAndInitiatorCommands : Obligations.FlowAndInitiatorCommands := fun _ _ =>
  ⟨nop_answers_timebase, fun h => ⟨initDefine_defines h, initDefine_in_use h⟩, adminSet_sets, flowOpen_opens,
    flowClose_closes, fun _ _ => flowCloseDone_answers⟩

end Sys2Proof.Machine
end

section
/-! PROOF. Key changes: what a key grants afterwards, and when the command is answered (O31). -/

namespace Sys2Proof.Machine

open Sys2Proof

/-! ## What a key grants (R57, R58) -/

theorem bit_foldUpTo_or (P : Nat → Prop) [DecidablePred P] (f : Nat → Nat) (i n : Nat) :
    bit (foldUpTo n (fun p j => if P j then p ||| f j else p) 0) i = true ↔
      ∃ j, j < n ∧ P j ∧ bit (f j) i = true := by
  induction n with
  | zero => simp [foldUpTo, bit]
  | succ n ih =>
    rw [foldUpTo_succ]
    by_cases hn : P n
    · rw [if_pos hn, bit_or, Bool.or_eq_true, ih]
      constructor
      · rintro (⟨j, hj, hP, hb⟩ | hb)
        · exact ⟨j, by omega, hP, hb⟩
        · exact ⟨n, by omega, hn, hb⟩
      · rintro ⟨j, hj, hP, hb⟩
        obtain hj | rfl := Nat.lt_succ_iff_lt_or_eq.1 hj
        · exact .inl ⟨j, hj, hP, hb⟩
        · exact .inr hb
    · rw [if_neg hn, ih]
      constructor
      · rintro ⟨j, hj, h⟩
        exact ⟨j, by omega, h⟩
      · rintro ⟨j, hj, hP, hb⟩
        have hne : j ≠ n := fun h => hn (h ▸ hP)
        exact ⟨j, by omega, hP, hb⟩

/-- Extent `n` of key `k` covers region `r`. -/
def covers (s : State) (k r n : Nat) : Prop :=
  fld s (keyLo k n) 15 0 ≤ r ∧ r < fld s (keyLo k n) 15 0 + fld s (keyHi k n) 16 0

theorem keyPerm_of_invalid {s : State} {k : Nat} (h : flag s (keyHdr k) 31 = false) (r : Nat) : keyPerm s k r = 0 := by
  rw [keyPerm, h]
  rfl

/-- A valid key grants the union of its extents. -/
theorem bit_keyPerm {s : State} {k : Nat} (h : flag s (keyHdr k) 31 = true) (r i : Nat) :
    bit (keyPerm s k r) i = true ↔ ∃ n, n < 8 ∧ covers s k r n ∧ bit (fld s (keyHi k n) 28 24) i = true := by
  rw [keyPerm, h]
  exact bit_foldUpTo_or (fun n => fld s (keyLo k n) 15 0 ≤ r ∧ r < fld s (keyLo k n) 15 0 + fld s (keyHi k n) 16 0)
    (fun n => fld s (keyHi k n) 28 24) i 8

/-! ## The words of a key -/

theorem keyHdr_ne_keyLo (k n : Nat) : keyHdr k ≠ keyLo k n := by
  unfold keyHdr keyLo
  omega

theorem keyHdr_ne_keyHi (k n : Nat) : keyHdr k ≠ keyHi k n := by
  unfold keyHdr keyHi
  omega

theorem keyLo_ne_keyHi (k n j : Nat) : keyLo k n ≠ keyHi k j := by
  unfold keyLo keyHi
  omega

theorem keyLo_ne {k n j : Nat} (h : n ≠ j) : keyLo k n ≠ keyLo k j := by
  unfold keyLo
  omega

theorem keyHi_ne {k n j : Nat} (h : n ≠ j) : keyHi k n ≠ keyHi k j := by
  unfold keyHi
  omega

/-- The words of keys lie below the registers of the rings. -/
theorem keyWords_lt {k n : Nat} (hk : k < 4096) (hn : n < 8) :
    keyHdr k < 0x02B81000 ∧ keyLo k n < 0x02B81000 ∧ keyHi k n < 0x02B81000 := by
  unfold keyHdr keyLo keyHi
  omega

/-- The two words of extent `n` of key `k`. -/
def putExtent (k : Nat) (ext : Nat → Nat × Nat) (s : State) (n : Nat) : State :=
  wr (wr s (keyLo k n) (BitVec.ofNat 32 (ext n).1)) (keyHi k n) (BitVec.ofNat 32 (ext n).2)

theorem rd_putExtents_hdr (k : Nat) (ext : Nat → Nat × Nat) (s : State) (n : Nat) :
    rd (foldUpTo n (putExtent k ext) s) (keyHdr k) = rd s (keyHdr k) := by
  induction n with
  | zero => rfl
  | succ n ih =>
    rw [foldUpTo_succ, putExtent, rd_wr_other _ _ (keyHdr_ne_keyHi k n), rd_wr_other _ _ (keyHdr_ne_keyLo k n), ih]

theorem rd_putExtents_lo (k : Nat) (ext : Nat → Nat × Nat) (s : State) {n j : Nat} (h : j < n) :
    rd (foldUpTo n (putExtent k ext) s) (keyLo k j) = BitVec.ofNat 32 (ext j).1 := by
  induction n with
  | zero => exact absurd h (Nat.not_lt_zero j)
  | succ n ih =>
    rw [foldUpTo_succ, putExtent, rd_wr_other _ _ (keyLo_ne_keyHi k j n)]
    by_cases hj : j = n
    · rw [hj, rd_wr_same]
    · rw [rd_wr_other _ _ (keyLo_ne hj), ih (by omega)]

theorem rd_putExtents_hi (k : Nat) (ext : Nat → Nat × Nat) (s : State) {n j : Nat} (h : j < n) :
    rd (foldUpTo n (putExtent k ext) s) (keyHi k j) = BitVec.ofNat 32 (ext j).2 := by
  induction n with
  | zero => exact absurd h (Nat.not_lt_zero j)
  | succ n ih =>
    rw [foldUpTo_succ, putExtent]
    by_cases hj : j = n
    · rw [hj, rd_wr_same]
    · rw [rd_wr_other _ _ (keyHi_ne hj), rd_wr_other _ _ (keyLo_ne_keyHi k n j).symm, ih (by omega)]

theorem sameMemory_putExtents (k : Nat) (ext : Nat → Nat × Nat) (s : State) (n : Nat) :
    SameMemory s (foldUpTo n (putExtent k ext) s) := by
  induction n with
  | zero => exact sameMemory_of_eq rfl rfl
  | succ n ih =>
    rw [foldUpTo_succ]
    exact sameMemory_trans ih (sameMemory_trans (sameMemory_wr _ _ _) (sameMemory_wr _ _ _))

theorem live_putExtents (k : Nat) (ext : Nat → Nat × Nat) (s : State) (n : Nat) :
    (foldUpTo n (putExtent k ext) s).live = s.live := by
  induction n with
  | zero => rfl
  | succ n ih => rw [foldUpTo_succ, putExtent, wr_live, wr_live, ih]

theorem cmds_putExtents (k : Nat) (ext : Nat → Nat × Nat) (s : State) (n : Nat) :
    (foldUpTo n (putExtent k ext) s).cmds = s.cmds := by
  induction n with
  | zero => rfl
  | succ n ih => rw [foldUpTo_succ, putExtent, wr_cmds, wr_cmds, ih]

/-! ## The change (R57, R60) -/

/-- The accesses that were checked against the contents of key `k`. -/
def checkedBy (s : State) (k : Nat) : List Nat := (s.live.filter (fun x => x.2.2.toNat == k)).map (·.1)

/-- The header of a key after a change: VALID, and the next VERSION. -/
def nextHdr (s : State) (k : Nat) (valid : Bool) : Reg32 :=
  BitVec.ofNat 32 (b2n valid * 2 ^ 31 + (fld s (keyHdr k) 7 0 + 1) % 256)

/-- The new contents of key `k`, with command `c` begun. -/
def keyWritten (s : State) (c : Cmd) (k : Nat) (valid : Bool) (ext : Nat → Nat × Nat) : State :=
  foldUpTo 8 (putExtent k ext) (wr (begin s c) (keyHdr k) (nextHdr s k valid))

/-- Command `c` joins those that wait for the accesses `ids` of key `k`. -/
def awaitKey (s : State) (k : Nat) (c : Cmd) (ids : List Nat) : State :=
  { s with cmds := { s.cmds with keyWait := s.cmds.keyWait ++ [(BitVec.ofNat 12 k, c, ids)] } }

/-- The new contents of key `k`, with command `c` waiting for the accesses checked against the old ones. -/
def keyChanged (s : State) (c : Cmd) (k : Nat) (valid : Bool) (ext : Nat → Nat × Nat) : State :=
  awaitKey (keyWritten s c k valid ext) k c (checkedBy s k)

theorem changeKey_eq (s : State) (c : Cmd) (k : Nat) (valid : Bool) (ext : Nat → Nat × Nat) :
    changeKey s c k valid ext = keySettled (keyChanged s c k valid ext) k := rfl

section
variable (s : State) (c : Cmd) (k : Nat) (valid : Bool) (ext : Nat → Nat × Nat)

theorem rd_keyChanged (o : Nat) : rd (keyChanged s c k valid ext) o = rd (keyWritten s c k valid ext) o :=
  rd_withCmds ..

theorem rd_keyChanged_hdr : rd (keyChanged s c k valid ext) (keyHdr k) = nextHdr s k valid := by
  rw [rd_keyChanged, keyWritten, rd_putExtents_hdr, rd_wr_same]

theorem rd_keyChanged_lo {n : Nat} (hn : n < 8) :
    rd (keyChanged s c k valid ext) (keyLo k n) = BitVec.ofNat 32 (ext n).1 := by
  rw [rd_keyChanged, keyWritten, rd_putExtents_lo k ext _ hn]

theorem rd_keyChanged_hi {n : Nat} (hn : n < 8) :
    rd (keyChanged s c k valid ext) (keyHi k n) = BitVec.ofNat 32 (ext n).2 := by
  rw [rd_keyChanged, keyWritten, rd_putExtents_hi k ext _ hn]

theorem sameMemory_keyChanged : SameMemory s (keyChanged s c k valid ext) :=
  sameMemory_trans (sameMemory_begin s c) (sameMemory_trans (sameMemory_wr _ _ _)
    (sameMemory_trans (sameMemory_putExtents _ _ _ _) (sameMemory_withCmds _ _)))

theorem live_keyChanged : (keyChanged s c k valid ext).live = s.live := by
  rw [keyChanged, awaitKey, keyWritten, live_putExtents, wr_live, begin_live]

theorem cmds_keyChanged : (keyChanged s c k valid ext).cmds = { s.cmds with
    begun := s.cmds.begun ++ [c], keyWait := s.cmds.keyWait ++ [(BitVec.ofNat 12 k, c, checkedBy s k)] } := by
  rw [keyChanged, awaitKey, keyWritten, cmds_putExtents, wr_cmds]
  rfl

end

/-! ## The answer (R60) -/

/-- No command waits any more for the accesses of key `k`. -/
def keyReleased (s : State) (k : Nat) : State :=
  { s with cmds := { s.cmds with keyWait := s.cmds.keyWait.filter (fun x => x.1.toNat != k) } }

theorem keySettled_of_live {s : State} {k : Nat} {e : BitVec 12 × Cmd × List Nat}
    (he : s.cmds.keyWait.find? (fun x => x.1.toNat == k) = some e) (hl : ∃ x ∈ s.live, x.1 ∈ e.2.2) :
    keySettled s k = s := by
  have hany : (s.live.any fun x => e.2.2.contains x.1) = true := by simpa using hl
  rw [keySettled, he]
  exact if_pos hany

theorem keySettled_of_done {s : State} {k : Nat} {e : BitVec 12 × Cmd × List Nat}
    (he : s.cmds.keyWait.find? (fun x => x.1.toNat == k) = some e) (hl : ∀ x ∈ s.live, x.1 ∉ e.2.2) :
    keySettled s k = reply (keyReleased s k) e.2.1 rcSuccess
      (if e.2.1.opcode = 0x0103 then fld (keyReleased s k) (keyHdr k) 7 0 else 0) [] := by
  have hany : ¬ (s.live.any fun x => e.2.2.contains x.1) = true := by simpa using hl
  rw [keySettled, he]
  exact if_neg hany

/-- Whether the command is answered or not, the tables and the memories stay. -/
theorem keySettled_frame (s : State) (k : Nat) :
    (∀ o, o < 0x02B81000 → rd (keySettled s k) o = rd s o) ∧ SameMemory s (keySettled s k) := by
  cases he : s.cmds.keyWait.find? (fun x => x.1.toNat == k) with
  | none =>
    have h : keySettled s k = s := by rw [keySettled, he]
    rw [h]
    exact ⟨fun _ _ => rfl, sameMemory_of_eq rfl rfl⟩
  | some e =>
    by_cases hl : ∃ x ∈ s.live, x.1 ∈ e.2.2
    · rw [keySettled_of_live he hl]
      exact ⟨fun _ _ => rfl, sameMemory_of_eq rfl rfl⟩
    · rw [keySettled_of_done he (by simpa using hl)]
      exact ⟨fun o ho => rd_reply_of_lt _ _ _ _ _ ho,
        sameMemory_trans (sameMemory_withCmds _ _) (sameMemory_reply _ _ _ _ _)⟩

/-! ## KEY_DEFINE and KEY_REVOKE -/

section
variable {s : State} {c : Cmd} {k : Nat} (valid : Bool) (ext : Nat → Nat × Nat)

/-- A key change that finds accesses checked against the old contents stays begun. -/
theorem changeKey_waits (hk : k < 4096) (hw : ∀ e ∈ s.cmds.keyWait, e.1.toNat ≠ k)
    (hl : ∃ x ∈ s.live, x.2.2.toNat = k) : c ∈ (changeKey s c k valid ext).cmds.begun := by
  have hfind : (keyChanged s c k valid ext).cmds.keyWait.find? (fun x => x.1.toNat == k) =
      some (BitVec.ofNat 12 k, c, checkedBy s k) := by
    rw [cmds_keyChanged]
    refine find?_append_last (fun e he => beq_false_of_ne (hw e he)) ?_
    rw [BitVec.toNat_ofNat, Nat.mod_eq_of_lt hk, beq_self_eq_true]
  have hlive : ∃ x ∈ (keyChanged s c k valid ext).live, x.1 ∈ checkedBy s k := by
    obtain ⟨x, hx, hxk⟩ := hl
    rw [live_keyChanged]
    exact ⟨x, hx, List.mem_map_of_mem (List.mem_filter.2 ⟨hx, beq_of_eq hxk⟩)⟩
  rw [changeKey_eq, keySettled_of_live hfind hlive, cmds_keyChanged]
  exact List.mem_append_right _ (List.mem_singleton_self c)

theorem sameMemory_changeKey : SameMemory s (changeKey s c k valid ext) :=
  sameMemory_trans (sameMemory_keyChanged s c k valid ext) (keySettled_frame _ k).2

theorem rd_changeKey_hdr (hk : k < 4096) : rd (changeKey s c k valid ext) (keyHdr k) = nextHdr s k valid := by
  obtain ⟨hhdr, -, -⟩ := keyWords_lt hk (n := 0) (by decide)
  rw [changeKey_eq, (keySettled_frame _ k).1 _ hhdr, rd_keyChanged_hdr]

theorem rd_changeKey_extent (hk : k < 4096) {n : Nat} (hn : n < 8) :
    rd (changeKey s c k valid ext) (keyLo k n) = BitVec.ofNat 32 (ext n).1 ∧
    rd (changeKey s c k valid ext) (keyHi k n) = BitVec.ofNat 32 (ext n).2 := by
  obtain ⟨-, hlo, hhi⟩ := keyWords_lt hk hn
  have hframe := (keySettled_frame (keyChanged s c k valid ext) k).1
  rw [changeKey_eq, hframe _ hlo, hframe _ hhi]
  exact ⟨rd_keyChanged_lo s c k valid ext hn, rd_keyChanged_hi s c k valid ext hn⟩

end

theorem nextHdr_fields (s : State) (k : Nat) (valid : Bool) :
    bit (nextHdr s k valid).toNat 31 = valid ∧
    bits (nextHdr s k valid).toNat 7 0 = (fld s (keyHdr k) 7 0 + 1) % 256 := by
  have hv : b2n valid ≤ 1 := by cases valid <;> decide
  have hw : (nextHdr s k valid).toNat = b2n valid * 2 ^ 31 + (fld s (keyHdr k) 7 0 + 1) % 256 := by
    rw [nextHdr, BitVec.toNat_ofNat]
    omega
  rw [hw]
  constructor
  · have hd : (b2n valid * 2 ^ 31 + (fld s (keyHdr k) 7 0 + 1) % 256) / 2 ^ 31 = b2n valid := by omega
    rw [bit, Nat.testBit_eq_decide_div_mod_eq, hd]
    cases valid <;> rfl
  · simp only [bits, Nat.reduceSub, Nat.reduceAdd, Nat.reducePow]
    omega

/-- The words of an extent of KEY_DEFINE: FIRST, and COUNT with the permissions (R363). -/
def definedExtent (c : Cmd) (n : Nat) : Nat × Nat :=
  (bits (extWord c n) 15 0, bits (extWord c n) 32 16 + bits (extWord c n) 37 33 * 2 ^ 24)

theorem definedExtent_fields (c : Cmd) (n : Nat) :
    bits (BitVec.ofNat 32 (definedExtent c n).1).toNat 15 0 = bits (extWord c n) 15 0 ∧
    bits (BitVec.ofNat 32 (definedExtent c n).2).toNat 16 0 = bits (extWord c n) 32 16 ∧
    bits (BitVec.ofNat 32 (definedExtent c n).2).toNat 28 24 = bits (extWord c n) 37 33 := by
  simp only [definedExtent, BitVec.toNat_ofNat, bits, Nat.reduceSub, Nat.reduceAdd, Nat.reducePow]
  omega

theorem keyDefine_completes {s : State} {c : Cmd} (hw : ∀ e ∈ s.cmds.keyWait, e.1.toNat ≠ p0 c 11 0)
    (h : ready s c 0x0103 = true) (hext : ∀ n, n < 8 → badExtent s (extWord c n) = false) :
    let k := p0 c 11 0
    Completes (.keyDefine c) s (fun u => flag u (keyHdr k) 31 = true ∧
      fld u (keyHdr k) 7 0 = (fld s (keyHdr k) 7 0 + 1) % 256 ∧
      (∀ r i, i < 5 → (bit (keyPerm u k r) i = true ↔
        ∃ n, n < 8 ∧ bits (extWord c n) 15 0 ≤ r ∧ r < bits (extWord c n) 15 0 + bits (extWord c n) 32 16 ∧
          bit (bits (extWord c n) 37 33) i = true)) ∧
      ((∃ x ∈ s.live, x.2.2.toNat = k) → c ∈ u.cmds.begun) ∧ SameMemory s u) := by
  have hk : p0 c 11 0 < 4096 := p0_lt c 11 0
  have hbad : ((List.range 8).any fun n => badExtent s (extWord c n)) = false := by simpa using hext
  have hexec : exec (.keyDefine c) s = .next (changeKey s c (p0 c 11 0) true (definedExtent c)) := by
    change execKeyDefine c s = _
    exact (runCmd_of_ready h _).trans
      (congrArg Host.Outcome.next (orFail_of_passes (passes_cons hbad _ passes_nil) ..))
  obtain ⟨hvalid, hversion⟩ := nextHdr_fields s (p0 c 11 0) true
  have hhdr := rd_changeKey_hdr (s := s) (c := c) true (definedExtent c) hk
  have hflag : flag (changeKey s c (p0 c 11 0) true (definedExtent c)) (keyHdr (p0 c 11 0)) 31 = true := by
    rw [flag, hhdr, hvalid]
  refine ⟨_, hexec, hflag, by rw [fld, hhdr, hversion], fun r i _ => ?_, changeKey_waits _ _ hk hw,
    sameMemory_changeKey _ _⟩
  rw [bit_keyPerm hflag]
  refine exists_congr fun n => and_congr_right fun hn => ?_
  obtain ⟨hlo, hhi⟩ := rd_changeKey_extent (s := s) (c := c) true (definedExtent c) hk hn
  obtain ⟨hfirst, hcount, hperm⟩ := definedExtent_fields c n
  rw [covers, fld, fld, fld, hlo, hhi, hfirst, hcount, hperm, and_assoc]

theorem keyRevoke_completes {s : State} {c : Cmd} (hw : ∀ e ∈ s.cmds.keyWait, e.1.toNat ≠ p0 c 11 0)
    (h : ready s c 0x0104 = true) :
    let k := p0 c 11 0
    Completes (.keyRevoke c) s (fun u => (∀ r, keyPerm u k r = 0) ∧
      fld u (keyHdr k) 7 0 = (fld s (keyHdr k) 7 0 + 1) % 256 ∧
      ((∃ x ∈ s.live, x.2.2.toNat = k) → c ∈ u.cmds.begun) ∧ SameMemory s u) := by
  have hk : p0 c 11 0 < 4096 := p0_lt c 11 0
  have hexec : exec (.keyRevoke c) s = .next (changeKey s c (p0 c 11 0) false (fun _ => (0, 0))) := by
    change execKeyRevoke c s = _
    exact runCmd_of_ready h _
  obtain ⟨hvalid, hversion⟩ := nextHdr_fields s (p0 c 11 0) false
  have hhdr := rd_changeKey_hdr (s := s) (c := c) false (fun _ => (0, 0)) hk
  exact ⟨_, hexec, keyPerm_of_invalid (by rw [flag, hhdr, hvalid]), by rw [fld, hhdr, hversion],
    changeKey_waits _ _ hk hw, sameMemory_changeKey _ _⟩

/-! ## KEY_CHANGE_DONE -/

theorem keyChangeDone_answers {s : State} {j : BitVec 12} {e : BitVec 12 × Cmd × List Nat} (hr : running s = true)
    (he : s.cmds.keyWait.find? (fun x => x.1.toNat == j.toNat) = some e) (hl : ∀ x ∈ s.live, x.1 ∉ e.2.2) :
    ∃ b r, exec (.keyChangeDone j) s = .next (reply b e.2.1 rcSuccess r []) ∧
      r = (if e.2.1.opcode = 0x0103 then fld s (keyHdr j.toNat) 7 0 else 0) ∧ RegsBut [] s b ∧ SameMemory s b := by
  have hexec : exec (.keyChangeDone j) s = .next (keySettled s j.toNat) := by
    change execKeyChangeDone j s = _
    rw [execKeyChangeDone, hr, when_true]
  have hrd (o : Nat) : rd (keyReleased s j.toNat) o = rd s o := rd_withCmds ..
  refine ⟨keyReleased s j.toNat, _, by rw [hexec, keySettled_of_done he hl], ?_, fun o _ => hrd o,
    sameMemory_withCmds _ _⟩
  rw [fld, hrd, ← fld]

/-- Settles O31: the clauses in their order, each by the lemma about its command. -/
theorem keyCommands : Obligations.KeyCommands := fun _ _ hw =>
  ⟨keyDefine_completes hw, keyRevoke_completes hw, fun _ _ => keyChangeDone_answers⟩

end Sys2Proof.Machine
end

section
/-! PROOF. The command slot: the order of what it may serve (O14), and the access that it chooses (O15). -/

namespace Sys2Proof.Machine

open Sys2Proof

/-! ## The order within a slot (R80, R81, R88, R114, R115) -/

theorem exec_commandSlot_of_stopped {s : State} {t : Tum} (h : clocked s t = false) :
    exec (.commandSlot t) s = .next s := by
  change execCommandSlot t s = _
  rw [execCommandSlot, h, when_false]

theorem exec_commandSlot {s : State} {t : Tum} (h : clocked s t = true) :
    exec (.commandSlot t) s = .next (slotPasses (slotCommand (slotPrepared s t) t) t) := by
  change execCommandSlot t s = _
  rw [execCommandSlot, h, when_true]
  rfl

theorem slotCommand_of_relocking {s : State} {t : Nat} (h : (s.tum t).mode.rate = .relocking) : slotCommand s t = s := by
  simp [slotCommand, h]

/-- While selection is stopped the slot carries at most a precharge (R88, R91). -/
theorem slotCommand_of_quiescing {s : State} {t : Nat} (hr : (s.tum t).mode.rate ≠ .relocking)
    (h : (s.tum t).mode.rate ≠ .idle ∨ (s.tum t).training.isSome = true) : slotCommand s t = quiesceStep s t := by
  have hs : ((s.tum t).mode.rate != .idle || (s.tum t).training.isSome) = true := by
    rwa [Bool.or_eq_true, bne_iff_ne]
  unfold slotCommand
  dsimp only
  rw [if_pos hs, if_neg hr]

section

variable {s u v : State} {t : Nat} (hr : (s.tum t).mode.rate = .idle) (ht : (s.tum t).training = none)

include hr ht

theorem slotCommand_of_refresh (h : refreshStep s t = (v, true)) : slotCommand s t = endExcess v t := by
  simp [slotCommand, hr, ht, h]

theorem slotCommand_of_close (h : refreshStep s t = (v, false)) (hc : closeStep (setPhase v t) t = some u) :
    slotCommand s t = u := by
  simp [slotCommand, hr, ht, h, hc]

theorem slotCommand_of_access (h : refreshStep s t = (v, false)) (hc : closeStep (setPhase v t) t = none)
    (ha : accessStep (setPhase v t) t = some u) : slotCommand s t = u := by
  simp [slotCommand, hr, ht, h, hc, ha]

theorem slotCommand_of_nothing (h : refreshStep s t = (v, false)) (hc : closeStep (setPhase v t) t = none)
    (ha : accessStep (setPhase v t) t = none) : slotCommand s t =
      if rowFree ((setPhase v t).tum t).dram then idleRef (setPhase v t) t else setPhase v t := by
  simp [slotCommand, hr, ht, h, hc, ha]

end

/-- A passing slot counts one slot and its length; nothing else of the command path changes (R73). -/
theorem dram_slotPasses (s : State) (t : Nat) : ((slotPasses s t).tum t).dram = { (s.tum t).dram with
    slot := (s.tum t).dram.slot + 1, time := (s.tum t).dram.time + slotUnits (rateOf s t) } := by
  unfold slotPasses advance
  dsimp only
  rw [tum_setDram_same, Nat.one_mul]
  split <;> rfl

/-- Settles O14: a slot that runs passes after `slotCommand`, whose branches stand in the order of the statement. -/
theorem commandSlotServesInOrder : Obligations.CommandSlotServesInOrder := by
  refine fun s t => ⟨exec_commandSlot_of_stopped, fun hc => ?_, dram_slotPasses s t, ((InTum.refl t s).advance 1).frame⟩
  rw [exec_commandSlot hc]
  refine ⟨fun hr => ?_, fun hr hs => ?_, fun hr ht => ⟨fun v hv => ?_, fun x hx => ⟨fun w hw => ?_, fun hn =>
    ⟨fun w hw => ?_, fun ha => ?_⟩⟩⟩⟩
  · rw [slotCommand_of_relocking hr]
  · rw [slotCommand_of_quiescing hr hs]
  · rw [slotCommand_of_refresh hr ht hv]
  · rw [slotCommand_of_close hr ht hx hw]
  · rw [slotCommand_of_access hr ht hx hn hw]
  · rw [slotCommand_of_nothing hr ht hx hn ha]

/-! ## The chosen access (R80) -/

/-- A candidate of a slot: an access and the command that it needs. -/
abbrev Candidate := Access × Need × Nat × Loc

/-- What R80 orders the candidates of tumbler `t` by, in one number: Ward priority, then the direction of the phase, then
row hits where they count. -/
def slotRank (s : State) (t : Nat) (x : Candidate) : Nat :=
  4 * wardPrio s x.1 + 2 * b2n (decide (x.1.stage = .needWr) == (s.tum t).q.writePhase) +
    b2n ((x.2.1 == .rd || x.2.1 == .wr) && flag s (tumReg t 0) 28)

/-- A comparison by a number, then by two bits, is one of the numbers that they make. -/
theorem compare_iff_weight (p q : Nat) (d e f g : Bool) :
    (if p ≠ q then decide (q < p) else if d ≠ e then d else if f ≠ g then f else false) = true ↔
      4 * q + 2 * b2n e + b2n g < 4 * p + 2 * b2n d + b2n f := by
  by_cases hpq : p = q
  · subst hpq
    cases d <;> cases e <;> cases f <;> cases g <;> simp [b2n, Nat.add_assoc]
  · have hb (x : Bool) : b2n x ≤ 1 := by cases x <;> decide
    have hd := hb d
    have he := hb e
    have hf := hb f
    have hg := hb g
    rw [if_pos hpq, decide_eq_true_iff]
    omega

theorem goesBefore_iff_rank {s : State} {t : Nat} {a b : Candidate} (ha : a.1.tum.val = t) :
    goesBefore s a b = true ↔ slotRank s t b < slotRank s t a := by
  subst ha
  exact compare_iff_weight ..

/-- The one of two candidates that the slot serves: the second only where it goes before the first. -/
def firstOf (s : State) (b a : Candidate) : Candidate := if goesBefore s a b then a else b

theorem accessStep_cons {s : State} {t : Nat} {c : Candidate} {r : List Candidate} (h : candidates s t = c :: r) :
    accessStep s t = some (issueNeed s (r.foldl (firstOf s) c)) := by
  unfold accessStep
  rw [h]
  rfl

theorem accessStep_nil {s : State} {t : Nat} (h : candidates s t = []) : accessStep s t = none := by
  unfold accessStep
  rw [h]

/-- The chosen candidate is one of them and has the highest rank. -/
theorem foldl_firstOf {s : State} {t : Nat} (r : List Candidate) (c : Candidate) (h : ∀ d ∈ c :: r, d.1.tum.val = t) :
    r.foldl (firstOf s) c ∈ c :: r ∧ ∀ d ∈ c :: r, slotRank s t d ≤ slotRank s t (r.foldl (firstOf s) c) := by
  induction r generalizing c with
  | nil => simp
  | cons a r ih =>
    have hiff := goesBefore_iff_rank (s := s) (b := c) (h a (by simp))
    have hstep : (firstOf s c a = a ∨ firstOf s c a = c) ∧ slotRank s t a ≤ slotRank s t (firstOf s c a) ∧
        slotRank s t c ≤ slotRank s t (firstOf s c a) := by
      unfold firstOf
      split
      next hgo => exact ⟨.inl rfl, Nat.le_refl _, Nat.le_of_lt (hiff.1 hgo)⟩
      next hgo => exact ⟨.inr rfl, Nat.le_of_not_lt (fun hlt => hgo (hiff.2 hlt)), Nat.le_refl _⟩
    obtain ⟨hfrom, ha, hc⟩ := hstep
    have hmem : firstOf s c a ∈ c :: a :: r := by
      obtain hf | hf := hfrom <;> simp [hf]
    obtain ⟨hin, hmax⟩ := ih (firstOf s c a) fun d hd => by
      obtain rfl | hd := List.mem_cons.1 hd
      · exact h _ hmem
      · exact h d (by simp [hd])
    have hfirst := hmax _ List.mem_cons_self
    rw [List.foldl_cons]
    refine ⟨?_, fun d hd => ?_⟩
    · obtain hin | hin := List.mem_cons.1 hin
      · rw [hin]
        exact hmem
      · simp [hin]
    · obtain rfl | hd := List.mem_cons.1 hd
      · exact hc.trans hfirst
      · obtain rfl | hd := List.mem_cons.1 hd
        · exact ha.trans hfirst
        · exact hmax d (List.mem_cons_of_mem _ hd)

/-- The accesses that could issue a command now, aged or not, in queue order. -/
def issuable (s : State) (t : Nat) : List Candidate :=
  (s.tum t).q.queue.filterMap (fun a => if served s t a then (nextNeed s a).map (fun n => (a, n)) else none)

theorem candidates_eq (s : State) (t : Nat) : candidates s t =
    if ((issuable s t).filter (fun e => aged s e.1)).isEmpty then issuable s t
    else (issuable s t).filter (fun e => aged s e.1) := rfl

theorem mem_issuable_of_candidate {s : State} {t : Nat} {c : Candidate} (h : c ∈ candidates s t) : c ∈ issuable s t := by
  rw [candidates_eq] at h
  split at h
  · exact h
  · exact List.mem_of_mem_filter h

theorem queued_of_candidate {s : State} {t : Nat} {c : Candidate} (h : c ∈ candidates s t) :
    c.1 ∈ (s.tum t).q.queue := by
  obtain ⟨a, ha, hc⟩ := List.mem_filterMap.1 (mem_issuable_of_candidate h)
  split at hc
  · obtain ⟨n, -, rfl⟩ := Option.map_eq_some_iff.1 hc
    exact ha
  · cases hc

/-- Beside an aged candidate only aged ones stand. -/
theorem aged_of_candidate {s : State} {t : Nat} {c d : Candidate} (hc : c ∈ candidates s t) (ha : aged s c.1 = true)
    (hd : d ∈ candidates s t) : aged s d.1 = true := by
  have hold := List.mem_filter (p := fun e => aged s e.1) |>.2 ⟨mem_issuable_of_candidate hc, ha⟩
  rw [candidates_eq, if_neg (by simpa using List.ne_nil_of_mem hold)] at hd
  exact (List.mem_filter.1 hd).2

/-- Settles O15: the choice is the highest rank of the candidates, and ranks are ordered. -/
theorem chosenAccessIsFirstOfTheCandidates : Obligations.ChosenAccessIsFirstOfTheCandidates := by
  refine fun s t hq => ⟨⟨fun hn => ?_, accessStep_nil⟩, fun u hu => ?_, fun c hc ha d hd => aged_of_candidate hc ha hd⟩
  · cases hl : candidates s t with
    | nil => rfl
    | cons c r => cases (accessStep_cons hl).symm.trans hn
  · have htum : ∀ d ∈ candidates s t, d.1.tum.val = t := fun d hd => hq _ (queued_of_candidate hd)
    cases hl : candidates s t with
    | nil => cases (accessStep_nil hl).symm.trans hu
    | cons c r =>
      rw [hl] at htum
      obtain ⟨hmem, hmax⟩ := foldl_firstOf (s := s) r c htum
      refine ⟨_, hmem, (Option.some.inj ((accessStep_cons hl).symm.trans hu)).symm, fun d hd => ?_⟩
      rw [← Bool.not_eq_true, goesBefore_iff_rank (htum d hd)]
      exact Nat.not_lt.2 (hmax d hd)

end Sys2Proof.Machine
end

section
/-! PROOF. Timed events of a tumbler: refresh, wake for refresh, open rows, throttle and corrected words (O16). -/

namespace Sys2Proof.Machine

open Sys2Proof

/-! ## Refresh (R87, R114, R115) -/

/-- A refresh set falls due: its debt rises by one, up to 15, and its next due instant lies one interval on (R112). -/
def setFellDue (s : State) (t l k : Nat) : State :=
  putSet s t l k { setOf s t l k with
    debt := min 15 ((setOf s t l k).debt + 1), due := (setOf s t l k).due + interval s t l }

/-- The limit asks for registers and the leaf's band, which a refresh set is not. -/
theorem limitOf_putSet (s : State) (t l k : Nat) (x : RefSet) (i j : Nat) :
    limitOf (putSet s t l k x) i j = limitOf s i j := rfl

theorem mode_putSet (s : State) (t l k : Nat) (x : RefSet) : ((putSet s t l k x).tum t).mode = (s.tum t).mode := by
  rw [putSet, tum_modTum_same]

theorem setDue_eq (s : State) (t : Tum) (l k : Nat) : setDue s t l k =
    if limitOf s t l < (setOf s t l k).debt + 1 ∧ (s.tum t).mode.paying = false then
      fault (setFellDue s t l k) (.tum t) 5 0 1
    else setFellDue s t l k := by
  unfold setDue
  dsimp only
  rw [mode_putSet, limitOf_putSet]
  exact if_congr (by rw [Bool.and_eq_true, decide_eq_true_iff, Bool.not_eq_true']) rfl rfl

theorem exec_refreshDue {s : State} {t : Tum} {l : LeafN} (hl : l.val < s.part.leaves) (k : Fin 4)
    (hs : scheduled s t = true) (hf : refreshed s t l = true) : exec (.refreshDue t l k) s = .next (setDue s t l k) := by
  change execRefreshDue t l k s = _
  rw [execRefreshDue, if_neg (Nat.not_le.2 hl), hs, hf, Bool.and_self, when_true]

theorem refreshDue_fallsDue {s : State} {t : Tum} {l : LeafN} (hl : l.val < s.part.leaves) (k : Fin 4)
    (hs : scheduled s t = true) (hf : refreshed s t l = true) :
    ((setOf s t l k).debt + 1 ≤ limitOf s t l ∨ (s.tum t).mode.paying = true →
      exec (.refreshDue t l k) s = .next (setFellDue s t l k)) ∧
    (limitOf s t l < (setOf s t l k).debt + 1 → (s.tum t).mode.paying = false →
      exec (.refreshDue t l k) s = .next (fault (setFellDue s t l k) (.tum t) 5 0 1)) := by
  rw [exec_refreshDue hl k hs hf, setDue_eq]
  refine ⟨fun h => ?_, fun hlt hp => by rw [if_pos ⟨hlt, hp⟩]⟩
  rw [if_neg]
  rintro ⟨hlt, hp⟩
  obtain h | h := h
  · exact Nat.not_lt.2 h hlt
  · exact Bool.false_ne_true (hp.symm.trans h)

theorem nearLimit_of_mem {s : State} {t : Nat} {e : Nat × Nat} (he : e ∈ setsOf s t)
    (h : limitOf s t e.1 ≤ (setOf s t e.1 e.2).debt + 1) : nearLimit s t = true :=
  List.any_eq_true.2 ⟨e, he, decide_eq_true h⟩

theorem refreshWake_wakes {s : State} {t : Tum} (hl : tstate s t = .light) (hw : (s.tum t).mode.wake = .no)
    (h : ∃ e ∈ setsOf s t, limitOf s t e.1 ≤ (setOf s t e.1 e.2).debt + 1) :
    exec (.refreshWake t) s = .next (setMode s t (fun m => { m with state := .online, refreshWake := true })) := by
  obtain ⟨e, he, hle⟩ := h
  change execRefreshWake t s = _
  simp [execRefreshWake, hl, hw, nearLimit_of_mem he hle]

/-! ## Open rows (R81, R82) -/

theorem trasmaxExpiry_closes {s : State} {t : Tum} {l : LeafN} (hl : l.val < s.part.leaves) {g : Fin 8} {b : Fin 4}
    (ho : (bankAt s t (bankOf l g b)).openRow.isSome = true) :
    exec (.trasmaxExpiry t l g b) s = .next (closeBank s t (bankOf l g b)) := by
  change execTrasmaxExpiry t l g b s = _
  rw [execTrasmaxExpiry, if_neg (Nat.not_le.2 hl), ho, when_true]

theorem idleClose_closes {s : State} {t : Tum} {l : LeafN} (hl : l.val < s.part.leaves) {g : Fin 8} {b : Fin 4}
    (hi : idleRow s t l g b = true) : exec (.idleClose t l g b) s = .next (closeBank s t (bankOf l g b)) := by
  change execIdleClose t l g b s = _
  rw [execIdleClose, if_neg (Nat.not_le.2 hl), hi, when_true]

/-! ## Throttle and corrected words (R129, R155) -/

theorem throttleEnd_expires (s : State) (t : Tum) :
    Completes (.throttleEnd t) s (fun u => u = s.setTum t { s.tum t with throttle := (u.tum t).throttle } ∧
      ∀ e, e ∈ (u.tum t).throttle ↔ e ∈ (s.tum t).throttle ∧ s.now.toNat / 200000 < e.alertWin + 2) := by
  refine ⟨_, rfl, ?_⟩
  simp only [tum_modTum_same, List.mem_filter, decide_eq_true_eq, implies_true, and_true]
  rfl

/-- An entry lives for one window from the start of its watch, or from its first correction before one (R155). -/
theorem cwcLive_iff (now : Nat) (e : CwcEntry) : cwcLive now e = true ↔ now < e.watch.getD e.first + cwcWindow := by
  unfold cwcLive
  cases e.watch <;> exact decide_eq_true_iff

theorem cwcWindowExpiry_expires (s : State) (t : Tum) :
    Completes (.cwcWindowExpiry t) s (fun u => u = s.setTum t { s.tum t with cwc := (u.tum t).cwc } ∧
      ∀ e, e ∈ (u.tum t).cwc ↔ e ∈ (s.tum t).cwc ∧ s.now.toNat < e.watch.getD e.first + cwcWindow) := by
  refine ⟨_, rfl, ?_⟩
  simp only [tum_modTum_same, List.mem_filter, cwcLive_iff, implies_true, and_true]
  rfl

/-- Settles O16: the events in their order, each by the lemma about its row. -/
theorem tumblerTimedEvents : Obligations.TumblerTimedEvents := fun s t _ hl =>
  ⟨fun k => refreshDue_fallsDue hl k, refreshWake_wakes,
    fun _ _ ho => ⟨trasmaxExpiry_closes hl ho, idleClose_closes hl⟩, throttleEnd_expires s t,
    cwcWindowExpiry_expires s t⟩

end Sys2Proof.Machine
end

section
/-! PROOF. The release of a waiting read into the queue of its tumbler (O13). -/

namespace Sys2Proof.Machine

open Sys2Proof

/-! ## Lines without a slot (R78, R79) -/

/-- An access that looks at a line without a slot changes nothing. -/
theorem settleOne_of_no_slot {s : State} {t x : Nat} (id : Nat) (h : slotOf (s.tum t).q x = none) :
    settleOne s t id x = s := by
  unfold settleOne
  dsimp only
  split
  next => rfl
  next =>
    split
    · rfl
    · split
      next => rw [h]
      next =>
        rw [h]
        exact ite_self s
      next => rfl

theorem foldUpTo_fixed {α : Type} {f : α → Nat → α} {a : α} {n : Nat} (h : ∀ i, i < n → f a i = a) :
    foldUpTo n f a = a := by
  induction n with
  | zero => rfl
  | succ n ih => rw [foldUpTo_succ, ih fun i hi => h i (Nat.lt_succ_of_lt hi), h n (Nat.lt_succ_self n)]

theorem settle_of_no_slot {s : State} {t x : Nat} (h : ∀ i, i < 4 → slotOf (s.tum t).q (x + i) = none) :
    settle s t x = s :=
  foldUpTo_fixed fun i hi => List.foldl_fixed' (fun id => settleOne_of_no_slot id (h i hi)) _

/-! ## Entry of a read (R72, R78, R144) -/

/-- What an operation on tumbler `t` keeps beside: the tumbler's queue and the accesses before the queues. -/
structure OffQueue (t : Nat) (s u : State) : Prop extends InTum t s u where
  queue : (u.tum t).q = (s.tum t).q
  waiting : u.waiting = s.waiting

namespace OffQueue

variable {t : Nat} {s u : State}

theorem refl (t : Nat) (s : State) : OffQueue t s s := ⟨InTum.refl t s, rfl, rfl⟩

theorem count (h : OffQueue t s u) (slot n : Nat) : OffQueue t s (count u slot n) :=
  ⟨h.toInTum.count slot n, (congrArg Tumbler.q (tum_count ..)).trans h.queue, (count_waiting ..).trans h.waiting⟩

theorem setMode (h : OffQueue t s u) (f : TMode → TMode) : OffQueue t s (setMode u t f) :=
  ⟨h.toInTum.setMode f, (congrArg Tumbler.q (tum_setMode_same ..)).trans h.queue, h.waiting⟩

theorem withWard (h : OffQueue t s u) (x : Ward) : OffQueue t s { u with ward := x } :=
  ⟨h.toInTum.withWard x, h.queue, h.waiting⟩

theorem ite {c : Prop} [Decidable c] {v : State} (hu : OffQueue t s u) (hv : OffQueue t s v) :
    OffQueue t s (if c then u else v) := by
  split
  · exact hu
  · exact hv

theorem wakeFor (h : OffQueue t s u) : OffQueue t s (wakeFor u t) := by
  unfold Machine.wakeFor
  exact ite (h.setMode _) (ite h (ite (h.setMode _) (ite (h.setMode _) h)))

end OffQueue

/-- Access `a` as an entry of its tumbler's queue. -/
def queueEntry (s : State) (a : Access) : Access :=
  let x := s.tum a.tum
  { a with
    epoch := BitVec.ofNat 2 (rgnEpoch s (regionOf a.addr.toNat)), loc := placeOf s a.tum a.line,
    enterTime := x.dram.time, enterSlot := x.dram.slot, window := s.ward.winStart,
    excluded := (x.pauseSince.isSome && !x.pauseHot) || x.mode.state = .quiet,
    stage := match a.kind with | .read64 => .needRd 1 | .read256 => .needRd 4 | _ => .fresh }

theorem queueEntry_place (s : State) {a : Access} {t : Nat} (ht : a.tum.val = t) :
    (queueEntry s a).loc = placeOf s t a.line ∧ (queueEntry s a).enterTime = (s.tum t).dram.time ∧
      (queueEntry s a).enterSlot = (s.tum t).dram.slot := by
  subst ht
  exact ⟨rfl, rfl, rfl⟩

/-- What the entry of access `a` leaves beside the queue: the wake of its tumbler, a count of a critical access, and the
Ward's record (R87, R208, R211). -/
def entryNoted (s : State) (a : Access) : State :=
  let e := queueEntry s a
  let u := wakeFor s a.tum
  let v := if urgency u e = 3 then count u (cTum a.tum 33) 1 else u
  let r : WardRec :=
    { id := e.id, tum := e.tum, cls := e.cls.toNat, window := e.window, units := 0, latency := none,
      excluded := e.excluded }
  if classed e then { v with ward := { v.ward with log := v.ward.log ++ [r] } } else v

theorem offQueue_entryNoted (s : State) (a : Access) : OffQueue a.tum s (entryNoted s a) := by
  have hw := (OffQueue.refl a.tum.val s).wakeFor
  have hc := (hw.count (cTum a.tum 33) 1).ite (c := urgency (wakeFor s a.tum) (queueEntry s a) = 3) hw
  exact (hc.withWard _).ite hc

theorem enterQueue_of_read {s : State} {a : Access} (hr : isRead a = true) : enterQueue s a =
    settle (setQ (entryNoted s a) a.tum (fun q => { q with queue := q.queue ++ [queueEntry s a] })) a.tum a.line := by
  have hq (q : TQueue) : (isRead (queueEntry s a) || (slotOf q (queueEntry s a).line).isSome) = true := by
    rw [show isRead (queueEntry s a) = true from hr, Bool.true_or]
  refine congrArg (settle · a.tum a.line) (congrArg (setQ (entryNoted s a) a.tum) (funext fun q => ?_))
  exact if_pos (hq _)

/-- A read whose lines hold no slot joins the end of the queue, and nothing else of the queue changes. -/
theorem enterQueue_joins {s : State} {a : Access} {t : Nat} (ht : a.tum.val = t) (hr : isRead a = true)
    (hs : ∀ i, i < 4 → slotOf (s.tum t).q (a.line + i) = none) :
    ((enterQueue s a).tum t).q = { (s.tum t).q with queue := (s.tum t).q.queue ++ [queueEntry s a] } ∧
    (enterQueue s a).waiting = s.waiting ∧ InTum t s (enterQueue s a) := by
  subst ht
  have hoff := offQueue_entryNoted s a
  have hjoin : enterQueue s a =
      setQ (entryNoted s a) a.tum (fun q => { q with queue := q.queue ++ [queueEntry s a] }) := by
    rw [enterQueue_of_read hr]
    refine settle_of_no_slot fun i hi => ?_
    rw [tum_setQ_same, hoff.queue]
    exact hs i hi
  rw [hjoin]
  exact ⟨by rw [tum_setQ_same, hoff.queue], hoff.waiting, hoff.toInTum.setQ _⟩

/-! ## The release (R207) -/

/-- Access `a` has left the accesses that wait, and the store of its port. -/
def leftWaiting (s : State) (a : Access) : State :=
  let s := { s with waiting := s.waiting.filter (fun b => b.id != a.id) }
  match a.port with
  | some p => if a.left then s else leaveStore s p
  | none => s

theorem leftWaiting_eq (s : State) (a : Access) : ∃ x, leftWaiting s a =
    { s with waiting := s.waiting.filter (fun b => b.id != a.id), ports := x } := by
  unfold leftWaiting
  split
  · split <;> exact ⟨_, rfl⟩
  · exact ⟨_, rfl⟩

theorem waiting_leftWaiting (s : State) (a : Access) :
    (leftWaiting s a).waiting = s.waiting.filter (fun b => b.id != a.id) := by
  obtain ⟨x, hx⟩ := leftWaiting_eq s a
  rw [hx]

theorem tum_leftWaiting (s : State) (a : Access) (t : Nat) : (leftWaiting s a).tum t = s.tum t := by
  obtain ⟨x, hx⟩ := leftWaiting_eq s a
  rw [hx]
  rfl

theorem inTum_leftWaiting (t : Nat) (s : State) (a : Access) : InTum t s (leftWaiting s a) := by
  obtain ⟨x, hx⟩ := leftWaiting_eq s a
  rw [hx]
  exact (InTum.refl t s).of_eq rfl rfl rfl rfl rfl

/-- An entry is made from registers, tumblers and the Ward's window, not from ports or waiting accesses. -/
theorem queueEntry_leftWaiting (s : State) (a b : Access) : queueEntry (leftWaiting s a) b = queueEntry s b := by
  obtain ⟨x, hx⟩ := leftWaiting_eq s a
  rw [hx]
  rfl

/-- An access as it goes on in this member. -/
def goesHere (a : Access) : Access := { a with left := true, ord := .local }

theorem release_localRead {s : State} {a : Access} {f : BitVec 18} (hf : a.src = .flow f) (hr : isRead a = true)
    (ho : accOrder s a = .local) : release s a = enterQueue (leftWaiting s a) (goesHere a) := by
  have hsrc : a.src ≠ .master .dma := by
    rw [hf]
    exact fun h => nomatch h
  have hcheck : dmaCheck s a = none := if_pos hsrc
  have hbegin : dmaBegin s a = (s, a) := if_neg hsrc
  have hread : ¬ ((!isRead (goesHere a) && (goesHere a).be = 0 && !isAtomic (goesHere a)) = true) := by
    rw [show isRead (goesHere a) = true from hr]
    exact Bool.false_ne_true
  unfold release
  simp only [hcheck, hbegin, ho]
  exact if_neg hread

theorem exec_waitRelease {s : State} {t : Tum} {a : Access} (h : bestWaiting s t = some a) :
    exec (.waitRelease t) s = .next (release s a) := by
  change execWaitRelease t s = _
  rw [execWaitRelease, h]

theorem tum_of_bestWaiting {s : State} {t : Nat} {a : Access} (h : bestWaiting s t = some a) : a.tum.val = t := by
  rw [bestWaiting_eq] at h
  obtain ⟨hmem, -, -⟩ := foldl_betterOf _ _ h
  have hb := (List.mem_filter.1 (hmem.resolve_right (fun hn => nomatch hn))).2
  rw [Bool.and_eq_true, beq_iff_eq] at hb
  exact hb.1

/-- Settles O13: the release of a local read is its entry into the queue, where no slot holds one of its lines. -/
theorem releasedReadEntersTheQueue : Obligations.ReleasedReadEntersTheQueue := by
  intro s t a f hb hf hk _ ho _ hs
  have htum : (goesHere a).tum.val = t := tum_of_bestWaiting (a := a) hb
  have hread : isRead a = true := by simp [isRead, hk]
  have hleft := inTum_leftWaiting t s a
  obtain ⟨hq, hw, hjoined⟩ := enterQueue_joins (s := leftWaiting s a) htum hread
    (by rw [tum_leftWaiting]; exact hs)
  rw [queueEntry_leftWaiting, tum_leftWaiting] at hq
  have hstage : (queueEntry s (goesHere a)).stage = .needRd 1 := by simp only [queueEntry, goesHere, hk]
  obtain ⟨hloc, htime, hslot⟩ := queueEntry_place s htum
  have hexec := exec_waitRelease hb
  rw [release_localRead hf hread ho] at hexec
  refine ⟨_, hexec, hw.trans (waiting_leftWaiting s a),
    ⟨queueEntry s (goesHere a), by rw [hq], rfl, rfl, hstage, rfl, hloc, htime, hslot⟩, by rw [hq],
    fun k hk => (hjoined.tums k hk).trans (hleft.tums k hk), regsBut_trans (hleft.regsBut []) (hjoined.regsBut []),
    sameMemory_trans hleft.sameMemory hjoined.sameMemory⟩

end Sys2Proof.Machine
end

section
/-! PROOF. What operations on a tumbler keep of its training sweep, and of everything but the tumbler and its registers. -/

namespace Sys2Proof.Machine

open Sys2Proof

/-! ## Operations that leave the training sweep alone -/

/-- What an operation on tumbler `t` keeps beside: the training sweep of the tumbler. -/
structure SameSweep (t : Nat) (s u : State) : Prop extends InTum t s u where
  training : (u.tum t).training = (s.tum t).training

namespace SameSweep

variable {t : Nat} {s u v : State}

theorem refl (t : Nat) (s : State) : SameSweep t s s := ⟨InTum.refl t s, rfl⟩

theorem count (h : SameSweep t s u) (slot n : Nat) : SameSweep t s (count u slot n) :=
  ⟨h.toInTum.count slot n, (congrArg Tumbler.training (tum_count ..)).trans h.training⟩

theorem withSweeps (h : SameSweep t s u) (x : List SweepT) : SameSweep t s { u with sweeps := x } :=
  ⟨h.toInTum.withSweeps x, h.training⟩

theorem withThermal (h : SameSweep t s u) (x : Thermal) : SameSweep t s { u with thermal := x } :=
  ⟨h.toInTum.withThermal x, h.training⟩

theorem withWard (h : SameSweep t s u) (x : Ward) : SameSweep t s { u with ward := x } :=
  ⟨h.toInTum.withWard x, h.training⟩

theorem modTum (h : SameSweep t s u) {f : Tumbler → Tumbler} (hf : ∀ x, (f x).training = x.training) :
    SameSweep t s (u.modTum t f) :=
  ⟨h.toInTum.modTum f, (congrArg Tumbler.training (tum_modTum_same ..)).trans ((hf _).trans h.training)⟩

theorem setMode (h : SameSweep t s u) (f : TMode → TMode) : SameSweep t s (setMode u t f) := h.modTum fun _ => rfl

theorem setQ (h : SameSweep t s u) (f : TQueue → TQueue) : SameSweep t s (setQ u t f) := h.modTum fun _ => rfl

theorem setDram (h : SameSweep t s u) (f : TDram → TDram) : SameSweep t s (setDram u t f) := h.modTum fun _ => rfl

theorem putBank (h : SameSweep t s u) (n : Nat) (b : Bank) : SameSweep t s (putBank u t n b) := h.setDram _

theorem putSet (h : SameSweep t s u) (l k : Nat) (x : RefSet) : SameSweep t s (putSet u t l k x) :=
  h.modTum fun _ => rfl

theorem ite {c : Prop} [Decidable c] (hu : SameSweep t s u) (hv : SameSweep t s v) :
    SameSweep t s (if c then u else v) := by
  split
  · exact hu
  · exact hv

theorem foldl {β : Type} {f : State → β → State} (hf : ∀ u b, SameSweep t s u → SameSweep t s (f u b)) (l : List β)
    (h : SameSweep t s u) : SameSweep t s (l.foldl f u) := by
  induction l generalizing u with
  | nil => exact h
  | cons b r ih => exact ih (hf u b h)

/-! ### Pauses and self-refresh -/

theorem excludeQueued (h : SameSweep t s u) : SameSweep t s (excludeQueued u t) := (h.setQ _).withWard _

theorem pauseOn (h : SameSweep t s u) : SameSweep t s (pauseOn u t) := by
  unfold Machine.pauseOn
  split
  · exact ite (h.excludeQueued.modTum fun _ => rfl) h
  · exact h.excludeQueued.modTum fun _ => rfl

theorem pauseOff (h : SameSweep t s u) : SameSweep t s (pauseOff u t) := by
  unfold Machine.pauseOff
  split
  · exact h
  · exact (ite h h.excludeQueued).modTum fun x => by split <;> rfl

theorem endExcess (h : SameSweep t s u) : SameSweep t s (endExcess u t) := ite (h.setMode _).pauseOff h

theorem restartRefresh (h : SameSweep t s u) : SameSweep t s (restartRefresh u t) :=
  foldl (fun _ _ hv => hv.putSet _ _ _) _ h

theorem leaveSelf (h : SameSweep t s u) : SameSweep t s (leaveSelf u t) := ite (h.setMode _).restartRefresh h

/-! ### Refreshes at their earliest slots -/

theorem advance (h : SameSweep t s u) (n : Nat) : SameSweep t s (advance u t n) := by
  unfold Machine.advance
  exact (ite (h.withSweeps _) h).setDram _

theorem issuePre (h : SameSweep t s u) (n : Nat) : SameSweep t s (issuePre u t n) :=
  ((h.putBank _ _).setDram _).count _ _

theorem preNext (h : SameSweep t s u) (n : Nat) : SameSweep t s (preNext u t n) := ((h.advance _).issuePre n).advance 1

theorem hammerRef (h : SameSweep t s u) (l : Loc) : SameSweep t s (hammerRef u t l) := by
  unfold Machine.hammerRef
  exact ite h (h.modTum fun _ => rfl)

theorem refreshRows (h : SameSweep t s u) (l k p n : Nat) : SameSweep t s (refreshRows u t l k p n) :=
  foldl (fun _ _ hu => foldl (fun _ _ hv => (hv.hammerRef _).hammerRef _) _ hu) _ h

theorem issueRef (h : SameSweep t s u) (l k : Nat) : SameSweep t s (issueRef u t l k) := by
  unfold Machine.issueRef
  apply count
  apply count
  apply setDram
  apply withThermal
  apply putSet
  exact foldl (fun _ _ hv => hv.putBank _ _) _ (h.refreshRows l k _ 1)

theorem refNext (h : SameSweep t s u) (l k : Nat) : SameSweep t s (refNext u t l k) :=
  (((foldl (fun _ _ hv => ite (hv.preNext _) hv) (setBanks l k) h).advance _).issueRef l k).advance 1

theorem payDue (n : Nat) (h : SameSweep t s u) : SameSweep t s (payDue t n u) := by
  induction n generalizing u with
  | zero => exact h
  | succ n ih =>
    unfold Machine.payDue
    split
    · exact ih (h.refNext _ _)
    · exact h

theorem boundaryRefresh (h : SameSweep t s u) : SameSweep t s (boundaryRefresh u t) := ite h (h.payDue 2048).endExcess

end SameSweep

/-! ## Operations on a tumbler and its registers -/

/-- What an operation on tumbler `t` keeps that also writes registers of `p`: the others, the other tumblers and memory. -/
structure InTumBut (p : Nat → Prop) (t : Nat) (s u : State) : Prop where
  regs : RegsOutside p s u
  tums : TumsBut t s u
  memory : SameMemory s u

namespace InTumBut

variable {p : Nat → Prop} {t : Nat} {s u v : State}

theorem refl (p : Nat → Prop) (t : Nat) (s : State) : InTumBut p t s s :=
  ⟨fun _ _ => rfl, fun _ _ => rfl, fun _ => ⟨rfl, rfl⟩⟩

theorem inTum (h : InTumBut p t s u) (h' : InTum t u v) : InTumBut p t s v :=
  ⟨fun o ho => (h'.rd_eq o).trans (h.regs o ho), fun k hk => (h'.tums k hk).trans (h.tums k hk),
    sameMemory_trans h.memory h'.sameMemory⟩

theorem wr (h : InTumBut p t s u) {off : Nat} (ho : p off) (x : Reg32) : InTumBut p t s (wr u off x) :=
  ⟨fun o hn => (rd_wr_other u x fun he => hn (by rw [he]; exact ho)).trans (h.regs o hn), h.tums, h.memory⟩

theorem setF (h : InTumBut p t s u) {off : Nat} (ho : p off) (hi lo x : Nat) : InTumBut p t s (setF u off hi lo x) :=
  h.wr ho _

theorem wrReg (h : InTumBut p t s u) {off : Nat} (ho : p off) (x : Reg32) (rej : Nat) :
    InTumBut p t s (wrReg u off x rej) := by
  unfold Machine.wrReg
  split
  · exact h.wr ho _
  · exact h

theorem foldl {β : Type} {f : State → β → State} (hf : ∀ u b, InTumBut p t s u → InTumBut p t s (f u b)) (l : List β)
    (h : InTumBut p t s u) : InTumBut p t s (l.foldl f u) := by
  induction l generalizing u with
  | nil => exact h
  | cons b r ih => exact ih (hf u b h)

end InTumBut

end Sys2Proof.Machine
end

section
/-! PROOF. A change of the bus rate (O18). -/

namespace Sys2Proof.Machine

open Sys2Proof

/-! ## The register TUMnn_RATE (R97) -/

theorem tumReg_ne (t : Nat) {o k : Nat} (h : o ≠ k) : tumReg t o ≠ tumReg t k := by
  unfold tumReg
  omega

theorem regDef_rate (p : Part) (t : Tum) :
    regDef p (tumReg t 8) = some { reset := 0xA, rw := 0x703, w1c := 0x10000 } := by
  rw [regDef_tum p t (by decide)]
  rfl

theorem bits_lt (x hi lo : Nat) : bits x hi lo < 2 ^ (hi - lo + 1) := Nat.mod_lt _ (Nat.two_pow_pos _)

/-- A write of TUMnn_RATE takes SET_VALID; the other fields below bit 16 stay, PEND by its own rule (R88, R97). -/
theorem bit_wrReg_rate (s : State) (t : Tum) (v : Reg32) {i : Nat} (hi : i < 16) :
    bit (rd (wrReg s (tumReg t 8) v (mask 1 0)) (tumReg t 8)).toNat i =
      if 8 ≤ i ∧ i ≤ 10 then bit v.toNat i else bit (rd s (tumReg t 8)).toNat i := by
  have htaken : ∀ i < 16, (bit 0x703 i && !bit (mask 1 0) i) = decide (8 ≤ i ∧ i ≤ 10) := by decide
  have hclear : ∀ i < 16, bit 0x10000 i = false := by decide
  have hzero : bit 0 i = false := Nat.zero_testBit i
  rw [bit_rd_wrReg (regDef_rate s.part t) v _ (by omega), bit_written _ _ _ _ _ _ (by omega)]
  simp only [hzero, hclear i hi, Bool.and_false, Bool.or_false, Bool.not_false, Bool.and_true, htaken i hi,
    decide_eq_true_eq]

/-! ## A change begins (R88) -/

theorem mode_pauseOn (s : State) (t : Nat) : ((pauseOn s t).tum t).mode = (s.tum t).mode := by
  unfold pauseOn
  split
  · split
    · rw [tum_modTum_same]
      exact mode_excludeQueued s t
    · rfl
  · rw [tum_modTum_same]
    exact mode_excludeQueued s t

theorem inTum_beginRate (s : State) (t : Nat) : InTum t s (beginRate s t) := by
  unfold beginRate
  exact InTum.ite ((InTum.refl t s).setMode _).pauseOn ((InTum.refl t s).setMode _)

theorem mode_beginRate (s : State) (t : Nat) : ((beginRate s t).tum t).mode = { (s.tum t).mode with
    rate := .quiescing, state := if tstate s t = .online || tstate s t = .light then .busy else tstate s t,
    wake := if (s.tum t).mode.wake = .quiet then .quiet else .no } := by
  unfold beginRate
  dsimp only
  rw [apply_ite (fun u : State => (u.tum t).mode), mode_pauseOn, ite_self, mode_setMode]
  rfl

/-- TUMnn_RATE after a write that asks for another rate: PEND names it, and CHANGING is set (R88). -/
def rateAsked (s : State) (t : Tum) (v : Reg32) : State :=
  setF (setF (wrReg s (tumReg t 8) v (mask 1 0)) (tumReg t 8) 1 0 (bits v.toNat 1 0)) (tumReg t 8) 4 4 1

theorem rateAsked_fields (s : State) (t : Tum) (v : Reg32) :
    fld (rateAsked s t v) (tumReg t 8) 1 0 = bits v.toNat 1 0 ∧ flag (rateAsked s t v) (tumReg t 8) 4 = true ∧
      rateOf (rateAsked s t v) t = rateOf s t := by
  refine ⟨?_, flag_setF_one _ _ 4 (by decide), ?_⟩
  · rw [rateAsked, fld_setF_field _ _ _ _ _ _ _ (by decide) (by decide) (by decide) (by decide),
      fld_setF_same _ _ _ _ _ (by decide) (by decide)]
    exact Nat.mod_eq_of_lt (bits_lt v.toNat 1 0)
  · rw [rateOf, rateAsked, fld_setF_field _ _ _ _ _ _ _ (by decide) (by decide) (by decide) (by decide),
      fld_setF_field _ _ _ _ _ _ _ (by decide) (by decide) (by decide) (by decide)]
    refine bits_congr (fun i hi hlo => ?_) (by decide)
    rw [bit_wrReg_rate s t v (by omega), if_neg (by omega)]

theorem inTumBut_rateAsked (s : State) (t : Tum) (v : Reg32) : InTumBut (· ∈ [tumReg t 8]) t s (rateAsked s t v) := by
  have h : tumReg t 8 ∈ [tumReg t 8] := List.mem_singleton_self _
  exact (((InTumBut.refl _ t.val s).wrReg h v _).setF h _ _ _).setF h _ _ _

theorem tum_wrReg (s : State) (off : Nat) (v : Reg32) (rej j : Nat) : (wrReg s off v rej).tum j = s.tum j := by
  rw [State.tum, (wrReg_units s off v rej).1, State.tum]

theorem tum_rateAsked (s : State) (t : Tum) (v : Reg32) (j : Nat) : (rateAsked s t v).tum j = s.tum j :=
  tum_wrReg s (tumReg t 8) v (mask 1 0) j

theorem wrRate_begins {s : State} {t : Tum} {v : Reg32} (h3 : bits v.toNat 1 0 ≠ 3) (hne : bits v.toNat 1 0 ≠ rateOf s t)
    (ht : (s.tum t).training = none) (hv : bit v.toNat (8 + bits v.toNat 1 0) = true)
    (hr : (s.tum t).mode.rate = .idle) : wrRate s t v = beginRate (rateAsked s t v) t := by
  have hlt : bits v.toNat 1 0 < 4 := bits_lt v.toNat 1 0
  have hvalid : flag (wrReg s (tumReg t 8) v (mask 1 0)) (tumReg t 8) (8 + bits v.toNat 1 0) = true := by
    rw [flag, bit_wrReg_rate s t v (by omega), if_pos (by omega), hv]
  have hgo : ((none : Option Training).isSome || ((rateAsked s t v).tum t).mode.rate != .idle) = false := by
    rw [tum_rateAsked, hr]
    rfl
  unfold wrRate
  dsimp only
  rw [if_neg h3, if_neg hne, hvalid, ht, if_neg (by decide)]
  exact if_neg (Bool.eq_false_iff.1 hgo)

theorem rateReqWrite_begins (s : State) (t : Tum) (v : Reg32) (hreach : reaches s (tumReg t 8) = true)
    (h3 : bits v.toNat 1 0 ≠ 3) (hne : bits v.toNat 1 0 ≠ rateOf s t) (ht : (s.tum t).training = none)
    (hv : bit v.toNat (8 + bits v.toNat 1 0) = true) (hr : (s.tum t).mode.rate = .idle) :
    Completes (.rateReqWrite t v) s (fun u => fld u (tumReg t 8) 1 0 = bits v.toNat 1 0 ∧
      flag u (tumReg t 8) 4 = true ∧ (u.tum t).mode.rate = .quiescing ∧ rateOf u t = rateOf s t ∧
      ((tstate s t = .online ∨ tstate s t = .light) → tstate u t = .busy) ∧
      RegsBut [tumReg t 8] s u ∧ TumsBut t s u ∧ SameMemory s u) := by
  have hexec : exec (.rateReqWrite t v) s = .next (beginRate (rateAsked s t v) t) := by
    change execRateReqWrite t v s = _
    rw [execRateReqWrite, atReg_of_reaches hreach, wrRate_begins h3 hne ht hv hr]
  have hin := inTum_beginRate (rateAsked s t v) t
  have hmode := mode_beginRate (rateAsked s t v) t
  obtain ⟨hpend, hchanging, hrate⟩ := rateAsked_fields s t v
  obtain ⟨hregs, htums, hmem⟩ := (inTumBut_rateAsked s t v).inTum hin
  refine ⟨_, hexec, (hin.fld_eq ..).trans hpend, (hin.flag_eq ..).trans hchanging, by rw [hmode],
    (hin.fld_eq ..).trans hrate, fun ho => ?_, hregs, htums, hmem⟩
  rw [tstate, hmode, tstate, tum_rateAsked]
  exact if_pos (by simpa [tstate] using ho)

/-! ## The relock (R88, R119) -/

theorem rateQuiesced_relocks (s : State) (t : Tum) (hr : (s.tum t).mode.rate = .quiescing) (hq : quiet s t = true) :
    Completes (.rateQuiesced t) s (fun u => (u.tum t).mode.rate = .relocking ∧ TumsBut t s u ∧ RegsBut [] s u ∧
      SameMemory s u) := by
  have hexec : exec (.rateQuiesced t) s = .next (beginRelock s t) := by
    change execRateQuiesced t s = _
    simp [execRateQuiesced, hr, hq]
  have hin : InTum t s (beginRelock s t) := by
    unfold beginRelock
    exact (InTum.ite (InTum.refl t.val s).selfEntry (InTum.refl t.val s)).setMode _
  refine ⟨_, hexec, ?_, hin.frame⟩
  simp only [beginRelock, mode_setMode]

theorem sameSweep_loadSet (s : State) (t r : Nat) : SameSweep t s (loadSet s t r) := by
  unfold loadSet
  exact (SameSweep.refl t s).modTum fun _ => rfl

theorem sameSweep_relockExit {t : Nat} {s u : State} (h : SameSweep t s u) : SameSweep t s (relockExit u t) :=
  h.ite h.leaveSelf

theorem rate_relockExit (s : State) (t : Nat) : ((relockExit s t).tum t).mode.rate = (s.tum t).mode.rate := by
  unfold relockExit
  dsimp only
  split
  · rfl
  · rw [mode_leaveSelf]

/-- TUMnn_RATE as the relock leaves it: the pending rate is the current one, and CHANGING is clear (R88 step 4). -/
def rateTaken (s : State) (t : Nat) : State :=
  setF (setF s (tumReg t 8) 3 2 (fld s (tumReg t 8) 1 0)) (tumReg t 8) 4 4 0

theorem rateTaken_fields (s : State) (t : Nat) :
    rateOf (rateTaken s t) t = fld s (tumReg t 8) 1 0 ∧ flag (rateTaken s t) (tumReg t 8) 4 = false := by
  refine ⟨?_, flag_setF_zero _ _ 4 (by decide)⟩
  rw [rateOf, rateTaken, fld_setF_field _ _ _ _ _ _ _ (by decide) (by decide) (by decide) (by decide),
    fld_setF_same _ _ _ _ _ (by decide) (by decide)]
  exact Nat.mod_eq_of_lt (bits_lt (rd s (tumReg t 8)).toNat 1 0)

/-- The rest of a relock that ends: the delay set, the count, and the end of its self-refresh (R88, R119). -/
def relockSettled (s : State) (t : Nat) : State :=
  relockExit (setMode (count (loadSet (rateTaken s t) t (fld s (tumReg t 8) 1 0)) (cTum t 14) 1) t
    (fun m => { m with rate := .idle })) t

theorem sameSweep_relockSettled (s : State) (t : Nat) : SameSweep t (rateTaken s t) (relockSettled s t) :=
  sameSweep_relockExit (((sameSweep_loadSet ..).count _ _).setMode _)

theorem relockDone_of_untrained {s : State} {t : Nat} (hf : flag s (tumReg t 8) 4 = true)
    (ht : (s.tum t).training = none) : relockDone s t =
      pauseOff (setMode (relockSettled s t) t (fun m => { m with state := if m.state = .busy then .online else m.state }))
        t := by
  have hnone : ((relockSettled s t).tum t).training = none := (sameSweep_relockSettled s t).training.trans ht
  unfold relockSettled rateTaken at hnone ⊢
  unfold relockDone
  simp only [hf, if_true]
  rw [hnone]

theorem rateRelockDone_changes (s : State) (t : Tum) (hr : (s.tum t).mode.rate = .relocking)
    (hf : flag s (tumReg t 8) 4 = true) (ht : (s.tum t).training = none) :
    Completes (.rateRelockDone t) s (fun u => rateOf u t = fld s (tumReg t 8) 1 0 ∧ flag u (tumReg t 8) 4 = false ∧
      (u.tum t).mode.rate = .idle ∧ tstate u t ≠ .busy ∧ RegsBut [tumReg t 8] s u ∧ TumsBut t s u ∧
      SameMemory s u) := by
  have hexec : exec (.rateRelockDone t) s = .next (relockDone s t) := by
    change execRateRelockDone t s = _
    simp [execRateRelockDone, hr]
  rw [relockDone_of_untrained hf ht] at hexec
  have hin := ((sameSweep_relockSettled s t).toInTum.setMode
    fun m => { m with state := if m.state = .busy then .online else m.state }).pauseOff
  have hreg : tumReg t 8 ∈ [tumReg t 8] := List.mem_singleton_self _
  obtain ⟨hregs, htums, hmem⟩ :=
    (((InTumBut.refl (· ∈ [tumReg t 8]) t.val s).setF hreg _ _ _).setF hreg _ _ _ : InTumBut _ _ s (rateTaken s t)).inTum hin
  obtain ⟨hrate, hflag⟩ := rateTaken_fields s t
  refine ⟨_, hexec, (hin.fld_eq ..).trans hrate, (hin.flag_eq ..).trans hflag, ?_, ?_, hregs, htums, hmem⟩
  · rw [mode_pauseOff, mode_setMode]
    dsimp only
    rw [relockSettled, rate_relockExit, mode_setMode]
  · rw [tstate, mode_pauseOff, mode_setMode]
    dsimp only
    split
    next => exact fun h => nomatch h
    next h => exact h

end Sys2Proof.Machine
end

section
/-! PROOF. Training sweeps: start, abort and step boundary, and with the bus rate O18. -/

namespace Sys2Proof.Machine

open Sys2Proof

/-! ## TUMnn_TRN_CTRL (R91, R92, R101) -/

theorem regDef_trnCtrl (p : Part) (t : Tum) :
    regDef p (tumReg t 0x100) = some { reset := 0x14000, rw := 0x3FFFC, wo := 3 } := by
  rw [regDef_tum p t (by decide)]
  rfl

/-- Setting bits below a field leaves the field. -/
theorem bits_or_below (v x : Reg32) {hi lo : Nat} (hlo : lo ≤ hi) (hx : x.toNat < 2 ^ lo) :
    bits (v ||| x).toNat hi lo = bits v.toNat hi lo := by
  refine bits_congr (fun i _ hl => ?_) hlo
  have hclear : bit x.toNat i = false :=
    Nat.testBit_lt_two_pow (hx.trans_le (Nat.pow_le_pow_right (by decide) hl))
  rw [BitVec.toNat_or, bit_or, hclear, Bool.or_false]

/-- The fields of TUMnn_TRN_CTRL that hold a value take what is written (R101). -/
theorem fld_wrReg_trnCtrl (s : State) (t : Tum) (v : Reg32) {hi lo : Nat} (hhi : hi < 18) (hlo : lo ≤ hi) (h2 : 2 ≤ lo) :
    fld (wrReg s (tumReg t 0x100) v 0) (tumReg t 0x100) hi lo = bits v.toNat hi lo := by
  have hrw : ∀ i < 18, 2 ≤ i → bit 0x3FFFC i = true := by decide
  exact fld_wrReg (regDef_trnCtrl s.part t) v (by omega) hlo (fun i hi hl => hrw i (by omega) (by omega))
    (fun i _ _ => Nat.zero_testBit i) rfl rfl

/-- A write of TUMnn_TRN_CTRL that rejects nothing: the register, then START, then ABORT. -/
theorem wrTrnCtrl_of_valid {s : State} {t : Tum} {v : Reg32} (hlo : 8 ≤ bits v.toNat 17 13)
    (hhi : bits v.toNat 17 13 ≤ 16) (hop : bits v.toNat 12 10 ≤ 4) : wrTrnCtrl s t v =
      let u := wrReg s (tumReg t 0x100) v 0
      let u := if bit v.toNat 0 then if mayTrain u t then startSweep u t else paramFault u (.tum t) else u
      if bit v.toNat 1 then
        u.modTum t (fun x => { x with training := x.training.map (fun y => { y with abort := true }) })
      else u := by
  unfold wrTrnCtrl
  dsimp only
  rw [if_neg (show ¬ (bits v.toNat 17 13 < 8 ∨ 16 < bits v.toNat 17 13) by omega), if_neg (Nat.not_lt.2 hop), putReg_zero]

/-! ## The start of a sweep (R90, R91) -/

/-- The sweep with which a training begins. -/
def firstSweep (s : State) (t : Nat) : Training :=
  { wasOnline := tstate s t = .online, d := fld s (tumReg t 0x104) 5 0, abort := false, log := [] }

/-- TUMnn_TRN_STAT at the start of a sweep: running, no value tried, at the rate in force. -/
def sweepShown (s : State) (t : Nat) : State :=
  setF (setF (setF s (tumReg t 0x108) 0 0 1) (tumReg t 0x108) 15 8 0) (tumReg t 0x108) 17 16 (rateOf s t)

/-- A sweep begun: shown, counted, and at its first value. -/
def sweepBegun (s : State) (t : Nat) : State :=
  (count (sweepShown s t) (cTum t 15) 1).modTum t (fun x => { x with training := some (firstSweep s t) })

theorem fld_count_sweepShown (s : State) (t slot n : Nat) :
    fld (count (sweepShown s t) slot n) (tumReg t 0x104) 5 0 = fld s (tumReg t 0x104) 5 0 := by
  have hne : tumReg t 0x104 ≠ tumReg t 0x108 := tumReg_ne t (by decide)
  rw [fld_count, sweepShown, fld_setF_other _ _ _ _ _ _ hne, fld_setF_other _ _ _ _ _ _ hne,
    fld_setF_other _ _ _ _ _ _ hne]

theorem startSweep_eq (s : State) (t : Nat) : startSweep s t =
    if tstate s t = .online then pauseOn (setMode (sweepBegun s t) t (fun m => { m with state := .busy })) t
    else sweepBegun s t := by
  unfold startSweep sweepBegun firstSweep
  rw [← fld_count_sweepShown s t (cTum t 15) 1]
  unfold sweepShown
  by_cases ho : tstate s t = .online
  · simp only [ho, decide_true, if_true]
  · simp only [ho, decide_false, if_false]

theorem flag_sweepShown (s : State) (t : Nat) : flag (sweepShown s t) (tumReg t 0x108) 0 = true := by
  rw [sweepShown, flag_setF_same _ _ _ _ _ _ (by decide) (by decide), if_neg (by decide),
    flag_setF_same _ _ _ _ _ _ (by decide) (by decide), if_neg (by decide)]
  exact flag_setF_one _ _ 0 (by decide)

theorem inTum_sweepBegun (s : State) (t : Nat) : InTum t (sweepShown s t) (sweepBegun s t) :=
  ((InTum.refl t _).count _ _).modTum _

theorem sameSweep_startSweep (s : State) (t : Nat) : SameSweep t (sweepBegun s t) (startSweep s t) := by
  rw [startSweep_eq]
  exact (((SameSweep.refl t _).setMode _).pauseOn).ite (SameSweep.refl t _)

theorem training_startSweep (s : State) (t : Nat) : ((startSweep s t).tum t).training = some (firstSweep s t) := by
  rw [(sameSweep_startSweep s t).training, sweepBegun, tum_modTum_same]

theorem tstate_startSweep {s : State} {t : Nat} (ho : tstate s t = .online) : tstate (startSweep s t) t = .busy := by
  rw [startSweep_eq, if_pos ho, tstate, mode_pauseOn, mode_setMode]

theorem flag_startSweep (s : State) (t : Nat) : flag (startSweep s t) (tumReg t 0x108) 0 = true := by
  rw [(sameSweep_startSweep s t).toInTum.flag_eq, (inTum_sweepBegun s t).flag_eq, flag_sweepShown]

theorem InTumBut.startSweep {p : Nat → Prop} {t : Nat} {s u : State} (h : InTumBut p t s u) (hp : p (tumReg t 0x108)) :
    InTumBut p t s (startSweep u t) :=
  ((((h.setF hp _ _ _).setF hp _ _ _).setF hp _ _ _ : InTumBut p t s (sweepShown u t)).inTum
    (inTum_sweepBegun u t)).inTum (sameSweep_startSweep u t).toInTum

/-- A sweep may start under a TUMnn_TRN_CTRL that was written so (R91). -/
theorem mayTrain_of_written {s : State} {t : Tum} {v : Reg32} (hl : bits v.toNat 9 4 < s.part.leaves)
    (ht : (s.tum t).training = none) (hr : (s.tum t).mode.rate = .idle)
    (ho : tstate s t = .offline ∨ (tstate s t = .online ∧ bits v.toNat 17 13 ≤ 10)) :
    mayTrain (wrReg s (tumReg t 0x100) v 0) t = true := by
  obtain ⟨-, hpart, -⟩ := wrReg_units s (tumReg t 0x100) v 0
  have hleaf : fld (wrReg s (tumReg t 0x100) v 0) (tumReg t 0x100) 9 4 = bits v.toNat 9 4 :=
    fld_wrReg_trnCtrl s t v (by decide) (by decide) (by decide)
  have hdepth : fld (wrReg s (tumReg t 0x100) v 0) (tumReg t 0x100) 17 13 = bits v.toNat 17 13 :=
    fld_wrReg_trnCtrl s t v (by decide) (by decide) (by decide)
  have hstate : tstate (wrReg s (tumReg t 0x100) v 0) t = tstate s t := by rw [tstate, tum_wrReg, tstate]
  have hwhere : (tstate s t = .offline || (tstate s t = .online && decide (bits v.toNat 17 13 ≤ 10))) = true := by
    obtain ho | ⟨ho, hd⟩ := ho
    · simp [ho]
    · simp [ho, hd]
  unfold mayTrain
  dsimp only
  rw [hleaf, hdepth, hpart, hstate, tum_wrReg, ht, hr, hwhere, decide_eq_true hl]
  rfl

theorem trnStart_starts (s : State) (t : Tum) (v : Reg32) (hreach : reaches s (tumReg t 0x100) = true)
    (hlo : 8 ≤ bits v.toNat 17 13) (hhi : bits v.toNat 17 13 ≤ 16) (hop : bits v.toNat 12 10 ≤ 4)
    (hl : bits v.toNat 9 4 < s.part.leaves) (hb : bit v.toNat 1 = false) (ht : (s.tum t).training = none)
    (hr : (s.tum t).mode.rate = .idle)
    (ho : tstate s t = .offline ∨ (tstate s t = .online ∧ bits v.toNat 17 13 ≤ 10)) :
    Completes (.trnStart t v) s (fun u => (u.tum t).training = some
        { wasOnline := tstate s t = .online, d := fld s (tumReg t 0x104) 5 0, abort := false, log := [] } ∧
      flag u (tumReg t 0x108) 0 = true ∧ (tstate s t = .online → tstate u t = .busy) ∧
      RegsBut [tumReg t 0x100, tumReg t 0x108] s u ∧ TumsBut t s u ∧ SameMemory s u) := by
  have hbits (hi lo : Nat) (hlo : lo ≤ hi) (h1 : 1 ≤ lo) : bits (v ||| 1).toNat hi lo = bits v.toNat hi lo :=
    bits_or_below v 1 hlo (Nat.one_lt_two_pow (by omega))
  have hdepth := hbits 17 13 (by decide) (by decide)
  have hgo : wrTrnCtrl s t (v ||| 1) = startSweep (wrReg s (tumReg t 0x100) (v ||| 1) 0) t := by
    have hstart : bit (v ||| 1).toNat 0 = true := by simp [bit]
    have habort : bit (v ||| 1).toNat 1 = false := by
      rw [BitVec.toNat_or, bit_or, hb]
      decide
    rw [wrTrnCtrl_of_valid (by rwa [hdepth]) (by rwa [hdepth]) (by rwa [hbits 12 10 (by decide) (by decide)])]
    dsimp only
    rw [if_pos hstart, habort, if_neg Bool.false_ne_true, if_pos]
    exact mayTrain_of_written (by rwa [hbits 9 4 (by decide) (by decide)]) ht hr (by rwa [hdepth])
  have hexec : exec (.trnStart t v) s = .next (startSweep (wrReg s (tumReg t 0x100) (v ||| 1) 0) t) := by
    change execTrnStart t v s = _
    rw [execTrnStart, atReg_of_reaches hreach, hgo]
  have hstate : tstate (wrReg s (tumReg t 0x100) (v ||| 1) 0) t = tstate s t := by rw [tstate, tum_wrReg, tstate]
  have hfirst : firstSweep (wrReg s (tumReg t 0x100) (v ||| 1) 0) t = firstSweep s t := by
    rw [firstSweep, hstate, fld, regsBut_wrReg s (tumReg t 0x100) (v ||| 1) 0 _ (by simp [tumReg_ne]), ← fld, firstSweep]
  obtain ⟨hregs, htums, hmem⟩ := ((InTumBut.refl (· ∈ [tumReg t 0x100, tumReg t 0x108]) t.val s).wrReg
    (off := tumReg t 0x100) (by simp) (v ||| 1) 0).startSweep (by simp)
  exact ⟨_, hexec, (training_startSweep ..).trans (congrArg some hfirst), flag_startSweep ..,
    fun hon => tstate_startSweep (hstate.trans hon), hregs, htums, hmem⟩

/-! ## ABORT (R92) -/

theorem trnAbort_marks (s : State) (t : Tum) (v : Reg32) (x : Training) (hreach : reaches s (tumReg t 0x100) = true)
    (hlo : 8 ≤ bits v.toNat 17 13) (hhi : bits v.toNat 17 13 ≤ 16) (hop : bits v.toNat 12 10 ≤ 4)
    (hb : bit v.toNat 0 = false) (ht : (s.tum t).training = some x) :
    Completes (.trnAbort t v) s (fun u => (u.tum t).training = some { x with abort := true } ∧
      RegsBut [tumReg t 0x100] s u ∧ TumsBut t s u ∧ SameMemory s u) := by
  have hbits (hi lo : Nat) (hlo : lo ≤ hi) (h2 : 2 ≤ lo) : bits (v ||| 2).toNat hi lo = bits v.toNat hi lo :=
    bits_or_below v 2 hlo (show 2 ^ 1 < 2 ^ lo from Nat.pow_lt_pow_right (by decide) (by omega))
  have hdepth := hbits 17 13 (by decide) (by decide)
  have hstart : bit (v ||| 2).toNat 0 = false := by
    rw [BitVec.toNat_or, bit_or, hb]
    decide
  have habort : bit (v ||| 2).toNat 1 = true := by
    rw [BitVec.toNat_or, bit_or]
    exact Bool.or_true _
  have hexec : exec (.trnAbort t v) s = .next ((wrReg s (tumReg t 0x100) (v ||| 2) 0).modTum t
      (fun x => { x with training := x.training.map (fun y => { y with abort := true }) })) := by
    change execTrnAbort t v s = _
    rw [execTrnAbort, atReg_of_reaches hreach, wrTrnCtrl_of_valid (by rwa [hdepth]) (by rwa [hdepth])
      (by rwa [hbits 12 10 (by decide) (by decide)])]
    dsimp only
    rw [if_pos habort, hstart, if_neg Bool.false_ne_true]
  obtain ⟨hregs, htums, hmem⟩ := ((InTumBut.refl (· ∈ [tumReg t 0x100]) t.val s).wrReg
    (off := tumReg t 0x100) (by simp) (v ||| 2) 0).inTum ((InTum.refl t.val _).modTum
      (fun x => { x with training := x.training.map (fun y => { y with abort := true }) }))
  refine ⟨_, hexec, ?_, hregs, htums, hmem⟩
  rw [tum_modTum_same, tum_wrReg, ht]
  rfl

/-! ## The end of a step (R90, R92, R105) -/

/-- A sweep with the wires that passed at its value noted. -/
def tried (x : Training) (pass : BitVec 336) : Training := { x with log := (x.d, pass) :: x.log }

/-- A step counted: the leaf's counter, and the values tried so far in TUMnn_TRN_STAT. -/
def stepCounted (s : State) (t : Nat) (x : Training) : State :=
  setF (count s (cLeaf (fld s (tumReg t 0x100) 9 4) 7) 1) (tumReg t 0x108) 15 8 (min 255 x.log.length)

theorem rd_stepCounted (s : State) (t : Nat) (x : Training) {o : Nat} (ho : o ≠ 0x108) :
    rd (stepCounted s t x) (tumReg t o) = rd s (tumReg t o) :=
  (rd_setF_other _ _ _ _ (tumReg_ne t ho)).trans (rd_count ..)

theorem fld_stepCounted (s : State) (t : Nat) (x : Training) {o : Nat} (ho : o ≠ 0x108) (hi lo : Nat) :
    fld (stepCounted s t x) (tumReg t o) hi lo = fld s (tumReg t o) hi lo := by rw [fld, rd_stepCounted s t x ho, fld]

theorem flag_stepCounted (s : State) (t : Nat) (x : Training) {o : Nat} (ho : o ≠ 0x108) (i : Nat) :
    flag (stepCounted s t x) (tumReg t o) i = flag s (tumReg t o) i := by rw [flag, rd_stepCounted s t x ho, flag]

theorem InTumBut.stepCounted {p : Nat → Prop} {t : Nat} {s u : State} (h : InTumBut p t s u) (hp : p (tumReg t 0x108))
    (x : Training) : InTumBut p t s (stepCounted u t x) := (h.inTum ((InTum.refl t u).count _ _)).setF hp _ _ _

/-- The results of the wires of an operation, written (R105). -/
def resultsWritten (s : State) (t : Nat) (x : Training) : State :=
  (opWires (fld s (tumReg t 0x100) 3 2)).foldl (fun s w =>
    wr s (tumReg t (0x400 + 4 * w)) (BitVec.ofNat 32 (wireResult x.log w))) s

/-- The last step of a sweep: every wire has its result, and the sweep is over (R92, R105). -/
def sweepCompleted (s : State) (t : Nat) (x : Training) : State :=
  endSweep (setF (resultsWritten s t x) (tumReg t 0x108) 1 1 1) t x

/-- A step of a sweep that goes on at the next value, after the refreshes that must issue (R90, R119). -/
def sweepGoesOn (s : State) (t : Nat) (x : Training) (d : Nat) : State :=
  boundaryRefresh (s.modTum t (fun y => { y with training := some { x with d := d } })) t

theorem stepEnd_of_abort {s : State} {t : Nat} {x : Training} (pass : BitVec 336) (ha : x.abort = true) :
    stepEnd s t x pass =
      endSweep (setF (stepCounted s t (tried x pass)) (tumReg t 0x108) 3 3 1) t (tried x pass) := if_pos ha

/-- A step without ABORT and without a rate change waiting ends the sweep or goes on with it (R90). -/
theorem stepEnd_of_running {s : State} {t : Nat} {x : Training} (pass : BitVec 336) (ha : x.abort = false)
    (hc : flag s (tumReg t 8) 4 = false) : stepEnd s t x pass =
      if fld s (tumReg t 0x104) 13 8 < x.d + fld s (tumReg t 0x104) 19 16 then
        sweepCompleted (stepCounted s t (tried x pass)) t (tried x pass)
      else sweepGoesOn (stepCounted s t (tried x pass)) t (tried x pass) (x.d + fld s (tumReg t 0x104) 19 16) := by
  have hrate : flag (stepCounted s t (tried x pass)) (tumReg t 8) 4 = false :=
    (flag_stepCounted s t _ (by decide) 4).trans hc
  have hstep (hi lo : Nat) : fld s (tumReg t 0x104) hi lo = fld (stepCounted s t (tried x pass)) (tumReg t 0x104) hi lo :=
    (fld_stepCounted s t _ (by decide) hi lo).symm
  rw [hstep, hstep]
  exact (if_neg (Bool.eq_false_iff.1 ha)).trans (if_neg (Bool.eq_false_iff.1 hrate))

theorem training_sweepGoesOn (s : State) (t : Nat) (x : Training) (d : Nat) :
    ((sweepGoesOn s t x d).tum t).training = some { x with d := d } := by
  rw [sweepGoesOn, (SameSweep.refl t _).boundaryRefresh.training, tum_modTum_same]

theorem InTumBut.sweepGoesOn {p : Nat → Prop} {t : Nat} {s u : State} (h : InTumBut p t s u) (x : Training) (d : Nat) :
    InTumBut p t s (sweepGoesOn u t x d) :=
  (h.inTum ((InTum.refl t u).modTum _)).inTum (SameSweep.refl t _).boundaryRefresh.toInTum

/-! ### The sweep is over (R92) -/

/-- The tumbler without its sweep; one that was online is so again. -/
def sweepLeft (s : State) (t : Nat) (x : Training) : State :=
  let u := s.modTum t (fun y => { y with training := none })
  if x.wasOnline then pauseOff (setMode u t (fun m => { m with state := .online })) t else u

theorem inTum_sweepLeft (s : State) (t : Nat) (x : Training) : InTum t s (sweepLeft s t x) :=
  (((InTum.refl t s).modTum _).setMode _).pauseOff.ite ((InTum.refl t s).modTum _)

theorem training_sweepLeft (s : State) (t : Nat) (x : Training) : ((sweepLeft s t x).tum t).training = none := by
  have h := (((SameSweep.refl t (s.modTum t (fun y => { y with training := none }))).setMode
    (fun m => { m with state := .online })).pauseOff).ite (c := x.wasOnline = true) (SameSweep.refl t _)
  exact h.training.trans (congrArg Tumbler.training (tum_modTum_same ..))

/-- Where no rate change waits, the end of a sweep changes TUMnn_TRN_STAT and the tumbler's sweep and mode. -/
theorem endSweep_of_no_change {s : State} {t : Nat} (x : Training) (hc : flag s (tumReg t 8) 4 = false) :
    endSweep s t x = sweepLeft (setF s (tumReg t 0x108) 0 0 0) t x := by
  have hflag : flag (sweepLeft (setF s (tumReg t 0x108) 0 0 0) t x) (tumReg t 8) 4 = false := by
    rw [(inTum_sweepLeft ..).flag_eq, flag_setF_other _ _ _ _ _ (tumReg_ne t (by decide)), hc]
  have hgo : (flag (sweepLeft (setF s (tumReg t 0x108) 0 0 0) t x) (tumReg t 8) 4 &&
      ((sweepLeft (setF s (tumReg t 0x108) 0 0 0) t x).tum t).mode.rate = .idle) = false := by
    rw [hflag, Bool.false_and]
  exact if_neg (Bool.eq_false_iff.1 hgo)

section

variable {s : State} {t : Nat} {x : Training} (hc : flag s (tumReg t 8) 4 = false)

include hc

theorem training_endSweep : ((endSweep s t x).tum t).training = none := by
  rw [endSweep_of_no_change x hc, training_sweepLeft]

theorem flag_endSweep_running : flag (endSweep s t x) (tumReg t 0x108) 0 = false := by
  rw [endSweep_of_no_change x hc, (inTum_sweepLeft ..).flag_eq, flag_setF_zero _ _ 0 (by decide)]

theorem flag_endSweep {i : Nat} (hi : 0 < i) : flag (endSweep s t x) (tumReg t 0x108) i = flag s (tumReg t 0x108) i := by
  rw [endSweep_of_no_change x hc, (inTum_sweepLeft ..).flag_eq, flag_setF_same _ _ _ _ _ _ (by decide) (by decide),
    if_neg (by omega)]

theorem rd_endSweep {o : Nat} (ho : o ≠ tumReg t 0x108) : rd (endSweep s t x) o = rd s o := by
  rw [endSweep_of_no_change x hc, (inTum_sweepLeft ..).rd_eq, rd_setF_other _ _ _ _ ho]

theorem inTumBut_endSweep {p : Nat → Prop} {v : State} (h : InTumBut p t v s) (hp : p (tumReg t 0x108)) :
    InTumBut p t v (endSweep s t x) := by
  rw [endSweep_of_no_change x hc]
  exact (h.setF hp _ _ _).inTum (inTum_sweepLeft ..)

end

/-! ### The results of the wires (R105) -/

section

variable {off : Nat → Nat} {val : Nat → Reg32}

theorem rd_foldl_wr_other {o : Nat} (l : List Nat) (s : State) (h : ∀ w ∈ l, o ≠ off w) :
    rd (l.foldl (fun s w => wr s (off w) (val w)) s) o = rd s o := by
  induction l generalizing s with
  | nil => rfl
  | cons a r ih =>
    rw [List.foldl_cons, ih _ fun w hw => h w (List.mem_cons_of_mem _ hw), rd_wr_other _ _ (h a List.mem_cons_self)]

/-- Registers written one after the other, each once or always with the same value, hold what was written. -/
theorem rd_foldl_wr_mem (hoff : Function.Injective off) {w : Nat} (l : List Nat) (s : State) (hw : w ∈ l) :
    rd (l.foldl (fun s w => wr s (off w) (val w)) s) (off w) = val w := by
  induction l generalizing s with
  | nil => exact absurd hw List.not_mem_nil
  | cons a r ih =>
    rw [List.foldl_cons]
    by_cases hr : w ∈ r
    · exact ih _ hr
    · obtain rfl : w = a := (List.mem_cons.1 hw).resolve_right hr
      rw [rd_foldl_wr_other r _ fun k hk he => hr (by rwa [hoff he]), rd_wr_same]

end

theorem resultReg_injective (t : Nat) : Function.Injective (fun w => tumReg t (0x400 + 4 * w)) := by
  intro a b h
  simp only [tumReg] at h
  omega

theorem rd_resultsWritten (s : State) (t : Nat) (x : Training) {w : Nat} (hw : w ∈ opWires (fld s (tumReg t 0x100) 3 2)) :
    rd (resultsWritten s t x) (tumReg t (0x400 + 4 * w)) = BitVec.ofNat 32 (wireResult x.log w) :=
  rd_foldl_wr_mem (resultReg_injective t) _ s hw

theorem rd_resultsWritten_below (s : State) (t : Nat) (x : Training) {o : Nat} (ho : o < 0x400) :
    rd (resultsWritten s t x) (tumReg t o) = rd s (tumReg t o) :=
  rd_foldl_wr_other _ s fun w _ => tumReg_ne t (by omega)

theorem InTumBut.resultsWritten {p : Nat → Prop} {t : Nat} {s u : State} (h : InTumBut p t s u)
    (hp : ∀ w, p (tumReg t (0x400 + 4 * w))) (x : Training) : InTumBut p t s (resultsWritten u t x) :=
  InTumBut.foldl (fun _ w hv => hv.wr (hp w) _) _ h

/-! ### The step boundary (R90) -/

theorem exec_trnStepBoundary {s : State} {t : Tum} {x : Training} (pass : BitVec 336) (ht : (s.tum t).training = some x)
    (hq : quiet s t = true) (hr : (s.tum t).mode.rate = .idle) :
    exec (.trnStepBoundary t pass) s = .next (stepEnd s t x pass) := by
  change execTrnStepBoundary t pass s = _
  simp [execTrnStepBoundary, ht, hq, hr]

theorem stepEnd_aborts {s : State} {t : Nat} {x : Training} (pass : BitVec 336) (hc : flag s (tumReg t 8) 4 = false)
    (ha : x.abort = true) : ((stepEnd s t x pass).tum t).training = none ∧
      flag (stepEnd s t x pass) (tumReg t 0x108) 0 = false ∧ flag (stepEnd s t x pass) (tumReg t 0x108) 3 = true := by
  have hrate : flag (setF (stepCounted s t (tried x pass)) (tumReg t 0x108) 3 3 1) (tumReg t 8) 4 = false := by
    rw [flag_setF_other _ _ _ _ _ (tumReg_ne t (by decide)), flag_stepCounted s t _ (by decide), hc]
  rw [stepEnd_of_abort pass ha]
  exact ⟨training_endSweep hrate, flag_endSweep_running hrate,
    (flag_endSweep hrate (by decide)).trans (flag_setF_one _ _ 3 (by decide))⟩

section

variable {s : State} {t : Nat} (x : Training) (hc : flag s (tumReg t 8) 4 = false)

include hc

theorem flag_resultsWritten_rate : flag (setF (resultsWritten s t x) (tumReg t 0x108) 1 1 1) (tumReg t 8) 4 = false := by
  rw [flag_setF_other _ _ _ _ _ (tumReg_ne t (by decide)), flag, rd_resultsWritten_below s t x (by decide), ← flag, hc]

theorem sweepCompleted_shows : ((sweepCompleted s t x).tum t).training = none ∧
    flag (sweepCompleted s t x) (tumReg t 0x108) 0 = false ∧ flag (sweepCompleted s t x) (tumReg t 0x108) 1 = true ∧
    ∀ w ∈ opWires (fld s (tumReg t 0x100) 3 2),
      rd (sweepCompleted s t x) (tumReg t (0x400 + 4 * w)) = BitVec.ofNat 32 (wireResult x.log w) := by
  have hrate := flag_resultsWritten_rate x hc
  refine ⟨training_endSweep hrate, flag_endSweep_running hrate,
    (flag_endSweep hrate (by decide)).trans (flag_setF_one _ _ 1 (by decide)), fun w hw => ?_⟩
  have hne : tumReg t (0x400 + 4 * w) ≠ tumReg t 0x108 := tumReg_ne t (by omega)
  rw [sweepCompleted, rd_endSweep hrate hne, rd_setF_other _ _ _ _ hne, rd_resultsWritten s t x hw]

end

/-- A register of tumbler `t`. -/
def ofTum (t o : Nat) : Prop := ∃ k, o = tumReg t k

theorem inTumBut_stepEnd {s : State} {t : Nat} (x : Training) (pass : BitVec 336) (hc : flag s (tumReg t 8) 4 = false) :
    InTumBut (ofTum t) t s (stepEnd s t x pass) := by
  have hreg (k : Nat) : ofTum t (tumReg t k) := ⟨k, rfl⟩
  have hcounted := (InTumBut.refl (ofTum t) t s).stepCounted (hreg _) (tried x pass)
  have hrate : flag (stepCounted s t (tried x pass)) (tumReg t 8) 4 = false :=
    (flag_stepCounted s t _ (by decide) 4).trans hc
  cases ha : x.abort with
  | true =>
    rw [stepEnd_of_abort pass ha]
    exact inTumBut_endSweep (by rwa [flag_setF_other _ _ _ _ _ (tumReg_ne t (by decide))])
      (hcounted.setF (hreg _) _ _ _) (hreg _)
  | false =>
    rw [stepEnd_of_running pass ha hc]
    split
    · exact inTumBut_endSweep (flag_resultsWritten_rate _ hrate)
        ((hcounted.resultsWritten (fun _ => hreg _) _).setF (hreg _) _ _ _) (hreg _)
    · exact hcounted.sweepGoesOn _ _

theorem trnStepBoundary_steps (s : State) (t : Tum) (pass : BitVec 336) (x : Training)
    (ht : (s.tum t).training = some x) (hq : quiet s t = true) (hr : (s.tum t).mode.rate = .idle)
    (hc : flag s (tumReg t 8) 4 = false) : Completes (.trnStepBoundary t pass) s (fun u =>
      let d := x.d + fld s (tumReg t 0x104) 19 16
      (x.abort = true → (u.tum t).training = none ∧ flag u (tumReg t 0x108) 0 = false ∧
        flag u (tumReg t 0x108) 3 = true) ∧
      (x.abort = false → d ≤ fld s (tumReg t 0x104) 13 8 →
        (u.tum t).training = some { x with d := d, log := (x.d, pass) :: x.log }) ∧
      (x.abort = false → fld s (tumReg t 0x104) 13 8 < d → (u.tum t).training = none ∧
        flag u (tumReg t 0x108) 0 = false ∧ flag u (tumReg t 0x108) 1 = true ∧
        ∀ w ∈ opWires (fld s (tumReg t 0x100) 3 2),
          rd u (tumReg t (0x400 + 4 * w)) = BitVec.ofNat 32 (wireResult ((x.d, pass) :: x.log) w)) ∧
      TumsBut t s u ∧ SameMemory s u) := by
  have hframe := inTumBut_stepEnd x pass hc
  refine ⟨_, exec_trnStepBoundary pass ht hq hr, stepEnd_aborts pass hc, fun ha hd => ?_, fun ha hd => ?_, hframe.tums,
    hframe.memory⟩
  · rw [stepEnd_of_running pass ha hc, if_neg (Nat.not_lt.2 hd)]
    exact training_sweepGoesOn ..
  · rw [stepEnd_of_running pass ha hc, if_pos hd, ← fld_stepCounted s t (tried x pass) (show 0x100 ≠ 0x108 by decide)]
    exact sweepCompleted_shows (tried x pass) ((flag_stepCounted s t _ (by decide) 4).trans hc)

/-- Settles O18: the steps of a rate change and of a sweep in their order, each by the lemma about its row. That a step
boundary reads END, STEP and OP as they stand then is the model's choice (log 126). -/
theorem trainingAndBusRate : Obligations.TrainingAndBusRate :=
  ⟨fun s t => ⟨rateReqWrite_begins s t, rateQuiesced_relocks s t, rateRelockDone_changes s t⟩,
   fun s t => ⟨trnStart_starts s t, trnAbort_marks s t, trnStepBoundary_steps s t⟩⟩

end Sys2Proof.Machine
end

section
/-! PROOF. What recordings, reactions and pauses in a thermal evaluation keep of it: zones, inputs, emergencies, memories. -/

namespace Sys2Proof.Machine

open Sys2Proof

/-- From `s` to `u` the part, the time, the memories, the inputs' voltages and the start of the thermal block stay. -/
structure EvalKept (s u : State) : Prop where
  part : u.part = s.part
  now : u.now = s.now
  dram : u.dram = s.dram
  mram : u.mram = s.mram
  inputs : rd u (senReg 4) = rd s (senReg 4)
  started : u.thermal.started = s.thermal.started

/-- Beside these, the zones stay. -/
structure ZoneKept (s u : State) : Prop extends EvalKept s u where
  zones : u.thermal.zones = s.thermal.zones

/-- Beside these, the tumblers' emergencies stay. -/
structure HeatKept (s u : State) : Prop extends ZoneKept s u where
  emergency : ∀ t, (u.tum t).mode.emergency = (s.tum t).mode.emergency

namespace EvalKept

theorem refl (s : State) : EvalKept s s := ⟨rfl, rfl, rfl, rfl, rfl, rfl⟩

variable {s u v : State}

theorem trans (h : EvalKept s u) (h' : EvalKept u v) : EvalKept s v :=
  ⟨h'.part.trans h.part, h'.now.trans h.now, h'.dram.trans h.dram, h'.mram.trans h.mram, h'.inputs.trans h.inputs,
    h'.started.trans h.started⟩

theorem sameMemory (h : EvalKept s u) : SameMemory s u := sameMemory_of_eq h.dram h.mram

theorem withZones (h : EvalKept s u) (x : Tab Zone) : EvalKept s { u with thermal := { u.thermal with zones := x } } :=
  ⟨h.part, h.now, h.dram, h.mram, h.inputs, h.started⟩

end EvalKept

theorem ZoneKept.trans {s u v : State} (h : ZoneKept s u) (h' : ZoneKept u v) : ZoneKept s v :=
  ⟨h.toEvalKept.trans h'.toEvalKept, h'.zones.trans h.zones⟩

namespace HeatKept

theorem refl (s : State) : HeatKept s s := ⟨⟨EvalKept.refl s, rfl⟩, fun _ => rfl⟩

variable {s u v : State}

theorem trans (h : HeatKept s u) (h' : HeatKept u v) : HeatKept s v :=
  ⟨h.toZoneKept.trans h'.toZoneKept, fun t => (h'.emergency t).trans (h.emergency t)⟩

/-! ## Choices and loops -/

theorem ite {c : Prop} [Decidable c] (hu : HeatKept s u) (hv : HeatKept s v) : HeatKept s (if c then u else v) := by
  split
  · exact hu
  · exact hv

theorem ifElse {c : Prop} [Decidable c] (hu : HeatKept s u) (hv : HeatKept s u → HeatKept s v) :
    HeatKept s (if c then u else v) := hu.ite (hv hu)

theorem foldl {β : Type} {f : State → β → State} (h : HeatKept s u) (hf : ∀ u b, HeatKept s u → HeatKept s (f u b))
    (l : List β) : HeatKept s (l.foldl f u) := by
  induction l generalizing u with
  | nil => exact h
  | cons b r ih => exact ih (hf u b h)

theorem foldUpTo {f : State → Nat → State} (h : HeatKept s u) (hf : ∀ u b, HeatKept s u → HeatKept s (f u b))
    (n : Nat) : HeatKept s (foldUpTo n f u) := h.foldl hf _

/-! ## Shared operations -/

/-- An update of fields that are not kept. -/
theorem update (h : HeatKept s u) (pending : List Instr) (free : Nat) (shadow : Tab (Option Reg32))
    (readOut : Tab Reg32) (sram : List Host.Cell) (mramFenced : Bool) (leaves : Tab LeafS)
    (waiting : List Access) (live : List (Nat × BitVec 18 × BitVec 12)) (nextId : Nat) (sweeps : List SweepT)
    (clears : List ClearCmd) (reinits : List Reinit) (engines : Tab Engine) (scans : Tab (Option Scan)) (ward : Ward)
    (ports : Tab Port) (pair : Pair) (cmds : Cmds) (rings : Tab RingS) (dmas : List Dma) (usb : Usb)
    (cores : Tab Core) (update : Option Update) (pulses : List (BitVec 12 × Word64)) (flts : Tab FltS)
    (shadows : List Shadow) (logTail : List Entry) (logSeq : BitVec 32) (counts : Tab (BitVec 48)) (dump : Dump)
    (power : Power) (calib : Calib) (i3c : I3c) (jtag : Jtag) :
    HeatKept s (State.mk u.part pending u.now free u.csr shadow readOut u.dram sram u.mram mramFenced u.tums leaves
      waiting live nextId sweeps clears reinits engines scans ward ports pair cmds rings dmas usb cores update pulses
      flts shadows logTail logSeq counts dump power u.thermal calib i3c jtag) :=
  ⟨⟨⟨h.part, h.now, h.dram, h.mram, h.inputs, h.started⟩, h.zones⟩, h.emergency⟩

/-- An update of the thermal block beside its zones. -/
theorem withThermal (h : HeatKept s u) {x : Thermal} (hz : x.zones = u.thermal.zones := by rfl)
    (hs : x.started = u.thermal.started := by rfl) : HeatKept s { u with thermal := x } :=
  ⟨⟨⟨h.part, h.now, h.dram, h.mram, h.inputs, hs.trans h.started⟩, hz.trans h.zones⟩, h.emergency⟩

theorem wr (h : HeatKept s u) {off : Nat} (v : Reg32) (ho : senReg 4 ≠ off) : HeatKept s (wr u off v) :=
  ⟨⟨⟨h.part, h.now, h.dram, h.mram, (rd_wr_other _ _ ho).trans h.inputs, h.started⟩, h.zones⟩, h.emergency⟩

theorem setF (h : HeatKept s u) {off : Nat} (hi lo x : Nat) (ho : senReg 4 ≠ off) : HeatKept s (setF u off hi lo x) :=
  h.wr _ ho

theorem count (h : HeatKept s u) (slot n : Nat) : HeatKept s (count u slot n) := by
  obtain ⟨c, hc⟩ := count_eq u slot n
  rw [hc]
  exact h.update ..

theorem setPort (h : HeatKept s u) (p : Nat) (x : Port) : HeatKept s (u.setPort p x) := h.update ..

theorem setFlt (h : HeatKept s u) (b : FltSet) (x : FltS) : HeatKept s (u.setFlt b x) := h.update ..

theorem setRing (h : HeatKept s u) (n : Nat) (x : RingS) : HeatKept s (u.setRing n x) := h.update ..

theorem setCore (h : HeatKept s u) (n : Nat) (x : Core) : HeatKept s (u.setCore n x) := h.update ..

theorem raise (h : HeatKept s u) (src data : Nat) : HeatKept s (raise u src data) := h.update ..

theorem dropTaken (h : HeatKept s u) (src : CmdSrc) : HeatKept s (dropTaken u src) := h.update ..

theorem openShadow (h : HeatKept s u) (b : FltSet) (fatal : Bool) : HeatKept s (openShadow u b fatal) := h.update ..

theorem ibi (h : HeatKept s u) (b : Byte) (i : Nat) : HeatKept s (ibi u b i) := by
  unfold Machine.ibi
  exact (h.update ..).ite h

theorem setAlert (h : HeatKept s u) (a : Bool) : HeatKept s (setAlert u a) := by
  have hp : HeatKept s { u with power := { u.power with alert := a } } := h.update ..
  exact (hp.ibi ..).ite hp

/-! ## Tumblers -/

theorem setTum (h : HeatKept s u) (t : Nat) {x : Tumbler} (hx : x.mode.emergency = (u.tum t).mode.emergency) :
    HeatKept s (u.setTum t x) := by
  refine ⟨⟨⟨h.part, h.now, h.dram, h.mram, h.inputs, h.started⟩, h.zones⟩, fun k => ?_⟩
  by_cases hk : k = t
  · rw [hk, tum_setTum_same, hx, h.emergency]
  · rw [tum_setTum_other _ _ hk, h.emergency]

theorem modTum (h : HeatKept s u) (t : Nat) {f : Tumbler → Tumbler}
    (hf : ∀ x, (f x).mode.emergency = x.mode.emergency := by intro; rfl) : HeatKept s (u.modTum t f) := h.setTum t (hf _)

theorem setMode (h : HeatKept s u) (t : Nat) {f : TMode → TMode}
    (hf : ∀ m, (f m).emergency = m.emergency := by intro; rfl) : HeatKept s (setMode u t f) := h.modTum t fun _ => hf _

theorem excludeQueued (h : HeatKept s u) (t : Nat) : HeatKept s (excludeQueued u t) :=
  HeatKept.update (h.modTum t) ..

theorem pauseOn (h : HeatKept s u) (t : Nat) : HeatKept s (pauseOn u t) := by
  unfold Machine.pauseOn
  split
  · exact ((h.excludeQueued t).modTum t).ite h
  · exact (h.excludeQueued t).modTum t

theorem pauseOff (h : HeatKept s u) (t : Nat) : HeatKept s (pauseOff u t) := by
  unfold Machine.pauseOff
  split
  · exact h
  · exact (h.ite (h.excludeQueued t)).modTum t fun x => by split <;> rfl

theorem checkExcess (h : HeatKept s u) (t : Nat) : HeatKept s (checkExcess u t) :=
  h.ite ((((h.setMode t).count ..).pauseOn t).ite h)

theorem endExcess (h : HeatKept s u) (t : Nat) : HeatKept s (endExcess u t) :=
  ((h.setMode t).pauseOff t).ite h

theorem wakeFor (h : HeatKept s u) (t : Nat) : HeatKept s (wakeFor u t) := by
  unfold Machine.wakeFor
  exact (h.setMode t).ite (h.ite ((h.setMode t).ite ((h.setMode t).ite h)))

/-! ## Recording of a fault (R403 to R407) -/

theorem fltReg_ne_inputs (b : FltSet) {c : Nat} (hc : c < 24) : senReg 4 ≠ fltBase b ∧ senReg 4 ≠ sevReg b c := by
  cases b <;> simp only [sevReg, fltBase, senReg, tumReg, scnReg, fpReg, lfReg, coreReg] <;> omega

theorem record (h : HeatKept s u) (b : FltSet) {c : Nat} (hc : c < 24) (detail : BitVec 96) (n : Nat) :
    HeatKept s (record u b c detail n).1 := by
  obtain ⟨hstat, hsev⟩ := fltReg_ne_inputs b hc
  have hcond : HeatKept s (if (faultClass b c).1 = true then
      u.setFlt b { u.flt b with cond := (u.flt b).cond ||| BitVec.ofNat 24 (2 ^ c) } else u) := (h.setFlt ..).ite h
  have hentry {v : State} (hv : HeatKept s v) (sev sev' : Nat) (q e cons : Bool) : HeatKept s
      (setSev (Machine.setF (pushEntry v b c sev q e detail n) (fltBase b) c c 1) b c sev' cons) :=
    (HeatKept.setF (hv.update ..) _ _ _ hstat).setF _ _ _ hsev
  have hpair {v : State} (hv : HeatKept s v) :
      HeatKept s (if b = .pair then Machine.setF v (pairReg 0x18) 4 4 1 else v) := (hv.setF _ _ _ (by decide)).ite hv
  have halert {v : State} (hv : HeatKept s v) (sev : Nat) : HeatKept s (if 3 ≤ sev then Machine.setAlert v true else v) :=
    (hv.setAlert true).ite hv
  unfold Machine.record
  dsimp only
  split
  · exact hcond.count ..
  · exact hpair (halert ((hentry hcond ..).update ..) _)
  · exact halert (hpair (hentry hcond ..)) _

/-! ## A Fatal stop (R401) -/

theorem setPortF (h : HeatKept s u) (p o hi lo x : Nat) : HeatKept s (Machine.setF u (fpReg p o) hi lo x) :=
  h.setF _ _ _ (by unfold fpReg senReg; omega)

theorem endEye (h : HeatKept s u) (p : Nat) : HeatKept s (endEye u p) := by
  have hfresh (c : Bool) : HeatKept s (if c = true then ((0 : BitVec 64), u) else fresh u).2 := by
    split
    · exact h
    · exact h.update ..
  have hended := (((hfresh (flag u (fpReg p 0x404) 4)).setPortF p 0x404 0 0 0).setPortF p 0x404 4 4 0).setPortF p 0x404 2 2 1
  exact h.ite (HeatKept.setPort ((hended.setPortF p 0x404 3 3 1).ite hended) ..)

theorem dropInjection (h : HeatKept s u) (p : Nat) : HeatKept s (dropInjection u p) := (h.setPortF ..).ite h

theorem portRegsOff (h : HeatKept s u) (p : Nat) : HeatKept s (portRegsOff u p) := by
  have hwr {v : State} (hv : HeatKept s v) (o : Nat) (x : Reg32) : HeatKept s (Machine.wr v (fpReg p o) x) :=
    hv.wr _ (by unfold fpReg senReg; omega)
  unfold Machine.portRegsOff
  exact ((hwr ((hwr h ..).foldUpTo (fun _ _ hu => hu.setPortF ..) _) ..).endEye ..).dropInjection ..

theorem portReset (h : HeatKept s u) (p : PortN) (dest : LinkState) : HeatKept s (portReset u p dest) := by
  unfold Machine.portReset
  exact ((((((h.openShadow ..).count ..).count ..).dropTaken ..).ifElse (fun h =>
    (h.count ..).record _ (by decide) ..)).portRegsOff ..).setPort ..

theorem stopRing (h : HeatKept s u) (n : RingN) : HeatKept s (stopRing u n) := by
  unfold Machine.stopRing
  exact ((h.setRing ..).dropTaken ..).ifElse (fun h => (h.setF _ _ _ (by unfold ringReg senReg; omega)).count ..)

theorem stopRings (h : HeatKept s u) : HeatKept s (stopRings u) :=
  h.foldl (fun _ _ hu => (hu.stopRing _).setRing ..) _

theorem fatalStop (h : HeatKept s u) (b : FltSet) : HeatKept s (fatalStop u b) := by
  have hfatal {v : State} (hv : HeatKept s v) :
      HeatKept s { v with power := { v.power with fatal := true, drained := 0, stopAt := v.now } } := hv.update ..
  unfold Machine.fatalStop
  exact (((((hfatal (h.openShadow b true)).wr _ (by decide)).foldl (fun _ _ hu => hu.portReset ..) _).stopRings).foldl
    (fun _ _ hu => hu.setCore ..) _).setAlert true

/-! ## Reactions (R400, R410, R459, R500) -/

theorem setTrnStat (h : HeatKept s u) (t hi lo x : Nat) : HeatKept s (Machine.setF u (tumReg t 0x108) hi lo x) :=
  h.setF _ _ _ (by unfold tumReg senReg; omega)

theorem tumShutdown (h : HeatKept s u) (t : Tum) (f : Bool) : HeatKept s (tumShutdown u t f) := by
  have hopen := h.openShadow (.tum t) false
  unfold Machine.tumShutdown
  dsimp only
  refine (HeatKept.setF ?_ _ _ _ (by unfold tumReg senReg; omega)).setTum t ?_
  · split
    · exact (hopen.setTrnStat ..).setTrnStat ..
    · exact hopen
  · split <;> rfl

theorem leafReset (h : HeatKept s u) (l : LeafN) : HeatKept s (leafReset u l) := by
  unfold Machine.leafReset
  refine ((h.openShadow ..).count ..).foldl (fun v t hv => ?_) _
  have hcounted := hv.count (cTum t 3) (leafOpen (v.tum t) l)
  refine (((hcounted.setTrnStat t 3 3 1).setTrnStat t 0 0 0).ite hcounted).setTum t ?_
  have htum (w : State) (c : Prop) [Decidable c] : ((if c then Machine.setF (Machine.setF w (tumReg t 0x108) 3 3 1)
      (tumReg t 0x108) 0 0 0 else w).tum t) = w.tum t := by split <;> rfl
  rw [htum, tum_count]
  dsimp only
  split <;> rfl

/-! ## Faults of an evaluation -/

theorem tumFault (h : HeatKept s u) (t : Tum) {c : Nat} (hc : c < 24) (detail : BitVec 96) (n : Nat) :
    HeatKept s (fault u (.tum t) c detail n) := by
  have hr := h.record (.tum t) hc detail n
  exact hr.ite (hr.ite (hr.tumShutdown t true))

theorem leafFault (h : HeatKept s u) (l : LeafN) {c : Nat} (hc : c < 24) (detail : BitVec 96) (n : Nat) :
    HeatKept s (fault u (.leaf l) c detail n) := by
  have hr := h.record (.leaf l) hc detail n
  exact hr.ite (hr.leafReset l)

/-- Thermal faults stop the model or the module; the zones stay as they are. -/
theorem thmFault (h : HeatKept s u) {c : Nat} (hc : c < 24) (detail : BitVec 96) (n : Nat) :
    HeatKept s (fault u .thm c detail n) := by
  have hr := h.record .thm hc detail n
  have hstop := hr.fatalStop .thm
  have htrip {v : State} (hv : HeatKept s v) :
      HeatKept s (Machine.setF { v with power := { v.power with mode := .draining .thermalTrip } } (senReg 0) 6 6 1) :=
    HeatKept.setF (hv.update ..) _ _ _ (by decide)
  unfold fault react
  dsimp only
  exact hr.ite (hr.withThermal.ite (hr.ite ((htrip hstop).ite hstop)))

theorem condEnd (h : HeatKept s u) (b : FltSet) (c : Nat) : HeatKept s (condEnd u b c) := h.setFlt ..

end HeatKept

end Sys2Proof.Machine
end

section
/-! PROOF. The steps of a thermal evaluation: readings, model, used temperatures, bands and thresholds (R455). -/

namespace Sys2Proof.Machine

open Sys2Proof

/-! ## Tables in which each key is updated once -/

/-- Each key below `n` holds the update of what it held; the others are as before. -/
theorem tget_foldUpTo_tput {α : Type} [DecidableEq α] (d : Nat → α) (f : α → α) (n : Nat) (m : Tab α) (j : Nat) :
    tget d (foldUpTo n (fun m k => tput d m k (f (tget d m k))) m) j = if j < n then f (tget d m j) else tget d m j := by
  induction n with
  | zero => rfl
  | succ n ih =>
    rw [foldUpTo_succ, tget_tput]
    by_cases hj : j = n
    · subst hj
      simp [ih]
    · rw [if_neg hj, ih]
      have : j < n ↔ j < n + 1 := by omega
      simp only [this]

/-! ## Bands of the zones -/

/-- The band of a zone and the tick from which it may fall stay (R109). -/
structure SameBand (x y : Zone) : Prop where
  band : y.band = x.band
  lowSince : y.lowSince = x.lowSince

theorem SameBand.trans {x y z : Zone} (h : SameBand x y) (h' : SameBand y z) : SameBand x z :=
  ⟨h'.band.trans h.band, h'.lowSince.trans h.lowSince⟩

/-- Every zone keeps its band. -/
def SameBands (m m' : Tab Zone) : Prop := ∀ k, SameBand (tget noZone m k) (tget noZone m' k)

theorem SameBands.refl (m : Tab Zone) : SameBands m m := fun _ => ⟨rfl, rfl⟩

theorem SameBands.trans {m m' m'' : Tab Zone} (h : SameBands m m') (h' : SameBands m' m'') : SameBands m m'' :=
  fun k => (h k).trans (h' k)

theorem SameBands.tput {m m' : Tab Zone} (h : SameBands m m') {k : Nat} {x : Zone} (hx : SameBand (tget noZone m k) x) :
    SameBands m (tput noZone m' k x) := fun j => by
  rw [tget_tput]
  split
  next hj => rwa [hj]
  next => exact h j

/-- A step over the zones that puts in the place of each one a zone of its band. -/
theorem SameBands.foldUpTo {m : Tab Zone} {f : Tab Zone → Nat → Zone}
    (hf : ∀ m' k, SameBands m m' → SameBand (tget noZone m k) (f m' k)) (n : Nat) :
    SameBands m (foldUpTo n (fun m k => Machine.tput noZone m k (f m k)) m) := by
  induction n with
  | zero => exact .refl m
  | succ n ih =>
    rw [foldUpTo_succ]
    exact ih.tput (hf _ n ih)

theorem zone_eq_tget (s : State) (k : Nat) : s.zone (k / 16) (k % 16) = tget noZone s.thermal.zones k := by
  rw [State.zone, Nat.div_add_mod]

/-- A step over the zones that changes other fields of each zone as `s` holds it. -/
theorem SameBands.ofState {s : State} {f : Nat → Zone → Zone} (hf : ∀ k z, SameBand z (f k z)) (n : Nat) :
    SameBands s.thermal.zones
      (Machine.foldUpTo n (fun m k => Machine.tput noZone m k (f k (s.zone (k / 16) (k % 16)))) s.thermal.zones) :=
  .foldUpTo (fun _ k _ => by rw [zone_eq_tget]; exact hf k _) n

/-! ## The step of a band (R109) -/

theorem bandStep_used (now : Nat) (z : Zone) : (bandStep now z).used = z.used := by
  unfold bandStep
  dsimp only
  split
  · rfl
  · split
    · rfl
    · split <;> rfl

/-- The band after an evaluation follows from the band before, the used temperature and the tick of the first low one. -/
theorem bandStep_band_congr {x y : Zone} (h : SameBand x y) (now : Nat) :
    (bandStep now y).band = (bandStep now { x with used := y.used }).band := by
  obtain ⟨hb, hl⟩ := h
  unfold bandStep
  simp only [hb, hl]
  split
  · rfl
  · split
    · rfl
    · split <;> rfl

theorem bandStep_rises (now : Nat) (z : Zone) (h : z.band.toNat < bandFor z.used) :
    bandStep now z = { z with band := BitVec.ofNat 2 (bandFor z.used), lowSince := none } := if_pos h

theorem bandStep_stays (now : Nat) (z : Zone) (h : bandFor z.used ≤ z.band.toNat)
    (hl : bandLow z.band.toNat z.used = false) : bandStep now z = { z with lowSince := none } := by
  unfold bandStep
  dsimp only
  rw [if_neg (Nat.not_lt.2 h), hl]
  rfl

/-- A zone 3 °C below its band waits until 6,250 ticks have passed since the first evaluation that found it so. -/
theorem bandStep_waits (now : Nat) (z : Zone) (h : bandFor z.used ≤ z.band.toNat)
    (hl : bandLow z.band.toNat z.used = true) (hw : now < z.lowSince.getD now + 6250) :
    bandStep now z = { z with lowSince := some (z.lowSince.getD now) } := by
  unfold bandStep
  dsimp only
  rw [if_neg (Nat.not_lt.2 h), hl, if_neg (Nat.not_le.2 hw)]
  rfl

theorem bandStep_falls (now : Nat) (z : Zone) (h : bandFor z.used ≤ z.band.toNat)
    (hl : bandLow z.band.toNat z.used = true) (hw : z.lowSince.getD now + 6250 ≤ now) :
    (bandStep now z).band = BitVec.ofNat 2 (z.band.toNat - 1) := by
  unfold bandStep
  dsimp only
  rw [if_neg (Nat.not_lt.2 h), hl, if_pos hw]
  rfl

theorem bandStep_hysteresis (now : Nat) (z : Zone) :
    (z.band.toNat < bandFor z.used → (bandStep now z).band = BitVec.ofNat 2 (bandFor z.used) ∧
      (bandStep now z).lowSince = none) ∧
    (bandFor z.used ≤ z.band.toNat → bandLow z.band.toNat z.used = false →
      (bandStep now z).band = z.band ∧ (bandStep now z).lowSince = none) ∧
    (bandFor z.used ≤ z.band.toNat → bandLow z.band.toNat z.used = true →
      (z.lowSince = none → (bandStep now z).band = z.band ∧ (bandStep now z).lowSince = some now) ∧
      (∀ a, z.lowSince = some a → now < a + 6250 → (bandStep now z).band = z.band ∧
        (bandStep now z).lowSince = some a) ∧
      (∀ a, z.lowSince = some a → a + 6250 ≤ now → (bandStep now z).band.toNat = z.band.toNat - 1)) := by
  refine ⟨fun h => ?_, fun h hl => ?_, fun h hl => ⟨fun hs => ?_, fun a hs ha => ?_, fun a hs ha => ?_⟩⟩
  · rw [bandStep_rises now z h]
    exact ⟨rfl, rfl⟩
  · rw [bandStep_stays now z h hl]
    exact ⟨rfl, rfl⟩
  · rw [bandStep_waits now z h hl (by rw [hs]; exact Nat.lt_add_of_pos_right (by decide)), hs]
    exact ⟨rfl, rfl⟩
  · rw [bandStep_waits now z h hl (by rw [hs]; exact ha), hs]
    exact ⟨rfl, rfl⟩
  · rw [bandStep_falls now z h hl (by rw [hs]; exact ha), BitVec.toNat_ofNat]
    have := z.band.isLt
    omega

/-! ## Readings, model and used temperatures (steps 1 to 3 of R455) -/

/-- Beside what an evaluation keeps, the bands of the zones stay. -/
structure BandKept (s u : State) : Prop extends EvalKept s u where
  bands : SameBands s.thermal.zones u.thermal.zones

namespace BandKept

variable {s u v : State}

theorem trans (h : BandKept s u) (h' : BandKept u v) : BandKept s v :=
  ⟨h.toEvalKept.trans h'.toEvalKept, h.bands.trans h'.bands⟩

theorem withZones (s : State) {x : Tab Zone} (hx : SameBands s.thermal.zones x) :
    BandKept s { s with thermal := { s.thermal with zones := x } } := ⟨(EvalKept.refl s).withZones x, hx⟩

end BandKept

theorem HeatKept.bandKept {s u : State} (h : HeatKept s u) : BandKept s u :=
  ⟨h.toEvalKept, h.zones ▸ SameBands.refl _⟩

/-- `s` with the inputs' voltages of an evaluation in their register, and the thermal block started. -/
def evalBegun (s : State) (i : ThermIn) : State :=
  wr { s with thermal := { s.thermal with started := true } } (senReg 4) (i.holdMv ++ i.vinMv)

/-- Zone `k` with its new reading (R460). -/
def zoneRead (s : State) (i : ThermIn) (k : Nat) (z : Zone) : Zone :=
  withSens z (sensed s.now.toNat (underTrim (i.leaf.getD k none) (trimInForce s k)) (sensOf z))

/-- New readings change sensors, and the registers of the rails after that of the inputs. -/
theorem takeReadings_kept (s : State) (i : ThermIn) : ∃ x : Thermal, SameBands s.thermal.zones x.zones ∧
    HeatKept (wr { s with thermal := x } (senReg 4) (i.holdMv ++ i.vinMv)) (takeReadings s i) :=
  ⟨_, .foldUpTo (f := fun m k => zoneRead s i k (tget noZone m k)) (fun _ k h => ⟨(h k).band, (h k).lowSince⟩) _,
    (HeatKept.refl _).foldUpTo (fun _ _ h => h.wr _ (by unfold senReg; omega)) 8⟩

theorem bandKept_stepModel (s : State) (cur : List (BitVec 16)) :
    BandKept { s with thermal := { s.thermal with started := true } } (stepModel s cur) := by
  refine ⟨⟨rfl, rfl, rfl, rfl, rfl, rfl⟩, ?_⟩
  unfold stepModel
  dsimp only
  split
  · exact .refl _
  · exact .ofState (f := fun k z => { z with model := modelStep s cur (k / 16) (k % 16) }) (fun _ _ => ⟨rfl, rfl⟩) _

theorem bandKept_modelled (s : State) (i : ThermIn) (cur : List (BitVec 16)) :
    BandKept (evalBegun s i) (stepModel (takeReadings s i) cur) := by
  obtain ⟨x, hx, h⟩ := takeReadings_kept s i
  generalize takeReadings s i = u at h
  refine BandKept.trans (u := { u with thermal := { u.thermal with started := true } })
    ⟨⟨h.part, h.now, h.dram, h.mram, h.inputs.trans ?_, rfl⟩, ?_⟩ (bandKept_stepModel u cur)
  · rw [rd_wr_same, evalBegun, rd_wr_same]
  · exact hx.trans h.bandKept.bands

theorem sameBand_aboveStep (z : Zone) : SameBand z (aboveStep z) := by
  unfold aboveStep
  split
  · exact ⟨rfl, rfl⟩
  · split
    · exact ⟨rfl, rfl⟩
    · split <;> exact ⟨rfl, rfl⟩

theorem heatKept_stepFail (s : State) (l : LeafN) : HeatKept s (stepFail s l) :=
  have h := HeatKept.refl s
  (h.leafFault l (by decide) ..).ite ((h.condEnd ..).ite h)

theorem heatKept_stepSuspect (s : State) (l : LeafN) : HeatKept s (stepSuspect s l) := by
  have hbelow (x : Tab Nat) : HeatKept s { s with thermal := { s.thermal with below := x } } :=
    (HeatKept.refl s).withThermal
  unfold stepSuspect
  exact (((hbelow _).withThermal.count ..).leafFault l (by decide) ..).ite (hbelow _)

theorem bandKept_stepModelLow (s : State) : BandKept s (stepModelLow s) := by
  have habove := BandKept.withZones s (.foldUpTo (fun _ k h => (h k).trans (sameBand_aboveStep _)) (16 * s.part.leaves))
  unfold stepModelLow
  exact habove.trans ((HeatKept.refl _).ite ((HeatKept.refl _).thmFault (by decide) ..)).bandKept

/-- A step over the fitted leaves. -/
theorem HeatKept.leaves {f : State → LeafN → State} (hf : ∀ s l, HeatKept s (f s l)) (s : State) :
    HeatKept s ((allFins 34).foldl (fun s l => if l.val < s.part.leaves then f s l else s) s) :=
  (HeatKept.refl s).foldl (fun u l h => (h.trans (hf u l)).ite h) _

theorem bandKept_formUsed (s : State) : BandKept s (formUsed s) := by
  have hused (u : State) : BandKept u { u with thermal := { u.thermal with
      zones := foldUpTo (16 * u.part.leaves) (fun m k =>
        tput noZone m k { u.zone (k / 16) (k % 16) with used := usedTemp u (k / 16) (k % 16) }) u.thermal.zones } } :=
    .withZones u (.ofState (f := fun k z => { z with used := usedTemp u (k / 16) (k % 16) }) (fun _ _ => ⟨rfl, rfl⟩) _)
  have hfail := (HeatKept.leaves heatKept_stepFail s).bandKept
  unfold formUsed
  dsimp only
  refine BandKept.trans ?_ (hused _)
  split
  · exact hfail
  · exact hfail.trans ((HeatKept.leaves heatKept_stepSuspect _).bandKept.trans (bandKept_stepModelLow _))

/-! ## Bands and emergencies (step 4 of R455) -/

theorem heatKept_sendBand (s : State) (l z b : Nat) : HeatKept s (sendBand s l z b) :=
  (HeatKept.refl s).foldUpTo (fun _ _ h => (HeatKept.update h ..).ite h) 4

theorem heatKept_bandChanged (s : State) (l z old new : Nat) : HeatKept s (bandChanged s l z old new) := by
  have hsent (u : State) := heatKept_sendBand u l z new
  unfold bandChanged
  have h {k : Nat} := (((HeatKept.refl s).raise 0x28A (l + z * 2 ^ 6 + old * 2 ^ 10 + new * 2 ^ 12)).count k 1).ibi 0xA4 2
  exact ((h.trans (hsent _)).foldUpTo (fun _ _ hu => hu.checkExcess _) 4).ite (h.foldUpTo (fun _ _ hu => hu.endExcess _) 4)

/-- The zones with the step of zone `k` taken (R109). -/
theorem heatKept_stepZone (s : State) (k : Nat) : HeatKept { s with thermal := { s.thermal with
    zones := tput noZone s.thermal.zones k (bandStep s.now.toNat (tget noZone s.thermal.zones k)) } } (stepZone s k) := by
  unfold stepZone
  rw [zone_eq_tget]
  exact (HeatKept.refl _).ite (heatKept_bandChanged ..)

theorem foldUpTo_stepZone (s : State) (n : Nat) : EvalKept s (foldUpTo n stepZone s) ∧
    (foldUpTo n stepZone s).thermal.zones =
      foldUpTo n (fun m k => tput noZone m k (bandStep s.now.toNat (tget noZone m k))) s.thermal.zones := by
  induction n with
  | zero => exact ⟨.refl s, rfl⟩
  | succ n ih =>
    obtain ⟨hkept, hzones⟩ := ih
    rw [foldUpTo_succ, foldUpTo_succ]
    have hstep := heatKept_stepZone (foldUpTo n stepZone s) n
    exact ⟨(hkept.withZones _).trans hstep.toEvalKept, by rw [hstep.zones, hkept.now, hzones]⟩

/-- One evaluation takes the step of each fitted zone. -/
theorem zone_foldUpTo_stepZone (s : State) {n l z : Nat} (h : 16 * l + z < n) :
    (foldUpTo n stepZone s).zone l z = bandStep s.now.toNat (s.zone l z) := by
  rw [State.zone, (foldUpTo_stepZone s n).2, tget_foldUpTo_tput, if_pos h, State.zone]

theorem zoneEmergency_congr {s u : State} (hp : u.part = s.part) (hz : u.thermal.zones = s.thermal.zones) (t : Nat) :
    zoneEmergency u t = zoneEmergency s t := by
  unfold zoneEmergency State.zone
  rw [hp, hz]

/-- Tumbler `t` takes the emergency of the zones over it, and nothing else that the evaluation keeps changes (R123). -/
theorem heatKept_stepEmergency (s : State) (t : Tum) :
    HeatKept (setMode s t (fun m => { m with emergency := zoneEmergency s t })) (stepEmergency s t) := by
  have h := HeatKept.refl (setMode s t (fun m => { m with emergency := zoneEmergency s t }))
  have hsame (he : zoneEmergency s t = (s.tum t).mode.emergency) :
      HeatKept (setMode s t (fun m => { m with emergency := zoneEmergency s t })) s := by
    refine ⟨⟨⟨rfl, rfl, rfl, rfl, rfl, rfl⟩, rfl⟩, fun k => ?_⟩
    by_cases hk : k = t
    · rw [hk, mode_setMode, he]
    · rw [tum_setMode_other _ _ hk]
  unfold stepEmergency
  cases he : zoneEmergency s t <;> cases hm : (s.tum t).mode.emergency <;> rw [he] at h hsame
  · exact hsame hm.symm
  · exact (HeatKept.ite h (h.wakeFor t)).condEnd ..
  · exact h.ite (h.tumFault t (by decide) ..)
  · exact hsame hm.symm

theorem emergency_stepEmergency (s : State) (t : Tum) (k : Nat) : ((stepEmergency s t).tum k).mode.emergency =
    if k = t then zoneEmergency s t else (s.tum k).mode.emergency := by
  rw [(heatKept_stepEmergency s t).emergency]
  split
  next h => rw [h, mode_setMode]
  next h => rw [tum_setMode_other _ _ h]

theorem zoneKept_stepEmergency (s : State) (t : Tum) : ZoneKept s (stepEmergency s t) :=
  have hset (f : TMode → TMode) : ZoneKept s (setMode s t f) := ⟨⟨rfl, rfl, rfl, rfl, rfl, rfl⟩, rfl⟩
  (hset _).trans (heatKept_stepEmergency s t).toZoneKept

theorem ZoneKept.zoneEmergency_eq {s u : State} (h : ZoneKept s u) (t : Nat) :
    zoneEmergency u t = zoneEmergency s t := zoneEmergency_congr h.part h.zones t

/-- Each tumbler of a list has the emergency of its zones once the list is done; the others keep theirs. -/
theorem foldl_stepEmergency (l : List Tum) (s : State) : ZoneKept s (l.foldl stepEmergency s) ∧
    ∀ t : Tum, ((l.foldl stepEmergency s).tum t).mode.emergency =
      if t ∈ l then zoneEmergency s t else (s.tum t).mode.emergency := by
  induction l generalizing s with
  | nil => exact ⟨⟨.refl s, rfl⟩, fun _ => rfl⟩
  | cons a r ih =>
    have hstep := zoneKept_stepEmergency s a
    obtain ⟨hkept, hemer⟩ := ih (stepEmergency s a)
    refine ⟨hstep.trans hkept, fun t => ?_⟩
    rw [List.foldl_cons, hemer t, hstep.zoneEmergency_eq, emergency_stepEmergency]
    by_cases ht : t = a
    · simp [ht]
    · simp [ht, Fin.val_inj]

/-- Step 4 of R455 is the step of every fitted zone, and then the emergency of every tumbler. -/
theorem stepBands_spec (s : State) : EvalKept s (stepBands s) ∧
    (∀ l z, l < s.part.leaves → z < 16 → (stepBands s).zone l z = bandStep s.now.toNat (s.zone l z)) ∧
    ∀ t, t < 64 → ((stepBands s).tum t).mode.emergency = zoneEmergency (stepBands s) t := by
  have hbands := (foldUpTo_stepZone s (16 * s.part.leaves)).1
  have hzone (l z : Nat) (hl : l < s.part.leaves) (hz : z < 16) :=
    zone_foldUpTo_stepZone s (show 16 * l + z < 16 * s.part.leaves by omega)
  have hall (t : Tum) : t ∈ allFins 64 := List.mem_finRange t
  unfold stepBands
  generalize foldUpTo (16 * s.part.leaves) stepZone s = u at hbands hzone
  generalize allFins 64 = ts at hall
  obtain ⟨hkept, hemer⟩ := foldl_stepEmergency ts u
  refine ⟨hbands.trans hkept.toEvalKept, fun l z hl hz => ?_, fun t ht => ?_⟩
  · rw [State.zone, hkept.zones, ← State.zone, hzone l z hl hz]
  · rw [hkept.zoneEmergency_eq, hemer ⟨t, ht⟩, if_pos (hall _)]

/-! ## Thresholds (step 5 of R455) -/

theorem heatKept_hotStep (s : State) {c : Nat} (hc : c < 24) (l : List Rat) (hi lo : Rat) (since : Option Nat) :
    HeatKept s (hotStep s c l hi lo since).1 :=
  have h := HeatKept.refl s
  (h.thmFault hc ..).ite ((h.condEnd ..).ite h)

theorem heatKept_tripStep (s : State) {c : Nat} (hc : c < 24) (l : List Rat) (hi : Rat) :
    HeatKept s (tripStep s c l hi) := ((HeatKept.refl s).thmFault hc ..).ite (.refl s)

theorem heatKept_stepThresholds (s : State) : HeatKept s (stepThresholds s) := by
  unfold stepThresholds
  dsimp only
  refine HeatKept.trans ?_ ((heatKept_tripStep _ (c := 2) (by decide) ..).trans (heatKept_tripStep _ (c := 4) (by decide) ..))
  exact ((heatKept_hotStep s (c := 1) (by decide) ..).trans (heatKept_hotStep _ (c := 3) (by decide) ..)).withThermal

/-! ## The evaluation -/

theorem thermalEvaluation_evaluates (s : State) (i : ThermIn) (hs : haspLive s = true) :
    Completes (.thermalEvaluation i) s (fun u =>
      (∀ l z, l < s.part.leaves → z < 16 → (u.zone l z).band =
        (bandStep s.now.toNat { s.zone l z with used := (u.zone l z).used }).band) ∧
      (∀ t, t < 64 → (u.tum t).mode.emergency = zoneEmergency u t) ∧
      rd u (senReg 4) = i.holdMv ++ i.vinMv ∧ u.thermal.started = true ∧ SameMemory s u) := by
  have hgo : exec (.thermalEvaluation i) s = .next (evaluate s i) := by
    change execThermalEvaluation i s = _
    rw [execThermalEvaluation, hs, when_true]
  have hformed : BandKept (evalBegun s i) (formUsed (stepModel (takeReadings s i) (i.ivr.map (·.1)))) :=
    (bandKept_modelled s i _).trans (bandKept_formUsed _)
  have heval : evaluate s i = stepThresholds (stepBands (formUsed (stepModel (takeReadings s i) (i.ivr.map (·.1))))) := rfl
  rw [heval] at hgo
  generalize formUsed (stepModel (takeReadings s i) (i.ivr.map (·.1))) = c at hgo hformed
  obtain ⟨hbands, hzone, hemer⟩ := stepBands_spec c
  have hlast := heatKept_stepThresholds (stepBands c)
  have hall := (hformed.toEvalKept.trans hbands).trans hlast.toEvalKept
  refine ⟨_, hgo, fun l z hl hz => ?_, fun t ht => ?_, hall.inputs.trans (rd_wr_same ..), hall.started, hall.sameMemory⟩
  · have hstep : (stepThresholds (stepBands c)).zone l z = bandStep s.now.toNat (c.zone l z) := by
      rw [State.zone, hlast.zones, ← State.zone, hzone l z (by rw [hformed.part]; exact hl) hz, hformed.now]
      rfl
    rw [hstep, bandStep_used]
    exact bandStep_band_congr (hformed.bands _) _
  · rw [hlast.emergency, hemer t ht, hlast.toZoneKept.zoneEmergency_eq]

end Sys2Proof.Machine
end

section
/-! PROOF. Refresh by the leaves themselves, at the rate of each slice's sensor (R121), and with the evaluation O52. -/

namespace Sys2Proof.Machine

open Sys2Proof

/-! ## What the refreshes of a slice keep -/

/-- What an operation on tumbler `t` keeps beside: its refresh sets, and the leaves' own states. -/
structure SetsKept (t : Nat) (s u : State) : Prop extends InTum t s u where
  sets : (u.tum t).sets = (s.tum t).sets
  leaves : u.leaves = s.leaves

namespace SetsKept

variable {t : Nat} {s u : State}

theorem refl (t : Nat) (s : State) : SetsKept t s s := ⟨.refl t s, rfl, rfl⟩

theorem foldUpTo {f : State → Nat → State} (hf : ∀ u b, SetsKept t s u → SetsKept t s (f u b)) (n : Nat)
    (h : SetsKept t s u) : SetsKept t s (foldUpTo n f u) := by
  induction n with
  | zero => exact h
  | succ n ih =>
    rw [foldUpTo_succ]
    exact hf _ n ih

theorem hammerRef (h : SetsKept t s u) (l : Loc) : SetsKept t s (hammerRef u t l) := by
  refine ⟨h.toInTum.hammerRef l, ?_, ?_⟩ <;> unfold Machine.hammerRef <;> dsimp only <;> split
  · exact h.sets
  · exact (congrArg Tumbler.sets (tum_modTum_same ..)).trans h.sets
  · exact h.leaves
  · exact h.leaves

theorem refreshRows (h : SetsKept t s u) (l k p n : Nat) : SetsKept t s (refreshRows u t l k p n) :=
  foldUpTo (fun _ _ hu => foldUpTo (fun _ _ hv => (hv.hammerRef _).hammerRef _) 8 hu) n h

theorem setOf_eq (h : SetsKept t s u) (l k : Nat) : setOf u t l k = setOf s t l k := by rw [setOf, h.sets, ← setOf]

end SetsKept

theorem setOf_putSet (s : State) (t l k j : Nat) (x : RefSet) :
    setOf (putSet s t l k x) t l j = if j = k then x else setOf s t l j := by
  rw [setOf, putSet, tum_modTum_same, tget_tput, setOf]
  have : 4 * l + j = 4 * l + k ↔ j = k := by omega
  simp only [this]

/-! ## A slice in self-refresh -/

/-- Band that tumbler `t`'s slice of leaf `l` chooses at `temp`: that of its own sensor and guard, not below the band last
sent, and at least 2 where its leaf was suspect at the entry (R121). -/
def sliceBand (s : State) (l t : Nat) (temp : Rat) : Nat :=
  let x := tget noLeaf s.leaves l
  let own := max (tget zero x.sent t).toNat (bandFor (temp + ((tget zero x.guard t : Nat) : Rat)))
  if (s.tum t).sreSuspect.contains l then max 2 own else own

/-- Set `k` of a slice is refreshed `n` times. -/
def setRefreshed (l t n : Nat) (s : State) (k : Nat) : State :=
  let y := setOf s t l k
  putSet (refreshRows s t l k (y.ptr + y.away) n) t l k { y with away := y.away + n }

theorem inTum_setRefreshed (l t n : Nat) (s : State) (k : Nat) : InTum t s (setRefreshed l t n s k) :=
  ((InTum.refl t s).refreshRows ..).putSet ..

theorem leaves_setRefreshed (l t n : Nat) (s : State) (k : Nat) : (setRefreshed l t n s k).leaves = s.leaves :=
  ((SetsKept.refl t s).refreshRows l k ((setOf s t l k).ptr + (setOf s t l k).away) n).leaves

theorem setOf_setRefreshed (l t n : Nat) (s : State) (k j : Nat) : setOf (setRefreshed l t n s k) t l j =
    if j = k then { setOf s t l k with away := (setOf s t l k).away + n } else setOf s t l j := by
  have hrows := (SetsKept.refl t s).refreshRows l k ((setOf s t l k).ptr + (setOf s t l k).away) n
  rw [setRefreshed, setOf_putSet, hrows.setOf_eq]

/-- The sets of a slice are refreshed one after the other, each once. -/
theorem away_foldUpTo_setRefreshed (l t n m : Nat) (s : State) (k : Nat) :
    (setOf (foldUpTo m (setRefreshed l t n) s) t l k).away =
      if k < m then (setOf s t l k).away + n else (setOf s t l k).away := by
  induction m with
  | zero => rfl
  | succ m ih =>
    rw [foldUpTo_succ, setOf_setRefreshed]
    by_cases hk : k = m
    · subst hk
      simp [ih]
    · have : k < m ↔ k < m + 1 := by omega
      rw [if_neg hk, ih]
      simp only [this]

/-- `s` as the slice has chosen its band `b`. -/
def bandChosen (s : State) (l t b : Nat) : State :=
  let x := tget noLeaf s.leaves l
  let s := if (tget zero x.selfBand t).toNat < b then count s (cLeaf l 4) 1 else s
  { s with leaves := tput noLeaf s.leaves l { x with selfBand := tput zero x.selfBand t (BitVec.ofNat 2 b) } }

/-- Factor of the base refresh rate at a band (R108), four in the emergency band (log 121). -/
def bandRate (b : Nat) : Nat := [1, 2, 4, 4].getD b 4

theorem sliceSelf_eq (s : State) (l t : Nat) (temp : Rat) : sliceSelf s l t temp =
    foldUpTo 4 (setRefreshed l t (bandRate (sliceBand s l t temp))) (bandChosen s l t (sliceBand s l t temp)) := rfl

theorem bandChosen_eq (s : State) (l t b : Nat) : ∃ c y, bandChosen s l t b =
    { s with counts := c, leaves := tput noLeaf s.leaves l { tget noLeaf s.leaves l with selfBand := y } } := by
  unfold bandChosen
  dsimp only
  split
  · obtain ⟨c, hc⟩ := count_eq s (cLeaf l 4) 1
    rw [hc]
    exact ⟨_, _, rfl⟩
  · exact ⟨s.counts, _, rfl⟩

theorem inTum_sliceSelf (s : State) (l t : Nat) (temp : Rat) : InTum t s (sliceSelf s l t temp) := by
  rw [sliceSelf_eq]
  obtain ⟨c, y, h⟩ := bandChosen_eq s l t (sliceBand s l t temp)
  rw [h]
  exact InTum.foldl (fun _ _ hu => (hu.refreshRows ..).putSet ..) _ ((InTum.refl t s).of_eq rfl rfl rfl rfl rfl)

/-- Each set of the slice is refreshed at the rate of the band chosen. -/
theorem away_sliceSelf (s : State) (l t : Nat) (temp : Rat) {k : Nat} (hk : k < 4) :
    (setOf (sliceSelf s l t temp) t l k).away = (setOf s t l k).away + bandRate (sliceBand s l t temp) := by
  rw [sliceSelf_eq, away_foldUpTo_setRefreshed, if_pos hk]
  obtain ⟨c, y, h⟩ := bandChosen_eq s l t (sliceBand s l t temp)
  rw [h]
  rfl

/-- What was sent to a leaf at the entry, its bands and guards, stays. -/
structure SentKept (l : Nat) (s u : State) : Prop where
  sent : (tget noLeaf u.leaves l).sent = (tget noLeaf s.leaves l).sent
  guard : (tget noLeaf u.leaves l).guard = (tget noLeaf s.leaves l).guard

theorem leaves_foldUpTo_setRefreshed (l t n m : Nat) (s : State) :
    (foldUpTo m (setRefreshed l t n) s).leaves = s.leaves := by
  induction m with
  | zero => rfl
  | succ m ih => rw [foldUpTo_succ, leaves_setRefreshed, ih]

theorem sentKept_sliceSelf (s : State) (l t : Nat) (temp : Rat) : SentKept l s (sliceSelf s l t temp) := by
  obtain ⟨c, y, h⟩ := bandChosen_eq s l t (sliceBand s l t temp)
  have hl : (sliceSelf s l t temp).leaves =
      tput noLeaf s.leaves l { tget noLeaf s.leaves l with selfBand := y } := by
    rw [sliceSelf_eq, leaves_foldUpTo_setRefreshed, h]
  constructor <;> rw [hl, tget_tput_same]

theorem sliceBand_congr {s u : State} {l t : Nat} (h : SentKept l s u) (ht : u.tum t = s.tum t) (temp : Rat) :
    sliceBand u l t temp = sliceBand s l t temp := by
  simp only [sliceBand, h.sent, h.guard, ht]

/-! ## The slices of a zone -/

/-- Slice `i` of the tumblers under zone `z` refreshes where it is in self-refresh. -/
def sliceStep (l z : Nat) (temp : Rat) (s : State) (i : Nat) : State :=
  if (s.tum (4 * z + i)).mode.self && (s.tum (4 * z + i)).sre.contains l then sliceSelf s l (4 * z + i) temp else s

theorem inTum_sliceStep (l z : Nat) (temp : Rat) (s : State) (i : Nat) :
    InTum (4 * z + i) s (sliceStep l z temp s i) := (inTum_sliceSelf ..).ite (.refl ..)

theorem sentKept_sliceStep (l z : Nat) (temp : Rat) (s : State) (i : Nat) : SentKept l s (sliceStep l z temp s i) := by
  unfold sliceStep
  split
  · exact sentKept_sliceSelf ..
  · exact ⟨rfl, rfl⟩

section

variable (l z : Nat) (temp : Rat) (s : State)

theorem sentKept_slices (n : Nat) : SentKept l s (foldUpTo n (sliceStep l z temp) s) := by
  induction n with
  | zero => exact ⟨rfl, rfl⟩
  | succ n ih =>
    rw [foldUpTo_succ]
    have h := sentKept_sliceStep l z temp (foldUpTo n (sliceStep l z temp) s) n
    exact ⟨h.sent.trans ih.sent, h.guard.trans ih.guard⟩

/-- The slices change their own tumblers, and no register and no memory. -/
theorem slices_frame (n : Nat) : (foldUpTo n (sliceStep l z temp) s).part = s.part ∧
    (foldUpTo n (sliceStep l z temp) s).csr = s.csr ∧ SameMemory s (foldUpTo n (sliceStep l z temp) s) := by
  induction n with
  | zero => exact ⟨rfl, rfl, sameMemory_of_eq rfl rfl⟩
  | succ n ih =>
    obtain ⟨hp, hc, hm⟩ := ih
    rw [foldUpTo_succ]
    have h := inTum_sliceStep l z temp (foldUpTo n (sliceStep l z temp) s) n
    exact ⟨h.part.trans hp, h.csr.trans hc, sameMemory_trans hm h.sameMemory⟩

theorem tum_slices_other {t : Nat} (n : Nat) (ht : ∀ i, i < n → t ≠ 4 * z + i) :
    (foldUpTo n (sliceStep l z temp) s).tum t = s.tum t := by
  induction n with
  | zero => rfl
  | succ n ih =>
    rw [foldUpTo_succ, (inTum_sliceStep l z temp _ n).tums t (ht n (Nat.lt_succ_self n)),
      ih fun i hi => ht i (Nat.lt_succ_of_lt hi)]

/-- A tumbler below the `n`-th of the zone has taken its step. -/
theorem tum_slices_at {n i : Nat} (hi : i < n) : ∃ u, SentKept l s u ∧ u.tum (4 * z + i) = s.tum (4 * z + i) ∧
    (foldUpTo n (sliceStep l z temp) s).tum (4 * z + i) = (sliceStep l z temp u i).tum (4 * z + i) := by
  induction n with
  | zero => exact absurd hi (Nat.not_lt_zero i)
  | succ n ih =>
    rw [foldUpTo_succ]
    by_cases hn : i = n
    · subst hn
      exact ⟨_, sentKept_slices l z temp s i, tum_slices_other l z temp s i fun j hj => by omega, rfl⟩
    · obtain ⟨u, hsent, htum, hstep⟩ := ih (by omega)
      exact ⟨u, hsent, htum, ((inTum_sliceStep l z temp _ n).tums _ (by omega)).trans hstep⟩

theorem away_slices {n i : Nat} (hi : i < n) (hself : (s.tum (4 * z + i)).mode.self = true)
    (hsre : (s.tum (4 * z + i)).sre.contains l = true) {k : Nat} (hk : k < 4) :
    (setOf (foldUpTo n (sliceStep l z temp) s) (4 * z + i) l k).away =
      (setOf s (4 * z + i) l k).away + bandRate (sliceBand s l (4 * z + i) temp) := by
  obtain ⟨u, hsent, htum, hstep⟩ := tum_slices_at l z temp s hi
  have hgo : sliceStep l z temp u i = sliceSelf u l (4 * z + i) temp := if_pos (by rw [htum, hself, hsre]; rfl)
  rw [setOf, hstep, hgo, ← setOf, away_sliceSelf u l _ temp hk, sliceBand_congr hsent htum, setOf, htum, ← setOf]

theorem tum_slices_awake {n i : Nat} (hi : i < n) (hself : (s.tum (4 * z + i)).mode.self = false) :
    (foldUpTo n (sliceStep l z temp) s).tum (4 * z + i) = s.tum (4 * z + i) := by
  obtain ⟨u, -, htum, hstep⟩ := tum_slices_at l z temp s hi
  have hgo : sliceStep l z temp u i = u := if_neg (by rw [htum, hself]; exact Bool.false_ne_true)
  rw [hstep, hgo, htum]

end

theorem leafSelfRefresh_refreshes (s : State) (l : LeafN) (z : Fin 16) (temp : Int) (hl : l.val < s.part.leaves) :
    Completes (.leafSelfRefresh l z temp) s (fun u =>
      (∀ t, t < 64 → t / 4 = z.val → (s.tum t).mode.self = true → (s.tum t).sre.contains l.val = true →
        let x := tget noLeaf s.leaves l
        let own := max (tget zero x.sent t).toNat (bandFor ((temp : Rat) / 4 + ((tget zero x.guard t : Nat) : Rat)))
        let b := if (s.tum t).sreSuspect.contains l.val then max 2 own else own
        ∀ k, k < 4 → (setOf u t l k).away = (setOf s t l k).away + [1, 2, 4, 4].getD b 4) ∧
      (∀ t, t < 64 → (t / 4 ≠ z.val ∨ (s.tum t).mode.self = false) → u.tum t = s.tum t) ∧
      RegsBut [] s u ∧ SameMemory s u) := by
  have hgo : exec (.leafSelfRefresh l z temp) s = .next (foldUpTo 4 (sliceStep l z ((temp : Rat) / 4)) s) :=
    if_neg (Nat.not_le.2 hl)
  have hplace {t : Nat} (ht : t / 4 = z.val) : ∃ i, i < 4 ∧ t = 4 * z + i := ⟨t % 4, by omega, by omega⟩
  obtain ⟨hpart, hcsr, hmem⟩ := slices_frame l z ((temp : Rat) / 4) s 4
  refine ⟨_, hgo, fun t _ hz hself hsre => ?_, fun t _ ht => ?_, regsBut_of_csr_eq [] hcsr hpart, hmem⟩
  · obtain ⟨i, hi, rfl⟩ := hplace hz
    exact fun k hk => away_slices l z _ s hi hself hsre hk
  · by_cases hz : t / 4 = z.val
    · obtain ⟨i, hi, rfl⟩ := hplace hz
      exact tum_slices_awake l z _ s hi (ht.resolve_left fun h => h hz)
    · exact tum_slices_other l z _ s 4 fun i hi => by omega

/-- Settles O52: the hysteresis of a zone, the evaluation that takes its step for every fitted zone, and the slices in
self-refresh. That a slice refreshes at four times the base rate in the emergency band is the model's choice (log 121). -/
theorem thermalEvaluation : Obligations.ThermalEvaluation :=
  ⟨bandStep_hysteresis, thermalEvaluation_evaluates, leafSelfRefresh_refreshes⟩

end Sys2Proof.Machine
end

section
/-! PROOF. Every step keeps the canonical form of the register file and of the two memories (O4), from the laws of what each
command keeps. -/

namespace Sys2Proof.Machine

open Sys2Proof

variable {q : List Instr} {p : Part}

theorem kept_exec (i : Instr) {s : State} (hs : Kept q p s) : KeptOut q p (exec i s) := by
  cases i with
  | read r => exact kept_execRead r hs
  | write r => exact kept_execWrite r hs
  | atomicAdd r => exact kept_execAtomicAdd r hs
  | atomicSwap r => exact kept_execAtomicSwap r hs
  | atomicCompareAndSwap r => exact kept_execAtomicCompareAndSwap r hs
  | atomicAndOr r => exact kept_execAtomicAndOr r hs
  | waitRelease t => exact kept_execWaitRelease t hs
  | commandSlot t => exact kept_execCommandSlot t hs
  | throttleEnd t => exact kept_execThrottleEnd t hs
  | refreshDue t l k => exact kept_execRefreshDue t l k hs
  | refreshWake t => exact kept_execRefreshWake t hs
  | trasmaxExpiry t l g b => exact kept_execTrasmaxExpiry t l g b hs
  | idleClose t l g b => exact kept_execIdleClose t l g b hs
  | codeWordDecode t flips => exact kept_execCodeWordDecode t flips hs
  | cwcWindowExpiry t => exact kept_execCwcWindowExpiry t hs
  | lightEntry t => exact kept_execLightEntry t hs
  | wakeComplete t => exact kept_execWakeComplete t hs
  | quietEntry t => exact kept_execQuietEntry t hs
  | selfRefreshEntry t => exact kept_execSelfRefreshEntry t hs
  | selfRefreshExit t => exact kept_execSelfRefreshExit t hs
  | pwrCfgWrite t v => exact kept_execPwrCfgWrite t v hs
  | refCfgWrite t v => exact kept_execRefCfgWrite t v hs
  | rateReqWrite t v => exact kept_execRateReqWrite t v hs
  | rateQuiesced t => exact kept_execRateQuiesced t hs
  | rateRelockDone t => exact kept_execRateRelockDone t hs
  | trnStart t v => exact kept_execTrnStart t v hs
  | trnAbort t v => exact kept_execTrnAbort t v hs
  | trnStepBoundary t pass => exact kept_execTrnStepBoundary t pass hs
  | regionClear c => exact kept_execRegionClear c hs
  | regionClearDone r => exact kept_execRegionClearDone r hs
  | sweepStart t r => exact kept_execSweepStart t r hs
  | sweepLine t r flips => exact kept_execSweepLine t r flips hs
  | sweepFinish r => exact kept_execSweepFinish r hs
  | initialSweepLine t => exact kept_execInitialSweepLine t hs
  | initialSweepFinish t => exact kept_execInitialSweepFinish t hs
  | groupReinitDone g => exact kept_execGroupReinitDone g hs
  | patrolScrubRow t flips => exact kept_execPatrolScrubRow t flips hs
  | remapRow c => exact kept_execRemapRow c hs
  | remapCopyDone x flips mramOk => exact kept_execRemapCopyDone x flips mramOk hs
  | leafSwap c => exact kept_execLeafSwap c hs
  | swapCopyLine t flips => exact kept_execSwapCopyLine t flips hs
  | swapSwitchPoint t => exact kept_execSwapSwitchPoint t hs
  | swapRetire t => exact kept_execSwapRetire t hs
  | leafSwapAbort c => exact kept_execLeafSwapAbort c hs
  | swapAbandonDone t => exact kept_execSwapAbandonDone t hs
  | scanStart c => exact kept_execScanStart c hs
  | scanLineRead k e flips => exact kept_execScanLineRead k e flips hs
  | scanOutputWrite k bitmap => exact kept_execScanOutputWrite k bitmap hs
  | scanEnd k => exact kept_execScanEnd k hs
  | scanCompletionEvent k => exact kept_execScanCompletionEvent k hs
  | scanAbort c => exact kept_execScanAbort c hs
  | wardWindowStart => exact kept_execWardWindowStart hs
  | windowEvaluation => exact kept_execWindowEvaluation hs
  | linkEnWrite p v => exact kept_execLinkEnWrite p v hs
  | retrain p v => exact kept_execRetrain p v hs
  | detectPoll p clk lanes => exact kept_execDetectPoll p clk lanes hs
  | clockLock p => exact kept_execClockLock p hs
  | clocklockTimeout p => exact kept_execClocklockTimeout p hs
  | keySetReceived p lane bits => exact kept_execKeySetReceived p lane bits hs
  | keySetExchangeComplete p => exact kept_execKeySetExchangeComplete p hs
  | trainRateRelock p => exact kept_execTrainRateRelock p hs
  | trainSweepStep p meas => exact kept_execTrainSweepStep p meas hs
  | ks1Timeout p => exact kept_execKs1Timeout p hs
  | ks2Timeout p => exact kept_execKs2Timeout p hs
  | phyRateReqWrite p v => exact kept_execPhyRateReqWrite p v hs
  | laneLoss p lane => exact kept_execLaneLoss p lane hs
  | clockLaneLoss p => exact kept_execClockLaneLoss p hs
  | retrainLaneTestEnd p rx tx => exact kept_execRetrainLaneTestEnd p rx tx hs
  | retrainTimeout p => exact kept_execRetrainTimeout p hs
  | upwidth p v => exact kept_execUpwidth p v hs
  | adaptationStep p meas => exact kept_execAdaptationStep p meas hs
  | adaptNow p v => exact kept_execAdaptNow p v hs
  | eqCodeMove p lane => exact kept_execEqCodeMove p lane hs
  | eqOvrWrite p lane v => exact kept_execEqOvrWrite p lane v hs
  | eyeScanStart p v => exact kept_execEyeScanStart p v hs
  | eyeScanAbort p v => exact kept_execEyeScanAbort p v hs
  | eyeScanDone p counts lowDens => exact kept_execEyeScanDone p counts lowDens hs
  | lowpowerEntry p => exact kept_execLowpowerEntry p hs
  | wakeRequest p => exact kept_execWakeRequest p hs
  | lowpowerExitDone p failed => exact kept_execLowpowerExitDone p failed hs
  | testModeWrite p v => exact kept_execTestModeWrite p v hs
  | pgClear p v => exact kept_execPgClear p v hs
  | injectionGo p v => exact kept_execInjectionGo p v hs
  | injectionMade p => exact kept_execInjectionMade p hs
  | dataFlitReceived p raw => exact kept_execDataFlitReceived p raw hs
  | ks1InActive p lanes => exact kept_execKs1InActive p lanes hs
  | nakTimeout p => exact kept_execNakTimeout p hs
  | ackTimeout p => exact kept_execAckTimeout p hs
  | fc p ctype c => exact kept_execFc p ctype c hs
  | nak p c => exact kept_execNak p c hs
  | lpReq p c => exact kept_execLpReq p c hs
  | lpAck p c => exact kept_execLpAck p c hs
  | lpDeny p c => exact kept_execLpDeny p c hs
  | lpIdleTimeout p => exact kept_execLpIdleTimeout p hs
  | lpReqNoAnswer p => exact kept_execLpReqNoAnswer p hs
  | credit p c0 c1 c2 => exact kept_execCredit p c0 c1 c2 hs
  | creditPacketInsert p => exact kept_execCreditPacketInsert p hs
  | urgencyUpdate p => exact kept_execUrgencyUpdate p hs
  | cmd p c => exact kept_execCmd p c hs
  | commandTake src => exact kept_execCommandTake src hs
  | nop c => exact kept_execNop c hs
  | csrRead c => exact kept_execCsrRead c hs
  | csrWrite c => exact kept_execCsrWrite c hs
  | memRead c => exact kept_execMemRead c hs
  | memWrite c data => exact kept_execMemWrite c data hs
  | initDefine c => exact kept_execInitDefine c hs
  | flowOpen c => exact kept_execFlowOpen c hs
  | flowClose c => exact kept_execFlowClose c hs
  | flowCloseDone f => exact kept_execFlowCloseDone f hs
  | keyDefine c => exact kept_execKeyDefine c hs
  | keyRevoke c => exact kept_execKeyRevoke c hs
  | keyChangeDone k => exact kept_execKeyChangeDone k hs
  | adminSet c => exact kept_execAdminSet c hs
  | classSet c => exact kept_execClassSet c hs
  | guaranteeSet c => exact kept_execGuaranteeSet c hs
  | planSet c => exact kept_execPlanSet c hs
  | pairForm c => exact kept_execPairForm c hs
  | pairFormTimeout => exact kept_execPairFormTimeout hs
  | pairLeave c => exact kept_execPairLeave c hs
  | pairResync c => exact kept_execPairResync c hs
  | pairHomeSet c => exact kept_execPairHomeSet c hs
  | hello p k => exact kept_execHello p k hs
  | helloHeartbeat => exact kept_execHelloHeartbeat hs
  | fwd p k => exact kept_execFwd p k hs
  | replica p k => exact kept_execReplica p k hs
  | pairAck p k => exact kept_execPairAck p k hs
  | clear p k => exact kept_execClear p k hs
  | clearAck p k => exact kept_execClearAck p k hs
  | home p k => exact kept_execHome p k hs
  | homeAck p k => exact kept_execHomeAck p k hs
  | portmap p k => exact kept_execPortmap p k hs
  | portmapAck p k => exact kept_execPortmapAck p k hs
  | fence p k => exact kept_execFence p k hs
  | unfence p k => exact kept_execUnfence p k hs
  | map p k => exact kept_execMap p k hs
  | resyncDone p k => exact kept_execResyncDone p k hs
  | resyncLine p k => exact kept_execResyncLine p k hs
  | resultReadData p k => exact kept_execResultReadData p k hs
  | resultReject p k => exact kept_execResultReject p k hs
  | resyncCopyLine t flips => exact kept_execResyncCopyLine t flips hs
  | mirrorPortLoss p => exact kept_execMirrorPortLoss p hs
  | partnerLossTimeout => exact kept_execPartnerLossTimeout hs
  | divergedCommit mramOk => exact kept_execDivergedCommit mramOk hs
  | unitDisable c => exact kept_execUnitDisable c hs
  | unitEnable c => exact kept_execUnitEnable c hs
  | shutdownComplete u => exact kept_execShutdownComplete u hs
  | unitStartDone u => exact kept_execUnitStartDone u hs
  | powerState c => exact kept_execPowerState c hs
  | holdStopPoint => exact kept_execHoldStopPoint hs
  | calRun c res => exact kept_execCalRun c res hs
  | calStore c mramOk => exact kept_execCalStore c mramOk hs
  | calRestore c => exact kept_execCalRestore c hs
  | cntConfig c => exact kept_execCntConfig c hs
  | logRead c => exact kept_execLogRead c hs
  | eventSubscribe c => exact kept_execEventSubscribe c hs
  | fwLoad c mramOk => exact kept_execFwLoad c mramOk hs
  | fwCommit c mramOk => exact kept_execFwCommit c mramOk hs
  | fwActivate c => exact kept_execFwActivate c hs
  | fwCoreRestart n pass => exact kept_execFwCoreRestart n pass hs
  | coreRestart n v => exact kept_execCoreRestart n v hs
  | ringEnWrite n v => exact kept_execRingEnWrite n v hs
  | ringCommandFetch n bytes => exact kept_execRingCommandFetch n bytes hs
  | replyWrite n => exact kept_execReplyWrite n hs
  | dmaError n => exact kept_execDmaError n hs
  | usb4LinkLoss => exact kept_execUsb4LinkLoss hs
  | bar0Access off size data => exact kept_execBar0Access off size data hs
  | sourceAccept src => exact kept_execSourceAccept src hs
  | eventClaim c src => exact kept_execEventClaim c src hs
  | wfi c => exact kept_execWfi c hs
  | evcSrcCfgWrite src v => exact kept_execEvcSrcCfgWrite src v hs
  | evcEoi v => exact kept_execEvcEoi v hs
  | evcSwRaise v => exact kept_execEvcSwRaise v hs
  | cntClr src v => exact kept_execCntClr src v hs
  | faultDetected b cls detail merged => exact kept_execFaultDetected b cls detail merged hs
  | fltStatAck b v => exact kept_execFltStatAck b v hs
  | shadowEnd b => exact kept_execShadowEnd b hs
  | logFlush mramOk => exact kept_execLogFlush mramOk hs
  | latchTick => exact kept_execLatchTick hs
  | dumpComplete => exact kept_execDumpComplete hs
  | brownOut slope => exact kept_execBrownOut slope hs
  | drainComplete t => exact kept_execDrainComplete t hs
  | mramCommitDone => exact kept_execMramCommitDone hs
  | vinRecovery => exact kept_execVinRecovery hs
  | holdExitVin => exact kept_execHoldExitVin hs
  | holdVinLow => exact kept_execHoldVinLow hs
  | vinHigh => exact kept_execVinHigh hs
  | railSequenceStep => exact kept_execRailSequenceStep hs
  | ivrRampStep r => exact kept_execIvrRampStep r hs
  | senIvrTargetWrite r v => exact kept_execSenIvrTargetWrite r v hs
  | quietBitWrite w v => exact kept_execQuietBitWrite w v hs
  | thermalEvaluation x => exact kept_execThermalEvaluation x hs
  | speedMonitorRead m freq => exact kept_execSpeedMonitorRead m freq hs
  | busDelayStep t => exact kept_execBusDelayStep t hs
  | refclkLoss => exact kept_execRefclkLoss hs
  | refclkReturn => exact kept_execRefclkReturn hs
  | timeLoRead path => exact kept_execTimeLoRead path hs
  | gblLockSet v => exact kept_execGblLockSet v hs
  | registerWrite path off v => exact kept_execRegisterWrite path off v hs
  | readClear path off => exact kept_execReadClear path off hs
  | porstN => exact kept_execPorstN hs
  | wrstN => exact kept_execWrstN hs
  | wrstNRise => exact kept_execWrstNRise hs
  | portLogicReset p => exact kept_execPortLogicReset p hs
  | bootStage => exact kept_execBootStage hs
  | tumblerGroupStart g => exact kept_execTumblerGroupStart g hs
  | i3cPrivateWrite bytes => exact kept_execI3cPrivateWrite bytes hs
  | i3cPrivateRead n => exact kept_execI3cPrivateRead n hs
  | enec events => exact kept_execEnec events hs
  | disec events => exact kept_execDisec events hs
  | rstdaa => exact kept_execRstdaa hs
  | entdaa addr => exact kept_execEntdaa addr hs
  | setdasa static addr => exact kept_execSetdasa static addr hs
  | setnewda addr => exact kept_execSetnewda addr hs
  | setmwl n => exact kept_execSetmwl n hs
  | setmrl n => exact kept_execSetmrl n hs
  | getpid => exact kept_execGetpid hs
  | getbcr => exact kept_execGetbcr hs
  | getdcr => exact kept_execGetdcr hs
  | getstatus => exact kept_execGetstatus hs
  | getmwl => exact kept_execGetmwl hs
  | getmrl => exact kept_execGetmrl hs
  | unsupportedCcc direct => exact kept_execUnsupportedCcc direct hs
  | bypass => exact kept_execBypass hs
  | idcode => exact kept_execIdcode hs
  | samplePreload shift => exact kept_execSamplePreload shift hs
  | extest shift => exact kept_execExtest shift hs
  | flitSlot p => exact kept_execFlitSlot p hs
  | frontStageStart => exact kept_execFrontStageStart hs
  | frontStageStop => exact kept_execFrontStageStop hs
  | holdOkChange ok => exact kept_execHoldOkChange ok hs
  | leafSelfRefresh l z temp => exact kept_execLeafSelfRefresh l z temp hs
  | usb4Reset => exact kept_execUsb4Reset hs

theorem kept_of_canonical {s : State} (h : Canonical s) : Kept s.pending s.part s := by
  obtain ⟨hdram, hmram, hcsr⟩ := h
  exact ⟨rfl, rfl, hdram, hmram, hcsr⟩

theorem canonical_of_kept {s : State} (h : Kept q p s) : Canonical s := by
  obtain ⟨-, rfl, hdram, hmram, hcsr⟩ := h
  exact ⟨hdram, hmram, hcsr⟩

/-- Settles O4: a step is the tick of an empty queue or the command at its front, and both keep the canonical form. -/
theorem stepKeepsCanonicalForm : Obligations.StepKeepsCanonicalForm := by
  intro s t hs ht
  have hk := kept_of_canonical hs
  cases hq : s.pending with
  | nil =>
    rw [step, hq] at ht
    obtain rfl : idle s = t := Host.Outcome.next.inj ht
    exact canonical_of_kept (kept_when _ hk (kept_tick hk))
  | cons c rest =>
    rw [step, hq] at ht
    have hrest : Kept rest s.part { s with pending := rest } := ⟨rfl, hk.2⟩
    exact canonical_of_kept ((kept_exec c hrest).kept t ht)

end Sys2Proof.Machine
end

section
/-! PROOF. The code of R138 to R141: its remainder is linear, the errors of one or two bits have syndromes of their own, and so
the decoder undoes them (O7). -/

namespace Sys2Proof.Machine

open Sys2Proof

/-! ## The remainder of R139 is linear -/

theorem double_mod_xor (a b w : Nat) : (2 * (a ^^^ b)) % 2 ^ w = (2 * a) % 2 ^ w ^^^ (2 * b) % 2 ^ w := by
  rw [← Nat.xor_mod_two_pow]
  congr 1
  simpa [Nat.shiftLeft_eq, Nat.mul_comm] using Nat.shiftLeft_xor_distrib (a := a) (b := b) (i := 1)

theorem bit_xor (a b i : Nat) : bit (a ^^^ b) i = (bit a i != bit b i) := Nat.testBit_xor ..

/-- What the feedback bit `b` adds to the remainder. -/
def feedback (poly : Nat) (b : Bool) : Nat := if b then poly else 0

theorem ite_feedback (poly r : Nat) (b : Bool) : (if b then r ^^^ poly else r) = r ^^^ feedback poly b := by
  cases b <;> simp [feedback]

theorem feedback_bne (poly : Nat) (b c : Bool) : feedback poly (b != c) = feedback poly b ^^^ feedback poly c := by
  cases b <;> cases c <;> simp [feedback]

theorem crcGo_xor (w poly m m' n r r' : Nat) :
    crcGo w poly (m ^^^ m') n (r ^^^ r') = crcGo w poly m n r ^^^ crcGo w poly m' n r' := by
  induction n generalizing r r' with
  | zero => rfl
  | succ n ih =>
    simp only [crcGo, double_mod_xor, bit_xor, ite_feedback, feedback_bne]
    rw [← ih]
    congr 1
    ac_rfl

theorem bchRem_xor (a b : Nat) : bchRem (a ^^^ b) = bchRem a ^^^ bchRem b := crcGo_xor 14 0x0377 a b 66 0 0

theorem crcGo_lt {w poly : Nat} (hp : poly < 2 ^ w) (m n : Nat) {r : Nat} (hr : r < 2 ^ w) :
    crcGo w poly m n r < 2 ^ w := by
  induction n generalizing r with
  | zero => exact hr
  | succ n ih =>
    have h2 : 2 * r % 2 ^ w < 2 ^ w := Nat.mod_lt _ (Nat.two_pow_pos w)
    refine ih ?_
    split
    · exact Nat.xor_lt_two_pow h2 hp
    · exact h2

theorem bchRem_lt (b : Nat) : bchRem b < 2 ^ 14 := crcGo_lt (by decide) b 66 (by decide)

/-! ## Syndromes (R139) -/

theorem bits_xor (x y hi lo : Nat) : bits (x ^^^ y) hi lo = bits x hi lo ^^^ bits y hi lo := by
  apply Nat.eq_of_testBit_eq
  intro i
  change bit _ i = _
  rw [Nat.testBit_xor]
  change _ = (bit (bits x hi lo) i ^^ bit (bits y hi lo) i)
  simp only [bit_bits, bit_xor]
  cases decide (i < hi - lo + 1) <;> simp

theorem syndrome_xor (v w : CodeWord) : syndrome (v ^^^ w) = syndrome v ^^^ syndrome w := by
  simp only [syndrome, BitVec.toNat_xor, bits_xor, bchRem_xor]
  ac_rfl

/-- One bit in error gives the syndrome of its position. -/
theorem syndrome_oneBit : ∀ i < 80, syndrome (BitVec.ofNat 80 (2 ^ i)) = synAt i := by decide +kernel

theorem toNat_mkWord {d e c : Nat} (hd : d < 2 ^ 64) (he : e < 4) (hc : c < 2 ^ 14) :
    (mkWord d e c).toNat = d + e * 2 ^ 64 + c * 2 ^ 66 := by
  rw [mkWord, BitVec.toNat_ofNat]
  omega

theorem parts_mkWord {d e c : Nat} (hd : d < 2 ^ 64) (he : e < 4) (hc : c < 2 ^ 14) :
    dataOf (mkWord d e c) = d ∧ epochOf (mkWord d e c) = e ∧
      syndrome (mkWord d e c) = bchRem (d + e * 2 ^ 64) ^^^ c := by
  unfold dataOf epochOf syndrome
  rw [toNat_mkWord hd he hc]
  have h1 : bits (d + e * 2 ^ 64 + c * 2 ^ 66) 65 0 = d + e * 2 ^ 64 := by unfold bits; omega
  have h2 : bits (d + e * 2 ^ 64 + c * 2 ^ 66) 79 66 = c := by unfold bits; omega
  rw [h1, h2]
  unfold bits
  exact ⟨by omega, by omega, rfl⟩

theorem encodeWord_eq {d e : Nat} (hd : d < 2 ^ 64) (he : e < 4) :
    encodeWord d e = mkWord d e (bchRem (d + e * 2 ^ 64)) := by
  rw [encodeWord, Nat.mod_eq_of_lt hd, Nat.mod_eq_of_lt he]

theorem poisonWord_eq {e : Nat} (he : e < 4) : poisonWord e = mkWord 0 e (bchRem (e * 2 ^ 64) ^^^ poisonSyn) := by
  rw [poisonWord, Nat.mod_eq_of_lt he]

theorem parts_encodeWord {d e : Nat} (hd : d < 2 ^ 64) (he : e < 4) :
    dataOf (encodeWord d e) = d ∧ epochOf (encodeWord d e) = e ∧ syndrome (encodeWord d e) = 0 := by
  rw [encodeWord_eq hd he]
  obtain ⟨h1, h2, h3⟩ := parts_mkWord hd he (bchRem_lt (d + e * 2 ^ 64))
  exact ⟨h1, h2, h3.trans (Nat.xor_self _)⟩

theorem parts_poisonWord {e : Nat} (he : e < 4) :
    epochOf (poisonWord e) = e ∧ syndrome (poisonWord e) = poisonSyn := by
  rw [poisonWord_eq he]
  obtain ⟨-, h2, h3⟩ := parts_mkWord (d := 0) (by decide) he (Nat.xor_lt_two_pow (bchRem_lt (e * 2 ^ 64)) (y := poisonSyn) (by decide))
  refine ⟨h2, h3.trans ?_⟩
  rw [Nat.zero_add, ← Nat.xor_assoc, Nat.xor_self, Nat.zero_xor]

/-! ## The table of error patterns (R140)

The syndromes of no error, of poison, and of every error of one or two bits are all different; this is what makes the decoder
right, and it is one closed fact about the 80 columns of the code. -/

/-- Syndrome of each position. -/
def synTable : List (Nat × Nat) := (List.range 80).map (fun i => (i, synAt i))

/-- Pairs of positions, in the order in which `twoBit` tries them, with their syndromes. -/
def errorPairs : List (Nat × Nat) → List ((Nat × Nat) × Nat)
  | [] => []
  | e :: r => r.map (fun f => ((e.1, f.1), e.2 ^^^ f.2)) ++ errorPairs r

/-- Every syndrome that the decoder knows. -/
def knownSyndromes : List Nat :=
  [0, poisonSyn] ++ (synTable.map (·.2) ++ (errorPairs synTable).map (·.2))

/-- No number of the list comes twice, and none is a bit of `seen`. -/
def distinctFrom (seen : Nat) : List Nat → Bool
  | [] => true
  | x :: r => !Nat.testBit seen x && distinctFrom (seen ||| 2 ^ x) r

theorem nodup_of_distinctFrom {seen : Nat} {l : List Nat} (h : distinctFrom seen l = true) :
    l.Nodup ∧ ∀ x ∈ l, Nat.testBit seen x = false := by
  induction l generalizing seen with
  | nil => exact ⟨List.nodup_nil, by simp⟩
  | cons x r ih =>
    simp only [distinctFrom, Bool.and_eq_true, Bool.not_eq_true'] at h
    obtain ⟨hnd, hout⟩ := ih h.2
    have hother : ∀ y ∈ r, Nat.testBit seen y = false ∧ x ≠ y := fun y hy => by
      simpa [Nat.testBit_or, Nat.testBit_two_pow] using hout y hy
    refine ⟨List.nodup_cons.2 ⟨fun hx => (hother x hx).2 rfl, hnd⟩, ?_⟩
    rintro y (_ | ⟨_, hy⟩)
    · exact h.1
    · exact (hother y hy).1

theorem knownSyndromes_nodup : knownSyndromes.Nodup :=
  (nodup_of_distinctFrom (seen := 0) (by decide +kernel)).1

theorem twoBit_eq (l : List (Nat × Nat)) (s : Nat) :
    twoBit l s = ((errorPairs l).find? (fun e => e.2 == s)).map (·.1) := by
  induction l with
  | nil => rfl
  | cons e r ih =>
    obtain ⟨i, a⟩ := e
    rw [twoBit, errorPairs, List.find?_append, List.find?_map]
    cases hf : r.find? (fun f => a ^^^ f.2 == s) with
    | none => simp [hf, ih]
    | some f => simp [hf]

/-- In a list without repeated images an element is found by its image. -/
theorem find?_of_nodup_map {α : Type} {f : α → Nat} {l : List α} (h : (l.map f).Nodup) {x : α} (hx : x ∈ l) :
    l.find? (fun e => f e == f x) = some x := by
  induction l with
  | nil => cases hx
  | cons y r ih =>
    obtain ⟨hy, hr⟩ := List.nodup_cons.1 h
    rcases List.mem_cons.1 hx with rfl | hx
    · simp
    · rw [List.find?_cons_of_neg, ih hr hx]
      intro he
      exact hy (eq_of_beq he ▸ List.mem_map_of_mem hx)

theorem mem_synTable {i : Nat} (hi : i < 80) : (i, synAt i) ∈ synTable :=
  List.mem_map.2 ⟨i, List.mem_range.2 hi, rfl⟩

theorem mem_errorPairs {l : List (Nat × Nat)} (hl : l.Pairwise (fun a b => a.1 < b.1)) {e f : Nat × Nat} (he : e ∈ l)
    (hf : f ∈ l) (hlt : e.1 < f.1) : ((e.1, f.1), e.2 ^^^ f.2) ∈ errorPairs l := by
  induction l with
  | nil => cases he
  | cons x r ih =>
    obtain ⟨hx, hr⟩ := List.pairwise_cons.1 hl
    rw [errorPairs, List.mem_append]
    rcases List.mem_cons.1 he with rfl | he'
    · rcases List.mem_cons.1 hf with rfl | hf'
      · omega
      · exact .inl (List.mem_map_of_mem hf')
    · rcases List.mem_cons.1 hf with rfl | hf'
      · have := hx e he'
        omega
      · exact .inr (ih hr he' hf')

theorem mem_errorPairs_synTable {i j : Nat} (hij : i < j) (hj : j < 80) :
    ((i, j), synAt i ^^^ synAt j) ∈ errorPairs synTable := by
  have hl : synTable.Pairwise (fun a b => a.1 < b.1) :=
    List.pairwise_map.2 (List.pairwise_lt_range.imp (fun h => h))
  exact mem_errorPairs hl (mem_synTable (hij.trans hj)) (mem_synTable hj) hij

/-! ## The decoder (R140, R141) -/

theorem decodeWord_of_syndrome_zero {w : CodeWord} (h : syndrome w = 0) :
    decodeWord w = { cls := .clean, data := dataOf w, epoch := epochOf w, word := w } := by
  unfold decodeWord
  exact if_pos h

theorem decodeWord_of_syndrome_poison {w : CodeWord} (h : syndrome w = poisonSyn) :
    decodeWord w = { cls := .poisoned, data := 0, epoch := epochOf w, word := w } := by
  unfold decodeWord
  dsimp only
  rw [if_neg (by rw [h]; decide), if_pos h]

/-- The syndromes of errors are neither 0 nor that of poison, and those of one bit are not those of two. -/
theorem errorSyndromes_apart :
    (∀ s ∈ synTable.map (·.2) ++ (errorPairs synTable).map (·.2), s ≠ 0 ∧ s ≠ poisonSyn) ∧
    (synTable.map (·.2)).Nodup ∧ ((errorPairs synTable).map (·.2)).Nodup ∧
    (synTable.map (·.2)).Disjoint ((errorPairs synTable).map (·.2)) := by
  obtain ⟨-, hl, hd⟩ := List.nodup_append'.1 knownSyndromes_nodup
  obtain ⟨h1, h2, h12⟩ := List.nodup_append'.1 hl
  exact ⟨fun s hs => ⟨fun h => hd (h ▸ by simp) hs, fun h => hd (h ▸ by simp) hs⟩, h1, h2, h12⟩

theorem decodeWord_of_single {w : CodeWord} {i : Nat} (hi : i < 80) (h : syndrome w = synAt i) :
    let c := w ^^^ BitVec.ofNat 80 (2 ^ i)
    decodeWord w = { cls := .single, data := dataOf c, epoch := epochOf c, word := c } := by
  obtain ⟨hne, hnd, -, -⟩ := errorSyndromes_apart
  have hm := mem_synTable hi
  obtain ⟨h0, hp⟩ := hne (synAt i) (List.mem_append_left _ (List.mem_map_of_mem (f := (·.2)) hm))
  have hf : synTable.find? (fun e => e.2 == syndrome w) = some (i, synAt i) := by
    simpa only [h] using find?_of_nodup_map hnd hm
  rw [synTable] at hf
  unfold decodeWord
  dsimp only
  rw [if_neg (h ▸ h0), if_neg (h ▸ hp), hf]

theorem decodeWord_of_double {w : CodeWord} {i j : Nat} (hij : i < j) (hj : j < 80)
    (h : syndrome w = synAt i ^^^ synAt j) :
    let c := w ^^^ BitVec.ofNat 80 (2 ^ i) ^^^ BitVec.ofNat 80 (2 ^ j)
    decodeWord w = { cls := .double, data := dataOf c, epoch := epochOf c, word := c } := by
  obtain ⟨hne, -, hnd, hd⟩ := errorSyndromes_apart
  have hm := mem_errorPairs_synTable hij hj
  have hs := List.mem_map_of_mem (f := (·.2)) hm
  obtain ⟨h0, hp⟩ := hne _ (List.mem_append_right _ hs)
  have hnone : synTable.find? (fun e => e.2 == syndrome w) = none := by
    rw [List.find?_eq_none]
    intro e he heq
    exact hd (List.mem_map_of_mem (f := (·.2)) he) (by rw [eq_of_beq heq, h]; exact hs)
  have htwo : twoBit synTable (syndrome w) = some (i, j) := by
    rw [twoBit_eq, h, find?_of_nodup_map hnd hm]
    rfl
  rw [synTable] at hnone htwo
  unfold decodeWord
  dsimp only
  rw [if_neg (h ▸ h0), if_neg (h ▸ hp), hnone, htwo]

theorem xor_oneBit_cancel (w v : CodeWord) : w ^^^ v ^^^ v = w := by
  rw [BitVec.xor_assoc, BitVec.xor_self, BitVec.xor_zero]

/-- Settles O7: the syndrome of a stored word is that of its errors, and the syndromes of the errors of one or two bits all
differ. -/
theorem oneAndTwoBitErrorsAreCorrected : Obligations.OneAndTwoBitErrorsAreCorrected := by
  intro d e hd he
  obtain ⟨hdata, hepoch, hsyn⟩ := parts_encodeWord hd he
  obtain ⟨hpepoch, hpsyn⟩ := parts_poisonWord he
  refine ⟨?_, fun i hi => ?_, fun i j hij hj => ?_, ?_⟩
  · rw [decodeWord_of_syndrome_zero hsyn, hdata, hepoch]
  · have hs : syndrome (encodeWord d e ^^^ BitVec.ofNat 80 (2 ^ i)) = synAt i := by
      rw [syndrome_xor, hsyn, syndrome_oneBit i hi, Nat.zero_xor]
    rw [decodeWord_of_single hi hs, xor_oneBit_cancel, hdata, hepoch]
  · have hs : syndrome (encodeWord d e ^^^ BitVec.ofNat 80 (2 ^ i) ^^^ BitVec.ofNat 80 (2 ^ j)) =
        synAt i ^^^ synAt j := by
      rw [syndrome_xor, syndrome_xor, hsyn, syndrome_oneBit i (hij.trans hj), syndrome_oneBit j hj, Nat.zero_xor]
    rw [decodeWord_of_double hij hj hs, BitVec.xor_assoc _ (BitVec.ofNat 80 (2 ^ j)), BitVec.xor_comm (BitVec.ofNat 80 (2 ^ j)),
      ← BitVec.xor_assoc, xor_oneBit_cancel, xor_oneBit_cancel, hdata, hepoch]
  · rw [decodeWord_of_syndrome_poison hpsyn, hpepoch]

end Sys2Proof.Machine
end

section
/-! PROOF. Stored code words: a word written to the leaf arrays reads back, and which bytes a write leaves as they are (R138). -/

namespace Sys2Proof.Machine

open Sys2Proof

/-! ## Byte memories -/

@[simp] theorem length_leBytes (n v : Nat) : (leBytes n v).length = n := by
  induction n generalizing v with
  | zero => rfl
  | succ n ih => rw [leBytes, List.length_cons, ih]

theorem leNat_leBytes (n v : Nat) : leNat (leBytes n v) = v % 256 ^ n := by
  induction n generalizing v with
  | zero => rw [Nat.pow_zero, Nat.mod_one]; rfl
  | succ n ih =>
    rw [leBytes, leNat, ih, BitVec.toNat_ofNat, Nat.pow_succ' (m := 256), Nat.mod_mul]

/-- A byte of a memory after bytes were written from `a` on. -/
theorem tget_cellPut (m : List Host.Cell) (a : Nat) (l : List Byte) (b : Nat) :
    tget zero (cellPut m a l) b = if a ≤ b ∧ b < a + l.length then l.getD (b - a) 0 else tget zero m b := by
  induction l generalizing m a with
  | nil => rw [cellPut, if_neg (by simp only [List.length_nil]; omega)]
  | cons x r ih =>
    rw [cellPut, ih, tget_tput]
    by_cases hb : b = a
    · subst hb
      rw [if_neg (by omega), if_pos rfl, if_pos (by simp), Nat.sub_self]
      rfl
    · rw [if_neg hb]
      by_cases hin : a + 1 ≤ b ∧ b < a + 1 + r.length
      · rw [if_pos hin, if_pos (by simp only [List.length_cons]; omega), show b - a = b - (a + 1) + 1 by omega]
        rfl
      · rw [if_neg hin, if_neg (by simp only [List.length_cons]; omega)]

theorem cellGet_congr {m m' : List Host.Cell} (n : Nat) {a : Nat}
    (h : ∀ b, a ≤ b → b < a + n → (tget zero m b : Byte) = tget zero m' b) : cellGet m a n = cellGet m' a n := by
  induction n generalizing a with
  | zero => rfl
  | succ n ih =>
    rw [cellGet, cellGet, h a (Nat.le_refl a) (by omega), ih (fun b h1 h2 => h b (by omega) (by omega))]

/-- Bytes read back as they were written. -/
theorem cellGet_cellPut (m : List Host.Cell) (a : Nat) (l : List Byte) : cellGet (cellPut m a l) a l.length = l := by
  induction l generalizing m a with
  | nil => rfl
  | cons x r ih =>
    rw [List.length_cons, cellGet, tget_cellPut, if_pos (by simp), Nat.sub_self, cellPut, ih]
    rfl

/-! ## Words by their number (log 4) -/

/-- The stored code word of number `k` in the module. -/
def wordAt (s : State) (k : Nat) : CodeWord := BitVec.ofNat 80 (leNat (cellGet s.dram (10 * k) 10))

theorem getWord_eq (s : State) (t : Nat) (l : Loc) (col w : Nat) : getWord s t l col w = wordAt s (wordKey t l col w) := rfl

/-- From `s` to `u` the bytes of every code word whose number `p` does not name stay. -/
structure WordsBut (p : Nat → Prop) (s u : State) : Prop where
  bytes : ∀ a, ¬ p (a / 10) → dramByte u a = dramByte s a

theorem wordsBut_refl (p : Nat → Prop) (s : State) : WordsBut p s s := ⟨fun _ _ => rfl⟩

theorem wordsBut_of_dram_eq (p : Nat → Prop) {s u : State} (h : u.dram = s.dram) : WordsBut p s u where
  bytes a _ := by rw [dramByte, h, dramByte]

theorem WordsBut.trans {p : Nat → Prop} {s u v : State} (h : WordsBut p s u) (h' : WordsBut p u v) : WordsBut p s v :=
  ⟨fun a ha => (h'.bytes a ha).trans (h.bytes a ha)⟩

theorem WordsBut.mono {p q : Nat → Prop} {s u : State} (h : WordsBut p s u) (hpq : ∀ k, p k → q k) : WordsBut q s u :=
  ⟨fun a ha => h.bytes a (fun hp => ha (hpq _ hp))⟩

theorem WordsBut.wordAt_eq {p : Nat → Prop} {s u : State} (h : WordsBut p s u) {k : Nat} (hk : ¬ p k) :
    wordAt u k = wordAt s k := by
  unfold wordAt
  rw [cellGet_congr 10 (fun b h1 h2 => h.bytes b (by rwa [show b / 10 = k by omega]))]

theorem wordAt_of_dram_eq {s u : State} (h : u.dram = s.dram) (k : Nat) : wordAt u k = wordAt s k := by
  rw [wordAt, h, wordAt]

theorem wordsBut_putWordRaw (s : State) (t : Nat) (l : Loc) (col w : Nat) (v : CodeWord) :
    WordsBut (· = wordKey t l col w) s (putWordRaw s t l col w v) := by
  refine ⟨fun a ha => ?_⟩
  unfold dramByte putWordRaw
  dsimp only
  rw [tget_cellPut, if_neg (by rw [length_leBytes]; omega)]

theorem wordAt_putWordRaw_same (s : State) (t : Nat) (l : Loc) (col w : Nat) (v : CodeWord) :
    wordAt (putWordRaw s t l col w v) (wordKey t l col w) = v := by
  have h := cellGet_cellPut s.dram (10 * wordKey t l col w) (leBytes 10 v.toNat)
  rw [length_leBytes] at h
  rw [wordAt, putWordRaw, h, leNat_leBytes, Nat.mod_eq_of_lt (show v.toNat < 256 ^ 10 from v.isLt)]
  exact BitVec.ofNat_toNat 80 v

theorem wordAt_putWordRaw (s : State) (t : Nat) (l : Loc) (col w : Nat) (v : CodeWord) (k : Nat) :
    wordAt (putWordRaw s t l col w v) k = if k = wordKey t l col w then v else wordAt s k := by
  split
  · next h => rw [h, wordAt_putWordRaw_same]
  · next h => exact (wordsBut_putWordRaw s t l col w v).wordAt_eq h

theorem wordAt_putWord (s : State) (t : Nat) (l : Loc) (col w : Nat) (v : CodeWord) (k : Nat) :
    wordAt (putWord s t l col w v) k = if k = wordKey t l col w then v else wordAt s k :=
  wordAt_putWordRaw s t l col w v k

/-! ## Numbers of words -/

/-- Words of one place have different numbers in different columns and positions. -/
theorem wordKey_inj_place (t : Nat) (l : Loc) {c c' w w' : Nat} (hw : w < 8) (hw' : w' < 8)
    (h : wordKey t l c w = wordKey t l c' w') : c = c' ∧ w = w' := by
  unfold wordKey at h
  omega

/-- Words at different positions of their lines have different numbers. -/
theorem wordKey_ne_of_word (t u : Nat) (l m : Loc) (c c' : Nat) {w w' : Nat} (hw : w < 8) (hw' : w' < 8) (h : w ≠ w') :
    wordKey t l c w ≠ wordKey u m c' w' := by
  unfold wordKey
  omega

/-- A place of the fitted leaves, its column and its word have a number of their own (log 4). -/
theorem wordKey_inj {t u col col' w w' : Nat} {l l' : Loc} (hl : l.leaf < 34) (hg : l.group < 8) (hb : l.bank < 4)
    (hr : l.row < 16400) (hc : col < 16) (hw : w < 8) (hl' : l'.leaf < 34) (hg' : l'.group < 8) (hb' : l'.bank < 4)
    (hr' : l'.row < 16400) (hc' : col' < 16) (hw' : w' < 8) (h : wordKey t l col w = wordKey u l' col' w') :
    t = u ∧ l = l' ∧ col = col' ∧ w = w' := by
  obtain ⟨leaf, group, bank, row⟩ := l
  obtain ⟨leaf', group', bank', row'⟩ := l'
  unfold wordKey at h
  dsimp only at *
  obtain ⟨h1, rfl⟩ : ((((t * 34 + leaf) * 8 + group) * 4 + bank) * 16400 + row) * 16 + col =
    ((((u * 34 + leaf') * 8 + group') * 4 + bank') * 16400 + row') * 16 + col' ∧ w = w' := by omega
  obtain ⟨h2, rfl⟩ : (((t * 34 + leaf) * 8 + group) * 4 + bank) * 16400 + row =
    (((u * 34 + leaf') * 8 + group') * 4 + bank') * 16400 + row' ∧ col = col' := by omega
  obtain ⟨h3, rfl⟩ : ((t * 34 + leaf) * 8 + group) * 4 + bank = ((u * 34 + leaf') * 8 + group') * 4 + bank' ∧
    row = row' := by omega
  obtain ⟨rfl, rfl, rfl, rfl⟩ : t = u ∧ leaf = leaf' ∧ group = group' ∧ bank = bank' := by omega
  exact ⟨rfl, rfl, rfl, rfl⟩

end Sys2Proof.Machine
end

section
/-! PROOF. What a line operation of a tumbler keeps: the commands PRE, ACT, RD and WR that it issues, the words that it decodes and
stores, and the faults that it records (R73 to R83, R140 to R143, R154 to R156). -/

namespace Sys2Proof.Machine

open Sys2Proof

/-! ## Recorded faults (R403 to R407) -/

/-- `u` is `s` but for what a recorded fault or a counted event changes. -/
def Recorded (s u : State) : Prop := ∃ csr flts counts tail shadows alert i3c, u = { s with
  csr := csr, flts := flts, counts := counts, logTail := tail, shadows := shadows,
  power := { s.power with alert := alert }, i3c := i3c }

namespace Recorded

variable {s u v : State}

theorem refl (s : State) : Recorded s s := ⟨_, _, _, _, _, _, _, rfl⟩

theorem trans (h : Recorded s u) (h' : Recorded u v) : Recorded s v := by
  obtain ⟨c, f, n, l, x, a, i, rfl⟩ := h
  obtain ⟨c', f', n', l', x', a', i', rfl⟩ := h'
  exact ⟨c', f', n', l', x', a', i', rfl⟩

theorem ite {c : Prop} [Decidable c] (hu : Recorded s u) (hv : Recorded s v) : Recorded s (if c then u else v) := by
  split
  · exact hu
  · exact hv

theorem ifThen {c : Prop} [Decidable c] (hu : Recorded s u) (hv : Recorded s u → Recorded s v) :
    Recorded s (if c then v else u) := (hv hu).ite hu

theorem wr (h : Recorded s u) (off : Nat) (x : Reg32) : Recorded s (wr u off x) := h.trans ⟨_, _, _, _, _, _, _, rfl⟩

theorem setF (h : Recorded s u) (off hi lo x : Nat) : Recorded s (setF u off hi lo x) := h.wr ..

theorem setFlt (h : Recorded s u) (b : FltSet) (x : FltS) : Recorded s (u.setFlt b x) :=
  h.trans ⟨_, _, _, _, _, _, _, rfl⟩

theorem withShadows (h : Recorded s u) (x : List Shadow) : Recorded s { u with shadows := x } :=
  h.trans ⟨_, _, _, _, _, _, _, rfl⟩

theorem pushEntry (h : Recorded s u) (b : FltSet) (c sev : Nat) (conseq esc : Bool) (detail : BitVec 96) (n : Nat) :
    Recorded s (pushEntry u b c sev conseq esc detail n) := h.trans ⟨_, _, _, _, _, _, _, rfl⟩

theorem count (h : Recorded s u) (slot n : Nat) : Recorded s (count u slot n) := by
  obtain ⟨c, hc⟩ := count_eq u slot n
  exact h.trans (hc ▸ ⟨_, _, _, _, _, _, _, rfl⟩)

theorem setAlert (h : Recorded s u) (a : Bool) : Recorded s (setAlert u a) := by
  have ha : Recorded s { u with power := { u.power with alert := a } } := h.trans ⟨_, _, _, _, _, _, _, rfl⟩
  refine Recorded.ite (Recorded.ite ?_ ha) ha
  exact ha.trans ⟨_, _, _, _, _, _, _, rfl⟩

theorem record (h : Recorded s u) (b : FltSet) (c : Nat) (detail : BitVec 96) (n : Nat) :
    Recorded s (record u b c detail n).1 := by
  have hcond : Recorded s (if (faultClass b c).1 = true then
      u.setFlt b { u.flt b with cond := (u.flt b).cond ||| BitVec.ofNat 24 (2 ^ c) } else u) := (h.setFlt ..).ite h
  unfold Machine.record
  dsimp only
  split
  · exact hcond.count ..
  · refine Recorded.ifThen (Recorded.ifThen ?_ (·.setAlert ..)) (·.setF ..)
    exact (((hcond.pushEntry ..).setF ..).setF ..).withShadows _
  · refine Recorded.ifThen (Recorded.ifThen ?_ (·.setF ..)) (·.setAlert ..)
    exact ((hcond.pushEntry ..).setF ..).setF ..

end Recorded

/-! ## The frame -/

/-- Registers that a line operation of tumbler `t` changes: the hammer alert's, those of hard and uncorrectable words, and what a
fault of the tumbler changes. -/
def lineRegs (t : Nat) : List Nat :=
  [tumReg t 0x2C, tumReg t 0x30, tumReg t 0x4C, tumReg t 0x58, tumReg t 0x5C, tumReg t 8, tumReg t 0x108,
    tumReg t 0xFE00, tumReg t 0xFE08, pairReg 0x18]

/-- What a line operation of tumbler `t` that writes no words but those numbered by `p` keeps. Its sweeps go on as they are where
they are held to their pace. -/
structure LineKept (p : Nat → Prop) (t : Nat) (s u : State) : Prop where
  part : u.part = s.part
  mram : u.mram = s.mram
  fenced : u.mramFenced = s.mramFenced
  words : WordsBut p s u
  regs : RegsBut (lineRegs t) s u
  tums : TumsBut t s u
  swap : (u.tum t).swap = (s.tum t).swap
  slots : (u.tum t).q.slots = (s.tum t).q.slots
  pace : paceHeld s t = false → paceHeld u t = false ∧ u.sweeps = s.sweeps

namespace LineKept

variable {p q : Nat → Prop} {t : Nat} {s u v : State}

theorem refl (p : Nat → Prop) (t : Nat) (s : State) : LineKept p t s s :=
  ⟨rfl, rfl, rfl, wordsBut_refl p s, fun _ _ => rfl, fun _ _ => rfl, rfl, rfl, fun h => ⟨h, rfl⟩⟩

theorem trans (h : LineKept p t s u) (h' : LineKept p t u v) : LineKept p t s v where
  part := h'.part.trans h.part
  mram := h'.mram.trans h.mram
  fenced := h'.fenced.trans h.fenced
  words := h.words.trans h'.words
  regs := regsBut_trans h.regs h'.regs
  tums k hk := (h'.tums k hk).trans (h.tums k hk)
  swap := h'.swap.trans h.swap
  slots := h'.slots.trans h.slots
  pace hs := by
    obtain ⟨hu, hsw⟩ := h.pace hs
    obtain ⟨hv, hsw'⟩ := h'.pace hu
    exact ⟨hv, hsw'.trans hsw⟩

theorem mono (h : LineKept p t s u) (hpq : ∀ k, p k → q k) : LineKept q t s u := { h with words := h.words.mono hpq }

/-- A change of fields that no part of the frame names. -/
theorem of_eq (h : LineKept p t s u) (hpart : v.part = u.part) (hm : v.mram = u.mram) (hf : v.mramFenced = u.mramFenced)
    (hd : v.dram = u.dram) (hc : v.csr = u.csr) (ht : v.tums = u.tums) (hw : v.sweeps = u.sweeps) :
    LineKept p t s v := by
  have htum (k : Nat) : v.tum k = u.tum k := by rw [State.tum, ht, State.tum]
  refine h.trans ⟨hpart, hm, hf, wordsBut_of_dram_eq p hd, regsBut_of_csr_eq _ hc hpart, fun k _ => htum k, ?_, ?_, ?_⟩
  · rw [htum]
  · rw [htum]
  · exact fun hu => ⟨by rw [paceHeld, htum]; exact hu, hw⟩

theorem withWard (h : LineKept p t s u) (x : Ward) : LineKept p t s { u with ward := x } :=
  h.of_eq rfl rfl rfl rfl rfl rfl rfl

theorem withThermal (h : LineKept p t s u) (x : Thermal) : LineKept p t s { u with thermal := x } :=
  h.of_eq rfl rfl rfl rfl rfl rfl rfl

theorem withNextId (h : LineKept p t s u) (n : Nat) : LineKept p t s { u with nextId := n } :=
  h.of_eq rfl rfl rfl rfl rfl rfl rfl

theorem raise (h : LineKept p t s u) (src data : Nat) : LineKept p t s (raise u src data) :=
  h.of_eq rfl rfl rfl rfl rfl rfl rfl

theorem openShadow (h : LineKept p t s u) (b : FltSet) (x : Bool) : LineKept p t s (openShadow u b x) :=
  h.of_eq rfl rfl rfl rfl rfl rfl rfl

theorem count (h : LineKept p t s u) (slot n : Nat) : LineKept p t s (count u slot n) :=
  h.of_eq (count_part ..) (count_mram ..) (count_mramFenced ..) (count_dram ..) (count_csr ..) (count_tums ..)
    (count_sweeps ..)

theorem ite {c : Prop} [Decidable c] (hu : LineKept p t s u) (hv : LineKept p t s v) :
    LineKept p t s (if c then u else v) := by
  split
  · exact hu
  · exact hv

theorem foldl {β : Type} {f : State → β → State} (hf : ∀ u b, LineKept p t s u → LineKept p t s (f u b)) (l : List β)
    (h : LineKept p t s u) : LineKept p t s (l.foldl f u) := by
  induction l generalizing u with
  | nil => exact h
  | cons b r ih => exact ih (hf u b h)

/-- A register of the list is written. -/
theorem wr (h : LineKept p t s u) {off : Nat} (ho : off ∈ lineRegs t) (x : Reg32) : LineKept p t s (wr u off x) :=
  h.trans { refl p t u with words := wordsBut_of_dram_eq p rfl, regs := fun _ hn => rd_wr_other u x (fun he => hn (he ▸ ho)) }

theorem setF (h : LineKept p t s u) {off : Nat} (ho : off ∈ lineRegs t) (hi lo x : Nat) :
    LineKept p t s (setF u off hi lo x) := h.wr ho _

/-- An update of the tumbler that leaves its swap and its slots, and does not end the pace of its sweeps. -/
theorem setTumPaced (h : LineKept p t s u) (x : Tumbler) (hw : x.swap = (u.tum t).swap)
    (hq : x.q.slots = (u.tum t).q.slots)
    (hp : paceHeld u t = false → x.mode.emergency = false ∧ x.mode.rate = .idle ∧ x.training = none ∧
      x.mode.state ≠ .latchOut) : LineKept p t s (u.setTum t x) := by
  refine h.trans { refl p t u with
    words := wordsBut_of_dram_eq p rfl
    tums := fun k hk => tum_setTum_other u x hk
    swap := by rw [tum_setTum_same, hw]
    slots := by rw [tum_setTum_same, hq]
    pace := fun hu => ⟨?_, rfl⟩ }
  obtain ⟨he, hr, ht, hs⟩ := hp hu
  simp [paceHeld, he, hr, ht, hs]

/-- An update of the tumbler that leaves its swap, its slots, its mode and its training. -/
theorem setTum (h : LineKept p t s u) (x : Tumbler) (hw : x.swap = (u.tum t).swap) (hq : x.q.slots = (u.tum t).q.slots)
    (hm : x.mode = (u.tum t).mode) (htr : x.training = (u.tum t).training) : LineKept p t s (u.setTum t x) :=
  h.setTumPaced x hw hq (fun hu => by simpa [paceHeld, hm, htr, and_assoc] using hu)

theorem setDram (h : LineKept p t s u) (f : TDram → TDram) : LineKept p t s (setDram u t f) :=
  h.setTum _ rfl rfl rfl rfl

theorem putBank (h : LineKept p t s u) (n : Nat) (b : Bank) : LineKept p t s (putBank u t n b) := h.setDram _

theorem putSlice (h : LineKept p t s u) (l : Nat) (x : SliceTim) : LineKept p t s (putSlice u t l x) := h.setDram _

/-! ### Commands on the bus -/

theorem advance (h : LineKept p t s u) (n : Nat) : LineKept p t s (advance u t n) := by
  unfold Machine.advance
  dsimp only
  split
  · next hu =>
    refine h.trans (setDram ?_ _)
    exact { refl p t u with words := wordsBut_of_dram_eq p rfl, pace := fun hn => absurd hu (by rw [hn]; exact Bool.false_ne_true) }
  · exact h.setDram _

theorem goTo (h : LineKept p t s u) (m : Nat) : LineKept p t s (goTo u t m) := h.advance _

theorem issuePre (h : LineKept p t s u) (n : Nat) : LineKept p t s (issuePre u t n) :=
  ((h.putBank _ _).setDram _).count _ _

theorem preNext (h : LineKept p t s u) (n : Nat) : LineKept p t s (preNext u t n) :=
  ((h.goTo _).issuePre n).advance 1

theorem throttle (h : LineKept p t s u) (n : Nat) (src : Src) : LineKept p t s (throttle u t n src) := by
  unfold Machine.throttle
  dsimp only
  refine ite h (ite (h.setTum _ rfl rfl rfl rfl) (ite (h.setTum _ rfl rfl rfl rfl) (count (h.setTum _ ?_ ?_ ?_ ?_) _ _))) <;>
    rfl

theorem alertRow (h : LineKept p t s u) (l : Loc) (src : Src) : LineKept p t s (alertRow u t l src) := by
  have hregs (o : Nat) (ho : o = 0x2C ∨ o = 0x30) : tumReg t o ∈ lineRegs t := by
    rcases ho with rfl | rfl <;> simp [lineRegs]
  have halert {v : State} (hv : LineKept p t s v) (x y : Reg32) :
      LineKept p t s (Machine.count (Machine.wr (Machine.wr v (tumReg t 0x2C) x) (tumReg t 0x30) y) (cTum t 7) 1) :=
    ((hv.wr (hregs 0x2C (.inl rfl)) x).wr (hregs 0x30 (.inr rfl)) y).count _ _
  unfold Machine.alertRow
  dsimp only
  exact ite (foldl (fun _ _ hv => hv.throttle _ _) _ (halert (h.putBank _ _) _ _)) (halert (h.putBank _ _) _ _)

theorem hammerAct (h : LineKept p t s u) (l : Loc) (src : Src) : LineKept p t s (hammerAct u t l src) := by
  have hcount {v : State} (hv : LineKept p t s v) (m : Tab (BitVec 16)) (x : List Throttle) :
      LineKept p t s (v.setTum t { v.tum t with hammer := m, throttle := x }) := hv.setTum _ rfl rfl rfl rfl
  unfold Machine.hammerAct
  exact ite ((hcount (h.putBank _ _) _ _).alertRow l src) (hcount (h.putBank _ _) _ _)

theorem issueAct (h : LineKept p t s u) (l : Loc) (src : Src) (id : Option Nat) :
    LineKept p t s (issueAct u t l src id) :=
  ((((((((h.setDram _).putBank _ _).putSlice _ _).setDram _).withThermal _).count _ _).count _ _).hammerAct l src)

theorem issueCol (h : LineKept p t s u) (l : Loc) (w : Bool) (id : Nat) : LineKept p t s (issueCol u t l w id) := by
  unfold Machine.issueCol
  exact ((((ite h (h.count _ _)).putBank _ _).putSlice _ _).setDram _).count _ _

theorem charge (h : LineKept p t s u) (a : Access) (n : Nat) : LineKept p t s (charge u a n) := by
  unfold Machine.charge
  dsimp only
  split
  · exact (h.withWard _).count _ _
  · exact (h.withWard _).count _ _
  · exact h.withWard _
  · exact h
  · exact h.withWard _

theorem doAct (h : LineKept p t s u) {a : Access} (ha : a.tum.val = t) (l : Loc) : LineKept p t s (doAct u a l) := by
  subst ha
  refine charge (setTum (h.issueAct l _ _) _ ?_ ?_ ?_ ?_) a _ <;> rfl

theorem actNext (h : LineKept p t s u) {a : Access} (ha : a.tum.val = t) (l : Loc) : LineKept p t s (actNext u a l) := by
  subst ha
  exact ((h.goTo _).doAct rfl l).advance 1

theorem openLine (h : LineKept p t s u) {a : Access} (ha : a.tum.val = t) (l : Loc) : LineKept p t s (openLine u a l) := by
  subst ha
  exact ite h ((ite (h.preNext _) h).actNext rfl l)

theorem colNext (h : LineKept p t s u) {a : Access} (ha : a.tum.val = t) (l : Loc) (w : Bool) :
    LineKept p t s (colNext u a l w) := by
  subst ha
  exact (((h.goTo _).issueCol l w _).charge a 1).advance 1

theorem afterCol (h : LineKept p t s u) (a : Access) (l : Loc) : LineKept p t s (afterCol u t a l) := by
  unfold Machine.afterCol
  exact ite (h.putBank _ _) (h.putBank _ _)

theorem lineWr (h : LineKept p t s u) {a : Access} (ha : a.tum.val = t) (l : Loc) : LineKept p t s (lineWr u a l) :=
  (h.openLine ha l).colNext ha l true

theorem lineWrAll (h : LineKept p t s u) {a : Access} (ha : a.tum.val = t) : LineKept p t s (lineWrAll u a) := by
  unfold Machine.lineWrAll
  subst ha
  dsimp only
  split
  · exact ((h.lineWr rfl _).lineWr rfl _).afterCol a _
  · exact h.lineWr rfl _

theorem afterRead (h : LineKept p t s u) {a : Access} (ha : a.tum.val = t) : LineKept p t s (afterRead u a) := by
  subst ha
  exact ite h (h.goTo _)

theorem writeBacks (h : LineKept p t s u) {a : Access} (ha : a.tum.val = t) (g : List Got) :
    LineKept p t s (writeBacks u a g) := ite ((h.afterRead ha).lineWrAll ha) h

theorem lineEnter (h : LineKept p t s u) (a : Access) : LineKept p t s (lineEnter u a) := by
  unfold Machine.lineEnter
  exact ite ((ite (h.count _ _) h).withWard _) (ite (h.count _ _) h)

theorem lineEnd (h : LineKept p t s u) {a : Access} (ha : a.tum.val = t) : LineKept p t s (lineEnd u a) := by
  subst ha
  exact (ite h (h.afterCol a _)).withNextId _

/-! ### Recorded words and faults -/

theorem of_recorded (h : LineKept p t s u) (hr : Recorded u v) (hregs : RegsBut (lineRegs t) u v) : LineKept p t s v := by
  obtain ⟨c, f, n, l, x, a, i, rfl⟩ := hr
  exact h.trans { refl p t u with words := wordsBut_of_dram_eq p rfl, regs := hregs }

theorem record (h : LineKept p t s u) {b : Tum} (hb : b.val = t) {c : Nat} (hc : c < 8) (detail : BitVec 96) (n : Nat) :
    LineKept p t s (record u (.tum b) c detail n).1 := by
  refine h.of_recorded ((Recorded.refl u).record ..) (fun o ho => regsBut_record u _ c detail n o (fun hm => ho ?_))
  have hs : sevReg (.tum b) c = tumReg t 0xFE08 := by
    rw [sevReg, Nat.div_eq_of_lt hc, fltBase, hb]
    rfl
  rw [fltBase, hb, hs] at hm
  simp only [List.mem_cons, List.not_mem_nil, or_false] at hm
  rcases hm with rfl | rfl | rfl <;> simp [lineRegs]

theorem tumShutdown (h : LineKept p t s u) {b : Tum} (hb : b.val = t) (x : Bool) : LineKept p t s (tumShutdown u b x) := by
  subst hb
  have hrate : tumReg b 8 ∈ lineRegs b := by simp [lineRegs]
  have htrn : tumReg b 0x108 ∈ lineRegs b := by simp [lineRegs]
  have hopen := h.openShadow (.tum b) false
  unfold Machine.tumShutdown
  extract_lets v y w
  have hv : LineKept p b s w := by
    unfold w
    split
    · exact (hopen.setF htrn ..).setF htrn ..
    · exact hopen
  have hy : w.tum b = y := by
    unfold w
    split <;> rfl
  refine (hv.setF hrate 4 4 0).setTumPaced _ (show y.swap = (w.tum b).swap by rw [hy])
    (show y.q.slots = (w.tum b).q.slots by rw [hy]) (fun hp => ?_)
  have he : y.mode.emergency = false := by
    rw [paceHeld, tum_setF, hy] at hp
    simp only [Bool.or_eq_false_iff] at hp
    exact hp.1.1.1
  exact ⟨he, rfl, rfl, TState.noConfusion⟩

theorem fault (h : LineKept p t s u) {b : Tum} (hb : b.val = t) {c : Nat} (hc : c < 8) (detail : BitVec 96) (n : Nat) :
    LineKept p t s (fault u (.tum b) c detail n) := by
  have hr := h.record hb hc detail n
  unfold Machine.fault react
  exact ite hr (ite hr (hr.tumShutdown hb true))

theorem wordRecord (h : LineKept p t s u) (l : Loc) (x w : Nat) (hard : Bool) :
    LineKept p t s (wordRecord u t l x w hard) := by
  unfold Machine.wordRecord
  refine (h.wr ?_ _).setF (by simp [lineRegs]) _ _ _
  cases hard <;> simp [lineRegs]

theorem classHard (h : LineKept p t s u) (ht : t < 64) (l : Loc) (x w : Nat) :
    LineKept p t s (classHard u t l x w) :=
  (((h.wordRecord l x w true).count _ _).fault (Nat.mod_eq_of_lt ht) (by decide) _ _).raise _ _

theorem cwcDrop (h : LineKept p t s u) (k : Nat) : LineKept p t s (cwcDrop u t k) := h.setTum _ rfl rfl rfl rfl

theorem cwcPut (h : LineKept p t s u) (e : CwcEntry) : LineKept p t s (cwcPut u t e).1 := by
  unfold Machine.cwcPut
  dsimp only
  split
  · exact h.setTum _ rfl rfl rfl rfl
  · split
    · exact h.setTum _ rfl rfl rfl rfl
    · split
      · exact h.setTum _ rfl rfl rfl rfl
      · exact h.count _ _

theorem ite_fst {α : Type} {c : Prop} [Decidable c] {x y : State × α} (hx : LineKept p t s x.1)
    (hy : LineKept p t s y.1) : LineKept p t s (if c then x else y).1 := by
  split
  · exact hx
  · exact hy

theorem corrected (h : LineKept p t s u) (ht : t < 64) (l : Loc) (x w : Nat) (double : Bool) :
    LineKept p t s (corrected u t l x w double).1 := by
  unfold Machine.corrected
  have hc : LineKept p t s (Machine.count u (cTum t (if double then 17 else 16)) 1) := h.count ..
  exact ite_fst ((hc.cwcDrop _).classHard ht l x w) (ite_fst (hc.cwcPut _) (ite_fst (hc.cwcPut _) (hc.cwcPut _)))

/-! ### Words -/

theorem putWordRaw (h : LineKept p t s u) {l : Loc} {col w : Nat} (hk : p (wordKey t l col w)) (v : CodeWord) :
    LineKept p t s (putWordRaw u t l col w v) :=
  h.trans { refl p t u with words := (wordsBut_putWordRaw u t l col w v).mono (fun _ he => he ▸ hk) }

theorem putWord (h : LineKept p t s u) {l : Loc} {col w : Nat} (hk : p (wordKey t l col w)) (v : CodeWord) :
    LineKept p t s (putWord u t l col w v) := (h.putWordRaw hk v).setTum _ rfl rfl rfl rfl

end LineKept

/-- The twin of a place depends on the swap of its tumbler. -/
theorem twinOf_congr {s u : State} {t : Nat} (h : (u.tum t).swap = (s.tum t).swap) (x : Nat) (l : Loc) :
    twinOf u t x l = twinOf s t x l := by
  unfold twinOf
  rw [h]

/-- Word `w` of line `x` at place `l` of tumbler `t`, or at the place's twin. -/
def WordKeys (s : State) (t x : Nat) (l : Loc) (w k : Nat) : Prop :=
  k = wordKey t l (lineCol x) w ∨ ∃ m, twinOf s t x l = some m ∧ k = wordKey t m (lineCol x) w

/-- Some word of line `x` at place `l` of tumbler `t`, or at the place's twin. -/
def LineKeys (s : State) (t x : Nat) (l : Loc) (k : Nat) : Prop := ∃ w, w < 8 ∧ WordKeys s t x l w k

theorem wordKeys_congr {s u : State} {t : Nat} (h : (u.tum t).swap = (s.tum t).swap) (x : Nat) (l : Loc) (w : Nat) :
    WordKeys u t x l w = WordKeys s t x l w := by
  unfold WordKeys
  rw [twinOf_congr h]

/-- Different words of a line share no number. -/
theorem not_wordKeys_of_ne {s : State} {t x : Nat} {l : Loc} {w w' : Nat} (hw : w < 8) (hw' : w' < 8) (h : w ≠ w') (u : Nat)
    (m : Loc) (col : Nat) : ¬ WordKeys s t x l w (wordKey u m col w') := by
  rintro (hk | ⟨m', -, hk⟩)
  · exact wordKey_ne_of_word u t m l col _ hw' hw h.symm hk
  · exact wordKey_ne_of_word u t m m' col _ hw' hw h.symm hk

namespace LineKept

variable {p : Nat → Prop} {t : Nat} {s u : State}

theorem putBoth (h : LineKept p t s u) {x w : Nat} {l : Loc} (hk : ∀ k, WordKeys s t x l w k → p k) (v : CodeWord) :
    LineKept p t s (putBoth u t l x w v) := by
  have h1 := h.putWord (hk _ (.inl rfl)) v
  unfold Machine.putBoth
  dsimp only
  split
  · next m hm => exact h1.putWord (hk _ (.inr ⟨m, (twinOf_congr h.swap x l) ▸ hm, rfl⟩)) v
  · exact h1

theorem writeBack (h : LineKept p t s u) {x w : Nat} {l : Loc} (hk : ∀ k, WordKeys s t x l w k → p k) (v : CodeWord) :
    LineKept p t s (writeBack u t l x w v) := by
  have h1 := h.putWordRaw (hk _ (.inl rfl)) v
  unfold Machine.writeBack
  dsimp only
  split
  · next m hm => exact h1.putWordRaw (hk _ (.inr ⟨m, (twinOf_congr h.swap x l) ▸ hm, rfl⟩)) v
  · exact h1

theorem loseBits (h : LineKept p t s u) {l : Loc} {col w : Nat} (hk : p (wordKey t l col w)) (f : CodeWord) :
    LineKept p t s (loseBits u t l col w f) := ite h (h.putWordRaw hk _)

theorem decodeAt (h : LineKept p t s u) (ht : t < 64) {x w : Nat} {l : Loc} (hk : ∀ k, WordKeys s t x l w k → p k) (e : Nat)
    (v : CodeWord) : LineKept p t s (decodeAt u t l x w e v).1 := by
  unfold Machine.decodeAt
  extract_lets d still
  clear_value d still
  split
  · exact h
  · exact h
  · exact (((ite (h.putBoth hk _) h).wordRecord l x w false).count _ _).fault (Nat.mod_eq_of_lt ht) (by decide) _ _
  · have hc := h.corrected ht l x w (d.cls == .double)
    exact ite ((hc.writeBack hk _).count _ _) hc

end LineKept

end Sys2Proof.Machine
end

section
/-! PROOF. Lines that are read and written: the words that a read decodes, the words that a line operation stores (R140 to R143,
R148, R154, R162). -/

namespace Sys2Proof.Machine

open Sys2Proof

/-! ## Loops over the words of a line -/

/-- What holds before a loop and is passed on by each of its steps holds after it. -/
theorem foldUpTo_rule {α : Type} {P : Nat → α → Prop} {n : Nat} {f : α → Nat → α} {a : α} (h0 : P 0 a)
    (hs : ∀ i b, i < n → P i b → P (i + 1) (f b i)) : P n (foldUpTo n f a) := by
  induction n with
  | zero => exact h0
  | succ n ih =>
    rw [foldUpTo_succ]
    exact hs n _ (Nat.lt_succ_self n) (ih (fun i b hi => hs i b (Nat.lt_succ_of_lt hi)))

/-! ## Clean words (R140, R144) -/

/-- What an access against EPOCH `e` makes of the clean word `v`. -/
def cleanGot (v : CodeWord) (e : Nat) : Got :=
  { data := if (decodeWord v).epoch = e then (decodeWord v).data else 0, live := (decodeWord v).epoch == e, poison := false,
    corrected := false, wroteBack := false, word := (decodeWord v).word, cls := .clean }

theorem gotOf_eq (ws : List CodeWord) (e : Nat) : gotOf ws e = (List.range 8).map (fun w => cleanGot (ws.getD w 0) e) := rfl

/-- A clean word is one without an error. -/
theorem decodeWord_of_clean {v : CodeWord} (h : (decodeWord v).cls = .clean) :
    decodeWord v = { cls := .clean, data := dataOf v, epoch := epochOf v, word := v } := by
  by_cases h0 : syndrome v = 0
  · exact decodeWord_of_syndrome_zero h0
  · unfold decodeWord at h
    dsimp only at h
    rw [if_neg h0] at h
    split at h
    · cases h
    · split at h
      · cases h
      · split at h <;> cases h

theorem word_cleanGot {v : CodeWord} (h : (decodeWord v).cls = .clean) (e : Nat) : (cleanGot v e).word = v := by
  rw [cleanGot, decodeWord_of_clean h]

/-- A clean word leaves the state as it is. -/
theorem decodeAt_of_clean (s : State) (t : Nat) (l : Loc) (x w e : Nat) {v : CodeWord} (h : (decodeWord v).cls = .clean) :
    decodeAt s t l x w e v = (s, cleanGot v e) := by
  unfold decodeAt
  dsimp only
  rw [h]
  rfl

theorem xor_zero_word (v : CodeWord) : v ^^^ (0 : CodeWord) = v := BitVec.xor_zero

theorem loseBits_zero (s : State) (t : Nat) (l : Loc) (col w : Nat) : loseBits s t l col w 0 = s := if_pos rfl

/-- Words that are all clean are read without a change of the state. -/
theorem decodeRead_of_clean (s : State) (t : Nat) (l : Loc) (x e : Nat) {ws : List CodeWord}
    (h : ∀ w, w < 8 → (decodeWord (ws.getD w 0)).cls = .clean) :
    decodeRead s t l x e ws [] (fun _ => true) = (s, gotOf ws e) := by
  have hlose : foldUpTo 8 (fun s w => if getWord s t l (lineCol x) w = ws.getD w 0 then
      loseBits s t l (lineCol x) w (([] : List CodeWord).getD w 0) else s) s = s :=
    foldUpTo_rule (P := fun _ u => u = s) rfl (fun i u _ hu => by
      rw [List.getD_nil, loseBits_zero, ite_self]
      exact hu)
  unfold decodeRead
  dsimp only
  rw [hlose]
  refine foldUpTo_rule (P := fun i a => a = (s, (List.range i).map (fun w => cleanGot (ws.getD w 0) e))) rfl
    (fun i a hi ha => ?_)
  rw [if_pos rfl, List.getD_nil, xor_zero_word, ha, decodeAt_of_clean _ _ _ _ _ _ (h i hi), List.range_succ, List.map_append]
  rfl

/-! ## A line that is read -/

/-- Word `w` as a read finds it whose cells have lost the bits of `flips`. -/
def foundWord (ws flips : List CodeWord) (w : Nat) : CodeWord := ws.getD w 0 ^^^ flips.getD w 0

/-- The cells of a line that still hold what was read lose bits. -/
def lineLoses (s : State) (t : Nat) (l : Loc) (x : Nat) (ws flips : List CodeWord) : State :=
  foldUpTo 8 (fun s w => if getWord s t l (lineCol x) w = ws.getD w 0 then
    loseBits s t l (lineCol x) w (flips.getD w 0) else s) s

theorem decodeRead_eq (s : State) (t : Nat) (l : Loc) (x e : Nat) (ws flips : List CodeWord) :
    decodeRead s t l x e ws flips (fun _ => true) =
      foldUpTo 8 (fun a w => ((decodeAt a.1 t l x w e (foundWord ws flips w)).1,
        a.2 ++ [(decodeAt a.1 t l x w e (foundWord ws flips w)).2])) (lineLoses s t l x ws flips, []) := rfl

variable {p : Nat → Prop} {t x : Nat} {s u : State} {l : Loc}

theorem wordAt_loseBits (s : State) (t : Nat) (l : Loc) (col w : Nat) (f : CodeWord) :
    wordAt (loseBits s t l col w f) (wordKey t l col w) = wordAt s (wordKey t l col w) ^^^ f := by
  unfold loseBits
  split
  · next h => rw [h, xor_zero_word]
  · rw [wordAt_putWordRaw_same, getWord_eq]

theorem wordsBut_loseBits (s : State) (t : Nat) (l : Loc) (col w : Nat) (f : CodeWord) :
    WordsBut (· = wordKey t l col w) s (loseBits s t l col w f) := by
  unfold loseBits
  split
  · exact wordsBut_refl _ s
  · exact wordsBut_putWordRaw ..

theorem lineLoses_keeps (h : LineKept p t s u) (hk : ∀ k, LineKeys s t x l k → p k) (ws flips : List CodeWord) :
    LineKept p t s (lineLoses u t l x ws flips) :=
  foldUpTo_rule (P := fun _ v => LineKept p t s v) h (fun i _ hi hv =>
    (hv.loseBits (hk _ ⟨i, hi, .inl rfl⟩) _).ite hv)

theorem wordAt_lineLoses {ws flips : List CodeWord} {w : Nat} (hw : w < 8)
    (h : wordAt u (wordKey t l (lineCol x) w) = ws.getD w 0) :
    wordAt (lineLoses u t l x ws flips) (wordKey t l (lineCol x) w) = foundWord ws flips w := by
  have hall : wordAt (lineLoses u t l x ws flips) (wordKey t l (lineCol x) w) =
      if w < 8 then foundWord ws flips w else ws.getD w 0 := by
    refine foldUpTo_rule (P := fun i v => wordAt v (wordKey t l (lineCol x) w) =
      if w < i then foundWord ws flips w else ws.getD w 0) (by simpa using h) (fun i v hi hv => ?_)
    by_cases hwi : w = i
    · subst hwi
      rw [if_neg (Nat.lt_irrefl w)] at hv
      rw [getWord_eq, hv, if_pos rfl, wordAt_loseBits, hv, if_pos (Nat.lt_succ_self w)]
      rfl
    · have hother : ∀ z : State, z = v ∨ z = loseBits v t l (lineCol x) i (flips.getD i 0) →
          wordAt z (wordKey t l (lineCol x) w) = wordAt v (wordKey t l (lineCol x) w) := by
        rintro z (rfl | rfl)
        · rfl
        · exact (wordsBut_loseBits ..).wordAt_eq (wordKey_ne_of_word t t l l _ _ hw hi hwi)
      rw [hother _ (by split <;> simp), hv]
      exact if_congr (by omega) rfl rfl
  rw [hall, if_pos hw]

/-- What holds of the state and of the words taken, `a`, when `i` words of a line have been read: the frame, and each word that
is found clean with its place in the line. -/
structure LineRead (p : Nat → Prop) (t : Nat) (s u : State) (x : Nat) (l : Loc) (e : Nat) (ws flips : List CodeWord) (i : Nat)
    (a : State × List Got) : Prop where
  kept : LineKept p t s a.1
  length : a.2.length = i
  got : ∀ w, w < i → (decodeWord (foundWord ws flips w)).cls = .clean →
    a.2[w]? = some (cleanGot (foundWord ws flips w) e)
  word : ∀ w, w < 8 → (decodeWord (foundWord ws flips w)).cls = .clean →
    wordAt u (wordKey t l (lineCol x) w) = ws.getD w 0 →
    wordAt a.1 (wordKey t l (lineCol x) w) = foundWord ws flips w

theorem LineRead.next {e : Nat} {ws flips : List CodeWord} {i : Nat} {a : State × List Got}
    (h : LineRead p t s u x l e ws flips i a) (ht : t < 64) (hk : ∀ k, LineKeys s t x l k → p k) (hi : i < 8) :
    LineRead p t s u x l e ws flips (i + 1) ((decodeAt a.1 t l x i e (foundWord ws flips i)).1,
      a.2 ++ [(decodeAt a.1 t l x i e (foundWord ws flips i)).2]) where
  kept := h.kept.decodeAt ht (fun k hk' => hk k ⟨i, hi, hk'⟩) e _
  length := by simp [h.length]
  got w hw hc := by
    have hlen := h.length
    by_cases hwi : w = i
    · rw [← hwi] at hlen ⊢
      simp [hlen, decodeAt_of_clean _ _ _ _ _ _ hc]
    · rw [List.getElem?_append_left (by omega)]
      exact h.got w (by omega) hc
  word w hw hc hu := by
    by_cases hwi : w = i
    · rw [← hwi, decodeAt_of_clean _ _ _ _ _ _ hc]
      exact h.word w hw hc hu
    · have hd := (LineKept.refl (WordKeys a.1 t x l i) t a.1).decodeAt ht (fun _ hk' => hk') e (foundWord ws flips i)
      rw [hd.words.wordAt_eq (not_wordKeys_of_ne hi hw (Ne.symm hwi) t l _)]
      exact h.word w hw hc hu

/-- What holds before the first word is read of cells that have lost their bits. -/
theorem LineRead.start {e : Nat} {ws flips : List CodeWord} {v : State} (h : LineKept p t s v)
    (hw : ∀ w, w < 8 → wordAt u (wordKey t l (lineCol x) w) = ws.getD w 0 →
      wordAt v (wordKey t l (lineCol x) w) = foundWord ws flips w) : LineRead p t s u x l e ws flips 0 (v, []) where
  kept := h
  length := rfl
  got w hw := absurd hw (Nat.not_lt_zero w)
  word w h8 _ := hw w h8

theorem decodeRead_line (h : LineKept p t s u) (ht : t < 64) (hk : ∀ k, LineKeys s t x l k → p k) (e : Nat)
    (ws flips : List CodeWord) :
    LineRead p t s u x l e ws flips 8 (decodeRead u t l x e ws flips (fun _ => true)) := by
  have h0 : LineRead p t s u x l e ws flips 0 (lineLoses u t l x ws flips, []) :=
    LineRead.start (lineLoses_keeps h hk ws flips) (fun _ => wordAt_lineLoses)
  rw [decodeRead_eq]
  exact foldUpTo_rule h0 (fun i a hi ha => ha.next ht hk hi)

end Sys2Proof.Machine
end

section
/-! PROOF. Stored words read back, and a clean line that returns serves its read (O9). -/

namespace Sys2Proof.Machine

open Sys2Proof

/-- The line on its way leaves the flight of its tumbler. -/
def flightLeft (s : State) (t : Nat) : State := setQ s t (fun q => { q with flight := q.flight.drop 1 })

/-- A line whose words are all clean comes to the assembly of its read. -/
theorem lineReturns_clean {s : State} {t : Tum} {f : Flight} (hr : isRead f.acc = true)
    (hc : ∀ w, w < 8 → (decodeWord (f.words.getD w 0)).cls = .clean) :
    lineReturns s t f [] = asmPut (flightLeft s t) f.acc
      (asmAdd (asmOf (s.tum t).q f.acc) f.sub ((gotOf f.words f.acc.epoch.toNat).map gotPart)) := by
  have hk : f.acc.kind ≠ .write := by
    rintro hk
    simp [isRead, hk] at hr
  have hasm : asmOf ((flightLeft s t).tum t).q f.acc = asmOf (s.tum t).q f.acc := by
    unfold asmOf flightLeft
    rw [tum_setQ_same]
  unfold lineReturns
  simp only [if_neg hk, if_pos hr]
  rw [decodeRead_of_clean _ _ _ _ _ hc, ← hasm]
  rfl

/-- An assembly with lines to come is put back at the end. -/
theorem asmPut_of_left {s : State} {a : Access} {y : Assembly} (hy : y.left ≠ 0) :
    asmPut s a y = setQ (setQ s a.tum (fun q => { q with asm := q.asm.filter (fun z => z.id != a.id) })) a.tum
      (fun q => { q with asm := q.asm ++ [y] }) := if_neg hy

/-- An assembly with its last line serves the read. -/
theorem asmPut_of_done {s : State} {a : Access} {y : Assembly} (hy : y.left = 0) :
    asmPut s a y = readServed (count (setQ s a.tum (fun q => { q with asm := q.asm.filter (fun z => z.id != a.id) }))
      (cTum a.tum 22) (popNat 32 y.poison.toNat)) a (asmCmp a y) := if_pos hy

theorem getWord_putWord (s : State) (t col w u col' w' : Nat) (l l' : Loc) (v : CodeWord)
    (h : t < 64 ∧ l.leaf < 34 ∧ l.group < 8 ∧ l.bank < 4 ∧ l.row < 16400 ∧ col < 16 ∧ w < 8)
    (h' : u < 64 ∧ l'.leaf < 34 ∧ l'.group < 8 ∧ l'.bank < 4 ∧ l'.row < 16400 ∧ col' < 16 ∧ w' < 8) :
    getWord (putWord s t l col w v) t l col w = v ∧
    ((u, l', col', w') ≠ (t, l, col, w) → getWord (putWord s t l col w v) u l' col' w' = getWord s u l' col' w') := by
  obtain ⟨-, hl, hg, hb, hr, hc, hw⟩ := h
  obtain ⟨-, hl', hg', hb', hr', hc', hw'⟩ := h'
  rw [getWord_eq, getWord_eq, wordAt_putWord, wordAt_putWord, if_pos rfl]
  refine ⟨rfl, fun hne => if_neg (fun hk => hne ?_)⟩
  obtain ⟨rfl, rfl, rfl, rfl⟩ := wordKey_inj hl' hg' hb' hr' hc' hw' hl hg hb hr hc hw hk
  rfl

/-- Settles O9: a word is a number of its own in the memory (`wordKey_inj`), and clean words leave the state to the assembly of
their read. -/
theorem storedWordsReadBack : Obligations.StoredWordsReadBack := by
  refine ⟨fun s t col w u col' w' l l' v h h' => ?_, fun s t hf flips => ?_, fun s t f rest hf ht hr hc => ?_⟩
  · obtain ⟨hsame, hother⟩ := getWord_putWord s t col w u col' w' l l' v h h'
    exact ⟨hsame, hother, rfl, rfl⟩
  · show execCodeWordDecode t flips s = .next s
    unfold execCodeWordDecode
    rw [hf]
  · intro y
    have hexec : exec (.codeWordDecode t []) s = .next (asmPut (flightLeft s t) f.acc y) := by
      show execCodeWordDecode t [] s = _
      unfold execCodeWordDecode
      rw [hf, ← lineReturns_clean hr hc]
    have hleft := (InTum.refl t s).setQ (fun q => { q with flight := q.flight.drop 1 })
    refine ⟨fun hy => ?_, fun hy => ?_⟩
    · rw [asmPut_of_left hy, ht] at hexec
      have hin := (hleft.setQ (fun q => { q with asm := q.asm.filter (fun z => z.id != f.acc.id) })).setQ
        (fun q => { q with asm := q.asm ++ [y] })
      refine ⟨_, hexec, ?_, ?_, ?_, hin.frame⟩ <;> simp [flightLeft, hf]
    · rw [asmPut_of_done hy, ht] at hexec
      have hin := (hleft.setQ (fun q => { q with asm := q.asm.filter (fun z => z.id != f.acc.id) })).count
        (cTum t 22) (popNat 32 y.poison.toNat)
      refine ⟨_, hexec, ?_, fun z hz => ?_, hin.regsBut [], hin.sameMemory⟩
      · simp [flightLeft, hf]
      · simp only [tum_count, tum_setQ_same, List.mem_filter, bne_iff_ne] at hz
        exact hz.2

end Sys2Proof.Machine
end

section
/-! PROOF. Line operations: what is read of a line, what is stored in it, and which words of it a sweep rewrites (R78, R79, R148,
R162). -/

namespace Sys2Proof.Machine

open Sys2Proof

variable {p : Nat → Prop} {t x : Nat} {s u v : State} {l : Loc}

/-! ## Frames as the statements write them -/

theorem LineKept.sameMemory (h : LineKept (fun _ => False) t s u) : SameMemory s u :=
  fun a => ⟨h.words.bytes a id, by rw [mramByte, h.mram, mramByte]⟩

theorem wordKey_add (t : Nat) (l : Loc) (col w : Nat) : wordKey t l col w = wordKey t l col 0 + w := rfl

/-- Only the words of a line and of its twin change: the bytes of other lines stay. -/
theorem linesBut_of_lineKeys (h : WordsBut (LineKeys s t x l) s u) :
    LinesBut t (l :: (twinOf s t x l).toList) (lineCol x) s u := by
  intro a ha
  have hout (m : Loc) (hm : m ∈ l :: (twinOf s t x l).toList) (w : Nat) (hw : w < 8) :
      a / 10 ≠ wordKey t m (lineCol x) w := by
    have := ha m hm
    rw [wordKey_add]
    omega
  refine h.bytes a ?_
  rintro ⟨w, hw, hk | ⟨m, hm, hk⟩⟩
  · exact hout l (List.mem_cons_self ..) w hw hk
  · exact hout m (List.mem_cons_of_mem _ (by rw [hm]; exact List.mem_singleton_self m)) w hw hk

theorem wholeSlot_congr (h : (u.tum t).q.slots = (s.tum t).q.slots) (x : Nat) : wholeSlot u t x = wholeSlot s t x := by
  rw [wholeSlot, slotOf, h, wholeSlot, slotOf]

theorem lineAccess_tum (s : State) {t : Nat} (ht : t < 64) (x : Nat) (l : Loc) (m : Master) (w : Bool) :
    (lineAccess s t x l m w).tum.val = t := Nat.mod_eq_of_lt ht

/-! ## A line is read -/

/-- A line operation has read line `x` at place `l` by an RD whose cells lost the bits of `flips`: the state and the words taken,
`a`. -/
structure LineTaken (t : Nat) (s : State) (x : Nat) (l : Loc) (e : Nat) (flips : List CodeWord) (a : State × List Got) :
    Prop where
  kept : LineKept (LineKeys s t x l) t s a.1
  length : a.2.length = 8
  got : ∀ w, w < 8 → (decodeWord (getWord s t l (lineCol x) w ^^^ flips.getD w 0)).cls = .clean →
    a.2[w]? = some (cleanGot (getWord s t l (lineCol x) w ^^^ flips.getD w 0) e)
  word : ∀ w, w < 8 → (decodeWord (getWord s t l (lineCol x) w ^^^ flips.getD w 0)).cls = .clean →
    getWord a.1 t l (lineCol x) w = getWord s t l (lineCol x) w ^^^ flips.getD w 0

theorem getD_lineWords (s : State) (t : Nat) (l : Loc) (x : Nat) {w : Nat} (hw : w < 8) :
    (lineWords s t l x).getD w 0 = getWord s t l (lineCol x) w := by
  simp [lineWords, hw]

theorem lineWords_congr (h : ∀ w, getWord u t l (lineCol x) w = getWord s t l (lineCol x) w) :
    lineWords u t l x = lineWords s t l x := List.map_congr_left (fun w _ => h w)

/-- The line is read from a state that no operation has written words of since `s`. -/
theorem lineTaken_lineRead (h : LineKept (fun _ => False) t s u) (ht : t < 64) {a : Access} (ha : a.tum.val = t)
    (hx : a.line = x) (hl : a.loc = l) (hn : wholeSlot s t x = none) (e : Nat) (flips : List CodeWord) :
    LineTaken t s x l e flips (lineRead u a e flips) := by
  have hopen := (h.openLine ha l).colNext ha l false
  have hword (w : Nat) : getWord (colNext (openLine u a l) a l false) t l (lineCol x) w = getWord s t l (lineCol x) w :=
    hopen.words.wordAt_eq id
  have hread : lineRead u a e flips = decodeRead (colNext (openLine u a l) a l false) t l x e
      (lineWords s t l x) flips (fun _ => true) := by
    unfold lineRead
    simp only [ha, hx, hl, wholeSlot_congr h.slots x, hn]
    rw [decodeLine, lineWords_congr hword]
  obtain ⟨hk, hlen, hgot, hwrd⟩ := decodeRead_line (hopen.mono (fun _ hf => hf.elim)) ht (fun _ hk => hk) e
    (lineWords s t l x) flips (x := x) (l := l)
  have hfound (w : Nat) (hw : w < 8) :
      foundWord (lineWords s t l x) flips w = getWord s t l (lineCol x) w ^^^ flips.getD w 0 := by
    rw [foundWord, getD_lineWords s t l x hw]
  rw [hread]
  refine ⟨hk, hlen, fun w hw hc => ?_, fun w hw hc => ?_⟩
  · rw [← hfound w hw] at hc ⊢
    exact hgot w hw hc
  · rw [← hfound w hw] at hc ⊢
    exact hwrd w hw hc ((hword w).trans (getD_lineWords s t l x hw).symm)

/-! ## A line is stored -/

theorem wordsBut_putBoth (s : State) (t : Nat) (l : Loc) (x w : Nat) (v : CodeWord) :
    WordsBut (WordKeys s t x l w) s (putBoth s t l x w v) :=
  ((LineKept.refl (WordKeys s t x l w) t s).putBoth (fun _ hk => hk) v).words

theorem wordAt_putBoth_same (s : State) (t : Nat) (l : Loc) (x w : Nat) (v : CodeWord) {k : Nat}
    (hk : WordKeys s t x l w k) : wordAt (putBoth s t l x w v) k = v := by
  unfold putBoth
  dsimp only
  split
  · next m hm =>
    rw [wordAt_putWord, wordAt_putWord]
    rcases hk with rfl | ⟨m', hm', rfl⟩
    · rw [if_pos rfl, ite_self]
    · rw [Option.some.inj (hm.symm.trans hm'), if_pos rfl]
  · next hm =>
    rcases hk with rfl | ⟨m', hm', -⟩
    · rw [wordAt_putWord, if_pos rfl]
    · exact absurd (hm.symm.trans hm') nofun

/-- What holds of the state `v` when `i` words of a line, those that the mask `m` names, have been stored from `u` on. -/
structure LineStored (t : Nat) (s u : State) (x : Nat) (l : Loc) (m : Nat) (f : Nat → CodeWord) (i : Nat) (v : State) :
    Prop where
  kept : LineKept (LineKeys s t x l) t s v
  word : ∀ w, w < 8 → (i ≤ w ∨ bit m w = false) →
    wordAt v (wordKey t l (lineCol x) w) = wordAt u (wordKey t l (lineCol x) w)
  stored : ∀ w k, w < i → bit m w = true → WordKeys s t x l w k → wordAt v k = f w

theorem LineStored.next {m : Nat} {f : Nat → CodeWord} {i : Nat} (h : LineStored t s u x l m f i v) (hi : i < 8) :
    LineStored t s u x l m f (i + 1) (if bit m i then putBoth v t l x i (f i) else v) := by
  have hkeys := wordKeys_congr h.kept.swap x l
  split
  · next hb =>
    have hother {w k : Nat} (hw : w < 8) (hne : w ≠ i) (hk : WordKeys s t x l w k) :
        wordAt (putBoth v t l x i (f i)) k = wordAt v k := by
      refine (wordsBut_putBoth ..).wordAt_eq ?_
      rcases hk with rfl | ⟨n, -, rfl⟩
      · exact not_wordKeys_of_ne hi hw hne.symm t l _
      · exact not_wordKeys_of_ne hi hw hne.symm t n _
    refine ⟨h.kept.putBoth (fun k hk => ⟨i, hi, hk⟩) _, fun w hw hc => ?_, fun w k hw hm hk => ?_⟩
    · have hne : w ≠ i := by
        rintro rfl
        rcases hc with hc | hc
        · omega
        · exact absurd (hb.symm.trans hc) Bool.noConfusion
      rw [hother hw hne (.inl rfl)]
      exact h.word w hw (hc.imp_left (fun hle => by omega))
    · by_cases hwi : w = i
      · subst hwi
        exact wordAt_putBoth_same v t l x w (f w) (hkeys w ▸ hk)
      · rw [hother (by omega) hwi hk]
        exact h.stored w k (by omega) hm hk
  · next hb =>
    refine ⟨h.kept, fun w hw hc => h.word w hw ?_, fun w k hw hm hk => h.stored w k ?_ hm hk⟩
    · by_cases hwi : w = i
      · exact .inr (by rw [hwi]; simpa using hb)
      · exact hc.imp_left (fun hle => by omega)
    · have hne : w ≠ i := fun he => hb (he ▸ hm)
      omega

/-- The line is stored by a WR, as no slot holds the whole of it. -/
theorem lineStored_lineStore (h : LineKept (LineKeys s t x l) t s u) {a : Access} (ha : a.tum.val = t) (hx : a.line = x)
    (hl : a.loc = l) (hn : wholeSlot s t x = none) (m : Nat) (f : Nat → CodeWord) :
    LineStored t s u x l m f 8 (lineStore u a m f) := by
  have hstore : lineStore u a m f = foldUpTo 8 (fun v w => if bit m w then putBoth v t l x w (f w) else v) (lineWrAll u a) := by
    unfold lineStore
    simp only [ha, hx, hl, wholeSlot_congr h.slots x, hn]
  have hwr := ((LineKept.refl (fun _ => False) t u).lineWrAll ha).words
  have h0 : LineStored t s u x l m f 0 (lineWrAll u a) :=
    ⟨h.lineWrAll ha, fun w _ _ => hwr.wordAt_eq id, fun w _ hw => absurd hw (Nat.not_lt_zero w)⟩
  rw [hstore]
  exact foldUpTo_rule h0 (fun i v hi hv => hv.next hi)

end Sys2Proof.Machine
end

section
/-! PROOF. The sweep of a region: its start, its lines, its end (O20). -/

namespace Sys2Proof.Machine

open Sys2Proof

/-! ## Which words are stale -/

/-- The mask of a list's entries that satisfy `c`, from bit `k` on. -/
theorem bit_mask_zipIdx {α : Type} (c : α → Bool) (l : List α) (k m w : Nat) (hm : m < 2 ^ k) :
    bit ((l.zipIdx k).foldl (fun m g => m + b2n (c g.1) * 2 ^ g.2) m) w =
      if w < k then bit m w else (l[w - k]?).any c := by
  induction l generalizing k m with
  | nil =>
    by_cases hw : w < k
    · rw [if_pos hw]
      rfl
    · rw [if_neg hw]
      exact Nat.testBit_lt_two_pow (hm.trans_le (Nat.pow_le_pow_right (by decide) (Nat.not_lt.1 hw)))
  | cons a r ih =>
    have hnext : m + b2n (c a) * 2 ^ k < 2 ^ (k + 1) := by
      have : b2n (c a) ≤ 1 := by unfold b2n; split <;> omega
      have := Nat.mul_le_mul_right (2 ^ k) this
      rw [Nat.pow_succ]
      omega
    have hbit : bit (m + b2n (c a) * 2 ^ k) w = if w < k then bit m w else decide (w = k) && c a := by
      rw [bit, Nat.add_comm, Nat.mul_comm, Nat.testBit_two_pow_mul_add _ hm]
      by_cases hw : w < k
      · rw [if_pos hw, if_pos hw, bit]
      · rw [if_neg hw, if_neg hw]
        by_cases hk : w = k
        · subst hk
          cases c a <;> simp [b2n]
        · rw [decide_eq_false hk, Bool.false_and]
          have hlt : b2n (c a) < 2 ^ (w - k) := by
            have := Nat.one_lt_two_pow (show w - k ≠ 0 by omega)
            unfold b2n
            split <;> omega
          exact Nat.testBit_lt_two_pow hlt
    rw [List.zipIdx_cons, List.foldl_cons, ih (k + 1) _ hnext, hbit]
    by_cases hw : w < k
    · rw [if_pos hw, if_pos (by omega), if_pos hw]
    · rw [if_neg hw, if_neg hw]
      by_cases hk : w = k
      · subst hk
        rw [if_pos (Nat.lt_succ_self w), Nat.sub_self, decide_eq_true rfl, Bool.true_and]
        rfl
      · rw [if_neg (by omega), show w - k = w - (k + 1) + 1 by omega, List.getElem?_cons_succ]

/-- R148: a word is stale by its EPOCH. -/
theorem bit_staleWords (g : List Got) (cur w : Nat) : bit (staleWords g cur) w =
    (g[w]?).any (fun g => decide (epochOf g.word ≠ cur ∧ epochOf g.word ≠ 0)) := by
  have h := bit_mask_zipIdx (fun g : Got => decide (epochOf g.word ≠ cur ∧ epochOf g.word ≠ 0)) g 0 0 w (by decide)
  rw [if_neg (Nat.not_lt_zero w), Nat.sub_zero] at h
  exact h

/-! ## A line of a sweep -/

variable {t x r : Nat} {s : State} {flips : List CodeWord}

/-- What a line operation of a sweep reads. -/
def sweepReads (s : State) (t x r : Nat) (flips : List CodeWord) : State × List Got :=
  lineRead (lineEnter s (lineAccess s t x (placeOf s t x) .sweep false)) (lineAccess s t x (placeOf s t x) .sweep false)
    (rgnEpoch s r) flips

/-- What a line operation of a sweep has written before it ends. -/
def sweepWrites (s : State) (t x r : Nat) (flips : List CodeWord) : State :=
  let a := lineAccess s t x (placeOf s t x) .sweep false
  let read := sweepReads s t x r flips
  let m := staleWords read.2 (rgnEpoch s r)
  if m = 0 then writeBacks read.1 a read.2 else lineStore (afterRead read.1 a) a m (fun _ => encodeWord 0 0)

/-- How a line operation of a sweep ends. -/
theorem lineKept_sweepOne (s : State) (ht : t < 64) (x r : Nat) (flips : List CodeWord) :
    LineKept (fun _ => False) t (sweepWrites s t x r flips) (sweepOne s t x r flips) := by
  have hend := ((LineKept.refl (fun _ => False) t (sweepWrites s t x r flips)).lineEnd
    (lineAccess_tum s ht x (placeOf s t x) .sweep false)).count (cTum t 23) 1
  exact LineKept.ite hend (hend.count _ _)

/-- A line operation of a sweep on a line that no slot holds as a whole rewrites its stale words. -/
theorem sweepWrites_words (ht : t < 64) (hn : wholeSlot s t x = none) :
    let l := placeOf s t x
    LineKept (LineKeys s t x l) t s (sweepWrites s t x r flips) ∧
    ∀ w, w < 8 →
      let d := decodeWord (getWord s t l (lineCol x) w ^^^ flips.getD w 0)
      let stale := d.epoch ≠ rgnEpoch s r ∧ d.epoch ≠ 0
      d.cls = .clean →
        getWord (sweepWrites s t x r flips) t l (lineCol x) w = (if stale then encodeWord 0 0 else d.word) ∧
        (stale → ∀ m, twinOf s t x l = some m →
          getWord (sweepWrites s t x r flips) t m (lineCol x) w = encodeWord 0 0) := by
  intro l
  have ha := lineAccess_tum s ht x l .sweep false
  have hread : LineTaken t s x l (rgnEpoch s r) flips (sweepReads s t x r flips) :=
    lineTaken_lineRead ((LineKept.refl _ t s).lineEnter _) ht ha rfl rfl hn _ flips
  have hbit (w : Nat) (hw : w < 8) (hc : (decodeWord (getWord s t l (lineCol x) w ^^^ flips.getD w 0)).cls = .clean) :
      bit (staleWords (sweepReads s t x r flips).2 (rgnEpoch s r)) w =
        decide ((decodeWord (getWord s t l (lineCol x) w ^^^ flips.getD w 0)).epoch ≠ rgnEpoch s r ∧
          (decodeWord (getWord s t l (lineCol x) w ^^^ flips.getD w 0)).epoch ≠ 0) := by
    rw [bit_staleWords, hread.got w hw hc, Option.any_some, word_cleanGot hc, decodeWord_of_clean hc]
  by_cases hm : staleWords (sweepReads s t x r flips).2 (rgnEpoch s r) = 0
  · have hw : sweepWrites s t x r flips = writeBacks (sweepReads s t x r flips).1 _ (sweepReads s t x r flips).2 := if_pos hm
    rw [hw]
    refine ⟨hread.kept.writeBacks ha _, ?_⟩
    intro w h8 d stale hc
    have hfresh : ¬ stale := by
      have := hbit w h8 hc
      rw [hm] at this
      exact of_decide_eq_false (this.symm.trans (Nat.zero_testBit w))
    have hsame := ((LineKept.refl (fun _ => False) t (sweepReads s t x r flips).1).writeBacks ha
      (sweepReads s t x r flips).2).words.wordAt_eq (k := wordKey t l (lineCol x) w) id
    rw [if_neg hfresh, getWord_eq, hsame, ← getWord_eq, hread.word w h8 hc]
    exact ⟨(congrArg Decoded.word (decodeWord_of_clean hc)).symm, fun h => absurd h hfresh⟩
  · have hw : sweepWrites s t x r flips = lineStore (afterRead (sweepReads s t x r flips).1 _) _
        (staleWords (sweepReads s t x r flips).2 (rgnEpoch s r)) (fun _ => encodeWord 0 0) := if_neg hm
    have hst := lineStored_lineStore (hread.kept.afterRead ha) ha rfl rfl hn
      (staleWords (sweepReads s t x r flips).2 (rgnEpoch s r)) (fun _ => encodeWord 0 0)
    rw [hw]
    refine ⟨hst.kept, ?_⟩
    intro w h8 d stale hc
    refine ⟨?_, fun h m htw => ?_⟩
    · by_cases h : stale
      · rw [if_pos h]
        exact hst.stored w _ h8 ((hbit w h8 hc).trans (decide_eq_true h)) (.inl rfl)
      · have hsame := ((LineKept.refl (fun _ => False) t (sweepReads s t x r flips).1).afterRead ha).words.wordAt_eq
          (k := wordKey t l (lineCol x) w) id
        rw [if_neg h, getWord_eq, hst.word w h8 (.inr ((hbit w h8 hc).trans (decide_eq_false h))), hsame, ← getWord_eq,
          hread.word w h8 hc]
        exact (congrArg Decoded.word (decodeWord_of_clean hc)).symm
    · exact hst.stored w _ h8 ((hbit w h8 hc).trans (decide_eq_true h)) (.inr ⟨m, htw, rfl⟩)

/-- What is stored in a line that a slot holds as a whole goes into the slot alone. -/
theorem lineStore_slot {u : State} {a : Access} {k : Slot} (ha : a.tum.val = t) (hk : wholeSlot u t a.line = some k)
    (m : Nat) (f : Nat → CodeWord) : ∃ g, lineStore u a m f = setQ u t g := by
  unfold lineStore
  simp only [ha, hk]
  exact ⟨_, rfl⟩

theorem lineRead_slot {u : State} {a : Access} {k : Slot} (ha : a.tum.val = t) (hk : wholeSlot u t a.line = some k)
    (e : Nat) : lineRead u a e flips = (u, (List.range 8).map (fun w => slotGot k w e)) := by
  unfold lineRead
  simp only [ha, hk]

theorem paceHeld_setQ (s : State) (t : Nat) (g : TQueue → TQueue) : paceHeld (setQ s t g) t = paceHeld s t := by
  unfold paceHeld
  rw [tum_setQ_same]

/-- A line operation of a sweep whose line a slot holds as a whole writes the slot alone. -/
theorem sweepWrites_slot {k : Slot} (ht : t < 64) (hk : wholeSlot s t x = some k) :
    SameMemory s (sweepWrites s t x r flips) ∧
      (paceHeld s t = false → paceHeld (sweepWrites s t x r flips) t = false ∧
        (sweepWrites s t x r flips).sweeps = s.sweeps) := by
  have ha := lineAccess_tum s ht x (placeOf s t x) .sweep false
  have henter := (LineKept.refl (fun _ => False) t s).lineEnter (lineAccess s t x (placeOf s t x) .sweep false)
  have hread : sweepReads s t x r flips = (lineEnter s _, _) :=
    lineRead_slot ha ((wholeSlot_congr henter.slots x).trans hk) (rgnEpoch s r)
  have hkept : LineKept (fun _ => False) t s (sweepReads s t x r flips).1 := by rw [hread]; exact henter
  by_cases hm : staleWords (sweepReads s t x r flips).2 (rgnEpoch s r) = 0
  · have hw : sweepWrites s t x r flips = writeBacks (sweepReads s t x r flips).1 _ (sweepReads s t x r flips).2 := if_pos hm
    have h := hkept.writeBacks ha (sweepReads s t x r flips).2
    rw [hw]
    exact ⟨h.sameMemory, h.pace⟩
  · have hw : sweepWrites s t x r flips = lineStore (afterRead (sweepReads s t x r flips).1 _) _
        (staleWords (sweepReads s t x r flips).2 (rgnEpoch s r)) (fun _ => encodeWord 0 0) := if_neg hm
    have h := hkept.afterRead ha
    obtain ⟨g, hg⟩ := lineStore_slot ha ((wholeSlot_congr h.slots x).trans hk)
      (staleWords (sweepReads s t x r flips).2 (rgnEpoch s r)) (fun _ => encodeWord 0 0)
    rw [hw, hg, paceHeld_setQ, setQ_sweeps]
    exact ⟨sameMemory_trans h.sameMemory (sameMemory_of_eq (setQ_dram ..) (setQ_mram ..)), h.pace⟩

/-- SWEEP_LINE on the line that the sweep in position `i` has next. -/
theorem exec_sweepLine {t : Tum} {r : BitVec 16} {i y : Nat} {z : SweepT} {last : Bool}
    (hi : sweepIdx s t r.toNat = some i) (hz : s.sweeps[i]? = some z) (hst : z.started = true) (hrun : running s = true)
    (ht : z.tum = t.val) (hr : z.region = r.toNat) (hy : sweepNext s z = some (y, last)) (hok : lineOpOk s t = true)
    (hb : lineBusy s t y = false) (hm : lineMay s (lineAccess s t y (placeOf s t y) .sweep false) = true) :
    exec (.sweepLine t r flips) s = .next (modSweep (sweepOne s t y r.toNat flips) i
      (fun z => { z with ptr := z.ptr + 1, finished := last })) := by
  have hstep : sweepStep s i z flips = modSweep (sweepOne s t y r.toNat flips) i
      (fun z => { z with ptr := z.ptr + 1, finished := last }) := by
    unfold sweepStep
    rw [hy]
    dsimp only
    rw [ht, hr, hb, hm]
    rfl
  show execSweepLine t r flips s = _
  unfold execSweepLine sweepGo
  rw [hi]
  dsimp only
  rw [hz]
  dsimp only
  rw [hst, hrun, if_pos hok, hstep]
  rfl

/-- A sweep's position after its line, where the line operation has left the sweeps as they were. -/
theorem sweeps_modSweep {u : State} {i : Nat} {z : SweepT} {f : SweepT → SweepT} (hu : u.sweeps = s.sweeps)
    (hz : s.sweeps[i]? = some z) : (modSweep u i f).sweeps[i]? = some (f z) := by
  unfold modSweep
  simp [hu, hz]

/-- A line operation that may run meets no pause of the sweeps' pace. -/
theorem paceHeld_of_lineOpOk (h : lineOpOk s t = true) : paceHeld s t = false := by
  unfold lineOpOk at h
  simp only [Bool.and_eq_true, decide_eq_true_eq, Bool.not_eq_true'] at h
  obtain ⟨⟨⟨⟨⟨⟨⟨-, hon⟩, -⟩, -⟩, he⟩, hr⟩, htr⟩, -⟩ := h
  simp [paceHeld, hon, he, hr, Option.isNone_iff_eq_none.1 htr]

/-- A line of a sweep, on a line that no slot holds as a whole. -/
theorem sweepLine_words {t : Tum} {r : BitVec 16} {i y : Nat} {z : SweepT} {last : Bool}
    (hz : s.sweeps[i]? = some z) (hok : lineOpOk s t = true) (hn : wholeSlot s t y = none)
    (he : exec (.sweepLine t r flips) s = .next (modSweep (sweepOne s t y r.toNat flips) i
      (fun z => { z with ptr := z.ptr + 1, finished := last }))) :
    let l := placeOf s t y
    Completes (.sweepLine t r flips) s (fun u =>
      u.sweeps[i]? = some { z with ptr := z.ptr + 1, finished := last } ∧
      LinesBut t (l :: (twinOf s t y l).toList) (lineCol y) s u ∧
      ∀ w, w < 8 →
        let d := decodeWord (getWord s t l (lineCol y) w ^^^ flips.getD w 0)
        let stale := d.epoch ≠ rgnEpoch s r.toNat ∧ d.epoch ≠ 0
        d.cls = .clean → getWord u t l (lineCol y) w = (if stale then encodeWord 0 0 else d.word) ∧
          (stale → ∀ m, twinOf s t y l = some m → getWord u t m (lineCol y) w = encodeWord 0 0)) := by
  intro l
  obtain ⟨hkept, hwords⟩ := sweepWrites_words (r := r.toNat) (flips := flips) t.isLt hn
  have hend := lineKept_sweepOne s t.isLt y r.toNat flips
  have hall : LineKept (LineKeys s t y l) t s (sweepOne s t y r.toNat flips) :=
    hkept.trans (hend.mono (fun _ hf => hf.elim))
  obtain ⟨-, hsweeps⟩ := hall.pace (paceHeld_of_lineOpOk hok)
  have hlines : LinesBut t (l :: (twinOf s t y l).toList) (lineCol y) s (sweepOne s t y r.toNat flips) :=
    linesBut_of_lineKeys hall.words
  have hword (m : Loc) (w : Nat) : getWord (sweepOne s t y r.toNat flips) t m (lineCol y) w =
      getWord (sweepWrites s t y r.toNat flips) t m (lineCol y) w := hend.words.wordAt_eq id
  generalize sweepOne s t y r.toNat flips = v at he hsweeps hlines hword
  generalize sweepWrites s t y r.toNat flips = v' at hwords hword
  refine ⟨_, he, sweeps_modSweep hsweeps hz, hlines, ?_⟩
  intro w hw d stale hc
  obtain ⟨h1, h2⟩ := hwords w hw hc
  exact ⟨(hword l w).trans h1, fun hst m hm => (hword m w).trans (h2 hst m hm)⟩

/-- A line of a sweep, in the slot that holds the whole line. -/
theorem sweepLine_slot {t : Tum} {r : BitVec 16} {i y : Nat} {z : SweepT} {last : Bool} {k : Slot}
    (hz : s.sweeps[i]? = some z) (hok : lineOpOk s t = true) (hk : wholeSlot s t y = some k)
    (he : exec (.sweepLine t r flips) s = .next (modSweep (sweepOne s t y r.toNat flips) i
      (fun z => { z with ptr := z.ptr + 1, finished := last }))) :
    Completes (.sweepLine t r flips) s (fun u =>
      u.sweeps[i]? = some { z with ptr := z.ptr + 1, finished := last } ∧ SameMemory s u) := by
  obtain ⟨hmem, hpace⟩ := sweepWrites_slot (r := r.toNat) (flips := flips) t.isLt hk
  obtain ⟨hp, hs⟩ := hpace (paceHeld_of_lineOpOk hok)
  have hend := lineKept_sweepOne s t.isLt y r.toNat flips
  have hsame : SameMemory s (sweepOne s t y r.toNat flips) := sameMemory_trans hmem hend.sameMemory
  have hsweeps := (hend.pace hp).2.trans hs
  generalize sweepOne s t y r.toNat flips = v at he hsweeps hsame
  exact ⟨_, he, sweeps_modSweep hsweeps hz, hsame⟩

/-! ## The end of a sweep -/

/-- MRAM and the counters are all that a write of MRAM changes. -/
theorem mramPut_eq (s : State) (a : Nat) (l : List Byte) : ∃ m c, mramPut s a l = { s with mram := m, counts := c } := by
  unfold mramPut
  split
  · exact ⟨_, _, rfl⟩
  · obtain ⟨c, hc⟩ := count_eq { s with mram := cellPut s.mram a l } (cSen 5) ((l.length + 7) / 8)
    exact ⟨_, c, hc⟩

theorem storeRegion_eq (s : State) (r : Nat) : ∃ m c, storeRegion s r = { s with mram := m, counts := c } := mramPut_eq ..

/-- A sweep field is set and its region's record stored. -/
theorem regsBut_storeRegion_setF (s : State) (r hi lo x : Nat) :
    RegsBut [rgnReg r] s (storeRegion (setF s (rgnReg r) hi lo x) r) := by
  obtain ⟨m, c, hu⟩ := storeRegion_eq (setF s (rgnReg r) hi lo x) r
  rw [hu]
  exact fun o ho => rd_wr_other s _ (fun he => ho (by rw [he]; exact List.mem_singleton_self _))

/-- The SWEEP field is set to `x`: the region's other fields stay. -/
theorem rgn_storeRegion_sweep (s : State) (r x : Nat) :
    let u := storeRegion (setF s (rgnReg r) 3 2 x) r
    rgnSweep u r = x % 4 ∧ rgnEpoch u r = rgnEpoch s r ∧ rgnMode u r = rgnMode s r ∧ u.dram = s.dram ∧
      u.sweeps = s.sweeps ∧ u.clears = s.clears ∧ u.pair = s.pair := by
  obtain ⟨m, c, hu⟩ := storeRegion_eq (setF s (rgnReg r) 3 2 x) r
  dsimp only
  rw [hu]
  exact ⟨fld_setF_same s (rgnReg r) 3 2 x (by decide) (by decide),
    fld_setF_field s (rgnReg r) 3 2 x 1 0 (by decide) (by decide) (.inl (by decide)) (by decide),
    fld_setF_field s (rgnReg r) 3 2 x 9 8 (by decide) (by decide) (.inr (by decide)) (by decide), rfl, rfl, rfl, rfl⟩

theorem sweepRest_of_over {r : Nat} (h : sweepOver s r = true) : sweepRest s r = s := if_pos h

/-- SWEEP_FINISH once every tumbler has finished. -/
theorem exec_sweepFinish {r : BitVec 16} (ho : sweepOver s r.toNat = true)
    (hs : rgnSweep s r.toNat = 1 ∨ rgnSweep s r.toNat = 2) : exec (.sweepFinish r) s = .next (finishSweep s r.toNat) := by
  show execSweepFinish r s = _
  unfold execSweepFinish
  rw [sweepRest_of_over ho]
  dsimp only
  rw [ho, decide_eq_true hs]
  rfl

theorem clearOf_of_heldClear {r : Nat} (h : heldClear s r = false) : clearOf s r = none := by
  unfold heldClear at h
  rw [Bool.or_eq_false_iff] at h
  exact List.find?_eq_none.2 (fun x hx hc => absurd (List.any_eq_true.2 ⟨x, hx, hc⟩) (by rw [h.1]; exact Bool.false_ne_true))

theorem peerClear_of_heldClear {r : Nat} (h : heldClear s r = false) :
    s.pair.peerClear.find? (fun x => x.1 = r) = none := by
  unfold heldClear at h
  rw [Bool.or_eq_false_iff] at h
  exact List.find?_eq_none.2 (fun x hx hc => absurd (List.any_eq_true.2 ⟨x, hx, hc⟩) (by rw [h.2]; exact Bool.false_ne_true))

/-- The last sweep of a region ends. -/
theorem sweepFinish_last {r : BitVec 16} (ho : sweepOver s r.toNat = true) (h1 : rgnSweep s r.toNat = 1) :
    Completes (.sweepFinish r) s (fun u => rgnSweep u r.toNat = 0 ∧ rgnEpoch u r.toNat = rgnEpoch s r.toNat ∧
      u.sweeps = s.sweeps.filter (fun x => x.region != r.toNat) ∧ RegsBut [rgnReg r.toNat] s u ∧ u.dram = s.dram) := by
  have hfin : finishSweep s r.toNat = storeRegion
      (setF { s with sweeps := s.sweeps.filter (fun x => x.region != r.toNat) } (rgnReg r.toNat) 3 2 0) r.toNat := if_pos h1
  obtain ⟨hs, he, -, hd, hsw, -, -⟩ :=
    rgn_storeRegion_sweep { s with sweeps := s.sweeps.filter (fun x => x.region != r.toNat) } r.toNat 0
  refine ⟨_, exec_sweepFinish ho (.inl h1), ?_⟩
  rw [hfin]
  exact ⟨hs, he, hsw, regsBut_storeRegion_setF
    { s with sweeps := s.sweeps.filter (fun x => x.region != r.toNat) } r.toNat 3 2 0, hd⟩

/-- The sweep of a region ends that owes another, and no clear waits for the region. -/
theorem sweepFinish_owed {r : BitVec 16} (ho : sweepOver s r.toNat = true) (h2 : rgnSweep s r.toNat = 2)
    (hh : heldClear s r.toNat = false) :
    Completes (.sweepFinish r) s (fun u => rgnSweep u r.toNat = 1 ∧ rgnEpoch u r.toNat = rgnEpoch s r.toNat ∧
      (∀ x ∈ u.sweeps, x.region = r.toNat → x.started = false ∧ x.ptr = 0) ∧
      (∀ k ∈ regionTums s r.toNat, ∃ x ∈ u.sweeps, x.region = r.toNat ∧ x.tum = k) ∧
      RegsBut [rgnReg r.toNat] s u ∧ u.dram = s.dram) := by
  let v : State := { s with sweeps := s.sweeps.filter (fun x => x.region != r.toNat) }
  obtain ⟨hs, he, hm, hd, hsw, hcl, hpair⟩ := rgn_storeRegion_sweep v r.toNat 1
  have hreg := regsBut_storeRegion_setF v r.toNat 3 2 1
  have hfin : finishSweep s r.toNat = oweSweeps (storeRegion (setF v (rgnReg r.toNat) 3 2 1) r.toNat) r.toNat := by
    have hne : rgnSweep v r.toNat ≠ 1 := fun h => absurd (h2.symm.trans h) (by decide)
    have hnone : clearOf (oweSweeps (storeRegion (setF v (rgnReg r.toNat) 3 2 1) r.toNat) r.toNat) r.toNat = none := by
      rw [clearOf, oweSweeps]
      dsimp only
      rw [hcl]
      exact clearOf_of_heldClear hh
    unfold finishSweep
    dsimp only
    rw [if_neg hne, show (oweSweeps (storeRegion (setF v (rgnReg r.toNat) 3 2 1) r.toNat) r.toNat).pair.peerClear.find?
      (fun x => x.1 = r.toNat) = none by rw [oweSweeps]; dsimp only; rw [hpair]; exact peerClear_of_heldClear hh]
    dsimp only
    rw [advanceClear, hnone]
  have hmode : rgnMode (storeRegion (setF v (rgnReg r.toNat) 3 2 1) r.toNat) r.toNat = rgnMode s r.toNat := hm
  refine ⟨_, exec_sweepFinish ho (.inr h2), ?_⟩
  rw [hfin]
  refine ⟨hs, he, fun x hx hxr => ?_, fun k hk => ?_, hreg, hd⟩
  · rw [oweSweeps] at hx
    dsimp only at hx
    rw [hsw, List.mem_append, List.mem_map] at hx
    rcases hx with hx | ⟨k, -, rfl⟩
    · exact absurd hxr (bne_iff_ne.1 (List.mem_filter.1 hx).2)
    · exact ⟨rfl, rfl⟩
  · refine ⟨_, List.mem_append_right _ (List.mem_map_of_mem ?_), rfl, rfl⟩
    rw [regionTums, hmode]
    exact hk

/-- SWEEP_START on a sweep that may start. -/
theorem exec_sweepStart {t : Tum} {r : BitVec 16} {i : Nat} {z : SweepT} (hi : sweepIdx s t r.toNat = some i)
    (hz : s.sweeps[i]? = some z) (hm : maySweep s t z = true) :
    exec (.sweepStart t r) s = .next (wakeTum (modSweep s i (fun z =>
      { z with started := true, startTime := (s.tum t).dram.time })) t) := by
  show execSweepStart t r s = _
  unfold execSweepStart
  rw [hi]
  dsimp only
  rw [hz, Option.any_some, hm]
  rfl

/-- SWEEP_LINE in a gated tumbler. -/
theorem exec_sweepLine_gated {t : Tum} {r : BitVec 16} {i : Nat} {z : SweepT} (hi : sweepIdx s t r.toNat = some i)
    (hz : s.sweeps[i]? = some z) (hst : z.started = true) (hrun : running s = true) (hok : lineOpOk s t = false) :
    exec (.sweepLine t r flips) s = .next (wakeTum s t) := by
  show execSweepLine t r flips s = _
  unfold execSweepLine sweepGo
  rw [hi]
  dsimp only
  rw [hz]
  dsimp only
  rw [hst, hrun, if_neg (by rw [hok]; exact Bool.false_ne_true)]
  rfl

/-- Settles O20: the stale words of a line are those whose bit `staleWords` sets (`sweepWrites_words`); the end of a sweep
writes the SWEEP field of its region alone. -/
theorem regionSweep : Obligations.RegionSweep := by
  intro s t r
  refine ⟨fun i x hi hx hm => exec_sweepStart hi hx hm, ?_, sweepFinish_last, sweepFinish_owed⟩
  intro i x y last flips hi hx hst hrun ht hr hy
  refine ⟨exec_sweepLine_gated hi hx hst hrun, fun hok hb => ?_⟩
  intro l hm
  have he := exec_sweepLine (flips := flips) hi hx hst hrun ht hr hy hok hb hm
  exact ⟨fun hn => sweepLine_words hx hok hn he, fun k hk => sweepLine_slot hx hok hk he⟩

end Sys2Proof.Machine
end

section
/-! PROOF. The initial sweep of a tumbler and the re-initialisation of a group (O21). -/

namespace Sys2Proof.Machine

open Sys2Proof

variable {t r : Nat} {s u v : State}

/-! ## A line of the initial sweep -/

/-- The line of the initial sweep that comes next is stored. -/
def initWrites (s : State) (t : Nat) : State :=
  lineStore s (initAccess s t) 255 (fun _ => sweepFill s t (regionAt s t (s.tum t).mode.sweepPtr))

theorem bit_255 {w : Nat} (hw : w < 8) : bit 255 w = true := by
  rw [show (255 : Nat) = 2 ^ 8 - 1 from rfl, bit, Nat.testBit_two_pow_sub_one]
  exact decide_eq_true hw

/-- Each line of the initial sweep is stored as eight words of the sweep's (R151). -/
theorem initialSweepLine_stores {t : Tum} (hok : initOk s t = true) (hp : (s.tum t).mode.sweepPtr < tumLines s)
    (hm : lineMay s (initAccess s t) = true) :
    let x := (s.tum t).mode.sweepPtr
    let l := placeOf s t x
    wholeSlot s t x = none → Completes (.initialSweepLine t) s (fun u => (u.tum t).mode.sweepPtr = x + 1 ∧
      (∀ w, w < 8 → getWord u t l (lineCol x) w = sweepFill s t (regionAt s t x)) ∧
      LinesBut t (l :: (twinOf s t x l).toList) (lineCol x) s u) := by
  intro x l hn
  have ha : (initAccess s t).tum.val = t := lineAccess_tum s t.isLt x l .sweep true
  have hst : LineStored t s s x l 255 _ 8 (initWrites s t) :=
    lineStored_lineStore (LineKept.refl (LineKeys s t x l) t s) ha rfl rfl hn 255 _
  have hend := ((LineKept.refl (fun _ => False) t (initWrites s t)).lineEnd ha).words
  have hlines := hst.kept.words.trans (hend.mono (fun _ hf => hf.elim))
  have hword (w : Nat) (hw : w < 8) : getWord (lineEnd (initWrites s t) (initAccess s t)) t l (lineCol x) w =
      sweepFill s t (regionAt s t x) := (hend.wordAt_eq id).trans (hst.stored w _ hw (bit_255 hw) (.inl rfl))
  have hexec : exec (.initialSweepLine t) s = .next (count (setMode (lineEnd (initWrites s t) (initAccess s t)) t
      (fun m => { m with sweepPtr := x + 1 })) (cTum t 25) 1) := by
    show execInitialSweepLine t s = _
    unfold execInitialSweepLine
    rw [hok, decide_eq_true hp, hm]
    rfl
  generalize lineEnd (initWrites s t) (initAccess s t) = v at hlines hword hexec
  have hdram : (count (setMode v t (fun m => { m with sweepPtr := x + 1 })) (cTum t 25) 1).dram = v.dram := by
    rw [count_dram]
    rfl
  refine ⟨_, hexec, by rw [tum_count, setMode, tum_modTum_same], fun w hw => ?_,
    linesBut_of_lineKeys (hlines.trans (wordsBut_of_dram_eq _ hdram))⟩
  exact (wordAt_of_dram_eq hdram _).trans (hword w hw)

/-! ## Regions that become usable (R151) -/

/-- Region `r` becomes (0b01, 0b00). -/
def releaseRegion (s : State) (r : Nat) : State := storeRegion (setF (setF s (rgnReg r) 1 0 1) (rgnReg r) 3 2 0) r

theorem releaseRegion_eq (s : State) (r : Nat) :
    ∃ c m k, releaseRegion s r = { s with csr := c, mram := m, counts := k } := by
  obtain ⟨c, hc⟩ := setF_eq s (rgnReg r) 1 0 1
  obtain ⟨c', hc'⟩ := setF_eq { s with csr := c } (rgnReg r) 3 2 0
  obtain ⟨m, k, h⟩ := storeRegion_eq { s with csr := c' } r
  exact ⟨c', m, k, by rw [releaseRegion, hc, hc', h]⟩

theorem rd_storeRegion (s : State) (r o : Nat) : rd (storeRegion s r) o = rd s o := by
  obtain ⟨m, k, h⟩ := storeRegion_eq s r
  rw [h]
  rfl

theorem rd_releaseRegion_other (s : State) {r o : Nat} (h : o ≠ rgnReg r) : rd (releaseRegion s r) o = rd s o := by
  rw [releaseRegion, rd_storeRegion, rd_setF_other _ _ _ _ h, rd_setF_other _ _ _ _ h]

theorem fld_storeRegion (s : State) (r o hi lo : Nat) : fld (storeRegion s r) o hi lo = fld s o hi lo := by
  rw [fld, rd_storeRegion, fld]

/-- Region `r` is usable with EPOCH 0b01. -/
def Usable (r : Nat) (s : State) : Prop := rgnEpoch s r = 1 ∧ rgnSweep s r = 0

theorem usable_releaseRegion (s : State) (r : Nat) : Usable r (releaseRegion s r) := by
  refine ⟨?_, ?_⟩
  · rw [rgnEpoch, releaseRegion, fld_storeRegion, fld_setF_field _ _ _ _ _ _ _ (by decide) (by decide) (.inl (by decide))
      (by decide), fld_setF_same _ _ _ _ _ (by decide) (by decide)]
    rfl
  · rw [rgnSweep, releaseRegion, fld_storeRegion, fld_setF_same _ _ _ _ _ (by decide) (by decide)]
    rfl

theorem usable_congr (h : rd u (rgnReg r) = rd s (rgnReg r)) (hs : Usable r s) : Usable r u := by
  unfold Usable rgnEpoch rgnSweep fld
  rw [h]
  exact hs

theorem rgnReg_inj {a b : Nat} (h : rgnReg a = rgnReg b) : a = b := by
  unfold rgnReg at h
  omega

/-- What holds of the state `u` when the regions below `i` that have come up have been released from `s` on. -/
structure RegionsReleased (s : State) (i : Nat) (u : State) : Prop where
  part : u.part = s.part
  tums : u.tums = s.tums
  reinits : u.reinits = s.reinits
  dram : u.dram = s.dram
  regs : RegsOutside (fun o => ∃ r, r < i ∧ rgnSweep s r = 3 ∧ o = rgnReg r) s u
  usable : ∀ r, r < i → rgnSweep s r = 3 → (∀ x ∈ s.reinits, r ∉ x.regions) → rgnInitDone s r = true → Usable r u

theorem rgnInitDone_congr (ht : u.tums = s.tums) (h : rd u (rgnReg r) = rd s (rgnReg r)) :
    rgnInitDone u r = rgnInitDone s r := by
  have htum (k : Nat) : u.tum k = s.tum k := by rw [State.tum, ht, State.tum]
  simp only [rgnInitDone, regionTums, rgnMode, fld, h, tstate, htum]
  rfl

theorem RegionsReleased.next {i : Nat} (h : RegionsReleased s i u) : RegionsReleased s (i + 1)
    (if rgnSweep u i == 3 && !u.reinits.any (fun x => x.regions.contains i) && rgnInitDone u i then
      releaseRegion u i else u) := by
  have hrd : rd u (rgnReg i) = rd s (rgnReg i) := h.regs _ (by
    rintro ⟨r, hr, -, he⟩
    exact absurd (rgnReg_inj he) (by omega))
  have hsw : rgnSweep u i = rgnSweep s i := by rw [rgnSweep, fld, hrd, rgnSweep, fld]
  have hregs : RegsOutside (fun o => ∃ r, r < i + 1 ∧ rgnSweep s r = 3 ∧ o = rgnReg r) s u :=
    fun o ho => h.regs o (fun ⟨r, hr, hx⟩ => ho ⟨r, Nat.lt_succ_of_lt hr, hx⟩)
  split
  · next hc =>
    simp only [Bool.and_eq_true, beq_iff_eq] at hc
    obtain ⟨⟨h3, -⟩, -⟩ := hc
    obtain ⟨c, m, k, he⟩ := releaseRegion_eq u i
    refine ⟨?_, ?_, ?_, ?_, fun o ho => ?_, fun r hr h3' hn hd => ?_⟩
    · rw [he]; exact h.part
    · rw [he]; exact h.tums
    · rw [he]; exact h.reinits
    · rw [he]; exact h.dram
    · rw [rd_releaseRegion_other u (fun hoi => ho ⟨i, Nat.lt_succ_self i, hsw ▸ h3, hoi⟩)]
      exact hregs o ho
    · by_cases hri : r = i
      · rw [hri]
        exact usable_releaseRegion u i
      · exact usable_congr (rd_releaseRegion_other u (fun hx => hri (rgnReg_inj hx))) (h.usable r (by omega) h3' hn hd)
  · next hc =>
    refine ⟨h.part, h.tums, h.reinits, h.dram, hregs, fun r hr h3 hn hd => ?_⟩
    by_cases hri : r = i
    · subst hri
      refine absurd ?_ hc
      have hany : s.reinits.any (fun x => x.regions.contains r) = false :=
        List.any_eq_false.2 (fun x hx => by simpa using hn x hx)
      rw [hsw, h3, h.reinits, hany, rgnInitDone_congr h.tums hrd, hd]
      rfl
    · exact h.usable r (by omega) h3 hn hd

theorem regionsReleased_releaseRegions (s : State) : RegionsReleased s s.part.regions (releaseRegions s) := by
  refine foldUpTo_rule (P := RegionsReleased s) ⟨rfl, rfl, rfl, rfl, fun _ _ => rfl, fun r hr => ?_⟩ (fun i u _ hu => hu.next)
  exact absurd hr (Nat.not_lt_zero r)

/-! ## Lines that are zeroed (log 66) -/

/-- From `s` to `u`, the registers, the re-initialisations and the mode of every tumbler stay. -/
structure ModesKept (s u : State) : Prop where
  part : u.part = s.part
  csr : u.csr = s.csr
  reinits : u.reinits = s.reinits
  mode : ∀ k, (u.tum k).mode = (s.tum k).mode

namespace ModesKept

theorem modTum (h : ModesKept s u) (k : Nat) {f : Tumbler → Tumbler} (hf : ∀ x, (f x).mode = x.mode) :
    ModesKept s (u.modTum k f) where
  part := h.part
  csr := h.csr
  reinits := h.reinits
  mode j := by
    by_cases hj : j = k
    · rw [hj, tum_modTum_same, hf, h.mode]
    · rw [tum_modTum_other _ _ hj, h.mode]

theorem count (h : ModesKept s u) (slot n : Nat) : ModesKept s (count u slot n) where
  part := (count_part ..).trans h.part
  csr := (count_csr ..).trans h.csr
  reinits := (count_reinits ..).trans h.reinits
  mode k := by rw [tum_count, h.mode]

theorem chargeLines (h : ModesKept s u) (t n : Nat) : ModesKept s (chargeLines u t n) :=
  ⟨h.part, h.csr, h.reinits, h.mode⟩

theorem zeroLines (s : State) (p : Nat → Nat → Bool) : ModesKept s (zeroLines s p) := by
  unfold Machine.zeroLines
  exact foldUpTo_rule (P := fun _ u => ModesKept s u) ⟨rfl, rfl, rfl, fun _ => rfl⟩
    (fun i u _ hu => hu.modTum i (fun _ => rfl))

end ModesKept

/-- The rest of an initial sweep leaves the registers, and whether tumblers have been online. -/
theorem initRest_keeps (s : State) (t : Nat) : (initRest s t).part = s.part ∧ (initRest s t).csr = s.csr ∧
    (initRest s t).reinits = s.reinits ∧ ∀ k, ((initRest s t).tum k).mode.everOnline = (s.tum k).mode.everOnline ∧
      tstate (initRest s t) k = tstate s k := by
  unfold initRest
  dsimp only
  split
  · exact ⟨rfl, rfl, rfl, fun _ => ⟨rfl, rfl⟩⟩
  · have hz := ((ModesKept.zeroLines s (fun u y => u == t && decide ((s.tum t).mode.sweepPtr ≤ y))).chargeLines t
      (tumLines s - (s.tum t).mode.sweepPtr)).count (cTum t 25) (tumLines s - (s.tum t).mode.sweepPtr)
    generalize count _ (cTum t 25) (tumLines s - (s.tum t).mode.sweepPtr) = v at hz ⊢
    refine ⟨hz.part, hz.csr, hz.reinits, fun k => ?_⟩
    unfold tstate setMode
    by_cases hk : k = t
    · rw [hk, tum_modTum_same]
      dsimp only
      rw [hz.mode]
      exact ⟨rfl, rfl⟩
    · rw [tum_modTum_other _ _ hk, hz.mode]
      exact ⟨rfl, rfl⟩

/-! ## The end of an initial sweep -/

/-- The tumbler is online, before regions are released. -/
def initOnline (s : State) (t : Nat) : State :=
  let s := { s with sweeps := s.sweeps.map (fun x =>
    if x.tum = t then { x with finished := x.finished || !x.late, late := false } else x) }
  setMode s t (fun m => { m with
    state := .online, everOnline := true, reinitPoison := false, cleared := [], sweepPtr := 0 })

theorem initFinish_eq (s : State) (t : Nat) : initFinish s t = releaseRegions (initOnline s t) := rfl

theorem initialSweepFinish_ends {t : Tum} (ho : initOver s t = true) :
    Completes (.initialSweepFinish t) s (fun u => tstate u t = .online ∧ (u.tum t).mode.everOnline = true ∧
      ((s.tum t).mode.sweepPtr = tumLines s → u.dram = s.dram) ∧
      (∀ r, r < s.part.regions → rgnSweep s r = 3 → (∀ x ∈ s.reinits, r ∉ x.regions) →
        (∀ k ∈ regionTums s r, k = t.val ∨ (s.tum k).mode.everOnline = true ∨ tstate s k = .latchOut) →
        rgnEpoch u r = 1 ∧ rgnSweep u r = 0) ∧
      RegsOutside (fun o => ∃ r, r < s.part.regions ∧ rgnSweep s r = 3 ∧ o = rgnReg r) s u) := by
  obtain ⟨hpart, hcsr, hre, hmode⟩ := initRest_keeps s t
  have hdram : (s.tum t).mode.sweepPtr = tumLines s → (initRest s t).dram = s.dram := fun h => by
    rw [initRest, if_pos h]
  have hexec : exec (.initialSweepFinish t) s = .next (releaseRegions (initOnline (initRest s t) t)) := by
    show execInitialSweepFinish t s = _
    rw [execInitialSweepFinish, ho, when_true, initFinish_eq]
  generalize initRest s t = v at hpart hcsr hre hmode hdram hexec
  have hrel := regionsReleased_releaseRegions (initOnline v t)
  have hrd (o : Nat) : rd (initOnline v t) o = rd s o := rd_of_csr_eq hcsr hpart o
  have hsweep (r : Nat) : rgnSweep (initOnline v t) r = rgnSweep s r := by rw [rgnSweep, fld, hrd, rgnSweep, fld]
  have hsame : (initOnline v t).tum t = { v.tum t with mode := { (v.tum t).mode with
      state := .online, everOnline := true, reinitPoison := false, cleared := [], sweepPtr := 0 } } := tum_modTum_same ..
  have hother {k : Nat} (hk : k ≠ t) : (initOnline v t).tum k = v.tum k := tum_modTum_other _ _ hk
  have hfinal : (releaseRegions (initOnline v t)).tum t = (initOnline v t).tum t := by
    rw [State.tum, hrel.tums, State.tum]
  refine ⟨_, hexec, ?_, ?_, fun hp => hrel.dram.trans (hdram hp), fun r hr h3 hn hk => ?_, fun o ho => ?_⟩
  · rw [tstate, hfinal, hsame]
  · rw [hfinal, hsame]
  · refine hrel.usable r (by rw [show (initOnline v t).part = s.part from hpart]; exact hr) ((hsweep r).trans h3)
      (by rw [show (initOnline v t).reinits = s.reinits from hre]; exact hn) (List.all_eq_true.2 (fun k hkm => ?_))
    have hmem : k ∈ regionTums s r := by
      rw [regionTums, rgnMode, fld, hrd] at hkm
      exact hkm
    by_cases hkt : k = t
    · rw [hkt, hsame]
      rfl
    · obtain ⟨hever, hstate⟩ := hmode k
      unfold tstate at hstate
      rw [tstate, hother hkt, hever, hstate]
      rcases hk k hmem with rfl | he | hl
      · exact absurd rfl hkt
      · rw [he]
        rfl
      · unfold tstate at hl
        rw [hl]
        exact Bool.or_true _
  · rw [hrel.regs o (fun ⟨r, hr, h3, he⟩ => ho ⟨r, hpart ▸ hr, (hsweep r) ▸ h3, he⟩), hrd]

/-! ## Re-initialisation of a group (R152) -/

/-- What each step of a loop over a list brings about, and every later step keeps, holds after it. -/
theorem foldl_establishes {β : Type} {Q : β → State → Prop} {f : State → β → State} (hset : ∀ s b, Q b (f s b))
    (hkeep : ∀ s b c, Q c s → Q c (f s b)) (l : List β) (s : State) : ∀ b ∈ l, Q b (l.foldl f s) := by
  have hlater (c : β) (l : List β) (s : State) (h : Q c s) : Q c (l.foldl f s) := by
    induction l generalizing s with
    | nil => exact h
    | cons b r ih => exact ih _ (hkeep s b c h)
  induction l generalizing s with
  | nil => exact fun b hb => absurd hb List.not_mem_nil
  | cons a r ih =>
    intro b hb
    rcases List.mem_cons.1 hb with rfl | hb
    · exact hlater b r _ (hset s b)
    · exact ih _ b hb

/-- A packet of the pair changes the ports and the pair alone. -/
theorem sendPair_eq (s : State) (p ty : Nat) (k : PairPkt) :
    ∃ x y, sendPair s p ty k = { s with ports := x, pair := y } := by
  unfold sendPair
  split
  · exact ⟨_, _, rfl⟩
  · exact ⟨_, _, rfl⟩

theorem sendHeld_eq (s : State) (h : HeldPkt) :
    ∃ x y k, sendHeld s h = ({ s with ports := x, pair := y }, k) := by
  let n := tget zero s.pair.txSeq (seqPort s h.region)
  let q : Pair := { s.pair with txSeq := tput zero s.pair.txSeq (seqPort s h.region) (n + 1) }
  obtain ⟨x, y, he⟩ := sendPair_eq { s with pair := q } (seqPort s h.region) h.ty
    { h.pkt with pgen := s.pair.pgen, pseq := n }
  exact ⟨x, y, _, congrArg (fun u => (u, _)) he⟩

theorem sendCtrl_eq (s : State) (sub r : Nat) (body : List (BitVec 16)) :
    ∃ x y, sendCtrl s sub r body = { s with ports := x, pair := y } := by
  unfold sendCtrl sendSeq
  extract_lets h
  have hsent : ∃ x y k, (if seqNow s s.pair.held r then sendHeld s h else (s, h)) =
      ({ s with ports := x, pair := y }, k) := by
    split
    · exact sendHeld_eq s h
    · exact ⟨_, _, _, rfl⟩
  obtain ⟨x, y, k, hk⟩ := hsent
  rw [hk]
  exact ⟨_, _, rfl⟩

theorem modClear_eq (s : State) (r : Nat) (f : ClearCmd → ClearCmd) : ∃ x, modClear s r f = { s with clears := x } := by
  unfold modClear
  split
  · exact ⟨_, rfl⟩
  · exact ⟨_, rfl⟩

/-- Region `r` of a re-initialised group is done. -/
def reinitRegion (s : State) (r : Nat) : State :=
  let s := releaseRegion s r
  let peer := (clearOf s r).any (fun y => y.cmd.isNone)
  let s := modClear s r (fun y => { y with held := y.held.erase r })
  if peer then sendCtrl s 1 r [] else s

theorem reinitRegion_eq (s : State) (r : Nat) :
    ∃ x y z, reinitRegion s r = { releaseRegion s r with clears := x, ports := y, pair := z } := by
  unfold reinitRegion
  dsimp only
  obtain ⟨x, h⟩ := modClear_eq (releaseRegion s r) r (fun y => { y with held := y.held.erase r })
  rw [h]
  split
  · obtain ⟨y, z, h'⟩ := sendCtrl_eq { releaseRegion s r with clears := x } 1 r []
    exact ⟨x, y, z, h'⟩
  · exact ⟨x, _, _, rfl⟩

theorem rd_reinitRegion (s : State) (r o : Nat) : rd (reinitRegion s r) o = rd (releaseRegion s r) o := by
  obtain ⟨x, y, z, h⟩ := reinitRegion_eq s r
  rw [h]
  rfl

theorem reinits_reinitRegion (s : State) (r : Nat) : (reinitRegion s r).reinits = s.reinits := by
  obtain ⟨x, y, z, h⟩ := reinitRegion_eq s r
  obtain ⟨c, m, k, h'⟩ := releaseRegion_eq s r
  rw [h, h']

theorem usable_reinitRegion (s : State) (r : Nat) : Usable r (reinitRegion s r) :=
  usable_congr (rd_reinitRegion s r _) (usable_releaseRegion s r)

theorem usable_of_reinitRegion (s : State) (a b : Nat) (h : Usable b s) : Usable b (reinitRegion s a) := by
  by_cases hb : b = a
  · rw [hb]
    exact usable_reinitRegion s a
  · refine usable_congr ?_ h
    rw [rd_reinitRegion, rd_releaseRegion_other s (fun he => hb (rgnReg_inj he))]

/-- An answer leaves the registers below the rings' and the re-initialisations. -/
theorem answerOpt_keeps (s : State) (c : Option Cmd) (st : BitVec 16) : (answerOpt s c st).reinits = s.reinits ∧
    ∀ o, o < 0x02B81000 → rd (answerOpt s c st) o = rd s o := by
  cases c with
  | none => exact ⟨rfl, fun _ _ => rfl⟩
  | some c =>
    obtain ⟨a, p, g, m, k, he⟩ := reply_eq s c st 0 []
    exact ⟨by rw [answerOpt, answer, he], fun o ho => rd_reply_of_lt s c st 0 [] ho⟩

/-- Answers to clears leave the registers below the rings' and the re-initialisations. -/
theorem settleClears_keeps (s : State) : (settleClears s).reinits = s.reinits ∧
    ∀ o, o < 0x02B81000 → rd (settleClears s) o = rd s o := by
  unfold settleClears
  have hfold (l : List ClearCmd) (u : State) (h : u.reinits = s.reinits ∧ ∀ o, o < 0x02B81000 → rd u o = rd s o) :
      let v := l.foldl (fun s x => answerOpt s x.cmd (if x.refused then rcRegionBusy else rcSuccess)) u
      v.reinits = s.reinits ∧ ∀ o, o < 0x02B81000 → rd v o = rd s o := by
    induction l generalizing u with
    | nil => exact h
    | cons x l ih =>
      obtain ⟨hre, hrd⟩ := answerOpt_keeps u x.cmd (if x.refused then rcRegionBusy else rcSuccess)
      exact ih _ ⟨hre.trans h.1, fun o ho => (hrd o ho).trans (h.2 o ho)⟩
  exact hfold _ _ ⟨rfl, fun _ _ => rfl⟩

/-- The group's lines are rewritten and charged. -/
def reinitLines (s : State) (x : Reinit) : State :=
  foldUpTo 64 (fun s t => count (chargeLines s t (4096 * x.regions.length)) (cTum t 25) (4096 * x.regions.length))
    (zeroLines s (inReinit s x))

theorem finishReinit_eq (s : State) (x : Reinit) : finishReinit s x = settleClears
    (x.regions.foldl reinitRegion
      { reinitLines s x with reinits := (reinitLines s x).reinits.filter (fun y => y.group != x.group) }) := rfl

theorem modesKept_reinitLines (s : State) (x : Reinit) : ModesKept s (reinitLines s x) :=
  foldUpTo_rule (P := fun _ u => ModesKept s u) (ModesKept.zeroLines s _)
    (fun i _ _ hu => (hu.chargeLines i _).count _ _)

theorem reinits_foldl_reinitRegion (l : List Nat) (s : State) : (l.foldl reinitRegion s).reinits = s.reinits := by
  induction l generalizing s with
  | nil => rfl
  | cons r l ih => exact (ih _).trans (reinits_reinitRegion s r)

theorem finishReinit_frees (s : State) (x : Reinit) (hx : ∀ r ∈ x.regions, r < 65536) :
    (finishReinit s x).reinits = s.reinits.filter (fun y => y.group != x.group) ∧
      ∀ r ∈ x.regions, Usable r (finishReinit s x) := by
  have hlines := modesKept_reinitLines s x
  rw [finishReinit_eq]
  generalize reinitLines s x = v at hlines
  obtain ⟨hre, hrd⟩ := settleClears_keeps (x.regions.foldl reinitRegion
    { v with reinits := v.reinits.filter (fun y => y.group != x.group) })
  refine ⟨?_, fun r hr => ?_⟩
  · rw [hre, reinits_foldl_reinitRegion]
    dsimp only
    rw [hlines.reinits]
  · have hlt : rgnReg r < 0x02B81000 := by
      have := hx r hr
      unfold rgnReg
      omega
    exact usable_congr (hrd _ hlt) (foldl_establishes usable_reinitRegion usable_of_reinitRegion x.regions _ r hr)

/-- Settles O21: lines by `lineStored_lineStore`, regions by `regionsReleased_releaseRegions` and `finishReinit_frees`. -/
theorem initialSweepAndReinitialisation : Obligations.InitialSweepAndReinitialisation := by
  intro s t
  refine ⟨initialSweepLine_stores, initialSweepFinish_ends, fun g x hf hr hx => ?_⟩
  have hexec : exec (.groupReinitDone g) s = .next (finishReinit s x) := by
    show execGroupReinitDone g s = _
    unfold execGroupReinitDone
    rw [hf]
    dsimp only
    rw [hr]
    rfl
  exact ⟨_, hexec, finishReinit_frees s x hx⟩

end Sys2Proof.Machine
end

section
/-! PROOF. A patrol step (O22). -/

namespace Sys2Proof.Machine

open Sys2Proof

variable {p : Nat → Prop} {t x : Nat} {s u : State} {l : Loc}

theorem LineKept.lineRead (h : LineKept p t s u) (ht : t < 64) {a : Access} (ha : a.tum.val = t)
    (hk : ∀ k, LineKeys s t a.line a.loc k → p k) (e : Nat) (flips : List CodeWord) :
    LineKept p t s (lineRead u a e flips).1 := by
  cases hw : wholeSlot u t a.line with
  | some k =>
    rw [lineRead_slot ha hw]
    exact h
  | none =>
    have hread : Machine.lineRead u a e flips = decodeRead (Machine.colNext (Machine.openLine u a a.loc) a a.loc false) t
        a.loc a.line e (lineWords (Machine.colNext (Machine.openLine u a a.loc) a a.loc false) t a.loc a.line) flips
        (fun _ => true) := by
      unfold Machine.lineRead
      simp only [ha, hw]
      rfl
    rw [hread]
    exact (decodeRead_line ((h.openLine ha a.loc).colNext ha a.loc false) ht hk e _ flips).kept

/-- Any word of the leaf arrays. -/
def AnyWord (_ : Nat) : Prop := True

theorem lineKept_scrubLine (h : LineKept AnyWord t s u) (ht : t < 64) (x : Nat) (l : Loc) (flips : List CodeWord) :
    LineKept AnyWord t s (scrubLine u t x l flips) := by
  have ha := lineAccess_tum u ht x l .scrub false
  exact (((h.lineEnter _).lineRead ht ha (fun _ _ => trivial) _ flips).writeBacks ha _).count _ _

theorem lineKept_scrubLines16 (h : LineKept AnyWord t s u) (ht : t < 64) (n k : Nat) (f : Nat → Loc)
    (flips : List CodeWord) : LineKept AnyWord t s (scrubLines16 u t n k f flips) := by
  unfold scrubLines16
  refine LineKept.lineEnd ?_ (lineAccess_tum _ ht _ _ .scrub false)
  exact foldUpTo_rule (P := fun _ v => LineKept AnyWord t s v) h (fun i v _ hv => lineKept_scrubLine hv ht _ _ _)

theorem lineKept_scrubTarget (h : LineKept AnyWord t s u) (ht : t < 64) (n k : Nat) (flips : List CodeWord) :
    LineKept AnyWord t s (scrubTarget u t n k flips) := by
  unfold scrubTarget
  split
  · exact (lineKept_scrubLines16 h ht _ k _ _).ite h
  · exact h

/-- The rows of a patrol step, in the slice and in a swap target. -/
def rowScrubbed (s : State) (t l k : Nat) (flips : List CodeWord) : State :=
  scrubTarget (scrubLines16 s t (logicalOf s t l) k (placeOn s t l) flips) t l k flips

theorem lineKept_rowScrubbed (s : State) (ht : t < 64) (l k : Nat) (flips : List CodeWord) :
    LineKept AnyWord t s (rowScrubbed s t l k flips) :=
  lineKept_scrubTarget (lineKept_scrubLines16 (LineKept.refl AnyWord t s) ht _ k _ flips) ht l k flips

/-- The scrub pointer is no register of a line operation. -/
theorem scrubReg_not_mem (t : Nat) : tumReg t 0x44 ∉ lineRegs t := by
  unfold lineRegs tumReg pairReg
  simp only [List.mem_cons, List.not_mem_nil, or_false]
  omega

/-- The role of a slice is no register of a line operation. -/
theorem roleReg_not_mem (ht : t < 64) {n : Nat} (hn : n < 34) : lfReg n (0x100 + 4 * t) ∉ lineRegs t := by
  unfold lineRegs tumReg pairReg lfReg
  simp only [List.mem_cons, List.not_mem_nil, or_false]
  omega

theorem leaves_le (q : Part) : q.leaves ≤ 34 := by
  cases q <;> decide

theorem activeSlices_congr (ht : t < 64) (hp : u.part = s.part) (h : RegsBut (lineRegs t) s u) :
    activeSlices u t = activeSlices s t := by
  unfold activeSlices
  rw [hp]
  refine List.filter_congr (fun n hn => ?_)
  have hlt := (List.mem_range.1 hn).trans_le (leaves_le s.part)
  rw [roleOf, fld, h _ (roleReg_not_mem ht hlt), roleOf, fld]

theorem scrubRow_pointer {s u : State} (ht : t < 64) {k n : Nat} {flips : List CodeWord} (hu : scrubRow s t n k flips = u) :
    let p := fld s (tumReg t 0x44) 23 0
    (p + 1 < (activeSlices s t).length * sliceRows → fld u (tumReg t 0x44) 23 0 = (p + 1) % 2 ^ 24 ∧
      fld u (tumReg t 0x44) 31 24 = fld s (tumReg t 0x44) 31 24) ∧
    ((activeSlices s t).length * sliceRows ≤ p + 1 → fld u (tumReg t 0x44) 23 0 = 0 ∧
      fld u (tumReg t 0x44) 31 24 = (fld s (tumReg t 0x44) 31 24 + 1) % 256) ∧
    u.mram = s.mram := by
  intro p
  unfold scrubRow at hu
  extract_lets v1 v o n' at hu
  have hrow : LineKept AnyWord t s v := lineKept_rowScrubbed s ht n k flips
  clear_value v
  have hfld (hi lo : Nat) : fld v o hi lo = fld s o hi lo := by
    rw [fld, hrow.regs o (scrubReg_not_mem t), fld]
  have hn : n' = p + 1 := congrArg (· + 1) (hfld 23 0)
  rw [hn, activeSlices_congr ht hrow.part hrow.regs, hfld 31 24] at hu
  have hmram : u.mram = v.mram := by
    rw [← hu, apply_ite State.mram, setF_mram, setF_mram, setF_mram, ite_self]
  refine ⟨fun hp => ?_, fun hp => ?_, hmram.trans hrow.mram⟩
  · rw [if_neg (Nat.not_le.2 hp)] at hu
    rw [← hu, fld_setF_same _ _ _ _ _ (by decide) (by decide),
      fld_setF_field _ _ _ _ _ _ _ (by decide) (by decide) (.inr (by decide)) (by decide), hfld,
      show 23 - 0 + 1 = 24 from rfl]
    exact ⟨rfl, rfl⟩
  · rw [if_pos hp] at hu
    rw [← hu, fld_setF_field _ _ _ _ _ _ _ (by decide) (by decide) (.inl (by decide)) (by decide),
      fld_setF_same _ _ _ _ _ (by decide) (by decide), fld_setF_same _ _ _ _ _ (by decide) (by decide), Nat.zero_mod,
      show 2 ^ (31 - 24 + 1) = 256 from rfl]
    exact ⟨rfl, rfl⟩

/-- Settles O22: the lines of a row leave the pointer and the roles of the slices (`lineKept_rowScrubbed`). -/
theorem patrolScrubAdvances : Obligations.PatrolScrubAdvances := by
  intro s t flips l k p hat hflag hrun
  have hexec : exec (.patrolScrubRow t flips) s =
      .next (if lineOpOk s t then when (scrubMay s t l k) s (scrubRow s t l k flips) else wakeTum s t) := by
    show execPatrolScrubRow t flips s = _
    unfold execPatrolScrubRow
    rw [show scrubAt s t (fld s (tumReg t 0x44) 23 0) = some (l, k) from hat]
    dsimp only
    rw [hflag, hrun]
    rfl
  refine ⟨fun hok => ?_, fun hok hm => ?_⟩
  · rw [hexec, hok]
    rfl
  · rw [hok, hm, when_true, if_pos rfl] at hexec
    exact ⟨_, hexec, scrubRow_pointer t.isLt rfl⟩

end Sys2Proof.Machine
end

section
/-! PROOF. The remap of a row: the command, the copy of the row, and the end of the copy (O23). -/

namespace Sys2Proof.Machine

open Sys2Proof

variable {p : Nat → Prop} {t x : Nat} {s u : State} {l : Loc}

/-! ## REMAP_ROW -/

/-- A tumbler that is woken is all that changes. -/
theorem wakeTum_eq (s : State) (t : Nat) : ∃ y, wakeTum s t = { s with tums := y } := by
  unfold wakeTum wakeFor
  dsimp only
  split
  · exact ⟨_, rfl⟩
  · split
    · exact ⟨_, rfl⟩
    · split
      · exact ⟨_, rfl⟩
      · split
        · exact ⟨_, rfl⟩
        · exact ⟨_, rfl⟩

theorem rd_wakeTum (s : State) (t o : Nat) : rd (wakeTum s t) o = rd s o := by
  obtain ⟨y, h⟩ := wakeTum_eq s t
  rw [h]
  rfl

theorem rmpLo_ne_rmpHi (i : Nat) : rmpLo i ≠ rmpHi i := by
  unfold rmpLo rmpHi
  omega

theorem putEntry_eq (s : State) (i t l g b row spare st : Nat) :
    ∃ c, putEntry s i t l g b row spare st = { s with csr := c } := by
  obtain ⟨c, hc⟩ := wr_eq s (rmpLo i) (BitVec.ofNat 32 (l * 2 ^ 19 + g * 2 ^ 16 + b * 2 ^ 14 + row))
  obtain ⟨c', hc'⟩ := wr_eq { s with csr := c } (rmpHi i)
    (BitVec.ofNat 32 (2 ^ 31 + st * 2 ^ 12 + spare * 2 ^ 6 + t))
  exact ⟨c', by rw [putEntry, hc, hc']⟩

theorem rd_putEntry_lo (s : State) (i t l g b row spare st : Nat) : rd (putEntry s i t l g b row spare st) (rmpLo i) =
    BitVec.ofNat 32 (l * 2 ^ 19 + g * 2 ^ 16 + b * 2 ^ 14 + row) := by
  rw [putEntry, rd_wr_other _ _ (rmpLo_ne_rmpHi i), rd_wr_same]

theorem rd_putEntry_hi (s : State) (i t l g b row spare st : Nat) : rd (putEntry s i t l g b row spare st) (rmpHi i) =
    BitVec.ofNat 32 (2 ^ 31 + st * 2 ^ 12 + spare * 2 ^ 6 + t) := by
  rw [putEntry, rd_wr_same]

/-- The fields of an entry by its words. -/
theorem fields_of_entry {i t l g b row spare st : Nat} (ht : t < 64) (hl : l < 64) (hg : g < 8) (hb : b < 4)
    (hr : row < 16384) (hs : spare < 16) (hst : st < 4)
    (hlo : rd u (rmpLo i) = BitVec.ofNat 32 (l * 2 ^ 19 + g * 2 ^ 16 + b * 2 ^ 14 + row))
    (hhi : rd u (rmpHi i) = BitVec.ofNat 32 (2 ^ 31 + st * 2 ^ 12 + spare * 2 ^ 6 + t)) :
    rmpIn u t l g b i = true ∧ rmpRow u i = row ∧ rmpSpare u i = spare ∧ rmpState u i = st ∧ flag u (rmpHi i) 31 = true := by
  have hlo' : (rd u (rmpLo i)).toNat = l * 2 ^ 19 + g * 2 ^ 16 + b * 2 ^ 14 + row := by
    rw [hlo, BitVec.toNat_ofNat]
    omega
  have hhi' : (rd u (rmpHi i)).toNat = 2 ^ 31 + st * 2 ^ 12 + spare * 2 ^ 6 + t := by
    rw [hhi, BitVec.toNat_ofNat]
    omega
  refine ⟨?_, ?_, ?_, ?_, ?_⟩
  · simp only [rmpIn, rmpTum, rmpLeaf, fld, hlo', hhi', bits, Bool.and_eq_true, beq_iff_eq]
    omega
  · simp only [rmpRow, fld, hlo', bits]
    omega
  · simp only [rmpSpare, fld, hhi', bits]
    omega
  · simp only [rmpState, fld, hhi', bits]
    omega
  · rw [flag, hhi', bit, Nat.testBit_eq_decide_div_mod_eq]
    exact decide_eq_true (by omega)

theorem freeSpare_lt {f t g b l : Nat} (h : freeSpare s t l g b = some f) : f < 16 := by
  unfold freeSpare at h
  exact List.mem_range.1 (List.mem_of_find?_eq_some h)

/-- A REMAP_ROW that passes its checks fills the entry. -/
theorem exec_remapRow {c : Cmd} {e f : Nat} (h : ready s c 0x0202 = true) (hl : rrLeaf c < s.part.leaves)
    (hsw : inSwap s (rrTum c) (rrLeaf c) = false) (hro : roleOf s (rrTum c) (rrLeaf c) = 0)
    (hse : serves s (rrTum c) = true)
    (hfind : remapFind s (rrTum c) (rrLeaf c) (rrGroup c) (rrBank c) (rrRow c) 1 = none) (he : freeEntry s = some e)
    (hf : freeSpare s (rrTum c) (rrLeaf c) (rrGroup c) (rrBank c) = some f) (hm : s.mramFenced = false) :
    exec (.remapRow c) s = .next (wakeTum (putEntry (begin s c) e (rrTum c) (rrLeaf c) (rrGroup c) (rrBank c) (rrRow c) f 1)
      (rrTum c)) := by
  show execRemapRow c s = _
  unfold execRemapRow
  rw [runCmd_of_ready h]
  dsimp only
  rw [he, hf, hfind]
  refine congrArg Host.Outcome.next (orFail_of_passes ?_ s _ c)
  exact passes_cons (decide_eq_false (Nat.not_le.2 hl)) _ (passes_cons hsw _ (passes_cons (by rw [hro]; rfl) _
    (passes_cons (by rw [hse]; rfl) _ (passes_cons rfl _ (passes_cons rfl _ (passes_cons rfl _ (passes_cons hm _
      (fun _ hn => absurd hn List.not_mem_nil))))))))

theorem remapRow_fills {c : Cmd} {e f : Nat} (h : ready s c 0x0202 = true) (hl : rrLeaf c < s.part.leaves)
    (hsw : inSwap s (rrTum c) (rrLeaf c) = false) (hro : roleOf s (rrTum c) (rrLeaf c) = 0)
    (hse : serves s (rrTum c) = true)
    (hfind : remapFind s (rrTum c) (rrLeaf c) (rrGroup c) (rrBank c) (rrRow c) 1 = none) (he : freeEntry s = some e)
    (hf : freeSpare s (rrTum c) (rrLeaf c) (rrGroup c) (rrBank c) = some f) (hm : s.mramFenced = false) :
    Completes (.remapRow c) s (fun u => c ∈ u.cmds.begun ∧ u.cmds.taken = s.cmds.taken ∧
      rmpIn u (rrTum c) (rrLeaf c) (rrGroup c) (rrBank c) e = true ∧ rmpRow u e = rrRow c ∧ rmpSpare u e = f ∧
      rmpState u e = 1 ∧ flag u (rmpHi e) 31 = true ∧ RegsBut [rmpLo e, rmpHi e] s u ∧ SameMemory s u) := by
  have hexec := exec_remapRow h hl hsw hro hse hfind he hf hm
  have hregs : RegsBut [rmpLo e, rmpHi e] s
      (putEntry (begin s c) e (rrTum c) (rrLeaf c) (rrGroup c) (rrBank c) (rrRow c) f 1) := by
    intro o ho
    simp only [List.mem_cons, List.not_mem_nil, or_false, not_or] at ho
    rw [putEntry, rd_wr_other _ _ ho.2, rd_wr_other _ _ ho.1]
    rfl
  have hlo := rd_putEntry_lo (begin s c) e (rrTum c) (rrLeaf c) (rrGroup c) (rrBank c) (rrRow c) f 1
  have hhi := rd_putEntry_hi (begin s c) e (rrTum c) (rrLeaf c) (rrGroup c) (rrBank c) (rrRow c) f 1
  obtain ⟨r, hput⟩ := putEntry_eq (begin s c) e (rrTum c) (rrLeaf c) (rrGroup c) (rrBank c) (rrRow c) f 1
  have hcmds := congrArg State.cmds hput
  have hdram := congrArg State.dram hput
  have hmram := congrArg State.mram hput
  generalize putEntry (begin s c) e (rrTum c) (rrLeaf c) (rrGroup c) (rrBank c) (rrRow c) f 1 = v at *
  obtain ⟨y, hw⟩ := wakeTum_eq v (rrTum c)
  have hrd := rd_wakeTum v (rrTum c)
  have hcmds' := (congrArg State.cmds hw).trans hcmds
  have hmem : SameMemory s (wakeTum v (rrTum c)) :=
    sameMemory_of_eq ((congrArg State.dram hw).trans hdram) ((congrArg State.mram hw).trans hmram)
  generalize wakeTum v (rrTum c) = u at *
  obtain ⟨hin, hrow, hspare, hstate, hvalid⟩ := fields_of_entry (u := u) (bits_lt c.p0.toNat 5 0)
    (bits_lt c.p0.toNat 13 8) (bits_lt c.p0.toNat 18 16) (bits_lt c.p0.toNat 21 20) (bits_lt c.p0.toNat 45 32)
    (freeSpare_lt hf) (by decide) ((hrd _).trans hlo) ((hrd _).trans hhi)
  have hbegun : c ∈ u.cmds.begun := by
    rw [hcmds']
    exact List.mem_append_right _ (List.mem_singleton_self c)
  have htaken : u.cmds.taken = s.cmds.taken := by
    rw [hcmds']
    rfl
  exact ⟨u, hexec, hbegun, htaken, hin, hrow, hspare, hstate, hvalid, fun o ho => (hrd o).trans (hregs o ho), hmem⟩

/-! ## Lines that are written word by word -/

/-- What holds before a loop over a list with positions and is passed on by each of its steps holds after it. -/
theorem foldl_zipIdx_rule {α β : Type} {P : Nat → β → Prop} {f : β → α × Nat → β} (l : List α) {b : β} (h0 : P 0 b)
    (hs : ∀ i a b, l[i]? = some a → P i b → P (i + 1) (f b (a, i))) : P l.length (l.zipIdx.foldl f b) := by
  have hfrom (l : List α) (k : Nat) (b : β) (h : P k b)
      (hs : ∀ i a b, l[i]? = some a → P (k + i) b → P (k + i + 1) (f b (a, k + i))) :
      P (k + l.length) ((l.zipIdx k).foldl f b) := by
    induction l generalizing k b with
    | nil => exact h
    | cons a r ih =>
      rw [List.zipIdx_cons, List.foldl_cons, List.length_cons, Nat.add_comm r.length, ← Nat.add_assoc]
      refine ih (k + 1) _ (hs 0 a b rfl h) (fun i a' b' hi hb => ?_)
      have := hs (i + 1) a' b' hi
      rw [Nat.add_comm i 1, ← Nat.add_assoc] at this
      exact this hb
  have := hfrom l 0 b h0 (fun i a b hi hb => by rw [Nat.zero_add] at hb ⊢; exact hs i a b hi hb)
  rwa [Nat.zero_add] at this

/-- The words taken of a line are written in column `c` of place `l`. -/
def putLine (s : State) (t : Nat) (l : Loc) (c : Nat) (g : List Got) : State :=
  g.zipIdx.foldl (fun s g => putWord s t l c g.2 g.1.word) s

theorem lineKept_putLine (h : LineKept p t s u) {c : Nat} {g : List Got} (hk : ∀ w, w < g.length → p (wordKey t l c w)) :
    LineKept p t s (putLine u t l c g) := by
  refine foldl_zipIdx_rule (P := fun _ v => LineKept p t s v) g h (fun i a v hi hv => hv.putWord (hk i ?_) _)
  exact (List.getElem?_eq_some_iff.1 hi).1

theorem wordsBut_putLine (s : State) (t : Nat) (l : Loc) (c : Nat) (g : List Got) :
    WordsBut (fun k => ∃ w, w < g.length ∧ k = wordKey t l c w) s (putLine s t l c g) :=
  (lineKept_putLine (LineKept.refl _ t s) (fun w hw => ⟨w, hw, rfl⟩)).words

/-- A line reads back as it was written. -/
theorem wordAt_putLine (s : State) (t : Nat) (l : Loc) (c : Nat) {g : List Got} (hg : g.length = 8) {w : Nat} (hw : w < 8) :
    wordAt (putLine s t l c g) (wordKey t l c w) = (g.map Got.word).getD w 0 := by
  have h := foldl_zipIdx_rule (P := fun i v => ∀ w, w < i → wordAt v (wordKey t l c w) = (g.map Got.word).getD w 0)
    (f := fun s g => putWord s t l c g.2 g.1.word) g (b := s) (fun w hw => absurd hw (Nat.not_lt_zero w))
    (fun i a v hi hv w hwi => by
      have hi8 : i < 8 := hg ▸ (List.getElem?_eq_some_iff.1 hi).1
      dsimp only
      rw [wordAt_putWord]
      by_cases hwe : w = i
      · subst hwe
        rw [if_pos rfl, List.getD_eq_getElem?_getD, List.getElem?_map, hi]
        rfl
      · rw [if_neg (wordKey_ne_of_word t t l l c c (by omega) hi8 hwe)]
        exact hv w (by omega))
  exact h w (hg ▸ hw)

/-! ## The copy of a row -/

theorem length_gotOf (ws : List CodeWord) (e : Nat) : (gotOf ws e).length = 8 := by
  rw [gotOf_eq, List.length_map, List.length_range]

theorem words_gotOf {ws : List CodeWord} (h : ∀ w, w < 8 → (decodeWord (ws.getD w 0)).cls = .clean) (e : Nat) {w : Nat}
    (hw : w < 8) : ((gotOf ws e).map Got.word).getD w 0 = ws.getD w 0 := by
  have hget : ((gotOf ws e).map Got.word)[w]? = some (cleanGot (ws.getD w 0) e).word := by
    simp [gotOf_eq, hw]
  rw [List.getD_eq_getElem?_getD, hget, word_cleanGot (h w hw)]
  rfl

/-- What holds of the state and of the lines taken, `a`, when `i` lines of the row of line `x0` have been read. -/
structure RowRead (t : Nat) (s : State) (x0 : Nat) (l : Loc) (i : Nat) (a : State × List (List Got)) : Prop where
  kept : LineKept (fun _ => False) t s a.1
  length : a.2.length = i
  lines : ∀ c g, a.2[c]? = some g → g.length = 8 ∧
    ∀ w, w < 8 → (g.map Got.word).getD w 0 = getWord s t l (lineCol (x0 + 8 * c)) w

theorem rowRead_readRow {x0 : Nat} (ht : t < 64)
    (hc : ∀ c w, c < 16 → w < 8 → (decodeWord (getWord s t l (lineCol (x0 + 8 * c)) w)).cls = .clean) :
    RowRead t s x0 l 16 (readRow s t x0 l []) := by
  unfold readRow
  refine foldUpTo_rule (P := RowRead t s x0 l)
    ⟨LineKept.refl _ t s, rfl, fun c g hg => absurd hg (by rw [List.getElem?_nil]; exact nofun)⟩ (fun i a hi ha => ?_)
  dsimp only
  have htum : (remapAccess a.1 t (x0 + 8 * i) l).tum.val = t := lineAccess_tum a.1 ht (x0 + 8 * i) l .remap false
  have hv := (ha.kept.openLine htum l).colNext htum l false
  have hwords := lineWords_congr (x := x0 + 8 * i) (fun w => hv.words.wordAt_eq (k := wordKey t l (lineCol (x0 + 8 * i)) w) id)
  have hclean (w : Nat) (hw : w < 8) : (decodeWord ((lineWords s t l (x0 + 8 * i)).getD w 0)).cls = .clean := by
    rw [getD_lineWords s t l _ hw]
    exact hc i w hi hw
  rw [List.drop_nil, List.take_nil, decodeLine,
    hwords, decodeRead_of_clean _ _ _ _ _ hclean]
  refine ⟨hv, by rw [List.length_append, ha.length]; rfl, fun c g hg => ?_⟩
  have hlen := ha.length
  by_cases hci : c < i
  · rw [List.getElem?_append_left (by omega)] at hg
    exact ha.lines c g hg
  · rw [List.getElem?_append_right (by omega)] at hg
    obtain rfl : c = i := by
      have := (List.getElem?_eq_some_iff.1 hg).1
      rw [List.length_singleton] at this
      omega
    rw [hlen, Nat.sub_self] at hg
    cases hg
    exact ⟨length_gotOf _ _, fun w hw => (words_gotOf hclean _ hw).trans (getD_lineWords s t l _ hw)⟩

/-- A row of lines is written at place `q`. -/
def writeRow (s : State) (t x0 : Nat) (q : Loc) (rows : List (List Got)) : State :=
  rows.zipIdx.foldl (fun s e =>
    let a := remapAccess s t x0 q
    putLine (colNext (openLine s a q) a q true) t q e.2 e.1) s

/-- What holds of `v` when the first `i` lines of the row have been written at place `q`. -/
structure RowWritten (t : Nat) (s : State) (q : Loc) (rows : List (List Got)) (i : Nat) (v : State) : Prop where
  kept : LineKept AnyWord t s v
  lines : ∀ c g w, c < i → rows[c]? = some g → w < 8 → wordAt v (wordKey t q c w) = (g.map Got.word).getD w 0

theorem rowWritten_writeRow (h : LineKept AnyWord t s u) (ht : t < 64) (x0 : Nat) (q : Loc) {rows : List (List Got)}
    (hg : ∀ (c : Nat) (g : List Got), rows[c]? = some g → g.length = 8) : RowWritten t s q rows rows.length (writeRow u t x0 q rows) := by
  refine foldl_zipIdx_rule (P := RowWritten t s q rows) rows ⟨h, fun c _ _ hc => absurd hc (Nat.not_lt_zero c)⟩
    (fun i a v hi hv => ?_)
  dsimp only
  have htum : (remapAccess v t x0 q).tum.val = t := lineAccess_tum v ht x0 q .remap false
  have hcol := ((LineKept.refl (fun _ => False) t v).openLine htum q).colNext htum q true
  refine ⟨lineKept_putLine ((hv.kept.openLine htum q).colNext htum q true) (fun _ _ => trivial), fun c g w hc hrow hw => ?_⟩
  by_cases hci : c = i
  · subst hci
    rw [Option.some.inj (hrow.symm.trans hi)]
    exact wordAt_putLine _ t q c (hg c a hi) hw
  · rw [(wordsBut_putLine _ t q i a).wordAt_eq, hcol.words.wordAt_eq id]
    · exact hv.lines c g w (by omega) hrow hw
    · rintro ⟨w', hw', hk⟩
      exact hci (wordKey_inj_place t q hw ((hg i a hi) ▸ hw') hk).1

/-- A row has been copied. -/
theorem copyRow_copies {x0 : Nat} {q : Loc} (ht : t < 64) (hx : ∀ c, c < 16 → lineCol (x0 + 8 * c) = c)
    (hc : ∀ c w, c < 16 → w < 8 → (decodeWord (getWord s t l c w)).cls = .clean) :
    LineKept AnyWord t s (copyRow s t x0 l q []) ∧
      ∀ c w, c < 16 → w < 8 → getWord (copyRow s t x0 l q []) t q c w = getWord s t l c w := by
  have hread : RowRead t s x0 l 16 (readRow s t x0 l []) :=
    rowRead_readRow ht (fun c w h16 hw => by rw [hx c h16]; exact hc c w h16 hw)
  unfold copyRow
  generalize readRow s t x0 l [] = a at hread
  extract_lets row v v1 v2
  have hv1 : LineKept AnyWord t s v1 :=
    ((hread.kept.mono (fun _ hf => hf.elim)).goTo _).afterCol (remapAccess _ t x0 l) l
  have hw : RowWritten t s q a.2 a.2.length v2 := rowWritten_writeRow hv1 ht x0 q (fun c g hg => (hread.lines c g hg).1)
  clear_value v2
  rw [hread.length] at hw
  have hend := ((LineKept.refl (fun _ => False) t v2).afterCol (remapAccess v2 t x0 q) q).withNextId
    ((afterCol v2 t (remapAccess v2 t x0 q) q).nextId + 1)
  refine ⟨(hw.kept.afterCol _ q).withNextId _, fun c w h16 h8 => ?_⟩
  obtain ⟨g, hg⟩ : ∃ g, a.2[c]? = some g := ⟨_, List.getElem?_eq_getElem (by rw [hread.length]; exact h16)⟩
  rw [getWord_eq, hend.words.wordAt_eq id, hw.lines c g w h16 hg h8, (hread.lines c g hg).2 w h8, hx c h16]

/-! ## The end of the copy -/

theorem answerOpt_memory (s : State) (c : Option Cmd) (st : BitVec 16) :
    (answerOpt s c st).dram = s.dram ∧ (answerOpt s c st).mram = s.mram := by
  cases c with
  | none => exact ⟨rfl, rfl⟩
  | some c =>
    obtain ⟨a, p, g, m, k, he⟩ := reply_eq s c st 0 []
    rw [answerOpt, answer, he]
    exact ⟨rfl, rfl⟩

/-- A fault of the MRAM store leaves the memories as they are. -/
theorem refKept_mramFault (s : State) (c : Nat) (detail : BitVec 96) (n : Nat) : RefKept s (fault s .mram c detail n) := by
  have hr := (RefKept.refl s).record .mram c detail n
  unfold fault react
  dsimp only
  exact hr.ite ((hr.update ..).ite (hr.ite (hr.fatalStop ..)))

theorem rmpHi_lt {i : Nat} (hi : i < 32768) : rmpHi i < 0x02B81000 := by
  unfold rmpHi
  omega

theorem rmpHi_not_mem {i : Nat} (hi : i < 32768) (t : Nat) (ht : t < 64) : rmpHi i ∉ lineRegs t := by
  unfold lineRegs tumReg pairReg rmpHi
  simp only [List.mem_cons, List.not_mem_nil, or_false]
  omega

/-- Bit 31 of an entry outlives a change of the state of an entry. -/
theorem flag_valid_setF (s : State) (i j x : Nat) : flag (setF s (rmpHi j) 13 12 x) (rmpHi i) 31 = flag s (rmpHi i) 31 := by
  by_cases h : rmpHi i = rmpHi j
  · rw [h, flag_setF_same _ _ _ _ _ _ (by decide) (by decide), if_neg (by decide)]
  · exact flag_setF_other _ _ _ _ _ h

theorem storeRemap_eq (s : State) (i : Nat) : ∃ m c, storeRemap s i = { s with mram := m, counts := c } := mramPut_eq ..

/-- The entry that a new remap replaces is retired. -/
def entryRetired (s : State) (old : Option Nat) : State :=
  match old with
  | some j => storeRemap (setF s (rmpHi j) 13 12 2) j
  | none => s

theorem entryRetired_keeps (s : State) (old : Option Nat) (i : Nat) :
    (entryRetired s old).dram = s.dram ∧ flag (entryRetired s old) (rmpHi i) 31 = flag s (rmpHi i) 31 := by
  cases old with
  | none => exact ⟨rfl, rfl⟩
  | some j =>
    have hflag := flag_valid_setF s i j 2
    have hdram := setF_dram s (rmpHi j) 13 12 2
    unfold entryRetired
    dsimp only
    generalize setF s (rmpHi j) 13 12 2 = v at *
    obtain ⟨m, k, h⟩ := storeRemap_eq v j
    rw [h]
    exact ⟨hdram, hflag⟩

/-- A remap whose record is stored is active. -/
theorem remapEnd_stored {i t : Nat} {src : Loc} {old : Option Nat} {c : Option Cmd} (hi : i < 32768)
    (hu : remapEnd s i t src old c true = u) :
    rmpState u i = 0 ∧ flag u (rmpHi i) 31 = flag s (rmpHi i) 31 ∧ u.dram = s.dram := by
  obtain ⟨hdram, hflag⟩ := entryRetired_keeps s old i
  have hend : remapEnd s i t src old c true =
      answerOpt (count (dropRowCwc (setF (entryRetired s old) (rmpHi i) 13 12 0) t src) (cTum t 27) 1) c rcSuccess := rfl
  rw [← hu, hend]
  generalize entryRetired s old = v at *
  have hrd : rd (answerOpt (count (dropRowCwc (setF v (rmpHi i) 13 12 0) t src) (cTum t 27) 1) c rcSuccess) (rmpHi i) =
      rd (setF v (rmpHi i) 13 12 0) (rmpHi i) := by
    rw [(answerOpt_keeps _ c rcSuccess).2 _ (rmpHi_lt hi), rd_count, dropRowCwc, rd_modTum]
  refine ⟨?_, ?_, ?_⟩
  · rw [rmpState, fld, hrd, ← fld, fld_setF_same _ _ _ _ _ (by decide) (by decide)]
    rfl
  · rw [flag, hrd, ← flag, flag_valid_setF, hflag]
  · rw [(answerOpt_memory _ c rcSuccess).1, count_dram, dropRowCwc, ← hdram]
    rfl

/-- A remap whose record fails frees its entry. -/
theorem remapEnd_failed {i t : Nat} {src : Loc} {old : Option Nat} {c : Option Cmd} (hi : i < 32768)
    (hu : remapEnd s i t src old c false = u) :
    flag u (rmpHi i) 31 = false ∧ u.mram = s.mram := by
  have hend : remapEnd s i t src old c false = answerOpt (wr (wr s (rmpLo i) 0) (rmpHi i) 0) c rcMramFault := rfl
  rw [← hu, hend]
  refine ⟨?_, (answerOpt_memory _ c rcMramFault).2⟩
  rw [flag, (answerOpt_keeps _ c rcMramFault).2 _ (rmpHi_lt hi), rd_wr_same]
  exact Nat.zero_testBit 31

/-- The columns of the row of an entry. -/
theorem lineCol_remapLine (s : State) (i : Nat) {c : Nat} (hc : c < 16) : lineCol (remapLine s i + 8 * c) = c := by
  have hg : fld s (rmpLo i) 18 16 < 8 := bits_lt ..
  unfold remapLine lineAt lineCol
  omega

/-- REMAP_COPY_DONE where the copy may be performed. -/
theorem exec_remapCopyDone {i : BitVec 15} {flips : List CodeWord} {ok : Bool} (hr : running s = true)
    (hv : flag s (rmpHi i.toNat) 31 = true) (hst : rmpState s i.toNat = 1) :
    exec (.remapCopyDone i flips ok) s = .next (if lineOpOk s (rmpTum s i.toNat) then
      when (remapMay s (rmpTum s i.toNat) (remapLine s i.toNat) (remapSrc s i.toNat) (remapDst s i.toNat)) s
        (remapDone s i.toNat flips ok) else wakeTum s (rmpTum s i.toNat)) := by
  show execRemapCopyDone i flips ok s = _
  unfold execRemapCopyDone
  dsimp only
  rw [hr, hv, hst]
  rfl

theorem mramStore_stored (hm : s.mramFenced = false) (a : Nat) (b : List Byte) :
    mramStore s a b true = (mramPut s a b, true) := by
  rw [mramStore, hm, if_neg Bool.false_ne_true, if_pos rfl]

theorem mramStore_failed (hm : s.mramFenced = false) (a : Nat) (b : List Byte) :
    mramStore s a b false = (fault (count (count s (cSen 5) 1) (cSen 6) 2) .mram 1 0 1, false) := by
  rw [mramStore, hm, if_neg Bool.false_ne_true, if_neg Bool.false_ne_true]

variable {v : State} {i : Nat} {src : Loc} {old : Option Nat} {c : Option Cmd} {a : Nat} {b : List Byte}

theorem remapEnd_of_stored (hi : i < 32768) (hm : v.mramFenced = false)
    (hu : remapEnd (mramStore v a b true).1 i t src old c (mramStore v a b true).2 = u) :
    rmpState u i = 0 ∧ flag u (rmpHi i) 31 = flag v (rmpHi i) 31 ∧ u.dram = v.dram := by
  obtain ⟨m, k, hput⟩ := mramPut_eq v a b
  rw [mramStore_stored hm, hput] at hu
  obtain ⟨hstate, hvalid, hdram⟩ := remapEnd_stored hi hu
  exact ⟨hstate, hvalid, hdram⟩

theorem remapEnd_of_failed (hi : i < 32768) (hm : v.mramFenced = false)
    (hu : remapEnd (mramStore v a b false).1 i t src old c (mramStore v a b false).2 = u) :
    flag u (rmpHi i) 31 = false ∧ u.mram = v.mram := by
  have hfault := (refKept_mramFault (count (count v (cSen 5) 1) (cSen 6) 2) 1 0 1).mram
  rw [count_mram, count_mram] at hfault
  rw [mramStore_failed hm] at hu
  obtain ⟨hvalid, hmram⟩ := remapEnd_failed hi hu
  exact ⟨hvalid, hmram.trans hfault⟩

theorem remapDone_stored (hi : i < 32768) (hv : flag s (rmpHi i) 31 = true) (hm : s.mramFenced = false)
    (hc : ∀ c w, c < 16 → w < 8 → (decodeWord (getWord s (rmpTum s i) (remapSrc s i) c w)).cls = .clean) :
    let u := remapDone s i [] true
    rmpState u i = 0 ∧ flag u (rmpHi i) 31 = true ∧
      ∀ c w, c < 16 → w < 8 → getWord u (rmpTum s i) (remapDst s i) c w = getWord s (rmpTum s i) (remapSrc s i) c w := by
  have ht : rmpTum s i < 64 := bits_lt ..
  obtain ⟨hkept, hwords⟩ := copyRow_copies (q := remapDst s i) ht (fun c h => lineCol_remapLine s i h) hc
  obtain ⟨hstate, hvalid, hdram⟩ := remapEnd_of_stored (u := remapDone s i [] true) hi (hkept.fenced.trans hm) rfl
  have hflag : flag (copyRow s (rmpTum s i) (remapLine s i) (remapSrc s i) (remapDst s i) []) (rmpHi i) 31 = true := by
    rw [flag, hkept.regs _ (rmpHi_not_mem hi _ ht), ← flag, hv]
  exact ⟨hstate, hvalid.trans hflag, fun c w h16 h8 => (wordAt_of_dram_eq hdram _).trans (hwords c w h16 h8)⟩

theorem remapDone_failed (hi : i < 32768) (hm : s.mramFenced = false)
    (hc : ∀ c w, c < 16 → w < 8 → (decodeWord (getWord s (rmpTum s i) (remapSrc s i) c w)).cls = .clean) :
    let u := remapDone s i [] false
    flag u (rmpHi i) 31 = false ∧ u.mram = s.mram := by
  have ht : rmpTum s i < 64 := bits_lt ..
  obtain ⟨hkept, -⟩ := copyRow_copies (q := remapDst s i) ht (fun c h => lineCol_remapLine s i h) hc
  obtain ⟨hvalid, hmram⟩ := remapEnd_of_failed (u := remapDone s i [] false) hi (hkept.fenced.trans hm) rfl
  exact ⟨hvalid, hmram.trans hkept.mram⟩

/-- Settles O23: the entry by `remapRow_fills`, the copied row by `copyRow_copies`. -/
theorem rowRemapping : Obligations.RowRemapping := by
  refine ⟨fun s c e f h hl hsw hro hse hfind he hf hm => remapRow_fills h hl hsw hro hse hfind he hf hm, ?_⟩
  intro s i hr hv hst t src dst
  refine ⟨fun hok flips ok => ?_, fun hok hmay hm hc => ?_⟩
  · rw [exec_remapCopyDone hr hv hst, if_neg (by rw [hok]; exact Bool.false_ne_true)]
  · have hexec (ok : Bool) : exec (.remapCopyDone i [] ok) s = .next (remapDone s i.toNat [] ok) := by
      rw [exec_remapCopyDone hr hv hst, if_pos hok, hmay, when_true]
    exact ⟨⟨_, hexec true, remapDone_stored i.isLt hv hm hc⟩, ⟨_, hexec false, remapDone_failed i.isLt hm hc⟩⟩

end Sys2Proof.Machine
end

section
/-! PROOF. A leaf swap: its start, its copy, its switch point, its end and its abort (O24). -/

namespace Sys2Proof.Machine

open Sys2Proof

variable {p : Nat → Prop} {t x : Nat} {s u v : State} {l : Loc}

/-! ## Registers of a swap -/

/-- The role register of slice `l` of tumbler `t`. -/
def roleReg (t l : Nat) : Nat := lfReg l (0x100 + 4 * t)

theorem roleReg_ne (ht : t < 64) {l k n : Nat} (hk : k < 64) (hne : l ≠ n) : roleReg t l ≠ roleReg k n := by
  unfold roleReg lfReg
  omega

theorem roleReg_ne_tum {k l n : Nat} (ht : t < 64) (hk : k < 64) (hne : t ≠ k) : roleReg t l ≠ roleReg k n := by
  unfold roleReg lfReg
  omega

theorem roleReg_ne_tumReg (t l : Nat) {k o : Nat} (hk : k < 64) (ho : o < 0x10000) : roleReg t l ≠ tumReg k o := by
  unfold roleReg lfReg tumReg
  omega

theorem roleReg_ne_rmp {l : Nat} (ht : t < 64) (hl : l < 34) (i : Nat) : roleReg t l ≠ rmpLo i ∧ roleReg t l ≠ rmpHi i := by
  unfold roleReg lfReg rmpLo rmpHi
  omega

theorem roleReg_lt {l : Nat} (ht : t < 64) (hl : l < 34) : roleReg t l < 0x02B81000 := by
  unfold roleReg lfReg
  omega

theorem tumReg_lt {o : Nat} (ht : t < 64) (ho : o < 0x10000) : tumReg t o < 0x02B81000 := by
  unfold tumReg
  omega

theorem roleOf_eq (s : State) (t l : Nat) : roleOf s t l = fld s (roleReg t l) 1 0 := rfl

theorem logicalOf_eq (s : State) (t l : Nat) : logicalOf s t l = fld s (roleReg t l) 7 3 := rfl

theorem setRole_eq (s : State) (t l r n : Nat) : ∃ c, setRole s t l r n = { s with csr := c } := by
  obtain ⟨c, hc⟩ := setF_eq s (roleReg t l) 1 0 r
  obtain ⟨c', hc'⟩ := setF_eq { s with csr := c } (roleReg t l) 7 3 n
  exact ⟨c', by rw [← hc', ← hc]; rfl⟩

theorem rd_setRole_other (s : State) (t l r n : Nat) {o : Nat} (h : o ≠ roleReg t l) : rd (setRole s t l r n) o = rd s o :=
  (rd_setF_other _ _ _ _ h).trans (rd_setF_other _ _ _ _ h)

theorem role_setRole (s : State) (t l r n : Nat) : fld (setRole s t l r n) (roleReg t l) 1 0 = r % 4 :=
  (fld_setF_field _ _ _ _ _ _ _ (by decide) (by decide) (.inl (by decide)) (by decide)).trans
    (fld_setF_same _ _ _ _ _ (by decide) (by decide))

theorem logical_setRole (s : State) (t l r n : Nat) : fld (setRole s t l r n) (roleReg t l) 7 3 = n % 32 :=
  fld_setF_same _ _ _ _ _ (by decide) (by decide)

theorem fld_congr {o : Nat} (h : rd u o = rd s o) (hi lo : Nat) : fld u o hi lo = fld s o hi lo := by
  rw [fld, h, fld]

/-! ## Refresh of a slice that comes or goes -/

/-- From `s` to `u` only tumbler `t` changes, and neither its swap nor its queue. -/
structure SliceSet (t : Nat) (s u : State) : Prop where
  rest : ∃ y, u = { s with tums := y }
  tums : TumsBut t s u
  swap : (u.tum t).swap = (s.tum t).swap
  q : (u.tum t).q = (s.tum t).q

theorem SliceSet.refl (t : Nat) (s : State) : SliceSet t s s := ⟨⟨_, rfl⟩, fun _ _ => rfl, rfl, rfl⟩

theorem SliceSet.putSet (h : SliceSet t s u) (l k : Nat) (x : RefSet) : SliceSet t s (Machine.putSet u t l k x) := by
  have hsame : ((Machine.putSet u t l k x).tum t).swap = (u.tum t).swap ∧ ((Machine.putSet u t l k x).tum t).q = (u.tum t).q := by
    rw [Machine.putSet, tum_modTum_same]
    exact ⟨rfl, rfl⟩
  obtain ⟨y, rfl⟩ := h.rest
  refine ⟨⟨_, rfl⟩, fun j hj => ?_, hsame.1.trans h.swap, hsame.2.trans h.q⟩
  rw [Machine.putSet, tum_modTum_other _ _ hj]
  exact h.tums j hj

theorem sliceSet_startSlice (s : State) (t l : Nat) : SliceSet t s (startSlice s t l) :=
  foldUpTo_rule (P := fun _ v => SliceSet t s v) (SliceSet.refl t s) (fun i _ _ hv => hv.putSet l i _)

theorem sliceSet_stopSlice (s : State) (t l : Nat) : SliceSet t s (stopSlice s t l) :=
  foldUpTo_rule (P := fun _ v => SliceSet t s v) (SliceSet.refl t s) (fun i _ _ hv => hv.putSet l i _)

theorem SliceSet.rd_eq (h : SliceSet t s u) (o : Nat) : rd u o = rd s o := by
  obtain ⟨y, rfl⟩ := h.rest
  rfl

/-! ## LEAF_SWAP -/

/-- The swap that LEAF_SWAP `c` starts in tumbler `k`. -/
def swapOf (s : State) (c : Cmd) (k : Nat) : Swap :=
  { logical := logicalOf s k (lsSrc c), src := lsSrc c, dst := lsDst c, ptr := 0, aborts := [], before := [],
    cmd := some c, failed := none }

/-- The swap of command `c` has started in tumbler `k`. -/
structure SwapStarted (s : State) (c : Cmd) (k : Nat) (u : State) : Prop where
  role : roleOf u k (lsDst c) = 2
  logical : logicalOf u k (lsDst c) = logicalOf s k (lsSrc c)
  state : swapState u k = 1
  swap : (u.tum k).swap = some (swapOf s c k)

/-- What the starts of a swap keep: the sources' roles, the commands and the memories. -/
structure SwapsKept (s : State) (c : Cmd) (u : State) : Prop where
  source : ∀ k, k < 64 → logicalOf u k (lsSrc c) = logicalOf s k (lsSrc c)
  cmds : u.cmds = s.cmds
  dram : u.dram = s.dram
  mram : u.mram = s.mram

/-- The registers of a swap's start. -/
def swapRegs (s : State) (c : Cmd) (k : Nat) : State :=
  setF (wr (startSlice (setRole s k (lsDst c) 2 (logicalOf s k (lsSrc c))) k (lsDst c)) (tumReg k 0x50)
    (BitVec.ofNat 32 (2 ^ 30 + lsSrc c * 2 ^ 24))) (tumReg k 0x54) 13 8 (lsDst c)

theorem startSwap_eq (s : State) (c : Cmd) (k : Nat) :
    startSwap s c k = (swapRegs s c k).modTum k (fun x => { x with swap := some (swapOf s c k) }) := rfl

/-- Only the target's role and two registers of the tumbler change. -/
theorem rd_startSwap_other (s : State) (c : Cmd) (k : Nat) {o : Nat} (h1 : o ≠ roleReg k (lsDst c)) (h2 : o ≠ tumReg k 0x50)
    (h3 : o ≠ tumReg k 0x54) : rd (startSwap s c k) o = rd s o := by
  rw [startSwap_eq, rd_modTum, swapRegs, rd_setF_other _ _ _ _ h3, rd_wr_other _ _ h2, (sliceSet_startSlice ..).rd_eq,
    rd_setRole_other _ _ _ _ _ h1]

theorem tum_startSwap_other (s : State) (c : Cmd) {j k : Nat} (h : j ≠ k) : (startSwap s c k).tum j = s.tum j := by
  obtain ⟨r, hr⟩ := setRole_eq s k (lsDst c) 2 (logicalOf s k (lsSrc c))
  have hslice := (sliceSet_startSlice (setRole s k (lsDst c) 2 (logicalOf s k (lsSrc c))) k (lsDst c)).tums j h
  rw [startSwap_eq, tum_modTum_other _ _ h, swapRegs, tum_setF, tum_wr, hslice, hr]
  rfl

theorem swapRegs_eq (s : State) (c : Cmd) (k : Nat) : ∃ r y, swapRegs s c k = { s with csr := r, tums := y } := by
  obtain ⟨r, hr⟩ := setRole_eq s k (lsDst c) 2 (logicalOf s k (lsSrc c))
  obtain ⟨y, hy⟩ := (sliceSet_startSlice { s with csr := r } k (lsDst c)).rest
  obtain ⟨r', hr'⟩ := wr_eq { s with csr := r, tums := y } (tumReg k 0x50) (BitVec.ofNat 32 (2 ^ 30 + lsSrc c * 2 ^ 24))
  obtain ⟨r'', hr''⟩ := setF_eq { s with csr := r', tums := y } (tumReg k 0x54) 13 8 (lsDst c)
  exact ⟨r'', y, by rw [swapRegs, hr, hy, hr', hr'']⟩

theorem lsSrc_lt (c : Cmd) : lsSrc c < 64 := bits_lt ..

theorem SwapsKept.next {c : Cmd} {k : Nat} (h : SwapsKept s c u) (hk : k < 64) (hne : lsSrc c ≠ lsDst c) :
    SwapsKept s c (startSwap u c k) := by
  obtain ⟨r, y, hregs⟩ := swapRegs_eq u c k
  have hrest : (startSwap u c k).cmds = u.cmds ∧ (startSwap u c k).dram = u.dram ∧ (startSwap u c k).mram = u.mram := by
    rw [startSwap_eq, hregs]
    exact ⟨rfl, rfl, rfl⟩
  obtain ⟨hc, hd, hm⟩ := hrest
  refine ⟨fun j hj => ?_, hc.trans h.cmds, hd.trans h.dram, hm.trans h.mram⟩
  rw [← h.source j hj, logicalOf_eq, logicalOf_eq]
  exact fld_congr (rd_startSwap_other u c k (roleReg_ne hj hk hne) (roleReg_ne_tumReg _ _ hk (by decide))
    (roleReg_ne_tumReg _ _ hk (by decide))) 7 3

/-- The start of a swap in tumbler `k`. -/
theorem swapStarted_startSwap {c : Cmd} {k : Nat} (h : SwapsKept s c u) (hk : k < 64) :
    SwapStarted s c k (startSwap u c k) := by
  have hrole : rd (startSwap u c k) (roleReg k (lsDst c)) =
      rd (setRole u k (lsDst c) 2 (logicalOf u k (lsSrc c))) (roleReg k (lsDst c)) := by
    rw [startSwap_eq, rd_modTum, swapRegs, rd_setF_other _ _ _ _ (roleReg_ne_tumReg _ _ hk (by decide)),
      rd_wr_other _ _ (roleReg_ne_tumReg _ _ hk (by decide)), (sliceSet_startSlice ..).rd_eq]
  refine ⟨?_, ?_, ?_, ?_⟩
  · rw [roleOf_eq, fld_congr hrole, role_setRole]
  · have hlt : logicalOf u k (lsSrc c) < 32 := bits_lt ..
    rw [logicalOf_eq, fld_congr hrole, logical_setRole, Nat.mod_eq_of_lt hlt, h.source k hk]
  · have hreg : rd (startSwap u c k) (tumReg k 0x50) = BitVec.ofNat 32 (2 ^ 30 + lsSrc c * 2 ^ 24) := by
      rw [startSwap_eq, rd_modTum, swapRegs, rd_setF_other _ _ _ _ (by unfold tumReg; omega), rd_wr_same]
    have := lsSrc_lt c
    rw [swapState, fld, hreg, BitVec.toNat_ofNat, bits]
    omega
  · rw [startSwap_eq, tum_modTum_same]
    unfold swapOf
    rw [h.source k hk]

theorem SwapStarted.other {c : Cmd} {j k : Nat} (h : SwapStarted s c j u) (hj : j < 64) (hk : k < 64) (hne : j ≠ k) :
    SwapStarted s c j (startSwap u c k) := by
  have hrole : rd (startSwap u c k) (roleReg j (lsDst c)) = rd u (roleReg j (lsDst c)) :=
    rd_startSwap_other u c k (roleReg_ne_tum hj hk hne) (roleReg_ne_tumReg _ _ hk (by decide))
      (roleReg_ne_tumReg _ _ hk (by decide))
  have hreg : rd (startSwap u c k) (tumReg j 0x50) = rd u (tumReg j 0x50) :=
    rd_startSwap_other u c k (roleReg_ne_tumReg _ _ hj (by decide)).symm (by unfold tumReg; omega)
      (by unfold tumReg; omega)
  refine ⟨?_, ?_, ?_, ?_⟩
  · rw [roleOf_eq, fld_congr hrole, ← roleOf_eq, h.role]
  · rw [logicalOf_eq, fld_congr hrole, ← logicalOf_eq, h.logical]
  · rw [swapState, fld_congr hreg, ← swapState, h.state]
  · rw [tum_startSwap_other u c hne, h.swap]

/-- The swap starts in every tumbler of a list. -/
theorem swapsStarted {c : Cmd} (hne : lsSrc c ≠ lsDst c) (l : List Nat) (hl : ∀ k ∈ l, k < 64) (h : SwapsKept s c u) :
    SwapsKept s c (l.foldl (fun s t => startSwap s c t) u) ∧
    ∀ k, k < 64 → k ∈ l ∨ SwapStarted s c k u → SwapStarted s c k (l.foldl (fun s t => startSwap s c t) u) := by
  induction l generalizing u with
  | nil => exact ⟨h, fun k _ hk => hk.resolve_left List.not_mem_nil⟩
  | cons a r ih =>
    have ha := hl a (List.mem_cons_self ..)
    obtain ⟨hkept, hstarted⟩ := ih (fun k hk => hl k (List.mem_cons_of_mem a hk)) (h.next ha hne)
    rw [List.foldl_cons]
    refine ⟨hkept, fun k hk hor => hstarted k hk ?_⟩
    by_cases hka : k = a
    · subst hka
      exact .inr (swapStarted_startSwap h hk)
    · exact hor.imp (fun hm => (List.mem_cons.1 hm).resolve_left hka) (fun hs => hs.other hk ha hka)

theorem mem_lsMask_lt {c : Cmd} {k : Nat} (h : k ∈ lsMask c) : k < 64 := List.mem_range.1 (List.mem_filter.1 h).1

theorem passes_append {l m : List (Bool × BitVec 16)} (hl : Passes l) (hm : Passes m) : Passes (l ++ m) :=
  fun e he => (List.mem_append.1 he).elim (hl e) (hm e)

/-- LEAF_SWAP starts the swap in every tumbler that it names. -/
theorem leafSwap_starts {c : Cmd} {t : Tum} (hr : ready s c 0x0203 = true) (hs : lsSrc c < s.part.leaves)
    (hd : lsDst c < s.part.leaves) (hne : lsSrc c ≠ lsDst c)
    (hc : ∀ k ∈ lsMask c, Passes (swapChecks s (lsSrc c) (lsDst c) k)) (hm : s.mramFenced = false) (ht : t.val ∈ lsMask c) :
    Completes (.leafSwap c) s (fun u => c ∈ u.cmds.begun ∧ roleOf u t (lsDst c) = 2 ∧
      logicalOf u t (lsDst c) = logicalOf s t (lsSrc c) ∧ swapState u t = 1 ∧ (u.tum t).swap = some (swapOf s c t) ∧
      SameMemory s u) := by
  have hpass : Passes ([(decide (s.part.leaves ≤ lsSrc c) || decide (s.part.leaves ≤ lsDst c) || lsSrc c == lsDst c, rcBadUnit)]
      ++ (lsMask c).flatMap (swapChecks s (lsSrc c) (lsDst c)) ++ [(s.mramFenced, rcMramFault)]) := by
    refine passes_append (passes_append (passes_cons ?_ _ (fun e he => absurd he List.not_mem_nil)) (fun e he => ?_))
      (passes_cons hm _ (fun e he => absurd he List.not_mem_nil))
    · rw [decide_eq_false (Nat.not_le.2 hs), decide_eq_false (Nat.not_le.2 hd), beq_eq_false_iff_ne.2 hne]
      rfl
    · obtain ⟨k, hk, hek⟩ := List.mem_flatMap.1 he
      exact hc k hk e hek
  have hempty : (lsMask c).isEmpty = false := by
    cases h : lsMask c with
    | nil => exact absurd (h ▸ ht) List.not_mem_nil
    | cons a r => rfl
  have hexec : exec (.leafSwap c) s = .next ((lsMask c).foldl (fun s t => startSwap s c t) (begin s c)) := by
    show execLeafSwap c s = _
    unfold execLeafSwap
    rw [runCmd_of_ready hr]
    dsimp only
    rw [orFail_of_passes hpass, hempty, if_neg Bool.false_ne_true]
  obtain ⟨hkept, hstarted⟩ := swapsStarted (s := begin s c) hne (lsMask c) (fun k hk => mem_lsMask_lt hk)
    ⟨fun _ _ => rfl, rfl, rfl, rfl⟩
  have hst := hstarted t t.isLt (.inl ht)
  generalize (lsMask c).foldl (fun s t => startSwap s c t) (begin s c) = u at *
  have hbegun : c ∈ u.cmds.begun := by
    rw [hkept.cmds]
    exact List.mem_append_right _ (List.mem_singleton_self c)
  exact ⟨u, hexec, hbegun, hst.role, hst.logical, hst.state, hst.swap, sameMemory_of_eq hkept.dram hkept.mram⟩

/-! ## Lines of the copy -/

/-- The copier has issued the WR of a line that it has read. -/
def swapOpened (s : State) (t : Nat) (w : Swap) (read : State × List Got) : State :=
  let a := swapAccess s t w
  let b := placeRaw w.dst (swapNext w)
  afterCol (lineWr (afterRead (lineEnd (writeBacks read.1 a read.2) a) a) a b) t a b

/-- What of a line the copier reads. -/
def swapReads (s : State) (t : Nat) (w : Swap) (flips : List CodeWord) : State × List Got :=
  lineRead (lineEnter s (swapAccess s t w)) (swapAccess s t w) (rgnEpoch s (regionAt s t (swapNext w))) flips

/-- The copy pointer moves on. -/
def swapMoved (s : State) (t : Nat) (w : Swap) : State :=
  count (chargeMaster ((setF s (tumReg t 0x50) 22 0 (min 8388607 (w.ptr + 1))).modTum t
    (fun y => { y with swap := some { w with ptr := w.ptr + 1 } })) t 8 1) (cTum t 28) 1

/-- The copier's line is written on the target. -/
def swapPut (s : State) (t : Nat) (w : Swap) (read : State × List Got) : State :=
  putLine (swapOpened s t w read) t (placeRaw w.dst (swapNext w)) (lineCol (swapNext w)) read.2

theorem swapLine_eq (s : State) (t : Nat) (w : Swap) (flips : List CodeWord) :
    swapLine s t w flips = swapMoved (swapPut s t w (swapReads s t w flips)) t w := rfl

theorem swapMoved_keeps (s : State) (t : Nat) (w : Swap) :
    ((swapMoved s t w).tum t).swap = some { w with ptr := w.ptr + 1 } ∧ (swapMoved s t w).dram = s.dram := by
  unfold swapMoved
  obtain ⟨r, hr⟩ := setF_eq s (tumReg t 0x50) 22 0 (min 8388607 (w.ptr + 1))
  rw [tum_count, count_dram, hr]
  have htum := tum_modTum_same { s with csr := r } t (fun y => { y with swap := some { w with ptr := w.ptr + 1 } })
  exact ⟨congrArg Tumbler.swap htum, rfl⟩

/-- Only the bytes of a line change that is written word by word. -/
theorem dramBut_of_wordsBut {b : Loc} {c n : Nat} (hn : n ≤ 8)
    (h : WordsBut (fun k => ∃ w, w < n ∧ k = wordKey t b c w) s u) : DramBut t b c s u := by
  intro a ha
  refine h.bytes a ?_
  rintro ⟨w, hw, hk⟩
  rw [wordKey_add] at hk
  omega

/-- The copier stores in the target the words that it has taken of the source. -/
theorem swapLine_copies (ht : t < 64) {w : Swap} {f : Nat → CodeWord} {flips : List CodeWord}
    (hkept : LineKept (fun _ => False) t s (swapReads s t w flips).1) (hlen : (swapReads s t w flips).2.length = 8)
    (hwords : ∀ k, k < 8 → ((swapReads s t w flips).2.map Got.word).getD k 0 = f k) :
    ((swapLine s t w flips).tum t).swap = some { w with ptr := w.ptr + 1 } ∧
      DramBut t (placeRaw w.dst (swapNext w)) (lineCol (swapNext w)) s (swapLine s t w flips) ∧
      ∀ k, k < 8 → getWord (swapLine s t w flips) t (placeRaw w.dst (swapNext w)) (lineCol (swapNext w)) k = f k := by
  have ha : (swapAccess s t w).tum.val = t := lineAccess_tum s ht _ _ .swap false
  rw [swapLine_eq]
  generalize swapReads s t w flips = read at *
  have hopened : WordsBut (fun _ => False) s (swapOpened s t w read) :=
    (((((hkept.writeBacks ha read.2).lineEnd ha).afterRead ha).lineWr ha _).afterCol _ _).words
  have hbut : WordsBut _ (swapOpened s t w read) (swapPut s t w read) := wordsBut_putLine ..
  obtain ⟨hswap, hdram⟩ := swapMoved_keeps (swapPut s t w read) t w
  have hall := ((hopened.mono (fun _ hf => hf.elim)).trans hbut).trans (wordsBut_of_dram_eq _ hdram)
  refine ⟨hswap, dramBut_of_wordsBut hlen.le hall, fun k hk => ?_⟩
  rw [getWord_eq, wordAt_of_dram_eq hdram, ← hwords k hk]
  exact wordAt_putLine _ t _ _ hlen hk

/-- A line that holds clean words, read without a loss. -/
theorem lineRead_clean {a : Access} (h : LineKept (fun _ => False) t s u) (ha : a.tum.val = t) (hn : wholeSlot s t a.line = none)
    (hc : ∀ k, k < 8 → (decodeWord (getWord s t a.loc (lineCol a.line) k)).cls = .clean) (e : Nat) :
    lineRead u a e [] = (colNext (openLine u a a.loc) a a.loc false, gotOf (lineWords s t a.loc a.line) e) := by
  have hopen := (h.openLine ha a.loc).colNext ha a.loc false
  have hwords := lineWords_congr (x := a.line) (fun k => hopen.words.wordAt_eq
    (k := wordKey t a.loc (lineCol a.line) k) id)
  have hclean (k : Nat) (hk : k < 8) : (decodeWord ((lineWords s t a.loc a.line).getD k 0)).cls = .clean := by
    rw [getD_lineWords _ _ _ _ hk]
    exact hc k hk
  unfold lineRead
  simp only [ha, wholeSlot_congr h.slots, hn]
  rw [decodeLine, hwords, decodeRead_of_clean _ _ _ _ _ hclean]

/-- The copier takes the words of a line that holds clean words. -/
theorem swapReads_clean (ht : t < 64) {w : Swap} (hn : wholeSlot s t (swapNext w) = none)
    (hc : ReadsClean s t (swapNext w) (placeOn s t w.src (swapNext w))) :
    LineKept (fun _ => False) t s (swapReads s t w []).1 ∧ (swapReads s t w []).2.length = 8 ∧
      ∀ k, k < 8 → ((swapReads s t w []).2.map Got.word).getD k 0 =
        getWord s t (placeOn s t w.src (swapNext w)) (lineCol (swapNext w)) k := by
  have ha : (swapAccess s t w).tum.val = t := lineAccess_tum s ht _ _ .swap false
  have henter := (LineKept.refl (fun _ => False) t s).lineEnter (swapAccess s t w)
  have hread : swapReads s t w [] = _ := lineRead_clean henter ha hn (hc hn) (rgnEpoch s (regionAt s t (swapNext w)))
  have hclean (k : Nat) (hk : k < 8) :
      (decodeWord ((lineWords s t (placeOn s t w.src (swapNext w)) (swapNext w)).getD k 0)).cls = .clean := by
    rw [getD_lineWords _ _ _ _ hk]
    exact hc hn k hk
  rw [hread]
  exact ⟨(henter.openLine ha _).colNext ha _ false, length_gotOf _ _,
    fun k hk => (words_gotOf hclean _ hk).trans (getD_lineWords _ _ _ _ hk)⟩

/-- The copier takes the words of a slot that holds the whole line. -/
theorem swapReads_slot (ht : t < 64) {w : Swap} {q : Slot} (hq : wholeSlot s t (swapNext w) = some q) :
    LineKept (fun _ => False) t s (swapReads s t w []).1 ∧ (swapReads s t w []).2.length = 8 ∧
      ∀ k, k < 8 → ((swapReads s t w []).2.map Got.word).getD k 0 = (slotGot q k 0).word := by
  have ha : (swapAccess s t w).tum.val = t := lineAccess_tum s ht _ _ .swap false
  have henter := (LineKept.refl (fun _ => False) t s).lineEnter (swapAccess s t w)
  have hread := lineRead_slot (flips := []) ha ((wholeSlot_congr henter.slots (swapNext w)).trans hq)
    (rgnEpoch s (regionAt s t (swapNext w)))
  have hreads : swapReads s t w [] = _ := hread
  rw [hreads]
  refine ⟨henter, by rw [List.length_map, List.length_range], fun k hk => ?_⟩
  rw [List.map_map, List.getD_eq_getElem?_getD, List.getElem?_map, List.getElem?_range hk]
  rfl

/-- SWAP_COPY_LINE on a swap that copies. -/
theorem exec_swapCopyLine {t : Tum} {w : Swap} {flips : List CodeWord} (hw : (s.tum t).swap = some w)
    (hr : running s = true) (hst : swapState s t = 1) (hp : w.ptr < 8388608) (hb : copyBudget s t = true) :
    exec (.swapCopyLine t flips) s =
      .next (if lineOpOk s t then when (swapMay s t w) s (swapLine s t w flips) else wakeTum s t) := by
  show execSwapCopyLine t flips s = _
  unfold execSwapCopyLine swapGo
  rw [hw]
  dsimp only
  rw [hr, hst, decide_eq_true hp, hb]
  rfl

theorem swapCopyLine_copies {t : Tum} {w : Swap} (hw : (s.tum t).swap = some w) (hr : running s = true)
    (hst : swapState s t = 1) (hp : w.ptr < 8388608) (hb : copyBudget s t = true) :
    (lineOpOk s t = false → ∀ flips, exec (.swapCopyLine t flips) s = .next (wakeTum s t)) ∧
    (lineOpOk s t = true → swapMay s t w = true →
      let x := swapNext w
      let l := placeOn s t w.src x
      let b := placeRaw w.dst x
      let copies (f : Nat → CodeWord) : Prop := Completes (.swapCopyLine t []) s (fun u =>
        (u.tum t).swap = some { w with ptr := w.ptr + 1 } ∧ DramBut t b (lineCol x) s u ∧
        ∀ k, k < 8 → getWord u t b (lineCol x) k = f k)
      (wholeSlot s t x = none → ReadsClean s t x l → copies (fun k => getWord s t l (lineCol x) k)) ∧
      (∀ q, wholeSlot s t x = some q → copies (fun k => (slotGot q k 0).word))) := by
  refine ⟨fun hok flips => ?_, fun hok hm => ?_⟩
  · rw [exec_swapCopyLine hw hr hst hp hb, if_neg (by rw [hok]; exact Bool.false_ne_true)]
  · intro x l b copies
    have hexec : exec (.swapCopyLine t []) s = .next (swapLine s t w []) := by
      rw [exec_swapCopyLine hw hr hst hp hb, if_pos hok, hm, when_true]
    refine ⟨fun hn hc => ?_, fun q hq => ?_⟩
    · obtain ⟨hkept, hlen, hwords⟩ := swapReads_clean t.isLt hn hc
      exact ⟨_, hexec, swapLine_copies t.isLt hkept hlen hwords⟩
    · obtain ⟨hkept, hlen, hwords⟩ := swapReads_slot t.isLt hq
      exact ⟨_, hexec, swapLine_copies t.isLt hkept hlen hwords⟩

/-! ## The switch point -/

theorem swapState_setSwapState (s : State) (t v : Nat) (f : Tumbler → Tumbler) :
    swapState ((setSwapState s t v).modTum t f) t = v % 4 := by
  rw [swapState, fld_modTum, setSwapState, fld_setF_same _ _ _ _ _ (by decide) (by decide)]
  rfl

/-- The leaf map and the roles at the switch point. -/
def switchRegs (s : State) (t : Nat) (w : Swap) : State :=
  let v := setRole (setF s (tumReg t (0x200 + 4 * w.logical)) 5 0 w.dst) t w.dst 0 w.logical
  setRole (storeLeaf (setRole v t w.src 3 0) t) t w.src 0 w.logical

theorem switchPoint_eq (s : State) (t : Nat) (w : Swap) : switchPoint s t w =
    (setSwapState (switchRegs s t w) t 2).modTum t
      (fun x => { x with swap := some { w with before := onLeaf (switchRegs s t w) t w.src } }) := rfl

theorem storeLeaf_eq (s : State) (t : Nat) : ∃ m k, storeLeaf s t = { s with mram := m, counts := k } := mramPut_eq ..

theorem rd_storeLeaf (s : State) (t o : Nat) : rd (storeLeaf s t) o = rd s o := by
  obtain ⟨m, k, h⟩ := storeLeaf_eq s t
  rw [h]
  rfl

theorem switchRegs_dram (s : State) (t : Nat) (w : Swap) : (switchRegs s t w).dram = s.dram := by
  have hdram (v : State) (l r n : Nat) : (setRole v t l r n).dram = v.dram := by
    obtain ⟨c, h⟩ := setRole_eq v t l r n
    rw [h]
  have hleaf (v : State) : (storeLeaf v t).dram = v.dram := by
    obtain ⟨m, k, h⟩ := storeLeaf_eq v t
    rw [h]
  rw [switchRegs, hdram, hleaf, hdram, hdram, setF_dram]

/-- Registers that no role is, after the switch point. -/
theorem rd_switchRegs (s : State) {w : Swap} {o : Nat} (h1 : o ≠ roleReg t w.src) :
    rd (switchRegs s t w) o =
      rd (setRole (setF s (tumReg t (0x200 + 4 * w.logical)) 5 0 w.dst) t w.dst 0 w.logical) o := by
  rw [switchRegs, rd_setRole_other _ _ _ _ _ h1, rd_storeLeaf, rd_setRole_other _ _ _ _ _ h1]

theorem exec_swapSwitchPoint {t : Tum} {w : Swap} (hw : (s.tum t).swap = some w) (hr : running s = true)
    (hse : serves s t = true) (hst : swapState s t = 1) (hp : w.ptr = 8388608) (hm : s.mramFenced = false) :
    exec (.swapSwitchPoint t) s = .next (switchPoint s t w) := by
  have hrest : swapRest s t = s := by
    refine if_pos ?_
    rw [swapCopied, hw, Option.any_some, hp]
    rfl
  show execSwapSwitchPoint t s = _
  unfold execSwapSwitchPoint
  rw [hrest]
  dsimp only
  rw [hw]
  dsimp only
  rw [hr, hse, hst, hp, hm]
  rfl

theorem swapSwitchPoint_switches {t : Tum} {w : Swap} (hw : (s.tum t).swap = some w) (hr : running s = true)
    (hse : serves s t = true) (hst : swapState s t = 1) (hp : w.ptr = 8388608) (hm : s.mramFenced = false)
    (hl : w.logical < 32) (hd : w.dst < 34) (hne : w.src ≠ w.dst) :
    Completes (.swapSwitchPoint t) s (fun u => leafMap u t w.logical = w.dst ∧ roleOf u t w.dst = 0 ∧
      logicalOf u t w.dst = w.logical ∧ swapState u t = 2 ∧ u.dram = s.dram) := by
  have ht := t.isLt
  have hregs {o : Nat} (ho : o ≠ roleReg t w.src) := rd_switchRegs (t := t) s ho
  have hdram := switchRegs_dram s t w
  have hexec := exec_swapSwitchPoint hw hr hse hst hp hm
  rw [switchPoint_eq] at hexec
  generalize onLeaf (switchRegs s t w) t w.src = ids at hexec
  generalize switchRegs s t w = v at *
  have hrd {o : Nat} (ho : o ≠ tumReg t 0x50) (f : Tumbler → Tumbler) : rd ((setSwapState v t 2).modTum t f) o = rd v o := by
    rw [rd_modTum, setSwapState, rd_setF_other _ _ _ _ ho]
  have hmapne : tumReg t (0x200 + 4 * w.logical) ≠ tumReg t 0x50 := by
    unfold tumReg
    omega
  refine ⟨_, hexec, ?_, ?_, ?_, ?_, by rw [modTum_dram, setSwapState, setF_dram, hdram]⟩
  · rw [leafMap, fld_congr (hrd hmapne _), fld_congr (hregs (roleReg_ne_tumReg t w.src ht (by omega)).symm),
      fld_congr (rd_setRole_other _ _ _ _ _ (roleReg_ne_tumReg t w.dst ht (by omega)).symm),
      fld_setF_same _ _ _ _ _ (by decide) (by decide)]
    exact Nat.mod_eq_of_lt (by omega)
  · rw [roleOf_eq, fld_congr (hrd (roleReg_ne_tumReg t w.dst ht (by decide)) _), fld_congr (hregs (roleReg_ne ht ht hne.symm)),
      role_setRole]
  · rw [logicalOf_eq, fld_congr (hrd (roleReg_ne_tumReg t w.dst ht (by decide)) _),
      fld_congr (hregs (roleReg_ne ht ht hne.symm)), logical_setRole]
    exact Nat.mod_eq_of_lt hl
  · rw [swapState_setSwapState]

/-! ## The end of a swap -/

/-- What answers to commands keep. -/
structure Answered (s u : State) : Prop where
  tums : u.tums = s.tums
  pulses : u.pulses = s.pulses
  dram : u.dram = s.dram
  mram : u.mram = s.mram
  regs : ∀ o, o < 0x02B81000 → rd u o = rd s o

theorem answered_refl (s : State) : Answered s s := ⟨rfl, rfl, rfl, rfl, fun _ _ => rfl⟩

theorem Answered.trans (h : Answered s u) (h' : Answered u v) : Answered s v :=
  ⟨h'.tums.trans h.tums, h'.pulses.trans h.pulses, h'.dram.trans h.dram, h'.mram.trans h.mram,
    fun o ho => (h'.regs o ho).trans (h.regs o ho)⟩

theorem answered_answer (s : State) (c : Cmd) (st : BitVec 16) : Answered s (answer s c st) := by
  obtain ⟨a, p, g, m, k, he⟩ := reply_eq s c st 0 []
  have hregs (o : Nat) (ho : o < 0x02B81000) : rd (answer s c st) o = rd s o := rd_reply_of_lt s c st 0 [] ho
  have hu : answer s c st = _ := he
  refine ⟨?_, ?_, ?_, ?_, hregs⟩ <;> rw [hu]

theorem answered_answerOpt (s : State) (c : Option Cmd) (st : BitVec 16) : Answered s (answerOpt s c st) := by
  cases c with
  | none => exact answered_refl s
  | some c => exact answered_answer s c st

theorem answered_foldl (l : List Cmd) (st : BitVec 16) (s : State) :
    Answered s (l.foldl (fun s c => answer s c st) s) := by
  induction l generalizing s with
  | nil => exact answered_refl s
  | cons c r ih => exact (answered_answer s c st).trans (ih _)

/-- The swap of tumbler `t` has ended. -/
structure SwapEnded (t : Nat) (s u : State) : Prop where
  none : (u.tum t).swap = none
  state : swapState u t = 0
  regs : ∀ o, o < 0x02B81000 → o ≠ tumReg t 0x50 → rd u o = rd s o
  pulses : u.pulses = s.pulses
  dram : u.dram = s.dram
  mram : u.mram = s.mram

theorem SwapEnded.answered (h : SwapEnded t s u) (ht : t < 64) (ha : Answered u v) : SwapEnded t s v where
  none := by rw [State.tum, ha.tums, ← State.tum, h.none]
  state := by rw [swapState, fld_congr (ha.regs _ (tumReg_lt ht (by decide))), ← swapState, h.state]
  regs o ho hne := (ha.regs o ho).trans (h.regs o ho hne)
  pulses := ha.pulses.trans h.pulses
  dram := ha.dram.trans h.dram
  mram := ha.mram.trans h.mram

theorem SwapEnded.modTum (h : SwapEnded t s u) (k : Nat) {f : Tumbler → Tumbler}
    (hf : ∀ x, x.swap = Option.none → (f x).swap = Option.none) : SwapEnded t s (u.modTum k f) where
  none := by
    by_cases hk : t = k
    · rw [← hk, tum_modTum_same]
      exact hf _ h.none
    · rw [tum_modTum_other _ _ hk, h.none]
  state := by rw [swapState, fld_modTum, ← swapState, h.state]
  regs o ho hne := (rd_modTum u k f o).trans (h.regs o ho hne)
  pulses := by rw [modTum_pulses, h.pulses]
  dram := by rw [modTum_dram, h.dram]
  mram := by rw [modTum_mram, h.mram]

/-- The tumbler's swap is taken back. -/
def swapCleared (s : State) (t : Nat) : State := (setSwapState s t 0).modTum t (fun x => { x with swap := none })

theorem swapEnded_swapCleared (s : State) (t : Nat) : SwapEnded t s (swapCleared s t) where
  none := by rw [swapCleared, tum_modTum_same]
  state := swapState_setSwapState s t 0 _
  regs o _ hne := by rw [swapCleared, rd_modTum, setSwapState, rd_setF_other _ _ _ _ hne]
  pulses := by rw [swapCleared, modTum_pulses, setSwapState, setF_pulses]
  dram := by rw [swapCleared, modTum_dram, setSwapState, setF_dram]
  mram := by rw [swapCleared, modTum_mram, setSwapState, setF_mram]

theorem swapEnded_swapEnd (s : State) (ht : t < 64) (w : Swap) (fail : Option (BitVec 16)) :
    SwapEnded t s (swapEnd s t w fail) := by
  have h := swapEnded_swapCleared s t
  unfold swapEnd
  extract_lets c f others
  split
  · exact h.answered ht (answered_answerOpt ..)
  · clear_value others
    have hfold (l : List Nat) (u : State) (hu : SwapEnded t s u) : SwapEnded t s (l.foldl (fun (s : State) u =>
        s.modTum u (fun x => { x with swap := x.swap.map (fun v => { v with failed := f }) })) u) := by
      induction l generalizing u with
      | nil => exact hu
      | cons k r ih => exact ih _ (hu.modTum k (fun x hx => by rw [hx]; rfl))
    exact hfold others _ h

/-! ## The source is retired -/

/-- What freed remap entries leave. -/
structure EntriesFreed (s u : State) : Prop where
  regs : ∀ o, (∀ i, o ≠ rmpLo i ∧ o ≠ rmpHi i) → rd u o = rd s o
  pulses : u.pulses = s.pulses
  dram : u.dram = s.dram

/-- Entry `i` is freed, in MRAM too. -/
def entryFreed (s : State) (i : Nat) : State := storeRemap (wr (wr s (rmpLo i) 0) (rmpHi i) 0) i

theorem EntriesFreed.next (h : EntriesFreed s u) (i : Nat) : EntriesFreed s (entryFreed u i) := by
  have hregs (o : Nat) (ho : ∀ i, o ≠ rmpLo i ∧ o ≠ rmpHi i) : rd (wr (wr u (rmpLo i) 0) (rmpHi i) 0) o = rd u o := by
    rw [rd_wr_other _ _ (ho i).2, rd_wr_other _ _ (ho i).1]
  have hpulses : (wr (wr u (rmpLo i) 0) (rmpHi i) 0).pulses = u.pulses := by rw [wr_pulses, wr_pulses]
  have hdram : (wr (wr u (rmpLo i) 0) (rmpHi i) 0).dram = u.dram := by rw [wr_dram, wr_dram]
  unfold entryFreed
  generalize wr (wr u (rmpLo i) 0) (rmpHi i) 0 = v at *
  obtain ⟨m, k, hv⟩ := storeRemap_eq v i
  rw [hv]
  exact ⟨fun o ho => (hregs o ho).trans (h.regs o ho), hpulses.trans h.pulses, hdram.trans h.dram⟩

theorem entriesFreed_foldl (l : List Nat) (h : EntriesFreed s u) : EntriesFreed s (l.foldl entryFreed u) := by
  induction l generalizing u with
  | nil => exact h
  | cons i r ih => exact ih (h.next i)

/-- A slice takes a role and stops its refresh. -/
def sliceOff (s : State) (t l role : Nat) : State := stopSlice (setRole s t l role 0) t l

theorem sliceOff_keeps (s : State) (t l role : Nat) : (sliceOff s t l role).pulses = s.pulses ∧
    (sliceOff s t l role).dram = s.dram ∧ (sliceOff s t l role).mram = s.mram ∧
    ((sliceOff s t l role).tum t).swap = (s.tum t).swap ∧
    fld (sliceOff s t l role) (roleReg t l) 1 0 = role % 4 := by
  have hslice := sliceSet_stopSlice (setRole s t l role 0) t l
  have hrole := role_setRole s t l role 0
  obtain ⟨c, hc⟩ := setRole_eq s t l role 0
  have hswap : ((setRole s t l role 0).tum t).swap = (s.tum t).swap := by rw [hc]; rfl
  obtain ⟨y, hy⟩ := hslice.rest
  have hfld : fld (sliceOff s t l role) (roleReg t l) 1 0 = role % 4 := (fld_congr (hslice.rd_eq _) 1 0).trans hrole
  refine ⟨?_, ?_, ?_, hslice.swap.trans hswap, hfld⟩
  · rw [sliceOff, hy, hc]
  · rw [sliceOff, hy, hc]
  · rw [sliceOff, hy, hc]

/-- The source of a swap is retired and its remap entries are freed. -/
def sourceRetired (s : State) (t : Nat) (w : Swap) : State :=
  let s := sliceOff s t w.src 3
  let l := (remapValid s).filter (fun i => rmpTum s i == t && rmpLeaf s i == w.src)
  let s := l.foldl entryFreed s
  count (s.modTum t (fun x => { x with cwc := x.cwc.filter (fun e => e.word / (32 * 128 * 16400) % 34 != w.src) }))
    (cTum t 29) 1

theorem swapRetire_eq (s : State) (t : Nat) (w : Swap) :
    swapRetire s t w = raise (swapEnd (sourceRetired s t w) t w none) (0x80 + t) 0 := rfl

theorem sourceRetired_keeps (s : State) (ht : t < 64) {w : Swap} (hs : w.src < 34) :
    (sourceRetired s t w).pulses = s.pulses ∧ (sourceRetired s t w).dram = s.dram ∧
      fld (sourceRetired s t w) (roleReg t w.src) 1 0 = 3 := by
  obtain ⟨hp, hd, -, -, hrole⟩ := sliceOff_keeps s t w.src 3
  unfold sourceRetired
  generalize sliceOff s t w.src 3 = v at *
  dsimp only
  have hfree := entriesFreed_foldl ((remapValid v).filter (fun i => rmpTum v i == t && rmpLeaf v i == w.src))
    (u := v) ⟨fun _ _ => rfl, rfl, rfl⟩
  generalize ((remapValid v).filter (fun i => rmpTum v i == t && rmpLeaf v i == w.src)).foldl entryFreed v = u at *
  refine ⟨?_, ?_, ?_⟩
  · rw [count_pulses, modTum_pulses, hfree.pulses, hp]
  · rw [count_dram, modTum_dram, hfree.dram, hd]
  · rw [fld_count, fld_modTum, fld_congr (hfree.regs _ (roleReg_ne_rmp ht hs)), hrole]

theorem exec_swapRetire {t : Tum} {w : Swap} (hw : (s.tum t).swap = some w) (hr : running s = true)
    (hst : swapState s t = 2) (hq : swapQuiet s t w = true) (hk : ∀ k ∈ (s.tum t).q.slots, k.loc.leaf ≠ w.src) :
    exec (.swapRetire t) s = .next (swapRetire s t w) := by
  have hany : (s.tum t).q.slots.any (fun k => k.loc.leaf = w.src) = false :=
    List.any_eq_false.2 (fun k hk' => by simpa using hk k hk')
  show execSwapRetire t s = _
  unfold execSwapRetire
  rw [hw]
  dsimp only
  rw [hr, hst, hq, hany]
  rfl

theorem swapRetire_ends {t : Tum} {w : Swap} (hw : (s.tum t).swap = some w) (hr : running s = true)
    (hst : swapState s t = 2) (hq : swapQuiet s t w = true) (hs : w.src < 34)
    (hk : ∀ k ∈ (s.tum t).q.slots, k.loc.leaf ≠ w.src) :
    Completes (.swapRetire t) s (fun u => (u.tum t).swap = none ∧ roleOf u t w.src = 3 ∧ swapState u t = 0 ∧
      u.pulses = s.pulses ++ [(BitVec.ofNat 12 (0x80 + t), 0)] ∧ u.dram = s.dram) := by
  obtain ⟨hp, hd, hrole⟩ := sourceRetired_keeps s t.isLt hs
  have hend := swapEnded_swapEnd (sourceRetired s t w) t.isLt w none
  have hexec := exec_swapRetire hw hr hst hq hk
  rw [swapRetire_eq] at hexec
  generalize swapEnd (sourceRetired s t w) t w none = u at *
  have hrole' : roleOf u t w.src = 3 := by
    rw [roleOf_eq, fld_congr (hend.regs _ (roleReg_lt t.isLt hs) (roleReg_ne_tumReg t w.src t.isLt (by decide))), hrole]
  exact ⟨_, hexec, hend.none, hrole', hend.state, congrArg (· ++ [_]) (hend.pulses.trans hp), hend.dram.trans hd⟩

/-! ## The abort -/

/-- The abort command begins and joins the aborts of the swap. -/
def abortNoted (s : State) (c : Cmd) (t : Nat) : State :=
  (begin s c).modTum t (fun x => { x with swap := x.swap.map (fun w => { w with aborts := w.aborts ++ [c] }) })

theorem abortNoted_keeps (s : State) (c : Cmd) (t : Nat) : swapState (abortNoted s c t) t = swapState s t ∧
    c ∈ (abortNoted s c t).cmds.begun ∧
    ((abortNoted s c t).tum t).swap = (s.tum t).swap.map (fun w => { w with aborts := w.aborts ++ [c] }) ∧
    (∀ o, rd (abortNoted s c t) o = rd s o) ∧ SameMemory s (abortNoted s c t) := by
  refine ⟨rfl, List.mem_append_right _ (List.mem_singleton_self c), ?_, fun _ => rfl, sameMemory_of_eq rfl rfl⟩
  rw [abortNoted, tum_modTum_same]
  rfl

theorem exec_leafSwapAbort {c : Cmd} {t : Tum} {w : Swap} (hw : (s.tum t).swap = some w) (hr : ready s c 0x0204 = true)
    (ht : bits c.p0.toNat 5 0 = t.val) (hst : swapState s t = 1) :
    exec (.leafSwapAbort c) s = .next (abortNoted (swapAbandon s t) c t) := by
  show execLeafSwapAbort c s = _
  unfold execLeafSwapAbort
  rw [runCmd_of_ready hr]
  dsimp only
  rw [ht, if_pos hst]
  refine congrArg Host.Outcome.next (orFail_of_passes (passes_cons ?_ _ (fun e he => absurd he List.not_mem_nil)) s _ c)
  rw [hw, hst]
  rfl

theorem swapAbandon_keeps {w : Swap} (hw : (s.tum t).swap = some w) : swapState (swapAbandon s t) t = 3 ∧
    (∃ n, ((swapAbandon s t).tum t).swap = some { w with before := n }) ∧ RegsBut [tumReg t 0x50] s (swapAbandon s t) ∧
    SameMemory s (swapAbandon s t) := by
  refine ⟨by rw [swapAbandon, swapState_setSwapState], ⟨onLeaf s t w.src, ?_⟩, fun o ho => ?_, sameMemory_of_eq ?_ ?_⟩
  · rw [swapAbandon, tum_modTum_same, setSwapState, tum_setF, hw]
    rfl
  · rw [swapAbandon, rd_modTum, setSwapState,
      rd_setF_other _ _ _ _ (fun he => ho (by rw [he]; exact List.mem_singleton_self _))]
  · rw [swapAbandon, modTum_dram, setSwapState, setF_dram]
  · rw [swapAbandon, modTum_mram, setSwapState, setF_mram]

theorem leafSwapAbort_abandons {c : Cmd} {t : Tum} {w : Swap} (hw : (s.tum t).swap = some w)
    (hr : ready s c 0x0204 = true) (ht : bits c.p0.toNat 5 0 = t.val) (hst : swapState s t = 1) :
    Completes (.leafSwapAbort c) s (fun u => swapState u t = 3 ∧ c ∈ u.cmds.begun ∧
      ((u.tum t).swap.map (·.aborts)) = some (w.aborts ++ [c]) ∧ RegsBut [tumReg t 0x50] s u ∧ SameMemory s u) := by
  have hexec := exec_leafSwapAbort hw hr ht hst
  obtain ⟨hstate, ⟨n, hswap⟩, hregs, hmem⟩ := swapAbandon_keeps hw
  obtain ⟨hstate', hbegun, hswap', hregs', hmem'⟩ := abortNoted_keeps (swapAbandon s t) c t
  refine ⟨_, hexec, hstate'.trans hstate, hbegun, ?_, fun o ho => (hregs' o).trans (hregs o ho), sameMemory_trans hmem hmem'⟩
  rw [hswap', hswap]
  rfl

theorem exec_swapAbandonDone {t : Tum} {w : Swap} (hw : (s.tum t).swap = some w) (hst : swapState s t = 3)
    (hq : swapQuiet s t w = true) : exec (.swapAbandonDone t) s = .next (abandonDone s t w) := by
  show execSwapAbandonDone t s = _
  unfold execSwapAbandonDone
  rw [hw]
  dsimp only
  rw [hst, hq]
  rfl

theorem abandonDone_eq (s : State) (t : Nat) (w : Swap) : ∃ f n, abandonDone s t w =
    w.aborts.foldl (fun s c => answer s c rcSuccess) (swapEnd { sliceOff s t w.dst 1 with free := n } t w (some f)) :=
  ⟨_, _, rfl⟩

theorem swapAbandonDone_ends {t : Tum} {w : Swap} (hw : (s.tum t).swap = some w) (hst : swapState s t = 3)
    (hq : swapQuiet s t w = true) (hd : w.dst < 34) :
    Completes (.swapAbandonDone t) s (fun u => (u.tum t).swap = none ∧ roleOf u t w.dst = 1 ∧ swapState u t = 0 ∧
      SameMemory s u) := by
  have hexec := exec_swapAbandonDone hw hst hq
  obtain ⟨-, hdram, hmram, -, hrole⟩ := sliceOff_keeps s t w.dst 1
  obtain ⟨f, n, hu⟩ := abandonDone_eq s t w
  rw [hu] at hexec
  generalize sliceOff s t w.dst 1 = v at *
  have hend := (swapEnded_swapEnd { v with free := n } t.isLt w (some f)).answered t.isLt (answered_foldl w.aborts rcSuccess _)
  generalize w.aborts.foldl (fun s c => answer s c rcSuccess) (swapEnd { v with free := n } t w (some f)) = u at *
  have hrole' : roleOf u t w.dst = 1 := by
    rw [roleOf_eq, fld_congr (hend.regs _ (roleReg_lt t.isLt hd) (roleReg_ne_tumReg t w.dst t.isLt (by decide)))]
    exact hrole
  exact ⟨u, hexec, hend.none, hrole', hend.state, sameMemory_of_eq (hend.dram.trans hdram) (hend.mram.trans hmram)⟩

/-- Settles O24: each step of the swap by the lemma about its row. -/
theorem leafSwap : Obligations.LeafSwap := by
  intro s c t
  refine ⟨leafSwap_starts, fun w hw => ⟨swapCopyLine_copies hw, ?_, swapRetire_ends hw, leafSwapAbort_abandons hw,
    swapAbandonDone_ends hw⟩⟩
  exact fun hr hse hst hp hm hl _ hd hne => swapSwitchPoint_switches hw hr hse hst hp hm hl hd hne

end Sys2Proof.Machine
end

section
/-! PROOF. REGION_CLEAR: the clear points of its regions, and its answer (O19). -/

namespace Sys2Proof.Machine

open Sys2Proof

variable {s u v : State} {r : Nat}

/-! ## What a clear point keeps -/

/-- From `s` to `u` only the register of region `r` changes, and the part, the commands, the clears, the leaf arrays and the
state of the pair stay. -/
structure ClearKept (r : Nat) (s u : State) : Prop where
  part : u.part = s.part
  cmds : u.cmds = s.cmds
  clears : u.clears = s.clears
  dram : u.dram = s.dram
  pair : u.pair.state = s.pair.state
  regs : ∀ o, o ≠ rgnReg r → rd u o = rd s o

namespace ClearKept

theorem refl (r : Nat) (s : State) : ClearKept r s s := ⟨rfl, rfl, rfl, rfl, rfl, fun _ _ => rfl⟩

theorem trans (h : ClearKept r s u) (h' : ClearKept r u v) : ClearKept r s v :=
  ⟨h'.part.trans h.part, h'.cmds.trans h.cmds, h'.clears.trans h.clears, h'.dram.trans h.dram, h'.pair.trans h.pair,
    fun o ho => (h'.regs o ho).trans (h.regs o ho)⟩

theorem ite {c : Prop} [Decidable c] (hu : ClearKept r s u) (hv : ClearKept r s v) : ClearKept r s (if c then u else v) := by
  split
  · exact hu
  · exact hv

theorem withTums (h : ClearKept r s u) (x : Tab Tumbler) : ClearKept r s { u with tums := x } :=
  h.trans ⟨rfl, rfl, rfl, rfl, rfl, fun _ _ => rfl⟩

theorem withOrphan (h : ClearKept r s u) (x : List Nat) : ClearKept r s { u with pair := { u.pair with orphan := x } } :=
  h.trans ⟨rfl, rfl, rfl, rfl, rfl, fun _ _ => rfl⟩

theorem setF (h : ClearKept r s u) (hi lo x : Nat) : ClearKept r s (setF u (rgnReg r) hi lo x) :=
  h.trans ⟨rfl, rfl, rfl, rfl, rfl, fun _ ho => rd_setF_other _ _ _ _ ho⟩

theorem replaceWaiting (h : ClearKept r s u) (k : Nat) : ClearKept r s (replaceWaiting u k) :=
  h.trans ⟨rfl, rfl, rfl, rfl, rfl, fun _ _ => rfl⟩

theorem oweSweeps (h : ClearKept r s u) (k : Nat) : ClearKept r s (oweSweeps u k) :=
  h.trans ⟨rfl, rfl, rfl, rfl, rfl, fun _ _ => rfl⟩

theorem storeRegion (h : ClearKept r s u) (k : Nat) : ClearKept r s (storeRegion u k) := by
  obtain ⟨m, c, hm⟩ := storeRegion_eq u k
  rw [hm]
  exact h.trans ⟨rfl, rfl, rfl, rfl, rfl, fun _ _ => rfl⟩

theorem count (h : ClearKept r s u) (slot n : Nat) : ClearKept r s (count u slot n) := by
  obtain ⟨c, hc⟩ := count_eq u slot n
  rw [hc]
  exact h.trans ⟨rfl, rfl, rfl, rfl, rfl, fun _ _ => rfl⟩

theorem withDirty (h : ClearKept r s u) (x : List Nat) : ClearKept r s { u with pair := { u.pair with dirty := x } } :=
  h.trans ⟨rfl, rfl, rfl, rfl, rfl, fun _ _ => rfl⟩

theorem setDiverged (h : ClearKept r s u) : ClearKept r s (setDiverged u r) := by
  unfold Machine.setDiverged
  exact h.ite (((h.setF 7 7 1).count _ _).withDirty _)

end ClearKept

/-! ## The fields of a region -/

/-- EPOCH, SWEEP and MODE of region `r`. -/
structure RgnIs (r e w m : Nat) (s : State) : Prop where
  epoch : rgnEpoch s r = e
  sweep : rgnSweep s r = w
  mode : rgnMode s r = m

namespace RgnIs

variable {e w m : Nat}

theorem self (s : State) (r : Nat) : RgnIs r (rgnEpoch s r) (rgnSweep s r) (rgnMode s r) s := ⟨rfl, rfl, rfl⟩

theorem congr (h : RgnIs r e w m s) (hr : rd u (rgnReg r) = rd s (rgnReg r)) : RgnIs r e w m u :=
  ⟨(fld_congr hr 1 0).trans h.epoch, (fld_congr hr 3 2).trans h.sweep, (fld_congr hr 9 8).trans h.mode⟩

theorem setEpoch (h : RgnIs r e w m s) (x : Nat) : RgnIs r (x % 4) w m (setF s (rgnReg r) 1 0 x) :=
  ⟨fld_setF_same _ _ _ _ _ (by decide) (by decide),
    (fld_setF_field _ _ _ _ _ _ _ (by decide) (by decide) (.inr (by decide)) (by decide)).trans h.sweep,
    (fld_setF_field _ _ _ _ _ _ _ (by decide) (by decide) (.inr (by decide)) (by decide)).trans h.mode⟩

theorem setSweep (h : RgnIs r e w m s) (x : Nat) : RgnIs r e (x % 4) m (setF s (rgnReg r) 3 2 x) :=
  ⟨(fld_setF_field _ _ _ _ _ _ _ (by decide) (by decide) (.inl (by decide)) (by decide)).trans h.epoch,
    fld_setF_same _ _ _ _ _ (by decide) (by decide),
    (fld_setF_field _ _ _ _ _ _ _ (by decide) (by decide) (.inr (by decide)) (by decide)).trans h.mode⟩

theorem setMode (h : RgnIs r e w m s) (x : Nat) : RgnIs r e w (x % 4) (setF s (rgnReg r) 9 8 x) :=
  ⟨(fld_setF_field _ _ _ _ _ _ _ (by decide) (by decide) (.inl (by decide)) (by decide)).trans h.epoch,
    (fld_setF_field _ _ _ _ _ _ _ (by decide) (by decide) (.inl (by decide)) (by decide)).trans h.sweep,
    fld_setF_same _ _ _ _ _ (by decide) (by decide)⟩

theorem setDiverged (h : RgnIs r e w m s) : RgnIs r e w m (setDiverged s r) := by
  have hset : RgnIs r e w m (setF s (rgnReg r) 7 7 1) :=
    ⟨(fld_setF_field _ _ _ _ _ _ _ (by decide) (by decide) (.inl (by decide)) (by decide)).trans h.epoch,
      (fld_setF_field _ _ _ _ _ _ _ (by decide) (by decide) (.inl (by decide)) (by decide)).trans h.sweep,
      (fld_setF_field _ _ _ _ _ _ _ (by decide) (by decide) (.inr (by decide)) (by decide)).trans h.mode⟩
  unfold Machine.setDiverged
  split
  · exact h
  · exact hset.congr (rd_count ..)

end RgnIs

/-! ## The clear point (R146, R147, R152) -/

/-- A loop whose steps change the tumblers alone. -/
theorem foldl_tums {β : Type} {f : State → β → State} (hf : ∀ u b, ∃ y, f u b = { u with tums := y }) (l : List β)
    (s : State) : ∃ y, l.foldl f s = { s with tums := y } := by
  induction l generalizing s with
  | nil => exact ⟨_, rfl⟩
  | cons b l ih =>
    obtain ⟨y, hy⟩ := hf s b
    obtain ⟨z, hz⟩ := ih { s with tums := y }
    exact ⟨z, by rw [List.foldl_cons, hy, hz]⟩

theorem noteCleared_eq (s : State) (r : Nat) : ∃ y, noteCleared s r = { s with tums := y } := by
  refine foldl_tums (fun u t => ?_) _ s
  split
  · exact ⟨_, rfl⟩
  · exact ⟨_, rfl⟩

/-- EPOCH and SWEEP at the clear point. -/
def pointEpoch (s : State) (r : Nat) (m : Option (BitVec 2)) : State :=
  if localChange s r m then setF (setF (noteCleared s r) (rgnReg r) 1 0 0) (rgnReg r) 3 2 3
  else setF (setF (noteCleared s r) (rgnReg r) 1 0 (nextEpoch (rgnEpoch (noteCleared s r) r))) (rgnReg r) 3 2 (rgnSweep s r + 1)

/-- MODE at the clear point. -/
def pointMode (s : State) (r : Nat) (m : Option (BitVec 2)) : State :=
  match m with
  | some m => replaceWaiting (setF s (rgnReg r) 9 8 m.toNat) r
  | none => s

/-- The rest of a clear point: its record, and the pair's marks. -/
def pointRest (s : State) (r : Nat) : State :=
  let s := storeRegion s r
  let s := { s with pair := { s.pair with orphan := s.pair.orphan.filter (· != r) } }
  if s.pair.state = .solo then setDiverged s r else s

theorem clearPoint_eq (s : State) (r : Nat) (m : Option (BitVec 2)) : clearPoint s r m =
    if localChange s r m || rgnSweep s r != 0 then pointRest (pointMode (pointEpoch s r m) r m) r
    else oweSweeps (pointRest (pointMode (pointEpoch s r m) r m) r) r := rfl

theorem clearKept_pointEpoch (s : State) (r : Nat) (m : Option (BitVec 2)) : ClearKept r s (pointEpoch s r m) := by
  obtain ⟨y, hy⟩ := noteCleared_eq s r
  unfold pointEpoch
  rw [hy]
  have h := (ClearKept.refl r s).withTums y
  exact ClearKept.ite ((h.setF 1 0 _).setF 3 2 _) ((h.setF 1 0 _).setF 3 2 _)

theorem clearKept_pointMode (h : ClearKept r s u) (m : Option (BitVec 2)) : ClearKept r s (pointMode u r m) := by
  cases m with
  | none => exact h
  | some m => exact (h.setF 9 8 _).replaceWaiting r

theorem clearKept_pointRest (h : ClearKept r s u) : ClearKept r s (pointRest u r) := by
  have hstored := (h.storeRegion r).withOrphan ((storeRegion u r).pair.orphan.filter (· != r))
  exact ClearKept.ite hstored.setDiverged hstored

theorem clearKept_clearPoint (s : State) (r : Nat) (m : Option (BitVec 2)) : ClearKept r s (clearPoint s r m) := by
  rw [clearPoint_eq]
  have h := clearKept_pointRest (clearKept_pointMode (clearKept_pointEpoch s r m) m)
  exact h.ite (h.oweSweeps r)

/-- The MODE that a clear to `m` leaves. -/
def clearMode (s : State) (r : Nat) (m : Option (BitVec 2)) : Nat := (m.map (·.toNat)).getD (rgnMode s r)

theorem nextEpoch_lt {e : Nat} (h : e < 4) : nextEpoch e < 4 := by
  unfold nextEpoch
  split <;> omega

theorem rgnIs_pointEpoch (s : State) (r : Nat) (m : Option (BitVec 2)) :
    (localChange s r m = true → RgnIs r 0 3 (rgnMode s r) (pointEpoch s r m)) ∧
    (localChange s r m = false → rgnSweep s r < 3 →
      RgnIs r (nextEpoch (rgnEpoch s r)) (rgnSweep s r + 1) (rgnMode s r) (pointEpoch s r m)) := by
  obtain ⟨y, hy⟩ := noteCleared_eq s r
  have h : RgnIs r (rgnEpoch s r) (rgnSweep s r) (rgnMode s r) { s with tums := y } := (RgnIs.self s r).congr rfl
  unfold pointEpoch
  rw [hy]
  refine ⟨fun hl => ?_, fun hl hs => ?_⟩
  · rw [if_pos hl]
    exact (h.setEpoch 0).setSweep 3
  · rw [if_neg (by rw [hl]; exact Bool.false_ne_true), h.epoch]
    have hset := (h.setEpoch (nextEpoch (rgnEpoch s r))).setSweep (rgnSweep s r + 1)
    rwa [Nat.mod_eq_of_lt (nextEpoch_lt (bits_lt ..)), Nat.mod_eq_of_lt (show rgnSweep s r + 1 < 4 by omega)] at hset

theorem rgnIs_pointMode {e w : Nat} {m : Option (BitVec 2)} (h : RgnIs r e w (rgnMode s r) u) :
    RgnIs r e w (clearMode s r m) (pointMode u r m) := by
  cases m with
  | none => exact h
  | some m =>
    have hset := h.setMode m.toNat
    rw [Nat.mod_eq_of_lt (show m.toNat < 4 from m.isLt)] at hset
    exact hset.congr rfl

theorem rgnIs_pointRest {e w m : Nat} (h : RgnIs r e w m u) : RgnIs r e w m (pointRest u r) := by
  have hstored := h.congr (rd_storeRegion u r (rgnReg r))
  have horphan : RgnIs r e w m { storeRegion u r with pair := { (storeRegion u r).pair with
      orphan := (storeRegion u r).pair.orphan.filter (· != r) } } := hstored.congr rfl
  unfold pointRest
  dsimp only
  split
  · exact horphan.setDiverged
  · exact horphan

/-- A region at its clear point. -/
theorem rgnIs_clearPoint (s : State) (r : Nat) (m : Option (BitVec 2)) :
    (localChange s r m = true → RgnIs r 0 3 (clearMode s r m) (clearPoint s r m)) ∧
    (localChange s r m = false → rgnSweep s r < 3 →
      RgnIs r (nextEpoch (rgnEpoch s r)) (rgnSweep s r + 1) (clearMode s r m) (clearPoint s r m)) := by
  obtain ⟨hmove, hstay⟩ := rgnIs_pointEpoch s r m
  have hrest {e w : Nat} (h : RgnIs r e w (rgnMode s r) (pointEpoch s r m)) :
      RgnIs r e w (clearMode s r m) (clearPoint s r m) := by
    have hr := rgnIs_pointRest (rgnIs_pointMode (m := m) h)
    rw [clearPoint_eq]
    split
    · exact hr
    · exact hr.congr rfl
  exact ⟨fun hl => hrest (hmove hl), fun hl hs => hrest (hstay hl hs)⟩

/-! ## The clears of a command -/

/-- An element that is found is found after a change that leaves what is looked for. -/
theorem find?_modify {α : Type} {q : α → Bool} {f : α → α} (hf : ∀ x, q (f x) = q x) (l : List α) (i : Nat) {x : α}
    (h : l.find? q = some x) : (l.modify i f).find? q = some x ∨ (l.modify i f).find? q = some (f x) := by
  induction l generalizing i with
  | nil => exact absurd h nofun
  | cons a l ih =>
    cases i with
    | zero =>
      rw [List.modify_zero_cons, List.find?_cons, hf]
      rw [List.find?_cons] at h
      cases hq : q a with
      | true =>
        rw [hq] at h
        cases h
        exact .inr rfl
      | false =>
        rw [hq] at h
        exact .inl h
    | succ i =>
      rw [List.modify_succ_cons, List.find?_cons]
      rw [List.find?_cons] at h
      cases hq : q a with
      | true =>
        rw [hq] at h
        exact .inl h
      | false =>
        rw [hq] at h
        exact ih i h

/-- The clear that holds region `k` is one to mode `m` of command `c`. -/
def HeldFor (s : State) (c : Cmd) (m : Option (BitVec 2)) (k : Nat) : Prop :=
  ∃ x, clearOf s k = some x ∧ x.cmd = some c ∧ x.mode = m

theorem heldFor_congr {c : Cmd} {m : Option (BitVec 2)} {k : Nat} (h : HeldFor s c m k) (hu : u.clears = s.clears) :
    HeldFor u c m k := by
  obtain ⟨x, hx, hc, hm⟩ := h
  exact ⟨x, by rw [clearOf, hu, ← clearOf, hx], hc, hm⟩

/-- Region `r` leaves the clear that holds it. -/
def clearPassed (s : State) (r : Nat) : State :=
  modClear s r (fun x => { x with held := x.held.erase r, passed := x.passed ++ (if x.cmd.isSome then [r] else []) })

theorem heldFor_clearPassed {c : Cmd} {m : Option (BitVec 2)} {k : Nat} (h : HeldFor s c m k) (hk : k ≠ r) :
    HeldFor (clearPassed s r) c m k := by
  obtain ⟨x, hx, hc, hm⟩ := h
  unfold clearPassed modClear
  split
  · next i _ =>
    have hf (y : ClearCmd) : (y.held.erase r).contains k = y.held.contains k := by
      rw [Bool.eq_iff_iff, List.contains_iff_mem, List.contains_iff_mem]
      exact List.mem_erase_of_ne hk
    have hor := find?_modify (q := fun y : ClearCmd => y.held.contains k)
      (f := fun y => { y with held := y.held.erase r, passed := y.passed ++ (if y.cmd.isSome then [r] else []) }) hf s.clears i hx
    exact hor.elim (fun hn => ⟨x, hn, hc, hm⟩) (fun hn => ⟨_, hn, hc, hm⟩)
  · exact ⟨x, hx, hc, hm⟩

theorem startReinit_eq (s : State) (g : Nat) : ∃ x y, startReinit s g = { s with reinits := x, tums := y } := by
  unfold startReinit
  dsimp only
  split
  · obtain ⟨y, hy⟩ := foldl_tums wakeTum_eq (List.range 64) { s with reinits := s.reinits ++ [{
      group := g, regions := (List.range 64).map (64 * g + ·), before := _, boot := false }] }
    exact ⟨_, y, hy⟩
  · exact ⟨_, _, rfl⟩

/-- What a clear leaves of region `r`, from the state `s` in which its command began. -/
structure RegionCleared (s : State) (m : Option (BitVec 2)) (r : Nat) (u : State) : Prop where
  move : localChange s r m = true → RgnIs r 0 3 (clearMode s r m) u
  next : localChange s r m = false → rgnSweep s r < 2 →
    RgnIs r (nextEpoch (rgnEpoch s r)) (rgnSweep s r + 1) (clearMode s r m) u
  waits : rgnSweep s r = 2 → RgnIs r (rgnEpoch s r) (rgnSweep s r) (rgnMode s r) u

theorem RegionCleared.congr {m : Option (BitVec 2)} (h : RegionCleared s m r u) (hr : rd v (rgnReg r) = rd u (rgnReg r)) :
    RegionCleared s m r v :=
  ⟨fun hl => (h.move hl).congr hr, fun hl hs => (h.next hl hs).congr hr, fun hs => (h.waits hs).congr hr⟩

/-- A clear takes effect outside a pair. -/
theorem clearEffect_eq {x : ClearCmd} {c : Cmd} (hx : clearOf s r = some x) (hc : x.cmd = some c) : clearEffect s r =
    if localChange s r x.mode then startReinit (clearPoint s r x.mode) (r / 64) else clearPassed (clearPoint s r x.mode) r := by
  unfold clearEffect
  rw [hx]
  dsimp only
  rw [hc]
  rfl

theorem advanceClear_eq {x : ClearCmd} {c : Cmd} (hp : pairUp s = false) (hx : clearOf s r = some x) (hc : x.cmd = some c) :
    advanceClear s r = if rgnSweep s r = 2 then s else
      if localChange s r x.mode then startReinit (clearPoint s r x.mode) (r / 64) else clearPassed (clearPoint s r x.mode) r := by
  unfold advanceClear
  rw [hx]
  dsimp only
  rw [hp, clearEffect_eq hx hc]
  rfl

theorem clearPassed_eq (s : State) (r : Nat) : ∃ x, clearPassed s r = { s with clears := x } := modClear_eq ..

/-- What holds of `u` when the first `i` regions of a command outside a pair have met their clear, from `s` on. -/
structure ClearsGone (s : State) (c : Cmd) (first n : Nat) (m : Option (BitVec 2)) (i : Nat) (u : State) : Prop where
  cmds : u.cmds = s.cmds
  dram : u.dram = s.dram
  pair : u.pair.state = s.pair.state
  others : ∀ k, k < first ∨ first + i ≤ k → rd u (rgnReg k) = rd s (rgnReg k)
  held : ∀ j, i ≤ j → j < n → HeldFor u c m (first + j)
  cleared : ∀ j, j < i → RegionCleared s m (first + j) u

theorem rgnReg_ne {a b : Nat} (h : a ≠ b) : rgnReg a ≠ rgnReg b := fun he => h (rgnReg_inj he)

theorem localChange_congr {m : Option (BitVec 2)} (h : rd u (rgnReg r) = rd s (rgnReg r)) :
    localChange u r m = localChange s r m := by
  cases m with
  | none => rfl
  | some m => rw [localChange, rgnMode, fld_congr h, localChange, rgnMode]

/-- The next region's clear: the steps after its clear point keep the registers. -/
theorem ClearsGone.step {c : Cmd} {first n i : Nat} {m : Option (BitVec 2)} (h : ClearsGone s c first n m i u)
    (hv : ClearKept (first + i) u v) (hheld : ∀ j, i + 1 ≤ j → j < n → HeldFor v c m (first + j))
    (hc : RegionCleared s m (first + i) v) : ClearsGone s c first n m (i + 1) v where
  cmds := hv.cmds.trans h.cmds
  dram := hv.dram.trans h.dram
  pair := hv.pair.trans h.pair
  others k hk := (hv.regs _ (rgnReg_ne (by omega))).trans (h.others k (by omega))
  held := hheld
  cleared j hj := by
    by_cases hji : j = i
    · exact hji ▸ hc
    · exact (h.cleared j (by omega)).congr (hv.regs _ (rgnReg_ne (by omega)))

theorem ClearsGone.next {c : Cmd} {first n i : Nat} {m : Option (BitVec 2)} (h : ClearsGone s c first n m i u)
    (hp : pairUp s = false) (hi : i < n) (hfree : localChange s (first + i) m = true → rgnSweep s (first + i) = 0)
    (hready : localChange s (first + i) m = false → rgnSweep s (first + i) ≠ 3) :
    ClearsGone s c first n m (i + 1) (advanceClear u (first + i)) := by
  have hup : pairUp u = false := by rw [pairUp, h.pair, ← pairUp, hp]
  have hreg := h.others (first + i) (.inr (Nat.le_refl _))
  have hlocal := localChange_congr (m := m) hreg
  have hsweep : rgnSweep u (first + i) = rgnSweep s (first + i) := fld_congr hreg 3 2
  have hepoch : rgnEpoch u (first + i) = rgnEpoch s (first + i) := fld_congr hreg 1 0
  have hmode : clearMode u (first + i) m = clearMode s (first + i) m := by
    rw [clearMode, rgnMode, fld_congr hreg, clearMode, rgnMode]
  obtain ⟨x, hx, hxc, hxm⟩ := h.held i (Nat.le_refl i) hi
  have hkept := clearKept_clearPoint u (first + i) m
  obtain ⟨hmove, hnext⟩ := rgnIs_clearPoint u (first + i) m
  rw [advanceClear_eq hup hx hxc, hxm, hlocal, hsweep]
  rw [hlocal, hmode] at hmove
  rw [hlocal, hmode, hsweep, hepoch] at hnext
  have hold : RgnIs (first + i) (rgnEpoch s (first + i)) (rgnSweep s (first + i)) (rgnMode s (first + i)) u :=
    (RgnIs.self s _).congr hreg
  generalize clearPoint u (first + i) m = y at *
  by_cases h2 : rgnSweep s (first + i) = 2
  · have hstay : localChange s (first + i) m = false := by
      by_contra hl
      rw [Bool.not_eq_false] at hl
      exact absurd (h2.symm.trans (hfree hl)) (by decide)
    rw [if_pos h2]
    refine h.step (ClearKept.refl _ u) (fun j hj hjn => h.held j (by omega) hjn) ⟨fun hl => ?_, fun _ hs => ?_, fun _ => hold⟩
    · exact absurd (hl.symm.trans hstay) nofun
    · omega
  · rw [if_neg h2]
    by_cases hl : localChange s (first + i) m = true
    · rw [if_pos hl]
      obtain ⟨a, b, hre⟩ := startReinit_eq y ((first + i) / 64)
      have hstart : ClearKept (first + i) y (startReinit y ((first + i) / 64)) := by
        rw [hre]
        exact ⟨rfl, rfl, rfl, rfl, rfl, fun _ _ => rfl⟩
      have hrd : rd (startReinit y ((first + i) / 64)) (rgnReg (first + i)) = rd y (rgnReg (first + i)) := by
        rw [hre]
        rfl
      refine h.step (hkept.trans hstart) (fun j hj hjn => heldFor_congr (h.held j (by omega) hjn)
        (hstart.clears.trans hkept.clears)) ⟨fun _ => (hmove hl).congr hrd, fun hs => ?_, fun hs => absurd hs h2⟩
      exact absurd (hl.symm.trans hs) nofun
    · rw [if_neg hl]
      rw [Bool.not_eq_true] at hl
      have hlt : rgnSweep s (first + i) < 3 := by
        have h4 : rgnSweep s (first + i) < 4 := bits_lt ..
        have h3 := hready hl
        omega
      obtain ⟨a, hpa⟩ := clearPassed_eq y (first + i)
      have hpassed : ClearKept (first + i) { y with clears := (clearPassed y (first + i)).clears }
          (clearPassed y (first + i)) := by
        rw [hpa]
        exact ClearKept.refl _ _
      have hall (o : Nat) : rd (clearPassed y (first + i)) o = rd y o := by
        rw [hpa]
        rfl
      have hheld (j : Nat) (hj : i + 1 ≤ j) (hjn : j < n) : HeldFor (clearPassed y (first + i)) c m (first + j) :=
        heldFor_clearPassed (heldFor_congr (h.held j (by omega) hjn) hkept.clears) (by omega)
      refine ⟨hpassed.cmds.trans (hkept.cmds.trans h.cmds), hpassed.dram.trans (hkept.dram.trans h.dram),
        hpassed.pair.trans (hkept.pair.trans h.pair), fun k hk => ?_, hheld, fun j hj => ?_⟩
      · exact (hall _).trans ((hkept.regs _ (rgnReg_ne (by omega))).trans (h.others k (by omega)))
      · by_cases hji : j = i
        · subst hji
          exact ⟨fun hm => absurd (hm.symm.trans hl) nofun, fun _ _ => (hnext hl hlt).congr (hall _), fun hs => absurd hs h2⟩
        · exact (h.cleared j (by omega)).congr ((hall _).trans (hkept.regs _ (rgnReg_ne (by omega))))

/-! ## REGION_CLEAR -/

/-- REGION_CLEAR `c` has begun: its clear holds its regions. -/
def clearBegun (s : State) (c : Cmd) : State :=
  { begin s c with clears := s.clears ++ [{ cmd := some c, held := (List.range (clrCount c)).map (clrFirst c + ·), passed := [],
                                            mode := clrMode c, refused := false }] }

theorem startClears_eq (s : State) (c : Cmd) : startClears s c =
    (groupsOf (clrFirst c) (clrCount c)).foldl startReinit
      (((List.range (clrCount c)).map (clrFirst c + ·)).foldl (fun s r =>
        if pairUp s && !clearsHere s r then sendClear s r (clrMode c) else advanceClear s r) (clearBegun s c)) := rfl

theorem heldFor_clearBegun {c : Cmd} {k : Nat} (h : heldClear s k = false)
    (hk : k ∈ (List.range (clrCount c)).map (clrFirst c + ·)) : HeldFor (clearBegun s c) c (clrMode c) k := by
  have hnone : s.clears.find? (fun x => x.held.contains k) = none := clearOf_of_heldClear h
  refine ⟨{ cmd := some c, held := (List.range (clrCount c)).map (clrFirst c + ·), passed := [], mode := clrMode c,
            refused := false }, ?_, rfl, rfl⟩
  unfold clearOf clearBegun
  rw [List.find?_append, hnone, Option.none_or, List.find?_singleton, if_pos (List.contains_iff_mem.2 hk)]

theorem ready_of_clearBusy {m : Option (BitVec 2)} (h : clearBusy s r m = false) :
    (localChange s r m = true → rgnSweep s r = 0) ∧ (localChange s r m = false → rgnSweep s r ≠ 3) := by
  unfold clearBusy at h
  refine ⟨fun hl => ?_, fun hl => ?_⟩
  · rw [if_pos hl, Bool.or_eq_false_iff] at h
    simpa using h.1
  · rw [if_neg (by rw [hl]; exact Bool.false_ne_true), Bool.or_eq_false_iff] at h
    simpa using h.1

theorem heldClear_of_clearBusy {m : Option (BitVec 2)} (h : clearBusy s r m = false) : heldClear s r = false := by
  unfold clearBusy at h
  split at h
  · exact (Bool.or_eq_false_iff.1 h).2
  · exact (Bool.or_eq_false_iff.1 h).2

/-- The clears of a command outside a pair, one region after another. -/
theorem clearsGone_regions {c : Cmd} (hp : pairUp s = false)
    (hbusy : ∀ i, i < clrCount c → clearBusy s (clrFirst c + i) (clrMode c) = false) :
    ClearsGone (clearBegun s c) c (clrFirst c) (clrCount c) (clrMode c) (clrCount c)
      (((List.range (clrCount c)).map (clrFirst c + ·)).foldl (fun s r =>
        if pairUp s && !clearsHere s r then sendClear s r (clrMode c) else advanceClear s r) (clearBegun s c)) := by
  rw [List.foldl_map]
  refine foldUpTo_rule (P := ClearsGone (clearBegun s c) c (clrFirst c) (clrCount c) (clrMode c)) (n := clrCount c) ?_
    (fun i u hi hu => ?_)
  · exact ⟨rfl, rfl, rfl, fun _ _ => rfl, fun j _ hj => heldFor_clearBegun (heldClear_of_clearBusy (hbusy j hj))
      (List.mem_map_of_mem (List.mem_range.2 hj)), fun j hj => absurd hj (Nat.not_lt_zero j)⟩
  · have hup : pairUp u = false := by
      rw [pairUp, hu.pair]
      exact hp
    rw [hup, Bool.false_and, if_neg Bool.false_ne_true]
    have hlocal : localChange (clearBegun s c) (clrFirst c + i) (clrMode c) = localChange s (clrFirst c + i) (clrMode c) :=
      localChange_congr rfl
    have hsweep : rgnSweep (clearBegun s c) (clrFirst c + i) = rgnSweep s (clrFirst c + i) := fld_congr rfl 3 2
    obtain ⟨hfree, hready⟩ := ready_of_clearBusy (hbusy i hi)
    rw [← hlocal, ← hsweep] at hfree hready
    exact hu.next hp hi hfree hready

/-- Groups that are re-initialised change nothing that a clear has left. -/
theorem ClearsGone.groups {c : Cmd} {first n i : Nat} {m : Option (BitVec 2)} (h : ClearsGone s c first n m i u)
    (l : List Nat) : ClearsGone s c first n m i (l.foldl startReinit u) := by
  induction l generalizing u with
  | nil => exact h
  | cons g l ih =>
    refine ih ?_
    obtain ⟨x, y, he⟩ := startReinit_eq u g
    rw [he]
    exact ⟨h.cmds, h.dram, h.pair, h.others, fun j hj hjn => heldFor_congr (h.held j hj hjn) rfl,
      fun j hj => (h.cleared j hj).congr rfl⟩

/-- What a clear leaves depends on the region's register alone. -/
theorem RegionCleared.base {m : Option (BitVec 2)} (h : RegionCleared s m r u) (hr : rd v (rgnReg r) = rd s (rgnReg r)) :
    RegionCleared v m r u := by
  have hl := localChange_congr (m := m) hr
  have hw : rgnSweep v r = rgnSweep s r := fld_congr hr 3 2
  have he : rgnEpoch v r = rgnEpoch s r := fld_congr hr 1 0
  have hd : rgnMode v r = rgnMode s r := fld_congr hr 9 8
  have hm : clearMode v r m = clearMode s r m := by rw [clearMode, hd, clearMode]
  obtain ⟨h1, h2, h3⟩ := h
  rw [← hl, ← hm] at h1
  rw [← hl, ← hm, ← hw, ← he] at h2
  rw [← hw, ← he, ← hd] at h3
  exact ⟨h1, h2, h3⟩

theorem mem_of_localChange {m : Option (BitVec 2)} (h : localChange s r m = true) :
    some (BitVec.ofNat 2 (clearMode s r m)) = m := by
  cases m with
  | none => exact absurd h nofun
  | some m =>
    rw [clearMode, Option.map_some, Option.getD_some, BitVec.ofNat_toNat]
    exact congrArg some (BitVec.setWidth_eq m)

/-- A REGION_CLEAR that passes its checks starts its clears. -/
theorem exec_regionClear {c : Cmd} (h : ready s c 0x0200 = true) (h0 : 0 < clrCount c) (hn : clrCount c ≤ 65536)
    (hr : clrFirst c + clrCount c ≤ s.part.regions) (hm : clrMode c ≠ some 3)
    (hg : partialGroup s (clrFirst c) (clrCount c) (clrMode c) = false)
    (hb : ∀ i, i < clrCount c → clearBusy s (clrFirst c + i) (clrMode c) = false) (hf : s.mramFenced = false) :
    exec (.regionClear c) s = .next (startClears s c) := by
  have hbusy : (List.range (clrCount c)).any (fun i => clearBusy s (clrFirst c + i) (clrMode c)) = false :=
    List.any_eq_false.2 (fun i hi => by rw [hb i (List.mem_range.1 hi)]; exact Bool.false_ne_true)
  show execRegionClear c s = _
  unfold execRegionClear
  dsimp only
  rw [runCmd_of_ready h]
  refine congrArg Host.Outcome.next (orFail_of_passes ?_ s _ c)
  refine passes_cons ?_ _ (passes_cons (decide_eq_false (Nat.not_lt.2 hr)) _ (passes_cons (decide_eq_false hm) _ (passes_cons hg _
    (passes_cons hbusy _ (passes_cons hf _ (fun e he => absurd he List.not_mem_nil))))))
  rw [decide_eq_false h0.ne', decide_eq_false (Nat.not_lt.2 hn)]
  rfl

theorem regionClear_clears {c : Cmd} (h : ready s c 0x0200 = true) (hp : pairUp s = false) (h0 : 0 < clrCount c)
    (hn : clrCount c ≤ 65536) (hr : clrFirst c + clrCount c ≤ s.part.regions) (hm : clrMode c ≠ some 3)
    (hg : partialGroup s (clrFirst c) (clrCount c) (clrMode c) = false)
    (hb : ∀ i, i < clrCount c → clearBusy s (clrFirst c + i) (clrMode c) = false) (hf : s.mramFenced = false) :
    Completes (.regionClear c) s (fun u => c ∈ u.cmds.begun ∧ u.dram = s.dram ∧
      (∀ j, j < clrCount c → RegionCleared s (clrMode c) (clrFirst c + j) u) ∧
      ∀ r, (r < clrFirst c ∨ clrFirst c + clrCount c ≤ r) → rd u (rgnReg r) = rd s (rgnReg r)) := by
  have hexec := exec_regionClear h h0 hn hr hm hg hb hf
  have hgone := (clearsGone_regions hp hb).groups (groupsOf (clrFirst c) (clrCount c))
  rw [← startClears_eq] at hgone
  have hbegun : c ∈ (clearBegun s c).cmds.begun := List.mem_append_right _ (List.mem_singleton_self c)
  have hbegunNow : c ∈ (startClears s c).cmds.begun := by rw [hgone.cmds]; exact hbegun
  refine ⟨startClears s c, hexec, hbegunNow, hgone.dram, fun j hj => ?_, hgone.others⟩
  exact (hgone.cleared j hj).base rfl

/-! ## REGION_CLEAR_DONE -/

/-- The one clear under way has a region done with. -/
theorem exec_regionClearDone {r : BitVec 16} {x : ClearCmd} (hs : s.clears = [x]) (hx : x.passed.contains r.toNat = true) :
    exec (.regionClearDone r) s =
      .next (settleClears { s with clears := [{ x with passed := x.passed.erase r.toNat }] }) := by
  show execRegionClearDone r s = _
  unfold execRegionClearDone
  rw [hs, List.findIdx?_cons, hx]
  rfl

theorem settleClears_done {x : ClearCmd} {c : Cmd} (hc : x.cmd = some c) (hr : x.refused = false) (hh : x.held = [])
    (hp : x.passed = []) : settleClears { s with clears := [x] } = answer { s with clears := [] } c rcSuccess := by
  have hdone : (x.held.isEmpty && x.passed.isEmpty) = true := by rw [hh, hp]; rfl
  unfold settleClears
  simp only [List.filter_cons, hdone, if_true, Bool.not_true, Bool.false_eq_true, if_false, List.filter_nil, List.foldl_cons,
    List.foldl_nil, hc, hr]
  rfl

theorem settleClears_open {x : ClearCmd} (h : x.held ≠ [] ∨ x.passed ≠ []) :
    settleClears { s with clears := [x] } = { s with clears := [x] } := by
  have hopen : (x.held.isEmpty && x.passed.isEmpty) = false := by
    rw [Bool.and_eq_false_iff, List.isEmpty_eq_false_iff, List.isEmpty_eq_false_iff]
    exact h
  unfold settleClears
  simp only [List.filter_cons, hopen, Bool.false_eq_true, if_false, Bool.not_false, if_true, List.filter_nil, List.foldl_nil]

/-- Settles O19: a command's regions one after another (`ClearsGone.next`), each at its clear point (`rgnIs_clearPoint`). -/
theorem clearedRegions : Obligations.ClearedRegions := by
  refine ⟨fun s c h hp => ?_, fun s r x c hs hx hc hr => ⟨fun hh hpas => ?_, fun hor => ?_⟩⟩
  · intro first n m h0 hn hr hm hg hb hf
    obtain ⟨u, hexec, hbegun, hdram, hcleared, hother⟩ := regionClear_clears h hp h0 hn hr hm hg hb hf
    refine ⟨u, hexec, hbegun, hdram, fun k hk => ⟨fun hf hl hloc => ?_, fun hf hl hloc hs => ?_, fun hor => ?_⟩⟩
    · have hkj : first + (k - first) = k := Nat.add_sub_of_le hf
      obtain ⟨he, hw, hmode⟩ := (hkj ▸ hcleared (k - first) (by omega)).move hloc
      exact ⟨he, hw, by rw [hmode]; exact mem_of_localChange hloc⟩
    · have hkj : first + (k - first) = k := Nat.add_sub_of_le hf
      obtain ⟨he, hw, hmode⟩ := (hkj ▸ hcleared (k - first) (by omega)).next hloc hs
      exact ⟨he, hw, hmode⟩
    · have hsame : RgnIs k (rgnEpoch s k) (rgnSweep s k) (rgnMode s k) u := by
        by_cases hout : k < first ∨ first + n ≤ k
        · exact (RgnIs.self s k).congr (hother k hout)
        · have hkj : first + (k - first) = k := by omega
          exact (hkj ▸ hcleared (k - first) (by omega)).waits (by omega)
      exact ⟨hsame.epoch, hsame.sweep, hsame.mode⟩
  · rw [exec_regionClearDone hs hx, settleClears_done (x := { x with passed := x.passed.erase r.toNat }) hc hr hh hpas]
  · rw [exec_regionClearDone hs hx, settleClears_open (x := { x with passed := x.passed.erase r.toNat }) hor]

end Sys2Proof.Machine
end

section
/-! PROOF. What a fault recorded during the boot leaves unchanged (R457, R467, R508). -/

namespace Sys2Proof.Machine

open Sys2Proof

/-- What a fault of the Sentinel, of an IVR controller or of a leaf keeps: the part, the memories, the reset of the Hasp core
domain, whether the boot preserves, and GBL_BOOT_STAT. -/
structure FaultKept (s u : State) : Prop where
  part : u.part = s.part
  dram : u.dram = s.dram
  mram : u.mram = s.mram
  haspUp : u.power.haspUp = s.power.haspUp
  preserve : u.power.preserve = s.power.preserve
  bootStat : rd u 0x44 = rd s 0x44

namespace FaultKept

theorem refl (s : State) : FaultKept s s := ⟨rfl, rfl, rfl, rfl, rfl, rfl⟩

variable {s u v : State}

theorem trans (h : FaultKept s u) (h' : FaultKept u v) : FaultKept s v :=
  ⟨h'.part.trans h.part, h'.dram.trans h.dram, h'.mram.trans h.mram, h'.haspUp.trans h.haspUp,
    h'.preserve.trans h.preserve, h'.bootStat.trans h.bootStat⟩

theorem ite {c : Prop} [Decidable c] (hu : FaultKept s u) (hv : FaultKept s v) : FaultKept s (if c then u else v) := by
  split
  · exact hu
  · exact hv

/-- A step after the first choice, or without it. -/
theorem ifElse {c : Prop} [Decidable c] (hu : FaultKept s u) (hv : FaultKept s u → FaultKept s v) :
    FaultKept s (if c then u else v) := hu.ite (hv hu)

theorem foldl {β : Type} {f : State → β → State} (h : FaultKept s u) (hf : ∀ u b, FaultKept s u → FaultKept s (f u b))
    (l : List β) : FaultKept s (l.foldl f u) := by
  induction l generalizing u with
  | nil => exact h
  | cons b r ih => exact ih (hf u b h)

theorem foldUpTo {f : State → Nat → State} (h : FaultKept s u) (hf : ∀ u b, FaultKept s u → FaultKept s (f u b)) (n : Nat) :
    FaultKept s (foldUpTo n f u) := h.foldl hf _

/-! ## The state's operations -/

/-- An update of fields that are not kept. -/
theorem update (h : FaultKept s u) (pending : List Instr)
    (now : BitVec 64) (free : Nat) (shadow : Tab (Option Reg32)) (readOut : Tab Reg32)
    (sram : List Host.Cell) (mramFenced : Bool) (tums : Tab Tumbler) (leaves : Tab LeafS)
    (waiting : List Access) (live : List (Nat × BitVec 18 × BitVec 12)) (nextId : Nat) (sweeps : List SweepT)
    (clears : List ClearCmd) (reinits : List Reinit) (engines : Tab Engine) (scans : Tab (Option Scan)) (ward : Ward)
    (ports : Tab Port) (pair : Pair) (cmds : Cmds) (rings : Tab RingS) (dmas : List Dma) (usb : Usb)
    (cores : Tab Core) (update : Option Update) (pulses : List (BitVec 12 × Word64)) (flts : Tab FltS)
    (shadows : List Shadow) (logTail : List Entry) (logSeq : BitVec 32) (counts : Tab (BitVec 48)) (dump : Dump)
    (thermal : Thermal) (calib : Calib) (i3c : I3c) (jtag : Jtag) :
    FaultKept s (State.mk u.part pending now free u.csr shadow readOut u.dram sram u.mram mramFenced tums leaves waiting
      live nextId sweeps clears reinits engines scans ward ports pair cmds rings dmas usb cores update pulses flts
      shadows logTail logSeq counts dump u.power thermal calib i3c jtag) :=
  ⟨h.part, h.dram, h.mram, h.haspUp, h.preserve, h.bootStat⟩

theorem withPower (h : FaultKept s u) {x : Power} (hup : x.haspUp = u.power.haspUp) (hpre : x.preserve = u.power.preserve) :
    FaultKept s { u with power := x } :=
  ⟨h.part, h.dram, h.mram, hup.trans h.haspUp, hpre.trans h.preserve, h.bootStat⟩

theorem wr (h : FaultKept s u) {off : Nat} (v : Reg32) (ho : 0x44 ≠ off) : FaultKept s (wr u off v) :=
  ⟨h.part, h.dram, h.mram, h.haspUp, h.preserve, (rd_wr_other _ _ ho).trans h.bootStat⟩

theorem setF (h : FaultKept s u) {off : Nat} (hi lo x : Nat) (ho : 0x44 ≠ off) : FaultKept s (setF u off hi lo x) :=
  h.wr _ ho

theorem count (h : FaultKept s u) (slot n : Nat) : FaultKept s (count u slot n) := by
  obtain ⟨c, hc⟩ := count_eq u slot n
  rw [hc]
  exact h.update ..

theorem setPort (h : FaultKept s u) (p : Nat) (x : Port) : FaultKept s (u.setPort p x) := h.update ..

theorem modPort (h : FaultKept s u) (p : Nat) (f : Port → Port) : FaultKept s (u.modPort p f) := h.setPort ..

theorem setTum (h : FaultKept s u) (t : Nat) (x : Tumbler) : FaultKept s (u.setTum t x) := h.update ..

theorem setFlt (h : FaultKept s u) (b : FltSet) (x : FltS) : FaultKept s (u.setFlt b x) := h.update ..

theorem setRing (h : FaultKept s u) (n : Nat) (x : RingS) : FaultKept s (u.setRing n x) := h.update ..

theorem setCore (h : FaultKept s u) (n : Nat) (x : Core) : FaultKept s (u.setCore n x) := h.update ..

theorem dropTaken (h : FaultKept s u) (src : CmdSrc) : FaultKept s (dropTaken u src) := h.update ..

theorem openShadow (h : FaultKept s u) (b : FltSet) (fatal : Bool) : FaultKept s (openShadow u b fatal) := h.update ..

theorem ibi (h : FaultKept s u) (b : Byte) (i : Nat) : FaultKept s (ibi u b i) := by
  unfold Machine.ibi
  exact (h.update ..).ite h

theorem setAlert (h : FaultKept s u) (a : Bool) : FaultKept s (setAlert u a) := by
  have hp : FaultKept s { u with power := { u.power with alert := a } } := h.withPower rfl rfl
  exact (hp.ibi ..).ite hp

/-! ## Recording (R403 to R407) -/

theorem record (h : FaultKept s u) (b : FltSet) (c : Nat) (detail : BitVec 96) (n : Nat) :
    FaultKept s (record u b c detail n).1 := by
  have hbase := fltBase_ge b
  have hsev : 0x44 ≠ sevReg b c := by unfold sevReg; omega
  have hcond : FaultKept s (if (faultClass b c).1 = true then
      u.setFlt b { u.flt b with cond := (u.flt b).cond ||| BitVec.ofNat 24 (2 ^ c) } else u) := (h.setFlt ..).ite h
  have hentry {v : State} (hv : FaultKept s v) (sev sev' : Nat) (q e cons : Bool) : FaultKept s
      (setSev (Machine.setF (pushEntry v b c sev q e detail n) (fltBase b) c c 1) b c sev' cons) :=
    (FaultKept.setF (hv.update ..) _ _ _ (by omega)).setF _ _ _ hsev
  have hpair {v : State} (hv : FaultKept s v) :
      FaultKept s (if b = .pair then Machine.setF v (pairReg 0x18) 4 4 1 else v) := (hv.setF _ _ _ (by decide)).ite hv
  have halert {v : State} (hv : FaultKept s v) (sev : Nat) : FaultKept s (if 3 ≤ sev then Machine.setAlert v true else v) :=
    (hv.setAlert true).ite hv
  unfold Machine.record
  dsimp only
  split
  · exact hcond.count ..
  · exact hpair (halert ((hentry hcond ..).update ..) _)
  · exact halert (hpair (hentry hcond ..)) _

/-! ## A drain (R447) and a Fatal stop (R401) -/

theorem helloAll (h : FaultKept s u) (sub reason : Nat) : FaultKept s (helloAll u sub reason) := by
  refine h.foldl (fun v p hv => ?_) _
  obtain ⟨x, y, he⟩ := sendPair_eq v p 0x10 (helloPkt v sub reason)
  rw [he]
  exact hv.update ..

theorem beginDrain (h : FaultKept s u) (c : DrainCause) : FaultKept s (beginDrain u c) := by
  have hdrains {v : State} (hv : FaultKept s v) : FaultKept s { v with
      scans := [], power := { v.power with mode := .draining c, drained := 0, stopAt := v.now } } :=
    ⟨hv.part, hv.dram, hv.mram, hv.haspUp, hv.preserve, hv.bootStat⟩
  unfold Machine.beginDrain
  exact hdrains ((((h.setF _ _ _ (by decide)).setF _ _ _ (by decide)).helloAll 0 1).foldl (fun _ _ hv => hv.modPort ..) _)

theorem setPortF (h : FaultKept s u) (p o hi lo x : Nat) : FaultKept s (Machine.setF u (fpReg p o) hi lo x) :=
  h.setF _ _ _ (by unfold fpReg; omega)

theorem endEye (h : FaultKept s u) (p : Nat) : FaultKept s (endEye u p) := by
  have hfresh (c : Bool) : FaultKept s (if c = true then ((0 : BitVec 64), u) else fresh u).2 := by
    split
    · exact h
    · exact h.update ..
  have hended := (((hfresh (flag u (fpReg p 0x404) 4)).setPortF p 0x404 0 0 0).setPortF p 0x404 4 4 0).setPortF p 0x404 2 2 1
  exact h.ite (FaultKept.setPort ((hended.setPortF p 0x404 3 3 1).ite hended) ..)

theorem portRegsOff (h : FaultKept s u) (p : Nat) : FaultKept s (portRegsOff u p) := by
  have hwr {v : State} (hv : FaultKept s v) (o : Nat) (x : Reg32) : FaultKept s (Machine.wr v (fpReg p o) x) :=
    hv.wr _ (by unfold fpReg; omega)
  have hoff := (hwr ((hwr h 0x10 0xF).foldUpTo (fun _ l hv => hv.setPortF p (0x100 + 4 * l) 1 1 0) 17) 0x540 0).endEye p
  exact (hoff.setPortF ..).ite hoff

theorem portReset (h : FaultKept s u) (p : PortN) (dest : LinkState) : FaultKept s (portReset u p dest) := by
  unfold Machine.portReset
  exact ((((((h.openShadow ..).count ..).count ..).dropTaken ..).ifElse (fun h =>
    (h.count ..).record ..)).portRegsOff ..).setPort ..

theorem stopRing (h : FaultKept s u) (n : RingN) : FaultKept s (stopRing u n) := by
  unfold Machine.stopRing
  exact ((h.setRing ..).dropTaken ..).ifElse (fun h => (h.setF _ _ _ (by unfold ringReg; omega)).count ..)

theorem stopRings (h : FaultKept s u) : FaultKept s (stopRings u) := h.foldl (fun _ _ hu => (hu.stopRing _).setRing ..) _

theorem fatalStop (h : FaultKept s u) (b : FltSet) : FaultKept s (fatalStop u b) := by
  have hfatal {v : State} (hv : FaultKept s v) :
      FaultKept s { v with power := { v.power with fatal := true, drained := 0, stopAt := v.now } } := hv.withPower rfl rfl
  unfold Machine.fatalStop
  exact (((((hfatal (h.openShadow b true)).wr _ (by decide)).foldl (fun _ _ hu => hu.portReset ..) _).stopRings).foldl
    (fun _ _ hu => hu.setCore ..) _).setAlert true

/-! ## Reactions (R400, R500) -/

theorem leafReset (h : FaultKept s u) (l : LeafN) : FaultKept s (leafReset u l) := by
  have htrn {v : State} (hv : FaultKept s v) (t hi lo x : Nat) :
      FaultKept s (Machine.setF v (tumReg t 0x108) hi lo x) := hv.setF _ _ _ (by unfold tumReg; omega)
  unfold Machine.leafReset
  refine ((h.openShadow ..).count ..).foldl (fun v t hv => ?_) _
  have hcounted := hv.count (cTum t 3) (leafOpen (v.tum t) l)
  exact FaultKept.setTum ((htrn (htrn hcounted t 3 3 1) t 0 0 0).ite hcounted) ..

theorem leafFault (h : FaultKept s u) (l : LeafN) (c : Nat) (detail : BitVec 96) (n : Nat) :
    FaultKept s (fault u (.leaf l) c detail n) := by
  have hr := h.record (.leaf l) c detail n
  exact hr.ite (hr.leafReset l)

theorem senFault (h : FaultKept s u) (c : Nat) (detail : BitVec 96) (n : Nat) : FaultKept s (fault u .sen c detail n) := by
  have hr := h.record .sen c detail n
  unfold fault react
  dsimp only
  exact hr.ite (((hr.beginDrain _).ite hr).ite (hr.ite (hr.fatalStop .sen)))

theorem ivrFault (h : FaultKept s u) (k : Fin 8) (c : Nat) (detail : BitVec 96) (n : Nat) :
    FaultKept s (fault u (.ivr k) c detail n) := by
  have hr := h.record (.ivr k) c detail n
  have hrails := hr.foldl (fun _ r hv => hv.setF 11 0 (railNominal r)
    (by unfold senReg; omega : 0x44 ≠ senReg (0x100 + 4 * r))) (railsOf k)
  have hfreezes {v : State} (hv : FaultKept s v) :
      FaultKept s { v with power := { v.power with frozen := v.power.frozen ||| BitVec.ofNat 8 (2 ^ k.val) } } :=
    hv.withPower rfl rfl
  exact hr.ite ((hfreezes hrails).ite (hr.ite (hr.fatalStop (.ivr k))))

end FaultKept

end Sys2Proof.Machine
end

section
/-! PROOF. The store load of the boot: of MRAM it writes remap records alone (R164, R453, R466 to R468). -/

namespace Sys2Proof.Machine

open Sys2Proof

/-- Byte `a` of MRAM lies outside the remap records (R466). -/
def OffRemapRecords (a : Nat) : Prop := a < 0xB00000 ∨ 0xB40000 ≤ a

/-- What the store load keeps: the part, the leaf arrays, MRAM outside the remap records, and whether the boot preserves. -/
structure LoadKept (s u : State) : Prop where
  part : u.part = s.part
  dram : u.dram = s.dram
  mram : ∀ a, OffRemapRecords a → mramByte u a = mramByte s a
  preserve : u.power.preserve = s.power.preserve

/-- A write of MRAM changes its own bytes alone. -/
theorem mramByte_mramPut_other (s : State) {a b : Nat} {l : List Byte} (h : b < a ∨ a + l.length ≤ b) :
    mramByte (mramPut s a l) b = mramByte s b := by
  unfold mramPut
  split
  · rfl
  · rw [mramByte, count_mram, tget_cellPut, if_neg (by omega), mramByte]

namespace LoadKept

theorem refl (s : State) : LoadKept s s := ⟨rfl, rfl, fun _ _ => rfl, rfl⟩

variable {s u v : State}

theorem fault (h : LoadKept s u) (hf : FaultKept u v) : LoadKept s v where
  part := hf.part.trans h.part
  dram := hf.dram.trans h.dram
  mram a ha := by
    rw [mramByte, hf.mram]
    exact h.mram a ha
  preserve := hf.preserve.trans h.preserve

theorem ite {c : Prop} [Decidable c] (hu : LoadKept s u) (hv : LoadKept s v) : LoadKept s (if c then u else v) := by
  split
  · exact hu
  · exact hv

theorem foldUpTo {f : State → Nat → State} (h : LoadKept s u) (n : Nat)
    (hf : ∀ u i, i < n → LoadKept s u → LoadKept s (f u i)) : LoadKept s (foldUpTo n f u) :=
  foldUpTo_rule (P := fun _ u => LoadKept s u) h (fun i u hi hu => hf u i hi hu)

/-- A loop that carries a number beside the state. -/
theorem foldUpTo_fst {f : State × Nat → Nat → State × Nat} {a : State × Nat} (h : LoadKept s a.1) (n : Nat)
    (hf : ∀ a i, i < n → LoadKept s a.1 → LoadKept s (f a i).1) : LoadKept s (Machine.foldUpTo n f a).1 :=
  foldUpTo_rule (P := fun _ (a : State × Nat) => LoadKept s a.1) h (fun i a hi ha => hf a i hi ha)

/-- An update of fields that are not kept. -/
theorem update (h : LoadKept s u) (csr : Tab Reg32) (sweeps : List SweepT) (reinits : List Reinit) (pair : Pair)
    (counts : Tab (BitVec 48)) (calib : Calib) :
    LoadKept s { u with csr := csr, sweeps := sweeps, reinits := reinits, pair := pair, counts := counts, calib := calib } :=
  ⟨h.part, h.dram, h.mram, h.preserve⟩

theorem wr (h : LoadKept s u) (off : Nat) (v : Reg32) : LoadKept s (wr u off v) := h.update ..

theorem setF (h : LoadKept s u) (off hi lo x : Nat) : LoadKept s (setF u off hi lo x) := h.wr ..

/-! ## The calibration set (R468) -/

theorem loadBus (h : LoadKept s u) (b : Nat) : LoadKept s (loadBus u b) := by
  unfold Machine.loadBus
  refine h.foldUpTo _ (fun v t _ hv => ?_)
  have hmoves {w : State} (hw : LoadKept s w) (r : Nat) : LoadKept s (beginMove w t r) := (hw.update ..).ite hw
  exact hmoves (LoadKept.setF (hv.foldUpTo _ (fun w r _ hw =>
    (hw.foldUpTo _ (fun _ _ _ hx => hx.setF ..)).foldUpTo _ (fun _ _ _ hx => hx.wr ..))) ..) _

theorem loadTrims {a : State × Nat} (h : LoadKept s a.1) (b : Nat) : LoadKept s (loadTrims b a).1 := by
  unfold Machine.loadTrims
  dsimp only
  refine h.foldUpTo_fst _ (fun a i _ ha => ?_)
  split
  · exact ha
  · split
    · exact ha
    · split
      · exact ha.wr ..
      · exact ha.update ..

theorem loadCoefs {a : State × Nat} (h : LoadKept s a.1) (b : Nat) : LoadKept s (loadCoefs b a).1 := by
  unfold Machine.loadCoefs
  dsimp only
  refine h.foldUpTo_fst _ (fun a i _ ha => ?_)
  split
  · exact ha
  · exact (((ha.update ..).ite ha).update ..).ite ((ha.update ..).ite ha)

/-- A refused set-point is recorded by its rail's controller (R438). -/
theorem railSet_ivr : ∀ r : Fin 8, ∃ k : Fin 8, railSet r = .ivr k := by decide

theorem loadIvr {a : State × Nat} (h : LoadKept s a.1) (b : Nat) : LoadKept s (loadIvr b a).1 := by
  unfold Machine.loadIvr
  refine h.foldUpTo_fst _ (fun a r hr ha => ?_)
  dsimp only
  split
  · exact ha.setF ..
  · obtain ⟨k, hk⟩ := railSet_ivr ⟨r, hr⟩
    rw [show railSet r = .ivr k from hk]
    exact ha.fault ((FaultKept.refl a.1).ivrFault k 3 0 1)

theorem loadEq {a : State × Nat} (h : LoadKept s a.1) (b : Nat) : LoadKept s (loadEq b a).1 := by
  unfold Machine.loadEq
  dsimp only
  refine h.foldUpTo_fst _ (fun a i _ ha => ?_)
  split
  · exact ha.setF ..
  · exact ha

theorem loadStart {a : State × Nat} (h : LoadKept s a.1) (b : Nat) : LoadKept s (loadStart b a).1 := by
  unfold Machine.loadStart
  dsimp only
  split
  · exact h.update ..
  · exact h

theorem loadSpeed {a : State × Nat} (h : LoadKept s a.1) (b : Nat) : LoadKept s (loadSpeed b a).1 := by
  unfold Machine.loadSpeed
  dsimp only
  refine h.foldUpTo_fst _ (fun a i _ ha => ?_)
  split
  · exact ha.update ..
  · exact ha

theorem loadCal (h : LoadKept s u) (k : Nat) : LoadKept s (loadCal u k).1 := by
  have hset (f : Bool) {a : State × Nat} (ha : LoadKept s a.1) : LoadKept s (calLoaded f a).1 :=
    ha.ite (ha.fault ((FaultKept.refl a.1).senFault 7 0 a.2))
  exact hset _ (((((((h.loadBus _).loadTrims (a := (_, 0)) _).loadCoefs _).loadIvr _).loadEq _).loadStart _).loadSpeed _)

/-! ## Records (R466) -/

theorem loadLeaf (h : LoadKept s u) (t : Nat) : LoadKept s (loadLeaf u t) := by
  unfold Machine.loadLeaf
  split
  · exact h
  · exact (h.foldUpTo _ (fun _ _ _ hv => hv.wr ..)).foldUpTo _ (fun _ _ _ hv => hv.wr ..)

/-- A write of MRAM that lies in the remap records. -/
theorem mramPut (h : LoadKept s u) {a : Nat} {l : List Byte} (h0 : 0xB00000 ≤ a) (h1 : a + l.length ≤ 0xB40000) :
    LoadKept s (mramPut u a l) := by
  obtain ⟨m, c, he⟩ := mramPut_eq u a l
  refine ⟨?_, ?_, fun b hb => ?_, ?_⟩
  · rw [he]; exact h.part
  · rw [he]; exact h.dram
  · rw [mramByte_mramPut_other u (by unfold OffRemapRecords at hb; omega)]
    exact h.mram b hb
  · rw [he]; exact h.preserve

theorem loadRemap (h : LoadKept s u) {i : Nat} (hi : i < 32768) : LoadKept s (loadRemap u i) := by
  have hlen : (leBytes 8 0).length = 8 := by decide
  unfold Machine.loadRemap
  exact h.ite ((h.mramPut (by omega) (by omega)).ite ((h.wr ..).wr ..))

/-! ## The preserved boot (R453) -/

theorem loadRegions (h : LoadKept s u) (paired : Bool) : LoadKept s (loadRegions u paired) := by
  unfold Machine.loadRegions
  refine h.foldUpTo _ (fun v r _ hv => ?_)
  have hput {w : State} (hw : LoadKept s w) (e x m o : Nat) : LoadKept s (putRegion w r e x m o) := hw.wr ..
  have hloaded (e x m o : Nat) : LoadKept s (if restoresAnew v r then putRegion v r 0 3 0 0 else putRegion v r e x m o) :=
    (hput hv ..).ite (hput hv ..)
  exact ((hloaded ..).setF ..).ite (hloaded ..)

theorem restartSweeps (h : LoadKept s u) : LoadKept s (restartSweeps u) := by
  unfold Machine.restartSweeps
  refine (h.foldUpTo _ (fun v r _ hv => ?_)).foldUpTo _ (fun v g _ hv => hv.ite (hv.update ..))
  exact LoadKept.ite (hv.update ..) hv

theorem loadPair (h : LoadKept s u) : LoadKept s (loadPair u) := by
  unfold Machine.loadPair
  exact h.ite (LoadKept.update (((h.wr ..).setF ..).foldUpTo _ (fun _ _ _ hv => (hv.setF ..).ite hv)) ..)

theorem loadPreserved (h : LoadKept s u) : LoadKept s (loadPreserved u) := by
  unfold Machine.loadPreserved
  exact ((h.loadPair.loadRegions _).restartSweeps).setF ..

end LoadKept

end Sys2Proof.Machine
end

section
/-! PROOF. The bring-up of a tumbler and of a group (R502, R503). -/

namespace Sys2Proof.Machine

open Sys2Proof

/-- What the bring-up of tumbler `t` keeps: the part, the leaf arrays, the cores, what firmware has taken on, the other tumblers,
GBL_BOOT_STAT and the enables of the ports. -/
structure BringKept (t : Nat) (s u : State) : Prop where
  part : u.part = s.part
  dram : u.dram = s.dram
  cores : u.cores = s.cores
  taking : u.power.taking = s.power.taking
  groups : u.power.groups = s.power.groups
  tums : TumsBut t s u
  bootStat : rd u 0x44 = rd s 0x44
  enables : ∀ p, p < 16 → rd u (fpReg p 0x8000) = rd s (fpReg p 0x8000)

namespace BringKept

theorem refl (t : Nat) (s : State) : BringKept t s s := ⟨rfl, rfl, rfl, rfl, rfl, fun _ _ => rfl, rfl, fun _ _ => rfl⟩

variable {t : Nat} {s u v : State}

theorem ite {c : Prop} [Decidable c] (hu : BringKept t s u) (hv : BringKept t s v) : BringKept t s (if c then u else v) := by
  split
  · exact hu
  · exact hv

/-- A step after the first choice, or without it. -/
theorem ifElse {c : Prop} [Decidable c] (hu : BringKept t s u) (hv : BringKept t s u → BringKept t s v) :
    BringKept t s (if c then u else v) := hu.ite (hv hu)

theorem foldl {β : Type} {f : State → β → State} (h : BringKept t s u)
    (hf : ∀ u b, BringKept t s u → BringKept t s (f u b)) (l : List β) : BringKept t s (l.foldl f u) := by
  induction l generalizing u with
  | nil => exact h
  | cons b r ih => exact ih (hf u b h)

theorem foldUpTo {f : State → Nat → State} (h : BringKept t s u) (n : Nat)
    (hf : ∀ u i, i < n → BringKept t s u → BringKept t s (f u i)) : BringKept t s (foldUpTo n f u) :=
  foldUpTo_rule (P := fun _ u => BringKept t s u) h (fun i u hi hu => hf u i hi hu)

/-! ## The state's operations -/

theorem setTum (h : BringKept t s u) (x : Tumbler) : BringKept t s (u.setTum t x) where
  part := h.part
  dram := h.dram
  cores := h.cores
  taking := h.taking
  groups := h.groups
  tums k hk := (tum_setTum_other u x hk).trans (h.tums k hk)
  bootStat := h.bootStat
  enables := h.enables

theorem modTum (h : BringKept t s u) (f : Tumbler → Tumbler) : BringKept t s (u.modTum t f) := h.setTum _

theorem setMode (h : BringKept t s u) (f : TMode → TMode) : BringKept t s (setMode u t f) := h.setTum _

theorem setDram (h : BringKept t s u) (f : TDram → TDram) : BringKept t s (setDram u t f) := h.setTum _

theorem putSet (h : BringKept t s u) (l k : Nat) (x : RefSet) : BringKept t s (putSet u t l k x) := h.setTum _

theorem putBank (h : BringKept t s u) (n : Nat) (b : Bank) : BringKept t s (putBank u t n b) := h.setTum _

theorem putSlice (h : BringKept t s u) (l : Nat) (x : SliceTim) : BringKept t s (putSlice u t l x) := h.setTum _

/-- The bring-up writes registers between GBL_BOOT_STAT and those of the ports. -/
theorem wr (h : BringKept t s u) {off : Nat} (x : Reg32) (ho : 0x44 < off ∧ off < 0x2600000) : BringKept t s (wr u off x) where
  part := h.part
  dram := h.dram
  cores := h.cores
  taking := h.taking
  groups := h.groups
  tums := h.tums
  bootStat := (rd_wr_other u x (by omega)).trans h.bootStat
  enables p hp := (rd_wr_other u x (by unfold fpReg; omega)).trans (h.enables p hp)

theorem setF (h : BringKept t s u) {off : Nat} (hi lo x : Nat) (ho : 0x44 < off ∧ off < 0x2600000) : BringKept t s (setF u off hi lo x) :=
  h.wr _ ho

/-- An update of fields that are not kept. -/
theorem update (h : BringKept t s u) (free : Nat) (mram : List Host.Cell) (leaves : Tab LeafS) (sweeps : List SweepT)
    (flts : Tab FltS) (shadows : List Shadow) (logTail : List Entry) (logSeq : BitVec 32) (counts : Tab (BitVec 48))
    (thermal : Thermal) (i3c : I3c) :
    BringKept t s { u with
      free := free, mram := mram, leaves := leaves, sweeps := sweeps, flts := flts, shadows := shadows, logTail := logTail
      logSeq := logSeq, counts := counts, thermal := thermal, i3c := i3c } :=
  ⟨h.part, h.dram, h.cores, h.taking, h.groups, h.tums, h.bootStat, h.enables⟩

theorem count (h : BringKept t s u) (slot n : Nat) : BringKept t s (count u slot n) := by
  obtain ⟨c, hc⟩ := count_eq u slot n
  rw [hc]
  exact h.update ..

theorem fresh (h : BringKept t s u) : BringKept t s (fresh u).2 := h.update ..

theorem setFlt (h : BringKept t s u) (b : FltSet) (x : FltS) : BringKept t s (u.setFlt b x) := h.update ..

theorem setAlert (h : BringKept t s u) (a : Bool) : BringKept t s (setAlert u a) := by
  have hp : BringKept t s { u with power := { u.power with alert := a } } :=
    ⟨h.part, h.dram, h.cores, h.taking, h.groups, h.tums, h.bootStat, h.enables⟩
  have hibi : BringKept t s (ibi { u with power := { u.power with alert := a } } 0xA1 0) := by
    unfold ibi
    exact BringKept.ite (hp.update ..) hp
  exact hibi.ite hp

/-! ## Recording of a tumbler's fault (R403 to R407) -/

theorem recordTum (h : BringKept t s u) (k : Tum) {c : Nat} (hc : c < 24) (detail : BitVec 96) (n : Nat) :
    BringKept t s (record u (.tum k) c detail n).1 := by
  have hlow : (0x44 < fltBase (.tum k) ∧ fltBase (.tum k) < 0x2600000) ∧
      0x44 < sevReg (.tum k) c ∧ sevReg (.tum k) c < 0x2600000 := by
    simp only [sevReg, fltBase, tumReg]
    omega
  obtain ⟨hstat, hsev⟩ := hlow
  have hcond : BringKept t s (if (faultClass (.tum k) c).1 = true then
      u.setFlt (.tum k) { u.flt (.tum k) with cond := (u.flt (.tum k)).cond ||| BitVec.ofNat 24 (2 ^ c) } else u) :=
    (h.setFlt ..).ite h
  have hentry {v : State} (hv : BringKept t s v) (sev sev' : Nat) (q e cons : Bool) : BringKept t s
      (setSev (Machine.setF (pushEntry v (.tum k) c sev q e detail n) (fltBase (.tum k)) c c 1) (.tum k) c sev' cons) :=
    (BringKept.setF (hv.update ..) _ _ _ hstat).setF _ _ _ hsev
  have halert {v : State} (hv : BringKept t s v) (sev : Nat) :
      BringKept t s (if 3 ≤ sev then Machine.setAlert v true else v) := (hv.setAlert true).ite hv
  unfold record
  dsimp only
  split
  · exact hcond.count ..
  · exact halert ((hentry hcond ..).update ..) _
  · exact halert (hentry hcond ..) _

/-! ## Refresh and self-refresh -/

theorem advance (h : BringKept t s u) (n : Nat) : BringKept t s (advance u t n) := by
  unfold Machine.advance
  exact (BringKept.ite (h.update ..) h).setDram _

theorem issuePre (h : BringKept t s u) (n : Nat) : BringKept t s (issuePre u t n) :=
  ((h.putBank _ _).setDram _).count _ _

theorem issueNrr (h : BringKept t s u) (n : Nat) : BringKept t s (issueNrr u t n) := by
  unfold Machine.issueNrr
  dsimp only
  split
  · exact h
  · exact ((BringKept.update ((((h.putBank _ _).putSlice _ _).setDram _).modTum _) ..).count _ _).count _ _

theorem preNext (h : BringKept t s u) (n : Nat) : BringKept t s (preNext u t n) := ((h.advance _).issuePre n).advance 1

theorem nrrNext (h : BringKept t s u) (n : Nat) : BringKept t s (nrrNext u t n) :=
  ((((h.preNext n).ite h).advance _).issueNrr n).advance 1

theorem hammerRef (h : BringKept t s u) (l : Loc) : BringKept t s (hammerRef u t l) := h.ite (h.modTum _)

theorem refreshRows (h : BringKept t s u) (l k p n : Nat) : BringKept t s (refreshRows u t l k p n) :=
  h.foldUpTo _ (fun _ _ _ hu => hu.foldUpTo _ (fun _ _ _ hv => (hv.hammerRef _).hammerRef _))

theorem enterSelf (h : BringKept t s u) : BringKept t s (enterSelf u t) := by
  unfold Machine.enterSelf
  refine BringKept.setMode (BringKept.count (BringKept.foldl (BringKept.modTum (BringKept.foldl ?_
    (fun _ _ hv => hv.count ..) _) _) (fun _ _ hv => hv.update ..) _) _ _) _
  exact h.foldl (fun _ _ hv => (hv.refreshRows ..).putSet ..) _

theorem selfEntry (h : BringKept t s u) : BringKept t s (selfEntry u t) :=
  ((h.foldl (fun _ n hv => hv.nrrNext n) _).foldl (fun _ n hv => hv.preNext n) _).enterSelf

theorem restartRefresh (h : BringKept t s u) : BringKept t s (restartRefresh u t) := h.foldl (fun _ _ hv => hv.putSet _ _ _) _

theorem leaveSelf (h : BringKept t s u) : BringKept t s (leaveSelf u t) := (h.setMode _).restartRefresh.ite h

/-! ## Training (R502) -/

theorem setTumReg (h : BringKept t s u) (ht : t < 64) {o : Nat} (ho : o < 0x10000) (hi lo x : Nat) :
    BringKept t s (Machine.setF u (tumReg t o) hi lo x) := h.setF _ _ _ (by unfold tumReg; omega)

theorem wrTumReg (h : BringKept t s u) (ht : t < 64) {o : Nat} (ho : o < 0x10000) (x : Reg32) :
    BringKept t s (Machine.wr u (tumReg t o) x) := h.wr _ (by unfold tumReg; omega)

theorem trainSets (h : BringKept t s u) (ht : t < 64) : BringKept t s (trainSets u t) :=
  h.foldUpTo _ (fun _ _ hr hv => hv.foldUpTo _ (fun _ _ hw hx => hx.fresh.setTumReg ht (by omega) _ _ _))

theorem trainLevels (h : BringKept t s u) (ht : t < 64) {r : Nat} (hr : r < 3) : BringKept t s (trainLevels u t r) := by
  unfold Machine.trainLevels
  refine BringKept.foldUpTo (BringKept.foldUpTo ?_ _ (fun v l hl hv => ?_)) _ (fun v w hw hv =>
    hv.fresh.wrTumReg ht (by omega) _)
  · exact BringKept.foldUpTo ((((h.setTumReg ht (by decide) _ _ _).setTumReg ht (by decide) _ _ _).setTumReg ht
      (by decide) _ _ _).count _ _) _ (fun _ _ _ hv => hv.count _ _)
  · have hfitted := hl.trans_le (leaves_le _)
    exact hv.fresh.wrTumReg ht (by omega) _

theorem bringRate (h : BringKept t s u) (ht : t < 64) (r : Nat) : BringKept t s (bringRate u t r) :=
  ((h.ite (h.count _ _)).setTumReg ht (by decide) _ _ _).setTumReg ht (by decide) _ _ _

theorem bringTrain (h : BringKept t s u) (ht : t < 64) : BringKept t s (bringTrain u t).1 := by
  unfold Machine.bringTrain
  split
  · exact h
  · have hsets := h.fresh.trainSets ht
    dsimp only
    exact (hsets.setTumReg ht (by decide : 8 < 0x10000) _ _ _).count _ _

theorem releaseRegions (h : BringKept t s u) : BringKept t s (releaseRegions u) := by
  refine h.foldUpTo _ (fun v r hr hv => BringKept.ite ?_ hv)
  have hlow : 0x44 < rgnReg r ∧ rgnReg r < 0x2600000 := by
    have hregions : u.part.regions ≤ 65536 := by cases u.part <;> decide
    unfold rgnReg
    omega
  obtain ⟨m, k, he⟩ := storeRegion_eq (Machine.setF (Machine.setF v (rgnReg r) 1 0 1) (rgnReg r) 3 2 0) r
  rw [he]
  exact BringKept.update ((hv.setF _ _ _ hlow).setF _ _ _ hlow) ..

end BringKept

/-! ## One tumbler -/

variable {s u : State} {t : Tum}

theorem releaseRegions_tum (s : State) (k : Nat) : (releaseRegions s).tum k = s.tum k := by
  rw [State.tum, (regionsReleased_releaseRegions s).tums, State.tum]

/-- The class of the fault of a failed bring-up, which the spec does not give (log 61). -/
theorem bringFails_class (f : Nat) : [2, 3, 5, 6, 7].getD (f % 5) 2 < 24 := by
  have h : ∀ i < 5, [2, 3, 5, 6, 7].getD i 2 < 24 := by decide
  exact h _ (Nat.mod_lt _ (by decide))

theorem bringFails_keeps (h : BringKept t s u) : BringKept t s (bringFails u t) := by
  have hopens {v : State} (hv : BringKept t s v) : BringKept t s (openShadow v (.tum t) false) := hv.update ..
  have hrec := hopens (h.fresh.recordTum t (bringFails_class (fresh u).1.toNat) 0 1)
  exact ((hrec.ite hrec.selfEntry).setMode _).releaseRegions

theorem bringOnline_keeps (h : BringKept t s u) : BringKept t s (bringOnline u t) :=
  (((h.leaveSelf.ite h.restartRefresh).setMode _).ite ((h.leaveSelf.ite h.restartRefresh).setMode _))

theorem loadSet_keeps (h : BringKept t s u) (r : Nat) : BringKept t s (loadSet u t r) := by
  unfold loadSet
  exact h.modTum _

theorem bringTrain_rate {r : Nat} (h : (bringTrain s t).2 = some r) : r < 3 := by
  unfold bringTrain at h
  split at h
  · exact Option.some.inj h ▸ (by decide : (0 : Nat) < 3)
  · exact List.mem_range.1 (List.mem_of_find?_eq_some h)

theorem bringUp_keeps (s : State) (t : Tum) : BringKept t s (bringUp s t) := by
  have htrain := (BringKept.refl t.val s).bringTrain t.isLt
  unfold bringUp
  split
  next v he =>
    rw [he] at htrain
    exact bringFails_keeps htrain
  next v r he =>
    have hr : r < 3 := bringTrain_rate (s := s) (t := t) (by rw [he])
    rw [he] at htrain
    have hlevels := (htrain.bringRate t.isLt r).trainLevels t.isLt hr
    exact bringOnline_keeps (loadSet_keeps hlevels r)

theorem bringOnline_leaves (s : State) (t : Nat) : tstate (bringOnline s t) t ≠ .offline := by
  unfold bringOnline
  extract_lets v
  split
  · rw [tstate, tum_setMode_same]
    exact TState.noConfusion
  · rw [tstate, tum_setMode_same]
    exact TState.noConfusion

/-- A tumbler that has been brought up is in its initial sweep, online or in latch-out. -/
theorem bringUp_leaves (s : State) (t : Tum) : tstate (bringUp s t) t ≠ .offline := by
  unfold bringUp
  split
  · rw [tstate, bringFails, releaseRegions_tum, tum_setMode_same]
    exact TState.noConfusion
  · exact bringOnline_leaves _ _

/-! ## A group -/

/-- A tumbler of a group that starts. -/
def bringIfOffline (s : State) (t : Tum) : State := if tstate s t = .offline then bringUp s t else s

theorem bringIfOffline_keeps (s : State) (t : Tum) : BringKept t s (bringIfOffline s t) :=
  (bringUp_keeps s t).ite (.refl t s)

theorem bringIfOffline_leaves (s : State) (t : Tum) : tstate (bringIfOffline s t) t ≠ .offline := by
  unfold bringIfOffline
  split
  · exact bringUp_leaves s t
  · assumption

theorem bringIfOffline_up {k : Nat} (s : State) (t : Tum) (hk : tstate s k ≠ .offline) :
    (bringIfOffline s t).tum k = s.tum k := by
  by_cases he : k = t
  · subst he
    rw [bringIfOffline, if_neg hk]
  · exact (bringIfOffline_keeps s t).tums k he

/-- What holds of `u` once the tumblers of `l` that were offline have been brought up from `s` on. -/
structure GroupBrought (l : List Tum) (s u : State) : Prop where
  dram : u.dram = s.dram
  cores : u.cores = s.cores
  taking : u.power.taking = s.power.taking
  groups : u.power.groups = s.power.groups
  bootStat : rd u 0x44 = rd s 0x44
  enables : ∀ p, p < 16 → rd u (fpReg p 0x8000) = rd s (fpReg p 0x8000)
  brought : ∀ t ∈ l, tstate u t ≠ .offline
  up : ∀ k, tstate s k ≠ .offline → u.tum k = s.tum k
  others : ∀ k, (∀ t ∈ l, k ≠ t.val) → u.tum k = s.tum k

theorem groupBrought_foldl (l : List Tum) (s : State) : GroupBrought l s (l.foldl bringIfOffline s) := by
  induction l generalizing s with
  | nil => exact ⟨rfl, rfl, rfl, rfl, rfl, fun _ _ => rfl, fun _ ht => absurd ht List.not_mem_nil, fun _ _ => rfl, fun _ _ => rfl⟩
  | cons t l ih =>
    have hstep := bringIfOffline_keeps s t
    have hrest := ih (bringIfOffline s t)
    rw [List.foldl_cons]
    refine ⟨hrest.dram.trans hstep.dram, hrest.cores.trans hstep.cores, hrest.taking.trans hstep.taking,
      hrest.groups.trans hstep.groups, hrest.bootStat.trans hstep.bootStat, fun p hp => (hrest.enables p hp).trans (hstep.enables p hp), fun k hk => ?_,
      fun k hk => ?_, fun k hk => ?_⟩
    · rcases List.mem_cons.1 hk with rfl | hk
      · rw [tstate, hrest.up k (bringIfOffline_leaves s k)]
        exact bringIfOffline_leaves s k
      · exact hrest.brought k hk
    · have hsame := bringIfOffline_up s t hk
      rw [hrest.up k (by rwa [tstate, hsame]), hsame]
    · rw [hrest.others k (fun x hx => hk x (List.mem_cons_of_mem _ hx)), hstep.tums k (hk t List.mem_cons_self)]

/-- The tumblers of group `g`. -/
def groupTums (g : Nat) : List Tum := (allFins 64).filter (fun t => t.val / 16 == g)

/-- Group `g` has started. -/
def groupMarked (s : State) (g : Nat) : State :=
  { s with power := { s.power with groups := s.power.groups ||| BitVec.ofNat 4 (2 ^ g) } }

theorem groupStart_eq (s : State) (g : Nat) : groupStart s g = (groupTums g).foldl bringIfOffline (groupMarked s g) := rfl

theorem mem_groupTums {t : Tum} {g : Nat} : t ∈ groupTums g ↔ t.val / 16 = g := by
  rw [groupTums, List.mem_filter, beq_iff_eq]
  exact and_iff_right (List.mem_finRange t)

theorem groupStart_brings (s : State) (g : Nat) : GroupBrought (groupTums g) (groupMarked s g) (groupStart s g) := by
  rw [groupStart_eq]
  exact groupBrought_foldl ..

/-- The bit of a group that has started. -/
theorem bit_groupMarked (s : State) (g : Fin 4) : bit (groupMarked s g).power.groups.toNat g = true := by
  have h : ∀ (x : BitVec 4) (g : Fin 4), bit (x ||| BitVec.ofNat 4 (2 ^ g.val)).toNat g = true := by decide
  exact h _ g

theorem tumblerGroupStart_starts {g : Fin 4} (hr : running s = true) (h4 : stage s = 4) (h0 : 0 < g.val)
    (hp : bit s.power.groups.toNat (g.val - 1) = true) (hn : bit s.power.groups.toNat g = false) :
    Completes (.tumblerGroupStart g) s (fun u => bit u.power.groups.toNat g = true ∧
      (∀ t, t < 64 → t / 16 = g.val → tstate u t ≠ .offline ∧ (tstate s t ≠ .offline → u.tum t = s.tum t)) ∧
      (∀ t, t < 64 → t / 16 ≠ g.val → u.tum t = s.tum t) ∧ u.dram = s.dram) := by
  have hexec : exec (.tumblerGroupStart g) s = .next (groupStart s g) := by
    show execTumblerGroupStart g s = _
    simp only [execTumblerGroupStart, hr, h4, h0, hp, hn, decide_true, Bool.not_false, Bool.and_self, when_true]
  have hb := groupStart_brings s g
  refine ⟨_, hexec, ?_, fun t ht hg => ⟨hb.brought ⟨t, ht⟩ (mem_groupTums.2 hg), hb.up t⟩, fun t ht hg => ?_, hb.dram⟩
  · rw [hb.groups]
    exact bit_groupMarked s g
  · exact hb.others t (fun x hx he => hg (by rw [he]; exact mem_groupTums.1 hx))

end Sys2Proof.Machine
end

section
/-! PROOF. The stages of the boot and the start of a tumbler group: the obligation O51 (R501, R502). -/

namespace Sys2Proof.Machine

open Sys2Proof

variable {s u : State}

/-! ## The register GBL_BOOT_STAT (R506) -/

/-- The stage in progress completes. -/
theorem exec_bootStage (hb : booting s = true) : exec .bootStage s = .next (nextStage s) := by
  show execBootStage s = _
  rw [execBootStage, hb, when_true]

theorem stage_setStage (s : State) {n : Nat} (h : n < 16) : stage (setStage s n) = n := by
  rw [stage, setStage, fld_setF_same _ _ _ _ _ (by decide) (by decide)]
  exact Nat.mod_eq_of_lt h

/-- The stage stands below the flags of GBL_BOOT_STAT. -/
theorem flag_setStage (s : State) (n : Nat) {i : Nat} (h : 3 < i) : flag (setStage s n) 0x44 i = flag s 0x44 i := by
  rw [setStage, flag_setF_same _ _ _ _ _ _ (by decide) (by decide), if_neg (by omega)]

theorem flag_setF_bit (s : State) (off i : Nat) (c : Bool) (h : i < 32) : flag (setF s off i i (b2n c)) off i = c := by
  cases c
  · exact flag_setF_zero s off i h
  · exact flag_setF_one s off i h

theorem stage_congr (h : rd u 0x44 = rd s 0x44) : stage u = stage s := by rw [stage, fld, h, stage, fld]

/-! ## The image check (R467) -/

/-- The flags of the stores' check are set. -/
def storesFlagged (s : State) : State :=
  setF (setF s 0x44 8 8 (b2n ((imgSeq s 0).isSome != (imgSeq s 1).isSome))) 0x44 9 9 (b2n (bestCal s).isNone)

/-- The invalid slots that the stores' check finds are recorded. -/
def storesRecorded (s : State) : State := if badSlots s = 0 then s else fault s .sen 5 0 (badSlots s)

theorem checkStores_eq (s : State) : checkStores s = setStage (storesRecorded (storesFlagged s)) 2 := rfl

theorem storesRecorded_keeps (s : State) : FaultKept s (storesRecorded s) :=
  (FaultKept.refl s).ite ((FaultKept.refl s).senFault 5 0 (badSlots s))

theorem storesFlagged_eq (s : State) : ∃ c, storesFlagged s = { s with csr := c } := by
  obtain ⟨c, hc⟩ := setF_eq s 0x44 8 8 (b2n ((imgSeq s 0).isSome != (imgSeq s 1).isSome))
  obtain ⟨d, hd⟩ := setF_eq { s with csr := c } 0x44 9 9 (b2n (bestCal s).isNone)
  exact ⟨d, by rw [storesFlagged, hc, hd]⟩

/-- The check ends with the next stage, over what it recorded. -/
theorem storesChecked_keeps {v : State} (h : FaultKept (storesFlagged s) v) : stage (setStage v 2) = 2 ∧
    (setStage v 2).power.haspUp = s.power.haspUp ∧ flag (setStage v 2) 0x44 9 = (bestCal s).isNone ∧
    SameMemory s (setStage v 2) := by
  have hflag : flag (storesFlagged s) 0x44 9 = (bestCal s).isNone := flag_setF_bit _ _ _ _ (by decide)
  have hup := h.haspUp
  have hdram := h.dram
  have hmram := h.mram
  obtain ⟨c, he⟩ := storesFlagged_eq s
  rw [he] at hup hdram hmram
  refine ⟨stage_setStage _ (by decide), hup, ?_, sameMemory_of_eq hdram hmram⟩
  rw [flag_setStage _ _ (by decide), flag, h.bootStat, ← flag, hflag]

theorem checkStores_checks (s : State) : stage (checkStores s) = 2 ∧ (checkStores s).power.haspUp = s.power.haspUp ∧
    flag (checkStores s) 0x44 9 = (bestCal s).isNone ∧ SameMemory s (checkStores s) := by
  rw [checkStores_eq]
  exact storesChecked_keeps (storesRecorded_keeps (storesFlagged s))

/-! ## Firmware images (R383, R467) -/

section Images

variable (hp : u.part = s.part) (hm : ∀ a, a < 0x800000 → mramByte u a = mramByte s a)

include hm in
/-- The bytes of the image slots are read alike. -/
theorem imageBytes_congr {a n : Nat} (h : a + n ≤ 0x800000) : cellGet u.mram a n = cellGet s.mram a n :=
  cellGet_congr n (fun b _ hb => hm b (by omega))

include hm in
theorem imgWord_congr {k o : Nat} (hk : k < 2) (ho : o < 0x400) :
    mramU32 u (imgBase k + o) = mramU32 s (imgBase k + o) := by
  rw [mramU32, mramU32, imageBytes_congr hm (by unfold imgBase; omega)]

include hm in
theorem imgVersion_congr {k : Nat} (hk : k < 2) : imgVersion u k = imgVersion s k := imgWord_congr hm hk (by decide)

include hp hm in
theorem imgIdent_congr {k : Nat} (hk : k < 2) : imgIdent u k = imgIdent s k := by
  have hmagic : mramU32 u (imgBase k) = mramU32 s (imgBase k) := imgWord_congr hm (o := 0) hk (by decide)
  rw [imgIdent, hmagic, imgWord_congr hm hk (by decide), hp, imgIdent]

include hp hm in
theorem imgSeq_congr {k : Nat} (hk : k < 2) : imgSeq u k = imgSeq s k := by
  have hlen : imgLength u k = imgLength s k := imgWord_congr hm hk (by decide)
  have htrailer (l : List Byte) : trailerSeq u l (imgTrailer k) = trailerSeq s l (imgTrailer k) := by
    rw [trailerSeq, imageBytes_congr hm (by unfold imgTrailer imgBase; omega), trailerSeq]
  unfold imgSeq
  rw [hlen, imgIdent_congr hp hm hk]
  refine ite_congr rfl (fun hc => ?_) (fun _ => rfl)
  have hn : imgLength s k ≤ 0x3FFFF8 := of_decide_eq_true (Bool.and_eq_true_iff.1 hc).2
  rw [htrailer, imgBody, imageBytes_congr hm (by unfold imgBase; omega), imgBody]

include hp hm in
theorem bootImage_congr : bootImage u = bootImage s := by
  rw [bootImage, imgSeq_congr hp hm (by decide), imgSeq_congr hp hm (by decide), bootImage]

end Images

theorem newestSlot_lt {a b : Option Nat} {k : Nat} (h : newestSlot a b = some k) : k < 2 := by
  unfold newestSlot at h
  split at h
  · exact absurd h (by simp)
  · exact Option.some.inj h ▸ (by decide : 0 < 2)
  · exact Option.some.inj h ▸ (by decide : 1 < 2)
  · rw [← Option.some.inj h]
    split
    · decide
    · decide

/-! ## The start of the cores (R501) -/

/-- A step of the start of the cores keeps what a fault keeps, and CORE_FW_STAT. -/
structure StartKept (s u : State) : Prop extends FaultKept s u where
  fwStat : rd u fwStat = rd s fwStat

theorem StartKept.trans {v : State} (h : StartKept s u) (h' : StartKept u v) : StartKept s v :=
  ⟨h.toFaultKept.trans h'.toFaultKept, h'.fwStat.trans h.fwStat⟩

theorem loadVec_keeps (s : State) (n k : Nat) : StartKept s (loadVec s n k) :=
  ⟨(FaultKept.refl s).setF _ _ _ (by unfold coreReg; omega), rd_setF_other _ _ _ _ (by unfold fwStat coreReg; omega)⟩

theorem coreStart_keeps (s : State) (c : Nat) : StartKept s (coreStart s c) := ⟨(FaultKept.refl s).setCore _ _, rfl⟩

theorem core_coreStart (s : State) (c k : Nat) :
    ((coreStart s c).core k).state = if k = c then .booting else (s.core k).state := by
  by_cases hk : k = c
  · rw [if_pos hk, hk, coreStart, core_setCore_same]
  · rw [if_neg hk, coreStart, core_setCore_other _ _ hk]

/-- The cores that have started are booting. -/
theorem coresStart_boot (s : State) : StartKept s (foldUpTo 8 coreStart s) ∧
    ∀ k, k < 8 → ((foldUpTo 8 coreStart s).core k).state = .booting := by
  refine foldUpTo_rule (P := fun i u => StartKept s u ∧ ∀ k, k < i → (u.core k).state = .booting)
    ⟨⟨.refl s, rfl⟩, fun k hk => absurd hk (Nat.not_lt_zero k)⟩ (fun i u _ hu => ?_)
  obtain ⟨hkept, hboot⟩ := hu
  refine ⟨hkept.trans (coreStart_keeps u i), fun k hk => ?_⟩
  rw [core_coreStart]
  split
  · rfl
  · exact hboot k (by omega)

theorem vectors_keep (s : State) (k : Nat) : StartKept s (foldUpTo 8 (fun s n => loadVec s n k) s) :=
  foldUpTo_rule (P := fun _ u => StartKept s u) ⟨.refl s, rfl⟩ (fun i u _ hu => hu.trans (loadVec_keeps u i k))

/-- CORE_FW_STAT takes a slot and a version. -/
theorem fwStat_keeps (s : State) (k x : Nat) : FaultKept s (setF (setF s fwStat 8 8 k) fwStat 31 16 x) :=
  ((FaultKept.refl s).setF _ _ _ (by decide)).setF _ _ _ (by decide)

theorem fld_fwStat (s : State) (k x : Nat) : fld (setF (setF s fwStat 8 8 k) fwStat 31 16 x) fwStat 31 16 = x % 65536 :=
  fld_setF_same _ _ _ _ _ (by decide) (by decide)

/-- The cores' vectors are set, from the image's slot where there is one. -/
theorem startCores_from (s : State) : ∃ v, startCores s = foldUpTo 8 coreStart v ∧ FaultKept s v ∧
    ∀ k, bootImage s = some k → fld v fwStat 31 16 = imgVersion s k % 65536 := by
  unfold startCores
  extract_lets v
  refine ⟨v, rfl, ?_⟩
  unfold v
  split
  next k hk =>
    have hv := vectors_keep (setF (setF s fwStat 8 8 k) fwStat 31 16 (imgVersion s k)) k
    refine ⟨(fwStat_keeps s k _).trans hv.toFaultKept, fun j hj => ?_⟩
    rw [fld, hv.fwStat, ← fld, fld_fwStat, Option.some.inj (hk.symm.trans hj)]
  next hk =>
    have hfresh : FaultKept s (fresh s).2 := (FaultKept.refl s).update ..
    refine ⟨?_, fun j hj => absurd (hk.symm.trans hj) (by simp)⟩
    exact (hfresh.trans (fwStat_keeps ..)).foldUpTo (fun _ n hu => hu.setF _ _ _ (by unfold coreReg; omega)) _

theorem startCores_starts (s : State) : FaultKept s (startCores s) ∧
    (∀ k, k < 8 → ((startCores s).core k).state = .booting) ∧
    ∀ k, bootImage s = some k → fld (startCores s) fwStat 31 16 = imgVersion s k % 65536 := by
  obtain ⟨v, he, hv, hver⟩ := startCores_from s
  obtain ⟨hkept, hboot⟩ := coresStart_boot v
  rw [he]
  exact ⟨hv.trans hkept.toFaultKept, hboot, fun k hk => by rw [fld, hkept.fwStat, ← fld, hver k hk]⟩

/-! ## The store load (R453, R466, R501) -/

theorem againSuspect_keeps (s : State) : FaultKept s (againSuspect s) :=
  (FaultKept.refl s).foldl (fun _ l hu => hu.leafFault (Fin.ofNat 34 l) 1 0 1) _

/-- The boot preserves where the module retained its state. -/
def preserving (s : State) : State := { s with power := { s.power with preserve := s.power.retain } }

theorem loadStores_eq (s : State) : ∃ v, LoadKept (preserving s) v ∧
    loadStores s = setStage (startCores (againSuspect (haspOn v))) 3 := by
  unfold loadStores
  extract_lets _ s1 s2 s3 s4
  have hcal : LoadKept s1 s2 := by
    unfold s2
    split
    · exact (LoadKept.refl s1).loadCal _
    · exact .refl s1
  have hrecords : LoadKept s1 s3 :=
    (hcal.foldUpTo 64 (fun _ t _ hu => hu.loadLeaf t)).foldUpTo 32768 (fun _ i hi hu => hu.loadRemap hi)
  exact ⟨s4, hrecords.loadPreserved.ite (hrecords.setF ..), rfl⟩

theorem loadStores_loads (s : State) : stage (loadStores s) = 3 ∧ (loadStores s).power.haspUp = true ∧
    (loadStores s).power.preserve = s.power.retain ∧ (∀ k, k < 8 → ((loadStores s).core k).state = .booting) ∧
    (∀ k, bootImage s = some k → fld (loadStores s) fwStat 31 16 = imgVersion s k % 65536) ∧
    (loadStores s).dram = s.dram ∧ ∀ a, a < 0xB00000 ∨ 0xB40000 ≤ a → mramByte (loadStores s) a = mramByte s a := by
  obtain ⟨v, hv, he⟩ := loadStores_eq s
  have hagain := againSuspect_keeps (haspOn v)
  rw [he]
  generalize againSuspect (haspOn v) = a at hagain
  obtain ⟨hkept, hboot, hver⟩ := startCores_starts a
  have hall := hagain.trans hkept
  have hmram (b : Nat) (hb : OffRemapRecords b) : mramByte a b = mramByte s b := by
    rw [mramByte, hagain.mram]
    exact hv.mram b hb
  have hlow (b : Nat) (hb : b < 0x800000) : mramByte a b = mramByte s b := hmram b (.inl (by omega))
  generalize startCores a = w at hkept hboot hver hall
  refine ⟨stage_setStage _ (by decide), hall.haspUp, hall.preserve.trans hv.preserve, hboot, fun k hk => ?_,
    hall.dram.trans hv.dram, fun b hb => ?_⟩
  · rw [setStage, fld_setF_other _ _ _ _ _ _ (by decide), hver k ((bootImage_congr (hagain.part.trans hv.part) hlow).trans hk),
      imgVersion_congr hlow (newestSlot_lt hk)]
  · exact (congrArg (fun m => tget zero m b) hkept.mram).trans (hmram b hb)

/-! ## Firmware takes commands (R501, R504) -/

/-- A core that has booted runs. -/
def coreRun (s : State) (n : Nat) : State :=
  if (s.core n).state = .booting then s.setCore n { s.core n with state := .running } else s

/-- A port is enabled. -/
def portEnabled (s : State) (p : Nat) : State := fromOff (setF s (fpReg p 0x8000) 0 0 1) p

/-- Firmware takes commands. -/
def takingOn (s : State) : State := { s with power := { s.power with taking := true } }

/-- The first `i` cores, where they were booting, run. -/
structure CoresRun (s : State) (i : Nat) (u : State) : Prop where
  dram : u.dram = s.dram
  runs : ∀ k, k < i → (s.core k).state = .booting → (u.core k).state = .running
  rest : ∀ k, i ≤ k → u.core k = s.core k

theorem CoresRun.next {i : Nat} (h : CoresRun s i u) : CoresRun s (i + 1) (coreRun u i) := by
  have hcore : u.core i = s.core i := h.rest i (Nat.le_refl i)
  unfold coreRun
  split
  next hb =>
    refine ⟨h.dram, fun k hk hs => ?_, fun k hk => ?_⟩
    · by_cases he : k = i
      · rw [he, core_setCore_same]
      · rw [core_setCore_other _ _ he]
        exact h.runs k (by omega) hs
    · rw [core_setCore_other _ _ (by omega), h.rest k (by omega)]
  next hb =>
    refine ⟨h.dram, fun k hk hs => ?_, fun k hk => h.rest k (by omega)⟩
    by_cases he : k = i
    · exact absurd (by rw [hcore, ← he, hs]) hb
    · exact h.runs k (by omega) hs

theorem coresRun_foldUpTo (s : State) : CoresRun s 8 (foldUpTo 8 coreRun s) :=
  foldUpTo_rule (P := CoresRun s) ⟨rfl, fun k hk => absurd hk (Nat.not_lt_zero k), fun _ _ => rfl⟩ (fun _ _ _ hu => hu.next)

/-- What a port's way out of Off keeps: the leaf arrays, the cores, the power state and the enables of the ports. -/
structure EnableKept (s u : State) : Prop where
  dram : u.dram = s.dram
  cores : u.cores = s.cores
  power : u.power = s.power
  enables : ∀ p, rd u (fpReg p 0x8000) = rd s (fpReg p 0x8000)

namespace EnableKept

variable {v : State}

theorem refl (s : State) : EnableKept s s := ⟨rfl, rfl, rfl, fun _ => rfl⟩

theorem ite {c : Prop} [Decidable c] (hu : EnableKept s u) (hv : EnableKept s v) : EnableKept s (if c then u else v) := by
  split
  · exact hu
  · exact hv

/-- The link's own registers lie below the port's controls. -/
theorem wr (h : EnableKept s u) (p : Nat) {o : Nat} (ho : o < 0x8000) (x : Reg32) : EnableKept s (wr u (fpReg p o) x) where
  dram := h.dram
  cores := h.cores
  power := h.power
  enables q := (rd_wr_other u x (by unfold fpReg; omega)).trans (h.enables q)

theorem setF (h : EnableKept s u) (p : Nat) {o : Nat} (ho : o < 0x8000) (hi lo x : Nat) :
    EnableKept s (setF u (fpReg p o) hi lo x) := h.wr p ho _

theorem modPort (h : EnableKept s u) (p : Nat) (f : Port → Port) : EnableKept s (u.modPort p f) :=
  ⟨h.dram, h.cores, h.power, h.enables⟩

theorem endEye (h : EnableKept s u) (p : Nat) : EnableKept s (endEye u p) := by
  have hfresh (c : Bool) : EnableKept s (if c = true then ((0 : BitVec 64), u) else fresh u).2 := by
    split
    · exact h
    · exact ⟨h.dram, h.cores, h.power, h.enables⟩
  have hended := (((hfresh (flag u (fpReg p 0x404) 4)).setF p (o := 0x404) (by decide) 0 0 0).setF p (o := 0x404) (by decide)
    4 4 0).setF p (o := 0x404) (by decide) 2 2 1
  exact h.ite (EnableKept.modPort ((hended.setF p (o := 0x404) (by decide) 3 3 1).ite hended) ..)

theorem leaveLink (h : EnableKept s u) (p : Nat) : EnableKept s (leaveLink u p) := by
  have hinjects {v : State} (hv : EnableKept s v) : EnableKept s (dropInjection v p) :=
    (hv.setF p (o := 0x700) (by decide) ..).ite hv
  unfold Machine.leaveLink
  exact (hinjects (h.endEye p)).modPort ..

theorem toDetect (h : EnableKept s u) (p : Nat) : EnableKept s (toDetect u p) := by
  unfold Machine.toDetect
  refine EnableKept.modPort (EnableKept.modPort (EnableKept.setF (foldUpTo_rule (P := fun _ u => EnableKept s u)
    ((h.leaveLink p).wr p (by decide) _) (fun l v hl hv => ?_)) p (by decide) ..) ..) ..
  exact (hv.setF p (by omega) ..).setF p (by omega) ..

theorem fromOff (h : EnableKept s u) (p : Nat) : EnableKept s (fromOff u p) := (h.toDetect p).ite h

end EnableKept

/-- The first `i` ports are enabled. -/
structure PortsEnabled (s : State) (i : Nat) (u : State) : Prop where
  dram : u.dram = s.dram
  cores : u.cores = s.cores
  power : u.power = s.power
  enabled : ∀ p, p < i → flag u (fpReg p 0x8000) 0 = true

theorem PortsEnabled.next {i : Nat} (h : PortsEnabled s i u) : PortsEnabled s (i + 1) (portEnabled u i) := by
  have hk := (EnableKept.refl (setF u (fpReg i 0x8000) 0 0 1)).fromOff i
  refine ⟨(hk.dram.trans (setF_dram ..)).trans h.dram, (hk.cores.trans (setF_cores ..)).trans h.cores,
    (hk.power.trans (setF_power ..)).trans h.power, fun p hp => ?_⟩
  rw [flag, portEnabled, hk.enables, ← flag]
  by_cases he : p = i
  · rw [he]
    exact flag_setF_one _ _ _ (by decide)
  · rw [flag_setF_other _ _ _ _ _ (by unfold fpReg; omega)]
    exact h.enabled p (by omega)

theorem portsEnabled_foldUpTo (s : State) : PortsEnabled s 16 (foldUpTo 16 portEnabled s) :=
  foldUpTo_rule (P := PortsEnabled s) ⟨rfl, rfl, rfl, fun p hp => absurd hp (Nat.not_lt_zero p)⟩ (fun _ _ _ hu => hu.next)

theorem firmwareUp_eq (s : State) : ∃ u v, CoresRun s 8 u ∧ PortsEnabled (takingOn u) 16 v ∧
    firmwareUp s = groupStart (setStage v 4) 0 := by
  unfold firmwareUp
  extract_lets u _ w v
  exact ⟨u, v, coresRun_foldUpTo s, portsEnabled_foldUpTo w, rfl⟩

theorem firmwareUp_starts (s : State) : stage (firmwareUp s) = 4 ∧ (firmwareUp s).power.taking = true ∧
    bit (firmwareUp s).power.groups.toNat 0 = true ∧ (∀ p, p < 16 → flag (firmwareUp s) (fpReg p 0x8000) 0 = true) ∧
    (∀ k, k < 8 → (s.core k).state = .booting → ((firmwareUp s).core k).state = .running) ∧
    (∀ t, t < 16 → tstate (firmwareUp s) t ≠ .offline) ∧ (firmwareUp s).dram = s.dram := by
  obtain ⟨u, v, hcores, hports, he⟩ := firmwareUp_eq s
  rw [he]
  have hgroup := groupStart_brings (setStage v 4) 0
  generalize groupStart (setStage v 4) 0 = w at hgroup
  refine ⟨(stage_congr hgroup.bootStat).trans (stage_setStage v (by decide)), ?_, ?_, fun p hp => ?_, fun k hk hb => ?_,
    fun t ht => hgroup.brought ⟨t, by omega⟩ (mem_groupTums.2 (Nat.div_eq_of_lt ht)), ?_⟩
  · rw [hgroup.taking]
    exact congrArg Power.taking hports.power
  · rw [hgroup.groups]
    exact bit_groupMarked (setStage v 4) 0
  · rw [flag, hgroup.enables p hp]
    exact (flag_setF_other v _ _ _ _ (by unfold fpReg; omega)).trans (hports.enabled p hp)
  · rw [State.core, hgroup.cores]
    exact (congrArg (fun x => (tget noCore x k).state) hports.cores).trans (hcores.runs k hk hb)
  · exact hgroup.dram.trans (hports.dram.trans hcores.dram)

/-! ## The end of the boot (R497, R501) -/

theorem bootDone_memory (s : State) : SameMemory s (bootDone s) := by
  obtain ⟨c, hc⟩ := setF_eq s 0x44 3 0 5
  obtain ⟨d, hd⟩ := setF_eq { s with csr := c } 0x44 31 31 1
  have he : bootDone s = { s with csr := d, power := { s.power with retain := false } } := by
    rw [bootDone, setStage, hc, hd]
  rw [he]
  exact sameMemory_of_eq rfl rfl

theorem bootDone_ends (s : State) : stage (bootDone s) = 5 ∧ flag (bootDone s) 0x44 31 = true ∧
    (bootDone s).power.retain = false ∧ RegsBut [0x44] s (bootDone s) ∧ SameMemory s (bootDone s) := by
  have hrd (o : Nat) : rd (bootDone s) o = rd (setF (setStage s 5) 0x44 31 31 1) o := rd_withPower ..
  refine ⟨?_, ?_, rfl, fun o ho => ?_, bootDone_memory s⟩
  · rw [stage, fld, hrd, ← fld, fld_setF_field _ _ _ _ _ _ _ (by decide) (by decide) (.inl (by decide)) (by decide)]
    exact stage_setStage s (by decide)
  · rw [flag, hrd, ← flag]
    exact flag_setF_one _ _ _ (by decide)
  · have hne : o ≠ 0x44 := List.ne_of_not_mem_cons ho
    rw [hrd, rd_setF_other _ _ _ _ hne, setStage, rd_setF_other _ _ _ _ hne]

/-- Settles O51: each stage by what it keeps, and a group by its tumblers one after another (`groupBrought_foldl`). -/
theorem bootStages : Obligations.BootStages := by
  intro s
  refine ⟨fun hb => ⟨fun h => ?_, fun h => ?_, fun h => ?_, fun h => ?_, fun h ho => ?_⟩, fun g hr h4 h0 hp hn =>
    tumblerGroupStart_starts hr h4 h0 hp hn⟩
  · simp only [exec_bootStage hb, nextStage, h]
  · exact ⟨checkStores s, by simp only [exec_bootStage hb, nextStage, h], checkStores_checks s⟩
  · exact ⟨loadStores s, by simp only [exec_bootStage hb, nextStage, h], loadStores_loads s⟩
  · exact ⟨firmwareUp s, by simp only [exec_bootStage hb, nextStage, h], firmwareUp_starts s⟩
  · refine ⟨bootDone s, ?_, bootDone_ends s⟩
    simp only [exec_bootStage hb, nextStage, h, ho, if_true]

end Sys2Proof.Machine
end

section
/-! PROOF. A scan reads a line of its column (O26). -/

namespace Sys2Proof.Machine

open Sys2Proof

/-! ## What a read of a line without error keeps -/

/-- Registers that a scan's read of a line in tumbler `t` changes: what engine `t` works on (R201), and the hot-row alert of the
tumbler (R136). -/
def readRegs (t : Nat) : List Nat := [scnReg t 8, scnReg t 0xC, tumReg t 0x2C, tumReg t 0x30]

/-- What the commands and the counts of a line read in tumbler `t` keep. -/
structure ReadKept (t : Nat) (s u : State) : Prop where
  part : u.part = s.part
  scans : u.scans = s.scans
  dram : u.dram = s.dram
  mram : u.mram = s.mram
  regs : RegsBut (readRegs t) s u

namespace ReadKept

variable {t : Nat} {s u v : State}

theorem refl (t : Nat) (s : State) : ReadKept t s s := ⟨rfl, rfl, rfl, rfl, fun _ _ => rfl⟩

theorem trans (h : ReadKept t s u) (h' : ReadKept t u v) : ReadKept t s v :=
  ⟨h'.part.trans h.part, h'.scans.trans h.scans, h'.dram.trans h.dram, h'.mram.trans h.mram, regsBut_trans h.regs h'.regs⟩

theorem sameMemory (h : ReadKept t s u) : SameMemory s u := sameMemory_of_eq h.dram h.mram

/-- A change of fields that no part of the frame names. -/
theorem of_eq (h : ReadKept t s u) (hp : v.part = u.part) (hs : v.scans = u.scans) (hd : v.dram = u.dram)
    (hm : v.mram = u.mram) (hc : v.csr = u.csr) : ReadKept t s v :=
  h.trans ⟨hp, hs, hd, hm, regsBut_of_csr_eq _ hc hp⟩

theorem ite {c : Prop} [Decidable c] (hu : ReadKept t s u) (hv : ReadKept t s v) : ReadKept t s (if c then u else v) := by
  split
  · exact hu
  · exact hv

theorem foldl {β : Type} {f : State → β → State} (hf : ∀ u b, ReadKept t s u → ReadKept t s (f u b)) (l : List β)
    (h : ReadKept t s u) : ReadKept t s (l.foldl f u) := by
  induction l generalizing u with
  | nil => exact h
  | cons b r ih => exact ih (hf u b h)

theorem count (h : ReadKept t s u) (slot n : Nat) : ReadKept t s (count u slot n) :=
  h.of_eq (count_part ..) (count_scans ..) (count_dram ..) (count_mram ..) (count_csr ..)

theorem withWard (h : ReadKept t s u) (x : Ward) : ReadKept t s { u with ward := x } := h.of_eq rfl rfl rfl rfl rfl

theorem withSweeps (h : ReadKept t s u) (x : List SweepT) : ReadKept t s { u with sweeps := x } :=
  h.of_eq rfl rfl rfl rfl rfl

theorem withFree (h : ReadKept t s u) (x : Nat) : ReadKept t s { u with free := x } := h.of_eq rfl rfl rfl rfl rfl

theorem withThermal (h : ReadKept t s u) (x : Thermal) : ReadKept t s { u with thermal := x } :=
  h.of_eq rfl rfl rfl rfl rfl

theorem setTum (h : ReadKept t s u) (k : Nat) (x : Tumbler) : ReadKept t s (u.setTum k x) := h.of_eq rfl rfl rfl rfl rfl

theorem setDram (h : ReadKept t s u) (k : Nat) (f : TDram → TDram) : ReadKept t s (setDram u k f) := h.setTum k _

theorem wr (h : ReadKept t s u) {off : Nat} (ho : off ∈ readRegs t) (x : Reg32) : ReadKept t s (wr u off x) :=
  h.trans { refl t u with regs := fun _ hn => rd_wr_other u x (fun he => hn (he ▸ ho)) }

/-! ### Commands on the bus -/

theorem advance (h : ReadKept t s u) (k n : Nat) : ReadKept t s (advance u k n) := by
  unfold Machine.advance
  exact (ite (h.withSweeps _) h).setDram k _

theorem goTo (h : ReadKept t s u) (k m : Nat) : ReadKept t s (goTo u k m) := h.advance k _

theorem putBank (h : ReadKept t s u) (k n : Nat) (b : Bank) : ReadKept t s (putBank u k n b) := h.setDram k _

theorem putSlice (h : ReadKept t s u) (k l : Nat) (x : SliceTim) : ReadKept t s (putSlice u k l x) := h.setDram k _

theorem issuePre (h : ReadKept t s u) (k n : Nat) : ReadKept t s (issuePre u k n) :=
  ((h.putBank k _ _).setDram k _).count _ _

theorem preNext (h : ReadKept t s u) (k n : Nat) : ReadKept t s (preNext u k n) :=
  ((h.goTo k _).issuePre k n).advance k 1

theorem throttle (h : ReadKept t s u) (k n : Nat) (src : Src) : ReadKept t s (throttle u k n src) :=
  ite h (ite (h.setTum k _) (ite (h.setTum k _) ((h.setTum k _).count _ _)))

theorem alertRow (h : ReadKept t s u) (l : Loc) (src : Src) : ReadKept t s (alertRow u t l src) := by
  have hmark {v : State} (hv : ReadKept t s v) (x y : Reg32) :
      ReadKept t s (Machine.count (Machine.wr (Machine.wr v (tumReg t 0x2C) x) (tumReg t 0x30) y) (cTum t 7) 1) :=
    ((hv.wr (by simp [readRegs]) x).wr (by simp [readRegs]) y).count _ _
  exact ite (foldl (fun _ _ hv => hv.throttle t _ _) _ (hmark (h.putBank t _ _) _ _)) (hmark (h.putBank t _ _) _ _)

theorem hammerAct (h : ReadKept t s u) (l : Loc) (src : Src) : ReadKept t s (hammerAct u t l src) :=
  ite (((h.putBank t _ _).setTum t _).alertRow l src) ((h.putBank t _ _).setTum t _)

theorem issueAct (h : ReadKept t s u) (l : Loc) (src : Src) (id : Option Nat) : ReadKept t s (issueAct u t l src id) :=
  (((((((h.setDram t _).putBank t _ _).putSlice t _ _).setDram t _).withThermal _).count _ _).count _ _).hammerAct l src

theorem issueCol (h : ReadKept t s u) (k : Nat) (l : Loc) (w : Bool) (id : Nat) : ReadKept t s (issueCol u k l w id) :=
  ((((ite h (h.count _ _)).putBank k _ _).putSlice k _ _).setDram k _).count _ _

theorem charge (h : ReadKept t s u) (a : Access) (n : Nat) : ReadKept t s (charge u a n) := by
  unfold Machine.charge
  dsimp only
  split
  · exact (h.withWard _).count _ _
  · exact (h.withWard _).count _ _
  · exact h.withWard _
  · exact h
  · exact h.withWard _

theorem actNext (h : ReadKept t s u) {a : Access} (ha : a.tum.val = t) (l : Loc) : ReadKept t s (actNext u a l) := by
  subst ha
  exact ((((h.goTo _ _).issueAct l _ _).setTum _ _).charge a _).advance _ 1

theorem openLine (h : ReadKept t s u) {a : Access} (ha : a.tum.val = t) (l : Loc) : ReadKept t s (openLine u a l) :=
  ite h ((ite (h.preNext _ _) h).actNext ha l)

theorem colNext (h : ReadKept t s u) (a : Access) (l : Loc) (w : Bool) : ReadKept t s (colNext u a l w) :=
  (((h.goTo ..).issueCol ..).charge ..).advance ..

theorem afterCol (h : ReadKept t s u) (k : Nat) (a : Access) (l : Loc) : ReadKept t s (afterCol u k a l) :=
  ite (h.putBank ..) (h.putBank ..)

theorem lineEnter (h : ReadKept t s u) (a : Access) : ReadKept t s (lineEnter u a) := by
  have hcounted : ReadKept t s (if urgency u a = 3 then Machine.count u (cTum a.tum 33) 1 else u) := (h.count ..).ite h
  exact ite (hcounted.withWard _) hcounted

theorem lineEnd (h : ReadKept t s u) (a : Access) : ReadKept t s (lineEnd u a) :=
  (ite h (h.afterCol ..)).of_eq rfl rfl rfl rfl rfl

theorem scanMeasured (h : ReadKept t s u) (a : Access) (whole : Bool) : ReadKept t s (scanMeasured u a whole) :=
  ((h.count _ _).count _ _).withWard _

end ReadKept

variable {e t x n k : Nat} {s u : State} {l : Loc}

/-! ## The words taken -/

/-- What a line without error gives of a word calls for no write. -/
theorem gotLine_needs_no_write {g : Got} (hg : g ∈ gotLine s t x l e) : g.wroteBack = false ∧ g.cls ≠ .uncorrectable := by
  unfold gotLine at hg
  split at hg
  · obtain ⟨w, -, rfl⟩ := List.mem_map.1 hg
    refine ⟨rfl, ?_⟩
    unfold slotGot
    dsimp only
    split <;> decide
  · obtain ⟨w, -, rfl⟩ := List.mem_map.1 hg
    exact ⟨rfl, WordClass.noConfusion⟩

theorem writeBacks_gotLine (v : State) (a : Access) : writeBacks v a (gotLine s t x l e) = v := by
  refine if_neg (fun h => ?_)
  obtain ⟨g, hg, hw⟩ := List.any_eq_true.1 h
  obtain ⟨hback, hcls⟩ := gotLine_needs_no_write hg
  simp [hback, hcls] at hw

/-- A line operation takes the words of a line without error, from the line or from its slot (R79). -/
theorem lineRead_gotLine {a : Access} (ha : a.tum.val = t) (hc : ReadsClean s t a.line a.loc) (e : Nat) :
    ∃ v, lineRead (lineEnter s a) a e [] = (v, gotLine s t a.line a.loc e) ∧ ReadKept t s v := by
  have henter := (LineKept.refl (fun _ => False) t s).lineEnter a
  have hkept := (ReadKept.refl t s).lineEnter a
  unfold gotLine
  cases hw : wholeSlot s t a.line with
  | some q => exact ⟨_, lineRead_slot ha ((wholeSlot_congr henter.slots _).trans hw) e, hkept⟩
  | none => exact ⟨_, lineRead_clean henter ha hw (hc hw) e, (hkept.openLine ha _).colNext a _ _⟩

/-! ## The scan that has taken a line -/

theorem evalLine_base (x : Scan) (n : Nat) (l : List Got) : (evalLine x n l).1.base = x.base := by
  unfold evalLine
  extract_lets w data
  refine List.foldlRecOn (motive := fun a : Scan × Nat × Bool => a.1.base = x.base) _ _ rfl (fun a ha k _ => ?_)
  split
  · exact ha
  · simp only [apply_ite Prod.fst, apply_ite Scan.base, takeElement, ite_self, ha]

/-- The scan `z` holds the results `v` of a line, `y` being the scan as its slot held it; its engine `e` goes on with line `next`
of the column. -/
structure LineEvaluated (v y : Scan) (e next : Nat) (z : Scan) : Prop where
  total : z.total = v.total
  sum : z.sum = v.sum
  min : z.min = v.min
  max : z.max = v.max
  selected : z.selected = v.selected
  known : z.known = v.known
  idxQueue : z.idxQueue = v.idxQueue
  phase : z.phase = y.phase
  status : z.status = y.status
  next : (tget (fun _ => EngProg.init) z.engines e).next = next

/-- The scan takes the results of the line as `evalLine` gives them, and its engine goes on after the line. -/
theorem scanTook_evaluates {y : Scan} (hy : s.scan k = some y) (x : Scan) (e n : Nat) (g : List Got) :
    ∃ v z, scanTook s k x e n g = v.setScan k (some z) ∧ ReadKept e s v ∧
      LineEvaluated (evalLine x n g).1 y e (n + 1 - colFirst x) z := by
  have hbase : colFirst (evalLine x n g).1 = colFirst x := by rw [colFirst, evalLine_base, colFirst]
  have hworks : scnReg e 8 ∈ readRegs e := by simp [readRegs]
  have hline : scnReg e 0xC ∈ readRegs e := by simp [readRegs]
  unfold scanTook
  extract_lets ev x1 cnt bad was before s4 s5 x2 more x3 s6 s7 now
  have h4 : ReadKept e s s4 := (ReadKept.refl e s).ite ((ReadKept.refl e s).count _ _)
  have h6 : ReadKept e s s6 := ((((h4.count _ _).count _ _).count _ _).count _ _).wr hworks _
  have h7 : ReadKept e s s7 := by
    clear_value s6 more
    unfold s7
    cases more with
    | some m => exact h6.wr hline _
    | none => exact (h6.withFree _).wr hline _
  have hnow : now = y := by
    unfold now
    rw [State.scan, h7.scans, ← State.scan, hy, Option.getD_some]
  refine ⟨s7, _, rfl, h7, ?_⟩
  rw [hnow]
  clear_value more s7
  unfold x3
  have hnext : n + 1 - colFirst x2 = n + 1 - colFirst x := congrArg (n + 1 - ·) hbase
  have hengine {p : EngProg} {m : Tab EngProg} (hp : p.next = n + 1 - colFirst x) :
      (tget (fun _ => EngProg.init) (tput (fun _ => EngProg.init) m e p) e).next = n + 1 - colFirst x := by
    rw [tget_tput_same, hp]
  cases more <;> exact ⟨rfl, rfl, rfl, rfl, rfl, rfl, rfl, rfl, rfl, hengine hnext⟩

/-! ## The read -/

/-- The scan whose turn it is runs (R183). -/
theorem phase_of_scanTurn {x : Scan} (hx : s.scan k = some x) (ht : scanTurn s e = some k) : x.phase = .running := by
  unfold scanTurn at ht
  have hready := List.find?_some ht
  unfold scanReady at hready
  rw [hx] at hready
  dsimp only at hready
  split at hready
  · simp only [Bool.and_eq_true, decide_eq_true_eq] at hready
    obtain ⟨⟨⟨hrunning, -⟩, -⟩, -⟩ := hready
    exact hrunning
  · exact absurd hready Bool.false_ne_true

/-- SCAN_LINE_READ of the scan whose turn it is performs the checked read (R183). -/
theorem exec_scanLineRead {k : BitVec 8} {e : Tum} {x : Scan} (hx : s.scan k.toNat = some x)
    (hn : nextLine s x e = some n) (hr : running s = true) (ht : scanTurn s e = some k.toNat) (flips : List CodeWord) :
    exec (.scanLineRead k e flips) s = .next (scanStep s k.toNat x e n flips) := by
  show execScanLineRead k e flips s = _
  unfold execScanLineRead
  rw [hx]
  dsimp only
  rw [hn]
  dsimp only
  rw [hr, ht, beq_self_eq_true]
  rfl

/-- The read of a line without error evaluates the words that the line gives. -/
theorem scanRead_evaluates {e y : Nat} (he : e < 64) (hy : (lineOf s (64 * n)).2 = y) {x : Scan}
    (hx : s.scan k = some x) (hc : ReadsClean s e y (placeOf s e y)) :
    ∃ v z, scanRead s k x e n [] = v.setScan k (some z) ∧ ReadKept e s v ∧
      LineEvaluated (evalLine x n (gotLine s e y (placeOf s e y) (rgnEpoch s (regionOf (64 * n))))).1 x e
        (n + 1 - colFirst x) z := by
  have ha : (scanAccess s x e y).tum.val = e := lineAccess_tum s he y (placeOf s e y) .scan false
  obtain ⟨v, hread, hv⟩ := lineRead_gotLine ha hc (rgnEpoch s (regionOf (64 * n)))
  have hend := (hv.lineEnd (scanAccess s x e y)).scanMeasured (scanAccess s x e y) (wholeSlot s e y).isSome
  have hscan : (scanMeasured (lineEnd v (scanAccess s x e y)) (scanAccess s x e y) (wholeSlot s e y).isSome).scan k =
      some x := by rw [State.scan, hend.scans, ← State.scan, hx]
  obtain ⟨w, z, htook, hw, hz⟩ := scanTook_evaluates hscan x e n _
  refine ⟨w, z, ?_, hend.trans hw, hz⟩
  unfold scanRead
  dsimp only
  rw [hy, hread, writeBacks_gotLine]
  exact htook

/-- Settles O26: the checks by the branches of `scanStep`, the line by `scanRead_evaluates`. -/
theorem scanLineReadEvaluatesItsLine : Obligations.ScanLineReadEvaluatesItsLine := by
  intro s k e x n hx hn hr ht
  have hexec := exec_scanLineRead hx hn hr ht
  unfold scanStep at hexec
  refine ⟨fun hl flips => ?_, fun hl => ⟨fun st flips hst => ?_, fun hst => ⟨fun hok flips => ?_, fun hok => ?_⟩⟩⟩
  · rw [hexec, if_pos hl]
    rfl
  · rw [hexec, if_neg hl, hst]
    rfl
  · rw [hexec, if_neg hl, hst, hok]
    rfl
  · intro y l hb hm hc
    obtain ⟨v, z, hread, hv, hz⟩ := scanRead_evaluates e.isLt rfl hx hc
    have hnext : exec (.scanLineRead k e []) s = .next (scanRead s k.toNat x e n []) := by
      rw [hexec, if_neg hl, hst, hok, hb, hm]
      rfl
    rw [hread] at hnext
    exact ⟨_, hnext, z, scan_setScan_same .., hz.total, hz.sum, hz.min, hz.max, hz.selected, hz.known, hz.idxQueue,
      hz.phase.trans (phase_of_scanTurn hx ht), hz.status, hz.next, hv.regs, hv.sameMemory⟩

end Sys2Proof.Machine
end

section
/-! PROOF. The Ward's classes, guarantees and plan: CLASS_SET, GUARANTEE_SET and PLAN_SET (O32). -/

namespace Sys2Proof.Machine

open Sys2Proof

variable {s t : State} {c : Cmd}

/-! ## A change where the guarantees stay admissible (R216, R375) -/

/-- A command that ends in a change of the Ward's registers answers by the admissibility of the set that it leaves. -/
theorem wardChange_answers {i : Instr} (h : exec i s = .next (wardChange s t c)) :
    (admissibleNow t = true → exec i s = .next (answer t c rcSuccess)) ∧
    (admissibleNow t = false → exec i s = .next (answer s c rcNotAdmissible)) := by
  rw [h, wardChange]
  exact ⟨fun ha => by rw [if_pos ha], fun ha => by rw [ha, if_neg Bool.false_ne_true]⟩

/-- The configuration register of class `k` (R227), which FLOOR and the latency guarantee follow. -/
def clsReg (k : Nat) : Nat := wrdReg (0x1000 + 16 * k)

/-- The configuration registers of the classes end where the share registers begin. -/
theorem clsReg_lt_shareReg {k : Nat} (hk : k < 256) (o : Nat) : clsReg k < shareReg k o := by
  unfold clsReg shareReg wrdReg
  omega

/-! ## CLASS_SET (R216, R227, R228) -/

/-- A share register's word. -/
def shareWord (res max : Nat) : Reg32 := BitVec.ofNat 32 (res + max * 2 ^ 16)

theorem shareWord_fields {res max : Nat} (hr : res < 512) (hm : max < 1024) :
    bits (shareWord res max).toNat 8 0 = res ∧ bits (shareWord res max).toNat 25 16 = max := by
  have hw : (shareWord res max).toNat = res + max * 2 ^ 16 := by
    rw [shareWord, BitVec.toNat_ofNat]
    omega
  rw [hw]
  simp only [bits, Nat.reduceSub, Nat.reduceAdd, Nat.reducePow]
  omega

/-- Class `k` with PRIO and URG_MAX in its configuration register (R227). -/
def classFields (s : State) (k prio urg : Nat) : State := setF (setF s (clsReg k) 1 0 prio) (clsReg k) 5 4 urg

/-- What CLASS_SET leaves before its answer. -/
def classWritten (s : State) (c : Cmd) : State :=
  wr (wr (classFields s (p0 c 7 0) (p0 c 9 8) (p0 c 13 12))
    (shareReg (p0 c 7 0) 0) (shareWord (p1 c 8 0) (p1 c 25 16)))
    (shareReg (p0 c 7 0) 4) (shareWord (p1 c 40 32) (p1 c 57 48))

/-- Both share registers of the class may take what CLASS_SET gives them. -/
def classShareOk (s : State) (c : Cmd) : Bool :=
  shareOk s (p0 c 7 0) 0 (p1 c 8 0) (p1 c 25 16) (fld s (clsReg (p0 c 7 0)) 3 2) &&
    shareOk s (p0 c 7 0) 4 (p1 c 40 32) (p1 c 57 48) (fld s (clsReg (p0 c 7 0)) 3 2)

theorem classDefined_eq (s : State) (c : Cmd) :
    classDefined s c = orFail s c [(!classShareOk s c, rcBadValue)] (wardChange s (classWritten s c) c) := rfl

theorem rd_classWritten_cls (s : State) (c : Cmd) : rd (classWritten s c) (clsReg (p0 c 7 0)) =
    rd (classFields s (p0 c 7 0) (p0 c 9 8) (p0 c 13 12)) (clsReg (p0 c 7 0)) := by
  have hlt := clsReg_lt_shareReg (p0_lt c 7 0)
  rw [classWritten, rd_wr_other _ _ (hlt 4).ne, rd_wr_other _ _ (hlt 0).ne]

theorem rd_classWritten_share (s : State) (c : Cmd) :
    rd (classWritten s c) (shareReg (p0 c 7 0) 0) = shareWord (p1 c 8 0) (p1 c 25 16) ∧
    rd (classWritten s c) (shareReg (p0 c 7 0) 4) = shareWord (p1 c 40 32) (p1 c 57 48) := by
  have hne : shareReg (p0 c 7 0) 0 ≠ shareReg (p0 c 7 0) 4 := by
    unfold shareReg wrdReg
    omega
  exact ⟨by rw [classWritten, rd_wr_other _ _ hne, rd_wr_same], rd_wr_same _ _ _⟩

theorem fld_classFields (s : State) (k : Nat) {prio urg : Nat} (hp : prio < 4) (hu : urg < 4) :
    fld (classFields s k prio urg) (clsReg k) 1 0 = prio ∧ fld (classFields s k prio urg) (clsReg k) 5 4 = urg ∧
    fld (classFields s k prio urg) (clsReg k) 3 2 = fld s (clsReg k) 3 2 := by
  unfold classFields
  refine ⟨?_, ?_, ?_⟩
  · rw [fld_setF_field _ _ _ _ _ _ _ (by decide) (by decide) (by decide) (by decide),
      fld_setF_same _ _ _ _ _ (by decide) (by decide)]
    exact Nat.mod_eq_of_lt hp
  · rw [fld_setF_same _ _ _ _ _ (by decide) (by decide)]
    exact Nat.mod_eq_of_lt hu
  · rw [fld_setF_field _ _ _ _ _ _ _ (by decide) (by decide) (by decide) (by decide),
      fld_setF_field _ _ _ _ _ _ _ (by decide) (by decide) (by decide) (by decide)]

theorem regsBut_classWritten (s : State) (c : Cmd) :
    RegsBut [clsReg (p0 c 7 0), shareReg (p0 c 7 0) 0, shareReg (p0 c 7 0) 4] s (classWritten s c) := by
  intro o ho
  simp only [List.mem_cons, List.not_mem_nil, or_false, not_or] at ho
  obtain ⟨hcls, h0, h4⟩ := ho
  rw [classWritten, rd_wr_other _ _ h4, rd_wr_other _ _ h0, classFields, rd_setF_other _ _ _ _ hcls,
    rd_setF_other _ _ _ _ hcls]

theorem classSet_sets (h : ready s c 0x0300 = true)
    (h0 : shareOk s (p0 c 7 0) 0 (p1 c 8 0) (p1 c 25 16) (fld s (clsReg (p0 c 7 0)) 3 2) = true)
    (h4 : shareOk s (p0 c 7 0) 4 (p1 c 40 32) (p1 c 57 48) (fld s (clsReg (p0 c 7 0)) 3 2) = true) :
    let k := p0 c 7 0
    let o := clsReg k
    ∃ b, fld b o 1 0 = p0 c 9 8 ∧ fld b o 5 4 = p0 c 13 12 ∧ fld b o 3 2 = fld s o 3 2 ∧
      fld b (shareReg k 0) 8 0 = p1 c 8 0 ∧ fld b (shareReg k 0) 25 16 = p1 c 25 16 ∧
      fld b (shareReg k 4) 8 0 = p1 c 40 32 ∧ fld b (shareReg k 4) 25 16 = p1 c 57 48 ∧
      RegsBut [o, shareReg k 0, shareReg k 4] s b ∧
      (admissibleNow b = true → exec (.classSet c) s = .next (answer b c rcSuccess)) ∧
      (admissibleNow b = false → exec (.classSet c) s = .next (answer s c rcNotAdmissible)) := by
  have hok : (!classShareOk s c) = false := by rw [classShareOk, h0, h4]; rfl
  have hexec : exec (.classSet c) s = .next (wardChange s (classWritten s c) c) := by
    rw [← orFail_of_passes (passes_cons hok rcBadValue passes_nil) s (wardChange s (classWritten s c) c) c,
      ← classDefined_eq]
    change execClassSet c s = _
    exact runCmd_of_ready h _
  obtain ⟨hprio, hurg, hguar⟩ := fld_classFields s (p0 c 7 0) (p0_lt c 9 8) (p0_lt c 13 12)
  obtain ⟨hs0, hs4⟩ := rd_classWritten_share s c
  obtain ⟨hres0, hmax0⟩ := shareWord_fields (p1_lt c 8 0) (p1_lt c 25 16)
  obtain ⟨hres4, hmax4⟩ := shareWord_fields (p1_lt c 40 32) (p1_lt c 57 48)
  have hcls (hi lo : Nat) := fld_congr (rd_classWritten_cls s c) hi lo
  refine ⟨classWritten s c, (hcls 1 0).trans hprio, (hcls 5 4).trans hurg, (hcls 3 2).trans hguar, ?_, ?_, ?_, ?_,
    regsBut_classWritten s c, wardChange_answers hexec⟩
  · rw [fld, hs0, hres0]
  · rw [fld, hs0, hmax0]
  · rw [fld, hs4, hres4]
  · rw [fld, hs4, hmax4]

/-! ## GUARANTEE_SET (R216, R217, R227) -/

/-- The word of a latency guarantee: BOUND, RATE and PCT (R227). -/
def latencyWord (pct rate bound : Nat) : Reg32 := BitVec.ofNat 32 (pct * 2 ^ 28 + rate * 2 ^ 16 + bound)

theorem latencyWord_fields {pct rate bound : Nat} (hp : pct < 4) (hr : rate < 4096) (hb : bound < 65536) :
    bits (latencyWord pct rate bound).toNat 15 0 = bound ∧ bits (latencyWord pct rate bound).toNat 27 16 = rate ∧
    bits (latencyWord pct rate bound).toNat 29 28 = pct := by
  have hw : (latencyWord pct rate bound).toNat = pct * 2 ^ 28 + rate * 2 ^ 16 + bound := by
    rw [latencyWord, BitVec.toNat_ofNat]
    omega
  rw [hw]
  simp only [bits, Nat.reduceSub, Nat.reduceAdd, Nat.reducePow]
  omega

/-- The values of a guarantee of kind `p0 c 9 8` in the registers behind the one at `o`: FLOOR, or the latency word. -/
def guaranteeValues (s : State) (c : Cmd) (o : Nat) : State :=
  if p0 c 9 8 = 1 then setF s (o + 4) 11 0 (p1 c 11 0)
  else if p0 c 9 8 = 2 then wr s (o + 8) (latencyWord (p1 c 33 32) (p1 c 11 0) (p1 c 31 16))
  else s

/-- What GUARANTEE_SET leaves before its answer. -/
def guaranteeWritten (s : State) (c : Cmd) : State :=
  guaranteeValues (setF s (clsReg (p0 c 7 0)) 3 2 (p0 c 9 8)) c (clsReg (p0 c 7 0))

/-- GUARANTEE_SET names a reserved kind or percentile, or a class whose shares are too small for a guarantee. -/
def guaranteeBad (s : State) (c : Cmd) : Bool :=
  p0 c 9 8 == 3 || p1 c 33 32 == 3 || (p0 c 9 8 != 0 &&
    (decide (fld s (shareReg (p0 c 7 0) 0) 8 0 < 8) || decide (fld s (shareReg (p0 c 7 0) 4) 8 0 < 8)))

theorem guaranteeDefined_eq (s : State) (c : Cmd) : guaranteeDefined s c =
    orFail s c [(guaranteeBad s c, rcBadValue)] (wardChange s (guaranteeWritten s c) c) := rfl

theorem guaranteeBad_eq_false (hg : p0 c 9 8 ≠ 3) (hp : p1 c 33 32 ≠ 3)
    (hf : p0 c 9 8 = 0 ∨ (8 ≤ fld s (shareReg (p0 c 7 0) 0) 8 0 ∧ 8 ≤ fld s (shareReg (p0 c 7 0) 4) 8 0)) :
    guaranteeBad s c = false := by
  rw [guaranteeBad, beq_false_of_ne hg, beq_false_of_ne hp]
  rcases hf with h0 | ⟨hq, hw⟩
  · simp [h0]
  · simp [Nat.not_lt.2 hq, Nat.not_lt.2 hw]

theorem regsBut_guaranteeValues (s : State) (c : Cmd) (o : Nat) :
    RegsBut [o + 4, o + 8] s (guaranteeValues s c o) := by
  intro r hr
  simp only [List.mem_cons, List.not_mem_nil, or_false, not_or] at hr
  obtain ⟨h4, h8⟩ := hr
  unfold guaranteeValues
  split
  · exact rd_setF_other _ _ _ _ h4
  · split
    · exact rd_wr_other _ _ h8
    · rfl

theorem fld_guaranteeValues_floor (s : State) (o : Nat) (hg : p0 c 9 8 = 1) :
    fld (guaranteeValues s c o) (o + 4) 11 0 = p1 c 11 0 := by
  rw [guaranteeValues, if_pos hg, fld_setF_same _ _ _ _ _ (by decide) (by decide), Nat.mod_eq_of_lt (p1_lt c 11 0)]

theorem rd_guaranteeValues_latency (s : State) (o : Nat) (hg : p0 c 9 8 = 2) :
    rd (guaranteeValues s c o) (o + 8) = latencyWord (p1 c 33 32) (p1 c 11 0) (p1 c 31 16) := by
  rw [guaranteeValues, if_neg (by omega), if_pos hg, rd_wr_same]

theorem fld_guaranteeWritten_guar (s : State) (c : Cmd) :
    fld (guaranteeWritten s c) (clsReg (p0 c 7 0)) 3 2 = p0 c 9 8 := by
  have hr : rd (guaranteeWritten s c) (clsReg (p0 c 7 0)) = _ := regsBut_guaranteeValues _ c _ _ (by simp)
  rw [fld_congr hr, fld_setF_same _ _ _ _ _ (by decide) (by decide), Nat.mod_eq_of_lt (p0_lt c 9 8)]

theorem regsBut_guaranteeWritten (s : State) (c : Cmd) :
    RegsBut [clsReg (p0 c 7 0), clsReg (p0 c 7 0) + 4, clsReg (p0 c 7 0) + 8] s (guaranteeWritten s c) := by
  intro o ho
  rw [List.mem_cons, not_or] at ho
  obtain ⟨hcls, hval⟩ := ho
  exact (regsBut_guaranteeValues _ c _ o hval).trans (rd_setF_other _ _ _ _ hcls)

theorem guaranteeSet_sets (h : ready s c 0x0301 = true) (hg : p0 c 9 8 ≠ 3) (hp : p1 c 33 32 ≠ 3)
    (hf : p0 c 9 8 = 0 ∨ (8 ≤ fld s (shareReg (p0 c 7 0) 0) 8 0 ∧ 8 ≤ fld s (shareReg (p0 c 7 0) 4) 8 0)) :
    let o := clsReg (p0 c 7 0)
    ∃ b, fld b o 3 2 = p0 c 9 8 ∧ (p0 c 9 8 = 1 → fld b (o + 4) 11 0 = p1 c 11 0) ∧
      (p0 c 9 8 = 2 → fld b (o + 8) 15 0 = p1 c 31 16 ∧ fld b (o + 8) 27 16 = p1 c 11 0 ∧
        fld b (o + 8) 29 28 = p1 c 33 32) ∧
      RegsBut [o, o + 4, o + 8] s b ∧
      (admissibleNow b = true → exec (.guaranteeSet c) s = .next (answer b c rcSuccess)) ∧
      (admissibleNow b = false → exec (.guaranteeSet c) s = .next (answer s c rcNotAdmissible)) := by
  have hpass := passes_cons (guaranteeBad_eq_false hg hp hf) rcBadValue passes_nil
  have hexec : exec (.guaranteeSet c) s = .next (wardChange s (guaranteeWritten s c) c) := by
    rw [← orFail_of_passes hpass s (wardChange s (guaranteeWritten s c) c) c, ← guaranteeDefined_eq]
    change execGuaranteeSet c s = _
    exact runCmd_of_ready h _
  refine ⟨guaranteeWritten s c, fld_guaranteeWritten_guar s c, fld_guaranteeValues_floor _ _, fun h2 => ?_,
    regsBut_guaranteeWritten s c, wardChange_answers hexec⟩
  have hw : rd (guaranteeWritten s c) (clsReg (p0 c 7 0) + 8) = _ := rd_guaranteeValues_latency _ _ h2
  simp only [fld, hw]
  exact latencyWord_fields (p1_lt c 33 32) (p1_lt c 11 0) (p1_lt c 31 16)

/-! ## PLAN_SET (R216, R223, R319) -/

theorem regDef_plan (p : Part) : regDef p (wrdReg 4) = some { rw := 0x0FFF03FF } := rfl

/-- What PLAN_SET leaves before its answer. -/
def planWritten (s : State) (c : Cmd) : State := wrReg s (wrdReg 4) (BitVec.ofNat 32 (p0 c 27 0)) 0

theorem planDefined_eq (s : State) (c : Cmd) : planDefined s c =
    orFail s c [(planBad (p0 c 27 0), rcBadValue), (mirrorLow s (p0 c 27 0), rcNotAdmissible)]
      (wardChange s (planWritten s c) c) := rfl

/-- A writable field of WRD_PLAN takes the field of P0 in the same place. -/
theorem fld_planWritten (s : State) (c : Cmd) {hi lo : Nat} (hlo : lo ≤ hi) (h27 : hi ≤ 27)
    (hrw : ∀ i ≤ hi, lo ≤ i → bit 0x0FFF03FF i = true) : fld (planWritten s c) (wrdReg 4) hi lo = p0 c hi lo := by
  have hv : (BitVec.ofNat 32 (p0 c 27 0)).toNat = p0 c 27 0 := by
    rw [BitVec.toNat_ofNat, Nat.mod_eq_of_lt ((p0_lt c 27 0).trans (by decide))]
  rw [planWritten, fld_wrReg (regDef_plan _) _ (by omega) hlo hrw (fun i _ _ => Nat.zero_testBit i) rfl rfl, hv]
  refine bits_congr (fun i hi _ => ?_) hlo
  rw [p0, bit_bits, decide_eq_true (by omega), Bool.true_and, Nat.zero_add]

theorem planSet_sets (h : ready s c 0x0302 = true) (hb : planBad (p0 c 27 0) = false)
    (hm : mirrorLow s (p0 c 27 0) = false) :
    ∃ b, fld b (wrdReg 4) 9 0 = p0 c 9 0 ∧ planMirror b = p0 c 27 16 ∧ RegsBut [wrdReg 4] s b ∧
      (admissibleNow b = true → exec (.planSet c) s = .next (answer b c rcSuccess)) ∧
      (admissibleNow b = false → exec (.planSet c) s = .next (answer s c rcNotAdmissible)) := by
  have hpass := passes_cons hb rcBadValue (passes_cons hm rcNotAdmissible passes_nil)
  have hexec : exec (.planSet c) s = .next (wardChange s (planWritten s c) c) := by
    rw [← orFail_of_passes hpass s (wardChange s (planWritten s c) c) c, ← planDefined_eq]
    change execPlanSet c s = _
    exact runCmd_of_ready h _
  exact ⟨planWritten s c, fld_planWritten s c (by decide) (by decide) (by decide),
    fld_planWritten s c (by decide) (by decide) (by decide), regsBut_wrReg _ _ _ _, wardChange_answers hexec⟩

/-- Settles O32: the commands in their order, each by the lemma about it. -/
theorem wardCommands : Obligations.WardCommands := fun _ _ =>
  ⟨classSet_sets, guaranteeSet_sets, planSet_sets⟩

end Sys2Proof.Machine
end

section
/-! PROOF. The start of a regulation window and its evaluation (O27). -/

namespace Sys2Proof.Machine

open Sys2Proof

/-! ## What the reports of the Ward keep -/

/-- `u` is `s` but for counters, event pulses, free values, and registers that `p` names. -/
structure ReportKept (p : Nat → Prop) (s u : State) : Prop where
  eq : ∃ c k l f, u = { s with csr := c, counts := k, pulses := l, free := f }
  regs : RegsOutside p s u

/-- The state with another table of effective values (R218). -/
def withEff (s : State) (e : Tab Eff) : State := { s with ward := { s.ward with eff := e } }

theorem sameMemory_withEff (s : State) (e : Tab Eff) : SameMemory s (withEff s e) := sameMemory_of_eq rfl rfl

/-- A register WRD_TUM (R226). -/
def IsTumReport (o : Nat) : Prop := wrdReg 0x400 ≤ o ∧ o < wrdReg 0x500

/-- WRD_TUM of tumbler `t`. -/
def wrdTum (t : Nat) : Nat := wrdReg (0x400 + 4 * t)

theorem isTumReport_wrdTum {t : Nat} (ht : t < 64) : IsTumReport (wrdTum t) := by
  unfold IsTumReport wrdTum wrdReg
  omega

namespace ReportKept

variable {p : Nat → Prop} {s u v : State} {t : Nat}

theorem refl (p : Nat → Prop) (s : State) : ReportKept p s s := ⟨⟨_, _, _, _, rfl⟩, fun _ _ => rfl⟩

theorem trans (h : ReportKept p s u) (h' : ReportKept p u v) : ReportKept p s v := by
  refine ⟨?_, fun o ho => (h'.regs o ho).trans (h.regs o ho)⟩
  obtain ⟨c, k, l, f, rfl⟩ := h.eq
  obtain ⟨c', k', l', f', rfl⟩ := h'.eq
  exact ⟨c', k', l', f', rfl⟩

theorem wr (h : ReportKept p s u) {off : Nat} (ho : p off) (x : Reg32) : ReportKept p s (wr u off x) :=
  h.trans ⟨⟨_, _, _, _, rfl⟩, fun _ hn => rd_wr_other u x (fun he => hn (he ▸ ho))⟩

theorem setF (h : ReportKept p s u) {off : Nat} (ho : p off) (hi lo x : Nat) : ReportKept p s (setF u off hi lo x) :=
  h.wr ho _

theorem count (h : ReportKept p s u) (slot n : Nat) : ReportKept p s (count u slot n) := by
  obtain ⟨k, hk⟩ := count_eq u slot n
  rw [hk]
  exact h.trans ⟨⟨_, _, _, _, rfl⟩, fun _ _ => rfl⟩

theorem raise (h : ReportKept p s u) (src data : Nat) : ReportKept p s (raise u src data) :=
  h.trans ⟨⟨_, _, _, _, rfl⟩, fun _ _ => rfl⟩

theorem fresh (h : ReportKept p s u) : ReportKept p s (fresh u).2 := h.trans ⟨⟨_, _, _, _, rfl⟩, fun _ _ => rfl⟩

theorem foldl {β : Type} {f : State → β → State} (h : ReportKept p s u) (l : List β)
    (hf : ∀ v b, ReportKept p s v → ReportKept p s (f v b)) : ReportKept p s (l.foldl f u) :=
  List.foldlRecOn l f h (fun v hv b _ => hf v b hv)

/-- New effective values, on both sides. -/
theorem withEff (h : ReportKept p s u) (e : Tab Eff) : ReportKept p (withEff s e) (withEff u e) := by
  refine ⟨?_, h.regs⟩
  obtain ⟨c, k, l, f, rfl⟩ := h.eq
  exact ⟨c, k, l, f, rfl⟩

theorem ward (h : ReportKept p s u) : u.ward = s.ward := by
  obtain ⟨c, k, l, f, rfl⟩ := h.eq
  rfl

theorem tums (h : ReportKept p s u) : u.tums = s.tums := by
  obtain ⟨c, k, l, f, rfl⟩ := h.eq
  rfl

theorem tum (h : ReportKept p s u) (t : Nat) : u.tum t = s.tum t := by rw [State.tum, h.tums, State.tum]

theorem ports (h : ReportKept p s u) : u.ports = s.ports := by
  obtain ⟨c, k, l, f, rfl⟩ := h.eq
  rfl

theorem sameMemory (h : ReportKept p s u) : SameMemory s u := by
  obtain ⟨c, k, l, f, rfl⟩ := h.eq
  exact sameMemory_of_eq rfl rfl

theorem part (h : ReportKept p s u) : u.part = s.part := by
  obtain ⟨c, k, l, f, rfl⟩ := h.eq
  rfl

theorem bandOf (h : ReportKept p s u) (t l : Nat) : bandOf u t l = bandOf s t l := by
  obtain ⟨c, k, l, f, rfl⟩ := h.eq
  rfl

/-! ### Capacity and live budget (R204, R215)

They depend on no register WRD_TUM. -/

theorem fld (h : ReportKept IsTumReport s u) {o : Nat} (ho : o < wrdReg 0x400 ∨ wrdReg 0x500 ≤ o) (hi lo : Nat) :
    fld u o hi lo = fld s o hi lo :=
  fld_congr (h.regs o (fun hn => by unfold IsTumReport at hn; omega)) hi lo

theorem fld_tum (h : ReportKept IsTumReport s u) (t o hi lo : Nat) :
    Machine.fld u (tumReg t o) hi lo = Machine.fld s (tumReg t o) hi lo :=
  h.fld (by unfold tumReg wrdReg; omega) hi lo

theorem roleOf (h : ReportKept IsTumReport s u) (t l : Nat) : roleOf u t l = roleOf s t l :=
  h.fld (by unfold lfReg wrdReg; omega) 1 0

theorem rateOf (h : ReportKept IsTumReport s u) (t : Nat) : rateOf u t = rateOf s t := h.fld_tum t 8 3 2

theorem refreshed (h : ReportKept IsTumReport s u) (t l : Nat) : refreshed u t l = refreshed s t l := by
  rw [Machine.refreshed, h.part, h.roleOf, Machine.refreshed]

theorem topBand (h : ReportKept IsTumReport s u) (t : Nat) : topBand u t = topBand s t := by
  unfold Machine.topBand
  rw [h.part]
  congr
  funext m l
  rw [h.refreshed, h.bandOf]

theorem noCapacity (h : ReportKept IsTumReport s u) (t : Nat) : noCapacity u t = noCapacity s t := by
  rw [Machine.noCapacity, tstate, h.tum, h.topBand, Machine.noCapacity, tstate]

theorem capacity (h : ReportKept IsTumReport s u) (t : Nat) : capacity u t = capacity s t := by
  rw [Machine.capacity, h.noCapacity, h.topBand, h.rateOf, Machine.capacity]

theorem scrubLines (h : ReportKept IsTumReport s u) (t : Nat) : scrubLines u t = scrubLines s t := by
  simp only [Machine.scrubLines, h.part, h.roleOf, h.tum]

theorem planMirror (h : ReportKept IsTumReport s u) : planMirror u = planMirror s := h.fld (by decide) 27 16

theorem dMirrorLive (h : ReportKept IsTumReport s u) (units ticks : Nat) :
    dMirrorLive u units ticks = dMirrorLive s units ticks := by
  rw [Machine.dMirrorLive, h.planMirror, Machine.dMirrorLive]

theorem dCopyLive (h : ReportKept IsTumReport s u) (t r : Nat) : dCopyLive u t r = dCopyLive s t r := by
  rw [Machine.dCopyLive, h.fld (o := wrdReg 4) (by decide), h.tum, h.fld_tum, Machine.dCopyLive]

theorem liveBudget (h : ReportKept IsTumReport s u) (t mir : Nat) : liveBudget u t mir = liveBudget s t mir := by
  simp only [Machine.liveBudget, dHam, dScrub, h.capacity, h.rateOf, h.fld_tum, h.scrubLines, h.dCopyLive]

end ReportKept

/-! ## WRD_TUM (R226) -/

theorem capacityAt_lt (band r : Nat) : capacityAt band r < 2 ^ 15 := by
  unfold capacityAt
  split
  · decide
  · have hr : pick3 r 4 3 2 ≤ 4 := by
      unfold pick3
      split_ifs <;> decide
    have hb : [975, 950, 880].getD band 0 ≤ 975 := by
      interval_cases band <;> decide
    have := Nat.mul_le_mul (Nat.mul_le_mul_left 295473 hr) hb
    omega

theorem capacity_lt (s : State) (t : Nat) : capacity s t < 2 ^ 15 := by
  unfold capacity
  split
  · decide
  · exact capacityAt_lt _ _

theorem liveBudget_le_capacity (s : State) (t mir : Nat) : liveBudget s t mir ≤ capacity s t := Nat.sub_le _ _

/-- D_mirror of tumbler `t` from what the previous window charged (R215). -/
def mirrorNow (s : State) (t : Nat) : Nat :=
  dMirrorLive s (tget zero s.ward.mirrorPrev t) ((s.ward.prev.map (·.len)).getD 0)

/-- WRD_TUM of tumbler `t` of `s` stands in `u`: 0 before the tumbler was ever online, else, below CUT, capacity and live
budget. -/
def TumReported (s u : State) (t : Nat) : Prop :=
  ((s.tum t).mode.everOnline = false → rd u (wrdTum t) = 0) ∧
  ((s.tum t).mode.everOnline = true → (rd u (wrdTum t)).toNat % 2 ^ 31 =
    capacity s t * 2 ^ 16 + liveBudget s t (mirrorNow s t))

variable {p : Nat → Prop} {s u : State} {t : Nat}

theorem TumReported.congr {v : State} (h : TumReported s u t) (hr : rd v (wrdTum t) = rd u (wrdTum t)) :
    TumReported s v t := by
  unfold TumReported
  rw [hr]
  exact h

/-- What WRD_TUM of tumbler `t` is given: 0 before it was ever online, else CUT, capacity and live budget. -/
def tumWord (s : State) (t mir : Nat) (cut : Bool) : Reg32 :=
  if (s.tum t).mode.everOnline then BitVec.ofNat 32 (b2n cut * 2 ^ 31 + capacity s t * 2 ^ 16 + liveBudget s t mir)
  else 0

theorem wardTum_eq (s : State) (t mir : Nat) (cut : Bool) : wardTum s t mir cut = wr s (wrdTum t) (tumWord s t mir cut) := by
  unfold wardTum tumWord
  cases (s.tum t).mode.everOnline <;> rfl

/-- Capacity and live budget leave bit 31 of the word to CUT. -/
theorem tumWord_below_cut (mir : Nat) (cut : Bool) (ho : (s.tum t).mode.everOnline = true) :
    (tumWord s t mir cut).toNat % 2 ^ 31 = capacity s t * 2 ^ 16 + liveBudget s t mir := by
  have hk := capacity_lt s t
  have hb := liveBudget_le_capacity s t mir
  rw [tumWord, if_pos ho, BitVec.toNat_ofNat]
  omega

namespace ReportKept

theorem tumWord (h : ReportKept IsTumReport s u) (t mir : Nat) (cut : Bool) :
    tumWord u t mir cut = tumWord s t mir cut := by
  rw [Machine.tumWord, h.tum, h.capacity, h.liveBudget, Machine.tumWord]

theorem wardTum (h : ReportKept IsTumReport s u) (ht : t < 64) (mir : Nat) (cut : Bool) :
    ReportKept IsTumReport s (wardTum u t mir cut) := by
  rw [wardTum_eq]
  exact h.wr (isTumReport_wrdTum ht) _

theorem tumReported (h : ReportKept IsTumReport s u) (t : Nat) (cut : Bool) :
    TumReported s (Machine.wardTum u t (mirrorNow s t) cut) t := by
  rw [TumReported, wardTum_eq, rd_wr_same, h.tumWord]
  exact ⟨fun ho => if_neg (ho ▸ Bool.false_ne_true), tumWord_below_cut _ cut⟩

end ReportKept

/-! ## The start of a window (R214, R218, R221) -/

/-- The tumblers below `n` have their effective values and their reports. -/
def CutsApplied (s : State) (n : Nat) (u : State) : Prop :=
  (∃ e, ReportKept IsTumReport (withEff s e) u) ∧ ∀ t, t < n → TumReported s u t

namespace CutsApplied

variable {n : Nat}

theorem withEff (h : CutsApplied s n u) (e : Tab Eff) : CutsApplied s n (withEff u e) := by
  obtain ⟨⟨e', hkept⟩, hrep⟩ := h
  exact ⟨⟨e, hkept.withEff e⟩, hrep⟩

theorem count (h : CutsApplied s n u) (slot k : Nat) : CutsApplied s n (count u slot k) := by
  obtain ⟨⟨e, hkept⟩, hrep⟩ := h
  exact ⟨⟨e, hkept.count slot k⟩, fun t ht => (hrep t ht).congr (rd_count ..)⟩

/-- The report of the next tumbler. -/
theorem wardTum (h : CutsApplied s t u) (ht : t < 64) (cut : Bool) :
    CutsApplied s (t + 1) (wardTum u t (mirrorNow s t) cut) := by
  obtain ⟨⟨e, hkept⟩, hrep⟩ := h
  refine ⟨⟨e, hkept.wardTum ht _ cut⟩, fun k hk => ?_⟩
  by_cases hkt : k = t
  · subst hkt
    exact hkept.tumReported k cut
  · rw [wardTum_eq]
    refine (hrep k (by omega)).congr (rd_wr_other _ _ ?_)
    unfold wrdTum wrdReg
    omega

end CutsApplied

theorem cutsApplied_applyCuts (s : State) : CutsApplied s 64 (applyCuts s) := by
  unfold applyCuts
  extract_lets g ticks
  refine foldUpTo_rule ⟨⟨s.ward.eff, ReportKept.refl _ _⟩, fun t ht => absurd ht (Nat.not_lt_zero t)⟩
    (fun t u ht hu => ?_)
  have hmir : dMirrorLive u (tget zero u.ward.mirrorPrev t) ticks = mirrorNow s t := by
    obtain ⟨⟨e, hkept⟩, -⟩ := hu
    rw [hkept.dMirrorLive, hkept.ward]
    rfl
  dsimp only
  rw [hmir]
  split
  · exact (hu.withEff _).wardTum ht false
  · exact ((hu.withEff _).count _ _).wardTum ht _

/-! ### The reports (R220, R227, R229) -/

theorem ReportKept.wardEvent (h : ReportKept p s u) (hp : p (wrdReg 0x10)) (l : List Nat) (src i : Nat) :
    ReportKept p s (wardEvent u l src i) := by
  unfold Machine.wardEvent
  split
  · exact h
  · exact (h.raise _ _).setF hp _ _ _

/-- The registers of the classes and the maps of R229 lie above every WRD_TUM. -/
theorem not_isTumReport_of_le {o : Nat} (h : 0x500 ≤ o) : ¬ IsTumReport (wrdReg o) := by
  unfold IsTumReport wrdReg
  omega

theorem ReportKept.classBit (h : ReportKept (¬ IsTumReport ·) s u) {base : Nat} (hb : 0x500 ≤ base) (c : Nat)
    (b : Bool) : ReportKept (¬ IsTumReport ·) s (classBit u base c b) := h.setF (not_isTumReport_of_le (by omega)) _ _ _

theorem ReportKept.effMin (h : ReportKept p s u) (c : Nat) : ReportKept p s (effMin u c).2 := by
  unfold Machine.effMin
  dsimp only
  split
  · exact h.fresh
  · exact h

theorem ReportKept.classStat (h : ReportKept (¬ IsTumReport ·) s u) (c : Nat) :
    ReportKept (¬ IsTumReport ·) s (classStat u c) :=
  ((h.effMin c).setF (not_isTumReport_of_le (by omega)) _ _ _).setF (not_isTumReport_of_le (by omega)) _ _ _

theorem not_isTumReport_evtStat : ¬ IsTumReport (wrdReg 0x10) := by
  unfold IsTumReport wrdReg
  omega

/-- The reports of a window start change no WRD_TUM. -/
theorem reportKept_wardReports (s : State) (w : WardWin) : ReportKept (¬ IsTumReport ·) s (wardReports s w) := by
  have hevt := not_isTumReport_evtStat
  unfold wardReports
  exact (ReportKept.refl _ s).wardEvent hevt _ _ _ |>.wardEvent hevt _ _ _ |>.wardEvent hevt _ _ _
    |>.foldl _ (fun _ _ h => h.classBit (by decide) _ _) |>.foldl _ (fun _ _ h => h.classBit (by decide) _ _)
    |>.foldl _ (fun _ _ h => h.count _ _) |>.foldl _ (fun _ _ h => h.count _ _)
    |>.foldl _ (fun _ _ h => h.setF (not_isTumReport_of_le (by omega)) _ _ _)
    |>.foldl _ (fun _ _ h => h.classStat _)

/-! ### The window that starts -/

theorem mem_guaranteedOf {l : List (Nat × Admitted)} {e : Nat × Admitted} :
    e ∈ guaranteedOf l ↔ e ∈ l ∧ e.2.guar ≠ 0 := by
  simp [guaranteedOf]

/-- The effective values that a window keeps: those of the classes guaranteed in it. -/
def keptEff (s : State) : Tab Eff :=
  s.ward.eff.filter (fun x => (guaranteedOf s.ward.admitted).any (fun e => e.1 == x.1 % 256))

/-- The window is begun with effective values `e`. -/
def beginWindow (s : State) (e : Tab Eff) : State := { s with ward := { s.ward with begun := true, eff := e } }

theorem beginWindow_frame (s : State) (e : Tab Eff) : (beginWindow s e).tums = s.tums ∧
    (beginWindow s e).ports = s.ports ∧ SameMemory s (beginWindow s e) := ⟨rfl, rfl, sameMemory_of_eq rfl rfl⟩

theorem rd_beginWindow (s : State) (e : Tab Eff) (o : Nat) : rd (beginWindow s e) o = rd s o := rfl

theorem ward_beginWindow (s : State) (e : Tab Eff) :
    (beginWindow s e).ward = { s.ward with begun := true, eff := e } := rfl

theorem windowStart_eq (s : State) : windowStart s =
    wardReports (beginWindow (applyCuts s) (keptEff (applyCuts s)))
      (prevWindow (beginWindow (applyCuts s) (keptEff (applyCuts s)))) := rfl

theorem reportKept_windowStart (s : State) : ReportKept (¬ IsTumReport ·)
    (beginWindow (applyCuts s) (keptEff (applyCuts s))) (windowStart s) := by
  rw [windowStart_eq]
  exact reportKept_wardReports _ _

/-- A window start leaves of the Ward all but the effective values and the mark that it has been made. -/
theorem ward_windowStart (s : State) :
    (windowStart s).ward = { s.ward with begun := true, eff := keptEff (applyCuts s) } := by
  obtain ⟨⟨e, hcut⟩, -⟩ := cutsApplied_applyCuts s
  rw [(reportKept_windowStart s).ward, ward_beginWindow, hcut.ward]
  rfl

theorem keptEff_guaranteed {x : Nat × Eff} (hx : x ∈ keptEff s) :
    ∃ a, (x.1 % 256, a) ∈ s.ward.admitted ∧ a.guar ≠ 0 := by
  obtain ⟨d, hd, hdx⟩ := List.any_eq_true.1 (List.mem_filter.1 hx).2
  exact ⟨d.2, beq_iff_eq.1 hdx ▸ mem_guaranteedOf.1 hd⟩

theorem admitted_applyCuts (s : State) : (applyCuts s).ward.admitted = s.ward.admitted := by
  obtain ⟨⟨e, hcut⟩, -⟩ := cutsApplied_applyCuts s
  rw [hcut.ward]
  rfl

theorem eff_windowStart (s : State) : (windowStart s).ward.eff = keptEff (applyCuts s) := by rw [ward_windowStart]

/-- A window start keeps effective values of guaranteed classes alone. -/
theorem eff_windowStart_guaranteed {x : Nat × Eff} (hx : x ∈ (windowStart s).ward.eff) :
    ∃ a, (x.1 % 256, a) ∈ s.ward.admitted ∧ a.guar ≠ 0 := by
  rw [eff_windowStart] at hx
  rw [← admitted_applyCuts]
  exact keptEff_guaranteed hx

theorem tumReported_windowStart (ht : t < 64) : TumReported s (windowStart s) t := by
  obtain ⟨-, hrep⟩ := cutsApplied_applyCuts s
  refine (hrep t ht).congr ?_
  rw [(reportKept_windowStart s).regs _ (not_not_intro (isTumReport_wrdTum ht)), rd_beginWindow]

theorem applyCuts_frame (s : State) : (applyCuts s).tums = s.tums ∧ (applyCuts s).ports = s.ports ∧
    SameMemory s (applyCuts s) := by
  obtain ⟨⟨e, hcut⟩, -⟩ := cutsApplied_applyCuts s
  exact ⟨hcut.tums, hcut.ports, sameMemory_trans (sameMemory_withEff s e) hcut.sameMemory⟩

theorem windowStart_frame (s : State) : (windowStart s).tums = s.tums ∧ (windowStart s).ports = s.ports ∧
    SameMemory s (windowStart s) := by
  have hrep := reportKept_windowStart s
  obtain ⟨htums, hports, hmem⟩ := beginWindow_frame (applyCuts s) (keptEff (applyCuts s))
  obtain ⟨hctums, hcports, hcmem⟩ := applyCuts_frame s
  exact ⟨hrep.tums.trans (htums.trans hctums), hrep.ports.trans (hports.trans hcports),
    sameMemory_trans hcmem (sameMemory_trans hmem hrep.sameMemory)⟩

theorem exec_wardWindowStart (h : haspLive s = true) :
    exec .wardWindowStart s = .next (when (!s.ward.begun) s (windowStart s)) := by
  change execWardWindowStart s = _
  rw [execWardWindowStart, h, Bool.true_and]

/-! ## The evaluation of a window (R211, R212, R214, R220) -/

theorem ReportKept.missClass (h : ReportKept (¬ IsTumReport ·) s u) (c : Nat) :
    ReportKept (¬ IsTumReport ·) s (missClass u c) :=
  ((h.setF (not_isTumReport_of_le (by omega)) _ _ _).classBit (by decide) _ _).count _ _

theorem pulses_missClass (s : State) (c : Nat) : (missClass s c).pulses = s.pulses := by
  unfold missClass classBit
  dsimp only
  rw [count_pulses, setF_pulses, setF_pulses]

theorem pulses_foldl_missClass (l : List Nat) (s : State) : (l.foldl missClass s).pulses = s.pulses :=
  List.foldlRecOn (motive := fun u => u.pulses = s.pulses) l missClass rfl
    (fun u hu c _ => (pulses_missClass u c).trans hu)

/-- The miss bit of class `c` (R229). -/
def missed (s : State) (c : Nat) : Bool := flag s (wrdReg (0x3000 + 4 * (c / 32))) (c % 32)

theorem missed_missClass_same (s : State) (c : Nat) : missed (missClass s c) c = true := by
  unfold missed missClass classBit
  dsimp only
  rw [flag_count]
  exact flag_setF_one _ _ _ (Nat.mod_lt _ (by decide))

/-- A set bit outside the miss counts stays set when a class misses. -/
theorem flag_missClass_of_set {o i : Nat} (c : Nat) (ho : o ≠ wrdReg (0x100C + 16 * c)) (h : flag s o i = true) :
    flag (missClass s c) o i = true := by
  have hc : c % 32 < 32 := Nat.mod_lt _ (by decide)
  unfold missClass classBit
  dsimp only
  rw [flag_count]
  by_cases hm : o = wrdReg (0x3000 + 4 * (c / 32))
  · rw [hm, flag_setF_same _ _ _ _ _ _ le_rfl hc, ← hm]
    split
    next hi =>
      rw [show i - c % 32 = 0 by omega]
      rfl
    · rw [flag_setF_other _ _ _ _ _ ho, h]
  · rw [flag_setF_other _ _ _ _ _ hm, flag_setF_other _ _ _ _ _ ho, h]

theorem flag_foldl_missClass_of_set {o i : Nat} (l : List Nat) (ho : ∀ c ∈ l, o ≠ wrdReg (0x100C + 16 * c))
    (h : flag s o i = true) : flag (l.foldl missClass s) o i = true :=
  List.foldlRecOn (motive := fun u => flag u o i = true) l missClass h
    (fun _ hu c hc => flag_missClass_of_set c (ho c hc) hu)

/-- Every class of the list has its miss bit set; below class 256 the maps lie above the miss counts. -/
theorem missed_foldl_missClass {c : Nat} (l : List Nat) (s : State) (hl : ∀ d ∈ l, d < 256) (hc : c ∈ l) :
    missed (l.foldl missClass s) c = true := by
  induction l generalizing s with
  | nil => exact absurd hc List.not_mem_nil
  | cons d r ih =>
    obtain ⟨-, hr⟩ := List.forall_mem_cons.1 hl
    rcases List.mem_cons.1 hc with rfl | hcr
    · refine flag_foldl_missClass_of_set r (fun e he => ?_) (missed_missClass_same s c)
      have := hr e he
      unfold wrdReg
      omega
    · exact ih _ hr hcr

/-- The guaranteed classes that missed in window `d` in some tumbler. -/
def missesOf (s : State) (d : WardWin) : List (Nat × Admitted) :=
  (guaranteedOf d.admitted).filter (fun e => (List.range 64).any (fun t => missedIn s d t e.1 e.2))

/-- The state with the windows `r` to be evaluated. -/
def withDues (s : State) (r : List WardWin) : State := { s with ward := { s.ward with dues := r } }

/-- An evaluation raises the miss event where a class missed, and then notes each miss. -/
theorem evaluateWindow_withDues (s : State) (r : List WardWin) (d : WardWin) : evaluateWindow (withDues s r) d =
    ((missesOf s d).map (·.1)).foldl missClass (wardEvent (withDues s r) ((missesOf s d).map (·.1)) 0x283 1) := rfl

theorem wardEvent_of_ne_nil {l : List Nat} (h : l ≠ []) (s : State) (src i : Nat) :
    wardEvent s l src i = setF (raise s src 0) (wrdReg 0x10) i i 1 := by
  rw [wardEvent, List.isEmpty_eq_false_iff.2 h, if_neg Bool.false_ne_true]

/-- An evaluation changes registers, counters and event pulses. -/
theorem reportKept_evaluateWindow (s : State) (d : WardWin) : ReportKept (¬ IsTumReport ·) s (evaluateWindow s d) :=
  ((ReportKept.refl _ s).wardEvent not_isTumReport_evtStat _ _ _).foldl _ (fun _ _ h => h.missClass _)

theorem evaluateWindow_without_miss {r : List WardWin} {d : WardWin} (h : missesOf s d = []) :
    evaluateWindow (withDues s r) d = withDues s r := by
  rw [evaluateWindow_withDues, h]
  rfl

/-- The miss event and its bit of WRD_EVT_STAT, which lies below the registers of the classes. -/
theorem evaluateWindow_with_miss {r : List WardWin} {d : WardWin} (h : missesOf s d ≠ []) :
    (evaluateWindow (withDues s r) d).pulses = s.pulses ++ [(0x283, 0)] ∧
    flag (evaluateWindow (withDues s r) d) (wrdReg 0x10) 1 = true := by
  rw [evaluateWindow_withDues, wardEvent_of_ne_nil (List.map_eq_nil_iff.not.2 h)]
  refine ⟨?_, flag_foldl_missClass_of_set _ (fun c _ => ?_) (flag_setF_one _ _ _ (by decide))⟩
  · rw [pulses_foldl_missClass, setF_pulses]
    rfl
  · unfold wrdReg
    omega

theorem missed_evaluateWindow {r : List WardWin} {d : WardWin} (hd : ∀ e ∈ d.admitted, e.1 < 256)
    {e : Nat × Admitted} (he : e ∈ missesOf s d) : missed (evaluateWindow (withDues s r) d) e.1 = true := by
  refine missed_foldl_missClass _ _ (fun c hc => ?_) (List.mem_map_of_mem he)
  obtain ⟨x, hx, rfl⟩ := List.mem_map.1 hc
  exact hd x (mem_guaranteedOf.1 (List.mem_filter.1 hx).1).1

theorem exec_windowEvaluation {d : WardWin} {r : List WardWin} (h : haspLive s = true) (hd : s.ward.dues = d :: r) :
    exec .windowEvaluation s = .next (evaluateWindow (withDues s r) d) := by
  change execWindowEvaluation s = _
  rw [execWindowEvaluation, hd]
  dsimp only
  rw [h, when_true]
  rfl

theorem exec_windowEvaluation_nil (hd : s.ward.dues = []) : exec .windowEvaluation s = .next s := by
  change execWindowEvaluation s = _
  rw [execWindowEvaluation, hd]

/-- Settles O27: the window start by its tumblers one after another (`CutsApplied.wardTum`), the evaluation by its misses. -/
theorem wardWindows : Obligations.WardWindows := by
  refine ⟨fun s hl => ⟨fun hb => ?_, fun hb => ?_⟩, fun s d r hl hd hadm => ?_, fun s => exec_windowEvaluation_nil⟩
  · obtain ⟨htums, hports, hmem⟩ := windowStart_frame s
    refine ⟨windowStart s, by rw [exec_wardWindowStart hl, hb, Bool.not_false, when_true], ?_, ?_, ?_, ?_, ?_, ?_,
      fun _ => eff_windowStart_guaranteed, fun t ht => (tumReported_windowStart ht).1,
      fun t ht => (tumReported_windowStart ht).2, htums, hports, hmem⟩ <;> rw [ward_windowStart]
  · rw [exec_wardWindowStart hl, hb, Bool.not_true, when_false]
  · intro bad
    have hkept := reportKept_evaluateWindow (withDues s r) d
    refine ⟨_, exec_windowEvaluation hl hd, by rw [hkept.ward]; rfl, fun e he => missed_evaluateWindow hadm he,
      fun hb => ?_, evaluateWindow_with_miss, hkept.sameMemory⟩
    rw [evaluateWindow_without_miss hb]
    exact ⟨rfl, rfl⟩

end Sys2Proof.Machine
end

section
/-! PROOF. Two statements about a port that fail: the key sets of a reversed link in Train.KS1 (O54), and a rejected PATTERN
of a port whose PARAM fault stands unacknowledged (O55). -/

namespace Sys2Proof.Machine

open Sys2Proof

/-! ## KS1 on a reversed link (R247, R279) -/

/-- A KS1 exchange that is open on the sensed lanes stays open. -/
theorem ks1Done_of_open {s : State} {p : PortN} (h : keysDone s p 1 (s.port p).phy.sensed.toNat = false) :
    ks1Done s p = s := by
  unfold ks1Done
  dsimp only
  rw [h]
  rfl

/-- A port in Train.KS1 whose link was found reversed in a Train that failed: termination is sensed at positions 0 to 3, and the
runs of valid key sets stand at positions 12 to 15, which are those of the same logical numbers. -/
def reversedKs1 : State :=
  let run : LaneKs := { kind := 1, run := 8, fields := BitVec.ofNat 256 (2 ^ 38) }
  { State.reset with
    power := { Power.init with strikeUp := true }
    csr := [(fpReg 0 0x10, 0x1F)]
    ports := [(0, { Port.init with
      link := .trainKs1
      ksSent := 16
      ks := [(12, run), (13, run), (14, run), (15, run)]
      phy := { PhyS.init with sensed := 0x000F } })] }

/-- Refutes O54: in a Train the model reads the runs of KS1 at the positions sensed, and the statement at the mirrored ones once
the link is known to be reversed; in `reversedKs1` the latter are complete, and the port stays in Train.KS1. -/
theorem not_keySetsRatesAndSweeps : ¬ Obligations.KeySetsRatesAndSweeps := by
  intro h
  obtain ⟨-, hks1, -⟩ := h reversedKs1 0 rfl
  have hmirrored : keysDone reversedKs1 0 1 (posMask reversedKs1 0 0x000F) = true := by decide +kernel
  have hrate : chooseRate reversedKs1 0 (bits (firstKeys reversedKs1 0 (posMask reversedKs1 0 0x000F)) 40 38) = some 0 := by
    decide +kernel
  have hstays : exec (.keySetExchangeComplete 0) reversedKs1 = .next reversedKs1 :=
    congrArg Host.Outcome.next (ks1Done_of_open (s := reversedKs1) (p := 0) (by decide +kernel))
  obtain ⟨u, hu, hlink, -⟩ := hks1 rfl 0 hmirrored hrate
  rw [hstays] at hu
  injection hu with hu
  rw [← hu] at hlink
  exact absurd hlink (by decide)

/-! ## A rejected PATTERN (R17, R404, R410) -/

/-- A port in Off whose PARAM fault was recorded three times without an acknowledgement: its SEV has risen to 2. -/
def paramEscalated : State :=
  { State.reset with
    power := { Power.init with strikeUp := true, haspUp := true }
    csr := [(fltBase (.port 0), 1), (sevReg (.port 0) 0, 2)] }

/-- Refutes O55: in `paramEscalated` the rejection of PATTERN 5 is recorded at severity 3, so that the port goes into latch-out,
where the statement says that a write of PG_CFG outside test mode leaves every port as it is. -/
theorem not_laneCommands : ¬ Obligations.LaneCommands := by
  intro h
  obtain ⟨-, -, -, -, -, -, -, hclear, -⟩ := h paramEscalated 0
  have hreaches : reaches paramEscalated (fpReg 0 0x500) = true := by decide +kernel
  have hexec : exec (.pgClear 0 5) paramEscalated = .next (wrPgCfg paramEscalated 0 13) :=
    congrArg Host.Outcome.next (atReg_of_reaches hreaches _)
  have hlatched : ((wrPgCfg paramEscalated 0 13).port 0).link = .latchOut := by decide +kernel
  obtain ⟨u, hu, -, -, hports, -⟩ := (hclear 5 hreaches).2 (by decide +kernel)
  rw [hexec] at hu
  injection hu with hu
  rw [State.port, hu, hports] at hlatched
  exact absurd hlatched (by decide +kernel)

end Sys2Proof.Machine
end

section
/-! PROOF. Flits of a port: header, payload and chunks, and the packets that fill them (R284, R287, R296, R302 to R304). -/

namespace Sys2Proof.Machine

open Sys2Proof

/-! ## Operations on one port -/

/-- Registers, other ports and memory stay. -/
theorem InPort.frame {p : Nat} {s u : State} (h : InPort p s u) : RegsBut [] s u ∧ PortsBut p s u ∧ SameMemory s u := by
  refine ⟨fun o _ => h.rd_eq o, h.ports, ?_⟩
  obtain ⟨x, c, rfl⟩ := h.eq
  exact sameMemory_of_eq rfl rfl

theorem InPort.trans {p : Nat} {s u v : State} (h : InPort p s u) (h' : InPort p u v) : InPort p s v := by
  obtain ⟨x, c, hu⟩ := h.eq
  obtain ⟨y, d, hv⟩ := h'.eq
  exact ⟨⟨y, d, by rw [hv, hu]⟩, fun k hk => (h'.ports k hk).trans (h.ports k hk)⟩

/-- A row whose condition holds. -/
theorem completes_when {i : Instr} {c : Bool} {s t : State} {P : State → Prop} (hi : exec i s = .next (when c s t))
    (hc : c = true) (h : P t) : Completes i s P := ⟨t, by rw [hi, hc, when_true], h⟩

/-! ## Flits and chunks (R284, R287, R296) -/

theorem flitCrc_lt (v f : Nat) : flitCrc v f < 2 ^ 32 := crcGo_lt (by decide) _ _ (by decide)

/-- A flit as a number: header, payload, CRC. -/
theorem toNat_mkFlit (h pay v : Nat) : ∃ c < 2 ^ 32,
    (mkFlit h pay v).toNat = h % 65536 + (pay % 2 ^ 464 + c * 2 ^ 464) * 65536 := by
  have hc := flitCrc_lt v (h % 65536 + pay % 2 ^ 464 * 65536)
  refine ⟨_, hc, ?_⟩
  unfold mkFlit
  dsimp only
  rw [BitVec.toNat_ofNat, Nat.mod_eq_of_lt (by omega)]
  omega

theorem header_mkFlit (h pay v : Nat) : (mkFlit h pay v).toNat % 65536 = h % 65536 := by
  obtain ⟨c, -, hf⟩ := toNat_mkFlit h pay v
  rw [hf]
  omega

theorem payload_mkFlit (h v : Nat) {pay : Nat} (hp : pay < 2 ^ 464) : bits (mkFlit h pay v).toNat 479 16 = pay := by
  obtain ⟨c, hc, hf⟩ := toNat_mkFlit h pay v
  rw [hf, bits]
  omega

/-- Fields of the header. -/
theorem bit_of_header {x y : Nat} (h : x % 65536 = y % 65536) {i : Nat} (hi : i < 16) : bit x i = bit y i := by
  have hx := Nat.testBit_mod_two_pow x 16 i
  have hy := Nat.testBit_mod_two_pow y 16 i
  rw [show (2 : Nat) ^ 16 = 65536 from rfl] at hx hy
  rw [h, hy] at hx
  simpa [hi, bit] using hx.symm

theorem length_toChunks (n v : Nat) : (toChunks n v).length = n := by
  induction n generalizing v with
  | zero => rfl
  | succ n ih => rw [toChunks, List.length_cons, ih]

theorem chunkNat_lt (l : List (BitVec 16)) : chunkNat l < 65536 ^ l.length := by
  induction l with
  | nil => decide
  | cons b r ih =>
    have hb := b.isLt
    rw [chunkNat, List.length_cons, Nat.pow_succ]
    omega

theorem toChunks_chunkNat (n : Nat) (l : List (BitVec 16)) (h : n ≤ l.length) : toChunks n (chunkNat l) = l.take n := by
  induction n generalizing l with
  | zero => rfl
  | succ n ih =>
    cases l with
    | nil => exact absurd h (Nat.not_succ_le_zero n)
    | cons b r =>
      have hb := b.isLt
      have hlow : BitVec.ofNat 16 (b.toNat + 65536 * chunkNat r) = b := BitVec.eq_of_toNat_eq (by
        rw [BitVec.toNat_ofNat]
        omega)
      have hrest : (b.toNat + 65536 * chunkNat r) / 65536 = chunkNat r := by omega
      rw [toChunks, chunkNat, hlow, hrest, ih r (Nat.le_of_succ_le_succ h), List.take_succ_cons]

/-! ## The next packet (R302 to R304) -/

/-- What taking packets from the queues of port `p` keeps: the numbers and flits held, and that no CREDIT packet is due. -/
structure QueuesTaken (p : Nat) (s u : State) : Prop extends InPort p s u where
  txNext : (u.port p).txNext = (s.port p).txNext
  replay : (u.port p).replay = (s.port p).replay
  creditPkt : (s.port p).creditPkt = false → (u.port p).creditPkt = false

namespace QueuesTaken

variable {p : Nat} {s u v : State}

theorem refl (p : Nat) (s : State) : QueuesTaken p s s := ⟨InPort.refl p s, rfl, rfl, id⟩

theorem trans (h : QueuesTaken p s u) (h' : QueuesTaken p u v) : QueuesTaken p s v :=
  ⟨h.toInPort.trans h'.toInPort, h'.txNext.trans h.txNext, h'.replay.trans h.replay, fun hc => h'.creditPkt (h.creditPkt hc)⟩

theorem count (h : QueuesTaken p s u) (slot n : Nat) : QueuesTaken p s (count u slot n) :=
  ⟨h.toInPort.count slot n, by rw [port_count, h.txNext], by rw [port_count, h.replay],
    fun hc => by rw [port_count, h.creditPkt hc]⟩

theorem setPort {x : Port} (hn : x.txNext = (s.port p).txNext) (hr : x.replay = (s.port p).replay)
    (hc : (s.port p).creditPkt = false → x.creditPkt = false) : QueuesTaken p s (s.setPort p x) :=
  ⟨(InPort.refl p s).setPort x, by rw [port_setPort_same, hn], by rw [port_setPort_same, hr],
    fun h => by rw [port_setPort_same, hc h]⟩

end QueuesTaken

/-- With no CREDIT packet due, the first queue that is not empty gives its oldest packet, where its class has credit. -/
theorem queuesTaken_nextPacket {s t : State} {p : Nat} {k : List (BitVec 16)} (h : nextPacket s p = some (k, t)) :
    QueuesTaken p s t := by
  unfold nextPacket at h
  dsimp only at h
  split at h
  · cases h
    exact QueuesTaken.setPort rfl rfl fun _ => rfl
  · split at h
    case h_5 => cases h
    all_goals
      split at h
      · cases h
      cases h
    · refine QueuesTaken.count ?_ _ _
      exact QueuesTaken.setPort rfl rfl id
    · exact QueuesTaken.setPort rfl rfl id
    · exact QueuesTaken.setPort rfl rfl id
    · exact QueuesTaken.setPort rfl rfl id

theorem queuesTaken_anyPacket {s t : State} {p : Nat} {k : List (BitVec 16)} (h : anyPacket s p = some (k, t)) :
    QueuesTaken p s t := by
  unfold anyPacket at h
  split at h
  next hn =>
    cases h
    exact queuesTaken_nextPacket hn
  next =>
    dsimp only at h
    split at h
    next hn =>
      cases h
      refine (QueuesTaken.trans ?_ (queuesTaken_nextPacket hn)).trans ?_
      · exact QueuesTaken.setPort rfl rfl id
      · exact QueuesTaken.setPort rfl rfl id
    next => cases h

/-- A CREDIT packet that is due goes first (R304). -/
theorem anyPacket_credit {s : State} {p : Nat} (h : (s.port p).creditPkt = true) :
    anyPacket s p = some (encodeCredit (limitSent s p 0) (limitSent s p 1) (limitSent s p 2),
      s.setPort p { s.port p with creditPkt := false, creditDue := false }) := by
  unfold anyPacket nextPacket
  dsimp only
  rw [if_pos h]

theorem creditLeft_congr {s u : State} {p : Nat} (h : u.port p = s.port p) (k : Nat) : creditLeft u p k = creditLeft s p k := by
  unfold creditLeft
  rw [h]

theorem isSome_if_none {α : Type} {c : Prop} [Decidable c] (x : α) : (if c then none else some x).isSome = !decide c := by
  by_cases h : c <;> simp [h]

/-- Whether a packet may start is for the port alone to say. -/
theorem isSome_nextPacket_congr {s u : State} {p : Nat} (h : u.port p = s.port p) :
    (nextPacket u p).isSome = (nextPacket s p).isSome := by
  unfold nextPacket
  simp only [h, creditLeft_congr h]
  split
  · rw [Option.isSome_some, Option.isSome_some]
  · split
    case h_5 => rfl
    all_goals rw [isSome_if_none, isSome_if_none]

/-- The queues of `p` without the classes that wait for credit. -/
def pastWaiting (s : State) (p : Nat) : Port :=
  let x := s.port p
  { x with
    cmpBuf := x.cmpBuf.drop (if creditLeft s p 0 = 0 then x.cmpBuf else []).length
    rplQ := x.rplQ.drop (if creditLeft s p 1 = 0 then x.rplQ else []).length
    evtQ := x.evtQ.drop (if creditLeft s p 1 = 0 then x.evtQ else []).length }

theorem isSome_anyPacket (s : State) (p : Nat) : (anyPacket s p).isSome =
    ((nextPacket s p).isSome || (nextPacket (s.setPort p (pastWaiting s p)) p).isSome) := by
  unfold anyPacket
  split
  next h => rw [h, Option.isSome_some, Bool.true_or]
  next h =>
    rw [h, Option.isSome_none, Bool.false_or]
    unfold pastWaiting
    dsimp only
    split
    next h' => rw [h', Option.isSome_some, Option.isSome_some]
    next h' => rw [h']

theorem isSome_anyPacket_congr {s u : State} {p : Nat} (h : u.port p = s.port p) :
    (anyPacket u p).isSome = (anyPacket s p).isSome := by
  have hpast : pastWaiting u p = pastWaiting s p := by
    unfold pastWaiting
    simp only [h, creditLeft_congr h]
  rw [isSome_anyPacket, isSome_anyPacket, isSome_nextPacket_congr h, hpast,
    isSome_nextPacket_congr (s := s.setPort p _) (u := u.setPort p _) (by rw [port_setPort_same, port_setPort_same])]

theorem dataReady_congr {s u : State} {p : Nat} (h : u.port p = s.port p) : dataReady u p = dataReady s p := by
  unfold dataReady
  rw [h, isSome_anyPacket_congr h]

/-! ## A data flit is filled (R296) -/

theorem fillFlit_spec (p n i : Nat) (s : State) : (fillFlit p n i s).1.length = n ∧ QueuesTaken p s (fillFlit p n i s).2.2 := by
  induction n generalizing i s with
  | zero => exact ⟨rfl, QueuesTaken.refl p s⟩
  | succ n ih =>
    have hpart (u : State) (l : List (BitVec 16)) : QueuesTaken p u (u.modPort p (fun x => { x with txPart := l })) :=
      QueuesTaken.setPort rfl rfl id
    unfold fillFlit
    split
    next c r _ =>
      obtain ⟨hl, hk⟩ := ih (i + 1) (s.modPort p (fun x => { x with txPart := r }))
      exact ⟨congrArg Nat.succ hl, (hpart s r).trans hk⟩
    next =>
      split
      next k t ht =>
        obtain ⟨hl, hk⟩ := ih (i + 1) (t.modPort p (fun x => { x with txPart := k.drop 1 }))
        exact ⟨congrArg Nat.succ hl, ((queuesTaken_anyPacket ht).trans (hpart t _)).trans hk⟩
      next =>
        obtain ⟨hl, hk⟩ := ih (i + 1) s
        exact ⟨congrArg Nat.succ hl, hk⟩

/-- A packet under way goes on in the first chunks. -/
theorem fillFlit_part (p : Nat) {c : List (BitVec 16)} {n : Nat} (hn : c.length ≤ n) (i : Nat) (s : State)
    (hc : (s.port p).txPart = c) : (fillFlit p n i s).1.take c.length = c := by
  induction c generalizing n i s with
  | nil => rfl
  | cons b r ih =>
    cases n with
    | zero => exact absurd hn (Nat.not_succ_le_zero _)
    | succ n =>
      unfold fillFlit
      rw [hc]
      dsimp only
      rw [List.length_cons, List.take_succ_cons, ih (Nat.le_of_succ_le_succ hn) (i + 1) _ (by rw [port_modPort_same])]

theorem fillFlit_start {s t : State} {p n i : Nat} {k : List (BitVec 16)} (hp : (s.port p).txPart = [])
    (ht : anyPacket s p = some (k, t)) : fillFlit p (n + 1) i s =
      let r := fillFlit p n (i + 1) (t.modPort p (fun x => { x with txPart := k.drop 1 }))
      (k.headD 0 :: r.1, i, r.2.2) := by
  conv_lhs => unfold fillFlit
  rw [hp, ht]

/-- Where no packet is under way and a CREDIT packet is due, it starts at the first chunk. -/
theorem fillFlit_credit {s : State} {p n : Nat} (hp : (s.port p).txPart = []) (hc : (s.port p).creditPkt = true) (hn : 3 ≤ n) :
    (fillFlit p (n + 1) 0 s).1.take 4 = encodeCredit (limitSent s p 0) (limitSent s p 1) (limitSent s p 2) ∧
    (fillFlit p (n + 1) 0 s).2.1 = 0 ∧ ((fillFlit p (n + 1) 0 s).2.2.port p).creditPkt = false := by
  rw [fillFlit_start hp (anyPacket_credit hc)]
  have hlen : (encodeCredit (limitSent s p 0) (limitSent s p 1) (limitSent s p 2)).length = 4 := length_toChunks 4 _
  generalize hk : encodeCredit (limitSent s p 0) (limitSent s p 1) (limitSent s p 2) = k at hlen ⊢
  obtain _ | ⟨b, r⟩ := k
  · exact absurd hlen (by decide)
  have hr : r.length = 3 := Nat.succ.inj hlen
  dsimp only
  refine ⟨?_, rfl, (fillFlit_spec p n 1 _).2.creditPkt ?_⟩
  · have hpart (u : State) (hu : (u.port p).txPart = r) : (fillFlit p n 1 u).1.take 3 = r :=
      hr ▸ fillFlit_part p (hr.symm ▸ hn) 1 u hu
    rw [List.headD_cons, List.take_succ_cons, hpart _ (by rw [port_modPort_same, List.drop_succ_cons, List.drop_zero])]
  · rw [port_modPort_same, port_setPort_same]

end Sys2Proof.Machine
end

section
/-! PROOF. What a flit slot sends on a port that carries flits (R284 to R295). -/

namespace Sys2Proof.Machine

open Sys2Proof

/-! ## What a flit slot sends (R284 to R290) -/

/-- Flit `f` as the lanes of `p` carry it: scrambled, with the bits that an injection inverts. -/
def onLanes (s : State) (p : Nat) (f : Flit) : Flit :=
  BitVec.ofNat 512 (f.toNat ^^^ (flitMask (txCount s p) (s.port p).scrTx).1 ^^^ injMask s p)

/-- The control flit of type `t` that `p` has to send. -/
def ctlFlit (s : State) (p t : Nat) : Flit :=
  mkFlit (1 + t * 2 + (s.port p).rxLast.toNat * 64)
    (limitSent s p 0 + limitSent s p 1 * 2 ^ 12 + limitSent s p 2 * 2 ^ 24 + (urgOf (reqWait s p)).toNat * 2 ^ 36) 0

/-- The data flit `f` of number `n` with the ACK of now. -/
def dataFlit (s : State) (p : Nat) (f : Flit) (n : BitVec 10) : Flit :=
  mkFlit (setBits (bits f.toNat 15 0) 15 6 (s.port p).rxLast.toNat) (bits f.toNat 479 16) n.toNat

/-- `v` differs from `s` in port `p` only, and sends what `s` sends. -/
structure SendsAs (p : Nat) (s v : State) : Prop extends InPort p s v where
  phy : (v.port p).phy = (s.port p).phy
  scrTx : (v.port p).scrTx = (s.port p).scrTx
  rxLast : (v.port p).rxLast = (s.port p).rxLast
  granted : (v.port p).granted = (s.port p).granted
  rxPkts : (v.port p).rxPkts = (s.port p).rxPkts

namespace SendsAs

variable {p : Nat} {s v : State}

theorem of_port_eq (h : InPort p s v) (hp : v.port p = s.port p) : SendsAs p s v :=
  ⟨h, by rw [hp], by rw [hp], by rw [hp], by rw [hp], by rw [hp]⟩

theorem injMask_eq (h : SendsAs p s v) : injMask v p = injMask s p := by
  unfold injMask txLanes txCount
  rw [h.phy, fld_congr (h.rd_eq _)]

theorem onLanes_eq (h : SendsAs p s v) (f : Flit) : onLanes v p f = onLanes s p f := by
  unfold onLanes txCount
  rw [h.scrTx, h.injMask_eq, fld_congr (h.rd_eq _)]

theorem limitSent_eq (h : SendsAs p s v) (k : Nat) : limitSent v p k = limitSent s p k := by
  unfold limitSent mirrorRole
  rw [h.granted, fld_congr (h.rd_eq _)]

theorem reqWait_eq (h : SendsAs p s v) : reqWait v p = reqWait s p := by
  have hw : v.waiting = s.waiting := by
    obtain ⟨x, c, rfl⟩ := h.eq
    rfl
  unfold reqWait
  rw [h.rxPkts, hw]

theorem ctlFlit_eq (h : SendsAs p s v) (t : Nat) : ctlFlit v p t = ctlFlit s p t := by
  unfold ctlFlit
  rw [h.rxLast, h.limitSent_eq, h.limitSent_eq, h.limitSent_eq, h.reqWait_eq]

theorem dataFlit_eq (h : SendsAs p s v) (f : Flit) (n : BitVec 10) : dataFlit v p f n = dataFlit s p f n := by
  unfold dataFlit
  rw [h.rxLast]

end SendsAs

/-- What a control flit of type `t` leaves in port `p`. -/
structure CtlSent (p t : Nat) (s u : State) : Prop extends InPort p s u where
  lastTx : (u.port p).lastTx = onLanes s p (ctlFlit s p t)
  urgTx : (u.port p).urgTx = urgOf (reqWait s p)
  creditDue : (u.port p).creditDue = false
  lp : (u.port p).lp = if t = 3 ∧ (s.port p).lp = .acking then .entering else (s.port p).lp
  nakDue : (u.port p).nakDue = (s.port p).nakDue
  ctlDue : (u.port p).ctlDue = (s.port p).ctlDue
  resend : (u.port p).resend = (s.port p).resend
  replay : (u.port p).replay = (s.port p).replay
  txNext : (u.port p).txNext = (s.port p).txNext

theorem InPort.putFlit {p : Nat} {s u : State} (h : InPort p s u) (f : Flit) : InPort p s (putFlit u p f) := by
  unfold Machine.putFlit
  exact h.modPort _

theorem port_putFlit (s : State) (p : Nat) (f : Flit) : ∃ r y, (putFlit s p f).port p =
    { s.port p with scrTx := r, lastTx := onLanes s p f, phy := y } := ⟨_, _, port_modPort_same _ _ _⟩

theorem ctlSent_sendCtl (s : State) (p t : Nat) : CtlSent p t s (sendCtl s p t) := by
  obtain ⟨r, y, hput⟩ := port_putFlit s p (ctlFlit s p t)
  have hport : (sendCtl s p t).port p = { s.port p with
      scrTx := r, lastTx := onLanes s p (ctlFlit s p t), phy := y, urgTx := urgOf (reqWait s p), creditDue := false,
      lp := if t = 3 ∧ (s.port p).lp = .acking then .entering else (s.port p).lp } := by
    unfold sendCtl
    rw [port_count, port_modPort_same]
    change (let x := (putFlit s p (ctlFlit s p t)).port p; ({ x with
      urgTx := urgOf (reqWait s p), creditDue := false,
      lp := if t = 3 ∧ x.lp = .acking then .entering else x.lp } : Port)) = _
    rw [hput]
  refine ⟨((InPort.refl p s).putFlit _).modPort _ |>.count _ _, ?_, ?_, ?_, ?_, ?_, ?_, ?_, ?_, ?_⟩ <;> rw [hport]

/-- The port with NAK or control flit no longer due sends the control flit of type `t`. -/
theorem CtlSent.of_sendsAs {p t : Nat} {s v u : State} (h : CtlSent p t v u) (hv : SendsAs p s v) :
    InPort p s u ∧ (u.port p).lastTx = onLanes s p (ctlFlit s p t) ∧ (u.port p).urgTx = urgOf (reqWait s p) :=
  ⟨hv.toInPort.trans h.toInPort, by rw [h.lastTx, hv.ctlFlit_eq, hv.onLanes_eq], by rw [h.urgTx, hv.reqWait_eq]⟩

/-! ## A held flit and a new one (R289, R292, R296) -/

/-- The held flit `h` is sent again. -/
theorem port_sendAgain {s : State} {p : Nat} {n : BitVec 10} {r : List (BitVec 10)} {h : Held}
    (hr : (s.port p).resend = n :: r) (hf : (s.port p).replay.find? (fun g => g.seq = n) = some h) :
    InPort p s (sendAgain s p n) ∧ ∃ z y, (sendAgain s p n).port p = { s.port p with
      resend := r, scrTx := z, phy := y, lastTx := onLanes s p (dataFlit s p h.flit n),
      replay := (s.port p).replay.map (fun g => if g.seq = n then { g with sends := g.sends + 1 } else g) } := by
  let v := s.modPort p (fun x => { x with resend := x.resend.drop 1 })
  have hvp : v.port p = { s.port p with resend := r } := by
    rw [port_modPort_same, hr, List.drop_succ_cons, List.drop_zero]
  have hv : SendsAs p s v := ⟨(InPort.refl p s).modPort _, by rw [hvp], by rw [hvp], by rw [hvp], by rw [hvp], by rw [hvp]⟩
  have hsend : sendAgain s p n = count ((putFlit v p (dataFlit v p h.flit n)).modPort p (fun x => { x with
      replay := x.replay.map (fun g => if g.seq = n then { g with sends := g.sends + 1 } else g) })) (cPort p 7) 1 := by
    unfold sendAgain
    dsimp only
    rw [port_modPort_same]
    dsimp only
    rw [hf]
    rfl
  obtain ⟨z, y, hput⟩ := port_putFlit v p (dataFlit v p h.flit n)
  rw [hsend]
  refine ⟨((hv.toInPort.putFlit _).modPort _).count _ _, z, y, ?_⟩
  rw [port_count, port_modPort_same, hput, hvp, hv.dataFlit_eq, hv.onLanes_eq]

/-- The data flit that `p` fills takes the next number and is held. -/
theorem sendNew_spec (s : State) (p : Nat) : InPort p s (sendNew s p) ∧
    ((sendNew s p).port p).txNext = (s.port p).txNext + 1 ∧
    ((sendNew s p).port p).creditPkt = ((fillFlit p 29 0 s).2.2.port p).creditPkt ∧
    ((sendNew s p).port p).replay = (s.port p).replay ++ [{
      seq := (s.port p).txNext
      flit := mkFlit ((fillFlit p 29 0 s).2.1 * 2) (chunkNat (fillFlit p 29 0 s).1) (s.port p).txNext.toNat
      sends := 1 }] := by
  obtain ⟨-, hq⟩ := fillFlit_spec p 29 0 s
  let v := (fillFlit p 29 0 s).2.2
  let f := mkFlit ((fillFlit p 29 0 s).2.1 * 2) (chunkNat (fillFlit p 29 0 s).1) (v.port p).txNext.toNat
  have hsend : sendNew s p = count ((putFlit v p (dataFlit v p f (v.port p).txNext)).modPort p (fun x => { x with
      txNext := (v.port p).txNext + 1
      replay := x.replay ++ [{ seq := (v.port p).txNext, flit := f, sends := 1 }] })) (cPort p 0) 1 := rfl
  obtain ⟨z, y, hput⟩ := port_putFlit v p (dataFlit v p f (v.port p).txNext)
  have hport := congrArg (fun u => State.port u p) hsend
  rw [port_count, port_modPort_same, hput] at hport
  have hnum : (v.port p).txNext = (s.port p).txNext := hq.txNext
  refine ⟨hsend ▸ ((hq.toInPort.putFlit _).modPort _).count _ _, ?_, ?_, ?_⟩ <;> rw [hport]
  · rw [hnum]
  · rw [hq.replay, ← hnum]

/-- The TYPE of a data flit is 0. -/
theorem type_mkFlit_start (start pay v : Nat) : bit (mkFlit (start * 2) pay v).toNat 0 = false := by
  rw [bit_of_header (header_mkFlit (start * 2) pay v) (by decide), bit, Nat.testBit_zero]
  simp

theorem start_mkFlit_zero (pay v : Nat) : bits (mkFlit (0 * 2) pay v).toNat 5 1 = 0 := by
  have hh := header_mkFlit (0 * 2) pay v
  rw [bits]
  omega

/-- The first chunks of a data flit. -/
theorem toChunks_mkFlit (h v : Nat) {l : List (BitVec 16)} (hl : l.length = 29) (n : Nat) (hn : n ≤ 29) :
    toChunks n (bits (mkFlit h (chunkNat l) v).toNat 479 16) = l.take n := by
  have hlt : chunkNat l < 2 ^ 464 := by
    have hc := chunkNat_lt l
    rwa [hl, show 65536 = 2 ^ 16 from rfl, ← Nat.pow_mul, show 16 * 29 = 464 from rfl] at hc
  rw [payload_mkFlit h v hlt, toChunks_chunkNat n l (by omega)]

/-! ## The order in a flit slot (R289, R294) -/

theorem exec_flitSlot {s : State} {p : PortN} (hl : strikeLive s = true) (hc : carries s p = true) :
    exec (.flitSlot p) s = .next (flitOut s p) := by
  change Host.Outcome.next (when (strikeLive s) s (if carries s p then flitOut s p else _)) = _
  rw [hl, hc]
  rfl

/-- The slot after it has counted a wait for credit. -/
def slotCounted (s : State) (p : Nat) : State := count s (cPort p 18) (b2n (stalled s p))

theorem inPort_slotCounted (s : State) (p : Nat) : InPort p s (slotCounted s p) := (InPort.refl p s).count _ _

theorem port_slotCounted (s : State) (p : Nat) : (slotCounted s p).port p = s.port p := port_count ..

section

variable {s : State} {p : Nat}

theorem flitOut_nak (h : (s.port p).nakDue = true) : flitOut s p =
    count (sendCtl ((slotCounted s p).modPort p (fun x => { x with nakDue := false })) p 1) (cPort p 5) 1 := by
  unfold flitOut
  exact if_pos h

theorem flitOut_ctl (h : (s.port p).nakDue = false) {c : BitVec 5} (hc : (s.port p).ctlDue = some c) : flitOut s p =
    sendCtl ((slotCounted s p).modPort p (fun x => { x with ctlDue := none })) p c.toNat := by
  unfold flitOut
  dsimp only
  rw [h, hc]
  rfl

theorem flitOut_resend (h : (s.port p).nakDue = false) (hc : (s.port p).ctlDue = none) {n : BitVec 10} {r : List (BitVec 10)}
    (hr : (s.port p).resend = n :: r) : flitOut s p = sendAgain (slotCounted s p) p n := by
  unfold flitOut
  dsimp only
  rw [h, hc, hr]
  rfl

/-- Whether the slot sends a new data flit rather than FC. -/
def newDue (s : State) (p : Nat) : Bool :=
  dataReady s p && decide ((s.port p).replay.length < 512) && (s.port p).lp = .none

theorem flitOut_rest (h : (s.port p).nakDue = false) (hc : (s.port p).ctlDue = none) (hr : (s.port p).resend = []) :
    flitOut s p = if newDue s p then sendNew (slotCounted s p) p else sendCtl (slotCounted s p) p 0 := by
  unfold flitOut newDue
  dsimp only
  rw [h, hc, hr, dataReady_congr (s := s) (port_count ..)]
  rfl

/-- A slot in which something ceases to be due sends what it would have sent. -/
theorem sendsAs_modPort_slot {f : Port → Port} (hphy : (f (s.port p)).phy = (s.port p).phy)
    (hscr : (f (s.port p)).scrTx = (s.port p).scrTx) (hlast : (f (s.port p)).rxLast = (s.port p).rxLast)
    (hgr : (f (s.port p)).granted = (s.port p).granted) (hrx : (f (s.port p)).rxPkts = (s.port p).rxPkts) :
    SendsAs p s ((slotCounted s p).modPort p f) := by
  have hp : ((slotCounted s p).modPort p f).port p = f (s.port p) := by rw [port_modPort_same, port_slotCounted]
  exact ⟨(inPort_slotCounted s p).modPort f, hp ▸ hphy, hp ▸ hscr, hp ▸ hlast, hp ▸ hgr, hp ▸ hrx⟩

end

/-! ## The flits of a port that carries (R285, R289 to R295, R304) -/

section

variable {s : State} {p : PortN}

theorem flitSlot_nak (hl : strikeLive s = true) (hc : carries s p = true) (h : (s.port p).nakDue = true) :
    Completes (.flitSlot p) s (fun u => (u.port p).lastTx = onLanes s p (ctlFlit s p 1) ∧ (u.port p).nakDue = false ∧
      (u.port p).replay = (s.port p).replay ∧ (u.port p).resend = (s.port p).resend ∧
      (u.port p).txNext = (s.port p).txNext ∧ RegsBut [] s u ∧ PortsBut p s u ∧ SameMemory s u) := by
  let v := (slotCounted s p).modPort p (fun x => { x with nakDue := false })
  have hv : SendsAs p s v := sendsAs_modPort_slot rfl rfl rfl rfl rfl
  have hvp : v.port p = { s.port p with nakDue := false } := by rw [port_modPort_same, port_slotCounted]
  have hsent := ctlSent_sendCtl v p 1
  obtain ⟨hin, hlast, -⟩ := hsent.of_sendsAs hv
  refine ⟨_, (exec_flitSlot hl hc).trans (congrArg _ (flitOut_nak h)), ?_⟩
  beta_reduce
  rw [port_count]
  exact ⟨hlast, by rw [hsent.nakDue, hvp], by rw [hsent.replay, hvp], by rw [hsent.resend, hvp], by rw [hsent.txNext, hvp],
    (hin.count _ _).frame⟩

theorem flitSlot_ctl (hl : strikeLive s = true) (hc : carries s p = true) (h : (s.port p).nakDue = false) {c : BitVec 5}
    (hd : (s.port p).ctlDue = some c) :
    Completes (.flitSlot p) s (fun u => (u.port p).lastTx = onLanes s p (ctlFlit s p c.toNat) ∧
      (u.port p).ctlDue = none ∧ (u.port p).urgTx = urgOf (reqWait s p) ∧ (u.port p).creditDue = false ∧
      (c.toNat = 3 → (s.port p).lp = .acking → (u.port p).lp = .entering) ∧ (u.port p).txNext = (s.port p).txNext ∧
      (u.port p).replay = (s.port p).replay ∧ RegsBut [] s u ∧ PortsBut p s u ∧ SameMemory s u) := by
  let v := (slotCounted s p).modPort p (fun x => { x with ctlDue := none })
  have hv : SendsAs p s v := sendsAs_modPort_slot rfl rfl rfl rfl rfl
  have hvp : v.port p = { s.port p with ctlDue := none } := by rw [port_modPort_same, port_slotCounted]
  have hsent := ctlSent_sendCtl v p c.toNat
  obtain ⟨hin, hlast, hurg⟩ := hsent.of_sendsAs hv
  refine ⟨_, (exec_flitSlot hl hc).trans (congrArg _ (flitOut_ctl h hd)), ?_⟩
  exact ⟨hlast, by rw [hsent.ctlDue, hvp], hurg, hsent.creditDue, fun h3 hack => by rw [hsent.lp, hvp, if_pos ⟨h3, hack⟩],
    by rw [hsent.txNext, hvp], by rw [hsent.replay, hvp], hin.frame⟩

theorem flitSlot_resend (hl : strikeLive s = true) (hc : carries s p = true) (h : (s.port p).nakDue = false)
    (hd : (s.port p).ctlDue = none) {n : BitVec 10} {r : List (BitVec 10)} {g : Held} (hr : (s.port p).resend = n :: r)
    (hf : (s.port p).replay.find? (fun g => g.seq = n) = some g) :
    Completes (.flitSlot p) s (fun u => (u.port p).lastTx = onLanes s p (dataFlit s p g.flit n) ∧ (u.port p).resend = r ∧
      (u.port p).replay = (s.port p).replay.map (fun g => if g.seq = n then { g with sends := g.sends + 1 } else g) ∧
      (u.port p).txNext = (s.port p).txNext ∧ RegsBut [] s u ∧ PortsBut p s u ∧ SameMemory s u) := by
  have hv : SendsAs p s (slotCounted s p) := .of_port_eq (inPort_slotCounted s p) (port_slotCounted s p)
  rw [← port_slotCounted s p] at hr hf
  obtain ⟨hin, z, y, hport⟩ := port_sendAgain hr hf
  refine ⟨_, (exec_flitSlot hl hc).trans (congrArg _ (flitOut_resend h hd (port_slotCounted s p ▸ hr))), ?_⟩
  beta_reduce
  rw [hport, port_slotCounted, hv.dataFlit_eq, hv.onLanes_eq]
  exact ⟨rfl, rfl, rfl, rfl, (hv.toInPort.trans hin).frame⟩

theorem newDue_eq_true (hd : dataReady s p = true) (hn : (s.port p).replay.length < 512) (hlp : (s.port p).lp = .none) :
    newDue s p = true := by
  simp [newDue, hd, hn, hlp]

theorem newDue_eq_false (h : dataReady s p = false ∨ 512 ≤ (s.port p).replay.length ∨ (s.port p).lp ≠ .none) :
    newDue s p = false := by
  rcases h with hd | hn | hlp
  · simp [newDue, hd]
  · simp [newDue, Nat.not_lt.mpr hn]
  · simp [newDue, hlp]

theorem flitSlot_new (hl : strikeLive s = true) (hc : carries s p = true) (h : (s.port p).nakDue = false)
    (hd : (s.port p).ctlDue = none) (hr : (s.port p).resend = []) (hnew : newDue s p = true) :
    Completes (.flitSlot p) s (fun u => (u.port p).txNext = (s.port p).txNext + 1 ∧
      (RegsBut [] s u ∧ PortsBut p s u ∧ SameMemory s u) ∧
      ∃ f : Flit, (u.port p).replay = (s.port p).replay ++ [{ seq := (s.port p).txNext, flit := f, sends := 1 }] ∧
        bit f.toNat 0 = false ∧
        ((s.port p).txPart = [] → (s.port p).creditPkt = true → bits f.toNat 5 1 = 0 ∧ (u.port p).creditPkt = false ∧
          toChunks 4 (bits f.toNat 479 16) = encodeCredit (limitSent s p 0) (limitSent s p 1) (limitSent s p 2))) := by
  let v := slotCounted s p
  have hvp : v.port p = s.port p := port_slotCounted s p
  have hv : SendsAs p s v := .of_port_eq (inPort_slotCounted s p) hvp
  obtain ⟨hin, hnext, hcredit, hreplay⟩ := sendNew_spec v p
  rw [hvp] at hnext hreplay
  refine ⟨sendNew v p, (exec_flitSlot hl hc).trans (congrArg _ ?_), hnext, (hv.toInPort.trans hin).frame, _, hreplay,
    type_mkFlit_start .., fun hpart hpkt => ?_⟩
  · rw [flitOut_rest h hd hr, if_pos hnew]
  · obtain ⟨htake, hstart, hgone⟩ := fillFlit_credit (s := v) (p := p) (n := 28) (hvp ▸ hpart) (hvp ▸ hpkt) (by decide)
    have hlen := (fillFlit_spec p 29 0 v).1
    rw [hstart, hcredit, toChunks_mkFlit _ _ hlen 4 (by decide), htake, hv.limitSent_eq, hv.limitSent_eq, hv.limitSent_eq]
    exact ⟨start_mkFlit_zero .., hgone, rfl⟩

theorem flitSlot_fc (hl : strikeLive s = true) (hc : carries s p = true) (h : (s.port p).nakDue = false)
    (hd : (s.port p).ctlDue = none) (hr : (s.port p).resend = []) (hnew : newDue s p = false) :
    Completes (.flitSlot p) s (fun u => (u.port p).lastTx = onLanes s p (ctlFlit s p 0) ∧
      (u.port p).txNext = (s.port p).txNext ∧ (u.port p).replay = (s.port p).replay ∧ RegsBut [] s u ∧ PortsBut p s u ∧
      SameMemory s u) := by
  have hvp : (slotCounted s p).port p = s.port p := port_slotCounted s p
  have hsent := ctlSent_sendCtl (slotCounted s p) p 0
  obtain ⟨hin, hlast, -⟩ := hsent.of_sendsAs (.of_port_eq (inPort_slotCounted s p) hvp)
  refine ⟨_, (exec_flitSlot hl hc).trans (congrArg _ ?_), hlast, hsent.txNext.trans (congrArg _ hvp),
    hsent.replay.trans (congrArg _ hvp), hin.frame⟩
  rw [flitOut_rest h hd hr, hnew]
  rfl

end

end Sys2Proof.Machine
end

section
/-! PROOF. Patterns and key sets that a flit slot sends, and the timers of a port (R257 to R259, R281, R291 to R305). -/

namespace Sys2Proof.Machine

open Sys2Proof

/-! ## Sums of disjoint bits -/

/-- Numbers without a common bit. -/
def NoCommonBit (x y : Nat) : Prop := ∀ k, bit x k = true → bit y k = false

theorem add_eq_or_of_disjoint {x y : Nat} (h : NoCommonBit x y) : x + y = x ||| y := by
  let w := x + y
  have hx : x < 2 ^ w := Nat.lt_of_lt_of_le Nat.lt_two_pow_self (Nat.pow_le_pow_right (by decide) (Nat.le_add_right x y))
  have hy : y < 2 ^ w := Nat.lt_of_lt_of_le Nat.lt_two_pow_self (Nat.pow_le_pow_right (by decide) (Nat.le_add_left y x))
  have hand : BitVec.ofNat w x &&& BitVec.ofNat w y = 0#w := by
    refine BitVec.eq_of_toNat_eq (Nat.eq_of_testBit_eq fun k => ?_)
    have hk := h k
    unfold bit at hk
    simpa [Nat.mod_eq_of_lt hx, Nat.mod_eq_of_lt hy] using hk
  have hsum := BitVec.toNat_add_of_and_eq_zero hand
  rw [BitVec.add_eq_or_of_and_eq_zero _ _ hand, BitVec.toNat_or, BitVec.toNat_ofNat, BitVec.toNat_ofNat, Nat.mod_eq_of_lt hx,
    Nat.mod_eq_of_lt hy] at hsum
  exact hsum.symm

/-- A sum of numbers that have no bit in common, two by two, has the bits of them all. -/
theorem bit_foldUpTo_add (P : Nat → Prop) [DecidablePred P] (f : Nat → Nat) (n : Nat)
    (h : ∀ i j, i < j → j < n → NoCommonBit (f i) (f j)) (k : Nat) :
    bit (foldUpTo n (fun a j => if P j then a + f j else a) 0) k = true ↔ ∃ j, j < n ∧ P j ∧ bit (f j) k = true := by
  suffices hor : foldUpTo n (fun a j => if P j then a + f j else a) 0 =
      foldUpTo n (fun a j => if P j then a ||| f j else a) 0 by rw [hor, bit_foldUpTo_or]
  induction n with
  | zero => rfl
  | succ n ih =>
    have hn := ih fun i j hij hj => h i j hij (Nat.lt_succ_of_lt hj)
    rw [foldUpTo_succ, foldUpTo_succ, hn]
    refine ite_congr rfl (fun _ => add_eq_or_of_disjoint fun k hk => ?_) fun _ => rfl
    obtain ⟨i, hi, -, hb⟩ := (bit_foldUpTo_or P f k n).1 hk
    exact h i n hi (Nat.lt_succ_self n) k hb

theorem bit_two_pow (n k : Nat) : bit (2 ^ n) k = decide (n = k) := Nat.testBit_two_pow

/-- A sum of the powers of two at places that differ. -/
theorem bit_sumPow (c : Nat → Bool) (place : Nat → Nat) (n : Nat) (h : ∀ i j, i < j → j < n → place i ≠ place j) (k : Nat) :
    bit (foldUpTo n (fun a j => a + b2n (c j) * 2 ^ place j) 0) k = true ↔ ∃ j, j < n ∧ c j = true ∧ place j = k := by
  have hform : (fun a j => a + b2n (c j) * 2 ^ place j) = (fun a j => if c j = true then a + 2 ^ place j else a) := by
    funext a j
    cases c j <;> simp [b2n]
  rw [hform, bit_foldUpTo_add (fun j => c j = true) (fun j => 2 ^ place j)]
  · simp only [bit_two_pow, decide_eq_true_eq]
  · intro i j hij hj k hk
    rw [bit_two_pow, decide_eq_true_eq] at hk
    rw [bit_two_pow, decide_eq_false_iff_not]
    exact fun hjk => h i j hij hj (hk.trans hjk.symm)

/-! ## Patterns (R257 to R259, R273) -/

theorem bit_spread (l m k : Nat) : bit (spread l m) k = true ↔ ∃ u, u < 32 ∧ bit m u = true ∧ 16 * u + l = k :=
  bit_sumPow (bit m) (fun u => 16 * u + l) 32 (fun _ _ _ _ => by omega) k

theorem bit_spread_lane {l i t m : Nat} (hl : l < 16) (hi : i < 16) (ht : t < 32) :
    bit (spread l m) (16 * t + i) = (decide (l = i) && bit m t) := by
  rw [Bool.eq_iff_iff, bit_spread, Bool.and_eq_true, decide_eq_true_eq]
  constructor
  · rintro ⟨u, -, hb, hu⟩
    obtain rfl : u = t := by omega
    exact ⟨by omega, hb⟩
  · rintro ⟨rfl, hb⟩
    exact ⟨t, ht, hb, rfl⟩

/-- Each lane that a generator drives carries its bits. -/
theorem bit_patternBits {s : State} {p l t : Nat} (hl : l < 16) (ht : t < 32) : bit (patternBits s p) (16 * t + l) =
    (txLive s p l && bit (genRun (patternOf s p) (userPattern s p) 32 (tget zero (s.port p).phy.gens l)).1 t) := by
  unfold patternBits
  dsimp only
  rw [Bool.eq_iff_iff, bit_foldUpTo_add (fun l => txLive s p l = true)
    (fun l => spread l (genRun (patternOf s p) (userPattern s p) 32 (tget zero (s.port p).phy.gens l)).1)]
  · rw [Bool.and_eq_true]
    constructor
    · rintro ⟨j, hj, hlive, hb⟩
      rw [bit_spread_lane hj hl ht, Bool.and_eq_true, decide_eq_true_eq] at hb
      obtain ⟨rfl, hb⟩ := hb
      exact ⟨hlive, hb⟩
    · rintro ⟨hlive, hb⟩
      exact ⟨l, hl, hlive, by rw [bit_spread_lane hl hl ht, hb, decide_eq_true rfl, Bool.true_and]⟩
  · intro i j hij hj k hk
    obtain ⟨u, -, -, rfl⟩ := (bit_spread _ _ _).1 hk
    rw [Bool.eq_false_iff]
    intro hb
    obtain ⟨u', -, -, hu⟩ := (bit_spread _ _ _).1 hb
    omega

/-- The bits that an injection inverts in a flit time of a pattern. -/
def patternInj (s : State) (p : Nat) : Nat :=
  let x := (s.port p).phy
  if txLive s p x.injLane.toNat then spread x.injLane.toNat (2 ^ min x.injLeft 32 - 1) else 0

theorem bit_patternInj {s : State} {p l t : Nat} (hl : l < 16) (ht : t < 32)
    (h : l ≠ (s.port p).phy.injLane.toNat ∨ (s.port p).phy.injLeft ≤ t) : bit (patternInj s p) (16 * t + l) = false := by
  unfold patternInj
  dsimp only
  split
  · rw [bit_spread_lane (s.port p).phy.injLane.isLt hl ht]
    rcases h with hlane | hdone
    · rw [decide_eq_false (Ne.symm hlane), Bool.false_and]
    · have hb : bit (2 ^ min (s.port p).phy.injLeft 32 - 1) t = false := by
        rw [bit, Nat.testBit_two_pow_sub_one, decide_eq_false]
        omega
      rw [hb, Bool.and_false]
  · exact Nat.zero_testBit _

theorem bit_ofNat_xor {w f g k : Nat} (hk : k < w) (hg : bit g k = false) :
    bit (BitVec.ofNat w (f ^^^ g)).toNat k = bit f k := by
  unfold bit at *
  rw [BitVec.toNat_ofNat, Nat.testBit_mod_two_pow, decide_eq_true hk, Bool.true_and, Nat.testBit_xor, hg, Bool.xor_false]

theorem patternOut_spec (s : State) (p : Nat) : InPort p s (patternOut s p) ∧
    ((patternOut s p).port p).lastTx = BitVec.ofNat 512 (patternBits s p ^^^ patternInj s p) ∧
    ((patternOut s p).port p).phy.injLeft = (s.port p).phy.injLeft - 32 := by
  have hout : patternOut s p = (moveGens s p).modPort p (fun y => { y with
      lastTx := BitVec.ofNat 512 (patternBits s p ^^^ patternInj s p)
      phy := { y.phy with injLeft := y.phy.injLeft - 32 } }) := rfl
  have hport : (moveGens s p).port p = { s.port p with phy := { (s.port p).phy with
      gens := ((moveGens s p).port p).phy.gens } } := by
    unfold moveGens
    dsimp only
    rw [port_setPhy_same]
  have hin : InPort p s (moveGens s p) := by
    unfold moveGens setPhy
    exact (InPort.refl p s).modPort _
  rw [hout, port_modPort_same, hport]
  exact ⟨hin.modPort _, rfl, rfl⟩

/-! ## Slots of a port that does not carry (R257, R281) -/

section

variable {s : State} {p : PortN}

theorem exec_flitSlot_not_carries (hl : strikeLive s = true) (hc : carries s p = false) : exec (.flitSlot p) s =
    .next (if inKeys s p then keysOut s p else if patternRuns s p then patternOut s p else s) := by
  change Host.Outcome.next (when (strikeLive s) s (if carries s p then flitOut s p else _)) = _
  rw [hl, hc]
  rfl

theorem flitSlot_keys (hl : strikeLive s = true) (hc : carries s p = false) (hk : inKeys s p = true) :
    Completes (.flitSlot p) s (fun u => (u.port p).lastKs = injectKeys s p (keySetsOut s p) ∧
      (u.port p).ksSent = (s.port p).ksSent + b2n (s.port p).ksHeard ∧ (u.port p).link = (s.port p).link ∧ RegsBut [] s u ∧
      PortsBut p s u ∧ SameMemory s u) := by
  refine ⟨keysOut s p, by rw [exec_flitSlot_not_carries hl hc, if_pos hk], ?_⟩
  unfold keysOut
  beta_reduce
  rw [port_modPort_same]
  exact ⟨rfl, rfl, rfl, ((InPort.refl _ s).modPort _).frame⟩

theorem flitSlot_pattern (hl : strikeLive s = true) (hc : carries s p = false) (hk : inKeys s p = false)
    (hr : patternRuns s p = true) : Completes (.flitSlot p) s (fun u =>
      (∀ l t, l < 16 → t < 32 → (l ≠ (s.port p).phy.injLane.toNat ∨ (s.port p).phy.injLeft ≤ t) →
        bit (u.port p).lastTx.toNat (16 * t + l) = (txLive s p l &&
          bit (genRun (patternOf s p) (userPattern s p) 32 (tget zero (s.port p).phy.gens l)).1 t)) ∧
      (u.port p).phy.injLeft = (s.port p).phy.injLeft - 32 ∧ RegsBut [] s u ∧ PortsBut p s u ∧ SameMemory s u) := by
  obtain ⟨hin, hlast, hleft⟩ := patternOut_spec s p
  refine ⟨patternOut s p, by rw [exec_flitSlot_not_carries hl hc, hk, hr]; rfl, fun l t hl ht hlane => ?_, hleft, hin.frame⟩
  rw [hlast, bit_ofNat_xor (by omega) (bit_patternInj hl ht hlane), bit_patternBits hl ht]

theorem flitSlot_idle (hl : strikeLive s = true) (hc : carries s p = false) (hk : inKeys s p = false)
    (hr : patternRuns s p = false) : exec (.flitSlot p) s = .next s := by
  rw [exec_flitSlot_not_carries hl hc, hk, hr]
  rfl

end

/-! ## Timers of a port that carries (R291, R292, R295, R298, R304, R305) -/

section

variable {s : State} {p : PortN}

theorem takesFlits_eq_true (hl : strikeLive s = true) (hc : carries s p = true) : takesFlits s p = true := by
  rw [takesFlits, hl, hc, Bool.true_and]

theorem nakTimeout_discarding (hf : takesFlits s p = true) (hd : (s.port p).discarding = true) :
    exec (.nakTimeout p) s = .next (s.modPort p (fun y => { y with nakDue := true })) := by
  change Host.Outcome.next (when (takesFlits s p && (s.port p).discarding) s _) = _
  rw [hf, hd]
  rfl

theorem nakTimeout_in_order (hf : takesFlits s p = true) (hd : (s.port p).discarding = false) :
    exec (.nakTimeout p) s = .next s := by
  change Host.Outcome.next (when (takesFlits s p && (s.port p).discarding) s _) = _
  rw [hf, hd]
  rfl

theorem exec_ackTimeout (hf : takesFlits s p = true) (hr : (s.port p).replay ≠ []) :
    exec (.ackTimeout p) s = .next (replayHeld s p) := by
  change Host.Outcome.next (when (takesFlits s p && !(s.port p).replay.isEmpty) s _) = _
  rw [hf, List.isEmpty_eq_false_iff.2 hr]
  rfl

theorem ackTimeout_resends (hf : takesFlits s p = true) (hr : (s.port p).replay ≠ [])
    (h4 : ∀ h ∈ (s.port p).replay, h.sends < 4) :
    exec (.ackTimeout p) s = .next (s.modPort p (fun y => { y with resend := y.replay.map (·.seq) })) := by
  have hany : (s.port p).replay.any (fun h => decide (4 ≤ h.sends)) = false := by
    rw [List.any_eq_false]
    intro h hh
    rw [decide_eq_true_eq, Nat.not_le]
    exact h4 h hh
  rw [exec_ackTimeout hf hr, replayHeld, hany]
  rfl

theorem lpIdleTimeout_asks (hf : takesFlits s p = true) (hq : linkQuiet s p = true) (hlp : (s.port p).lp = .none)
    (hidle : fld s (fpReg p 0x8004) 31 24 ≠ 0 ∨ flag s (senReg 0x28) p = true) :
    exec (.lpIdleTimeout p) s = .next (s.modPort p (fun y => { y with ctlDue := some 2, lp := .asked })) := by
  have hdue : (fld s (fpReg p 0x8004) 31 24 != 0 || flag s (senReg 0x28) p) = true := by simpa using hidle
  change Host.Outcome.next (when (takesFlits s p && linkQuiet s p && decide ((s.port p).lp = .none) &&
    (fld s (fpReg p 0x8004) 31 24 != 0 || flag s (senReg 0x28) p)) s _) = _
  rw [hf, hq, hdue, decide_eq_true hlp]
  rfl

theorem lpReqNoAnswer_stops (hf : takesFlits s p = true) (hlp : (s.port p).lp = .asked) :
    exec (.lpReqNoAnswer p) s = .next (s.modPort p (fun y => { y with lp := .none })) := by
  change Host.Outcome.next (when (takesFlits s p && decide ((s.port p).lp = .asked)) s _) = _
  rw [hf, decide_eq_true hlp]
  rfl

theorem creditPacketInsert_due (hf : takesFlits s p = true) (hd : (s.port p).creditDue = true) :
    exec (.creditPacketInsert p) s = .next (s.modPort p (fun y => { y with creditPkt := true })) := by
  change Host.Outcome.next (when (takesFlits s p && (s.port p).creditDue) s _) = _
  rw [hf, hd]
  rfl

theorem urgencyUpdate_due (hf : takesFlits s p = true) : Completes (.urgencyUpdate p) s (fun u =>
    (u.port p).urgTx = urgOf (reqWait s p) ∧ (u.port p).creditDue = true ∧ (u.port p).ctlDue.isSome = true ∧ RegsBut [] s u ∧
    PortsBut p s u ∧ SameMemory s u) := by
  refine completes_when rfl hf ?_
  rw [port_modPort_same]
  exact ⟨rfl, rfl, rfl, ((InPort.refl _ s).modPort _).frame⟩

end

end Sys2Proof.Machine
end

section
/-! PROOF. The registers of a port, and what an operation on its link keeps (R247, R265). -/

namespace Sys2Proof.Machine

open Sys2Proof

/-! ## Registers of a port -/

theorem fpReg_ne (p : Nat) {a b : Nat} (h : a ≠ b) : fpReg p a ≠ fpReg p b := by
  unfold fpReg
  omega

/-- Below its last 512 bytes the window of a port holds no fault set. -/
theorem fltAt_port (q : Part) (p : PortN) {o : Nat} (ho : o < 0xFE00) : fltAt q (fpReg p o) = none := by
  have hp := p.isLt
  unfold fltAt fpReg
  dsimp only
  rw [if_neg (by omega), if_neg (by omega), if_pos (by omega), dif_pos (by omega), if_neg (by omega)]

/-- Offsets of the lane status registers. -/
def laneOffs : List Nat := (List.range 16).map (fun l => 0x100 + 4 * l)

theorem mem_laneOffs {l : Nat} (h : l < 16) : 0x100 + 4 * l ∈ laneOffs :=
  List.mem_map.2 ⟨l, List.mem_range.2 h, rfl⟩

/-- What an operation on the link of port `p` keeps: all registers, ports and the memory, but for that port and its registers at
`offs`. -/
structure LinkFrame (p : Nat) (offs : List Nat) (s u : State) : Prop where
  regs : RegsBut (offs.map (fpReg p)) s u
  ports : PortsBut p s u
  memory : SameMemory s u

namespace LinkFrame

variable {p : Nat} {offs : List Nat} {s u v : State}

theorem refl (p : Nat) (offs : List Nat) (s : State) : LinkFrame p offs s s :=
  ⟨fun _ _ => rfl, fun _ _ => rfl, fun _ => ⟨rfl, rfl⟩⟩

theorem trans {a b : List Nat} (h : LinkFrame p a s u) (h' : LinkFrame p b u v) (ha : a ⊆ offs) (hb : b ⊆ offs) :
    LinkFrame p offs s v := by
  refine ⟨fun o ho => (h'.regs o fun hm => ho ?_).trans (h.regs o fun hm => ho ?_),
    fun k hk => (h'.ports k hk).trans (h.ports k hk), sameMemory_trans h.memory h'.memory⟩
  · exact List.map_subset _ hb hm
  · exact List.map_subset _ ha hm

theorem inPort (h : LinkFrame p offs s u) (h' : InPort p u v) : LinkFrame p offs s v := by
  obtain ⟨hr, hp, hm⟩ := h'.frame
  have hf : LinkFrame p [] u v := ⟨hr, hp, hm⟩
  exact h.trans hf (List.Subset.refl _) (List.nil_subset _)

theorem modPort (h : LinkFrame p offs s u) (f : Port → Port) : LinkFrame p offs s (u.modPort p f) :=
  h.inPort ((InPort.refl p u).modPort f)

theorem setPhy (h : LinkFrame p offs s u) (f : PhyS → PhyS) : LinkFrame p offs s (setPhy u p f) := h.modPort _

theorem startKeys (h : LinkFrame p offs s u) : LinkFrame p offs s (startKeys u p) := h.modPort _

theorem takeMinWidth (h : LinkFrame p offs s u) : LinkFrame p offs s (takeMinWidth u p) := h.setPhy _

theorem count (h : LinkFrame p offs s u) (slot n : Nat) : LinkFrame p offs s (count u slot n) :=
  h.inPort ((InPort.refl p u).count slot n)

theorem fresh (h : LinkFrame p offs s u) : LinkFrame p offs s (fresh u).2 := ⟨h.regs, h.ports, h.memory⟩

theorem wr (h : LinkFrame p offs s u) {k : Nat} (hk : k ∈ offs) (v : Reg32) : LinkFrame p offs s (wr u (fpReg p k) v) := by
  refine ⟨fun o ho => (rd_wr_other _ _ fun e => ho ?_).trans (h.regs o ho), h.ports, h.memory⟩
  exact e ▸ List.mem_map_of_mem hk

theorem setF (h : LinkFrame p offs s u) {k : Nat} (hk : k ∈ offs) (hi lo x : Nat) :
    LinkFrame p offs s (setF u (fpReg p k) hi lo x) := h.wr hk _

theorem ite {c : Prop} [Decidable c] (hu : LinkFrame p offs s u) (hv : LinkFrame p offs s v) :
    LinkFrame p offs s (if c then u else v) := by
  split
  · exact hu
  · exact hv

theorem foldUpTo {n : Nat} {f : State → Nat → State} (h : LinkFrame p offs s u)
    (hf : ∀ i w, i < n → LinkFrame p offs s w → LinkFrame p offs s (f w i)) : LinkFrame p offs s (foldUpTo n f u) :=
  foldUpTo_rule (P := fun _ w => LinkFrame p offs s w) h hf

theorem rd_eq (h : LinkFrame p offs s u) {k : Nat} (hk : k ∉ offs) : rd u (fpReg p k) = rd s (fpReg p k) := by
  refine h.regs _ fun hm => hk ?_
  obtain ⟨j, hj, he⟩ := List.mem_map.1 hm
  have hjk : j = k := by
    unfold fpReg at he
    omega
  exact hjk ▸ hj

theorem flag_eq (h : LinkFrame p offs s u) {k : Nat} (hk : k ∉ offs) (i : Nat) :
    flag u (fpReg p k) i = flag s (fpReg p k) i := by
  rw [flag, h.rd_eq hk, flag]

theorem fld_eq (h : LinkFrame p offs s u) {k : Nat} (hk : k ∉ offs) (hi lo : Nat) :
    fld u (fpReg p k) hi lo = fld s (fpReg p k) hi lo := fld_congr (h.rd_eq hk) hi lo

end LinkFrame

/-! ## Lane status registers (R247, R265) -/

/-- Position of the lane whose logical number is `l`. -/
def lanePos (s : State) (p l : Nat) : Nat := if l < 16 && flag s (fpReg p 0x10) 4 then 15 - l else l

theorem laneStat_eq (s : State) (p l : Nat) : laneStat s p l = fpReg p (0x100 + 4 * lanePos s p l) := rfl

theorem lanePos_lt (s : State) (p : Nat) {l : Nat} (h : l < 16) : lanePos s p l < 16 := by
  unfold lanePos
  split <;> omega

theorem lanePos_lanePos (s : State) (p : Nat) {l : Nat} (h : l < 16) : lanePos s p (lanePos s p l) = l := by
  unfold lanePos
  cases flag s (fpReg p 0x10) 4
  · simp
  · have h' : 15 - l < 16 := by omega
    simp only [h, h', decide_true, Bool.and_true, if_true]
    omega

theorem laneStat_ne (s : State) (p : Nat) {l k : Nat} (hl : l < 16) (hk : k < 16) (h : l ≠ k) :
    laneStat s p l ≠ laneStat s p k := by
  rw [laneStat_eq, laneStat_eq]
  refine fpReg_ne p fun he => h ?_
  rw [← lanePos_lanePos s p hl, ← lanePos_lanePos s p hk, show lanePos s p l = lanePos s p k by omega]

theorem laneStat_congr {s u : State} {p : Nat} (h : flag u (fpReg p 0x10) 4 = flag s (fpReg p 0x10) 4) (l : Nat) :
    laneStat u p l = laneStat s p l := by
  unfold laneStat
  rw [h]

theorem LinkFrame.laneStat_eq {p : Nat} {offs : List Nat} {s u : State} (h : LinkFrame p offs s u)
    (ho : 0x10 ∉ offs) (l : Nat) : laneStat u p l = laneStat s p l := laneStat_congr (h.flag_eq ho 4) l

theorem LinkFrame.setF_lane {p : Nat} {offs : List Nat} {s u : State} (h : LinkFrame p offs s u)
    (ho : laneOffs ⊆ offs) (w : State) {l : Nat} (hl : l < 16) (hi lo x : Nat) :
    LinkFrame p offs s (Machine.setF u (laneStat w p l) hi lo x) :=
  h.setF (ho (mem_laneOffs (lanePos_lt w p hl))) hi lo x

theorem excludedLanes_congr {s u : State} {p : Nat} (h : flag u (fpReg p 0x10) 4 = flag s (fpReg p 0x10) 4)
    (hl : ∀ l, l < 16 → flag u (laneStat s p l) 5 = flag s (laneStat s p l) 5) : excludedLanes u p = excludedLanes s p := by
  unfold excludedLanes
  refine foldUpTo_rule (P := fun n x => x = foldUpTo n (fun n l => n + b2n (flag s (laneStat s p l) 5) * 2 ^ l) 0) rfl ?_
  intro i x hi hx
  rw [foldUpTo_succ, hx, laneStat_congr h, hl i hi]

end Sys2Proof.Machine
end

section
/-! PROOF. Leaving a link state, and entering Detect, Train.KS1 and Retrain (R239, R242, R244, R252, R278). -/

namespace Sys2Proof.Machine

open Sys2Proof

/-! ## Leaving and entering link states (R239, R242, R244, R252, R259, R278) -/

theorem port_ite {c : Prop} [Decidable c] {u v : State} {x : Port} {p : Nat} (hu : u.port p = x) (hv : v.port p = x) :
    (if c then u else v).port p = x := by
  split
  · exact hu
  · exact hv

theorem linkFrame_endEye (s : State) (p : Nat) : LinkFrame p [0x404] s (endEye s p) := by
  have hset {u : State} (h : LinkFrame p [0x404] s u) (hi lo x : Nat) :
      LinkFrame p [0x404] s (setF u (fpReg p 0x404) hi lo x) := h.setF (by decide) hi lo x
  have hfresh : LinkFrame p [0x404] s (if flag s (fpReg p 0x404) 4 then ((0 : BitVec 64), s) else fresh s).2 := by
    split
    · exact .refl ..
    · exact (LinkFrame.refl ..).fresh
  have hend := hset (hset (hset hfresh 0 0 0) 4 4 0) 2 2 1
  unfold endEye
  exact LinkFrame.ite (.refl ..) (((hset hend 3 3 1).ite hend).setPhy _)

theorem port_endEye (s : State) (p : Nat) : ∃ e, (endEye s p).port p =
    { s.port p with phy := { (s.port p).phy with es := e } } := by
  have hfresh : (if flag s (fpReg p 0x404) 4 then ((0 : BitVec 64), s) else fresh s).2.port p = s.port p := by
    split <;> rfl
  unfold endEye
  dsimp only
  split
  · exact ⟨(s.port p).phy.es, rfl⟩
  · refine ⟨none, ?_⟩
    rw [port_setPhy_same, port_ite (port_setF ..) rfl, port_setF, port_setF, port_setF, hfresh]

theorem linkFrame_dropInjection (s : State) (p : Nat) : LinkFrame p [0x700] s (dropInjection s p) := by
  unfold dropInjection
  exact ((LinkFrame.refl ..).setF (by decide) _ _ _).ite (.refl ..)

theorem port_dropInjection (s : State) (p j : Nat) : (dropInjection s p).port j = s.port j := by
  unfold dropInjection
  split
  · rw [port_setF]
  · rfl

theorem linkFrame_leaveLink (s : State) (p : Nat) : LinkFrame p [0x404, 0x700] s (leaveLink s p) := by
  unfold leaveLink
  exact ((linkFrame_endEye s p).trans (linkFrame_dropInjection _ p) (by decide) (by decide)).setPhy _

theorem port_leaveLink (s : State) (p : Nat) : ∃ e, (leaveLink s p).port p = { s.port p with
    phy := { (s.port p).phy with es := e, adapting := false, adaptSkip := 0, injLeft := 0 } } := by
  obtain ⟨e, he⟩ := port_endEye s p
  refine ⟨e, ?_⟩
  unfold leaveLink
  rw [port_setPhy_same, port_dropInjection, he]

theorem linkFrame_at16 (s : State) (p : Nat) : LinkFrame p [8] s (at16 s p) := (LinkFrame.refl ..).setF (by decide) ..

/-- Registers that entering Detect writes. -/
def detectOffs : List Nat := [0x404, 0x700, 0x10, 0x140] ++ laneOffs

theorem linkFrame_toDetect (s : State) (p : Nat) : LinkFrame p detectOffs s (toDetect s p) := by
  have hleave : LinkFrame p detectOffs s (leaveLink s p) :=
    (linkFrame_leaveLink s p).trans (.refl p [] _) (by decide) (by decide)
  have hwr := hleave.wr (k := 0x10) (by decide) 0xF
  have hlanes := hwr.foldUpTo (n := 16)
    (f := fun s l => setF (setF s (fpReg p (0x100 + 4 * l)) 2 1 0) (fpReg p (0x100 + 4 * l)) 11 8 l) fun l w hl h => by
      have hm : 0x100 + 4 * l ∈ detectOffs := List.mem_append_right _ (mem_laneOffs hl)
      exact (h.setF hm _ _ _).setF hm _ _ _
  unfold toDetect
  exact ((hlanes.setF (by decide) _ _ _).startKeys).modPort _

theorem link_toDetect (s : State) (p : Nat) : ((toDetect s p).port p).link = .detect := by
  unfold toDetect
  dsimp only
  rw [port_modPort_same]

theorem linkFrame_toKs1 (s : State) (p : Nat) : LinkFrame p [0x404, 0x700, 8] s (toKs1 s p) := by
  unfold toKs1
  exact ((linkFrame_leaveLink s p).startKeys.trans (linkFrame_at16 _ p) (by decide) (by decide)).modPort _

/-- A port that enters Train.KS1 keeps its count of failures and its highest rate. -/
theorem port_toKs1 (s : State) (p : Nat) : ((toKs1 s p).port p).link = .trainKs1 ∧
    ((toKs1 s p).port p).phy.fails = (s.port p).phy.fails ∧ ((toKs1 s p).port p).phy.floor = (s.port p).phy.floor := by
  obtain ⟨e, he⟩ := port_leaveLink s p
  unfold toKs1 at16 startKeys
  dsimp only
  rw [port_modPort_same, port_setF, port_modPort_same, he]
  exact ⟨rfl, rfl, rfl⟩

theorem linkFrame_toRetrain (s : State) (p : Nat) : LinkFrame p [0x404, 0x700] s (toRetrain s p) := by
  unfold toRetrain
  exact (((linkFrame_leaveLink s p).startKeys.takeMinWidth).modPort _).count _ _

/-- A port that enters Retrain tests the lanes that are not excluded (R252). -/
theorem port_toRetrain (s : State) (p : Nat) : ((toRetrain s p).port p).link = .retrain ∧
    ((toRetrain s p).port p).phy.tested.toNat = 0xFFFF - excludedLanes s p ∧
    ((toRetrain s p).port p).phy.testEnded = false := by
  have hframe := (linkFrame_leaveLink s p).startKeys.takeMinWidth
  have hex : excludedLanes (takeMinWidth (startKeys (leaveLink s p) p) p) p = excludedLanes s p :=
    excludedLanes_congr (hframe.flag_eq (by decide) 4) fun l hl => by
      rw [laneStat_eq]
      refine hframe.flag_eq ?_ 5
      have hpos := lanePos_lt s p hl
      simp only [List.mem_cons, List.not_mem_nil, or_false, not_or]
      omega
  unfold toRetrain
  dsimp only
  rw [port_count, port_modPort_same, hex]
  refine ⟨rfl, ?_, rfl⟩
  rw [BitVec.toNat_ofNat, Nat.mod_eq_of_lt (by omega)]

end Sys2Proof.Machine
end

section
/-! PROOF. One bit of every lane status register, lost lanes, and faults of a port below severity 3 (R251, R265, R399). -/

namespace Sys2Proof.Machine

open Sys2Proof

/-! ## One bit of every data lane (R265) -/

/-- Writes bit `i` of the lane status registers from a mask of logical numbers. -/
def setLanes (s : State) (p i m : Nat) : State :=
  foldUpTo 16 (fun s l => setF s (laneStat s p l) i i (b2n (bit m l))) s

theorem setLocks_eq (s : State) (p m : Nat) : setLocks s p m = setLanes s p 1 m := rfl

theorem setHealthy_eq (s : State) (p m : Nat) : setHealthy s p m = setLanes s p 0 m := rfl

theorem linkFrame_setLanes (s : State) (p i m : Nat) : LinkFrame p laneOffs s (setLanes s p i m) := by
  unfold setLanes
  exact (LinkFrame.refl ..).foldUpTo fun l w hl h => h.setF_lane (List.Subset.refl _) w hl i i _

theorem port_setLanes (s : State) (p i m j : Nat) : (setLanes s p i m).port j = s.port j := by
  unfold setLanes
  exact foldUpTo_rule (P := fun _ (w : State) => w.port j = s.port j) rfl fun l w _ h => (port_setF ..).trans h

theorem flag_setLanes {s : State} {p i m l : Nat} (hi : i < 32) (hl : l < 16) :
    flag (setLanes s p i m) (laneStat s p l) i = bit m l := by
  unfold setLanes
  refine (foldUpTo_rule (n := 16) (P := fun n w => LinkFrame p laneOffs s w ∧
    ∀ k, k < 16 → k < n → flag w (laneStat s p k) i = bit m k)
    ⟨.refl .., fun k _ h => absurd h (Nat.not_lt_zero k)⟩ ?_).2 l hl hl
  intro l w hl ⟨hw, hset⟩
  refine ⟨hw.setF_lane (List.Subset.refl _) w hl i i _, fun k hk hkn => ?_⟩
  rw [hw.laneStat_eq (by decide)]
  by_cases hkl : k = l
  · rw [hkl, flag_setF_bit _ _ _ _ hi]
  · rw [flag_setF_other _ _ _ _ _ (laneStat_ne s p hk hl hkl), hset k hk (by omega)]

theorem flag_setF_field (s : State) {off i j x : Nat} (hi : i < 32) (h : j ≠ i) :
    flag (setF s off i i x) off j = flag s off j := by
  rw [flag_setF_same _ _ _ _ _ _ (Nat.le_refl i) hi, if_neg (by omega)]

/-- Writing one bit of the lanes leaves the others. -/
theorem flag_setLanes_field {s : State} {p i j m o : Nat} (hi : i < 32) (h : j ≠ i) :
    flag (setLanes s p i m) o j = flag s o j := by
  unfold setLanes
  refine foldUpTo_rule (P := fun _ w => flag w o j = flag s o j) rfl fun l w _ hw => ?_
  by_cases ho : o = laneStat w p l
  · rw [ho, flag_setF_field w hi h, ← ho, hw]
  · rw [flag_setF_other _ _ _ _ _ ho, hw]

/-! ## Lost lanes (R251, R252) -/

/-- The lane status at `o` is that of a lane that has lost lock. -/
def ShowsLoss (o : Nat) (s : State) : Prop := flag s o 4 = true ∧ flag s o 5 = true ∧ flag s o 1 = false

theorem showsLoss_setF_lost {s : State} (o : Nat) : ShowsLoss o (setF (setF (setF s o 4 4 1) o 5 5 1) o 1 1 0) := by
  refine ⟨?_, ?_, flag_setF_zero _ _ _ (by decide)⟩
  · rw [flag_setF_field _ (by decide) (by decide), flag_setF_field _ (by decide) (by decide), flag_setF_one _ _ _ (by decide)]
  · rw [flag_setF_field _ (by decide) (by decide), flag_setF_one _ _ _ (by decide)]

theorem ShowsLoss.congr {o : Nat} {s u : State} (h : ShowsLoss o s) (hr : rd u o = rd s o) : ShowsLoss o u := by
  unfold ShowsLoss flag at *
  rw [hr]
  exact h

theorem ShowsLoss.markLost {o : Nat} {s : State} (h : ShowsLoss o s) (p l : Nat) : ShowsLoss o (markLost s p l) := by
  unfold Machine.markLost
  by_cases ho : o = laneStat s p l
  · rw [ho]
    exact showsLoss_setF_lost _
  · exact h.congr (by rw [rd_setF_other _ _ _ _ ho, rd_setF_other _ _ _ _ ho, rd_setF_other _ _ _ _ ho])

theorem port_markLost (s : State) (p l j : Nat) : (markLost s p l).port j = s.port j := by
  rw [markLost, port_setF, port_setF, port_setF]

theorem linkFrame_markLost {p l : Nat} (hl : l < 16) (s : State) : LinkFrame p laneOffs s (markLost s p l) := by
  have hset {u : State} (h : LinkFrame p laneOffs s u) := h.setF_lane (List.Subset.refl _) s hl
  unfold markLost
  exact hset (hset (hset (.refl ..) 4 4 1) 5 5 1) 1 1 0

/-- The lanes of `l` marked lost. -/
def lanesLost (s : State) (p : Nat) (l : List Nat) : State := l.foldl (fun s i => markLost s p i) s

theorem lanesLost_cons (s : State) (p i : Nat) (r : List Nat) : lanesLost s p (i :: r) = lanesLost (markLost s p i) p r := by
  unfold lanesLost
  rw [List.foldl_cons]

theorem linkFrame_lanesLost {p : Nat} {l : List Nat} (hl : ∀ i ∈ l, i < 16) (s : State) :
    LinkFrame p laneOffs s (lanesLost s p l) := by
  induction l generalizing s with
  | nil => exact .refl ..
  | cons i r ih =>
    rw [lanesLost_cons]
    exact (linkFrame_markLost (hl i List.mem_cons_self) s).trans
      (ih (fun k hk => hl k (List.mem_cons_of_mem _ hk)) _) (List.Subset.refl _) (List.Subset.refl _)

theorem port_lanesLost (s : State) (p : Nat) (l : List Nat) (j : Nat) : (lanesLost s p l).port j = s.port j := by
  induction l generalizing s with
  | nil => rfl
  | cons i r ih => rw [lanesLost_cons, ih, port_markLost]

theorem showsLoss_lanesLost {p : Nat} {l : List Nat} (hl : ∀ i ∈ l, i < 16) (s : State) :
    ∀ i ∈ l, ShowsLoss (laneStat s p i) (lanesLost s p l) := by
  have hlater (o : Nat) (r : List Nat) (u : State) (h : ShowsLoss o u) : ShowsLoss o (lanesLost u p r) := by
    induction r generalizing u with
    | nil => exact h
    | cons k r ih =>
      rw [lanesLost_cons]
      exact ih _ (h.markLost p k)
  induction l generalizing s with
  | nil => exact fun i hi => absurd hi List.not_mem_nil
  | cons k r ih =>
    intro i hi
    rw [lanesLost_cons]
    have hframe := linkFrame_markLost (p := p) (hl k List.mem_cons_self) s
    rcases List.mem_cons.1 hi with rfl | hi
    · exact hlater _ r _ (showsLoss_setF_lost _)
    · have h := ih (fun j hj => hl j (List.mem_cons_of_mem _ hj)) (markLost s p k) i hi
      rwa [hframe.laneStat_eq (by decide)] at h

/-! ## Faults of a port (R399, R404, R405) -/

/-- A class that stands unset is recorded at its native severity at most. -/
theorem severity_record_le {s : State} {b : FltSet} {c : Nat} (h : statBit s b c = false) (d : BitVec 96) (n : Nat) :
    (record s b c d n).2 ≤ (faultClass b c).2 := by
  have hclear : statBit (if (faultClass b c).1 = true then
      s.setFlt b { s.flt b with cond := (s.flt b).cond ||| BitVec.ofNat 24 (2 ^ c) } else s) b c = false := by
    split <;> exact h
  unfold record
  dsimp only
  split
  · exact Nat.zero_le _
  · exact Nat.zero_le _
  · rw [hclear]
    exact Nat.le_refl _

theorem fault_of_low {s : State} {b : FltSet} {c : Nat} {d : BitVec 96} {n : Nat} (h : (record s b c d n).2 < 3) :
    fault s b c d n = (record s b c d n).1 := by
  unfold fault react
  exact if_pos h

theorem Recorded.ports_eq {s u : State} (h : Recorded s u) : u.ports = s.ports := by
  obtain ⟨_, _, _, _, _, _, _, rfl⟩ := h
  rfl

theorem Recorded.port_eq {s u : State} (h : Recorded s u) (j : Nat) : u.port j = s.port j := by
  rw [State.port, h.ports_eq, State.port]

theorem Recorded.sameMemory {s u : State} (h : Recorded s u) : SameMemory s u := by
  obtain ⟨_, _, _, _, _, _, _, rfl⟩ := h
  exact sameMemory_of_eq rfl rfl

theorem recorded_record (s : State) (b : FltSet) (c : Nat) (d : BitVec 96) (n : Nat) : Recorded s (record s b c d n).1 :=
  (Recorded.refl s).record ..

/-- A fault of port `p` leaves the registers of the port below the fault set. -/
theorem rd_record_port (s : State) (p : PortN) {k : Nat} (hk : k < 0xFE00) (c : Nat) (d : BitVec 96) (n : Nat) :
    rd (record s (.port p) c d n).1 (fpReg p k) = rd s (fpReg p k) := by
  refine regsBut_record s (.port p) c d n _ ?_
  have hp := p.isLt
  simp only [List.mem_cons, List.not_mem_nil, or_false, not_or, sevReg, fltBase, fpReg, pairReg]
  omega

end Sys2Proof.Machine
end

section
/-! PROOF. Transmission (O57): the timers of a port and the order in a flit slot. -/

namespace Sys2Proof.Machine

open Sys2Proof

/-! ## A fault that brings the port into Retrain (R251, R256, R292) -/

/-- Port `p` enters Retrain after a fault below severity 3 was recorded. -/
def retrainAfter (s : State) (p : PortN) (c : Nat) (d : BitVec 96) (n : Nat) : State :=
  toRetrain (record s (.port p) c d n).1 p

section

variable (s : State) (p : PortN) (c : Nat) (d : BitVec 96) (n : Nat)

theorem retrainAfter_spec : ((retrainAfter s p c d n).port p).link = .retrain ∧ PortsBut p s (retrainAfter s p c d n) ∧
    SameMemory s (retrainAfter s p c d n) := by
  have hrec := recorded_record s (.port p) c d n
  have hframe := linkFrame_toRetrain (record s (.port p) c d n).1 p
  exact ⟨(port_toRetrain ..).1, fun k hk => (hframe.ports k hk).trans (hrec.port_eq k),
    sameMemory_trans hrec.sameMemory hframe.memory⟩

theorem rd_retrainAfter {k : Nat} (hk : k < 0xFE00) (ho : k ∉ [0x404, 0x700]) :
    rd (retrainAfter s p c d n) (fpReg p k) = rd s (fpReg p k) :=
  ((linkFrame_toRetrain _ p).rd_eq ho).trans (rd_record_port s p hk c d n)

end

theorem severity_laneLoss (p : PortN) : (faultClass (.port p) 2).2 = 2 := rfl

theorem severity_replays (p : PortN) : (faultClass (.port p) 7).2 = 1 := rfl

theorem fault_port_of_clear {s : State} {p : PortN} {c : Nat} (hc : (faultClass (.port p) c).2 < 3)
    (h : statBit s (.port p) c = false) (d : BitVec 96) (n : Nat) :
    fault s (.port p) c d n = (record s (.port p) c d n).1 :=
  fault_of_low (Nat.lt_of_le_of_lt (severity_record_le h d n) hc)

theorem carries_congr {s u : State} {p : Nat} (h : u.port p = s.port p) : carries u p = carries s p := by
  rw [carries, h, carries]

/-- The class bits of a port's fault set lie outside its link registers. -/
theorem statBit_congr {s u : State} {p : PortN} {c : Nat} (h : rd u (fpReg p 0xFE00) = rd s (fpReg p 0xFE00)) :
    statBit u (.port p) c = statBit s (.port p) c := by
  unfold statBit flag
  rw [fltBase, h]

/-- A flit that has been sent four times brings the port into Retrain. -/
theorem ackTimeout_retrains {s : State} {p : PortN} (hf : takesFlits s p = true) (h4 : ∃ h ∈ (s.port p).replay, 4 ≤ h.sends)
    (hclear : statBit s (.port p) 7 = false) : Completes (.ackTimeout p) s (fun u =>
      (u.port p).link = .retrain ∧ flag u (fpReg p 0x800C) 4 = true ∧ PortsBut p s u ∧ SameMemory s u) := by
  obtain ⟨h, hmem, hsends⟩ := h4
  let v := setF s (fpReg p 0x800C) 4 4 1
  have hv : LinkFrame p [0x800C] s v := (LinkFrame.refl ..).setF (by decide) ..
  have hcarries : carries s p = true := (Bool.and_eq_true_iff.1 hf).2
  have hany : (s.port p).replay.any (fun h => decide (4 ≤ h.sends)) = true :=
    List.any_eq_true.2 ⟨h, hmem, decide_eq_true hsends⟩
  have hstat : statBit v (.port p) 7 = false := (statBit_congr (hv.rd_eq (by decide))).trans hclear
  have hheld : replayHeld s p = retrainAfter v p 7 0 1 := by
    have hstill : carries (record v (.port p) 7 0 1).1 p = true :=
      (carries_congr (((recorded_record v (.port p) 7 0 1).port_eq p).trans (port_setF ..))).trans hcarries
    have hfault := fault_port_of_clear (by rw [severity_replays]; decide) hstat 0 1
    unfold replayHeld retrainAfter
    rw [if_pos hany, hfault]
    dsimp only
    rw [if_pos hstill]
  obtain ⟨hlink, hports, hmemory⟩ := retrainAfter_spec v p 7 0 1
  refine ⟨_, (exec_ackTimeout hf (List.ne_nil_of_mem hmem)).trans (congrArg _ hheld), hlink, ?_,
    fun k hk => (hports k hk).trans (hv.ports k hk), sameMemory_trans hv.memory hmemory⟩
  rw [flag, rd_retrainAfter v p 7 0 1 (by decide) (by decide)]
  exact flag_setF_one _ _ _ (by decide)

/-- Settles O57: the timers one by one, then the slot by what it finds due, `flitSlot_nak` to `flitSlot_fc` for a port that
carries flits, and `flitSlot_keys` to `flitSlot_idle` for one that does not. -/
theorem flitTransmission : Obligations.FlitTransmission := by
  intro s p hlive x
  refine ⟨fun hc => ?_, fun hc => ?_, fun hc =>
    ⟨flitSlot_keys hlive hc, flitSlot_pattern hlive hc, flitSlot_idle hlive hc⟩⟩
  · have hf := takesFlits_eq_true hlive hc
    exact ⟨nakTimeout_discarding hf, nakTimeout_in_order hf, ackTimeout_resends hf, ackTimeout_retrains hf,
      lpIdleTimeout_asks hf, lpReqNoAnswer_stops hf, creditPacketInsert_due hf, urgencyUpdate_due hf⟩
  · refine ⟨flitSlot_nak hlive hc, fun hnak => ⟨fun c => flitSlot_ctl hlive hc hnak, fun hctl => ⟨?_, ?_, ?_⟩⟩⟩
    · exact fun n r h hr hf => flitSlot_resend hlive hc hnak hctl hr hf
    · exact fun hr hd hn hlp => flitSlot_new hlive hc hnak hctl hr (newDue_eq_true hd hn hlp)
    · exact fun hr hidle => flitSlot_fc hlive hc hnak hctl hr (newDue_eq_false hidle)

end Sys2Proof.Machine
end

section
/-! PROOF. Reset and latch-out of a port (R253, R278, R307, R410). -/

namespace Sys2Proof.Machine

open Sys2Proof

/-! ## Port logic reset (R278, R307) -/

/-- A port before its registers and its state are reset: what is dropped is counted and recorded. -/
def resetCounted (s : State) (p : PortN) : State :=
  let x := s.port p
  let s := openShadow s (.port p) false
  let left := x.rxPkts.filter (fun k => bits (chunkNat k.2) 5 0 = 4 || bits (chunkNat k.2) 5 0 = 12)
  let s := count s (cPort p 23) (left.length + x.cmdQ.length)
  let s := count s (cPort p 22) (x.rplQ.length + x.evtQ.length)
  let s := dropTaken s (.port p)
  if x.cmpBuf.isEmpty then s
  else recordQuiet (count s (cPort p 22) x.cmpBuf.length) .xbar 3 0 x.cmpBuf.length

theorem portReset_eq (s : State) (p : PortN) (dest : LinkState) : portReset s p dest =
    (portRegsOff (resetCounted s p) p).setPort p { Port.init with
      link := dest, reenPend := (s.port p).reenPend, shutting := (s.port p).shutting, gen := (s.port p).gen + 1,
      stopped := (s.port p).stopped } := rfl

/-- Ports, memory and the registers of port `p` stay. -/
def PortRegsKept (p : Nat) (s u : State) : Prop :=
  (∀ j, u.port j = s.port j) ∧ SameMemory s u ∧ ∀ k, k < 0xFE00 → rd u (fpReg p k) = rd s (fpReg p k)

namespace PortRegsKept

variable {p : Nat} {s u v : State}

theorem refl (p : Nat) (s : State) : PortRegsKept p s s := ⟨fun _ => rfl, fun _ => ⟨rfl, rfl⟩, fun _ _ => rfl⟩

theorem trans (h : PortRegsKept p s u) (h' : PortRegsKept p u v) : PortRegsKept p s v := by
  obtain ⟨hp, hm, hr⟩ := h
  obtain ⟨hp', hm', hr'⟩ := h'
  exact ⟨fun j => (hp' j).trans (hp j), sameMemory_trans hm hm', fun k hk => (hr' k hk).trans (hr k hk)⟩

theorem count (h : PortRegsKept p s u) (slot n : Nat) : PortRegsKept p s (count u slot n) :=
  h.trans ⟨port_count _ _ _, sameMemory_of_eq (count_dram ..) (count_mram ..), fun _ _ => rd_count ..⟩

theorem openShadow (h : PortRegsKept p s u) (b : FltSet) (f : Bool) : PortRegsKept p s (openShadow u b f) := h

theorem dropTaken (h : PortRegsKept p s u) (c : CmdSrc) : PortRegsKept p s (dropTaken u c) := h

theorem record (h : PortRegsKept p s u) {b : FltSet} {c : Nat}
    (hb : ∀ k, k < 0xFE00 → fpReg p k ∉ [fltBase b, sevReg b c, pairReg 0x18]) (d : BitVec 96) (n : Nat) :
    PortRegsKept p s (record u b c d n).1 :=
  have hrec := recorded_record u b c d n
  h.trans ⟨hrec.port_eq, hrec.sameMemory, fun k hk => regsBut_record u b c d n _ (hb k hk)⟩

end PortRegsKept

theorem fpReg_not_xbar (p : PortN) {k : Nat} (hk : k < 0xFE00) : fpReg p k ∉ [fltBase .xbar, sevReg .xbar 3, pairReg 0x18] := by
  have hp := p.isLt
  simp only [List.mem_cons, List.not_mem_nil, or_false, not_or, sevReg, fltBase, fpReg, pairReg]
  omega

theorem resetCounted_keeps (s : State) (p : PortN) : PortRegsKept p s (resetCounted s p) := by
  have hcount (a b : Nat) := (((PortRegsKept.refl p s).openShadow (.port p) false).count (cPort p 23) a).count (cPort p 22) b
  unfold resetCounted recordQuiet
  dsimp only
  split
  · exact (hcount ..).dropTaken _
  · exact (((hcount ..).dropTaken _).count _ _).record (fun _ hk => fpReg_not_xbar p hk) _ _

/-- Registers that a port logic reset writes. -/
def resetOffs : List Nat := [0x404, 0x700, 0x10, 0x140, 0x540] ++ laneOffs

theorem linkFrame_portRegsOff (s : State) (p : Nat) : LinkFrame p resetOffs s (portRegsOff s p) := by
  have hwr := (LinkFrame.refl p resetOffs s).wr (k := 0x10) (by decide) 0xF
  have hlocks := hwr.foldUpTo (n := 17) (f := fun s l => setF s (fpReg p (0x100 + 4 * l)) 1 1 0) fun l w hl h => by
    refine h.setF ?_ _ _ _
    obtain hlt | rfl := Nat.lt_succ_iff_lt_or_eq.1 hl
    · exact List.mem_append_right _ (mem_laneOffs hlt)
    · decide
  unfold portRegsOff
  exact ((hlocks.wr (by decide) 0).trans (linkFrame_endEye _ p) (List.Subset.refl _) (by decide)).trans
    (linkFrame_dropInjection _ p) (List.Subset.refl _) (by decide)

/-- LOSS of the clock lane survives a reset. -/
theorem flag_portRegsOff_clock (s : State) (p : Nat) : flag (portRegsOff s p) (fpReg p 0x140) 4 = flag s (fpReg p 0x140) 4 := by
  have hlocks (v : State) : flag (foldUpTo 17 (fun s l => setF s (fpReg p (0x100 + 4 * l)) 1 1 0) v) (fpReg p 0x140) 4 =
      flag v (fpReg p 0x140) 4 := by
    refine foldUpTo_rule (P := fun _ (w : State) => flag w (fpReg p 0x140) 4 = flag v (fpReg p 0x140) 4) rfl fun l w _ h => ?_
    by_cases ho : 0x140 = 0x100 + 4 * l
    · rw [← ho, flag_setF_field w (by decide) (by decide), h]
    · rw [flag_setF_other _ _ _ _ _ (fpReg_ne p ho), h]
  unfold portRegsOff
  dsimp only
  rw [(linkFrame_dropInjection _ p).flag_eq (by decide), (linkFrame_endEye _ p).flag_eq (by decide),
    flag, rd_wr_other _ _ (fpReg_ne p (by decide)), ← flag, hlocks, flag, rd_wr_other _ _ (fpReg_ne p (by decide)), flag]

theorem portReset_spec (s : State) (p : PortN) (dest : LinkState) : ((portReset s p dest).port p).link = dest ∧
    ((portReset s p dest).port p).gen = (s.port p).gen + 1 ∧ PortsBut p s (portReset s p dest) ∧
    SameMemory s (portReset s p dest) := by
  obtain ⟨hports, hmemory, -⟩ := resetCounted_keeps s p
  have hframe := linkFrame_portRegsOff (resetCounted s p) p
  rw [portReset_eq, port_setPort_same]
  refine ⟨rfl, rfl, fun k hk => ?_, ?_⟩
  · rw [port_setPort_other _ _ hk, hframe.ports k hk, hports]
  · exact sameMemory_trans hmemory hframe.memory

theorem flag_portReset {s : State} {p : PortN} {k : Nat} (hk : k < 0xFE00) (ho : k ∉ resetOffs) (dest : LinkState) (i : Nat) :
    flag (portReset s p dest) (fpReg p k) i = flag s (fpReg p k) i := by
  obtain ⟨-, -, hregs⟩ := resetCounted_keeps s p
  rw [portReset_eq, flag_setPort, (linkFrame_portRegsOff _ p).flag_eq ho, flag, hregs k hk, flag]

theorem flag_portReset_clock (s : State) (p : PortN) (dest : LinkState) :
    flag (portReset s p dest) (fpReg p 0x140) 4 = flag s (fpReg p 0x140) 4 := by
  obtain ⟨-, -, hregs⟩ := resetCounted_keeps s p
  rw [portReset_eq, flag_setPort, flag_portRegsOff_clock, flag, hregs _ (by decide), flag]

/-! ## Latch-out (R253, R410) -/

/-- Port `p` is in latch-out, with the memory and LOSS of the clock lane as they were. -/
def LatchedFrom (p : Nat) (s u : State) : Prop :=
  (u.port p).link = .latchOut ∧ flag u (fpReg p 0x140) 4 = flag s (fpReg p 0x140) 4 ∧ SameMemory s u

theorem latchedFrom_portLatch (s : State) (p : PortN) : LatchedFrom p s (portLatch s p) := by
  let v := (setF s (fpReg p 0x800C) 5 5 1).modPort p (fun x => { x with shutting := true })
  have hv : LinkFrame p [0x800C] s v := ((LinkFrame.refl ..).setF (by decide) 5 5 1).modPort _
  obtain ⟨hlink, -, -, hmemory⟩ := portReset_spec v p .latchOut
  have hclock := flag_portReset_clock v p .latchOut
  exact ⟨hlink, hclock.trans (hv.flag_eq (by decide) 4), sameMemory_trans hv.memory hmemory⟩

/-- A port that goes down is in latch-out whether or not the fault asks for it. -/
theorem portDown_eq {s : State} {p : PortN} (h : (s.port p).link ≠ .latchOut) :
    portDown s p = portLatch (record (leaveLink s p) (.port p) 5 0 1).1 p := by
  obtain ⟨e, hleave⟩ := port_leaveLink s p
  have hup : ((record (leaveLink s p) (.port p) 5 0 1).1.port p).link ≠ .latchOut := by
    rw [(recorded_record ..).port_eq, hleave]
    exact h
  have hfault : fault (leaveLink s p) (.port p) 5 0 1 = react (record (leaveLink s p) (.port p) 5 0 1).1 (.port p) 5
    (record (leaveLink s p) (.port p) 5 0 1).2 := rfl
  have hlatched := (latchedFrom_portLatch (record (leaveLink s p) (.port p) 5 0 1).1 p).1
  unfold portDown
  dsimp only
  rw [hfault]
  unfold react
  dsimp only
  by_cases hsev : (record (leaveLink s p) (.port p) 5 0 1).2 < 3
  · rw [if_pos hsev, if_neg hup]
  · rw [if_neg hsev, if_neg hup, if_pos hlatched]

theorem latchedFrom_portDown {s : State} {p : PortN} (h : (s.port p).link ≠ .latchOut) : LatchedFrom p s (portDown s p) := by
  have hleave := linkFrame_leaveLink s p
  have hrec := recorded_record (leaveLink s p) (.port p) 5 0 1
  obtain ⟨hlink, hclock, hmemory⟩ := latchedFrom_portLatch (record (leaveLink s p) (.port p) 5 0 1).1 p
  rw [portDown_eq h]
  refine ⟨hlink, ?_, sameMemory_trans (sameMemory_trans hleave.memory hrec.sameMemory) hmemory⟩
  rw [hclock, flag, rd_record_port _ p (by decide), ← flag, hleave.flag_eq (by decide)]

end Sys2Proof.Machine
end

section
/-! PROOF. Writes of FPpp_LINK_CTRL (R278, R308). -/

namespace Sys2Proof.Machine

open Sys2Proof

/-! ## FPpp_LINK_CTRL (R278, R308) -/

theorem regDef_port (q : Part) (p : PortN) {o : Nat} (ho : o < 0xFE00) : regDef q (fpReg p o) = fpRegDef o := by
  have hp := p.isLt
  have hoff : (fpReg p o - 0x2600000) % 0x10000 = o := by
    unfold fpReg
    omega
  have hlo : 0x2600000 ≤ fpReg p o := by
    unfold fpReg
    omega
  have hhi : fpReg p o < 0x2700000 := by
    unfold fpReg
    omega
  have h {n : Nat} (hn : n ≤ 0x2600000) : ¬ fpReg p o < n := Nat.not_lt.2 (hn.trans hlo)
  simp only [regDef, fltAt_port q p ho, h, Nat.reduceLeDiff, if_false, if_pos hhi, hoff]

theorem fpRegDef_linkCtrl : fpRegDef 0x8000 = some { rw := 1, wo := 2 } := by
  simp [fpRegDef, inArr]

theorem regDef_linkCtrl (q : Part) (p : PortN) : regDef q (fpReg p 0x8000) = some { rw := 1, wo := 2 } := by
  rw [regDef_port q p (by decide), fpRegDef_linkCtrl]

/-- The link registers are in the domain of the electrical layer. -/
theorem domainUp_port (s : State) (p : PortN) {o : Nat} (ho : o < 0xFE00) : domainUp s (fpReg p o) = strikeLive s := by
  have hp := p.isLt
  unfold domainUp
  rw [fltAt_port _ p ho]
  dsimp only
  rw [if_neg (by unfold fpReg; omega), if_pos (by unfold fpReg; omega)]

/-- A register of the link is reached while the electrical layer is live. -/
theorem strikeLive_of_reaches {s : State} {p : PortN} (h : reaches s (fpReg p 0x8000) = true) : strikeLive s = true := by
  by_contra hdown
  have hup := domainUp_port s p (by decide : 0x8000 < 0xFE00)
  rw [Bool.not_eq_true] at hdown
  have hstatus : regStatus s (fpReg p 0x8000) = rcUnitInReset := by
    unfold regStatus
    rw [regDef_linkCtrl, hup, hdown]
    rfl
  rw [reaches, hstatus, Bool.and_eq_true] at h
  exact absurd h.2 (by decide)
section

variable {s : State} {p : PortN}

/-- The state with FPpp_LINK_CTRL written. -/
def linkCtrlWritten (s : State) (p : PortN) (v : Reg32) : State := wrReg s (fpReg p 0x8000) v 0

theorem linkCtrlWritten_eq (v : Reg32) : ∃ x, linkCtrlWritten s p v = wr s (fpReg p 0x8000) x :=
  ⟨_, wrReg_of_def (regDef_linkCtrl ..) v 0⟩

theorem linkFrame_linkCtrlWritten (v : Reg32) : LinkFrame p [0x8000] s (linkCtrlWritten s p v) := by
  obtain ⟨x, hx⟩ := linkCtrlWritten_eq (s := s) (p := p) v
  rw [hx]
  exact (LinkFrame.refl ..).wr (by decide) x

theorem port_linkCtrlWritten (v : Reg32) (j : Nat) : (linkCtrlWritten s p v).port j = s.port j := by
  obtain ⟨x, hx⟩ := linkCtrlWritten_eq (s := s) (p := p) v
  rw [hx, port_wr]

theorem power_linkCtrlWritten (v : Reg32) : (linkCtrlWritten s p v).power = s.power := by
  obtain ⟨x, hx⟩ := linkCtrlWritten_eq (s := s) (p := p) v
  rw [hx, wr]

theorem enable_linkCtrlWritten (v : Reg32) : flag (linkCtrlWritten s p v) (fpReg p 0x8000) 0 = bit v.toNat 0 :=
  flag_eq_of_fld (fld_wrReg (regDef_linkCtrl s.part p) v (by decide) (Nat.le_refl 0) (fun i hi _ => by
    obtain rfl := Nat.le_zero.1 hi
    decide) (fun i _ _ => Nat.zero_testBit i) rfl rfl)

/-- A written value without RETRAIN. -/
theorem wrLinkCtrl_plain {v : Reg32} (h1 : bit v.toNat 1 = false) : wrLinkCtrl s p v =
    let w := linkCtrlWritten s p v
    if (w.port p).link = .latchOut then w else if bit v.toNat 0 then fromOff w p else portReset w p .off := by
  unfold wrLinkCtrl linkCtrlWritten
  dsimp only
  rw [h1, if_neg Bool.false_ne_true]

/-- A written value with RETRAIN, on a port that carries. -/
theorem wrLinkCtrl_retrain {v : Reg32} (h1 : bit v.toNat 1 = true) (hc : carries (linkCtrlWritten s p v) p = true) :
    wrLinkCtrl s p v =
      let w := toRetrain (linkCtrlWritten s p v) p
      if (w.port p).link = .latchOut then w else if bit v.toNat 0 then fromOff w p else portReset w p .off := by
  unfold linkCtrlWritten at hc ⊢
  unfold wrLinkCtrl
  dsimp only
  rw [h1, if_pos rfl, if_pos hc]

theorem exec_linkEnWrite (hr : reaches s (fpReg p 0x8000) = true) (v : Reg32) :
    exec (.linkEnWrite p v) s = .next (wrLinkCtrl s p v) :=
  congrArg Host.Outcome.next (atReg_of_reaches hr _)

theorem exec_retrain (hr : reaches s (fpReg p 0x8000) = true) (v : Reg32) :
    exec (.retrain p v) s = .next (wrLinkCtrl s p (v ||| 2)) :=
  congrArg Host.Outcome.next (atReg_of_reaches hr _)

theorem linkEnWrite_enables (hr : reaches s (fpReg p 0x8000) = true) {v : Reg32} (h1 : bit v.toNat 1 = false)
    (h0 : bit v.toNat 0 = true) (hoff : (s.port p).link = .off) (htest : flag s (fpReg p 4) 8 = false)
    (hfatal : s.power.fatal = false) (hon : s.power.mode = .on) : Completes (.linkEnWrite p v) s (fun u =>
      (u.port p).link = .detect ∧ flag u (fpReg p 0x8000) 0 = true ∧ PortsBut p s u ∧ SameMemory s u) := by
  have hframe := linkFrame_linkCtrlWritten (s := s) (p := p) v
  have hdetect := linkFrame_toDetect (linkCtrlWritten s p v) p
  have hall := hframe.trans (offs := 0x8000 :: detectOffs) hdetect (by decide) (by decide)
  have hlink : ((linkCtrlWritten s p v).port p).link = .off := by rw [port_linkCtrlWritten, hoff]
  have hen := (enable_linkCtrlWritten (s := s) (p := p) v).trans h0
  have hlive : strikeLive (linkCtrlWritten s p v) = true := by
    rw [strikeLive, power_linkCtrlWritten]
    exact strikeLive_of_reaches hr
  have hgo : wrLinkCtrl s p v = toDetect (linkCtrlWritten s p v) p := by
    rw [wrLinkCtrl_plain h1, h0]
    dsimp only
    rw [if_neg (by rw [hlink]; decide), if_pos rfl, fromOff, hlink, hen, hframe.flag_eq (by decide), htest,
      power_linkCtrlWritten, hfatal, hon, hlive]
    rfl
  refine ⟨_, (exec_linkEnWrite hr v).trans (congrArg _ hgo), link_toDetect .., ?_, hall.ports, hall.memory⟩
  rw [hdetect.flag_eq (by decide), hen]

theorem linkEnWrite_disables (hr : reaches s (fpReg p 0x8000) = true) {v : Reg32} (h1 : bit v.toNat 1 = false)
    (h0 : bit v.toNat 0 = false) (hup : (s.port p).link ≠ .latchOut) : Completes (.linkEnWrite p v) s (fun u =>
      (u.port p).link = .off ∧ flag u (fpReg p 0x8000) 0 = false ∧ (u.port p).gen = (s.port p).gen + 1 ∧ PortsBut p s u ∧
      SameMemory s u) := by
  have hframe := linkFrame_linkCtrlWritten (s := s) (p := p) v
  have hen := (enable_linkCtrlWritten (s := s) (p := p) v).trans h0
  have hgo : wrLinkCtrl s p v = portReset (linkCtrlWritten s p v) p .off := by
    rw [wrLinkCtrl_plain h1, h0]
    dsimp only
    rw [if_neg (by rwa [port_linkCtrlWritten])]
    rfl
  obtain ⟨hlink, hgen, hports, hmemory⟩ := portReset_spec (linkCtrlWritten s p v) p .off
  refine ⟨_, (exec_linkEnWrite hr v).trans (congrArg _ hgo), hlink, ?_, ?_, fun k hk => (hports k hk).trans (hframe.ports k hk),
    sameMemory_trans hframe.memory hmemory⟩
  · rw [flag_portReset (by decide) (by decide), hen]
  · rw [hgen, port_linkCtrlWritten]

/-- A port that enters Retrain after a write of FPpp_LINK_CTRL. -/
theorem toRetrain_of_written {w : State} (hframe : LinkFrame p [0x8000] s w) :
    ((toRetrain w p).port p).phy.tested.toNat = 0xFFFF - excludedLanes s p ∧
    LinkFrame p [0x8000, 0x404, 0x700] s (toRetrain w p) := by
  have hex : excludedLanes w p = excludedLanes s p := excludedLanes_congr (hframe.flag_eq (by decide) 4) fun l hl => by
    rw [laneStat_eq]
    refine hframe.flag_eq ?_ 5
    have hpos := lanePos_lt s p hl
    simp only [List.mem_cons, List.not_mem_nil, or_false]
    omega
  exact ⟨hex ▸ (port_toRetrain w p).2.1, hframe.trans (linkFrame_toRetrain w p) (by decide) (by decide)⟩

/-- A port that is not in Off stays where it is. -/
theorem fromOff_of_ne (h : (s.port p).link ≠ .off) : fromOff s p = s := by
  rw [fromOff, if_neg (by simp [h])]

theorem wrLinkCtrl_retrains {v : Reg32} (h0 : bit v.toNat 0 = true) (h1 : bit v.toNat 1 = true) (hc : carries s p = true) :
    wrLinkCtrl s p v = toRetrain (linkCtrlWritten s p v) p := by
  have hlink := (port_toRetrain (linkCtrlWritten s p v) p).1
  have hcw : carries (linkCtrlWritten s p v) p = true := by rwa [carries_congr (port_linkCtrlWritten v p)]
  rw [wrLinkCtrl_retrain h1 hcw, h0]
  dsimp only
  rw [if_neg (by rw [hlink]; decide), if_pos rfl, fromOff_of_ne (by rw [hlink]; decide)]

theorem retrain_retrains (hr : reaches s (fpReg p 0x8000) = true) {v : Reg32} (h0 : bit v.toNat 0 = true)
    (hc : carries s p = true) : Completes (.retrain p v) s (fun u => (u.port p).link = .retrain ∧
      (u.port p).phy.tested.toNat = 0xFFFF - excludedLanes s p ∧ (u.port p).phy.testEnded = false ∧
      RegsBut [fpReg p 0x8000, fpReg p 0x404, fpReg p 0x700] s u ∧ PortsBut p s u ∧ SameMemory s u) := by
  have hb0 : bit (v ||| 2).toNat 0 = true := by rw [BitVec.toNat_or, bit_or, h0, Bool.true_or]
  have hb1 : bit (v ||| 2).toNat 1 = true := by
    rw [BitVec.toNat_or, bit_or, show bit (2 : Reg32).toNat 1 = true by decide, Bool.or_true]
  obtain ⟨hlink, -, hended⟩ := port_toRetrain (linkCtrlWritten s p (v ||| 2)) p
  obtain ⟨htested, hframe⟩ := toRetrain_of_written (linkFrame_linkCtrlWritten (s := s) (p := p) (v ||| 2))
  exact ⟨_, (exec_retrain hr v).trans (congrArg _ (wrLinkCtrl_retrains hb0 hb1 hc)), hlink, htested, hended, hframe.regs,
    hframe.ports, hframe.memory⟩

end

end Sys2Proof.Machine
end

section
/-! PROOF. Detect, ClockLock and failures of a Train (R244, R245, R248, R278). -/

namespace Sys2Proof.Machine

open Sys2Proof

/-! ## Detect and ClockLock (R244, R245, R278) -/

/-- Registers that lock writes. -/
def lockOffs : List Nat := 0x140 :: laneOffs ++ (List.range 16).map (fun l => 0x200 + 4 * l)

theorem linkFrame_startLane (s : State) (p : Nat) {l : Nat} (hl : l < 16) : LinkFrame p lockOffs s (startLane s p l) := by
  have hm : 0x200 + 4 * l ∈ lockOffs := List.mem_append_right _ (List.mem_map.2 ⟨l, List.mem_range.2 hl, rfl⟩)
  unfold startLane
  exact ((LinkFrame.refl ..).setF hm _ _ _).setPhy _

theorem flag_startLane (s : State) (p l : Nat) {k : Nat} (hk : k < 0x200) (i : Nat) :
    flag (startLane s p l) (fpReg p k) i = flag s (fpReg p k) i := by
  unfold startLane
  dsimp only
  rw [flag_setPhy, flag_setF_other _ _ _ _ _ (fpReg_ne p (by omega))]

/-- The lane at position `k` starts and locks. -/
def lockLane (s : State) (p k : Nat) : State := setF (startLane s p k) (fpReg p (0x100 + 4 * k)) 1 1 1

theorem linkFrame_lockLane {p k : Nat} (hk : k < 16) (s : State) : LinkFrame p lockOffs s (lockLane s p k) :=
  (linkFrame_startLane s p hk).setF (List.mem_append_left _ (List.mem_cons_of_mem _ (mem_laneOffs hk))) ..

/-- A LOCK that is shown stays. -/
theorem lock_lockLane {s : State} {p j : Nat} (hj : j < 0x200) (h : flag s (fpReg p j) 1 = true) (k : Nat) :
    flag (lockLane s p k) (fpReg p j) 1 = true := by
  unfold lockLane
  by_cases hjk : j = 0x100 + 4 * k
  · rw [hjk]
    exact flag_setF_one _ _ _ (by decide)
  · rw [flag_setF_other _ _ _ _ _ (fpReg_ne p hjk), flag_startLane _ _ _ hj, h]

theorem lockLanes_spec (s : State) (p m : Nat) : LinkFrame p lockOffs s (lockLanes s p m) ∧
    flag (lockLanes s p m) (fpReg p 0x140) 1 = true ∧
    ∀ l, l < 16 → bit m l = true → flag (lockLanes s p m) (fpReg p (0x100 + 4 * l)) 1 = true := by
  unfold lockLanes
  refine foldUpTo_rule (n := 16) (f := fun s l => if bit m l then lockLane s p l else s)
    (P := fun n w => LinkFrame p lockOffs s w ∧ flag w (fpReg p 0x140) 1 = true ∧
      ∀ l, l < n → bit m l = true → flag w (fpReg p (0x100 + 4 * l)) 1 = true)
    ⟨(LinkFrame.refl ..).setF (by decide) .., flag_setF_one _ _ _ (by decide), fun l h => absurd h (Nat.not_lt_zero l)⟩ ?_
  intro k w hk ⟨hframe, hclock, hlanes⟩
  by_cases hb : bit m k = true
  · rw [if_pos hb]
    refine ⟨hframe.trans (linkFrame_lockLane hk w) (List.Subset.refl _) (List.Subset.refl _),
      lock_lockLane (by decide) hclock k, fun l hl hbl => ?_⟩
    obtain hlt | rfl := Nat.lt_succ_iff_lt_or_eq.1 hl
    · exact lock_lockLane (by omega) (hlanes l hlt hbl) k
    · exact flag_setF_one _ _ _ (by decide)
  · rw [if_neg hb]
    refine ⟨hframe, hclock, fun l hl hbl => hlanes l ?_ hbl⟩
    obtain hlt | rfl := Nat.lt_succ_iff_lt_or_eq.1 hl
    · exact hlt
    · exact absurd hbl hb

section

variable {s : State} {p : PortN}

theorem detectPoll_clock (hl : strikeLive s = true) (hd : (s.port p).link = .detect) (lanes : BitVec 16) :
    Completes (.detectPoll p true lanes) s (fun u => (u.port p).link = .clockLock ∧ (u.port p).phy.sensed = lanes ∧
      fld u (fpReg p 8) 3 2 = 2 ∧ RegsBut [fpReg p 8] s u ∧ PortsBut p s u ∧ SameMemory s u) := by
  have hframe := ((linkFrame_at16 s p).modPort (fun x => { x with link := .clockLock })).setPhy
    (fun x => { x with sensed := lanes })
  refine completes_when rfl (by rw [hl, hd]; rfl) ?_
  rw [if_pos rfl]
  refine ⟨?_, ?_, ?_, hframe.regs, hframe.ports, hframe.memory⟩
  · rw [port_setPhy_same, port_modPort_same]
  · rw [port_setPhy_same]
  · rw [fld_setPhy, fld_modPort, at16, fld_setF_same _ _ _ _ _ (by decide) (by decide)]
    rfl

theorem detectPoll_noClock (hl : strikeLive s = true) (hd : (s.port p).link = .detect) (lanes : BitVec 16) :
    Completes (.detectPoll p false lanes) s (fun u => (u.port p).link = .detect ∧ (u.port p).phy.sensed = lanes ∧
      RegsBut [] s u ∧ PortsBut p s u ∧ SameMemory s u) := by
  have hframe := (LinkFrame.refl p [] s).setPhy (fun x => { x with sensed := lanes })
  refine completes_when rfl (by rw [hl, hd]; rfl) ?_
  rw [if_neg Bool.false_ne_true, port_setPhy_same]
  exact ⟨hd, rfl, hframe.regs, hframe.ports, hframe.memory⟩

theorem clockLock_locks (hl : strikeLive s = true) (hc : (s.port p).link = .clockLock) :
    Completes (.clockLock p) s (fun u => (u.port p).link = .trainKs1 ∧ flag u (fpReg p 0x140) 1 = true ∧
      (∀ l, l < 16 → bit (s.port p).phy.sensed.toNat l = true → flag u (fpReg p (0x100 + 4 * l)) 1 = true) ∧
      PortsBut p s u ∧ SameMemory s u) := by
  obtain ⟨hlock, hclock, hlanes⟩ := lockLanes_spec s p (s.port p).phy.sensed.toNat
  have hks1 := linkFrame_toKs1 (lockLanes s p (s.port p).phy.sensed.toNat) p
  refine ⟨clockLocked s p, congrArg Host.Outcome.next (if_pos (by rw [hl, hc]; rfl)), (port_toKs1 ..).1, ?_, fun l h16 hb => ?_,
    fun k hk => (hks1.ports k hk).trans (hlock.ports k hk), sameMemory_trans hlock.memory hks1.memory⟩
  · exact (hks1.flag_eq (by decide) 1).trans hclock
  · refine (hks1.flag_eq ?_ 1).trans (hlanes l h16 hb)
    simp only [List.mem_cons, List.not_mem_nil, or_false]
    omega

theorem clocklockTimeout_detects (hl : strikeLive s = true) (hc : (s.port p).link = .clockLock) :
    Completes (.clocklockTimeout p) s (fun u => (u.port p).link = .detect ∧ PortsBut p s u ∧ SameMemory s u) := by
  have hframe := linkFrame_toDetect s p
  exact completes_when rfl (by rw [hl, hc]; rfl) ⟨link_toDetect .., hframe.ports, hframe.memory⟩

/-! ## Training failures (R248, R278) -/

/-- The port as TRAIN_FAIL leaves it before the fault. -/
def trainGivenUp (s : State) (p : PortN) : State := toDetect (setF s (fpReg p 0x800C) 1 1 1) p

theorem trainGivenUp_spec : ((trainGivenUp s p).port p).link = .detect ∧ flag (trainGivenUp s p) (fpReg p 0x800C) 1 = true ∧
    LinkFrame p (0x800C :: detectOffs) s (trainGivenUp s p) := by
  have hset : LinkFrame p [0x800C] s (setF s (fpReg p 0x800C) 1 1 1) := (LinkFrame.refl ..).setF (by decide) ..
  have hdetect := linkFrame_toDetect (setF s (fpReg p 0x800C) 1 1 1) p
  refine ⟨link_toDetect .., ?_, hset.trans hdetect (by decide) (by decide)⟩
  exact (hdetect.flag_eq (by decide) 1).trans (flag_setF_one _ _ _ (by decide))

theorem ks1Timeout_givesUp (hl : strikeLive s = true) (hk : (s.port p).link = .trainKs1) :
    ∃ b, exec (.ks1Timeout p) s = .next (fault b (.port p) 6 0 1) ∧ (b.port p).link = .detect ∧
      flag b (fpReg p 0x800C) 1 = true ∧ PortsBut p s b ∧ SameMemory s b := by
  obtain ⟨hlink, hflag, hframe⟩ := trainGivenUp_spec (s := s) (p := p)
  refine ⟨trainGivenUp s p, ?_, hlink, hflag, hframe.ports, hframe.memory⟩
  change Host.Outcome.next (when (strikeLive s && decide ((s.port p).link = .trainKs1)) s (trainGivesUp s p)) = _
  rw [hl, hk]
  rfl

theorem exec_ks2Timeout (hl : strikeLive s = true) (hk : (s.port p).link = .trainKs2) :
    exec (.ks2Timeout p) s = .next (trainFails s p) := by
  change Host.Outcome.next (when (strikeLive s && decide ((s.port p).link = .trainKs2)) s (trainFails s p)) = _
  rw [hl, hk]
  rfl

/-- A new training attempt, after `f` has counted the failure. -/
theorem toKs1_setPhy (f : PhyS → PhyS) : ((toKs1 (setPhy s p f) p).port p).link = .trainKs1 ∧
    ((toKs1 (setPhy s p f) p).port p).phy.fails = (f (s.port p).phy).fails ∧
    ((toKs1 (setPhy s p f) p).port p).phy.floor = (f (s.port p).phy).floor ∧
    PortsBut p s (toKs1 (setPhy s p f) p) ∧ SameMemory s (toKs1 (setPhy s p f) p) := by
  have hframe := ((LinkFrame.refl p [] s).setPhy f).trans (linkFrame_toKs1 _ p) (List.nil_subset _) (List.Subset.refl _)
  obtain ⟨hlink, hfails, hfloor⟩ := port_toKs1 (setPhy s p f) p
  rw [port_setPhy_same] at hfails hfloor
  exact ⟨hlink, hfails, hfloor, hframe.ports, hframe.memory⟩

theorem ks2Timeout_again (hl : strikeLive s = true) (hk : (s.port p).link = .trainKs2) (hf : (s.port p).phy.fails + 1 < 3) :
    Completes (.ks2Timeout p) s (fun u => (u.port p).link = .trainKs1 ∧
      (u.port p).phy.fails = (s.port p).phy.fails + 1 ∧ PortsBut p s u ∧ SameMemory s u) := by
  obtain ⟨hlink, hfails, -, hports, hmemory⟩ := toKs1_setPhy (s := s) (p := p) (fun x => { x with fails := x.fails + 1 })
  exact ⟨_, (exec_ks2Timeout hl hk).trans (congrArg _ (if_pos hf)), hlink, hfails, hports, hmemory⟩

theorem ks2Timeout_lowers (hl : strikeLive s = true) (hk : (s.port p).link = .trainKs2) (hf : 3 ≤ (s.port p).phy.fails + 1)
    (hr : (s.port p).phy.rate ≠ 2) : Completes (.ks2Timeout p) s (fun u => (u.port p).link = .trainKs1 ∧
      (u.port p).phy.fails = 0 ∧ (u.port p).phy.floor = (s.port p).phy.rate + 1 ∧ PortsBut p s u ∧ SameMemory s u) := by
  obtain ⟨hlink, hfails, hfloor, hports, hmemory⟩ :=
    toKs1_setPhy (s := s) (p := p) (fun x => { x with fails := 0, floor := x.rate + 1 })
  refine ⟨_, (exec_ks2Timeout hl hk).trans (congrArg _ ?_), hlink, hfails, hfloor, hports, hmemory⟩
  unfold trainFails
  dsimp only
  rw [if_neg (Nat.not_lt.2 hf), if_neg hr]

theorem ks2Timeout_givesUp (hl : strikeLive s = true) (hk : (s.port p).link = .trainKs2) (hf : 3 ≤ (s.port p).phy.fails + 1)
    (hr : (s.port p).phy.rate = 2) : ∃ b, exec (.ks2Timeout p) s = .next (fault b (.port p) 6 0 1) ∧
      (b.port p).link = .detect ∧ flag b (fpReg p 0x800C) 1 = true := by
  obtain ⟨hlink, hflag, -⟩ := trainGivenUp_spec (s := s) (p := p)
  refine ⟨trainGivenUp s p, (exec_ks2Timeout hl hk).trans (congrArg _ ?_), hlink, hflag⟩
  unfold trainFails
  dsimp only
  rw [if_neg (Nat.not_lt.2 hf), if_pos hr]
  rfl

end

end Sys2Proof.Machine
end

section
/-! PROOF. Lanes and clock lane that are lost, and Retrain (R251 to R253). -/

namespace Sys2Proof.Machine

open Sys2Proof

/-! ## A lane or the clock lane is lost (R251 to R253) -/

/-- The state in which the loss of the lanes `l` is recorded. -/
def lossCounted (s : State) (p : Nat) (l : List Nat) : State := count (lanesLost s p l) (cPort p 10) l.length

/-- The detail of that record (R407). -/
def lossDetail (s : State) (p : Nat) (l : List Nat) : BitVec 96 :=
  (rd (lanesLost s p l) (laneStat (lanesLost s p l) p (l.headD 0))).setWidth 96

section

variable {s : State} {p : PortN} {l : List Nat}

theorem linkFrame_lossCounted (hl : ∀ i ∈ l, i < 16) : LinkFrame p laneOffs s (lossCounted s p l) :=
  (linkFrame_lanesLost hl s).count _ _

theorem loseLanes_eq (hl : ∀ i ∈ l, i < 16) (hclear : statBit s (.port p) 2 = false) : loseLanes s p l =
    (record (lossCounted s p l) (.port p) 2 (lossDetail s p l) l.length).1 := by
  have hstat : statBit (lossCounted s p l) (.port p) 2 = false :=
    (statBit_congr ((linkFrame_lossCounted hl).rd_eq (by decide))).trans hclear
  exact fault_port_of_clear (by rw [severity_laneLoss]; decide) hstat _ _

theorem port_loseLanes (hl : ∀ i ∈ l, i < 16) (hclear : statBit s (.port p) 2 = false) (j : Nat) :
    (loseLanes s p l).port j = s.port j := by
  rw [loseLanes_eq hl hclear, (recorded_record ..).port_eq, lossCounted, port_count, port_lanesLost]

/-- After the loss of lanes the port retrains without them. -/
theorem toRetrain_loseLanes (hl : ∀ i ∈ l, i < 16) (hclear : statBit s (.port p) 2 = false) :
    ((toRetrain (loseLanes s p l) p).port p).link = .retrain ∧ PortsBut p s (toRetrain (loseLanes s p l) p) ∧
    SameMemory s (toRetrain (loseLanes s p l) p) ∧
    ∀ i ∈ l, ShowsLoss (laneStat s p i) (toRetrain (loseLanes s p l) p) := by
  have hframe := linkFrame_lossCounted (s := s) (p := p) hl
  have hgo : toRetrain (loseLanes s p l) p = retrainAfter (lossCounted s p l) p 2 (lossDetail s p l) l.length := by
    rw [loseLanes_eq hl hclear, retrainAfter]
  obtain ⟨hlink, hports, hmemory⟩ := retrainAfter_spec (lossCounted s p l) p 2 (lossDetail s p l) l.length
  rw [hgo]
  refine ⟨hlink, fun k hk => (hports k hk).trans (hframe.ports k hk), sameMemory_trans hframe.memory hmemory, fun i hi => ?_⟩
  have hlost := showsLoss_lanesLost (p := p) hl s i hi
  have hpos := lanePos_lt s p (hl i hi)
  rw [laneStat_eq] at hlost ⊢
  refine hlost.congr ?_
  rw [rd_retrainAfter _ _ _ _ _ (by omega) (by simp only [List.mem_cons, List.not_mem_nil, or_false]; omega), lossCounted,
    rd_count]

theorem laneLoss_retrains {l : LaneN} (hlive : strikeLive s = true) (hc : carries s p = true)
    (hb : bit (rxLanes s p) l = true) (hclear : statBit s (.port p) 2 = false) : Completes (.laneLoss p l) s (fun u =>
      (u.port p).link = .retrain ∧ flag u (laneStat s p l) 4 = true ∧ flag u (laneStat s p l) 5 = true ∧
      flag u (laneStat s p l) 1 = false ∧ PortsBut p s u ∧ SameMemory s u) := by
  have hl : ∀ i ∈ [l.val], i < 16 := fun i hi => List.mem_singleton.1 hi ▸ l.isLt
  have hstill : carries (loseLanes s p [l.val]) p = true := by rwa [carries_congr (port_loseLanes hl hclear p)]
  obtain ⟨hlink, hports, hmemory, hshown⟩ := toRetrain_loseLanes hl hclear
  obtain ⟨h4, h5, h1⟩ := hshown l.val List.mem_cons_self
  have hgo : laneLost s p l = toRetrain (loseLanes s p [l.val]) p := by
    unfold laneLost
    dsimp only
    rw [hc, hstill, if_pos (by decide)]
  refine completes_when rfl (by rw [hlive, hc, hb]; rfl) ?_
  rw [hgo]
  exact ⟨hlink, h4, h5, h1, hports, hmemory⟩

theorem carries_iff {q : Nat} : carries s q = true ↔ (s.port q).link = .active ∨ (s.port q).link = .degraded := by
  simp [carries]

theorem ports_setF (off hi lo x : Nat) : (setF s off hi lo x).ports = s.ports := rfl

/-- LOSS of the clock lane, and no LOCK. -/
def clockLossShown (s : State) (p : Nat) : State := setF (setF s (fpReg p 0x140) 4 4 1) (fpReg p 0x140) 1 1 0

theorem clockLossShown_spec : LinkFrame p [0x140] s (clockLossShown s p) ∧ (clockLossShown s p).ports = s.ports ∧
    flag (clockLossShown s p) (fpReg p 0x140) 4 = true ∧ flag (clockLossShown s p) (fpReg p 0x140) 1 = false := by
  unfold clockLossShown
  refine ⟨((LinkFrame.refl ..).setF (by decide) ..).setF (by decide) .., ?_, ?_, flag_setF_zero _ _ _ (by decide)⟩
  · rw [ports_setF, ports_setF]
  · rw [flag_setF_field _ (by decide) (by decide), flag_setF_one _ _ _ (by decide)]

theorem clockLaneLoss_latches (hlive : strikeLive s = true)
    (h : carries s p = true ∨ (s.port p).link = .retrain ∨ (s.port p).link = .lowPower) :
    Completes (.clockLaneLoss p) s (fun u => (u.port p).link = .latchOut ∧ flag u (fpReg p 0x140) 4 = true ∧
      SameMemory s u) := by
  obtain ⟨hframe, hports, hloss, -⟩ := clockLossShown_spec (s := s) (p := p)
  have hport : (clockLossShown s p).port p = s.port p := by rw [State.port, hports, State.port]
  have hlink : (s.port p).link ≠ .latchOut ∧ (s.port p).link ≠ .test := by
    rw [carries_iff, or_assoc] at h
    rcases h with h | h | h | h <;> simp [h]
  obtain ⟨hlatch, hclock, hmemory⟩ := latchedFrom_portDown (s := clockLossShown s p) (p := p) (by rw [hport]; exact hlink.1)
  have hgo : clockLost s p = portDown (clockLossShown s p) p := if_neg (by
    change ¬ ((clockLossShown s p).port p).link = .test
    rw [hport]
    exact hlink.2)
  refine completes_when rfl ?_ ?_
  · rw [hlive]
    rcases h with h | h | h <;> simp [h]
  · rw [hgo]
    exact ⟨hlatch, hclock.trans hloss, sameMemory_trans hframe.memory hmemory⟩

theorem clockLaneLoss_test (hlive : strikeLive s = true) (ht : (s.port p).link = .test) :
    Completes (.clockLaneLoss p) s (fun u => u.ports = s.ports ∧ flag u (fpReg p 0x140) 4 = true ∧
      flag u (fpReg p 0x140) 1 = false ∧ RegsBut [fpReg p 0x140] s u ∧ SameMemory s u) := by
  obtain ⟨hframe, hports, hloss, hlock⟩ := clockLossShown_spec (s := s) (p := p)
  have hport : (clockLossShown s p).port p = s.port p := by rw [State.port, hports, State.port]
  have hgo : clockLost s p = clockLossShown s p := if_pos (by
    change ((clockLossShown s p).port p).link = .test
    rw [hport, ht])
  refine completes_when rfl (by rw [hlive, ht]; simp) ?_
  rw [hgo]
  exact ⟨hports, hloss, hlock, hframe.regs, hframe.memory⟩

end

/-! ## Retrain (R252, R253) -/

section

variable {s : State} {p : PortN}

theorem linkFrame_ks1Seen (m : Nat) : LinkFrame p [0x8024, 0x8028] s (ks1Seen s p m) := by
  unfold ks1Seen recordPartner
  exact (((LinkFrame.refl ..).wr (by decide) _).wr (by decide) _).ite (.refl ..)

theorem port_ks1Seen (m : Nat) : (ks1Seen s p m).port p = s.port p := by
  unfold ks1Seen recordPartner
  exact port_ite (by rw [port_wr, port_wr]) rfl

/-- The lane test has ended with the lanes `h` healthy to receive and `tx` to transmit. -/
def lanesTested (s : State) (p : PortN) (h tx : BitVec 16) : State :=
  let v := startKeys (setPhy (ks1Seen s p h.toNat) p (fun x => { x with rxHealthy := h, txHealthy := tx, testEnded := true })) p
  setLanes (setLanes v p 0 h.toNat) p 1 h.toNat

theorem port_lanesTested (h tx : BitVec 16) : (lanesTested s p h tx).port p = { s.port p with
    ks := [], ksHeard := false, ksSent := 0,
    phy := { (s.port p).phy with rxHealthy := h, txHealthy := tx, testEnded := true } } := by
  unfold lanesTested startKeys
  dsimp only
  rw [port_setLanes, port_setLanes, port_modPort_same, port_setPhy_same, port_ks1Seen]

theorem linkFrame_lanesTested (h tx : BitVec 16) : LinkFrame p (0x8024 :: 0x8028 :: laneOffs) s (lanesTested s p h tx) := by
  have hseen := ((linkFrame_ks1Seen (s := s) (p := p) h.toNat).setPhy
    (fun x => { x with rxHealthy := h, txHealthy := tx, testEnded := true })).startKeys
  have hhealthy := hseen.trans (offs := 0x8024 :: 0x8028 :: laneOffs) (linkFrame_setLanes _ p 0 h.toNat) (by decide) (by decide)
  exact hhealthy.trans (linkFrame_setLanes _ p 1 h.toNat) (List.Subset.refl _) (by decide)

theorem widthFrom_congr {u : State} {q : Nat} (h : (u.port q).phy.minW = (s.port q).phy.minW) (n : Nat) :
    widthFrom u q n = widthFrom s q n := by
  unfold widthFrom minWidth
  rw [h]

theorem laneTestEnd_eq (rx tx : BitVec 16) : laneTestEnd s p rx tx =
    let h := rx &&& (s.port p).phy.tested
    let v := lanesTested s p h tx
    if widthFrom s p h.toNat = 3 ∨ widthFrom s p tx.toNat = 3 then portDown v p else dropIdle v p := by
  have hwidth (h : BitVec 16) (n : Nat) : widthFrom (lanesTested s p h tx) p n = widthFrom s p n :=
    widthFrom_congr (by rw [port_lanesTested]) n
  have hgo : laneTestEnd s p rx tx =
      let h := rx &&& (s.port p).phy.tested
      let v := lanesTested s p h tx
      if widthFrom v p h.toNat = 3 ∨ widthFrom v p tx.toNat = 3 then portDown v p else dropIdle v p := rfl
  rw [hgo]
  dsimp only
  rw [hwidth, hwidth]

theorem flag_lanesTested (h tx : BitVec 16) {l : Nat} (hl : l < 16) :
    flag (lanesTested s p h tx) (laneStat s p l) 0 = bit h.toNat l ∧
    flag (lanesTested s p h tx) (laneStat s p l) 1 = bit h.toNat l := by
  let v := startKeys (setPhy (ks1Seen s p h.toNat) p (fun x => { x with rxHealthy := h, txHealthy := tx, testEnded := true })) p
  have hv : LinkFrame p [0x8024, 0x8028] s v := ((linkFrame_ks1Seen (s := s) (p := p) h.toNat).setPhy _).startKeys
  have hhealthy := linkFrame_setLanes v p 0 h.toNat
  have hstat0 : laneStat v p l = laneStat s p l := hv.laneStat_eq (by decide) l
  have hstat1 : laneStat (setLanes v p 0 h.toNat) p l = laneStat s p l := (hhealthy.laneStat_eq (by decide) l).trans hstat0
  have hgo : lanesTested s p h tx = setLanes (setLanes v p 0 h.toNat) p 1 h.toNat := rfl
  rw [hgo]
  refine ⟨?_, ?_⟩
  · rw [flag_setLanes_field (by decide) (by decide), ← hstat0, flag_setLanes (by decide) hl]
  · rw [← hstat1, flag_setLanes (by decide) hl]

theorem linkFrame_dropIdle : LinkFrame p [0x700] s (dropIdle s p) := by
  unfold dropIdle
  exact (LinkFrame.refl ..).ite (linkFrame_dropInjection s p)

theorem port_dropIdle (j : Nat) : (dropIdle s p).port j = s.port j := by
  unfold dropIdle
  exact port_ite rfl (port_dropInjection ..)

theorem exec_laneTestEnd (hlive : strikeLive s = true) (hr : (s.port p).link = .retrain)
    (he : (s.port p).phy.testEnded = false) (rx tx : BitVec 16) :
    exec (.retrainLaneTestEnd p rx tx) s = .next (laneTestEnd s p rx tx) := by
  have hgo : (strikeLive s && decide ((s.port p).link = .retrain) && !(s.port p).phy.testEnded) = true := by
    rw [hlive, hr, he]
    rfl
  change Host.Outcome.next (when (strikeLive s && decide ((s.port p).link = .retrain) && !(s.port p).phy.testEnded) s _) = _
  rw [hgo, when_true]

theorem laneTestEnd_goesOn (hlive : strikeLive s = true) (hr : (s.port p).link = .retrain)
    (he : (s.port p).phy.testEnded = false) (rx tx : BitVec 16)
    (hrx : widthFrom s p (rx &&& (s.port p).phy.tested).toNat ≠ 3) (htx : widthFrom s p tx.toNat ≠ 3) :
    Completes (.retrainLaneTestEnd p rx tx) s (fun u => (u.port p).link = .retrain ∧ (u.port p).phy.testEnded = true ∧
      (u.port p).phy.rxHealthy = rx &&& (s.port p).phy.tested ∧ (u.port p).phy.txHealthy = tx ∧
      (∀ l, l < 16 → flag u (laneStat s p l) 0 = bit (rx &&& (s.port p).phy.tested).toNat l ∧
        flag u (laneStat s p l) 1 = bit (rx &&& (s.port p).phy.tested).toNat l) ∧ PortsBut p s u ∧ SameMemory s u) := by
  have hgo : laneTestEnd s p rx tx = dropIdle (lanesTested s p (rx &&& (s.port p).phy.tested) tx) p := by
    rw [laneTestEnd_eq]
    exact if_neg (not_or.2 ⟨hrx, htx⟩)
  generalize rx &&& (s.port p).phy.tested = h at hgo ⊢
  have htested := linkFrame_lanesTested (s := s) (p := p) h tx
  have hidle := linkFrame_dropIdle (s := lanesTested s p h tx) (p := p)
  refine ⟨_, (exec_laneTestEnd hlive hr he rx tx).trans (congrArg _ hgo), ?_⟩
  beta_reduce
  rw [port_dropIdle, port_lanesTested]
  refine ⟨hr, rfl, rfl, rfl, fun l hl => ?_, fun k hk => (hidle.ports k hk).trans (htested.ports k hk),
    sameMemory_trans htested.memory hidle.memory⟩
  have hpos := lanePos_lt s p hl
  have hout : 0x100 + 4 * lanePos s p l ∉ [0x700] := by
    simp only [List.mem_cons, List.not_mem_nil, or_false]
    omega
  rw [laneStat_eq, hidle.flag_eq hout, hidle.flag_eq hout, ← laneStat_eq]
  exact flag_lanesTested h tx hl

theorem laneTestEnd_latches (hlive : strikeLive s = true) (hr : (s.port p).link = .retrain)
    (he : (s.port p).phy.testEnded = false) (rx tx : BitVec 16)
    (hw : widthFrom s p (rx &&& (s.port p).phy.tested).toNat = 3 ∨ widthFrom s p tx.toNat = 3) :
    Completes (.retrainLaneTestEnd p rx tx) s (fun u => (u.port p).link = .latchOut ∧ SameMemory s u) := by
  have hgo : laneTestEnd s p rx tx = portDown (lanesTested s p (rx &&& (s.port p).phy.tested) tx) p := by
    rw [laneTestEnd_eq]
    exact if_pos hw
  have htested := linkFrame_lanesTested (s := s) (p := p) (rx &&& (s.port p).phy.tested) tx
  obtain ⟨hlatch, -, hmemory⟩ := latchedFrom_portDown (s := lanesTested s p (rx &&& (s.port p).phy.tested) tx) (p := p)
    (by rw [port_lanesTested, hr]; decide)
  exact ⟨_, (exec_laneTestEnd hlive hr he rx tx).trans (congrArg _ hgo), hlatch, sameMemory_trans htested.memory hmemory⟩

theorem retrainTimeout_latches (hlive : strikeLive s = true) (hr : (s.port p).link = .retrain)
    (h2 : (s.port p).phy.second = true) :
    Completes (.retrainTimeout p) s (fun u => (u.port p).link = .latchOut ∧ SameMemory s u) := by
  obtain ⟨hlatch, -, hmemory⟩ := latchedFrom_portDown (s := s) (p := p) (by rw [hr]; decide)
  refine completes_when rfl (by rw [hlive, hr]; rfl) ?_
  rw [if_pos h2]
  exact ⟨hlatch, hmemory⟩

theorem retrainTimeout_again (hlive : strikeLive s = true) (hr : (s.port p).link = .retrain)
    (h2 : (s.port p).phy.second = false) : Completes (.retrainTimeout p) s (fun u => (u.port p).link = .retrain ∧
      (u.port p).phy.second = true ∧ (u.port p).phy.testEnded = false ∧
      (u.port p).phy.tested = (if (s.port p).phy.testEnded then (s.port p).phy.rxHealthy else (s.port p).phy.tested) ∧
      RegsBut [] s u ∧ PortsBut p s u ∧ SameMemory s u) := by
  have hframe : LinkFrame p [] s (retrainAgain s p) := ((LinkFrame.refl ..).takeMinWidth.setPhy _).startKeys
  refine completes_when rfl (by rw [hlive, hr]; rfl) ?_
  rw [if_neg (by rw [h2]; decide)]
  refine ⟨?_, ?_, ?_, ?_, hframe.regs, hframe.ports, hframe.memory⟩ <;>
    rw [retrainAgain, startKeys, port_modPort_same, port_setPhy_same, takeMinWidth, port_setPhy_same]
  exact hr

end

end Sys2Proof.Machine
end

section
/-! PROOF. LowPower (R255, R256), and the states of a link (O53). -/

namespace Sys2Proof.Machine

open Sys2Proof

/-! ## LowPower (R255, R256) -/

section

variable {s : State} {p : PortN}

/-- The receivers of a port that enters LowPower have lost lock. -/
def unlocked (s : State) (p : Nat) : State := setF (setLocks (leaveLink s p) p 0) (fpReg p 0x140) 1 1 0

theorem linkFrame_unlocked : LinkFrame p ([0x404, 0x700, 0x140] ++ laneOffs) s (unlocked s p) := by
  have hlocks := (linkFrame_leaveLink s p).trans (offs := [0x404, 0x700, 0x140] ++ laneOffs)
    (linkFrame_setLanes (leaveLink s p) p 1 0) (by decide) (by decide)
  exact hlocks.setF (by decide) 1 1 0

theorem lowpowerEntry_enters (hlive : strikeLive s = true) (hc : carries s p = true) (hlp : (s.port p).lp = .entering) :
    Completes (.lowpowerEntry p) s (fun u => (u.port p).link = .lowPower ∧ (u.port p).lp = .none ∧ PortsBut p s u ∧
      SameMemory s u) := by
  have hframe : LinkFrame p ([0x404, 0x700, 0x140] ++ laneOffs) s (enterLowPower s p) :=
    (linkFrame_unlocked.modPort _).count _ _
  refine completes_when rfl (by rw [hlive, hc, hlp]; rfl) ?_
  refine ⟨?_, ?_, hframe.ports, hframe.memory⟩ <;> rw [enterLowPower, port_count, port_modPort_same]

theorem wakeRequest_abandons (hlive : strikeLive s = true) (hc : carries s p = true) (hlp : (s.port p).lp = .entering) :
    exec (.wakeRequest p) s = .next (s.modPort p (fun x => { x with
      lp := .none
      ctlDue := if x.ctlDue = some 3 then some 4 else if x.ctlDue = some 2 then none else x.ctlDue })) := by
  change Host.Outcome.next (when (strikeLive s) s (if carries s p then (if (s.port p).lp = .none then s else abandonEntry s p)
    else _)) = _
  rw [hlive, when_true, if_pos hc, if_neg (by rw [hlp]; decide), abandonEntry]

theorem not_carries_of_lowPower (h : (s.port p).link = .lowPower) : carries s p = false := by
  simp [carries, h]

theorem wakeRequest_wakes (hlive : strikeLive s = true) (h : (s.port p).link = .lowPower) :
    exec (.wakeRequest p) s = .next (s.modPort p (fun x => { x with lp := .waking })) := by
  change Host.Outcome.next (when (strikeLive s) s (if carries s p then _ else if (s.port p).link = .lowPower then _ else s)) = _
  rw [hlive, when_true, if_neg (by rw [not_carries_of_lowPower h]; decide), if_pos h]

/-- The port of a receiver that has locked again (R256). -/
def relockedLanes (s : State) (p : PortN) : State :=
  setF (setLanes (s.modPort p (fun x => { x with lp := .none })) p 1 (rxLanes s p)) (fpReg p 0x140) 1 1 1

/-- The lanes in use that fail to lock. -/
def failedLanes (s : State) (p : PortN) (failed : BitVec 16) : List Nat :=
  (List.range 16).filter (fun l => bit failed.toNat l && bit (rxLanes s p) l)

theorem mem_failedLanes {failed : BitVec 16} {l : Nat} :
    l ∈ failedLanes s p failed ↔ l < 16 ∧ bit failed.toNat l = true ∧ bit (rxLanes s p) l = true := by
  rw [failedLanes, List.mem_filter, List.mem_range, Bool.and_eq_true]

theorem port_relockedLanes : (relockedLanes s p).port p = { s.port p with lp := .none } := by
  rw [relockedLanes, port_setF, port_setLanes, port_modPort_same]

theorem linkFrame_relockedLanes : LinkFrame p (0x140 :: laneOffs) s (relockedLanes s p) :=
  have hlocks := ((LinkFrame.refl p [] s).modPort _).trans (linkFrame_setLanes _ p 1 (rxLanes s p)) (by decide) (by decide)
  hlocks.setF (by decide) 1 1 1

/-- Exactly the lanes in use show LOCK, and the clock lane does. -/
theorem lock_relockedLanes : flag (relockedLanes s p) (fpReg p 0x140) 1 = true ∧
    ∀ l, l < 16 → flag (relockedLanes s p) (laneStat s p l) 1 = bit (rxLanes s p) l := by
  unfold relockedLanes
  refine ⟨flag_setF_one _ _ _ (by decide), fun l hl => ?_⟩
  have hstat : laneStat (s.modPort p (fun x => { x with lp := .none })) p l = laneStat s p l :=
    laneStat_congr (flag_modPort ..) l
  have hpos := lanePos_lt s p hl
  rw [flag_setF_other _ _ _ _ _ (by rw [laneStat_eq]; exact fpReg_ne p (by omega)), ← hstat, flag_setLanes (by decide) hl]

/-- The registers of the lanes are those of the logical numbers. -/
theorem regsOutside_lanes {u : State} (h : LinkFrame p (0x140 :: laneOffs) s u) :
    RegsOutside (fun o => o = fpReg p 0x140 ∨ ∃ l, l < 16 ∧ o = laneStat s p l) s u := by
  refine fun o ho => h.regs o fun hm => ho ?_
  obtain ⟨k, hk, rfl⟩ := List.mem_map.1 hm
  rcases List.mem_cons.1 hk with rfl | hk
  · exact Or.inl rfl
  · obtain ⟨l, hl, rfl⟩ := List.mem_map.1 hk
    have h16 := List.mem_range.1 hl
    exact Or.inr ⟨lanePos s p l, lanePos_lt s p h16, by rw [laneStat_eq, lanePos_lanePos s p h16]⟩

theorem exec_lowpowerExitDone (hlive : strikeLive s = true) (h : (s.port p).link = .lowPower) (hw : (s.port p).lp = .waking)
    (failed : BitVec 16) : exec (.lowpowerExitDone p failed) s = .next (exitLowPower s p failed) := by
  have hgo : (strikeLive s && decide ((s.port p).link = .lowPower) && decide ((s.port p).lp = .waking)) = true := by
    rw [hlive, h, hw]
    rfl
  change Host.Outcome.next
    (when (strikeLive s && decide ((s.port p).link = .lowPower) && decide ((s.port p).lp = .waking)) s _) = _
  rw [hgo, when_true]

theorem exitLowPower_eq (failed : BitVec 16) : exitLowPower s p failed =
    let v := relockedLanes s p
    if !(failedLanes s p failed).isEmpty then
      let w := loseLanes v p (failedLanes s p failed)
      if (w.port p).link = .lowPower then toRetrain w p else w
    else if flag v (fpReg p 8) 4 then toRetrain v p
    else v.modPort p (fun x => { x with
      link := if rxCount v p = 16 ∧ txCount v p = 16 then .active else .degraded
      scrTx := seeds (txCount v p)
      scrRx := seeds (rxCount v p) }) := rfl

theorem lowpowerExitDone_carries (hlive : strikeLive s = true) (h : (s.port p).link = .lowPower)
    (hw : (s.port p).lp = .waking) (failed : BitVec 16)
    (hnone : ∀ l, l < 16 → bit failed.toNat l = true → bit (rxLanes s p) l = false) (hpend : flag s (fpReg p 8) 4 = false) :
    Completes (.lowpowerExitDone p failed) s (fun u =>
      (u.port p).link = (if rxCount s p = 16 ∧ txCount s p = 16 then .active else .degraded) ∧
      (u.port p).lp = .none ∧ flag u (fpReg p 0x140) 1 = true ∧
      (∀ l, l < 16 → flag u (laneStat s p l) 1 = bit (rxLanes s p) l) ∧
      RegsOutside (fun o => o = fpReg p 0x140 ∨ ∃ l, l < 16 ∧ o = laneStat s p l) s u ∧ PortsBut p s u ∧ SameMemory s u) := by
  have hframe := linkFrame_relockedLanes (s := s) (p := p)
  have hempty : failedLanes s p failed = [] := List.eq_nil_iff_forall_not_mem.2 fun l hl => by
    obtain ⟨h16, hf, hrx⟩ := mem_failedLanes.1 hl
    exact absurd hrx (by rw [hnone l h16 hf]; decide)
  have hrx : rxCount (relockedLanes s p) p = rxCount s p := by
    rw [rxCount, hframe.fld_eq (by decide), rxCount]
  have htx : txCount (relockedLanes s p) p = txCount s p := by
    rw [txCount, hframe.fld_eq (by decide), txCount]
  have hgo := exitLowPower_eq (s := s) (p := p) failed
  rw [hempty] at hgo
  dsimp only at hgo
  rw [if_neg (by decide), if_neg (by rw [hframe.flag_eq (by decide), hpend]; decide), hrx, htx] at hgo
  refine ⟨_, (exec_lowpowerExitDone hlive h hw failed).trans (congrArg _ hgo), ?_⟩
  have hall := hframe.modPort (fun x => { x with
    link := if rxCount s p = 16 ∧ txCount s p = 16 then .active else .degraded
    scrTx := seeds (txCount s p)
    scrRx := seeds (rxCount s p) })
  obtain ⟨hclock, hlanes⟩ := lock_relockedLanes (s := s) (p := p)
  refine ⟨?_, ?_, ?_, fun l hl => ?_, regsOutside_lanes hall, hall.ports, hall.memory⟩
  · rw [port_modPort_same]
  · rw [port_modPort_same, port_relockedLanes]
  · rw [flag_modPort, hclock]
  · rw [flag_modPort, hlanes l hl]

theorem lowpowerExitDone_retrains (hlive : strikeLive s = true) (h : (s.port p).link = .lowPower)
    (hw : (s.port p).lp = .waking) (failed : BitVec 16)
    (hsome : ∃ l, l < 16 ∧ bit failed.toNat l = true ∧ bit (rxLanes s p) l = true) (hclear : statBit s (.port p) 2 = false) :
    Completes (.lowpowerExitDone p failed) s (fun u => (u.port p).link = .retrain ∧ PortsBut p s u ∧
      ∀ l, l < 16 → bit failed.toNat l = true → bit (rxLanes s p) l = true →
        flag u (laneStat s p l) 4 = true ∧ flag u (laneStat s p l) 5 = true) := by
  have hframe := linkFrame_relockedLanes (s := s) (p := p)
  have hstat : statBit (relockedLanes s p) (.port p) 2 = false := (statBit_congr (hframe.rd_eq (by decide))).trans hclear
  have hl : ∀ i ∈ failedLanes s p failed, i < 16 := fun i hi => (mem_failedLanes.1 hi).1
  obtain ⟨l, hlost⟩ := hsome
  have hne : (!(failedLanes s p failed).isEmpty) = true := by
    rw [List.isEmpty_eq_false_iff.2 (List.ne_nil_of_mem (mem_failedLanes.2 hlost))]
    rfl
  have hlink : ((loseLanes (relockedLanes s p) p (failedLanes s p failed)).port p).link = .lowPower := by
    rw [port_loseLanes hl hstat, port_relockedLanes, h]
  obtain ⟨hretrain, hports, -, hshown⟩ := toRetrain_loseLanes hl hstat
  have hgo := exitLowPower_eq (s := s) (p := p) failed
  dsimp only at hgo
  rw [if_pos hne, if_pos hlink] at hgo
  refine ⟨_, (exec_lowpowerExitDone hlive h hw failed).trans (congrArg _ hgo), hretrain,
    fun k hk => (hports k hk).trans (hframe.ports k hk), fun l h16 hf hrx => ?_⟩
  obtain ⟨h4, h5, -⟩ := hshown l (mem_failedLanes.2 ⟨h16, hf, hrx⟩)
  rw [hframe.laneStat_eq (by decide)] at h4 h5
  exact ⟨h4, h5⟩

end

/-- Settles O53: one lemma for each event and each way it may go, from `linkEnWrite_enables` to `lowpowerExitDone_retrains`. -/
theorem linkStates : Obligations.LinkStates := by
  intro s p
  refine ⟨fun v hr h1 => ⟨linkEnWrite_enables hr h1, linkEnWrite_disables hr h1⟩, fun v hr => retrain_retrains hr, fun hlive =>
    ⟨fun lanes hd => ⟨detectPoll_clock hlive hd lanes, detectPoll_noClock hlive hd lanes⟩,
    fun hc => ⟨clockLock_locks hlive hc, clocklockTimeout_detects hlive hc⟩, ks1Timeout_givesUp hlive,
    fun hk => ⟨ks2Timeout_again hlive hk, ks2Timeout_lowers hlive hk, ks2Timeout_givesUp hlive hk⟩,
    fun l => laneLoss_retrains hlive, clockLaneLoss_latches hlive, clockLaneLoss_test hlive, fun rx tx hr he => ?_,
    fun hr => ?_, fun hc hlp => ⟨lowpowerEntry_enters hlive hc hlp, wakeRequest_abandons hlive hc hlp⟩, fun h => ?_⟩⟩
  · exact ⟨laneTestEnd_goesOn hlive hr he rx tx, laneTestEnd_latches hlive hr he rx tx⟩
  · exact ⟨retrainTimeout_latches hlive hr, retrainTimeout_again hlive hr⟩
  · exact ⟨wakeRequest_wakes hlive h, fun hw failed =>
      ⟨lowpowerExitDone_carries hlive h hw failed, lowpowerExitDone_retrains hlive h hw failed⟩⟩

end Sys2Proof.Machine
end
